-- ==== Sys2Proof/Word.lean ====
section
/-!
DEFINITION. The words of the T25 and the sparse table in which the model holds the contents of a
large, mostly empty collection of like things.

Bit 0 of a field is its least significant bit (R8).
-/

namespace Sys2Proof

/-- A byte. -/
abbrev Byte := BitVec 8

/-- A 32-bit register word (R9). -/
abbrev Word := BitVec 32

/-- A 64-bit register (R10). -/
abbrev DWord := BitVec 64

/-- A collection of like things by number, sparse: the entries that differ from the collection's
default, at strictly rising keys (`Machine.Tab.wf`). -/
abbrev Tab (α : Type) := List (Nat × α)

end Sys2Proof
end

