-- ==== Sys2Proof/Syntax.lean ====
section
/-!
DEFINITION. The commands of the T25: one constructor of `Instr` for each row of the opcode table,
with the operands that the row's rules give it, and the structures those operands are made of.

Core numbers of instructions are logical (0 to 239, R21); core numbers of registers and tests are
physical, Ck of CDn (R21). Functions are 0 for the PF and v for VF v (R404). Links are 0 to 35.
-/

namespace Sys2Proof

/-- The core that issues an instruction, and the instruction's stream STM (R136). -/
structure Issue where
  /-- Logical core, 0 to 239 (R21). -/
  core : Nat
  /-- STM, bits [119:117] of the instruction (R136). -/
  stm : BitVec 3
  deriving DecidableEq, Repr

/-- The header of a host command: the function and queue it came through, its CID and its partition
(Table 14.4). -/
structure CmdHdr where
  fn : Nat
  q : Nat
  cid : BitVec 16
  part : Nat
  deriving DecidableEq, Repr

/-- A signature trailer (Table 13.2), field by field. ED_SIG is its halves R and S; MLDSA_SIG is its first 48 bytes, the
commitment's hash, and the rest (log entry 6). -/
structure Trailer where
  magic : Word
  typ : Word
  edPk : BitVec 256
  mldsaPk : BitVec 15616
  edR : BitVec 256
  edS : BitVec 256
  mldsaC : BitVec 384
  mldsaZ : BitVec 26088
  /-- Bytes 5,365 to 5,367. -/
  zeros : BitVec 24
  deriving DecidableEq, Repr

/-- A key blob in host memory (Table 13.9), with the length that its command gives. `entries` is what lies between
byte 1,680 and TAG. -/
structure KeyBlob where
  len : Nat
  magic : Word
  version : BitVec 16
  nkeys : Byte
  flags : Byte
  recordHash : BitVec 384
  /-- Bytes 56 to 63. -/
  zeros : DWord
  epk : BitVec 256
  ct : BitVec 12544
  iv : BitVec 96
  /-- Bytes 1,676 to 1,679. -/
  zeros2 : Word
  entries : List Byte
  tag : BitVec 128
  trailer : Trailer
  deriving DecidableEq, Repr

/-- One chunk of a protected inbound transfer as it lies in host memory (R388): its ciphertext and its tag. -/
structure Chunk where
  data : List Byte
  tag : BitVec 128
  deriving DecidableEq, Repr

/-- A manifest in host memory: its body bytes and its trailer (R418). -/
structure ManifestObj where
  body : List Byte
  trailer : Trailer
  deriving DecidableEq, Repr

/-- A firmware image (R426): every byte before the trailer, and the trailer. -/
structure FwImage where
  body : List Byte
  trailer : Trailer
  deriving DecidableEq, Repr

/-- A signed object named by CUS_CMD (R378): its body and its trailer. -/
structure AnchorObj where
  body : List Byte
  trailer : Trailer
  deriving DecidableEq, Repr

/-- A Riris frame (Table 9.3): its header fields, its payload as the link carries it, encrypted, and its
authentication tag (R254, R277). PLEN is the length of the payload. -/
structure RirisFrame where
  cls : Byte
  ver : Byte
  first : Bool
  last : Bool
  owner : BitVec 5
  prio : BitVec 3
  src : BitVec 20
  dst : BitVec 20
  dqp : BitVec 20
  sqp : BitVec 20
  txseq : BitVec 56
  code : Byte
  psn : Word
  rkey : Word
  roff : BitVec 48
  oplen : Word
  toll : Word
  ackpsn : Word
  payload : List Byte
  tag : BitVec 128
  deriving DecidableEq, Repr

/-- The KIND of a milestone frame (Table 8.3). -/
inductive MsKind
  | arrival | release | watchdogNotice | abandon | hold | withdrawal | replayRequest
  deriving DecidableEq, Repr

/-- A milestone message (R175) in the fields of a milestone frame (Table 8.3). LSEQ is the sending link's
number for the frame (R235), zero in a message that no link has sent. -/
structure MsMsg where
  lseq : BitVec 16 := 0
  src : BitVec 20
  dst : BitVec 20
  job : Word
  mid : BitVec 16
  gen : BitVec 16
  ctx : Byte
  kind : MsKind
  rcount : BitVec 16
  status : Byte
  foldDigest : BitVec 256
  foldEpoch : Word
  foldMod : BitVec 20
  mismatch : Bool
  deriving DecidableEq, Repr

/-- A beacon (Table 8.3). -/
structure Beacon where
  src : BitVec 20
  link : BitVec 6
  speed : BitVec 2
  role : BitVec 2
  epoch : Word
  digest : BitVec 256
  peerOk : Bool
  fenced : Bool
  deriving DecidableEq, Repr

/-- A time frame (Table 12.3). -/
structure TimeFrame where
  src : BitVec 20
  dst : BitVec 20
  locked : Bool
  root : Bool
  wall : Bool
  hops : BitVec 16
  tTx : DWord
  echoTx : DWord
  echoRx : DWord
  deriving DecidableEq, Repr

/-- A frame on an optical link (R234, Table 8.3, R244, R246). -/
inductive Frame
  | riris (f : RirisFrame)
  | milestone (m : MsMsg)
  | beacon (b : Beacon)
  | time (t : TimeFrame)
  | credit (cred : List (BitVec 16))
  | ctlAck (ackseq : BitVec 16)
  | pfc (prio : Nat) (quanta : BitVec 16)
  /-- An ordinary Ethernet frame from its destination address on, with its 802.1Q tag. -/
  | ether (bytes : List Byte)
  /-- The answer to an ARP request or neighbour solicitation (R230): the asker's MAC address, the EtherType and
  what follows it. -/
  | neighbour (dst : BitVec 48) (et : Nat) (body : List Byte)
  deriving DecidableEq, Repr

/-- How a module's milestone release came about: at this module's own counter, or in a message
(R173, R174). -/
inductive MsRelease
  | own (part obj : Nat)
  | message (m : MsMsg)
  deriving DecidableEq, Repr

/-- The kinds of transfer that can lose a flit on a mesh edge (Table 7.14). -/
inductive Transfer
  | corePorter (core op : Nat)
  | updateEngine (die : Nat)
  | convoyAdds (f : RirisFrame)
  | linkFrame
  | contextFetch (qp : Nat)
  | contextWriteback (qp : Nat)
  | hostCopy (h : CmdHdr)
  | traceData (n k : Nat) (records : Nat)
  | scrubWrites
  /-- The flit's error was of one bit and was corrected: nothing is lost (R19). -/
  | corrected
  deriving DecidableEq, Repr

/-- The clock domain instances of R455. -/
inductive ClockAt
  | coreArith (n k : Nat)
  | die (d : Nat)
  | serai
  deriving DecidableEq, Repr

/-- The rails of Table 16.3. -/
inductive Rail
  | vstby | vsv | vio | vphy | vcd (n : Nat) | vln | vcs | hbm (n : Nat) | lpddr | vopt
  deriving DecidableEq, Repr

/-- What a register write, a reset or a shutdown came from: a function, or the management sideband
(R472). -/
inductive Source
  | function (f : Nat)
  | sideband
  deriving DecidableEq, Repr

/-- The measured figures of one power recomputation (R338): the mean input power, its peak, the
uncore, and for each compute die its predicted draw at each allowed CK_ARITH (R342), in order from
1,200 MHz by 50 MHz, and its measured draw. -/
structure PowerMeasure where
  inputW : Nat
  peakW : Nat
  uncoreW : Nat
  energyJ : Nat
  measured : List Nat
  deriving DecidableEq, Repr

/-- The outcomes of a boot (R428 to R430): the strap, SPI NOR, training and self-tests. -/
structure BootReport where
  /-- RECOV# is low at wake. -/
  recov : Bool
  /-- SPI NOR can be read (R428). -/
  flashOk : Bool
  /-- Physical cores (22n + k) that fail self-test. -/
  failedCores : List Nat
  /-- HBM3E stacks that fail training. -/
  failedStacks : List Nat
  /-- Cistern channels (16m + c) that fail training. -/
  failedChannels : List Nat
  /-- Every causeway edge trains and Serai passes its self-test. -/
  causewayOk : Bool
  deriving DecidableEq, Repr

/-- The share of MACs and engine use of an interval on a die (R339). -/
structure PhaseShare where
  draw : Nat
  intervalCycles : Nat
  updBusy : Bool
  redLeads : Bool
  deriving DecidableEq, Repr

/-- A read of BAR0: 32 bits at `off`, or 64 bits. -/
structure BarRead where
  off : Nat
  wide : Bool
  deriving DecidableEq, Repr

/-- The commands of the T25, in the order of the opcode table. -/
inductive Instr
  /-- NOP (R137): no operand but the core. -/
  | nop (i : Issue)
  /-- LOOP (R139). -/
  | loop (i : Issue) (xi : BitVec 4) (step count : Word)
  /-- LOOPM (R139): STEP is signed, 16 bits (Table 5.5). -/
  | loopm (i : Issue) (xi xa : BitVec 4) (addr : BitVec 44) (step : BitVec 16) (max : Word)
  /-- ENDLOOP (R139). -/
  | endloop (i : Issue)
  /-- JUMP (R140). -/
  | jump (i : Issue) (target : BitVec 14)
  /-- BRFLAG (R140). -/
  | brflag (i : Issue) (trec : BitVec 6) (mask : BitVec 3) (sense : Bool) (target : BitVec 14)
  /-- BRMEM (R140). -/
  | brmem (i : Issue) (xa : BitVec 4) (addr : BitVec 44) (sense : Bool) (target : BitVec 14)
  /-- DLBR (R140, R205): DL in ns. -/
  | dlbr (i : Issue) (buf : BitVec 14) (n : BitVec 8) (dl : BitVec 24) (target : BitVec 14)
  /-- DLBR_TOKEN_REACHED (R205). -/
  | dlbrTokenReached (core : Nat)
  /-- DLBR_DEADLINE_EXPIRY (R140). -/
  | dlbrDeadlineExpiry (core : Nat)
  /-- HALT (R147). -/
  | halt (i : Issue)
  /-- ITINERARY_DONE (R147). -/
  | itineraryDone (part : Nat)
  /-- REGWR (R141). -/
  | regwr (i : Issue) (offset : BitVec 16) (xi : BitVec 4) (imm : Word)
  /-- TOKWAIT (R143). -/
  | tokwait (i : Issue) (buf : BitVec 14) (n : BitVec 8) (consume : Bool)
  /-- TOKWAIT_SATISFIED (R143). -/
  | tokwaitSatisfied (core : Nat)
  /-- TOKPOST (R143). -/
  | tokpost (i : Issue) (buf : BitVec 14) (n : BitVec 8)
  /-- RELEASE (R144). -/
  | release (i : Issue) (buf : BitVec 14)
  /-- TOLLREQ (R144, Table 5.7). -/
  | tollreq (i : Issue) (cls : BitVec 4) (target : BitVec 20) (amount : BitVec 24)
  /-- TOLL_GRANT (R145). -/
  | tollGrant (core : Nat)
  /-- FENCE (R168). -/
  | fence (i : Issue)
  /-- FENCE_COMPLETE (R168, R170). -/
  | fenceComplete (core : Nat)
  /-- MSARRIVE (R172, R154). -/
  | msarrive (i : Issue) (mid : BitVec 16) (wait rp vr : Bool)
  /-- HOSTNOTE (R415). -/
  | hostnote (i : Issue) (queue : BitVec 8) (payload : Word)
  /-- COPY (R137). -/
  | copy (i : Issue) (src dst : BitVec 14) (pbuf : BitVec 14) (post add : Bool)
  /-- COPY_COMPLETE (R137): `op` is the operation's number at the core. -/
  | copyComplete (core op : Nat)
  /-- REMOTE (R256). -/
  | remote (i : Issue) (loc : BitVec 14) (qp : BitVec 20) (rkey : Word) (roff : BitVec 44) (kind : BitVec 2)
  /-- REMOTE_COMPLETE (R260). -/
  | remoteComplete (core op : Nat)
  /-- CONVOY (R284). -/
  | convoy (i : Issue) (src : BitVec 14) (tag : BitVec 16) (qp : BitVec 20) (contrib : BitVec 24) (guard : BitVec 7)
  /-- CONVOY_COMPLETE (R286). -/
  | convoyComplete (core op : Nat)
  /-- ARRAY (R58, R94): M and N as their values minus 1. -/
  | array (i : Issue) (a b : BitVec 14) (pmode : BitVec 3) (acc : Bool) (lrow m1 n1 : BitVec 6)
  /-- ARRAYI (R99). -/
  | arrayi (i : Issue) (dxA dxB dwA dwB : BitVec 14) (dxAcc dwAcc : Bool) (dxM1 dwM1 : BitVec 5) (dxN1 dwN1 : BitVec 6)
  /-- DRAW (R78). -/
  | draw (i : Issue) (lrow m1 n1 : BitVec 6) (dst : BitVec 14) (rmode : BitVec 3) (srbits : BitVec 2) (keep : Bool) (wm : BitVec 4) (image : Bool) (sa sb : BitVec 14)
  /-- CONV (R38). -/
  | conv (i : Issue) (src dst : BitVec 14) (rmode : BitVec 3) (srbits : BitVec 2) (clrrec : Bool)
  /-- VEC (R142). -/
  | vec (i : Issue) (vop : Byte) (x y z w : BitVec 14) (yrow : Bool) (imm : Word)
  /-- TALLY (R440). -/
  | tally (i : Issue) (mask : Word) (dst : BitVec 14)
  /-- TRACE (R442). -/
  | trace (i : Issue) (mark : BitVec 16) (payload : Word)
  /-- CORE_FAULT_REPORT (R146): physical core Ck of CDn. -/
  | coreFaultReport (n k : Nat)
  /-- CMD_NOP (R148). -/
  | cmdNop (h : CmdHdr)
  /-- LOAD_ITINERARY (R133, R161): the image's internal address and the RESUME flag. -/
  | loadItinerary (h : CmdHdr) (image : BitVec 48) (resume : Bool)
  /-- START (R151). -/
  | start (h : CmdHdr)
  /-- PAUSE (R151). -/
  | pause (h : CmdHdr)
  /-- RESUME (R148). -/
  | resume (h : CmdHdr)
  /-- STOP (R152). -/
  | stop (h : CmdHdr)
  /-- CONTEXT_SWITCH_DONE (R152). -/
  | contextSwitchDone (part : Nat)
  /-- POST_TOKEN (R148). -/
  | postToken (h : CmdHdr) (die : BitVec 4) (buf n : BitVec 8)
  /-- COPY_IN (R388): `data` is what the host memory holds (plain), `chunks` what arrives under
  PROTECT. -/
  | copyIn (h : CmdHdr) (host : DWord) (dev : BitVec 48) (len : Word) (protect : Bool) (slot : BitVec 6) (stream : Word) (data : List Byte) (chunks : List Chunk)
  /-- COPY_OUT (R388). -/
  | copyOut (h : CmdHdr) (host : DWord) (dev : BitVec 48) (len : Word) (protect : Bool) (slot : BitVec 6)
  /-- REGISTER_REGION (R271). -/
  | registerRegion (h : CmdHdr) (rkey : Word) (base size : BitVec 48) (rights : BitVec 3) (slot : BitVec 6)
  /-- REVOKE_REGION (R273). -/
  | revokeRegion (h : CmdHdr) (rkey : Word)
  /-- REGION_DRAINED (R273). -/
  | regionDrained (idx : Nat)
  /-- INSTALL_KEY (R386). -/
  | installKey (h : CmdHdr) (blob : KeyBlob)
  /-- SCRUB (R395). -/
  | scrub (h : CmdHdr)
  /-- APPLY_MANIFEST (R421): the object at HOST; `len` is the command's LEN. -/
  | applyManifest (h : CmdHdr) (len : Nat) (obj : ManifestObj)
  /-- MANIFEST_ACTIVATION (R424). -/
  | manifestActivation
  /-- MANIFEST_SWITCH_TIMEOUT (R424). -/
  | manifestSwitchTimeout (part : Nat)
  /-- MANIFEST_CANCEL (R422). -/
  | manifestCancel (fn : Nat)
  /-- PLACEMENT_PLACE (R199). -/
  | placementPlace (fn part : Nat)
  /-- PLACEMENT_REMOVE (R200). -/
  | placementRemove (fn part : Nat)
  /-- PLACEMENT_REMOVE_DONE (R200). -/
  | placementRemoveDone (part : Nat)
  /-- PLACEMENT_READ_BACK (R200). -/
  | placementReadBack (fn part : Nat)
  /-- QP_CREATE (R253): through partition `part`'s page at lantern `m`. -/
  | qpCreate (fn m part : Nat)
  /-- QP_DESTROY (R253). -/
  | qpDestroy (fn m part : Nat)
  /-- QP_PIN (R253). -/
  | qpPin (fn m part : Nat)
  /-- QP_UNPIN (R253). -/
  | qpUnpin (fn m part : Nat)
  /-- QP_RESET (R253). -/
  | qpReset (fn m part : Nat)
  /-- QP_READ_BACK (R253). -/
  | qpReadBack (fn m part : Nat)
  /-- ANCHOR_ENROL (R378). -/
  | anchorEnrol (fn : Nat) (obj : AnchorObj)
  /-- ANCHOR_RELEASE (R378). -/
  | anchorRelease (fn : Nat) (obj : AnchorObj)
  /-- SVN_ADVANCE (R376). -/
  | svnAdvance (fn : Nat)
  /-- KEYGEN (R383). -/
  | keygen (fn part : Nat)
  /-- KEY_SLOT_EMPTY (R387). -/
  | keySlotEmpty (fn part : Nat) (slot : BitVec 6)
  /-- CV_SWITCH_ARM (R309). -/
  | cvSwitchArm (fn part : Nat)
  /-- CV_SWITCH_DISARM (R315). -/
  | cvSwitchDisarm (fn part : Nat)
  /-- SHUTDOWN (R431). -/
  | shutdown (src : Source)
  /-- REBOOT (R431). -/
  | reboot (src : Source)
  /-- QUIESCE_DONE (R431). -/
  | quiesceDone
  /-- FIRMWARE_UPDATE (R427). -/
  | firmwareUpdate (fn : Nat) (image : FwImage)
  /-- FIRMWARE_UPDATE_DONE (R427): whether the read-back agrees. -/
  | firmwareUpdateDone (ok : Bool)
  /-- LIFETIME_COMMIT_CMD (R361). -/
  | lifetimeCommitCmd (fn : Nat)
  /-- LIFETIME_COMMIT_TIMER (R361). -/
  | lifetimeCommitTimer
  /-- SERVICE_DUE (R363). -/
  | serviceDue (k : Nat)
  /-- TALLY_SNAP (R439). -/
  | tallySnap (fn n k : Nat)
  /-- TOTAL_SNAP (R459). -/
  | totalSnap (fn : Nat)
  /-- TALLY_TOTAL_UPDATE (R441). -/
  | tallyTotalUpdate
  /-- TRACE_TALLY_PERIOD (R442). -/
  | traceTallyPeriod (n k : Nat)
  /-- TRACE_DRAIN (R443): up to `count` records of core Ck of CDn. -/
  | traceDrain (n k count : Nat)
  /-- LINK_ADMIN_DOWN (R239). -/
  | linkAdminDown (fn link : Nat)
  /-- LINK_ADMIN_UP (R236). -/
  | linkAdminUp (fn link : Nat)
  /-- RETRAIN (R239). -/
  | retrain (fn link : Nat)
  /-- QUAR_INJECT (R165). -/
  | quarInject (fn n : Nat) (phys : BitVec 5)
  /-- RES_INJECT (R92). -/
  | resInject (fn n k : Nat) (target : BitVec 2)
  /-- HBM_INJECT (R219). -/
  | hbmInject (fn n : Nat) (kind : BitVec 2)
  /-- CIS_INJECT_ERROR (R220): KIND 1 or 2. -/
  | cisInjectError (fn m : Nat) (dbl : Bool) (chan : BitVec 4)
  /-- CIS_INJECT_FAIL (R206): KIND 3. -/
  | cisInjectFail (fn m : Nat) (chan : BitVec 4)
  /-- PORTER_INJECT_AUTH (R281). -/
  | porterInjectAuth (fn m : Nat)
  /-- PORTER_INJECT_DROP (R281). -/
  | porterInjectDrop (fn m : Nat)
  /-- UPD_SUBMIT (R129): the write to word 15. -/
  | updSubmit (fn n : Nat) (word15 : Word)
  /-- UPD_HALT (R129). -/
  | updHalt (fn n : Nat) (v : Bool)
  /-- UPD_UCODE_WRITE (R126): `idx` 0 to 63 writes UPD_UCODE, 64 writes UPD_UCODE_LEN. -/
  | updUcodeWrite (fn n idx : Nat) (v : Word)
  /-- UPDATE_ENGINE_TAKE (R118). -/
  | updateEngineTake (n : Nat)
  /-- UPDATE_ENGINE_COMPLETE (R120). -/
  | updateEngineComplete (n : Nat)
  /-- COUNTING_HOUSE_ADD (R303). -/
  | countingHouseAdd (n : Nat)
  /-- MS_DEF_WRITE (R171): `off` is the register's offset in the partition's milestone window. -/
  | msDefWrite (fn part off : Nat) (v : Word)
  /-- TIME_STEP (R356): a write to TB_STEP_HI. -/
  | timeStep (src : Source) (hi : Word)
  /-- PWR_BUDGET_WRITE (R336). -/
  | pwrBudgetWrite (src : Source) (v : Word)
  /-- LOG_CURSOR_WRITE (R450): a 64-bit write, or a 32-bit write of the low or the high half. -/
  | logCursorWrite (fn : Nat) (wide high : Bool) (v : DWord)
  /-- LOG_AUTO_ADVANCE (R450). -/
  | logAutoAdvance (fn : Nat)
  /-- QUEUE_ENABLE (R408): a write of QUEUE_CTL with EN = 1. -/
  | queueEnable (fn q : Nat) (v : Word)
  /-- QUEUE_DISABLE (R408): a write of QUEUE_CTL with EN = 0. -/
  | queueDisable (fn q : Nat) (v : Word)
  /-- QUEUE_HALT_CLEAR (R412). -/
  | queueHaltClear (fn q : Nat)
  /-- DOORBELL_SQ_TAIL (R409): `descs` is what the submission ring holds from the head on. -/
  | doorbellSqTail (fn q : Nat) (tail : Word) (descs : List (BitVec 512))
  /-- DOORBELL_CQ_HEAD (R409). -/
  | doorbellCqHead (fn q : Nat) (head : Word)
  /-- QUEUE_RING_ERROR (R413). -/
  | queueRingError (fn q : Nat)
  /-- MSIX_COALESCE_EXPIRY (R414). -/
  | msixCoalesceExpiry (fn q : Nat)
  /-- EVENT_DELIVER_DEFERRED (R415). -/
  | eventDeliverDeferred (fn : Nat)
  /-- NIC_SEND_DESCRIPTOR (R416): the descriptor and the frame at its host address. -/
  | nicSendDescriptor (fn q : Nat) (desc : BitVec 512) (data : List Byte)
  /-- NIC_RX_BUFFER_POST (R417). -/
  | nicRxBufferPost (fn q : Nat) (desc : BitVec 512)
  /-- BAR0_BAD_ACCESS (R9). -/
  | bar0BadAccess (fn off bytes : Nat) (write : Bool)
  /-- REGISTER_LOW_HALF_READ (R10): a 32-bit read of a half of a 64-bit register. -/
  | registerLowHalfRead (fn off : Nat)
  /-- REGISTER_READ_CLEAR (R11): a read, which clears the RC fields that it returns. -/
  | registerReadClear (fn : Nat) (rd : BarRead)
  /-- REGISTER_WRITE (R11): a 32-bit write at `off`, or a 64-bit write of two words. -/
  | registerWrite (fn off : Nat) (wide : Bool) (v : DWord)
  /-- FLR_VF (R407). -/
  | flrVf (v : Nat)
  /-- FLR_PF (R407). -/
  | flrPf
  /-- SPDM_GET_VERSION (R380). -/
  | spdmGetVersion (fn : Nat)
  /-- SPDM_GET_CAPABILITIES (R380). -/
  | spdmGetCapabilities (fn : Nat)
  /-- SPDM_NEGOTIATE_ALGORITHMS (R380): whether the request offers the two algorithms supported. -/
  | spdmNegotiateAlgorithms (fn : Nat) (ed25519 sha384 : Bool)
  /-- SPDM_GET_DIGESTS (R380). -/
  | spdmGetDigests (fn : Nat)
  /-- SPDM_GET_CERTIFICATE (R380). -/
  | spdmGetCertificate (fn slot off len : Nat)
  /-- SPDM_CHALLENGE (R380). -/
  | spdmChallenge (fn slot : Nat) (nonce : BitVec 256)
  /-- GET_MEASUREMENTS (R381). -/
  | getMeasurements (fn : Nat) (index : Byte) (signed : Bool) (nonce : BitVec 256)
  /-- SPDM_UNSUPPORTED (R380). -/
  | spdmUnsupported (fn : Nat) (request : Byte)
  /-- SIDEBAND_READ (R472). -/
  | sidebandRead (seq offset : Word)
  /-- SIDEBAND_WRITE (R472). -/
  | sidebandWrite (seq offset value : Word)
  /-- SIDEBAND_WAKE (R472). -/
  | sidebandWake (seq : Word)
  /-- RIRIS_WRITE (R261). -/
  | ririsWrite (f : RirisFrame)
  /-- RIRIS_WRITE_NOTIFY (R261). -/
  | ririsWriteNotify (f : RirisFrame)
  /-- RIRIS_READ_REQ (R270). -/
  | ririsReadReq (f : RirisFrame)
  /-- RIRIS_READ_RESP (R260). -/
  | ririsReadResp (f : RirisFrame)
  /-- RIRIS_NOTIFY (R261). -/
  | ririsNotify (f : RirisFrame)
  /-- RIRIS_ACK (R263). -/
  | ririsAck (f : RirisFrame)
  /-- RIRIS_NAK (R264). -/
  | ririsNak (f : RirisFrame)
  /-- RIRIS_UNKNOWN_FRAME (R255). -/
  | ririsUnknownFrame (f : RirisFrame)
  /-- CONVOY_FRAME (R297). -/
  | convoyFrame (f : RirisFrame)
  /-- CONTEXT_MISS (R268). -/
  | contextMiss (f : RirisFrame)
  /-- CONTEXT_FETCH_DONE (R269): queue pair, and whether its fetch met an uncorrectable word. -/
  | contextFetchDone (qp : BitVec 20) (uncorrectable : Bool)
  /-- PARKED_FRAME_TIMEOUT (R269): the oldest parked frame of queue pair `qp`. -/
  | parkedFrameTimeout (qp : BitVec 20)
  /-- QP_RETRY_TIMEOUT (R263). -/
  | qpRetryTimeout (qp : BitVec 20)
  /-- ACK_DELAY_EXPIRY (R262). -/
  | ackDelayExpiry (qp : BitVec 20)
  /-- FRAME_FORWARD (R231): a frame that arrived on `link` on lane B or A. -/
  | frameForward (link : Nat) (laneB : Bool) (f : Frame)
  /-- SWITCHED_FRAME_SEND (R320): `fromPlane` is the link when the frame was received from a plane. -/
  | switchedFrameSend (fromPlane : Option Nat) (f : Frame)
  /-- BEACON_DUE (R237). -/
  | beaconDue (link : Nat)
  /-- BEACON_RECEIVED (R238). -/
  | beaconReceived (link : Nat) (b : Beacon)
  /-- BEACON_LOSS_TIMEOUT (R238). -/
  | beaconLossTimeout (link : Nat)
  /-- BEACON_GRACE_EXPIRY (R238). -/
  | beaconGraceExpiry (link : Nat)
  /-- LINK_RETRY_TIMER (R236). -/
  | linkRetryTimer (link : Nat)
  /-- OPTICS_POWER_OK (R236). -/
  | opticsPowerOk (link : Nat)
  /-- OPTICS_TIMEOUT (R236). -/
  | opticsTimeout (link : Nat)
  /-- ALIGN_DONE (R236). -/
  | alignDone (link : Nat)
  /-- ALIGN_TIMEOUT (R236). -/
  | alignTimeout (link : Nat)
  /-- BEACON_WAIT_TIMEOUT (R236). -/
  | beaconWaitTimeout (link : Nat)
  /-- PCS_ALIGNMENT_LOST (R239). -/
  | pcsAlignmentLost (link : Nat)
  /-- PCS_HIGH_SER (R239). -/
  | pcsHighSer (link : Nat)
  /-- CONTROL_ACK_RECEIVED (R235). -/
  | controlAckReceived (link : Nat) (ackseq : BitVec 16)
  /-- CONTROL_RETX_TIMEOUT (R235). -/
  | controlRetxTimeout (link : Nat)
  /-- CREDIT_FRAME_RECEIVED (R243): CRED[0..7]. -/
  | creditFrameReceived (link : Nat) (cred : List (BitVec 16))
  /-- CREDIT_FRAME_TIMER (R243). -/
  | creditFrameTimer (link : Nat)
  /-- PFC_FRAME_RECEIVED (R244): the enable vector and the eight times. -/
  | pfcFrameReceived (link : Nat) (enable : Byte) (times : List (BitVec 16))
  /-- PFC_PAUSE_EXPIRY (R244). -/
  | pfcPauseExpiry (link prio : Nat)
  /-- PFC_REPEAT_TIMER (R244). -/
  | pfcRepeatTimer (link prio : Nat)
  /-- PFC_WATCHDOG_FIRE (R245). -/
  | pfcWatchdogFire (link prio : Nat)
  /-- PFC_RECOVERY_END (R245). -/
  | pfcRecoveryEnd (link prio : Nat)
  /-- NIC_FRAME_RECEIVED (R246). -/
  | nicFrameReceived (link : Nat) (bytes : List Byte)
  /-- ARP_ND_FRAME (R230): an ARP request or an IPv6 neighbour solicitation: its 18-byte head, which is the
  addresses, the 802.1Q tag and the EtherType, and what follows. -/
  | arpNdFrame (link : Nat) (head body : List Byte)
  /-- TIME_FRAME_DUE (R354). -/
  | timeFrameDue (link : Nat)
  /-- TIME_FRAME_RECEIVED (R355). -/
  | timeFrameReceived (link : Nat) (t : TimeFrame)
  /-- TIME_REFERENCE_LOSS (R352). -/
  | timeReferenceLoss
  /-- REPLICA_CHECK (R351): the measured differences, in ns, of the 25 dies. -/
  | replicaCheck (diffs : List Int)
  /-- PTP_LOCK_CHANGE (R353). -/
  | ptpLockChange (locked : Bool)
  /-- MS_LOCAL_ARRIVAL (R173). -/
  | msLocalArrival (part obj core : Nat)
  /-- MS_ARRIVAL_MSG (R174). -/
  | msArrivalMsg (m : MsMsg)
  /-- MS_RELEASE (R173). -/
  | msRelease (r : MsRelease)
  /-- MS_WATCHDOG_FIRE (R179). -/
  | msWatchdogFire (part obj : Nat)
  /-- MS_WATCHDOG_NOTICE (R180). -/
  | msWatchdogNotice (m : MsMsg)
  /-- MS_ABANDON (R183). -/
  | msAbandon (m : MsMsg)
  /-- MS_HOLD (R181). -/
  | msHold (m : MsMsg)
  /-- MS_WITHDRAWAL (R181). -/
  | msWithdrawal (m : MsMsg)
  /-- MS_REPLAY_REQUEST (R175). -/
  | msReplayRequest (m : MsMsg)
  /-- SPUR_FLIT_ERROR (R222): the receiving die, the sending die, and how many times the flit has now
  failed; 0 when its error was of one bit and was corrected. -/
  | spurFlitError (rx tx failures : Nat)
  /-- MESH_FLIT_LOSS (R222): receiving die and port, and the transfer to which the flit belonged. -/
  | meshFlitLoss (die port : Nat) (t : Transfer)
  /-- CORRECTED_WRITEBACK (R211): the tier (cistern or HBM) and the word's physical key. -/
  | correctedWriteback (cistern : Bool) (word : Nat)
  /-- PATROL_READ (R214): one word of a stack (0 to 11) or of a cistern die (0 to 5), and whether the
  pass ends with it. -/
  | patrolRead (cistern : Bool) (unit word : Nat) (passEnd : Bool)
  /-- CISTERN_READ_TIMEOUT (R206). -/
  | cisternReadTimeout (m : Nat) (chan : BitVec 4)
  /-- HBM_READ_TIMEOUT (R209). -/
  | hbmReadTimeout (n : Nat)
  /-- PERIODIC_CORE_TEST (R453). -/
  | periodicCoreTest (n k : Nat) (pass : Bool) (cycles : Nat)
  /-- PERIODIC_ENGINE_TEST (R454): the counting house (true) or update engine (false) of CDn. -/
  | periodicEngineTest (n : Nat) (house pass : Bool)
  /-- LOCKSTEP_MISMATCH (R452). -/
  | lockstepMismatch (n k : Nat)
  /-- CLOCK_MONITOR_FAULT (R455). -/
  | clockMonitorFault (c : ClockAt)
  /-- FIRMWARE_WATCHDOG (R431). -/
  | firmwareWatchdog
  /-- POWER_RECOMPUTE (R338). -/
  | powerRecompute (m : PowerMeasure)
  /-- PHASE_LEARN (R339): the twelve dies' interval figures. -/
  | phaseLearn (part : Nat) (dies : List PhaseShare)
  /-- SUPPLY_VOLTAGE_CHANGE (R337). -/
  | supplyVoltageChange (mv : Nat)
  /-- THERMAL_SAMPLE (R349): die d of 0 to 24. -/
  | thermalSample (d : Nat) (tj : Byte)
  /-- DROOP_CROSSING (R347): 3 % or 6 % below the set point. -/
  | droopCrossing (d : Nat) (six : Bool)
  /-- DROOP_STRETCH_END (R347): the number of stretched cycles. -/
  | droopStretchEnd (d : Nat) (cycles : Nat)
  /-- LOG_ARCHIVE_PROGRAM (R451). -/
  | logArchiveProgram
  /-- POWER_PRESENT (R465): VIN in mV. -/
  | powerPresent (mv : Nat)
  /-- POWER_LOST (R465). -/
  | powerLost
  /-- OVERVOLTAGE (R465). -/
  | overvoltage
  /-- WAKE (R429): RECOV# is sampled low when `recov`. -/
  | wake (recov : Bool)
  /-- BOOT_DONE (R429). -/
  | bootDone (r : BootReport)
  /-- PERST (R469). -/
  | perst
  /-- MRST (R469). -/
  | mrst
  /-- LEAK_DETECTED (R475). -/
  | leakDetected
  /-- RAIL_FAULT (R467). -/
  | railFault (r : Rail)
  /-- PCIE_LINK_TRAINED (R402): speed and width codes of FN_LINK. -/
  | pcieLinkTrained (speed : BitVec 3) (width : BitVec 2)
  /-- RECOVERY_RECALL_DONE (R157). -/
  | recoveryRecallDone (part : Nat)
  /-- REASSIGNMENT_SCRUB_DONE (R394). -/
  | reassignmentScrubDone
  /-- SCRUB_DONE (R395). -/
  | scrubDone (part : Nat)
  /-- FRAME_DISCARDED (R227): whether the FCS is good, and the frame up to the FCS: its two addresses, its 802.1Q tag
  where it has one, and the rest. -/
  | frameDiscarded (link : Nat) (fcsOk : Bool) (addrs tag body : List Byte)
  /-- LEAK_CLEARED (R475). -/
  | leakCleared
  /-- LIFETIME_COMMIT_DONE (R361): whether the read-back agrees. -/
  | lifetimeCommitDone (ok : Bool)
  deriving DecidableEq, Repr

end Sys2Proof
end

