-- ==== Sys2Proof/Machine/Float.lean ====
section
/-!
DEFINITION. Number formats, exact values, rounding and the stochastic-rounding generator (chapter 2 of
the spec).
-/

namespace Sys2Proof.Machine

/-- A dyadic number m × 2^e. -/
structure Dy where
  m : Int
  e : Int
  deriving DecidableEq, Repr

/-- The kinds of a floating-point element's value (R30, R32). A finite value is ±m × 2^e. -/
inductive FVal
  | nan
  | inf (neg : Bool)
  | fin (neg : Bool) (m : Nat) (e : Int)
  deriving DecidableEq, Repr

/-- A floating-point layout (Table 2.2): exponent and mantissa widths, bias, largest finite pattern, the
pattern of infinity, and the canonical NaN. -/
structure Layout where
  ebits : Nat
  mbits : Nat
  bias : Nat
  top : Nat
  inf : Option Nat
  nan : Option Nat
  deriving DecidableEq, Repr

/-- The layouts of FMT 0x0 to 0x7 (Table 2.2, R32). -/
def layoutOf : Nat → Layout
  | 0 => ⟨8, 23, 127, 0x7F7FFFFF, some 0x7F800000, some 0x7FC00000⟩
  | 1 => ⟨8, 7, 127, 0x7F7F, some 0x7F80, some 0x7FC0⟩
  | 2 => ⟨5, 10, 15, 0x7BFF, some 0x7C00, some 0x7E00⟩
  | 3 => ⟨4, 3, 7, 0x7E, none, some 0x7F⟩
  | 4 => ⟨5, 2, 15, 0x7B, some 0x7C, some 0x7E⟩
  | 5 => ⟨3, 2, 3, 0x1F, none, none⟩
  | 6 => ⟨2, 3, 1, 0x1F, none, none⟩
  | _ => ⟨2, 1, 1, 0x7, none, none⟩

/-- Element widths in bits by FMT, the T72 container included (Table 2.1, R35). A reserved FMT has no width; where
one is measured before R28 refuses it, in the window test of Table 5.3, row 2, it counts as 96 bits (log entry 62). -/
def fmtBits : Nat → Nat
  | 0 => 32
  | 1 => 16
  | 2 => 16
  | 3 => 8
  | 4 => 8
  | 5 => 6
  | 6 => 6
  | 7 => 4
  | _ => 96

/-- The sign bit of a layout, as a number. -/
def Layout.signBit (l : Layout) : Nat := 2 ^ (l.ebits + l.mbits)

/-- The value of an element's pattern (R30). -/
def Layout.value (l : Layout) (p : Nat) : FVal :=
  let neg := decide (l.signBit ≤ p % (2 * l.signBit))
  let mag := p % l.signBit
  let m := mag % 2 ^ l.mbits
  let ef := mag / 2 ^ l.mbits
  if l.top < mag then
    if l.inf = some mag then .inf neg else .nan
  else if ef = 0 then .fin neg m (1 - (l.bias : Int) - l.mbits)
  else .fin neg (2 ^ l.mbits + m) ((ef : Int) - l.bias - l.mbits)

/-- Is the element a subnormal: exponent field zero and mantissa not (R30)? -/
def Layout.subnormal (l : Layout) (p : Nat) : Bool :=
  let mag := p % l.signBit
  decide (mag < 2 ^ l.mbits) && decide (0 < mag)

/-- The dyadic number of a finite value. -/
def FVal.dy : FVal → Dy
  | .fin neg m e => ⟨if neg then -(m : Int) else m, e⟩
  | _ => ⟨0, 0⟩

/-- A 72-bit two's-complement integer (R34). -/
def t72Int (v : Nat) : Int :=
  let w : Nat := v % 2 ^ 72
  if w < 2 ^ 71 then (w : Int) else (w : Int) - 2 ^ 72

/-- The 12-byte container of V, with bits [95:72] as copies of bit 71 (R35). -/
def t72Container (v : Int) : Nat := (v % 2 ^ 96).toNat

def Dy.mul (a b : Dy) : Dy := ⟨a.m * b.m, a.e + b.e⟩

/-- The numerator and denominator of |m × 2^e ÷ (n × 2^f)|, n not 0. -/
def Dy.fracDiv (a : Dy) (b : Dy) : Nat × Nat :=
  let e := a.e - b.e
  (a.m.natAbs * 2 ^ e.toNat, b.m.natAbs * 2 ^ (-e).toNat)

/-- floor(log2(n ÷ d)) for n, d not 0. -/
def fracLog2 (n d : Nat) : Int :=
  let g : Int := (Nat.log2 n : Int) - Nat.log2 d
  if d * 2 ^ g.toNat ≤ n * 2 ^ (-g).toNat then g else g - 1

/-- Rounding modes (Table 2.3). SR carries SR_BITS and the random number r. -/
inductive RMode
  | rne | rtz | rup | rdn | rto
  | sr (n r : Nat)
  deriving DecidableEq, Repr

/-- A magnitude between lo and lo + 1, `rem ÷ d` above lo, rounded (R39, R40, R50). -/
def RMode.pick (r : RMode) (neg : Bool) (lo rem d : Nat) : Nat :=
  if rem = 0 then lo
  else
    match r with
    | .rne => if 2 * rem < d ∨ (2 * rem = d ∧ lo % 2 = 0) then lo else lo + 1
    | .rtz => lo
    | .rup => if neg then lo else lo + 1
    | .rdn => if neg then lo + 1 else lo
    | .rto => lo ||| 1
    | .sr n x => if 2 ^ n ≤ rem * 2 ^ n / d + x then lo + 1 else lo

/-- What a conversion writes and the events it notes (R41 to R43, R46). -/
structure ConvOut where
  pat : Nat
  flushed : Bool := false
  overflow : Bool := false
  nonfinite : Bool := false
  deriving DecidableEq, Repr

/-- The magnitude pattern of n ÷ d rounded with the layout's precision and an unbounded exponent
(R41): patterns above `top` overflow. -/
def Layout.roundMag (l : Layout) (r : RMode) (neg : Bool) (n d : Nat) : Nat :=
  if n = 0 then 0
  else
    let qmin : Int := 1 - (l.bias : Int) - l.mbits
    let q := max (fracLog2 n d - (l.mbits : Int)) qmin
    let num := n * 2 ^ (-q).toNat
    let den := d * 2 ^ q.toNat
    (q - qmin).toNat * 2 ^ l.mbits + r.pick neg (num / den) (num % den) den

/-- The magnitude pattern of an overflowing result (Table 2.4). -/
def Layout.overMag (l : Layout) (r : RMode) (neg : Bool) : Nat :=
  match l.inf with
  | none => l.top
  | some i =>
    match r with
    | .rne => i
    | .rtz => l.top
    | .rup => if neg then l.top else i
    | .rdn => if neg then i else l.top
    | .rto => l.top
    | .sr _ _ => l.top

/-- Is n ÷ d non-zero and below the smallest normal (R43)? -/
def Layout.tiny (l : Layout) (n d : Nat) : Bool :=
  decide (0 < n) && decide (fracLog2 n d < 1 - (l.bias : Int))

/-- A finite y of sign `neg` and magnitude n ÷ d into the layout (R38, R41, R43). -/
def Layout.convert (l : Layout) (flush : Bool) (r : RMode) (neg : Bool) (n d : Nat) : ConvOut :=
  let s := if neg then l.signBit else 0
  if flush && l.tiny n d then { pat := s, flushed := true }
  else
    let k := l.roundMag r neg n d
    if l.top < k then { pat := s + l.overMag r neg, overflow := true }
    else { pat := s + k }

/-- A non-finite x into the layout (Table 2.5). -/
def Layout.convertSpecial (l : Layout) (x : FVal) : ConvOut :=
  match x with
  | .nan =>
    match l.nan with
    | some p => { pat := p }
    | none => { pat := 0, nonfinite := true }
  | .inf neg =>
    let s := if neg then l.signBit else 0
    match l.inf with
    | some p => { pat := s + p }
    | none => { pat := s + l.top, nonfinite := true }
  | .fin _ _ _ => { pat := 0 }

/-- y rounded to an integer V for T72 (R38, R40, R50): `neg` and n ÷ d are y's sign and magnitude. -/
def t72Round (r : RMode) (neg : Bool) (n d : Nat) : Int :=
  match r with
  | .sr b x =>
    let y : Int := if neg then -(n : Int) else n
    let lo := y / (d : Int)
    let rem := (y % (d : Int)).toNat
    if rem ≠ 0 ∧ 2 ^ b ≤ rem * 2 ^ b / d + x then lo + 1 else lo
  | _ =>
    let k := r.pick neg (n / d) (n % d) d
    if neg then -(k : Int) else k

/-- A finite y into T72, saturating with OVERFLOW (R41). -/
def t72Convert (r : RMode) (neg : Bool) (n d : Nat) : ConvOut :=
  let v := t72Round r neg n d
  if 2 ^ 71 - 1 < v then { pat := t72Container (2 ^ 71 - 1), overflow := true }
  else if v < -(2 ^ 71) then { pat := t72Container (-(2 ^ 71)), overflow := true }
  else { pat := t72Container v }

/-- A non-finite x into T72 (Table 2.5). -/
def t72Special (x : FVal) : ConvOut :=
  match x with
  | .inf neg => { pat := t72Container (if neg then -(2 ^ 71) else 2 ^ 71 - 1), nonfinite := true }
  | _ => { pat := 0, nonfinite := true }

/-- FMT 8 is T72. -/
def fmtT72 : Nat := 8

/-- The conversion of a source value x into FMT `fmt` at scale `s` (R38 to R43): y := x ÷ s. -/
def convertTo (fmt : Nat) (flush : Byte) (r : RMode) (s : Dy) (x : FVal) : ConvOut :=
  match x with
  | .fin neg m e =>
    let f := (Dy.mk m e).fracDiv s
    if fmt = fmtT72 then t72Convert r neg f.1 f.2
    else (layoutOf fmt).convert (bitAt flush.toNat fmt) r neg f.1 f.2
  | _ => if fmt = fmtT72 then t72Special x else (layoutOf fmt).convertSpecial x

/-- |x| rounded to F32 towards +∞, the a of R45; none for a NaN. -/
def amaxOf (x : FVal) : Option Nat :=
  match x with
  | .nan => none
  | .inf _ => some 0x7F800000
  | .fin _ m e => some ((layoutOf 0).convert false .rup false (m * 2 ^ e.toNat) (2 ^ (-e).toNat)).pat

/-- Is a scale word valid (R37): positive, finite, normal, and a power of two for T72? -/
def scaleOk (t72 : Bool) (w : Nat) : Bool :=
  decide (0x00800000 ≤ w) && decide (w < 0x7F800000)
    && (!t72 || decide (w % 2 ^ 23 = 0))

/-- The value of a valid scale word. -/
def scaleDy (w : Nat) : Dy := ((layoutOf 0).value w).dy

/-- Words of the Philox counter and key (Table 2.7). -/
structure Philox where
  c0 : Nat
  c1 : Nat
  c2 : Nat
  c3 : Nat
  k0 : Nat
  k1 : Nat
  deriving DecidableEq, Repr

/-- One round of Philox-4x32-10 (R53). -/
def Philox.round (p : Philox) : Philox :=
  let p0 := 0xD2511F53 * p.c0
  let p1 := 0xCD9E8D57 * p.c2
  { c0 := (p1 / 2 ^ 32 ^^^ p.c1) ^^^ p.k0, c1 := p1 % 2 ^ 32,
    c2 := (p0 / 2 ^ 32 ^^^ p.c3) ^^^ p.k1, c3 := p0 % 2 ^ 32,
    k0 := (p.k0 + 0x9E3779B9) % 2 ^ 32, k1 := (p.k1 + 0xBB67AE85) % 2 ^ 32 }

/-- Ten rounds (R53): x0 to x3 are c0 to c3 of the answer. -/
def Philox.run (p : Philox) : Philox :=
  p.round.round.round.round.round.round.round.round.round.round

/-- SR_BITS of an SRBITS code (Table 2.3). -/
def srBits (code : Nat) : Nat := if code = 0 then 8 else if code = 1 then 12 else 16

/-- x0 of the generator for element i of tensor `id` (Table 2.7). -/
def srWord (seed step id i : Nat) : Nat :=
  (Philox.mk (i % 2 ^ 32) (i / 2 ^ 32 % 2 ^ 32) id step seed (i % 64)).run.c0

/-- The rounding mode of an instruction's RMODE and SRBITS (R39) for element i: 7 takes the core's
default; `dm`, `db` are RMODE_DEF and SRBITS_DEF. -/
def modeOf (rmode srb dm db seed step id i : Nat) : RMode :=
  let m := if rmode = 7 then dm else rmode
  let b := if rmode = 7 then db else srb
  match m with
  | 0 => .rne
  | 1 => .rtz
  | 2 => .rup
  | 3 => .rdn
  | 4 => .rto
  | _ => .sr (srBits b) (srWord seed step id i / 2 ^ (32 - srBits b))

end Sys2Proof.Machine
end

