-- ==== Sys2Proof/Config.lean ====
section
/-!
DEFINITION. What the spec leaves open or fixes per part: free values (opaque constants with no body,
so that nothing can be proved of them) and the names of functions that the spec takes from other
standards.
-/

namespace Sys2Proof.Config

/-- The n-th free value: nothing constrains it (log entry 5). Meanings apply it to the counter
`State.free` and advance the counter. -/
opaque freeWord : Nat → BitVec 64

/-- What a cistern byte reads as that nothing has written since its last scrub: undefined (R390).
The arguments are the scrub count of the module and the byte's physical key (log entry 10). -/
opaque cisternByte : Nat → Nat → Byte

/-- SHA-384 (R372, R373, R381), named by the spec and not written in it (log entry 6). -/
opaque sha384 : List Byte → BitVec 384

/-- SHA-384 of the Customs ROM, fixed at manufacture (Table 13.5, block 1). -/
opaque romHash : BitVec 384

/-- Plovda's firmware signing keys, ED_PK and MLDSA_PK, whose hash is in the fuses (Table 13.3). -/
opaque fwEdKey : BitVec 256
opaque fwMldsaKey : BitVec 15616

/-- HKDF-SHA-384 of an IKM, a salt and an info string, to 32 bytes (R373, R385). -/
opaque hkdf384 : List Byte → List Byte → List Byte → BitVec 256

/-- HMAC-SHA-384 of a message under a key (R378). -/
opaque hmac384 : BitVec 256 → List Byte → BitVec 384

/-- The unique device secret in the fuses (R373). -/
opaque uds : BitVec 256

/-- The Ed25519 public key of a private key, and the ML-DSA-65 public key of a seed ξ (R373). -/
opaque edPublic : BitVec 256 → BitVec 256
opaque mldsaPublic : BitVec 256 → BitVec 15616

/-- The S that makes (R, S) verify as a pure Ed25519 signature on a message under a public key: of a key, a message
and R (RFC 8032, R372). -/
opaque edCheck : BitVec 256 → List Byte → BitVec 256 → BitVec 256

/-- The commitment hash that makes a pure ML-DSA-65 signature with an empty context verify on a message under a public
key: of the key, the message and the rest of the signature (FIPS 204, R372). -/
opaque mldsaCheck : BitVec 15616 → List Byte → BitVec 26088 → BitVec 384

/-- What a signer with a private key puts for R and for the rest of an ML-DSA-65 signature on a message. -/
opaque edNonce : BitVec 256 → List Byte → BitVec 256
opaque mldsaNonce : BitVec 256 → List Byte → BitVec 26088

/-- ML-KEM-1024 (FIPS 203, R383, R385): the encapsulation key of a pair of seeds, and decapsulation. -/
opaque mlkemPublic : BitVec 512 → BitVec 12544
opaque mlkemDecaps : BitVec 512 → BitVec 12544 → BitVec 256

/-- The image that manufacture left in SPI NOR (R426): its bytes before the trailer, and the trailer's fields in
order. -/
opaque factoryBody : List Byte
opaque factoryTrailer : Nat → Nat

/-- The certificates that manufacture left in SPI NOR (Table 13.6): Plovda's root and intermediate, and the DeviceID
certificate, in DER. -/
opaque plovdaCerts : List Byte
opaque deviceCert : List Byte

/-- The DER of the Alias certificate (R374): of the bytes of the Alias public keys and FWM, the part that is signed, and
of that part and an Ed25519 signature, the whole. -/
opaque aliasTbs : List Byte → List Byte
opaque aliasCert : List Byte → List Byte → List Byte

/-- The bytes of a raw measurement block whose layout the spec does not give (Table 13.7, blocks 5 and 8), by
index and the values it holds (log entry 13). -/
opaque rawBlock : Nat → List Nat → List Byte

/-- DMTFSpecMeasurementValueType, bits 0 to 6, of a measurement block by index: the spec does not give it (log entry
85). -/
opaque measType : Nat → Nat

/-- The 128-bit AES-256-GCM tag under a key, a nonce, additional data and a ciphertext (R277, R384, R388). -/
opaque gcmTag : BitVec 256 → BitVec 96 → List Byte → List Byte → BitVec 128

/-- Byte i of the key stream that AES-256-GCM adds to a text under a key and a nonce (R277, R384, R388). -/
opaque gcmStream : BitVec 256 → BitVec 96 → Nat → Byte

/-- How Riris frames travel on plane Lk of an installation with a SUBNET (R230): 0 in a layer-2 domain, 1 in
IPv4, 2 in IPv6, modulo 3; the spec does not give what selects it (log entry 75). -/
opaque ririsForm : Nat → Nat

/-- What R230 leaves open of a routed frame on plane Lk (log entry 75): the MAC address of its next hop, and the
fields of its IP and UDP headers that no rule gives, by number. -/
opaque nextHop : Nat → BitVec 48
opaque ipField : Nat → Nat → Nat

/-- The draw in watts that the power controller predicts for CDn at a CK_ARITH in MHz, from the learned draw of the
coming phase, a numerator over 4^k (R338, R339, log entry 47): `predictedDraw n d k f`. -/
opaque predictedDraw : Nat → Nat → Nat → Nat → Nat

/-- A vector result that the spec does not state (log entry 12): 1 ÷ ±0, 1 ÷ √x for x not above zero, the
sign of an exact sum of zero over a row, by operation code and operand words. -/
opaque vecOpen : Nat → List Nat → Nat

/-- e^(m × 2^e) rounded to F32 where intervals of 8,192 bits do not decide it (log entry 12). -/
opaque expOpen : Int → Int → Nat

/-- How an ARG of the logbook names a rail of Table 16.3, by its number in the model (R477): the spec does not
give it (log entry 41). -/
opaque railArg : Nat → Word

end Sys2Proof.Config
end

