-- ==== Sys2Proof/Machine/StateHost.lean ====
section
/-!
DEFINITION. State of the host interface: functions and queues, logbook, module, manifest, firmware,
pins and rails (chapters 14, 15 and 16 of the spec).
-/

namespace Sys2Proof.Machine

/-- A command in flight: where its completion goes (Table 14.6) and its code (Table 5.10). -/
structure CmdRef where
  fn : Nat
  q : Nat
  cid : BitVec 16
  code : Nat
  deriving DecidableEq, Repr

/-- The clock gaps of one record source since its last record (R358): the stop in progress, the
first stop and the total. -/
structure Gap where
  stopped : Option DWord := none
  first : Option DWord := none
  total : DWord := 0
  deriving DecidableEq, Repr

/-- A completion entry, Table 14.6, without PHASE, which its ring adds. -/
structure Cqe where
  cid : BitVec 16
  status : Byte
  kind : BitVec 3
  queue : Nat
  result0 : DWord
  result1 : DWord
  deriving DecidableEq, Repr

/-- A buffer posted to a NIC receive ring (R417). -/
structure RxBuf where
  addr : DWord
  size : Nat
  cid : BitVec 16
  deriving DecidableEq, Repr

/-- A queue of a function (R408 to R414, Table 14.14). -/
structure Queue where
  sqBase : DWord := 0
  cqBase : DWord := 0
  log2 : BitVec 5 := 4
  kind : BitVec 2 := 0
  tc : BitVec 2 := 0
  link : BitVec 6 := 0
  en : Bool := false
  haltOnReject : Bool := false
  ien : Bool := true
  coalUs : Byte := 0
  active : Bool := false
  halted : Bool := false
  error : Bool := false
  /-- Submission head and tail, completion head and tail (R409), modulo the ring size. -/
  sqHead : Nat := 0
  sqTail : Nat := 0
  cqHead : Nat := 0
  cqTail : Nat := 0
  /-- The submission ring's descriptors that have not been taken, oldest first. -/
  ring : List (BitVec 512) := []
  /-- PHASE of the current pass (R411). -/
  phase : Bool := true
  /-- Completion slots reserved for descriptors taken and not completed (R412). -/
  taken : Nat := 0
  /-- TIME_NOW of the last MSI-X message and whether one waits for the spacing (R414). -/
  lastMsi : Option DWord := none
  msiPending : Bool := false
  rxBufs : List RxBuf := []
  deriving DecidableEq, Repr

/-- An entry of FN_NIC_MAC (Table 14.14). -/
structure NicMac where
  addrLo : Word := 0
  addrHi : BitVec 16 := 0
  valid : Bool := false
  bcast : Bool := false
  deriving DecidableEq, Repr

/-- A logbook entry (Table 15.5). `args` are the words of ARG in order; GAP fields are held apart. -/
structure LogEntry where
  time : DWord
  code : BitVec 16
  status : Byte
  part : BitVec 5
  cont : Bool
  tmark : BitVec 4
  die : Nat
  suppressed : BitVec 16
  gap : Option (DWord × DWord)
  args : List Word
  snaps : List Word
  deriving DecidableEq, Repr

/-- The copy of a function of the logbook block (Table 15.13). -/
structure LogView where
  ring : BitVec 5 := 16
  cursor : DWord := 0
  heldLow : Option Word := none
  valid : BitVec 3 := 0
  lost : Bool := false
  auto : Bool := false
  window : List LogEntry := []
  deriving DecidableEq, Repr

/-- A function: 0 the PF, v VF v (R404, Tables 14.2 and 14.14). -/
structure Fn where
  bound : Bool := false
  part : BitVec 4 := 0
  qmax : BitVec 9 := 0
  evq : Byte := 0
  evtDrops : Word := 0
  queues : Tab Queue := []
  /-- FN_NIC_MAC[l][i] at key 4 l + i. -/
  nic : Tab NicMac := []
  /-- Notes and events that wait for a completion slot, oldest first, at most 64 (R415). -/
  held : List Cqe := []
  view : LogView := {}
  /-- High halves latched by reads of low halves and not read yet, by the offset of the low half in BAR0 (R10). -/
  latch : Tab Word := []
  deriving DecidableEq, Repr

/-- A measurement block (Table 13.7): its index, its form, a raw bit stream or a digest, and its value. -/
structure Measurement where
  index : Byte
  raw : Bool
  value : List Byte
  deriving DecidableEq, Repr

/-- A response of the SPDM responder on a DOE mailbox (R380, R381). The spec takes the messages' bytes from
DMTF DSP0274, so a response is what the spec says it holds (log entry 7). -/
inductive SpdmResp
  /-- VERSION: the versions supported, 0x12 and 0x13. -/
  | version (versions : List Byte)
  | capabilities
  /-- ALGORITHMS: is TPM_ALG_EDDSA_ED25519, is TPM_ALG_SHA_384 selected? -/
  | algorithms (ed25519 sha384 : Bool)
  /-- DIGESTS: of the chain of slot 0. -/
  | digests (slot0 : BitVec 384)
  | certificate (portion : List Byte) (remainder : Nat)
  /-- CHALLENGE_AUTH: the chain's digest and the Alias key's signature. -/
  | challengeAuth (slot0 : BitVec 384) (signature : List Byte)
  /-- MEASUREMENTS: the blocks, and the signature where one was asked for. -/
  | measurements (blocks : List Measurement) (signature : Option (List Byte))
  /-- ERROR with UnsupportedRequest. -/
  | unsupported
  deriving DecidableEq, Repr

/-- What the host sees: memory the module wrote, MSI-X messages (function, vector) in order, the value
of the last register read of each function, the last DOE response of each function, and the last
sideband response (log entry 7). -/
structure HostSide where
  mem : Tab Byte := []
  msix : List (Nat × Nat) := []
  readData : Tab DWord := []
  doe : Tab SpdmResp := []
  sideband : List Byte := []
  deriving DecidableEq, Repr

/-- A ring of the logbook: the sequence number of the next entry and the entries held, newest first
(R446). -/
structure LogRing where
  head : Nat := 0
  entries : List LogEntry := []
  deriving DecidableEq, Repr

/-- The token bucket of a ring and code (R449): what it lacks to be full, in tokens × 10^9 (token
nanoseconds), when that was computed, and the entries suppressed. -/
structure Bucket where
  lack : Nat := 0
  at_ : DWord := 0
  suppressed : BitVec 16 := 0
  deriving DecidableEq, Repr

/-- LOG_RL[k] (Table 15.13). -/
structure LogRl where
  code : BitVec 16 := 0
  rate : Byte := 0
  depth : BitVec 7 := 0
  valid : Bool := false
  deriving DecidableEq, Repr

/-- The logbook (R446 to R451). -/
structure Logbook where
  rings : Tab LogRing := []
  /-- At key ring × 65,536 + code. -/
  buckets : Tab Bucket := []
  rlRate : Byte := 64
  rlDepth : Byte := 64
  rl : Tab LogRl := []
  /-- Entries that wait for programming, oldest first, at most 1,024 (R451). -/
  staging : List LogEntry := []
  /-- Units programmed: first archive sequence number and its entries, newest first. -/
  units : List (Nat × List LogEntry) := []
  archSeq : Nat := 0
  /-- The unit of the area that is programmed next, counted without a wrap (R451). -/
  archPos : Nat := 0
  archDrops : Word := 0
  deriving DecidableEq, Repr

/-- A manifest window (Table 14.8, TYPE 0x0113). -/
structure MWindow where
  idx : Nat
  pool : Bool
  base : Nat
  size : Nat
  deriving DecidableEq, Repr

/-- The configuration of a partition (Table 14.8, TYPEs 0x0110 to 0x0116). `raw` is its TLV, for
R423. -/
structure PartCfg where
  num : Nat := 0
  vf : Nat := 0
  sealed : Bool := false
  owner : BitVec 5 := 31
  qmax : Nat := 0
  flush : Byte := 0
  rmodeDef : BitVec 3 := 0
  srbitsDef : BitVec 2 := 0
  /-- The tenant anchor; none where the manifest gives zero, which forbids INSTALL_KEY (Table 13.11). -/
  anchor : Option (BitVec 384) := none
  /-- Logical cores by die: bit j is 20n + j. -/
  cores : Tab (BitVec 20) := []
  windows : List MWindow := []
  quotaHbm : Word := 0
  quotaCis : Word := 0
  quotaDep : Word := 0
  share : BitVec 16 := 0
  cwySlots : BitVec 16 := 0
  seraiSlots : BitVec 16 := 0
  pcieSlots : BitVec 16 := 0
  cisPos : BitVec 4 := 0
  keyBase : Nat := 0
  keyCount : Nat := 0
  qpBase : Nat := 0
  qpCount : Nat := 0
  regBase : Nat := 0
  regCount : Nat := 0
  buckets : Nat := 0
  /-- Pin quota of LN0 to LN5. -/
  pinQuota : List Nat := []
  raw : List Byte := []
  deriving DecidableEq, Repr

/-- A CALENDAR TLV: lantern index, EN and the owners of slots 0 to 31 (R242). -/
structure Calendar where
  m : Nat
  en : Bool
  owners : List (BitVec 5)
  deriving DecidableEq, Repr

/-- A SWITCH TLV (Table 14.8). -/
structure SwitchEntry where
  job : Word
  mid : BitVec 16
  gen : BitVec 16
  deriving DecidableEq, Repr

/-- A LINK TLV (Table 14.8). -/
structure LinkCfg where
  link : Nat
  speed : BitVec 2
  role : BitVec 2
  dir : Bool
  vid : BitVec 12
  peerCoord : BitVec 20
  peerLink : BitVec 6
  peerValid : Bool
  mac : BitVec 48
  deriving DecidableEq, Repr

/-- An interleave group: set of stacks or channel positions, BASE, SIZE and local offset in GiB
(R191, R192). -/
structure Group where
  set : Nat := 0
  base : Nat := 0
  size : Nat := 0
  off : Nat := 0
  deriving DecidableEq, Repr

/-- What a module keeps of a manifest (R418, R419). -/
structure Manifest where
  epoch : Word := 0
  digest : BitVec 256 := 0
  tAct : DWord := 0
  switched : Bool := false
  extents : List Nat := []
  root : BitVec 20 := 0
  coord : BitVec 20 := 0
  calendars : List Calendar := []
  subnet : Bool := false
  ipv4 : Word := 0
  ipv6 : DWord := 0
  ririsUdp : BitVec 16 := 0
  switches : List SwitchEntry := []
  links : List LinkCfg := []
  /-- Groups by their number. -/
  hgrps : Tab Group := []
  cgrps : Tab Group := []
  pfQmax : Nat := 64
  parts : List PartCfg := []
  deriving DecidableEq, Repr

/-- Module states (Table 14.11). -/
inductive ModSt
  | off | standby | boot | ready | run | quiesce | fault
  deriving DecidableEq, Repr

/-- What follows a QUIESCE (Table 14.11). -/
inductive AfterQuiesce
  | shutdown | reboot
  deriving DecidableEq, Repr

/-- The image that manufacture left in SPI NOR (R426). -/
def factoryImage : FwImage :=
  { body := Config.factoryBody
    trailer :=
      { magic := BitVec.ofNat _ (Config.factoryTrailer 0), typ := BitVec.ofNat _ (Config.factoryTrailer 1),
        edPk := BitVec.ofNat _ (Config.factoryTrailer 2), mldsaPk := BitVec.ofNat _ (Config.factoryTrailer 3),
        edR := BitVec.ofNat _ (Config.factoryTrailer 4), edS := BitVec.ofNat _ (Config.factoryTrailer 5),
        mldsaC := BitVec.ofNat _ (Config.factoryTrailer 6), mldsaZ := BitVec.ofNat _ (Config.factoryTrailer 7),
        zeros := BitVec.ofNat _ (Config.factoryTrailer 8) } }

/-- The module block (Table 14.13), the manifests and the firmware area. -/
structure Module where
  state : ModSt := .boot
  recovery : Bool := false
  fault : BitVec 4 := 0
  bootStep : BitVec 4 := 0
  /-- RECOV# was low when WAKE# woke the module (R469). -/
  recovStrap : Bool := false
  /-- Set in QUIESCE. -/
  after : AfterQuiesce := .shutdown
  inForce : Option Manifest := none
  staged : Option Manifest := none
  /-- Partitions that the staged manifest affects (R423). -/
  affected : List Nat := []
  /-- Partitions that the manifest in force has still to reassign (R424), and is there a reassignment to end
  (Table 13.12)? -/
  taking : List Nat := []
  /-- Those of them that the reassignment stopped (R424). -/
  stopped : List Nat := []
  reassigning : Bool := false
  manHigh : Word := 0
  fwuAddr : DWord := 0
  fwuLen : BitVec 25 := 0
  fwuStatus : Byte := 0
  fwuBusy : Bool := false
  fwuProgress : BitVec 7 := 0
  /-- The image area holds a whole image, and which (R426, R427); the image that an update is programming. -/
  flashValid : Bool := true
  flash : FwImage := factoryImage
  fwuImage : Option FwImage := none
  /-- PERST# outside RUN has reset the PCIe controller, and it has not trained since (Table 16.5). -/
  pcieDown : Bool := false
  /-- SPEED and WIDTH of FN_LINK. -/
  pcieSpeed : BitVec 3 := 0
  pcieWidth : BitVec 2 := 0
  deriving DecidableEq, Repr

/-- The supply, the pins and the rails (R464 to R475). -/
structure Physical where
  /-- VIN in mV. -/
  vin : Nat := 54000
  seat : Bool := true
  /-- The input switch is closed. -/
  inputOn : Bool := true
  /-- Outputs; true is asserted (low), but STBY_OK, true while released high. -/
  faultN : Bool := false
  leakN : Bool := false
  stbyOk : Bool := true
  /-- FAULT# is held until the next wake after a VSV or VSTBY rail fault (R467). -/
  faultHeld : Bool := false
  mainRails : Bool := true
  /-- Rails switched off by a rail fault (R467), by number (`Rail.number`). -/
  railsOff : List Nat := []
  deriving DecidableEq, Repr

end Sys2Proof.Machine
end

