-- ==== Sys2Proof/Machine/StateMem.lean ====
section
/-!
DEFINITION. State of the memories: HBM3E, cistern, depots, their error marks, controllers and
placements (chapter 7 of the spec).

A byte of a stack n at stack-local address s has the key n × 2^36 + s; a byte of channel c of cistern
die m at channel-local address s has the key (16 m + c) × 2^34 + s. A word's key is its byte key ÷ 4.
Error marks: 1 single-bit, 2 double-bit (R211, R213).
-/

namespace Sys2Proof.Machine

/-- What leaves part of the cistern undefined (R390): a scrub of a range, mapped by the groups in force, or a
reassignment (Table 13.12, step 3), for every place whose owner or internal address is not the same before and
after it. Owners are ranges (base, size, partition) under the old and the new groups. -/
inductive CisScrub
  | range (groups : Tab Group) (base size : Nat)
  | change (old new : Tab Group) (was will : List (Nat × Nat × Nat))
  deriving DecidableEq, Repr

/-- Contents of the HBM3E stacks and of the cistern. -/
structure Memory where
  hbm : Tab Byte := []
  hbmErr : Tab (BitVec 2) := []
  /-- Words corrected and not yet written back (R211). -/
  hbmWb : List Nat := []
  cis : Tab Byte := []
  cisErr : Tab (BitVec 2) := []
  cisWb : List Nat := []
  cisScrubs : List CisScrub := []
  /-- Interleave groups in force (R191 to R193). -/
  hgrps : Tab Group := [(0, { set := 0xFFF, base := 0, size := 36, off := 0 })]
  cgrps : Tab Group := [(0, { set := 0xF, base := 0, size := 16, off := 0 })]
  deriving DecidableEq, Repr

/-- The HBM3E controller block of a die (Table 7.10). -/
structure HbmCtl where
  ready : Bool := false
  failed : Bool := false
  patrolActive : Bool := false
  corr : Word := 0
  uncorr : Word := 0
  errAddr : BitVec 36 := 0
  errKind : BitVec 2 := 0
  errPart : BitVec 4 := 0
  errOwned : Bool := false
  patrolHours : BitVec 5 := 24
  patrolEn : Bool := true
  patrolPos : BitVec 16 := 0
  /-- The armed injection (R219), 0 none. -/
  inject : BitVec 2 := 0
  deriving DecidableEq, Repr

/-- The cistern block of a die (Table 7.11). -/
structure CisDie where
  ready : BitVec 16 := 0
  failed : BitVec 16 := 0
  corr : Tab Word := []
  uncorr : Word := 0
  errAddr : BitVec 34 := 0
  errChan : BitVec 4 := 0
  errKind : BitVec 2 := 0
  errPart : BitVec 4 := 0
  errOwned : Bool := false
  patrolHours : BitVec 7 := 72
  patrolEn : Bool := true
  patrolPos : BitVec 16 := 0
  failDrops : Word := 0
  /-- Armed injections by channel (R220). -/
  inject : Tab (BitVec 2) := []
  /-- Times of uncorrectable words of the last second by channel, newest first (R206). -/
  recentUncorr : Tab (List DWord) := []
  deriving DecidableEq, Repr

/-- A placement (R199): base and size in bytes, class. -/
structure Placement where
  base : Nat
  size : Nat
  cls : BitVec 4
  deriving DecidableEq, Repr

/-- The partition memory block (Table 7.9): staging registers, result and placements. -/
structure PartMem where
  plcIdx : BitVec 6 := 0
  plcBase : BitVec 44 := 0
  plcSize : Word := 0
  plcClass : BitVec 4 := 0
  plcValid : Bool := false
  plcStatus : Byte := 0
  plcBusy : Bool := false
  placements : Tab Placement := []
  /-- The placement being removed: it admits no access (R200). -/
  removing : Option Nat := none
  deriving DecidableEq, Repr

/-- The causeway error block (Table 7.15). -/
structure Causeway where
  corr : Tab Word := []
  uncorr : Tab Word := []
  retry : Tab Word := []
  lastDie : BitVec 5 := 0
  lastPort : BitVec 3 := 0
  lastSpurRetry : Bool := false
  deriving DecidableEq, Repr

end Sys2Proof.Machine
end

