-- ==== Sys2Proof/Machine/StateCore.lean ====
section
/-!
DEFINITION. State of the compute dies and their cores: control engine, conversion unit, array and
ledger, porter, convoy unit, tallies and trace (chapters 2 to 5, 10 and 15 of the spec).

A physical core Ck of CDn has the number 22 n + k.
-/

namespace Sys2Proof.Machine

/-- CE_STAT.STATE (Table 5.14). -/
inductive CoreSt
  | idle | loaded | running | done | recalled | faulted | quarantined
  deriving DecidableEq, Repr

/-- A buffer after relocation (R136): a stall buffer of the core, or buffer `num` of CD`die`. -/
inductive Buf
  | stall (num : Nat)
  | depot (die num : Nat)
  deriving DecidableEq, Repr

/-- What an issued instruction waits for (CE_STAT.WAIT, R140, R143, R144, R168, R172). -/
inductive WaitOn
  | none
  | token (b : Buf) (n : Nat) (consume : Bool)
  | toll (cls target amount : Nat)
  /-- The release of an object's generation; after it the core arrives in the next generation when
  `again` holds that MSARRIVE's WAIT, RP and VR (R172). -/
  | milestone (part obj : Nat) (again : Option (Bool × Bool × Bool))
  | deadline (b : Buf) (n : Nat) (till : DWord) (target : Nat)
  | fence
  /-- The fetch of a queue pair's context (R257). -/
  | context (qp : Nat)
  deriving DecidableEq, Repr

/-- A stall buffer (Table 5.2) with its token count and MISSING mark (R143, R207). SIZE 0 leaves it
undefined. -/
structure StallBuf where
  base : Nat := 0
  size : Nat := 0
  tok : Byte := 0
  missing : Bool := false
  deriving DecidableEq, Repr

/-- A depot buffer (Table 5.2), the partition whose itinerary defines it, its token count, MISSING
mark and free space in 256-byte units (R143, R144). -/
structure DepotBuf where
  owner : Nat
  base : Nat
  size : Nat
  tok : Byte := 0
  missing : Bool := false
  free : Nat
  deriving DecidableEq, Repr

/-- STREAM[s] (R164). -/
structure StreamReg where
  wbase : BitVec 10 := 0
  sbase : BitVec 6 := 0
  deriving DecidableEq, Repr

/-- An entry of the loop stack (R139): the index of the first instruction of the body, XI, STEP and
the iterations left. -/
structure LoopEntry where
  start : Nat
  xi : BitVec 4
  step : Word
  left : Nat
  deriving DecidableEq, Repr

/-- A tensor record (R44, R49): CONV_AMAX and CONV_FLAGS. -/
structure TensorRec where
  amax : Word := 0
  flushed : Bool := false
  overflow : Bool := false
  nonfinite : Bool := false
  deriving DecidableEq, Repr

/-- CONV_CTL, SR_SEED and SR_STEP (R56). -/
structure ConvCtl where
  flush : Byte := 0
  rmodeDef : BitVec 3 := 0
  srbitsDef : BitVec 2 := 0
  seed : Word := 0
  step : Word := 0
  deriving DecidableEq, Repr

/-- WMASK[j] (R128). -/
structure WMask where
  rowsLo : Word := 0xFFFFFFFF
  rowsHi : Word := 0xFFFFFFFF
  colsLo : Word := 0xFFFFFFFF
  colsHi : Word := 0xFFFFFFFF
  deriving DecidableEq, Repr

/-- A ledger entry (R68, R69): the 704-bit integer L in eleven 64-bit limbs, the ten pending carries
(between −16 and 15), the sidecar, Z and the residue. -/
structure LedgerEntry where
  l : BitVec 704 := 0
  pend : List Int := []
  side : BitVec 3 := 0
  z : Bool := true
  res : BitVec 2 := 0
  deriving DecidableEq, Repr

/-- ARR_STAT, LEDG_STAT, LEDG_CORR, LEDG_FAULT, LEDG_PEEK_IDX (Table 3.11, R92). -/
structure LedgerRegs where
  issueBusy : Bool := false
  drawBusy : Bool := false
  resolving : Bool := false
  wrap : Bool := false
  t72Inexact : Bool := false
  resChunk : Bool := false
  resDraw : Bool := false
  resEntry : Bool := false
  uncorr : Bool := false
  imageRes : Bool := false
  corr : Word := 0
  faultEntry : BitVec 12 := 0
  faultKind : BitVec 4 := 0
  peekIdx : BitVec 12 := 0
  /-- Armed residue injections (R92), by target. -/
  injChunk : Bool := false
  injDraw : Bool := false
  deriving DecidableEq, Repr

/-- A waybill (Table 5.4). -/
structure Waybill where
  base : Nat
  scalePtr : Nat
  tensorId : Word
  tag : BitVec 16
  fmt : Nat
  kaxis : Nat
  trec : Nat
  whole : Nat × Nat × Nat
  origin : Nat × Nat × Nat
  piece : Nat × Nat × Nat
  stride0 : Nat
  stride1 : Nat
  /-- Every byte of Table 5.4 that is zero is zero. -/
  zeros : Bool
  deriving DecidableEq, Repr

/-- What an outstanding operation of the core porter does when it completes. -/
inductive PorterDo
  /-- A COPY (R137): the bytes it lands, by internal address. -/
  | copy (writes : List (Nat × List Byte))
  /-- A COPY with ADD (R113): the adds that the counting houses have still to apply. -/
  | add (left : Nat)
  /-- A COPY that posts an update descriptor (R117). -/
  | descriptor (die : Nat) (words : List Word)
  /-- A REMOTE (R256): queue pair and KIND. `left` frames are unacknowledged, or, for a READ, bytes
  have not come. -/
  | remote (qp : Nat) (kind : Nat) (left : Nat)
  /-- A CONVOY (R284): `left` frames are unacknowledged; an element was clamped. -/
  | convoy (qp : Nat) (tag : BitVec 16) (clamped : Bool) (left : Nat)
  deriving DecidableEq, Repr

/-- An outstanding operation of a core porter. -/
structure PorterOp where
  id : Nat
  act : PorterDo
  pc : Nat
  stm : BitVec 3
  /-- What it reads, as ranges of internal addresses. -/
  reads : List (Nat × Nat) := []
  /-- The buffer on which a token is posted (POST = 1). -/
  post : Option Buf := none
  /-- The status with which it completes, where one is already known. -/
  status : Byte := 0
  bytes : Nat := 0
  /-- TAG of its waybill (Table 15.3). -/
  tag : BitVec 16 := 0
  deriving DecidableEq, Repr

/-- The snapshot of a core at a replay point (R154). -/
structure Snapshot where
  pc : Nat
  loops : List LoopEntry
  xreg : Tab Word
  streams : Tab StreamReg
  conv : ConvCtl
  recs : Tab TensorRec
  wmask : Tab WMask
  deriving DecidableEq, Repr

/-- A trace record (Table 15.3). -/
structure TraceRec where
  time : DWord
  tmark : BitVec 4
  kind : Nat
  lcore : Byte
  tag : BitVec 16
  pc : Nat
  stm : BitVec 3
  gap : Option (DWord × DWord)
  a : DWord
  b : DWord
  deriving DecidableEq, Repr

/-- The tally snapshot registers (Table 15.8). -/
structure TallySnap where
  seq : Word := 0
  mark : BitVec 4 := 0
  time : DWord := 0
  gapStart : DWord := 0
  gapNs : DWord := 0
  vals : Tab (BitVec 80) := []
  deriving DecidableEq, Repr

/-- A physical core. -/
structure Core where
  st : CoreSt := .idle
  wait : WaitOn := .none
  /-- When the wait began and the stream of the waiting instruction. -/
  waitSince : DWord := 0
  waitStm : BitVec 3 := 0
  pc : Nat := 0
  faultStatus : Byte := 0
  faultCode : BitVec 16 := 0
  faultPc : Nat := 0
  faultStm : BitVec 3 := 0
  /-- The fault waits for Serai (CORE_FAULT_REPORT), and a check on the core's own arithmetic or
  storage caused it (Table 5.8, first row). -/
  faultPending : Bool := false
  faultOwn : Bool := false
  streams : Tab StreamReg := []
  xreg : Tab Word := []
  loops : List LoopEntry := []
  /-- The instruction store (R133), one 128-bit word an instruction. -/
  insns : List (BitVec 128) := []
  wbCount : Nat := 0
  stall : Tab Byte := []
  stallErr : Tab (BitVec 2) := []
  sbufs : Tab StallBuf := []
  /-- Toll balances by (class × 2^20 + target) (R144). -/
  tolls : Tab Nat := []
  ops : List PorterOp := []
  /-- A FENCE in progress: the operations it covers (R168). -/
  fence : Option (List Nat) := none
  nextOp : Nat := 0
  conv : ConvCtl := {}
  recs : Tab TensorRec := []
  wmask : Tab WMask := []
  ledger : Tab LedgerEntry := []
  /-- Error marks of the ledger's words, at key 24 × index + word (R69, R89). -/
  ledgerErr : Tab (BitVec 2) := []
  lreg : LedgerRegs := {}
  /-- CV_CORE_STAT, CV_CORE_SAT, CV_CORE_LAST (R313). -/
  cvOvf : Bool := false
  cvSat : Word := 0
  cvLastTag : BitVec 16 := 0
  cvLastStatus : Byte := 0
  /-- Tallies (R435), WRAP × 2^64 + COUNT, and their values at the last addition to the module totals
  (R441). -/
  tally : Tab (BitVec 80) := []
  tallyAdded : Tab (BitVec 80) := []
  tallySeq : Word := 0
  snap : TallySnap := {}
  /-- Tallies whose last sample was taken before a stretch, by source: TALLY, SNAP, trace (R358). -/
  stretchTally : Word := 0
  stretchSnap : Word := 0
  stretchTrace : Word := 0
  /-- Clock gaps of the core's record sources: TALLY, SNAP, trace, logbook (R358). -/
  gapTally : Gap := {}
  gapSnap : Gap := {}
  gapTrace : Gap := {}
  gapLog : Gap := {}
  /-- TRC_CTL, TRC_TMASK, TRC_LOST and the trace buffer, oldest first (R442). -/
  trcEn : Bool := false
  trcMask : BitVec 9 := 0
  trcPeriod : BitVec 5 := 10
  trcTmask : Word := 0
  trcLost : Word := 0
  /-- Records dropped since the last record written (R444). -/
  trcDropped : Nat := 0
  trace : List TraceRec := []
  /-- TIME of the last passing periodic test (R456). -/
  lastTest : DWord := 0
  deriving DecidableEq, Repr

/-- One descriptor of the update engine (R117, R118) as 16 words, the partition it is for, and the
core and toll that posted it (none for UPD_SUBMIT). -/
structure UpdDesc where
  words : List Word
  part : Nat
  core : Option Nat
  deriving DecidableEq, Repr

/-- The update engine of a die (R114 to R130). -/
structure UpdEngine where
  halt : Bool := false
  queue : List UpdDesc := []
  /-- The descriptor in progress, and the status it will complete with. -/
  current : Option UpdDesc := none
  curStatus : Byte := 0
  /-- A flit of its transfers was lost (Table 7.14). -/
  flitLost : Bool := false
  /-- The parameter block p0 to p15 read when it was taken (R123). -/
  params : List Nat := []
  /-- Slots committed to tolls granted and not yet used (R117). -/
  committed : Nat := 0
  nfCount : Word := 0
  doneSeq : Word := 0
  ucode : Tab Word := []
  ucodeLen : BitVec 7 := 0
  submitPart : BitVec 4 := 0
  submit : Tab Word := []
  fenced : Bool := false
  /-- Stops of CK_UPD since the engine's last logbook record (R334, R358). -/
  gap : Gap := {}
  deriving DecidableEq, Repr

/-- A compute die CDn. -/
structure Die where
  /-- CORE_MAP[j]: the physical core of logical 20n + j (R165). -/
  coreMap : List (Option Nat) := (List.range 20).map some
  quar : BitVec 22 := 0
  retired : BitVec 22 := 0
  depot : Tab Byte := []
  depotErr : Tab (BitVec 2) := []
  dbufs : Tab DepotBuf := []
  upd : UpdEngine := {}
  hbm : HbmCtl := {}
  /-- Die safety block (Table 15.12). -/
  safeFails : Word := 0
  chFenced : Bool := false
  lastUpdTest : DWord := 0
  lastChTest : DWord := 0
  deriving DecidableEq, Repr

end Sys2Proof.Machine
end

