-- ==== Sys2Proof/Machine/StatePart.lean ====
section
/-!
DEFINITION. State of the partitions: partition block, milestone block, trace block and what Serai
keeps for each (chapters 5, 6, 11 and 15 of the spec).
-/

namespace Sys2Proof.Machine

/-- The digest fold of a message (R177). -/
structure Fold where
  digest : BitVec 256 := 0
  epoch : Word := 0
  mod : BitVec 20 := 0
  mismatch : Bool := false
  deriving DecidableEq, Repr

/-- A child's arrival at a hosted node (R174, R177). -/
structure ChildArrival where
  src : BitVec 20
  fold : Fold
  deriving DecidableEq, Repr

/-- A milestone object (Table 6.5, R172, R179, R183). -/
structure MsObj where
  mid : BitVec 16 := 0
  group : BitVec 4 := 0
  jobwide : Bool := false
  valid : Bool := false
  gen : BitVec 16 := 0
  /-- MS_OBJ[o].STATE.PHASE. -/
  phase : BitVec 3 := 0
  /-- Logical cores that arrived in the current generation, and those whose arrival is on its way to
  Serai (Table 6.3). -/
  arrived : List Nat := []
  coming : List Nat := []
  /-- Arrivals of children, by the level of the node hosted here. -/
  nodes : Tab (List ChildArrival) := []
  /-- When the first arrival of the generation came, and whether the watchdog has fired. -/
  since : Option DWord := none
  fired : Bool := false
  /-- The last release carried OK (R180). -/
  lastOk : Bool := false
  /-- The root has found the generation complete, with this fold, and its release is due (R173). -/
  due : Option Fold := none
  /-- Context number of its owner (R183). -/
  ctx : Byte := 0
  deriving DecidableEq, Repr

/-- MS_NODE[l] (R174). -/
structure MsNode where
  target : BitVec 20 := 0
  children : BitVec 5 := 0
  host : Bool := false
  top : Bool := false
  deriving DecidableEq, Repr

/-- The milestone block of a partition (Table 6.5). -/
structure Milestones where
  wdMs : BitVec 16 := 100
  ctx : Byte := 0
  mismatch : Bool := false
  abandoned : Bool := false
  /-- The holds that stand for the job, and whether a replay request does (R181). -/
  hold : Nat := 0
  replayReq : Bool := false
  stale : Byte := 0
  jobId : Word := 0
  mismatchMod : BitVec 20 := 0
  nodes : Tab MsNode := []
  objs : Tab MsObj := []
  /-- MS_GROUP[g] as a mask of 256 bits. -/
  groups : Tab (BitVec 256) := []
  miss : BitVec 256 := 0
  missChild : BitVec 16 := 0
  nMiss : Byte := 0
  firstMiss : Byte := 0xFF
  /-- The job's recovery count (R175, R182). -/
  rcount : BitVec 16 := 0
  deriving DecidableEq, Repr

/-- PART_STAT.STATE (Table 5.9). -/
inductive PartSt
  | idle | loaded | running | paused | recovering | halted
  deriving DecidableEq, Repr

/-- What started a context switch (R152, R407, R424, R431). -/
inductive SwitchCause
  | stop (c : CmdRef)
  | manifest
  | flr
  | quiesce
  /-- None runs: the partition waits for the end of its reassignment (Table 13.12). -/
  | held
  deriving DecidableEq, Repr

/-- A recovery in progress (R157): the fault status that started it, the physical core that reported it where it is
of this module (R167), the cores to quarantine (by physical number), and whether step 4 is complete. -/
structure Recovery where
  status : Byte
  core : Option Nat := none
  quarantine : List Nat
  recalled : Bool
  deriving DecidableEq, Repr

/-- One entry of a loaded image's resume table (Table 5.2). -/
structure ResumeEntry where
  mid : BitVec 16
  pcs : List Nat
  deriving DecidableEq, Repr

/-- The partition trace block (Table 15.11). -/
structure TraceDest where
  en : Bool := false
  stopMode : Bool := false
  remote : Bool := false
  base : BitVec 44 := 0
  size : Word := 0
  qp : BitVec 20 := 0
  rkey : Word := 0
  wptr : Tab Word := []
  deriving DecidableEq, Repr

/-- A partition as Serai holds it. -/
structure Part where
  cfg : Option PartCfg := none
  st : PartSt := .idle
  reason : BitVec 4 := 0
  status : Byte := 0
  /-- PART_RP, the generation of that point's object, and whether a point has been reached. -/
  rpValid : Bool := false
  rpMid : BitVec 16 := 0
  rpVr : Bool := false
  rpTries : BitVec 2 := 0
  rpGen : BitVec 16 := 0
  /-- When the replay point was reached (R456). -/
  rpTime : DWord := 0
  family : DWord := 0
  ncore : List Nat := []
  resumeTab : List ResumeEntry := []
  /-- The image's bytes as loaded, for the run measurement (R381). -/
  imageDigest : BitVec 384 := 0
  replays : Word := 0
  start : Option CmdRef := none
  pause : Option CmdRef := none
  /-- The partition has raised a hold and not withdrawn it (R181). -/
  holding : Bool := false
  switching : Option SwitchCause := none
  recovery : Option Recovery := none
  /-- Replay snapshots by logical core (R154), those of START included. -/
  snapshots : Tab Snapshot := []
  /-- The replay point is START (R154). -/
  rpStart : Bool := true
  /-- Snapshots taken at an object's replay point that is not released yet, by object, and whether it
  was marked VR. -/
  pendSnaps : Tab (Bool × Tab Snapshot) := []
  /-- Generations of the objects at the replay point's release (R182). -/
  rpGens : Tab (BitVec 16) := []
  /-- Cores whose release is held until RESUME (R182). -/
  heldCores : List Nat := []
  /-- A replay request that came from elsewhere started the recovery (R159). -/
  fromJob : Bool := false
  jobPair : Option (BitVec 256 × Word) := none
  ms : Milestones := {}
  mem : PartMem := {}
  trp : TraceDest := {}
  deriving DecidableEq, Repr

end Sys2Proof.Machine
end

