-- ==== Sys2Proof/Machine/StatePower.lean ====
section
/-!
DEFINITION. State of the power controller, the time base and the lifetime ledger (chapter 12 of the
spec).
-/

namespace Sys2Proof.Machine

/-- An entry of a partition's phase table (R339): MID, learned draw of each compute die in W ÷ 4^scale, so
that every quarter of a difference is exact, and phase class. The table has the most recently used first. -/
structure PhaseEntry where
  mid : BitVec 16
  draw : List Nat
  scale : Nat := 0
  phase : List (BitVec 3)
  deriving DecidableEq, Repr

/-- The tallies of a compute die's cores that tell a phase (R339): array cycles, MACs of FORWARD issues, and MACs of
DX and DW issues. -/
structure DieTally where
  array : Nat := 0
  fwd : Nat := 0
  bwd : Nat := 0
  deriving DecidableEq, Repr

/-- The interval of a partition that runs (R339): its MID, and the tallies of each compute die at its start. -/
structure Interval where
  mid : BitVec 16
  base : List DieTally
  deriving DecidableEq, Repr

/-- What the power controller holds of a compute die (PWR_DIE, R342 to R347). -/
structure DiePower where
  freq : BitVec 12 := 0
  watts : BitVec 12 := 0
  phase : BitVec 3 := 0
  /-- Throttled by temperature (R349). -/
  throttled : Bool := false
  /-- TIME_NOW of the last change of CK_ARITH (R342). -/
  changedAt : Option DWord := none
  deriving DecidableEq, Repr

/-- Temperature and droop of a die, numbered as in PWR_TJ. -/
structure DieSense where
  tj : Byte := 0
  maxTj : Byte := 0
  /-- Stretch in progress (R347): 3 % or 6 %. -/
  stretch3 : Bool := false
  stretch6 : Bool := false
  /-- TIME_NOW of the last code 0x4005 of the die (R348). -/
  lastDroopLog : Option DWord := none
  /-- Difference of the die's replica from TIME_NOW, in ns (R351). -/
  replicaDiff : Int := 0
  deriving DecidableEq, Repr

/-- The power block (Table 12.6). -/
structure Power where
  budget : BitVec 16 := 1200
  eff : BitVec 16 := 1200
  inputW : BitVec 16 := 0
  peakW : BitVec 16 := 0
  supplyMv : BitVec 16 := 0
  undervolt : Bool := false
  breach : Bool := false
  thermal : Bool := false
  droop : Bool := false
  /-- UNCORE_W: the greatest measurement of the last 100 ms, and those measurements with their times, newest
  first (R338). -/
  uncoreW : BitVec 16 := 0
  uncore : List (DWord × BitVec 16) := []
  energy : DWord := 0
  dies : Tab DiePower := []
  sense : Tab DieSense := []
  /-- Phase tables by partition, most recently used first, at most 64 entries. -/
  phases : Tab (List PhaseEntry) := []
  /-- The interval that runs, by partition (R339). -/
  curPhase : Tab Interval := []
  deriving DecidableEq, Repr

/-- TB_STAT.STATE (R352). -/
inductive TbSt
  | free | locked | holdover
  deriving DecidableEq, Repr

/-- What a link's time frames left (R354, R355): T_TX and receipt of the last frame received, and the
T_TX of frames sent within the last 1 ms, newest first. -/
structure LinkTime where
  echoTx : DWord := 0
  echoRx : DWord := 0
  sentTx : List DWord := []
  deriving DecidableEq, Repr

/-- The time block (Table 12.8). TIME_NOW itself is State.now. -/
structure TimeBase where
  st : TbSt := .free
  root : Bool := false
  wall : Bool := false
  uplink : BitVec 6 := 63
  hops : BitVec 6 := 63
  offset : Word := 0
  delay : Word := 0
  rate : Word := 0
  rootCoord : BitVec 20 := 0
  rootValid : Bool := false
  ptpEn : Bool := true
  stepLo : Word := 0
  ptpLocked : Bool := false
  /-- Consecutive measurements of at most 5 ns (R352). -/
  good : Nat := 0
  everLocked : Bool := false
  links : Tab LinkTime := []
  deriving DecidableEq, Repr

/-- The lifetime record's entry of a core (Table 12.5). -/
structure LifeCore where
  quarantines : Byte := 0
  retired : Bool := false
  hours : BitVec 23 := 0
  deriving DecidableEq, Repr

/-- LIFE_SVC[k] (Table 12.9). -/
structure Svc where
  due : Word := 0
  kind : Byte := 0
  valid : Bool := false
  dueNow : Bool := false
  deriving DecidableEq, Repr

/-- The lifetime record (Table 12.5). -/
structure LifeRec where
  seq : Word := 0
  stamp : DWord := 0
  powerOnS : DWord := 0
  energyJ : DWord := 0
  thermalCycles : Word := 0
  boots : Word := 0
  cores : Tab LifeCore := []
  hbmCorr : Tab DWord := []
  cisCorr : Tab DWord := []
  hbmUncorr : Tab DWord := []
  cisUncorr : Tab Word := []
  failed : BitVec 128 := 0
  svc : Tab Svc := []
  optDay : BitVec 16 := 0
  opt : Tab (BitVec 16) := []
  deriving DecidableEq, Repr

/-- A slot of the lifetime area that is not erased (R360, R362): a record whose MAGIC, CRC and COMMIT are valid, or one
that is not valid, with the SEQ that it shows where it shows one. -/
inductive LifeSlot
  | valid (r : LifeRec)
  | torn (seq : Option Word)
  deriving DecidableEq, Repr

/-- The lifetime ledger (R360 to R363). -/
structure Life where
  cur : LifeRec := {}
  /-- The SPI NOR area: slot k of bank b at 64 b + k (R360). -/
  slots : Tab LifeSlot := []
  /-- The newest committed record and its bank. -/
  committed : LifeRec := {}
  bank : Bool := false
  /-- A commit in progress: the record, and whether it is the retry. -/
  committing : Option (LifeRec × Bool) := none
  /-- Another commit is due when the one in progress ends. -/
  again : Bool := false
  writeFail : Bool := false
  recovered : Bool := false
  page : Byte := 0
  /-- Nanoseconds of the second of POWERON_S in progress. -/
  upNs : Nat := 0
  /-- The hottest compute die: peak, trough and direction of the cycle being counted. -/
  peak : Nat := 0
  trough : Nat := 0
  falling : Bool := false
  deriving DecidableEq, Repr

end Sys2Proof.Machine
end

