-- ==== Sys2Proof/Machine/StateLink.lean ====
section
/-!
DEFINITION. State of the optical links and their MACs (chapter 8 of the spec). Link L(6m + i) is
number 6 m + i.
-/

namespace Sys2Proof.Machine

/-- Link states (Table 8.4). -/
inductive LinkSt
  | disabled | down | optics | align | beacon | up | fenced
  deriving DecidableEq, Repr

/-- A frame in a transmit queue (R241, R242): its lane, its FIFO (31 OPEN) and its length in bytes, from the
destination address through the FCS. -/
structure QFrame where
  laneB : Bool
  owner : BitVec 5
  len : Nat
  frame : Frame
  /-- The NIC send that ends with this frame: function, queue and CID (R416). -/
  nic : Option (Nat × Nat × BitVec 16) := none
  /-- The place that a forwarded frame takes in a receive buffer of R243: the link it came on, the pair of
  queue and lane, and units of 256 B. -/
  held : Option (Nat × Nat × Nat) := none
  /-- A milestone frame that is sent again and keeps its LSEQ (R235). -/
  again : Bool := false
  deriving DecidableEq, Repr

/-- A frame that left on a link (log entry 7): what it is, the TCI of its 802.1Q tag (R227; none on a PFC
frame) and its bytes from the destination address to the last before the FCS. -/
structure SentFrame where
  frame : Frame
  tci : Option (BitVec 16)
  bytes : List Byte
  deriving DecidableEq, Repr

/-- An unacknowledged milestone frame (R235). -/
structure ReplayFrame where
  laneB : Bool
  msg : MsMsg
  resent : Nat
  deriving DecidableEq, Repr

/-- A link: the link block (Table 8.9) and the MAC's own state. -/
structure Link where
  adminUp : Bool := true
  speed : BitVec 2 := 0
  role : BitVec 2 := 0
  dir : Bool := false
  st : LinkSt := .disabled
  reason : BitVec 3 := 0
  peerCoord : BitVec 20 := 0
  peerLink : BitVec 6 := 0
  peerValid : Bool := false
  seenCoord : BitVec 20 := 0
  seenLink : BitVec 6 := 0
  seenValid : Bool := false
  bcnEpoch : Word := 0
  bcnDigest : BitVec 256 := 0
  graceMs : Byte := 10
  addr : BitVec 48 := 0
  vid : BitVec 12 := 0
  pfcRxEn : Byte := 0xFF
  pfcTxEn : BitVec 4 := 0xF
  limitMs : BitVec 16 := 100
  recoverMs : BitVec 16 := 10
  paused : Byte := 0
  storm : Byte := 0
  recovering : Byte := 0
  txFrames : DWord := 0
  rxFrames : DWord := 0
  rxErr : DWord := 0
  fecCorr : DWord := 0
  fecUncorr : DWord := 0
  wdDrops : DWord := 0
  nicDrops : DWord := 0
  ctrlRetx : DWord := 0
  /-- Frames discarded for want of an UP link (R231), which no register shows. -/
  noLinkDrops : DWord := 0
  /-- When a matching beacon was last received (PEER_OK lasts 3.5 ms, R237). -/
  peerOkAt : Option DWord := none
  /-- First beacon of a one-epoch difference that stands (R238). -/
  graceFrom : Option DWord := none
  /-- An attempt has failed since UP, and when code 0x2009 was last written (R239). -/
  failedAt : Option DWord := none
  /-- Transmit queues 0 to 7, oldest first (R241), and the frames that wait outside them. -/
  queues : Tab (List QFrame) := []
  outside : List Frame := []
  /-- Nanoseconds until the frame that is being sent, and the gap after it, end (R242). -/
  busy : Nat := 0
  /-- Credits held by 2 × (queue − 4) + lane (R243). -/
  credits : Tab Nat := []
  /-- CRED last received, and cumulative units freed here, by the same index. -/
  credSeen : Tab (BitVec 16) := []
  freed : Tab (BitVec 16) := []
  /-- What `freed` was at the last credit frame. -/
  credSent : Tab (BitVec 16) := []
  /-- Unacknowledged milestone frames, oldest first, the next LSEQ, and the LSEQ expected (R235). -/
  replay : List ReplayFrame := []
  nextLseq : BitVec 16 := 0
  expectLseq : BitVec 16 := 0
  /-- Bytes in the receive buffers of priorities 0 to 3, and the priorities for which the last PFC frame sent
  asks for a pause (R244). -/
  nicBuf : Tab Nat := []
  pfcSent : Byte := 0
  /-- Lasers on (R236). -/
  lasers : Bool := false
  /-- Frames that left on the link, in order (log entry 7). -/
  sent : List SentFrame := []
  deriving DecidableEq, Repr

/-- A link's address when the manifest gives none, 02:C7:0x:yy:zz:LL (R230). -/
def defaultMac (coord : BitVec 20) (l : Nat) : BitVec 48 :=
  BitVec.ofNat 48 (0x02C7 * 2 ^ 32 + coord.toNat / 65536 * 2 ^ 24 + coord.toNat % 65536 * 2 ^ 8 + l)

/-- Link `l` after power-on reset. -/
def linkReset (l : Nat) : Link := { addr := defaultMac 0 l }

/-- The lantern block (Table 8.8). -/
structure LanternCfg where
  coord : BitVec 20 := 0
  extent : BitVec 5 := 1
  slotEn : Bool := false
  owners : List (BitVec 5) := List.replicate 32 31
  deriving DecidableEq, Repr

end Sys2Proof.Machine
end

