-- ==== Sys2Proof/Machine/StatePorter.lean ====
section
/-!
DEFINITION. State of Riris and the Porters (chapter 9 of the spec): queue-pair contexts, the Porters of
the lantern dies, queue-pair pages and regions.
-/

namespace Sys2Proof.Machine

/-- STATE of a queue pair (Table 9.1). -/
inductive QpSt
  | free | active | error
  deriving DecidableEq, Repr

/-- The operation that a frame belongs to: a core's REMOTE or CONVOY (physical core and operation
number), a response to a READ_REQ, or the trace porter's writes. -/
inductive OpRef
  | core (p op : Nat)
  | response
  | trace (part die : Nat)
  deriving DecidableEq, Repr

/-- What a queue pair has still to send: a frame whose header fields are filled when it is given a PSN,
or a READ_RESP frame whose data is read when it is sent (R273): region, offset in it, length, the
requester's operation size, the offset at which the operation started. -/
inductive ToSend
  | frame (f : RirisFrame) (op : OpRef)
  | resp (region : Nat) (part : Nat) (roff len oplen : Nat) (first last : Bool) (rkey : Word)
  /-- A run of `n` PSNs of a response that is not sent, reported in a NAK of this code (R273). -/
  | skip (region n : Nat) (code : Byte)
  deriving DecidableEq, Repr

/-- A frame sent and not acknowledged, and its operation. -/
structure Unacked where
  frame : RirisFrame
  op : OpRef
  deriving DecidableEq, Repr

/-- An operation of READ kind in progress at the requester: its core, number, where its bytes go in
order, and how many have come (R260). The bytes of one that has ended before they all came, by a recall or a
failed write, are consumed and go nowhere. -/
structure Reading where
  core : Nat
  op : Nat
  addrs : List (Nat × Nat)
  got : Nat
  need : Nat
  ended : Bool := false
  deriving DecidableEq, Repr

/-- A queue pair: its context (Table 9.1) and Porter's own state of it. -/
structure Qp where
  st : QpSt := .free
  pinned : Bool := false
  cached : Bool := false
  prio : BitVec 3 := 6
  mtu : BitVec 2 := 2
  owner : BitVec 5 := 31
  part : BitVec 4 := 0
  retryLimit : BitVec 4 := 7
  peer : BitVec 20 := 0
  peerQp : BitVec 20 := 0
  keyslot : BitVec 6 := 0
  retries : Nat := 0
  txseq : BitVec 56 := 0
  /-- The context has been created before: its TXSEQ is in the pool (R253). -/
  known : Bool := false
  lastNak : Byte := 0
  spsn : Word := 0
  una : Word := 0
  epsn : Word := 0
  tollOut : Word := 0
  sent : Word := 0
  done : Word := 0
  rxwin : BitVec 13 := 0
  nbuf : Byte := 0
  ndie : BitVec 4 := 0
  nvalid : Bool := false
  /-- Tolls reserved by TOLLREQs and not yet sent (R258), in units of 256 B. -/
  reserved : Nat := 0
  /-- Frames without a PSN, and frames sent and not acknowledged, oldest first. -/
  queued : List ToSend := []
  unacked : List Unacked := []
  /-- A NAK SEQ has been sent for the gap at EPSN (R262). -/
  gapNak : Bool := false
  /-- The last failed attempt was answered by NAK CONTEXT_BUSY, and sending stops until the timer ends; then
  the frames from the NAK's PSN are sent again (R264, R265). -/
  busy : Bool := false
  busyPsn : Word := 0
  /-- A frame was processed and no ACK has been sent since (R262). -/
  ackDue : Bool := false
  reads : List Reading := []
  /-- Frames received in sequence behind a convoy frame whose adds are not all applied (R297). -/
  behind : List RirisFrame := []
  /-- TIME_NOW of the last use (R267). -/
  used : DWord := 0
  deriving DecidableEq, Repr

/-- A frame in the miss buffer (R268). -/
structure Parked where
  qp : Nat
  frame : RirisFrame
  since : DWord
  deriving DecidableEq, Repr

/-- The Porter block of a lantern die (Table 9.9). -/
structure Porter where
  hits : DWord := 0
  misses : DWord := 0
  busyNaks : DWord := 0
  parkDrops : DWord := 0
  authFail : DWord := 0
  retx : DWord := 0
  timeouts : DWord := 0
  viol : DWord := 0
  rxUnknown : DWord := 0
  injAuth : Bool := false
  injDrop : Bool := false
  /-- The miss buffer, in arrival order, and the contexts being fetched. -/
  parked : List Parked := []
  fetching : List Nat := []
  deriving DecidableEq, Repr

/-- A queue-pair page (Table 9.10), without what the manifest sets. -/
structure PqPage where
  pool : BitVec 44 := 0
  idx : BitVec 20 := 0
  peer : BitVec 20 := 0
  peerQp : BitVec 20 := 0
  prio : BitVec 3 := 6
  mtu : BitVec 2 := 2
  owner : BitVec 5 := 31
  keyslot : BitVec 6 := 0
  retryLimit : BitVec 4 := 7
  rxwin : BitVec 13 := 1024
  nbuf : Byte := 0
  ndie : BitVec 4 := 0
  nvalid : Bool := false
  status : Byte := 0
  /-- An operation that waits for a fetch or write-back of its context (R253), by its OP. -/
  busy : Bool := false
  busyOp : Nat := 0
  qpstate : BitVec 2 := 0
  resPinned : Bool := false
  txseq : BitVec 56 := 0
  event : Word := 0
  deriving DecidableEq, Repr

/-- STATE of a region (R270). -/
inductive RegionSt
  | invalid | valid | draining
  deriving DecidableEq, Repr

/-- A region entry (R270). -/
structure Region where
  st : RegionSt := .invalid
  tag : BitVec 20 := 0
  part : BitVec 4 := 0
  base : Nat := 0
  size : Nat := 0
  rights : BitVec 3 := 0
  keyslot : BitVec 6 := 0
  inflight : Nat := 0
  /-- The REVOKE_REGION that waits for it. -/
  revoke : Option CmdRef := none
  deriving DecidableEq, Repr

end Sys2Proof.Machine
end

