-- ==== Sys2Proof/Machine/StateConvoy.lean ====
section
/-!
DEFINITION. State of convoys and counting houses (chapter 10 of the spec).
-/

namespace Sys2Proof.Machine

/-- STATE of a bucket (R297). -/
inductive BktSt
  | free | opened | retired
  deriving DecidableEq, Repr

/-- A bucket (R297) with the entry read when it opened (Table 10.4). -/
structure Bkt where
  st : BktSt := .free
  epoch : BitVec 4 := 0
  step : Word := 0
  contrib : BitVec 24 := 0
  guard : BitVec 7 := 0
  exp : BitVec 16 := 0
  ovf : Bool := false
  count : Nat := 0
  rkey : Word := 0
  doff : Nat := 0
  len : Nat := 0
  nbuf : Byte := 0
  ndie : BitVec 4 := 0
  nvalid : Bool := false
  deriving DecidableEq, Repr

/-- The convoy block of a partition (Table 10.9), without what the manifest sets. -/
structure Convoy where
  table : BitVec 44 := 0
  epoch : BitVec 4 := 0
  armed : Bool := false
  held : Bool := false
  /-- The module has sent its arrival for the switch generation (R311). -/
  sentUp : Bool := false
  switchNew : BitVec 4 := 0
  switchMid : BitVec 16 := 0
  switchGen : BitVec 16 := 0
  tagmis : Word := 0
  stale : Word := 0
  ovfBuckets : Word := 0
  peekIdx : BitVec 12 := 0
  buckets : Tab Bkt := []
  /-- EPOCH at the release of the replay point (R312). -/
  rpEpoch : BitVec 4 := 0
  deriving DecidableEq, Repr

/-- Where an add comes from: a COPY with ADD (physical core and operation) or a convoy frame, by its
number. -/
inductive AddSrc
  | copy (p op : Nat)
  | frame (id : Nat)
  deriving DecidableEq, Repr

/-- An add in the queue of a counting house (R302, R303). -/
structure Add where
  addr : Nat
  value : BitVec 72
  src : AddSrc
  deriving DecidableEq, Repr

/-- A counting house (Table 10.8): bytes of the core share not granted, bytes of the Porter share free,
the add queue in order. -/
structure House where
  coreFree : Nat := 262144
  porterFree : Nat := 65536
  queue : List Add := []
  uncorr : Word := 0
  adds : DWord := 0
  deriving DecidableEq, Repr

/-- A convoy frame whose adds are waiting or in progress (R297, R302): its queue pair, partition and
bucket, its elements with their addresses, whether they have been issued, and how many are still to be
applied. -/
structure PendFrame where
  id : Nat
  qp : Nat
  part : Nat
  bucket : Nat
  region : Nat
  frame : RirisFrame
  adds : List (Nat × BitVec 72)
  issued : Bool
  left : Nat
  failed : Bool
  deriving DecidableEq, Repr

end Sys2Proof.Machine
end

