-- ==== Sys2Proof/Machine/StateCustoms.lean ====
section
/-!
DEFINITION. State of Customs (chapter 13 of the spec).
-/

namespace Sys2Proof.Machine

/-- KIND of a key slot (R383). -/
inductive SlotKind
  | empty | link | host | weight
  deriving DecidableEq, Repr

/-- A key slot: its kind, partition, keys and the stream counter of R388. -/
structure KeySlot where
  kind : SlotKind := .empty
  part : BitVec 4 := 0
  keyA : BitVec 256 := 0
  keyB : BitVec 256 := 0
  stream : Nat := 0x80000000
  deriving DecidableEq, Repr

/-- A key record (Table 13.8), with the private halves that only Customs holds: the X25519 scalar and the two seeds of
the ML-KEM-1024 key pair (R383). -/
structure KeyRecord where
  part : Byte
  ctx : Byte
  epoch : Word
  digest : BitVec 256
  random : BitVec 128
  skX : BitVec 256
  dk : BitVec 512
  deriving DecidableEq, Repr

/-- The Customs module block (Table 13.14) and what Customs holds in fuses and flash. -/
structure Customs where
  fwOk : Bool := false
  recovery : Bool := false
  scrubbing : Bool := false
  fwSvn : Byte := 0
  /-- UDS is locked from every reader (R373). -/
  udsLocked : Bool := false
  /-- FWM of the running image, and the CDI that boot derived from it (Table 13.4). -/
  fwm : BitVec 384 := 0
  cdi : Option (BitVec 256) := none
  fuseSvn : Nat := 0
  anchor : Option (BitVec 384) := none
  /-- The anchor as SPI NOR holds it, with its HMAC (R378). -/
  anchorFlash : Option (BitVec 384 × BitVec 384) := none
  anchorSeq : Word := 0
  argAddr : DWord := 0
  argLen : BitVec 16 := 0
  status : Byte := 0
  slots : Tab KeySlot := []
  deriving DecidableEq, Repr

/-- The Customs page of a partition (Table 13.15), without what the manifest sets. -/
structure CusPart where
  record : Option KeyRecord := none
  protected_ : Bool := false
  clean : Bool := false
  status : Byte := 0
  /-- A SCRUB in progress (R395). -/
  scrub : Option CmdRef := none
  /-- The partition's pair of cistern keys (R390). -/
  cisKeys : Option (BitVec 256 × BitVec 256) := none
  deriving DecidableEq, Repr

end Sys2Proof.Machine
end

