-- ==== Sys2Proof/Machine/State.lean ====
section
/-!
DEFINITION. The state of a T25 module, its faults and refusals, and its state right after power-on
reset.
-/

namespace Sys2Proof.Machine

/-- The model's faults. No meaning ends in one: a bad condition is a status, a core fault, a partition
state or a module state of the T25 (R13, R146, R147, R431). -/
inductive Fault
  /-- Never raised. -/
  | none
  deriving DecidableEq, Repr

/-- The model's refusals. -/
inductive Refusal
  /-- The command has no meaning yet. Safe: nothing can be proved of its effect. -/
  | notModelled (mnemonic : String)
  deriving DecidableEq, Repr

/-- A T25 module. -/
structure State where
  /-- Commands that wait, first in, first out. -/
  pending : List Instr := []
  /-- The number of free values used so far (log entry 5). -/
  free : Nat := 0
  /-- TIME_NOW (R350). -/
  now : DWord := 0
  fns : Tab Fn := []
  host : HostSide := {}
  log : Logbook := {}
  mod : Module := {}
  phys : Physical := {}
  mem : Memory := {}
  cisDies : Tab CisDie := []
  cwy : Causeway := {}
  /-- Host copies that lose a flit on the causeway (Table 7.14), by function, queue and CID. -/
  lostCopies : List (Nat × Nat × BitVec 16) := []
  cores : Tab Core := []
  dies : Tab Die := []
  parts : Tab Part := []
  links : Tab Link := []
  lanternCfg : Tab LanternCfg := []
  /-- Physical cores that wait for a toll, in order of arrival (R145). -/
  tollWait : List Nat := []
  qps : Tab Qp := []
  porters : Tab Porter := []
  /-- Queue-pair pages by 16 m + p. -/
  pages : Tab PqPage := []
  /-- Frames sent to this module itself over the causeway, in order (R295, log entry 7). -/
  selfFrames : List RirisFrame := []
  regions : Tab Region := []
  convoys : Tab Convoy := []
  houses : Tab House := []
  pendFrames : List PendFrame := []
  /-- Number of the next convoy frame. -/
  nextFrameId : Nat := 0
  customs : Customs := {}
  cusParts : Tab CusPart := []
  pwr : Power := {}
  time : TimeBase := {}
  life : Life := {}
  /-- Module totals (R441) and their copy (Table 15.9). -/
  totals : Tab (BitVec 80) := []
  totSnap : Tab (BitVec 80) := []
  totTime : DWord := 0
  /-- Clock gaps of Serai's logbook records (R358). -/
  gapSerai : Gap := {}
  deriving DecidableEq, Repr

/-- A function before the manifest: the PF is bound and has 64 queues (Table 14.14). -/
def fnReset (f : Nat) : Fn := if f = 0 then { bound := true, qmax := 64 } else {}

/-- The state on leaving power-on reset: every register at its reset value. MOD_STAT.STATE resets to
BOOT (Table 14.13). -/
def State.reset : State := {}

end Sys2Proof.Machine
end

