-- ==== Sys2Proof/Machine/Access.lean ====
section
/-!
DEFINITION. Reading and changing the parts of the state: functions, queues, cores, dies, partitions.

A physical core Ck of CDn is number 22 n + k; a logical core is 20 n + j (R21).
-/

namespace Sys2Proof.Machine

/-- A 32-bit word from a number. -/
abbrev w32 (n : Nat) : Word := BitVec.ofNat 32 n

/-- A 64-bit word from a number. -/
abbrev w64 (n : Nat) : DWord := BitVec.ofNat 64 n

/-- A status code as a byte (Table 0.3). -/
abbrev st8 (n : Nat) : Byte := BitVec.ofNat 8 n

/-! Status codes (Table 0.3). -/

abbrev scOk : Nat := 0x00
abbrev scIllegal : Nat := 0x01
abbrev scAbandoned : Nat := 0x02
abbrev scAccess : Nat := 0x03
abbrev scTimeout : Nat := 0x04
abbrev scUncorr : Nat := 0x05
abbrev scTag : Nat := 0x06
abbrev scQuota : Nat := 0x07
abbrev scDeadline : Nat := 0x08
abbrev scManifest : Nat := 0x09
abbrev scWatchdog : Nat := 0x0A
abbrev scBusy : Nat := 0x0B
abbrev scSignature : Nat := 0x0C
abbrev scOvf : Nat := 0x0D

def State.fn (s : State) (f : Nat) : Fn := tabGet (fnReset f) s.fns f

def State.setFn (s : State) (f : Nat) (x : Fn) : State := { s with fns := tabSet s.fns f x }

def State.modFn (s : State) (f : Nat) (g : Fn → Fn) : State := s.setFn f (g (s.fn f))

def Fn.queue (x : Fn) (q : Nat) : Queue := tabGet {} x.queues q

def Fn.setQueue (x : Fn) (q : Nat) (y : Queue) : Fn := { x with queues := tabSet x.queues q y }

def State.queue (s : State) (f q : Nat) : Queue := (s.fn f).queue q

def State.setQueue (s : State) (f q : Nat) (y : Queue) : State :=
  s.modFn f (fun x => x.setQueue q y)

def State.modQueue (s : State) (f q : Nat) (g : Queue → Queue) : State :=
  s.setQueue f q (g (s.queue f q))

def State.core (s : State) (p : Nat) : Core := tabGet {} s.cores p

def State.setCore (s : State) (p : Nat) (c : Core) : State := { s with cores := tabSet s.cores p c }

def State.modCore (s : State) (p : Nat) (g : Core → Core) : State := s.setCore p (g (s.core p))

def State.die (s : State) (n : Nat) : Die := tabGet {} s.dies n

def State.setDie (s : State) (n : Nat) (d : Die) : State := { s with dies := tabSet s.dies n d }

def State.modDie (s : State) (n : Nat) (g : Die → Die) : State := s.setDie n (g (s.die n))

def State.part (s : State) (p : Nat) : Part := tabGet {} s.parts p

def State.setPart (s : State) (p : Nat) (x : Part) : State := { s with parts := tabSet s.parts p x }

def State.modPart (s : State) (p : Nat) (g : Part → Part) : State := s.setPart p (g (s.part p))

def State.modMs (s : State) (p : Nat) (g : Milestones → Milestones) : State :=
  s.modPart p (fun x => { x with ms := g x.ms })

def State.cis (s : State) (m : Nat) : CisDie := tabGet {} s.cisDies m

def State.modCis (s : State) (m : Nat) (g : CisDie → CisDie) : State :=
  { s with cisDies := tabSet s.cisDies m (g (s.cis m)) }

def State.sense (s : State) (d : Nat) : DieSense := tabGet {} s.pwr.sense d

/-- Do the clocks of the dies run: BOOT, READY, RUN and QUIESCE (Tables 12.1 and 12.2)? In FAULT only
Serai, Customs, PCIe, the sideband and the time base run. -/
def State.clocked (s : State) : Bool :=
  match s.mod.state with
  | .off => false
  | .standby => false
  | .fault => false
  | _ => true

/-- Does Serai run, with the power controller, the time base and the sideband: neither OFF nor STANDBY (Table
12.2)? -/
def State.seraiOn (s : State) : Bool :=
  match s.mod.state with
  | .off => false
  | .standby => false
  | _ => true

/-- The physical core, 22 n + k, that carries a logical number (R21, R165). -/
def State.physOf (s : State) (l : Nat) : Option Nat :=
  match (s.die (l / 20)).coreMap.getD (l % 20) none with
  | some k => some (22 * (l / 20) + k)
  | none => none

/-- The place of `some k` in a core map, counted from `j`. -/
def mapIndex (k : Nat) : List (Option Nat) → Nat → Option Nat
  | [], _ => none
  | e :: t, j => if e = some k then some j else mapIndex k t (j + 1)

/-- The logical number that a physical core carries (CE_LOGICAL). -/
def State.logicalOf (s : State) (p : Nat) : Option Nat :=
  match mapIndex (p % 22) (s.die (p / 22)).coreMap 0 with
  | some j => some (20 * (p / 22) + j)
  | none => none

/-- Does the configuration give the partition logical core `l` (Table 14.8, CORES)? -/
def PartCfg.owns (c : PartCfg) (l : Nat) : Bool :=
  bitAt (tabGet 0 c.cores (l / 20)).toNat (l % 20)

/-- Does partition `p` own logical core `l`? -/
def State.ownsCore (s : State) (p l : Nat) : Bool :=
  match (s.part p).cfg with
  | some c => c.owns l
  | none => false

/-- The partition of a logical core. -/
def State.partOf (s : State) (l : Nat) : Option Nat :=
  (List.range 16).find? (fun p => s.ownsCore p l)

/-- The partition whose logical core a physical core carries. -/
def State.partOfPhys (s : State) (p : Nat) : Option Nat :=
  match s.logicalOf p with
  | some l => s.partOf l
  | none => none

/-- The partition of a logical core, 16 when none has it. -/
def State.partNo (s : State) (l : Nat) : Nat := (s.partOf l).getD 16

/-- The logical cores of a partition, in order. -/
def State.coresOf (s : State) (p : Nat) : List Nat :=
  (List.range 240).filter (s.ownsCore p)

/-- The physical cores that carry a partition's logical numbers. -/
def State.physOfPart (s : State) (p : Nat) : List Nat :=
  (s.coresOf p).filterMap s.physOf

/-- The function bound to a partition, where the manifest binds one (R405). -/
def State.vfOf (s : State) (p : Nat) : Option Nat :=
  match (s.part p).cfg with
  | some c => if c.vf = 0 then none else some c.vf
  | none => none

/-- The function that notes and events of a partition go to (R415). -/
def State.fnOfPart (s : State) (p : Nat) : Nat := (s.vfOf p).getD 0

/-- Apply `g` to the state for each element of a list in order. -/
def eachDo {α : Type} (l : List α) (g : α → State → State) (s : State) : State :=
  l.foldl (fun t x => g x t) s

/-- The next free value (log entry 5). -/
def State.freeVal (s : State) : BitVec 64 := Config.freeWord s.free

/-- The state after a free value is used. -/
def State.useFree (s : State) : State := { s with free := s.free + 1 }

/-- The time that a die's replica of TIME_NOW shows (R351). -/
def State.dieNow (s : State) (d : Nat) : DWord := s.now + BitVec.ofInt 64 (s.sense d).replicaDiff

/-- The clock of a record source stops (R358). -/
def Gap.stop (g : Gap) (t : DWord) : Gap :=
  match g.stopped with
  | some _ => g
  | none => { g with stopped := some t }

/-- It runs again. -/
def Gap.start (g : Gap) (t : DWord) : Gap :=
  match g.stopped with
  | none => g
  | some t0 =>
    { stopped := none, total := g.total + (t - t0),
      first := match g.first with
        | none => some t0
        | some x => some x }

/-- GAP_START and GAP_NS of a record taken now, when it carries GAP. -/
def Gap.mark (g : Gap) : Option (DWord × DWord) :=
  match g.first with
  | none => none
  | some t => some (t, g.total)

/-- After a record is taken. -/
def Gap.taken (g : Gap) : Gap := { g with first := none, total := 0 }

end Sys2Proof.Machine
end

