-- ==== Sys2Proof/Machine/Views.lean ====
section
/-!
DEFINITION. The 32-bit words of the registers that logbook entries snapshot and that BAR0 reads.
-/

namespace Sys2Proof.Machine

def ModSt.code : ModSt → Nat
  | .off => 0
  | .standby => 1
  | .boot => 2
  | .ready => 3
  | .run => 4
  | .quiesce => 5
  | .fault => 6

def CoreSt.code : CoreSt → Nat
  | .idle => 0
  | .loaded => 1
  | .running => 2
  | .done => 3
  | .recalled => 4
  | .faulted => 5
  | .quarantined => 6

def PartSt.code : PartSt → Nat
  | .idle => 0
  | .loaded => 1
  | .running => 2
  | .paused => 3
  | .recovering => 4
  | .halted => 5

/-- CE_STAT.WAIT (Table 5.14). -/
def WaitOn.code : WaitOn → Nat
  | .none => 0
  | .token _ _ _ => 1
  | .toll _ _ _ => 2
  | .milestone _ _ _ => 3
  | .deadline _ _ _ _ => 4
  | .fence => 5
  | .context _ => 5

def TbSt.code : TbSt → Nat
  | .free => 0
  | .locked => 1
  | .holdover => 2

/-- MOD_STAT (Table 14.13). -/
def State.modStat (s : State) : Word :=
  w32 (s.mod.state.code + 8 * b2n s.mod.recovery + 16 * s.mod.fault.toNat
    + 256 * s.mod.bootStep.toNat)

/-- MAN_EPOCH. -/
def State.manEpoch (s : State) : Word :=
  match s.mod.inForce with
  | some m => m.epoch
  | none => 0

/-- MAN_STAGED. -/
def State.manStaged (s : State) : Word :=
  match s.mod.staged with
  | some m => m.epoch
  | none => 0

/-- MAN_CTL. -/
def State.manCtl (s : State) : Word := w32 (2 * b2n s.mod.staged.isSome)

/-- FN_STAT (Table 14.14). -/
def Fn.statWord (x : Fn) : Word := w32 (b2n x.bound + 2 * x.part.toNat + 32 * x.qmax.toNat)

/-- FN_LINK. -/
def State.fnLink (s : State) : Word := w32 (s.mod.pcieSpeed.toNat + 8 * s.mod.pcieWidth.toNat)

/-- QUEUE_CFG. -/
def Queue.cfgWord (y : Queue) : Word :=
  w32 (y.log2.toNat + 32 * y.kind.toNat + 128 * y.tc.toNat + 512 * y.link.toNat)

/-- QUEUE_CTL. -/
def Queue.ctlWord (y : Queue) : Word :=
  w32 (b2n y.en + 2 * b2n y.haltOnReject + 4 * b2n y.ien + 256 * y.coalUs.toNat)

/-- QUEUE_STAT. -/
def Queue.statWord (y : Queue) : Word :=
  w32 (b2n y.active + 2 * b2n y.halted + 4 * b2n y.error + 65536 * (y.sqHead % 65536))

/-- PC of CE_STAT and CE_FAULT_PC: 14 bits, so that the place after 16,384 instructions reads zero (Table 5.14, log
entry 59). -/
def pcField (pc : Nat) : Nat := pc % 16384

/-- CE_STAT of physical core `p` (Table 5.14). SPARE resets to 0: no core is marked before the boot has mapped the
cores (R156). -/
def State.ceStat (s : State) (p : Nat) : Word :=
  let c := s.core p
  w32 (c.st.code + 8 * b2n ((s.logicalOf p).isNone && decide (s.mod.state ≠ .boot)) + 16 * c.wait.code
    + 256 * pcField c.pc)

/-- CE_FAULT. -/
def Core.ceFault (c : Core) : Word := w32 (c.faultStatus.toNat + 256 * c.faultCode.toNat)

/-- CE_FAULT_PC. -/
def Core.ceFaultPc (c : Core) : Word := w32 (pcField c.faultPc + 16384 * c.faultStm.toNat)

/-- CE_LOGICAL; 0xFF for none, and until the boot has mapped the cores (R156, Table 5.14). -/
def State.ceLogical (s : State) (p : Nat) : Word :=
  if s.mod.state = .boot then 255 else w32 ((s.logicalOf p).getD 255)

/-- PART_STAT (Table 5.16). -/
def Part.statWord (x : Part) : Word :=
  w32 (x.st.code + 8 * b2n x.pause.isSome + 16 * x.reason.toNat + 256 * x.status.toNat)

/-- PART_RP. -/
def Part.rpWord (x : Part) : Word :=
  w32 (x.rpMid.toNat + 65536 * b2n x.rpVr + 131072 * x.rpTries.toNat)

/-- HBM_STAT (Table 7.10). -/
def HbmCtl.statWord (h : HbmCtl) : Word :=
  w32 (b2n h.ready + 2 * b2n h.failed + 4 * b2n h.patrolActive)

def HbmCtl.errLo (h : HbmCtl) : Word := h.errAddr.setWidth 32

def HbmCtl.errHi (h : HbmCtl) : Word :=
  w32 (h.errAddr.toNat / 2 ^ 32 + 16 * h.errKind.toNat + 64 * h.errPart.toNat
    + 1024 * b2n h.errOwned)

/-- CIS_STAT (Table 7.11). -/
def CisDie.statWord (c : CisDie) : Word := w32 (c.ready.toNat + 65536 * c.failed.toNat)

def CisDie.errLo (c : CisDie) : Word := c.errAddr.setWidth 32

def CisDie.errHi (c : CisDie) : Word :=
  w32 (c.errAddr.toNat / 2 ^ 32 + 4 * c.errChan.toNat + 64 * c.errKind.toNat
    + 256 * c.errPart.toNat + 4096 * b2n c.errOwned)

/-- The staging registers and MEMP_PLC_RESULT, in the order of Table 7.9 (R221). -/
def PartMem.plcWords (m : PartMem) : List Word :=
  [w32 m.plcIdx.toNat, m.plcBase.setWidth 32, w32 (m.plcBase.toNat / 2 ^ 32), m.plcSize,
   w32 (m.plcClass.toNat + 16 * b2n m.plcValid), w32 (m.plcStatus.toNat + 256 * b2n m.plcBusy)]

/-- CWY_LAST (Table 7.15). -/
def Causeway.lastWord (c : Causeway) : Word :=
  w32 (c.lastDie.toNat + 32 * c.lastPort.toNat + 256 * b2n c.lastSpurRetry)

/-- MS_OBJ[o].DEF (Table 6.5). -/
def MsObj.defWord (o : MsObj) : Word :=
  w32 (o.mid.toNat + 65536 * o.group.toNat + 2 ^ 20 * b2n o.jobwide + 2 ^ 21 * b2n o.valid)

/-- MS_OBJ[o].STATE. -/
def MsObj.stateWord (o : MsObj) : Word :=
  w32 (o.gen.toNat + 65536 * (o.arrived.length % 256) + 2 ^ 24 * o.phase.toNat)

/-- MS_OBJ[o].NODE: the child count at hosted level l in bits [5l − 1 : 5l − 5]. -/
def MsObj.nodeWord (o : MsObj) : Word :=
  w32 (((List.range 6).map (fun l => (tabGet [] o.nodes (l + 1)).length % 32 * 2 ^ (5 * l))).foldl
    (· + ·) 0)

/-- MS_STAT. -/
def Milestones.statWord (m : Milestones) : Word :=
  w32 (m.ctx.toNat + 256 * b2n m.mismatch + 512 * b2n m.abandoned
    + 1024 * b2n (decide (0 < m.hold) || m.replayReq) + 2 ^ 24 * m.stale.toNat)

/-- MS_MISS_SUM. -/
def Milestones.missSum (m : Milestones) : Word := w32 (m.nMiss.toNat + 256 * m.firstMiss.toNat)

/-- MS_NODE[l]. -/
def MsNode.word (n : MsNode) : Word :=
  w32 (n.target.toNat + 2 ^ 20 * n.children.toNat + 2 ^ 25 * b2n n.host + 2 ^ 26 * b2n n.top)

/-- PWR_NOW (Table 12.6). -/
def Power.nowWord (p : Power) : Word := w32 (p.inputW.toNat + 65536 * p.peakW.toNat)

/-- PWR_STAT. -/
def Power.statWord (p : Power) : Word :=
  w32 (b2n p.undervolt + 2 * b2n p.breach + 4 * b2n p.thermal + 8 * b2n p.droop)

/-- The sum of the sealed shares of the manifest in force (R338). -/
def State.sealedW (s : State) : Nat :=
  match s.mod.inForce with
  | some m => ((m.parts.filter (·.sealed)).map (·.share.toNat)).foldl (· + ·) 0
  | none => 0

/-- PWR_COMMIT. -/
def State.pwrCommit (s : State) : Word := w32 (s.sealedW % 65536 + 65536 * s.pwr.uncoreW.toNat)

/-- TB_STAT (Table 12.8). -/
def TimeBase.statWord (t : TimeBase) : Word :=
  w32 (t.st.code + 4 * b2n t.root + 8 * b2n t.wall + 16 * t.uplink.toNat + 1024 * t.hops.toNat)

/-- SAFE_FENCED (Table 15.12). -/
def Die.fencedWord (d : Die) : Word := w32 (b2n d.upd.fenced + 2 * b2n d.chFenced)

/-- The later of two times back: how long ago, in µs, at most 32 bits. -/
def usSince (now t : DWord) : Nat := (now - t).toNat / 1000

/-- SAFE_AGE: the longest time since the last passing test among the die's cores and engines (Table
15.12). -/
def State.safeAge (s : State) (n : Nat) : Word :=
  let d := s.die n
  let cores := (List.range 22).map (fun k => usSince s.now (s.core (22 * n + k)).lastTest)
  w32 ((usSince s.now d.lastUpdTest :: usSince s.now d.lastChTest :: cores).foldl max 0)

end Sys2Proof.Machine
end

