-- ==== Sys2Proof/Machine/Log.lean ====
section
/-!
DEFINITION. Writing the logbook: rings, token buckets, time marks, continuation entries, the archive's
staging buffer (R446 to R451, R358), and the snapshots of each block's codes (R448).
-/

namespace Sys2Proof.Machine

/-- What reports an event: a physical core, a die numbered as in PWR_TJ, the update engine or the HBM3E controller of a
compute die, or Serai. -/
inductive LogSrc
  | core (p : Nat)
  | die (d : Nat)
  | upd (n : Nat)
  | hbmCtl (n : Nat)
  | serai
  deriving DecidableEq, Repr

/-- The reporting die (Table 15.5, DIE). -/
def LogSrc.dieNo : LogSrc → Nat
  | .core p => p / 22
  | .die d => d
  | .upd n => n
  | .hbmCtl n => n
  | .serai => 24

/-- The clock gaps of the source's logbook records (R358). The clocks of the other units of a die, and of its HBM3E
controller, run from BOOT on without a stop (Table 12.1). -/
def State.srcGap (s : State) : LogSrc → Gap
  | .core p => (s.core p).gapLog
  | .die _ => {}
  | .upd n => (s.die n).upd.gap
  | .hbmCtl _ => {}
  | .serai => s.gapSerai

/-- After a record of the source is taken. -/
def State.takeGap (s : State) : LogSrc → State
  | .core p => s.modCore p (fun c => { c with gapLog := c.gapLog.taken })
  | .die _ => s
  | .upd n => s.modDie n (fun d => { d with upd := { d.upd with gap := d.upd.gap.taken } })
  | .hbmCtl _ => s
  | .serai => { s with gapSerai := s.gapSerai.taken }

/-- Is a stretch of the die in progress (R347)? -/
def State.stretched (s : State) (d : Nat) : Bool := (s.sense d).stretch3 || (s.sense d).stretch6

/-- Is the clock of a source stretched now (R358)? CK_HBMC never is (Table 12.1). -/
def State.srcStretched (s : State) : LogSrc → Bool
  | .hbmCtl _ => false
  | src => s.stretched src.dieNo

/-- TMARK (R358): STRETCHED, GAP, UNSYNC, HOLDOVER. -/
def State.tmark (s : State) (stretched gap : Bool) : BitVec 4 :=
  BitVec.ofNat 4 (b2n stretched + 2 * b2n gap + 4 * b2n (decide (s.time.st = .free))
    + 8 * b2n (decide (s.time.st = .holdover)))

/-- Entries a ring holds (R446). -/
def ringCap (ring : Nat) : Nat := if ring = 16 then 8192 else 512

/-- Commit an entry to its ring; a full ring overwrites its oldest (R446). -/
def LogRing.commit (r : LogRing) (cap : Nat) (e : LogEntry) : LogRing :=
  { head := r.head + 1, entries := (e :: r.entries).take cap }

/-- LOG_OLDEST of a ring. -/
def LogRing.oldest (r : LogRing) : Nat := r.head - r.entries.length

/-- Commit an entry to its ring and to the archive's staging buffer (R446, R451). -/
def Logbook.commit (l : Logbook) (ring : Nat) (e : LogEntry) : Logbook :=
  let l1 := { l with rings := tabMod {} l.rings ring (fun r => r.commit (ringCap ring) e) }
  if l1.staging.length < 1024 then { l1 with staging := l1.staging ++ [e] }
  else { l1 with archDrops := satAdd l1.archDrops 1 }

/-- Rate and depth that govern a code: the override LOG_RL[k] of lowest k, or LOG_RL_DEF (R449). -/
def Logbook.limit (l : Logbook) (code : BitVec 16) : Nat × Nat :=
  match l.rl.find? (fun e => e.2.valid && decide (e.2.code = code)) with
  | some e => (e.2.rate.toNat, e.2.depth.toNat)
  | none => (l.rlRate.toNat, l.rlDepth.toNat)

/-- The bucket of a ring and code. -/
def Logbook.bucket (l : Logbook) (ring : Nat) (code : BitVec 16) : Bucket :=
  tabGet {} l.buckets (65536 * ring + code.toNat)

/-- What the bucket lacks now, after the tokens it has gained (R449). -/
def Bucket.lackNow (b : Bucket) (rate : Nat) (now : DWord) : Nat :=
  b.lack - rate * (now - b.at_).toNat

/-- Is there a token for an entry? RATE 0 does not limit (Table 15.13). -/
def Bucket.admits (b : Bucket) (rate depth : Nat) (now : DWord) : Bool :=
  rate == 0 || decide (b.lackNow rate now + 1000000000 ≤ depth * 1000000000)

/-- The bucket after an entry is written. -/
def Bucket.spend (b : Bucket) (rate : Nat) (now : DWord) : Bucket :=
  { lack := if rate = 0 then 0 else b.lackNow rate now + 1000000000, at_ := now, suppressed := 0 }

/-- The bucket after an entry is suppressed. -/
def Bucket.suppress (b : Bucket) (rate : Nat) (now : DWord) : Bucket :=
  { lack := b.lackNow rate now, at_ := now, suppressed := satAdd b.suppressed 1 }

/-- The continuation entry of an entry with GAP and arguments (R448). -/
def LogEntry.continuation (e : LogEntry) (args : List Word) : LogEntry :=
  { e with cont := true, suppressed := 0, gap := none, args := args.take 4, snaps := [] }

/-- Commit an entry, and its continuation when it carries GAP and arguments. -/
def Logbook.write (l : Logbook) (ring : Nat) (e : LogEntry) (args : List Word) : Logbook :=
  match e.gap with
  | none => l.commit ring { e with args := args.take 4 }
  | some _ =>
    if args.isEmpty then l.commit ring e
    else (l.commit ring e).commit ring (e.continuation args)

/-- The ring of an event's partition, or the module ring (R446). -/
def ringOf (part : Option Nat) : Nat :=
  match part with
  | some p => if p < 16 then p else 16
  | none => 16

/-- PART of an entry (Table 15.5). -/
def partField (part : Option Nat) : BitVec 5 :=
  match part with
  | some p => if p < 16 then BitVec.ofNat 5 p else 31
  | none => 31

/-- The entry of an event now. -/
def State.logEntry (s : State) (src : LogSrc) (code : BitVec 16) (status : Byte)
    (part : Option Nat) (snaps : List Word) (suppressed : BitVec 16) : LogEntry :=
  { time := s.dieNow src.dieNo, code := code, status := status, part := partField part,
    cont := false, tmark := s.tmark (s.srcStretched src) (s.srcGap src).mark.isSome,
    die := src.dieNo, suppressed := suppressed, gap := (s.srcGap src).mark, args := [],
    snaps := snaps.take 8 }

/-- Write a logbook entry, or suppress it when its bucket is empty (R446 to R449). -/
def State.logAt (s : State) (src : LogSrc) (code : Nat) (status : Nat) (part : Option Nat)
    (args : List Word) (snaps : List Word) : State :=
  let cd := BitVec.ofNat 16 code
  let ring := ringOf part
  let lim := s.log.limit cd
  let b := s.log.bucket ring cd
  let key := 65536 * ring + cd.toNat
  if b.admits lim.1 lim.2 s.now then
    let e := s.logEntry src cd (st8 status) part snaps b.suppressed
    let l := { s.log with buckets := tabSet s.log.buckets key (b.spend lim.1 s.now) }
    ({ s with log := l.write ring e args }).takeGap src
  else
    { s with log :=
        { s.log with buckets := tabSet s.log.buckets key (b.suppress lim.1 s.now) } }

/-- A 64-bit register takes two words, low half first (R448). -/
def w64words (d : DWord) : List Word := [d.setWidth 32, (d >>> 32).setWidth 32]

/-- An address as argument words. -/
def addrWords (a : Nat) : List Word := [w32 a, w32 (a / 2 ^ 32)]

/-- Snapshots of Serai codes: MOD_STAT, MAN_EPOCH, MAN_STAGED, MAN_CTL (R434). -/
def State.seraiSnaps (s : State) : List Word := [s.modStat, s.manEpoch, s.manStaged, s.manCtl]

/-- A Serai code (R434); the partition concerned is in PART. -/
def State.logSerai (s : State) (code status : Nat) (part : Option Nat) (args : List Word) : State :=
  s.logAt .serai code status part args s.seraiSnaps

/-- A PCIe code: FN_STAT, FN_LINK and QUEUE_STAT of the function and queue concerned (R434). -/
def State.logPcie (s : State) (code status f q : Nat) (args : List Word) : State :=
  s.logAt .serai code status (if (s.fn f).bound && f != 0 then some (s.fn f).part.toNat else none) args
    [(s.fn f).statWord, s.fnLink, (s.queue f q).statWord]

/-- Snapshots of core codes: CE_STAT, CE_FAULT, CE_FAULT_PC, PART_STAT, PART_RP (R167). -/
def State.coreSnaps (s : State) (p : Nat) : List Word :=
  let c := s.core p
  match s.partOfPhys p with
  | some q => [s.ceStat p, c.ceFault, c.ceFaultPc, (s.part q).statWord, (s.part q).rpWord]
  | none => [s.ceStat p, c.ceFault, c.ceFaultPc]

/-- A core code (R167, R221, R463), in the ring of the core's partition. -/
def State.logCore (s : State) (p code status : Nat) (args : List Word) : State :=
  s.logAt (.core p) code status (s.partOfPhys p) args (s.coreSnaps p)

/-- A core-control code of a partition as a whole (R167), with the core that reported the event where there is one:
CE_STAT, CE_FAULT and CE_FAULT_PC of it, PART_STAT and PART_RP (log entry 72). -/
def State.logPart (s : State) (q code status : Nat) (who : Option Nat) : State :=
  s.logAt .serai code status (some q) []
    ((match who with
      | some p => [s.ceStat p, (s.core p).ceFault, (s.core p).ceFaultPc]
      | none => []) ++ [(s.part q).statWord, (s.part q).rpWord])

/-- A milestone code (R188) of object `o`. -/
def State.logMs (s : State) (q code status : Nat) (o : Option Nat) (args : List Word) : State :=
  let m := (s.part q).ms
  let objw := match o with
    | some i => [(tabGet {} m.objs i).defWord, (tabGet {} m.objs i).stateWord]
    | none => []
  s.logAt .serai code status (some q) args
    (objw ++ [m.statWord, m.missSum, w32 m.missChild.toNat])

/-- An HBM code (R221) of stack n. -/
def State.logHbm (s : State) (n code status : Nat) (part : Option Nat) (args : List Word) : State :=
  let h := (s.die n).hbm
  s.logAt (.hbmCtl n) code status part args [h.statWord, h.errLo, h.errHi]

/-- A cistern code (R221) of die CSm. -/
def State.logCis (s : State) (m code status : Nat) (part : Option Nat) (args : List Word) : State :=
  let c := s.cis m
  s.logAt (.die (18 + m)) code status part args [c.statWord, c.errLo, c.errHi]

/-- A power code (R368): PWR_EFF, PWR_NOW, PWR_STAT, PWR_COMMIT; the die in DIE. -/
def State.logPower (s : State) (d code status : Nat) (args : List Word) : State :=
  s.logAt (if d = 24 then .serai else .die d) code status none args
    [w32 s.pwr.eff.toNat, s.pwr.nowWord, s.pwr.statWord, s.pwrCommit]

/-- A time code (R368): TB_STAT, TB_OFFSET, TB_RATE. -/
def State.logTime (s : State) (code status : Nat) (args : List Word) : State :=
  s.logAt .serai code status none args [s.time.statWord, s.time.offset, s.time.rate]

/-- A module physical code (R477): MOD_STAT, PWR_SUPPLY, PWR_STAT. -/
def State.logPhys (s : State) (code status : Nat) (args : List Word) : State :=
  s.logAt .serai code status none args [s.modStat, w32 s.pwr.supplyMv.toNat, s.pwr.statWord]

/-- An engine code (R463) of the counting house (`house`) or the update engine: SAFE_FENCED and SAFE_AGE of CDn. -/
def State.logEngine (s : State) (n : Nat) (house : Bool) (code status : Nat) (args : List Word) : State :=
  s.logAt (if house then .die n else .upd n) code status none args [(s.die n).fencedWord, s.safeAge n]

/-- The bytes of an entry as sixteen words (Table 15.5). -/
def LogEntry.words (e : LogEntry) : List Word :=
  let argw := match e.gap with
    | some g => w64words g.1 ++ w64words g.2
    | none => (e.args ++ [0, 0, 0, 0]).take 4
  let head := [w32 (e.code.toNat + 65536 * e.status.toNat
      + 2 ^ 24 * (e.part.toNat + 32 * b2n e.cont)),
    w32 (e.tmark.toNat + 16 * (e.snaps.length % 16) + 256 * (e.die % 256)
      + 65536 * e.suppressed.toNat)]
  w64words e.time ++ head ++ argw ++ (e.snaps ++ List.replicate 8 0).take 8

end Sys2Proof.Machine
end

