-- ==== Sys2Proof/Machine/Deliver.lean ====
section
/-!
DEFINITION. What Serai writes to the host: completion entries, MSI-X messages, notes and error events
(R411 to R415).
-/

namespace Sys2Proof.Machine

/-- Entries of a ring (R408). -/
def Queue.size (y : Queue) : Nat := 2 ^ y.log2.toNat

/-- Entries the host has not yet read of the completion ring. -/
def Queue.unread (y : Queue) : Nat := (y.cqTail + y.size - y.cqHead) % y.size

/-- Free completion slots: those neither holding an unread entry nor reserved (R412). One slot stays
empty so that a full ring differs from an empty one (R409). -/
def Queue.freeSlots (y : Queue) : Nat := y.size - 1 - y.unread - y.taken

/-- The 32 bytes of a completion entry (Table 14.6). -/
def Cqe.bytes (e : Cqe) (phase : Bool) (sqHead : Nat) (now : DWord) : List Byte :=
  leBytes 2 e.cid.toNat ++ [e.status, BitVec.ofNat 8 (b2n phase + 2 * e.kind.toNat)]
    ++ leBytes 2 (sqHead % 65536) ++ leBytes 2 e.queue ++ leBytes 8 e.result0.toNat
    ++ leBytes 8 e.result1.toNat ++ leBytes 8 now.toNat

/-- Write bytes to host memory. -/
def State.hostWrite (s : State) (a : Nat) (bs : List Byte) : State :=
  { s with host := { s.host with mem := tabPutList 0 s.host.mem a bs } }

/-- An MSI-X message on a vector of a function (R414). -/
def State.msix (s : State) (f v : Nat) : State :=
  { s with host := { s.host with msix := s.host.msix ++ [(f, v)] } }

/-- Vector 0: a change of HALTED or ERROR of a queue, or of PART_STAT (R414). -/
def State.msix0 (s : State) (f : Nat) : State := s.msix f 0

/-- Vector 0 for a change of PART_STAT of partition `p`. -/
def State.partChanged (s : State) (p : Nat) : State :=
  match s.vfOf p with
  | some f => s.msix0 f
  | none => s

/-- The message of vector q + 1 after an entry is written: at once, or at the end of the spacing of
COAL_US (R414). -/
def State.cqInterrupt (s : State) (f q : Nat) : State :=
  let y := s.queue f q
  if !y.ien then s
  else
    let due := match y.lastMsi with
      | none => true
      | some t => decide (y.coalUs.toNat * 1000 ≤ (s.now - t).toNat)
    if due then (s.setQueue f q { y with lastMsi := some s.now, msiPending := false }).msix f (q + 1)
    else s.setQueue f q { y with msiPending := true }

/-- Write an entry to the completion ring of queue `q` of function `f` (R411). -/
def State.cqWrite (s : State) (f q : Nat) (e : Cqe) : State :=
  let y := s.queue f q
  let a := y.cqBase.toNat + 32 * y.cqTail
  let next := (y.cqTail + 1) % y.size
  let s1 := s.hostWrite a (e.bytes y.phase y.sqHead s.now)
  let y1 := { y with cqTail := next, phase := if next = 0 then !y.phase else y.phase }
  (s1.setQueue f q y1).cqInterrupt f q

/-- QUEUE_STAT.ACTIVE: fetching, or work in flight (Table 14.14). -/
def Queue.refresh (y : Queue) : Queue :=
  { y with active := (y.en && !y.error) || decide (0 < y.taken) }

/-- Complete a descriptor taken from a queue, with an entry of a KIND (Table 14.6): it is written while the
queue is enabled and not in ERROR, and discarded otherwise (R408, R413). -/
def State.completeKind (s : State) (f q : Nat) (cid : BitVec 16) (kind : BitVec 3) (status : Nat)
    (r0 r1 : DWord) : State :=
  let y := s.queue f q
  let s1 := s.setQueue f q ({ y with taken := y.taken - 1 }).refresh
  if y.en && !y.error then
    s1.cqWrite f q
      { cid := cid, status := st8 status, kind := kind, queue := q, result0 := r0, result1 := r1 }
  else s1

/-- Complete a command. -/
def State.complete (s : State) (c : CmdRef) (status : Nat) (r0 r1 : DWord) : State :=
  s.completeKind c.fn c.q c.cid 0 status r0 r1

/-- A NIC send completes once its last frame has left the MAC (R416). -/
def State.nicSent (s : State) : Option (Nat × Nat × BitVec 16) → State
  | some r => s.completeKind r.1 r.2.1 r.2.2 3 0 0 0
  | none => s

/-- A command's queue, identifier and code. -/
def CmdHdr.ref (h : CmdHdr) (code : Nat) : CmdRef := { fn := h.fn, q := h.q, cid := h.cid, code := code }

/-- A rejected command (R149): STATE_ILLEGAL, code 0x0110 with the command code, the queue and the
partition state, and the queue halts when HALT_ON_REJECT is set (R412). -/
def State.reject (s : State) (c : CmdRef) (p : Nat) : State :=
  let s1 := s.logAt .serai 0x0110 0x01 (if p < 16 then some p else none)
    [w32 c.code, w32 c.q, w32 (s.part p).st.code] [(s.part p).statWord, (s.part p).rpWord]
  let s2 := s1.complete c 0x01 0 0
  if (s2.queue c.fn c.q).haltOnReject then
    (s2.modQueue c.fn c.q (fun y => { y with halted := true })).msix0 c.fn
  else s2

/-- Drop a note or event: counted and logged (R415). -/
def State.dropNote (s : State) (f q : Nat) : State :=
  (s.modFn f (fun x => { x with evtDrops := satAdd x.evtDrops 1 })).logPcie 0x0304 0 f q []

/-- May notes and events be written to this queue at all (R415)? -/
def Queue.takesNotes (y : Queue) : Bool := y.en && decide (y.kind = 0) && !y.error

/-- Deliver a note or event to a queue of a function: written when a slot is free and nothing waits
before it, held otherwise, dropped when the store is full or the queue takes none (R415). -/
def State.deliver (s : State) (f : Nat) (e : Cqe) : State :=
  let y := s.queue f e.queue
  if !y.takesNotes then s.dropNote f e.queue
  else if (s.fn f).held.isEmpty && decide (0 < y.freeSlots) then s.cqWrite f e.queue e
  else if (s.fn f).held.length < 64 then s.modFn f (fun x => { x with held := x.held ++ [e] })
  else s.dropNote f e.queue

/-- RESULT0 of an error event (R415). -/
def eventResult0 (code : Nat) (part : Option Nat) : DWord :=
  match part with
  | some p => w64 (code + 65536 * p + 2 ^ 20)
  | none => w64 code

/-- An error event to one function. -/
def State.eventTo (s : State) (f code status : Nat) (part : Option Nat) (addr : Nat) : State :=
  s.deliver f { cid := 0xFFFF, status := st8 status, kind := 2, queue := (s.fn f).evq.toNat,
                result0 := eventResult0 code part, result1 := w64 addr }

/-- An error event (R415): to the function bound to the partition and to the PF; to the PF alone, once,
for a partition without a VF and for an event of no partition. -/
def State.event (s : State) (code status : Nat) (part : Option Nat) (addr : Nat) : State :=
  match part with
  | none => s.eventTo 0 code status none addr
  | some p =>
    match s.vfOf p with
    | some f => (s.eventTo f code status part addr).eventTo 0 code status part addr
    | none => s.eventTo 0 code status part addr

/-- Put a queue into ERROR (R413): fetching stops, code 0x0303, vector 0. -/
def State.queueError (s : State) (f q : Nat) : State :=
  let s1 := s.modQueue f q (fun y => ({ y with error := true }).refresh)
  (s1.logPcie 0x0303 0x05 f q [w32 q]).msix0 f

end Sys2Proof.Machine
end

