-- ==== Sys2Proof/Machine/LifeOps.lean ====
section
/-!
DEFINITION. Operations on the lifetime ledger: the record's bytes, totals and commits (R360 to R363).
-/

namespace Sys2Proof.Machine

def State.modLife (s : State) (g : LifeRec → LifeRec) : State :=
  { s with life := { s.life with cur := g s.life.cur } }

/-- The record a commit takes: SEQ one more than the last, STAMP the time of the snapshot (Table
12.5). -/
def Life.snapshot (l : Life) (now : DWord) : LifeRec :=
  { l.cur with seq := l.committed.seq + 1, stamp := now }

/-- The slot of commit `k`: bank k mod 2, slot (k div 2) mod 64; the retry goes to the next slot of the same bank
(R360, R361). -/
def lifeSlot (k : Nat) (retry : Bool) : Nat := 64 * (k % 2) + (k / 2 + b2n retry) % 64

/-- The slot that the commit in progress goes to. -/
def Life.target (l : Life) : Option Nat := l.committing.map (fun c => lifeSlot c.1.seq.toNat c.2)

/-- A commit erases its slot (R360). -/
def Life.erase (l : Life) (k : Nat) : Life := { l with slots := tabErase l.slots k }

/-- A commit begins (R360, R361), or, while one is in progress, follows it. -/
def State.lifeBegin (s : State) : State :=
  match s.life.committing with
  | some _ => { s with life := { s.life with again := true } }
  | none =>
    let r := s.life.snapshot s.now
    { s with life := { s.life.erase (lifeSlot r.seq.toNat false) with committing := some (r, false), again := false } }

/-- What a slot that is not valid shows of its SEQ is no rule's (log entry 83): the record's, or none. -/
def tornSlot (r : LifeRec) (shows : Bool) : LifeSlot := .torn (if shows then some r.seq else none)

/-- The area after a loss of power (R362): a commit in progress has left its slot not valid, or had just been programmed
whole, which is a free choice (log entry 83). -/
def State.cutSlots (s : State) : Tab LifeSlot :=
  match s.life.committing with
  | none => s.life.slots
  | some (r, retry) =>
    tabSet s.life.slots (lifeSlot r.seq.toNat retry)
      (if s.freeVal.getLsbD 0 then .valid r else tornSlot r (s.freeVal.getLsbD 1))

/-- The slot of the valid record of highest SEQ, and the record (R362). -/
def newestSlot (t : Tab LifeSlot) : Option (Nat × LifeRec) :=
  t.foldl (fun best e =>
    match e.2 with
    | .torn _ => best
    | .valid r =>
      match best with
      | none => some (e.1, r)
      | some b => if b.2.seq.toNat < r.seq.toNat then some (e.1, r) else some b) none

/-- Is there a slot that is not valid and shows a SEQ above that of the newest valid record (R362)? -/
def tornAbove (t : Tab LifeSlot) : Bool :=
  let top := match newestSlot t with
    | some e => e.2.seq.toNat + 1
    | none => 0
  t.any (fun e => match e.2 with
    | .torn (some q) => decide (top ≤ q.toNat)
    | _ => false)

/-- The ledger read from the area (R362, Table 12.9): DUE_NOW starts at zero. -/
def lifeFromFlash (t : Tab LifeSlot) : Life :=
  match newestSlot t with
  | none => { slots := t }
  | some (k, r) =>
    { slots := t, committed := r, bank := decide (64 ≤ k),
      cur := { r with svc := r.svc.map (fun e => (e.1, { e.2 with dueNow := false })) } }

/-- The bytes of the service calendar entry k (LIFE_SVC[k]: DUE, then CTL). -/
def Svc.bytes (v : Svc) : List Byte :=
  leBytes 4 v.due.toNat ++ leBytes 4 (v.kind.toNat + 256 * b2n v.valid + 512 * b2n v.dueNow)

/-- Bytes 0 to 65,527 of the lifetime record (Table 12.5). -/
def LifeRec.body (r : LifeRec) : List Byte :=
  leBytes 4 0x4546494C ++ leBytes 4 r.seq.toNat ++ leBytes 8 r.stamp.toNat
    ++ leBytes 8 r.powerOnS.toNat ++ leBytes 8 r.energyJ.toNat ++ leBytes 4 r.thermalCycles.toNat
    ++ leBytes 4 r.boots.toNat ++ List.replicate 24 0
    ++ (List.range 264).flatMap (fun p =>
        let c := tabGet {} r.cores p
        leBytes 4 (c.quarantines.toNat + 256 * b2n c.retired + 512 * c.hours.toNat))
    ++ (List.range 12).flatMap (fun n => leBytes 8 (tabGet 0 r.hbmCorr n).toNat)
    ++ (List.range 96).flatMap (fun c => leBytes 8 (tabGet 0 r.cisCorr c).toNat)
    ++ (List.range 12).flatMap (fun n => leBytes 8 (tabGet 0 r.hbmUncorr n).toNat)
    ++ (List.range 96).flatMap (fun c => leBytes 4 (tabGet 0 r.cisUncorr c).toNat)
    ++ leBytes 16 r.failed.toNat
    ++ (List.range 16).flatMap (fun k => (tabGet ({} : Svc) r.svc k).bytes)
    ++ leBytes 2 r.optDay.toNat ++ List.replicate 1486 0
    ++ (List.range 25920).flatMap (fun i => leBytes 2 (tabGet 0 r.opt i).toNat)
    ++ List.replicate 9592 0

/-- One bit of the CRC of IEEE 802.3: a shift right, and the reflected polynomial 0xEDB8_8320 where a 1 leaves. -/
def crcBit (c : Nat) : Nat := if c % 2 = 1 then (c / 2) ^^^ 0xEDB88320 else c / 2

/-- One byte of the CRC, least significant bit first. -/
def crcByte (c : Nat) (b : Byte) : Nat :=
  crcBit (crcBit (crcBit (crcBit (crcBit (crcBit (crcBit (crcBit (c ^^^ b.toNat))))))))

/-- CRC-32 over the IEEE 802.3 polynomial (Table 12.5). PRESUMED: that standard's start value, bit order and
final inversion, which the spec does not write out (log entry 54). -/
def crc32 (bs : List Byte) : Word := BitVec.ofNat 32 (bs.foldl crcByte 0xFFFFFFFF ^^^ 0xFFFFFFFF)

/-- The 64 KiB of the record, with CRC and COMMIT. -/
def LifeRec.bytes (r : LifeRec) : List Byte :=
  r.body ++ leBytes 4 (crc32 r.body).toNat ++ leBytes 4 0xA5C30F5A

end Sys2Proof.Machine
end

