-- ==== Sys2Proof/Machine/Wire.lean ====
section
/-!
DEFINITION. The bytes of frames on the optical links: the tag of R227, the link control frames of Table 8.3, the
Riris header of Table 9.3, the time frame of Table 12.3, the encapsulation of R230, and PFC frames. All fields are
in network byte order (R234, R254). The formats of IEEE 802.1Q, IEEE 802.1Qbb, IPv4, IPv6 and UDP are those of their
own standards (log entry 75).
-/

namespace Sys2Proof.Machine

/-- A number in network order at an offset of a frame. -/
def netNat (d : List Byte) (off n : Nat) : Nat := ((d.drop off).take n).foldl (fun a b => 256 * a + b.toNat) 0

/-- The sum of 16-bit words in network order, an odd byte padded with zero. -/
def sum16 : List Byte → Nat
  | [] => 0
  | [a] => 256 * a.toNat
  | a :: b :: rest => 256 * a.toNat + b.toNat + sum16 rest

/-- A sum's carries added back in. -/
def foldCarry (n : Nat) : Nat := n % 65536 + n / 65536

/-- The Internet checksum of a sum of words. -/
def checksum (n : Nat) : Nat := 65535 - foldCarry (foldCarry (foldCarry n))

/-- Is a frame tagged with 802.1Q at byte 12? -/
def isTagged (d : List Byte) : Bool := netNat d 12 2 == 0x8100

/-- A frame of at least 64 bytes with its FCS (R227). -/
def padFrame (b : List Byte) : List Byte := b ++ List.replicate (60 - b.length) 0

/-- A MAC address, and the Ethernet header of a frame (R227): destination, source and the 802.1Q tag, if any. -/
def ethHead (dst src : BitVec 48) (tci : Option (BitVec 16)) : List Byte :=
  beBytes 6 dst.toNat ++ beBytes 6 src.toNat
    ++ (match tci with
      | some t => beBytes 2 0x8100 ++ beBytes 2 t.toNat
      | none => [])

/-- The TCI of R227: PCP is the transmit queue, DEI the lane on a TORUS link, and VID. -/
def tciOf (pcp : Nat) (dei : Bool) (vid : BitVec 12) : BitVec 16 :=
  BitVec.ofNat 16 (8192 * (pcp % 8) + 4096 * b2n dei + vid.toNat)

/-! What follows EtherType 0x88B5. -/

/-- Bytes 0 to 9 of a link control frame (Table 8.3). -/
def ctlHead (cls lseq src dst : Nat) : List Byte :=
  beBytes 1 cls ++ [1] ++ beBytes 2 lseq ++ beBytes 3 src ++ beBytes 3 dst

/-- KIND of a milestone frame (Table 8.3). -/
def msKindCode : MsKind → Nat
  | .arrival => 0
  | .release => 1
  | .watchdogNotice => 2
  | .abandon => 3
  | .hold => 4
  | .withdrawal => 5
  | .replayRequest => 6

/-- A milestone frame (Table 8.3). -/
def msBody (m : MsMsg) : List Byte :=
  ctlHead 0xF1 m.lseq.toNat m.src.toNat m.dst.toNat ++ beBytes 4 m.job.toNat ++ beBytes 2 m.mid.toNat
    ++ beBytes 2 m.gen.toNat ++ [m.ctx] ++ beBytes 1 (msKindCode m.kind) ++ beBytes 2 m.rcount.toNat
    ++ [m.status, 0] ++ leBytes 32 m.foldDigest.toNat ++ beBytes 4 m.foldEpoch.toNat
    ++ beBytes 4 (m.foldMod.toNat + 2 ^ 31 * b2n m.mismatch)

/-- A beacon (Table 8.3), to the peer's coordinate. -/
def beaconBody (b : Beacon) (dst : Nat) : List Byte :=
  ctlHead 0xF0 0 b.src.toNat dst ++ beBytes 1 b.link.toNat ++ beBytes 1 (b.speed.toNat + 4 * b.role.toNat)
    ++ beBytes 4 b.epoch.toNat ++ leBytes 32 b.digest.toNat ++ beBytes 1 (b2n b.peerOk + 2 * b2n b.fenced)
    ++ [0, 0, 0]

/-- A time frame (Table 12.3). -/
def timeBody (t : TimeFrame) : List Byte :=
  ctlHead 0xF2 0 t.src.toNat t.dst.toNat ++ [0] ++ beBytes 1 (b2n t.locked + 2 * b2n t.root + 4 * b2n t.wall)
    ++ beBytes 2 t.hops.toNat ++ [0, 0] ++ beBytes 8 t.tTx.toNat ++ beBytes 8 t.echoTx.toNat
    ++ beBytes 8 t.echoRx.toNat ++ List.replicate 8 0

/-- A credit frame (Table 8.3). -/
def creditBody (cred : List (BitVec 16)) (src dst : Nat) : List Byte :=
  ctlHead 0xF3 0 src dst ++ cred.flatMap (fun c => beBytes 2 c.toNat)

/-- A control acknowledgement (Table 8.3). -/
def ackBody (ackseq : BitVec 16) (src dst : Nat) : List Byte := ctlHead 0xF4 0 src dst ++ beBytes 2 ackseq.toNat

/-- The 52-byte Riris header (Table 9.3). -/
def ririsHeader (f : RirisFrame) : List Byte :=
  [f.cls, f.ver] ++ beBytes 1 (b2n f.first + 2 * b2n f.last) ++ beBytes 1 (f.owner.toNat + 32 * f.prio.toNat)
    ++ beBytes 3 f.src.toNat ++ beBytes 3 f.dst.toNat ++ beBytes 3 f.dqp.toNat ++ beBytes 3 f.sqp.toNat
    ++ beBytes 7 f.txseq.toNat ++ [f.code] ++ beBytes 4 f.psn.toNat ++ beBytes 4 f.rkey.toNat
    ++ beBytes 6 f.roff.toNat ++ beBytes 2 f.payload.length ++ beBytes 4 f.oplen.toNat
    ++ beBytes 4 f.toll.toNat ++ beBytes 4 f.ackpsn.toNat

/-- A Riris frame after its EtherType or UDP header (R254): header, payload, authentication tag. -/
def ririsBody (f : RirisFrame) : List Byte := ririsHeader f ++ f.payload ++ beBytes 16 f.tag.toNat

/-! The routed form of R230. -/

/-- A UDP datagram to a port, with its checksum over the pseudo-header of the addresses. -/
def udpBytes (l port : Nat) (addrs body : List Byte) : List Byte :=
  let len := 8 + body.length
  let h := beBytes 2 (Config.ipField l 0) ++ beBytes 2 port ++ beBytes 2 len
  let c := checksum (sum16 addrs + 17 + len + sum16 (h ++ [0, 0] ++ body))
  h ++ beBytes 2 (if c = 0 then 0xFFFF else c) ++ body

/-- UDP over IPv4 on plane Lk: version 4 without options, protocol 17. -/
def udp4 (l src dst port : Nat) (body : List Byte) : List Byte :=
  let addrs := beBytes 4 src ++ beBytes 4 dst
  let h (c : Nat) := [0x45] ++ beBytes 1 (Config.ipField l 1) ++ beBytes 2 (28 + body.length)
    ++ beBytes 2 (Config.ipField l 2) ++ beBytes 2 (Config.ipField l 3) ++ beBytes 1 (Config.ipField l 4)
    ++ [17] ++ beBytes 2 c ++ addrs
  h (checksum (sum16 (h 0))) ++ udpBytes l port addrs body

/-- UDP over IPv6 on plane Lk: next header 17. -/
def udp6 (l src dst port : Nat) (body : List Byte) : List Byte :=
  let addrs := beBytes 16 src ++ beBytes 16 dst
  beBytes 4 (6 * 2 ^ 28 + Config.ipField l 5 % 2 ^ 28) ++ beBytes 2 (8 + body.length) ++ [17]
    ++ beBytes 1 (Config.ipField l 4) ++ addrs ++ udpBytes l port addrs body

/-! PFC (R244). -/

/-- A PFC frame of IEEE 802.1Qbb that names one priority: no 802.1Q tag (R227). -/
def pfcBytes (src : BitVec 48) (prio : Nat) (quanta : BitVec 16) : List Byte :=
  ethHead 0x0180C2000001 src none ++ beBytes 2 0x8808 ++ beBytes 2 0x0101 ++ beBytes 2 (2 ^ prio)
    ++ (List.range 8).flatMap (fun p => beBytes 2 (if p = prio then quanta.toNat else 0))

end Sys2Proof.Machine
end

