-- ==== Sys2Proof/Machine/LinkOps.lean ====
section
/-!
DEFINITION. Operations on the links: routing (R231, R232, R320), transmit queues and flow control (R241
to R244), milestone frames (R235) and changes of link state (R235, R236, R239, R240).
-/

namespace Sys2Proof.Machine

def State.link (s : State) (l : Nat) : Link := tabGet (linkReset l) s.links l

def State.setLink (s : State) (l : Nat) (x : Link) : State := { s with links := tabSet s.links l x }

def State.modLink (s : State) (l : Nat) (g : Link → Link) : State := s.setLink l (g (s.link l))

def State.lantern (s : State) (m : Nat) : LanternCfg := tabGet {} s.lanternCfg m

def LinkSt.code : LinkSt → Nat
  | .disabled => 0
  | .down => 1
  | .optics => 2
  | .align => 3
  | .beacon => 4
  | .up => 5
  | .fenced => 6

/-- PEER_OK: a matching beacon was received within the last 3.5 ms (R237). -/
def Link.peerOk (x : Link) (now : DWord) : Bool :=
  match x.peerOkAt with
  | some t => decide ((now - t).toNat ≤ 3500000)
  | none => false

/-- MAC_STAT (Table 8.9). -/
def Link.statWord (x : Link) (now : DWord) : Word :=
  w32 (x.st.code + 8 * x.reason.toNat + 64 * b2n (x.peerOk now))

/-- MAC_PEER_SEEN. -/
def Link.seenWord (x : Link) : Word :=
  w32 (x.seenCoord.toNat + 2 ^ 20 * x.seenLink.toNat + 2 ^ 26 * b2n x.seenValid)

/-- MAC_PFC_STAT. -/
def Link.pfcWord (x : Link) : Word :=
  w32 (x.paused.toNat + 256 * x.storm.toNat + 65536 * x.recovering.toNat)

/-- A link code (R250): the snapshots and the link number. -/
def State.logLink (s : State) (l code status : Nat) : State :=
  let x := s.link l
  s.logAt (.die (12 + l / 6)) code status none [w32 l]
    [x.statWord s.now, x.seenWord, x.bcnEpoch, x.pfcWord]

def Link.torus (x : Link) : Bool := x.role == 1
def Link.switched (x : Link) : Bool := x.role == 2

/-- The bits of dimension m in a route coordinate (Table 8.2). -/
def dimOf (m : Nat) (c : Nat) : Nat :=
  match m with
  | 0 => bits c 3 0
  | 1 => bits c 7 4
  | 2 => bits c 11 8
  | 3 => bits c 15 12
  | 4 => bits c 17 16
  | _ => bits c 19 18

/-- A coordinate with dimension m set to v. -/
def setDim (m v c : Nat) : Nat :=
  let lo := if m < 4 then 4 * m else 16 + 2 * (m - 4)
  c - dimOf m c * 2 ^ lo + v * 2 ^ lo

/-- The module's route coordinate in force (MOD_COORD). -/
def State.coord (s : State) : Nat :=
  match s.mod.inForce with
  | some m => m.coord.toNat
  | none => 0

def State.extent (s : State) (m : Nat) : Nat := (s.lantern m).extent.toNat

/-- Is the + direction taken from `a` to `b` on a ring of `e` (R231)? -/
def plusWay (e a b : Nat) : Bool := decide ((b + e - a) % e ≤ (a + e - b) % e)

/-- The lowest dimension in which two coordinates differ. -/
def firstDim (a b : Nat) : Option Nat := (List.range 6).find? (fun m => dimOf m a != dimOf m b)

/-- The three links of a direction of dimension m, from index c on (R231). -/
def dirLinks (m : Nat) (plus : Bool) (c : Nat) : List Nat :=
  let base := 6 * m + (if plus then 0 else 3)
  [base + c % 3, base + (c + 1) % 3, base + (c + 2) % 3]

/-- The links a torus frame may take from the module to D, in order of choice, with those states that
`ok` accepts (R231). -/
def State.torusLink (s : State) (ok : LinkSt → Bool) (src dst f : Nat) : Option Nat :=
  match firstDim s.coord dst with
  | none => none
  | some m =>
    let plus := plusWay (s.extent m) (dimOf m s.coord) (dimOf m dst)
    (dirLinks m plus ((src ^^^ dst ^^^ f) % 3)).find? (fun l => ok (s.link l).st)

/-- Is D one step around the ring of dimension 0 from the module, and nothing else (R320)? -/
def State.ringNeighbour (s : State) (dst : Nat) : Bool :=
  setDim 0 0 s.coord == setDim 0 0 dst && dimOf 0 s.coord != dimOf 0 dst
    && ((dimOf 0 s.coord + 1) % 16 == dimOf 0 dst || (dimOf 0 dst + 1) % 16 == dimOf 0 s.coord)

/-- The SWITCHED links whose state `ok` accepts, in ascending number. -/
def State.planes (s : State) (ok : LinkSt → Bool) : List Nat :=
  (List.range 36).filter (fun l => (s.link l).switched && ok (s.link l).st)

/-- Is the installation of the manifest in force a switched one (R318)? -/
def State.switchedInst (s : State) : Bool :=
  match s.mod.inForce with
  | some m => m.switched
  | none => false

/-- The link on which the module sends a frame from S to D (R231, R320). `plane` when it came from a
plane. -/
def State.route (s : State) (ok : LinkSt → Bool) (plane : Bool) (src dst f : Nat) : Option Nat :=
  if s.switchedInst && (plane || !s.ringNeighbour dst) then
    let ls := s.planes ok
    if ls.isEmpty then none else ls[(src ^^^ dst ^^^ f) % ls.length]?
  else s.torusLink ok src dst f

def isUp (x : LinkSt) : Bool := decide (x = .up)

/-- The lane on which a frame leaves: A on entering a dimension, B once it crosses the wrap link, and B
for the rest of the dimension (R232). `inLink` is the link it came on. -/
def State.laneOut (s : State) (inLink : Option Nat) (laneB : Bool) (out : Nat) : Bool :=
  let m := out / 6
  let stay := match inLink with
    | some i => i / 6 == m && laneB
    | none => false
  let x := dimOf m s.coord
  let plus := decide (out % 6 < 3)
  let wrap := if plus then x + 1 == s.extent m else x == 0
  if (s.link out).torus then stay || wrap else false

/-- Credits of a frame (R243). -/
def frameUnits (len : Nat) : Nat := (len + 255) / 256

/-- The rate of a link in Gb/s (Table 8.1). -/
def Link.rate (x : Link) : Nat :=
  if x.speed = 0 then 800 else if x.speed = 1 then 400 else if x.speed = 2 then 200 else 100

/-- Bits of a frame with its preamble and inter-frame gap. -/
def frameBits (len : Nat) : Nat := (len + 20) * 8

/-- Time of a frame with preamble and inter-frame gap, in ns, rounded up (R242). -/
def Link.frameNs (x : Link) (len : Nat) : Nat := (frameBits len + x.rate - 1) / x.rate

/-! Addresses and bytes of what a link sends (R227, R230, R234, R254, R320). -/

/-- The module at the other end of a link: the neighbour of R229 on a TORUS link, the configured peer on a
SWITCHED one. -/
def State.peerOf (s : State) (l : Nat) : Nat × Nat :=
  let x := s.link l
  if x.torus then
    let m := l / 6
    let e := s.extent m
    let d := dimOf m s.coord
    if l % 6 < 3 then (setDim m ((d + 1) % e) s.coord, l + 3) else (setDim m ((d + e - 1) % e) s.coord, l - 3)
  else (x.peerCoord.toNat, x.peerLink.toNat)

/-- The MAC address to which a frame for link `l` of module `c` is sent: that of R230's default form, since a
module does not parse what the manifest gives another one (R419, log entry 75). -/
def macOf (c l : Nat) : BitVec 48 := defaultMac (BitVec.ofNat 20 c) l

/-- The IPv4 address of link `l` of module `c` (Table 14.8, SUBNET); none without a SUBNET. -/
def State.ipv4Of (s : State) (c l : Nat) : Option Nat :=
  match s.mod.inForce with
  | some m => if m.subnet then some ((m.ipv4.toNat + 64 * (c % 256) + l) % 2 ^ 32) else none
  | none => none

/-- Its IPv6 address. -/
def State.ipv6Of (s : State) (c l : Nat) : Option Nat :=
  match s.mod.inForce with
  | some m => if m.subnet then some (m.ipv6.toNat * 2 ^ 64 + c * 256 + l) else none
  | none => none

/-- The addresses of a link of this module. -/
def State.ipv4 (s : State) (l : Nat) : Option Nat := s.ipv4Of s.coord l

def State.ipv6 (s : State) (l : Nat) : Option Nat := s.ipv6Of s.coord l

/-- The UDP port of routed Riris frames (R230). -/
def State.ririsUdp (s : State) : Nat :=
  match s.mod.inForce with
  | some m => if m.subnet then m.ririsUdp.toNat else 7212
  | none => 7212

/-- Source, destination, F of R231, transmit queue and calendar owner of a frame that is sent by destination:
Riris and milestone frames; the others travel one hop (R234). -/
def towards : Frame → Option (Nat × Nat × Nat × Nat × BitVec 5)
  | .riris f => some (f.src.toNat, f.dst.toNat, f.dqp.toNat, f.prio.toNat, f.owner)
  | .milestone m => some (m.src.toNat, m.dst.toNat, 0, 7, 31)
  | _ => none

/-- The module and link to which a frame sent on a link is addressed: on a SWITCHED link the link of the same
number on the destination module (R320), otherwise the link's peer. -/
def State.addressee (s : State) (l : Nat) (f : Frame) : Nat × Nat :=
  match towards f with
  | some t => if (s.link l).switched then (t.2.1, l) else s.peerOf l
  | none => s.peerOf l

/-- A Riris frame on a link (R230, R254): with EtherType 0x88B5, or in UDP on a plane of a routed network. -/
def State.ririsBytes (s : State) (l : Nat) (tci : BitVec 16) (f : RirisFrame) : List Byte :=
  let src := (s.link l).addr
  let form := if (s.link l).switched then Config.ririsForm l % 3 else 0
  match form, s.ipv4 l, s.ipv4Of f.dst.toNat l, s.ipv6 l, s.ipv6Of f.dst.toNat l with
  | 1, some a, some b, _, _ =>
    ethHead (Config.nextHop l) src (some tci) ++ beBytes 2 0x0800 ++ udp4 l a b s.ririsUdp (ririsBody f)
  | 2, _, _, some a, some b =>
    ethHead (Config.nextHop l) src (some tci) ++ beBytes 2 0x86DD ++ udp6 l a b s.ririsUdp (ririsBody f)
  | _, _, _, _, _ =>
    let d := s.addressee l (.riris f)
    ethHead (macOf d.1 d.2) src (some tci) ++ beBytes 2 0x88B5 ++ ririsBody f

/-- The bytes of a frame sent on a link, from its destination address to the last before the FCS. -/
def State.frameBytes (s : State) (l : Nat) (tci : BitVec 16) (f : Frame) : List Byte :=
  let src := (s.link l).addr
  let d := s.addressee l f
  let ctl (body : List Byte) := ethHead (macOf d.1 d.2) src (some tci) ++ beBytes 2 0x88B5 ++ body
  padFrame (match f with
    | .riris g => s.ririsBytes l tci g
    | .milestone m => ctl (msBody m)
    | .beacon b => ctl (beaconBody b d.1)
    | .time t => ctl (timeBody t)
    | .credit c => ctl (creditBody c s.coord d.1)
    | .ctlAck a => ctl (ackBody a s.coord d.1)
    | .pfc p q => pfcBytes src p q
    | .ether b => b
    | .neighbour dst et body => ethHead dst src (some tci) ++ beBytes 2 et ++ body)

/-- A frame for a transmit queue of a link (R227): it is as long as its bytes and the FCS. -/
def State.qframe (s : State) (l : Nat) (f : Frame) : QFrame :=
  { laneB := false, owner := 31, len := (s.frameBytes l 0 f).length + 4, frame := f }

/-- The 802.1Q tag of a frame (R227): a host NIC frame has its own, a PFC frame none. -/
def Link.tci (x : Link) (q : Nat) (laneB : Bool) (f : Frame) : Option (BitVec 16) :=
  match f with
  | .ether b => some (BitVec.ofNat 16 (netNat b 14 2))
  | .pfc _ _ => none
  | _ => some (tciOf q (x.torus && laneB) x.vid)

/-! Sending (R240 to R244). -/

/-- The owner of the calendar slot in progress at a lantern die; 31 is OPEN (R242). -/
def State.slotOwner (s : State) (m : Nat) : Nat :=
  let c := s.lantern m
  if c.slotEn then ((c.owners.getD (s.now.toNat % 64000 / 2000) 31)).toNat else 31

/-- What a link in a state carries (Table 8.4, R354): beacons, credit and time frames in BEACON, UP and FENCED,
host NIC frames also in FENCED on a SWITCHED link, everything else in UP. -/
def Link.carries (x : Link) (f : Frame) : Bool :=
  x.st == .up || (match f with
    | .beacon _ => x.st == .beacon || x.st == .fenced
    | .credit _ => x.st == .beacon || x.st == .fenced
    | .time _ => x.st == .beacon || x.st == .fenced
    | .ether _ => x.st == .fenced && x.switched
    | _ => false)

/-- Does the calendar let a frame of queue `q` start now (R242)? Its owner's slot is in progress, and it ends
before the slot does. -/
def State.inSlot (s : State) (l q : Nat) (f : QFrame) : Bool :=
  q == 7
    || ((if q < 4 then s.slotOwner (l / 6) == 31 else s.slotOwner (l / 6) == f.owner.toNat)
        && decide (s.now.toNat % 2000 * (s.link l).rate + frameBits f.len < 2000 * (s.link l).rate))

/-- May a frame of queue `q` start now, on a link that sends nothing (R241 to R244)? -/
def State.mayStart (s : State) (l q : Nat) (f : QFrame) : Bool :=
  let x := s.link l
  let flow :=
    if x.torus then
      q < 4 || decide (frameUnits f.len ≤ tabGet 512 x.credits (2 * (q - 4) + b2n f.laneB))
    else !bitAt x.paused.toNat q
  let window := match f.frame with
    | .milestone _ => f.again || decide (x.replay.length < 64)
    | _ => true
  s.inSlot l q f && flow && x.carries f.frame && window

/-- A frame is put on the fibre: counted, shown with its bytes, and the link is busy with it (R242). -/
def State.putOut (s : State) (l q : Nat) (laneB : Bool) (f : Frame) : State :=
  let t := (s.link l).tci q laneB f
  let b := s.frameBytes l (t.getD 0) f
  s.modLink l (fun x => { x with
    txFrames := x.txFrames + 1, busy := x.frameNs (b.length + 4),
    sent := x.sent ++ [{ frame := f, tci := t, bytes := b }] })

/-- The T_TX of the time frames sent on a link within the last 1 ms (R355). -/
def State.noteSent (s : State) (l : Nat) (f : Frame) : State :=
  match f with
  | .time _ =>
    { s with time := { s.time with links := tabMod ({} : LinkTime) s.time.links l (fun x =>
        { x with sentTx := s.now :: x.sentTx.filter (fun t => decide ((s.now - t).toNat ≤ 1000000)) }) } }
  | _ => s

/-- What is written while a frame leaves: T_TX of a time frame (R354), and the next LSEQ of a milestone frame
that has none yet (R235). -/
def QFrame.leaving (f : QFrame) (now : DWord) (lseq : BitVec 16) : Frame :=
  match f.frame with
  | .time t => .time { t with tTx := now }
  | .milestone m => if f.again then f.frame else .milestone { m with lseq := lseq }
  | g => g

/-- A milestone frame is kept until it is acknowledged (R235). -/
def Link.keep (x : Link) (q : QFrame) (f : Frame) : Link :=
  match f with
  | .milestone m =>
    if q.again then x
    else { x with nextLseq := x.nextLseq + 1,
                  replay := x.replay ++ [{ laneB := q.laneB, msg := m, resent := 0 }] }
  | _ => x

/-- A frame of queue `q` leaves on a link: its credits are taken (R243). -/
def State.emit (s : State) (l q : Nat) (f : QFrame) : State :=
  let g := f.leaving s.now (s.link l).nextLseq
  let i := 2 * (q - 4) + b2n f.laneB
  ((s.putOut l q f.laneB g).modLink l (fun x => ({ x with
    credits := if x.torus && 4 ≤ q then
        tabSet x.credits i (tabGet 512 x.credits i - frameUnits f.len)
      else x.credits }).keep f g)).noteSent l g

/-- The frame of a list of queues that may start: strict priority, and the oldest frame of a queue that may.
Frames of one FIFO leave in order (R241, R242): the first frame of each owner is considered. -/
def State.nextOf (s : State) (l : Nat) (qs : List Nat) : Option (Nat × QFrame) :=
  qs.findSome? (fun q =>
    let fs := tabGet [] (s.link l).queues q
    let heads := fs.filter (fun f => (fs.find? (fun g => g.owner == f.owner)) == some f)
    match heads.find? (fun f => s.mayStart l q f) with
    | some f => some (q, f)
    | none => none)

/-- Units freed since the last credit frame (R243). -/
def Link.owed (x : Link) : Nat :=
  ((List.range 8).map (fun i => (tabGet 0 x.freed i - tabGet 0 x.credSent i).toNat)).foldl (· + ·) 0

/-- A frame is to be sent outside the queues (R241): beacons, credit frames, acknowledgements, PFC. -/
def State.outside (s : State) (l : Nat) (f : Frame) : State :=
  s.modLink l (fun x => { x with outside := x.outside ++ [f] })

/-- Units of a receive buffer are freed (R243): a credit frame at once when 16 KiB have been freed since the
last. -/
def State.freeUnits (s : State) (l i n : Nat) : State :=
  let s1 := s.modLink l (fun x => { x with freed := tabMod 0 x.freed i (· + BitVec.ofNat 16 n) })
  if 64 ≤ (s1.link l).owed then
    (s1.outside l (.credit ((List.range 8).map (tabGet 0 (s1.link l).freed)))).modLink l (fun x =>
      { x with credSent := x.freed })
  else s1

/-- A forwarded frame leaves its place in the receive buffer of the link it came on (R243). -/
def State.unhold (s : State) (h : Option (Nat × Nat × Nat)) : State :=
  match h with
  | some e => s.freeUnits e.1 e.2.1 e.2.2
  | none => s

/-- A link that sends nothing starts its next frame (R237, R241): queue 7 first, then the frames outside the
queues, then queues 6 to 0. -/
def State.drainLink (s : State) (l : Nat) : State :=
  let x := s.link l
  let send (q : Nat) (f : QFrame) : State :=
    let s1 := s.modLink l (fun y => { y with queues := tabMod [] y.queues q (fun fs => fs.erase f) })
    ((s1.emit l q f).unhold f.held).nicSent f.nic
  if 0 < x.busy then s
  else
    match s.nextOf l [7] with
    | some e => send e.1 e.2
    | none =>
      match x.outside.find? x.carries with
      | some f => (s.modLink l (fun y => { y with outside := y.outside.erase f })).putOut l 7 false f
      | none =>
        match s.nextOf l [6, 5, 4, 3, 2, 1, 0] with
        | some e => send e.1 e.2
        | none => s

/-- Queue a frame on a link and send what may start. -/
def State.enqueue (s : State) (l q : Nat) (f : QFrame) : State :=
  (s.modLink l (fun x => { x with queues := tabMod [] x.queues q (· ++ [f]) })).drainLink l

/-- Send a frame outside the queues as soon as the link can. -/
def State.emitNow (s : State) (l : Nat) (f : Frame) : State := (s.outside l f).drainLink l

/-! Received frames (R232, R235, R243). -/

/-- A credit frame (R243). -/
def State.sendCredit (s : State) (l : Nat) : State :=
  (s.modLink l (fun x => { x with credSent := x.freed })).emitNow l
    (.credit ((List.range 8).map (tabGet 0 (s.link l).freed)))

/-- A frame with a good FCS has been received (Table 8.9). -/
def State.countRx (s : State) (l : Nat) : State := s.modLink l (fun x => { x with rxFrames := x.rxFrames + 1 })

/-- The place of a frame of queue `q` and a lane in the receive buffers of a TORUS link (R243). -/
def State.place (s : State) (l q : Nat) (laneB : Bool) (len : Nat) : Option (Nat × Nat × Nat) :=
  if (s.link l).torus && 4 ≤ q then some (l, 2 * (q - 4) + b2n laneB, frameUnits len) else none

/-- A frame of queue `q` and a lane has been received on a link and taken out of its buffer at once: it is
for this module (R243). -/
def State.gotFrame (s : State) (l q : Nat) (laneB : Bool) (len : Nat) : State :=
  ((s.countRx l).unhold (s.place l q laneB len)).drainLink l

/-- The highest dimension in which two coordinates differ: the last that a torus frame travels. -/
def lastDim (a b : Nat) : Option Nat := [5, 4, 3, 2, 1, 0].find? (fun m => dimOf m a != dimOf m b)

/-- The link and lane on which a frame from S for this module comes in: the links that R231 names on the
last hop, the first that is UP (log entry 38). From a plane it is one that the sender's links decide: open. -/
def State.inLink (s : State) (src dst f : Nat) : State × Option (Nat × Bool) :=
  if s.switchedInst && !s.ringNeighbour src then
    let ls := s.planes isUp
    if src = dst ∨ ls.isEmpty then (s, none)
    else (s.useFree, (ls[s.freeVal.toNat % ls.length]?).map (·, false))
  else
    match lastDim src dst with
    | none => (s, none)
    | some m =>
      let a := dimOf m src
      let b := dimOf m dst
      let plus := plusWay (s.extent m) a b
      let laneB := if plus then decide (b < a) else decide (a < b)
      (s, ((dirLinks m (!plus) ((src ^^^ dst ^^^ f) % 3)).find? (fun l => isUp (s.link l).st)).map (·, laneB))

/-- A frame from S for this module has been received. -/
def State.frameIn (s : State) (src dst f q len : Nat) : State :=
  let r := s.inLink src dst f
  match r.2 with
  | some e => r.1.gotFrame e.1 q e.2 len
  | none => r.1

/-- The acknowledgement of a milestone frame (R235): the highest LSEQ received in order. -/
def State.sendCtlAck (s : State) (l : Nat) : State := s.emitNow l (.ctlAck ((s.link l).expectLseq - 1))

/-- Bytes of a milestone frame from destination address through FCS: 14 header, 4 tag, 64 of Table 8.3,
4 FCS. -/
def msLen : Nat := 86

/-- A frame that finds no UP link towards its destination is discarded and counted (R231), code 0x200B; it leaves
the receive buffer that held it. -/
def State.noLink (s : State) (l : Nat) (held : Option (Nat × Nat × Nat)) : State :=
  ((s.modLink l (fun x => { x with noLinkDrops := x.noLinkDrops + 1 })).logLink l 0x200B scOk).unhold held

/-- The link whose counter takes a frame that cannot be sent: the first of its direction. -/
def State.dropLink (s : State) (src dst f : Nat) : Nat :=
  match s.torusLink (fun _ => true) src dst f with
  | some l => l
  | none => 0

/-- Send a frame of the module, or one it forwards from a link and lane, towards its destination (R231, R232,
R320). `plane` when it came from a plane, and `held` its place in a receive buffer. -/
def State.sendFrame (s : State) (inLink : Option Nat) (laneB plane : Bool) (held : Option (Nat × Nat × Nat))
    (f : Frame) : State :=
  match towards f with
  | none => s
  | some (src, dst, qp, q, owner) =>
    match s.route isUp plane src dst qp with
    | some l => s.enqueue l q { s.qframe l f with laneB := s.laneOut inLink laneB l, owner := owner, held := held }
    | none => s.noLink (s.dropLink src dst qp) held

/-- Send a milestone message towards its destination on queue 7 (R175, R231). -/
def State.sendMsg (s : State) (m : MsMsg) : State := s.sendFrame none false false none (.milestone m)

/-- Is a milestone frame that came in on a link the next in order (R235)? -/
def State.inOrder (s : State) (l : Nat) (m : MsMsg) : Bool := m.lseq == (s.link l).expectLseq

/-- The receiver of a milestone frame accepts the next in order and discards any other; in every case it answers
with an acknowledgement (R235). -/
def State.msAccept (s : State) (l : Nat) (m : MsMsg) : State :=
  (if s.inOrder l m then s.modLink l (fun x => { x with expectLseq := x.expectLseq + 1 }) else s).sendCtlAck l

/-- A milestone frame for this module has been received: the state in which its link has counted and acknowledged
it, and whether it is accepted (R235). -/
def State.msIn (s : State) (m : MsMsg) : State × Bool :=
  let r := s.inLink m.src.toNat m.dst.toNat 0
  match r.2 with
  | some e => ((r.1.gotFrame e.1 7 e.2 msLen).msAccept e.1 m, r.1.inOrder e.1 m)
  | none => (r.1, true)

/-- Frames of queues 4 to 7 and unacknowledged milestone frames of a link that leaves UP, oldest first
(R235, R240). -/
def Link.movable (x : Link) : List (Nat × QFrame) :=
  x.replay.map (fun r => (7, { laneB := r.laneB, owner := 31, len := msLen, frame := .milestone r.msg }))
    ++ [7, 6, 5, 4].flatMap (fun q => ((tabGet [] x.queues q).filter (fun f => !f.again)).map (fun f => (q, f)))

/-- The links of the same dimension and direction as `l`, after it in the order of R231. -/
def siblings (l : Nat) : List Nat :=
  let base := l / 3 * 3
  [base + (l % 3 + 1) % 3, base + (l % 3 + 2) % 3]

/-- Where a frame of a link that leaves UP moves (R240, R320): on a TORUS link to the next UP link of the same
dimension and direction, on a SWITCHED one to the UP plane at position (S xor D xor F) mod n; a frame of one hop
stays with its link's peer and does not change planes. -/
def State.moveTo (s : State) (l : Nat) (f : Frame) : Option Nat :=
  if (s.link l).torus then (siblings l).find? (fun k => isUp (s.link k).st)
  else
    let ls := s.planes isUp
    match towards f with
    | some t => if ls.isEmpty then none else ls[(t.1 ^^^ t.2.1 ^^^ t.2.2.1) % ls.length]?
    | none => none

/-- Move the frames of a link that has left UP, or discard them under R231 (R235, R240). -/
def State.moveFrames (s : State) (l : Nat) : State :=
  let s1 := s.modLink l (fun x =>
    { x with replay := [], queues := x.queues.filter (fun e => decide (e.1 < 4)) })
  eachDo (s.link l).movable (fun e t =>
    match t.moveTo l e.2.frame with
    | some k => t.enqueue k e.1 { e.2 with len := (t.qframe k e.2.frame).len }
    | none => t.noLink l e.2.held) s1

/-- What waits outside the queues of a link that has left UP: beacons and credit frames while it still carries
them. -/
def Link.trim (x : Link) : Link := { x with outside := x.outside.filter x.carries }

/-- The frames that still wait at the module and came on a link leave no place in its buffers: the link's credits
start again (R243). -/
def State.forgetHeld (s : State) (l : Nat) : State :=
  { s with links := s.links.map (fun e => (e.1, { e.2 with queues := e.2.queues.map (fun q => (q.1, q.2.map (fun f =>
      if f.held.any (fun h => h.1 == l) then { f with held := none } else f))) })) }

/-- A link goes DOWN (R239): lasers off, code 0x2002 from UP or FENCED, its frames move when it leaves
UP. -/
def State.linkDown (s : State) (l : Nat) (reason : Nat) : State :=
  let x := s.link l
  let s1 := s.modLink l (fun x =>
    Link.trim { x with st := .down, reason := BitVec.ofNat 3 reason, lasers := false, peerOkAt := none,
                       graceFrom := none, busy := 0 })
  let s2 := if x.st = .up ∨ x.st = .fenced then s1.logLink l 0x2002 scOk else s1
  if x.st = .up then s2.moveFrames l else s2

/-- A bring-up attempt fails (R236, R239): DOWN, and code 0x2009 for the first failed attempt after UP
and then at most once per 60 s. -/
def State.attemptFailed (s : State) (l : Nat) (reason : Nat) : State :=
  let s1 := s.linkDown l reason
  match (s1.link l).failedAt with
  | none => (s1.modLink l (fun x => { x with failedAt := some s.now })).logLink l 0x2009 scOk
  | some t =>
    if 60000000000 ≤ (s.now - t).toNat then
      (s1.modLink l (fun x => { x with failedAt := some s.now })).logLink l 0x2009 scOk
    else s1

/-- A link goes to DISABLED (R239). -/
def State.linkDisable (s : State) (l : Nat) : State :=
  let x := s.link l
  let s1 := s.modLink l (fun x =>
    Link.trim { x with st := .disabled, reason := 0, lasers := false, peerOkAt := none, graceFrom := none,
                       busy := 0 })
  if x.st = .up then s1.moveFrames l else s1

/-- A link enters UP: full credits, LSEQ from zero, code 0x2001, and 0x2006 when it leaves FENCED
(R235, R238, R239, R243). -/
def State.linkUp (s : State) (l : Nat) : State :=
  let x := s.link l
  let s1 := (s.forgetHeld l).modLink l (fun x =>
    { x with st := .up, reason := 0, pfcSent := 0, credits := [], credSeen := [], freed := [], credSent := [],
             replay := [], nextLseq := 0, expectLseq := 0, graceFrom := none, failedAt := none })
  let s2 := s1.logLink l 0x2001 scOk
  (if x.st = .fenced then s2.logLink l 0x2006 scOk else s2).drainLink l

/-- A link is fenced (R238): its frames move when it leaves UP. -/
def State.linkFence (s : State) (l reason code status : Nat) : State :=
  let x := s.link l
  let s1 := (s.modLink l (fun y =>
    Link.trim { y with st := .fenced, reason := BitVec.ofNat 3 reason, graceFrom := none })).logLink l code status
  if x.st = .up then s1.moveFrames l else s1

end Sys2Proof.Machine
end

