-- ==== Sys2Proof/Machine/Crypt.lean ====
section
/-!
DEFINITION. AES-256-GCM as the links use it (R277, R278): keys, nonces and tags of Riris frames.
-/

namespace Sys2Proof.Machine

/-- Encrypt or decrypt a text with AES-256-GCM: each byte is added to the key stream's (R277, R384, R388). -/
def gcmCrypt (key : BitVec 256) (nonce : BitVec 96) (d : List Byte) : List Byte :=
  d.mapIdx (fun i b => b ^^^ Config.gcmStream key nonce i)

def State.keySlot (s : State) (i : Nat) : KeySlot := tabGet {} s.customs.slots i

/-- The nonce of a Riris frame (R278): SRC, SQP and TXSEQ. -/
def ririsNonce (f : RirisFrame) : BitVec 96 :=
  BitVec.ofNat 96 (f.src.toNat * 2 ^ 76 + f.sqp.toNat * 2 ^ 56 + f.txseq.toNat)

/-- The tag of a Riris frame under a key (R277): its header is the additional data. -/
def ririsTag (key : BitVec 256) (f : RirisFrame) : BitVec 128 :=
  Config.gcmTag key (ririsNonce f) (ririsHeader f) f.payload

/-- An end of a queue pair: coordinate × 2^20 + queue-pair number (R277). -/
def endOf (coord qp : Nat) : Nat := coord * 2 ^ 20 + qp

/-- The key under which an end sends to another (R277): A of the pair for the end of the lower value, B for the
other. -/
def KeySlot.sendKey (k : KeySlot) (own peer : Nat) : BitVec 256 := if own < peer then k.keyA else k.keyB

/-- A frame with its payload encrypted and its tag, under a key (R277). -/
def protectFrame (f : RirisFrame) (key : BitVec 256) : RirisFrame :=
  let g := { f with payload := gcmCrypt key (ririsNonce f) f.payload }
  { g with tag := ririsTag key g }

/-- The frame that a protected one carries in the clear. -/
def openFrame (f : RirisFrame) (key : BitVec 256) : RirisFrame :=
  { f with payload := gcmCrypt key (ririsNonce f) f.payload }

end Sys2Proof.Machine
end

