-- ==== Sys2Proof/Machine/Encode.lean ====
section
/-!
DEFINITION. The 128-bit word of an instruction (R136, Table 5.5), which an issue is tied to: a core issues the
instruction whose word its instruction store holds at the pc.
-/

namespace Sys2Proof

/-- A word of opcode `op`, stream `stm` and fields, each a least bit and a value; every other bit is zero
(R136, R137). -/
def insnWord (op : Nat) (stm : BitVec 3) (fs : List (Nat × Nat)) : BitVec 128 :=
  BitVec.ofNat 128 (fs.foldl (fun v f => v + f.2 * 2 ^ f.1) (op * 2 ^ 120 + stm.toNat * 2 ^ 117))

/-- A one-bit field. -/
def bitField (lo : Nat) (b : Bool) : Nat × Nat := (lo, b.toNat)

/-- A field that a bit vector fills. -/
def bvField {n : Nat} (lo : Nat) (v : BitVec n) : Nat × Nat := (lo, v.toNat)

/-- The word of an instruction of Table 5.5; none for a command that no itinerary holds. -/
def Instr.word : Instr → Option (BitVec 128)
  | .nop i => some (insnWord 0x00 i.stm [])
  | .loop i xi step count => some (insnWord 0x01 i.stm [bvField 108 xi, bvField 64 step, bvField 32 count])
  | .loopm i xi xa addr step max =>
    some (insnWord 0x02 i.stm [bvField 108 xi, bvField 104 xa, bvField 60 addr, bvField 44 step, bvField 12 max])
  | .endloop i => some (insnWord 0x03 i.stm [])
  | .jump i target => some (insnWord 0x04 i.stm [bvField 48 target])
  | .brflag i trec mask sense target =>
    some (insnWord 0x05 i.stm [bvField 106 trec, bvField 103 mask, bitField 102 sense, bvField 48 target])
  | .brmem i xa addr sense target =>
    some (insnWord 0x06 i.stm [bvField 108 xa, bvField 64 addr, bitField 63 sense, bvField 48 target])
  | .dlbr i buf n dl target =>
    some (insnWord 0x07 i.stm [bvField 98 buf, bvField 90 n, bvField 66 dl, bvField 48 target])
  | .halt i => some (insnWord 0x08 i.stm [])
  | .regwr i offset xi imm => some (insnWord 0x09 i.stm [bvField 96 offset, bvField 92 xi, bvField 0 imm])
  | .tokwait i buf n consume => some (insnWord 0x10 i.stm [bvField 98 buf, bvField 90 n, bitField 89 consume])
  | .tokpost i buf n => some (insnWord 0x11 i.stm [bvField 98 buf, bvField 90 n])
  | .release i buf => some (insnWord 0x12 i.stm [bvField 98 buf])
  | .tollreq i cls target amount =>
    some (insnWord 0x13 i.stm [bvField 108 cls, bvField 88 target, bvField 64 amount])
  | .fence i => some (insnWord 0x14 i.stm [])
  | .msarrive i mid wait rp vr =>
    some (insnWord 0x15 i.stm [bvField 96 mid, bitField 95 wait, bitField 94 rp, bitField 93 vr])
  | .hostnote i queue payload => some (insnWord 0x16 i.stm [bvField 104 queue, bvField 0 payload])
  | .copy i src dst pbuf post add =>
    some (insnWord 0x20 i.stm [bvField 98 src, bvField 84 dst, bvField 70 pbuf, bitField 69 post, bitField 68 add])
  | .remote i loc qp rkey roff kind =>
    some (insnWord 0x21 i.stm [bvField 98 loc, bvField 78 qp, bvField 46 rkey, bvField 2 roff, bvField 0 kind])
  | .convoy i src tag qp contrib guard =>
    some (insnWord 0x22 i.stm [bvField 98 src, bvField 82 tag, bvField 62 qp, bvField 38 contrib, bvField 31 guard])
  | .array i a b pmode acc lrow m1 n1 =>
    some (insnWord 0x30 i.stm [bvField 98 a, bvField 84 b, bvField 81 pmode, bitField 80 acc, bvField 74 lrow,
      bvField 68 m1, bvField 62 n1])
  | .arrayi i dxA dxB dwA dwB dxAcc dwAcc dxM1 dwM1 dxN1 dwN1 =>
    some (insnWord 0x31 i.stm [bvField 98 dxA, bvField 84 dxB, bvField 70 dwA, bvField 56 dwB, bitField 55 dxAcc,
      bitField 54 dwAcc, bvField 49 dxM1, bvField 44 dwM1, bvField 38 dxN1, bvField 32 dwN1])
  | .draw i lrow m1 n1 dst rmode srbits keep wm image sa sb =>
    some (insnWord 0x32 i.stm [bvField 106 lrow, bvField 100 m1, bvField 94 n1, bvField 80 dst, bvField 77 rmode,
      bvField 75 srbits, bitField 74 keep, bvField 70 wm, bitField 69 image, bvField 55 sa, bvField 41 sb])
  | .conv i src dst rmode srbits clrrec =>
    some (insnWord 0x33 i.stm [bvField 98 src, bvField 84 dst, bvField 81 rmode, bvField 79 srbits,
      bitField 78 clrrec])
  | .vec i vop x y z w yrow imm =>
    some (insnWord 0x34 i.stm [bvField 104 vop, bvField 90 x, bvField 76 y, bvField 62 z, bvField 48 w,
      bitField 47 yrow, bvField 0 imm])
  | .tally i mask dst => some (insnWord 0x40 i.stm [bvField 80 mask, bvField 66 dst])
  | .trace i mark payload => some (insnWord 0x41 i.stm [bvField 96 mark, bvField 0 payload])
  | _ => none

end Sys2Proof
end

