-- ==== Sys2Proof/Machine/Mem.lean ====
section
/-!
DEFINITION. The memories: address map and interleave (R189 to R193), windows (R197, R198), raw bytes,
and reads and writes with SECDED, failed stacks and channels, and injections (R206 to R213, R219,
R220).
-/

namespace Sys2Proof.Machine

/-- Rows of Table 7.1. -/
inductive Tier
  | hbm | cistern | stall | depot | port | reserved
  deriving DecidableEq, Repr

def cisBase : Nat := 0x10000000000
def stallBase : Nat := 0xF0000000000
def depotBase : Nat := 0xF1000000000
def portBase : Nat := 0xF2000000000

/-- The row of Table 7.1 that holds an address. -/
def tierOf (a : Nat) : Tier :=
  if a < 0x6C00000000 then .hbm
  else if a < cisBase then .reserved
  else if a < 0x28000000000 then .cistern
  else if a < stallBase then .reserved
  else if a < stallBase + 0x300000 then .stall
  else if a < depotBase then .reserved
  else if a < depotBase + 0x18000000 then .depot
  else if a < portBase then .reserved
  else if a < portBase + 0xC0000 then .port
  else .reserved

def gib : Nat := 2 ^ 30

/-- Does an HBM group cover the address (R191)? -/
def Group.coversH (g : Group) (a : Nat) : Bool :=
  decide (0 < (setBits 12 g.set).length) && decide (g.base * gib ≤ a)
    && decide (a < (g.base + (setBits 12 g.set).length * g.size) * gib)

/-- Stack and stack-local address of an address of an HBM group (R191). -/
def Group.locH (g : Group) (a : Nat) : Nat × Nat :=
  let o := a - g.base * gib
  let sts := setBits 12 g.set
  let blk := o / 4096
  (sts.getD (blk % sts.length) 0,
   g.off * gib + blk / sts.length * 4096 + o % 4096)

/-- Does a cistern group cover the address (R192)? -/
def Group.coversC (g : Group) (a : Nat) : Bool :=
  decide (0 < (setBits 4 g.set).length) && decide (cisBase + g.base * gib ≤ a)
    && decide (a < cisBase + (g.base + 24 * (setBits 4 g.set).length * g.size) * gib)

/-- Channel (16 m + c, Table 7.11) and channel-local address of an address of a cistern group
(R192). -/
def Group.locC (g : Group) (a : Nat) : Nat × Nat :=
  let o := a - cisBase - g.base * gib
  let pos := setBits 4 g.set
  let k := 24 * pos.length
  let line := o / 1024
  let c := line % k
  let pkg := c % 24
  let chn := pos.getD (c / 24) 0
  (16 * (pkg / 4) + 4 * (pkg % 4) + chn, g.off * gib + line / k * 1024 + o % 1024)

/-- The physical key of an HBM address: stack × 2^36 + stack-local address. -/
def Memory.hbmKey (m : Memory) (a : Nat) : Option Nat :=
  match m.hgrps.find? (fun e => e.2.coversH a) with
  | some e => some ((e.2.locH a).1 * 2 ^ 36 + (e.2.locH a).2)
  | none => none

/-- The physical key of a cistern address: channel × 2^34 + channel-local address. -/
def Memory.cisKey (m : Memory) (a : Nat) : Option Nat :=
  match m.cgrps.find? (fun e => e.2.coversC a) with
  | some e => some ((e.2.locC a).1 * 2 ^ 34 + (e.2.locC a).2)
  | none => none

/-- Place of an element in a list, counted from 0. -/
def indexIn (x : Nat) (l : List Nat) : Option Nat :=
  match l.findIdx? (· == x) with
  | some i => some i
  | none => none

/-- The address of a stack-local place in a group that holds it (the inverse of R191). -/
def Group.addrH (g : Group) (key : Nat) : Option Nat :=
  let sts := setBits 12 g.set
  let off := key % 2 ^ 36
  match indexIn (key / 2 ^ 36) sts with
  | some i =>
    if g.off * gib ≤ off ∧ off < (g.off + g.size) * gib then
      let r := off - g.off * gib
      some (g.base * gib + (r / 4096 * sts.length + i) * 4096 + r % 4096)
    else none
  | none => none

/-- The address of a channel-local place in a group that holds it (the inverse of R192). -/
def Group.addrC (g : Group) (key : Nat) : Option Nat :=
  let pos := setBits 4 g.set
  let ch := key / 2 ^ 34
  let off := key % 2 ^ 34
  let pkg := 4 * (ch / 16) + ch % 16 / 4
  match indexIn (ch % 4) pos with
  | some i =>
    if g.off * gib ≤ off ∧ off < (g.off + g.size) * gib then
      let r := off - g.off * gib
      some (cisBase + g.base * gib
        + (r / 1024 * (24 * pos.length) + 24 * i + pkg) * 1024 + r % 1024)
    else none
  | none => none

/-- The internal address of a stack's place, where a group in force maps it. -/
def Memory.hbmAddr (m : Memory) (key : Nat) : Option Nat :=
  m.hgrps.findSome? (fun e => e.2.addrH key)

/-- The internal address of a channel's place, where a group in force maps it. -/
def Memory.cisAddr (m : Memory) (key : Nat) : Option Nat :=
  m.cgrps.findSome? (fun e => e.2.addrC key)

/-- The partition that owns an address, of a list of ranges (base, size, partition). -/
def ownerIn (l : List (Nat × Nat × Nat)) (a : Option Nat) : Option Nat :=
  match a with
  | some a => (l.find? (fun e => decide (e.1 ≤ a) && decide (a < e.1 + e.2.1))).map (fun e => e.2.2)
  | none => none

/-- Is a place owned by one and the same partition before and after? -/
def sameOwner (before after : Option Nat) : Bool := before.isSome && before == after

/-- Is a physical place of the cistern undefined after a scrub or a reassignment (R390)? A place that keeps its owner but
takes another internal address is decrypted with another tweak. -/
def CisScrub.covers (c : CisScrub) (key : Nat) : Bool :=
  match c with
  | .range gs base size =>
    match gs.findSome? (fun e => e.2.addrC key) with
    | some a => decide (base ≤ a) && decide (a < base + size)
    | none => false
  | .change old new was will =>
    let a := old.findSome? (fun e => e.2.addrC key)
    let b := new.findSome? (fun e => e.2.addrC key)
    !sameOwner (ownerIn was a) (ownerIn will b) || a != b

/-- What an unlisted byte of the cistern reads as: undefined, a free value of its own for each scrub
(R390, log entry 10). -/
def Memory.cisDefault (m : Memory) (key : Nat) : Byte :=
  Config.cisternByte (m.cisScrubs.filter (fun c => c.covers key)).length key

/-- The canonical form of the memories: keys strictly rising, and no entry equal to what an unlisted byte or mark
reads as. -/
def Memory.wf (m : Memory) : Bool :=
  tabWf 0 m.hbm && tabWf 0 m.hbmErr && tabRising 0 m.cis
    && m.cis.all (fun e => decide (e.2 ≠ m.cisDefault e.1)) && tabWf 0 m.cisErr

/-- The contents of a byte of an internal address; `p` is the core whose stall is meant. -/
def State.byteAt (s : State) (p : Nat) (a : Nat) : Byte :=
  match tierOf a with
  | .hbm =>
    match s.mem.hbmKey a with
    | some k => tabGet 0 s.mem.hbm k
    | none => 0
  | .cistern =>
    match s.mem.cisKey a with
    | some k => tabGet (s.mem.cisDefault k) s.mem.cis k
    | none => 0
  | .stall => tabGet 0 (s.core p).stall (a - stallBase)
  | .depot => tabGet 0 (s.die ((a - depotBase) / 0x2000000)).depot ((a - depotBase) % 0x2000000)
  | .port => 0
  | .reserved => 0

/-- A byte of the memories set to `v`. -/
def Memory.setHbm (m : Memory) (k : Nat) (v : Byte) : Memory := { m with hbm := tabPut 0 m.hbm k v }

def Memory.setCis (m : Memory) (k : Nat) (v : Byte) : Memory :=
  { m with cis := tabPut (m.cisDefault k) m.cis k v }

/-- The byte at an internal address set to `v`. -/
def State.setByte (s : State) (p : Nat) (a : Nat) (v : Byte) : State :=
  match tierOf a with
  | .hbm =>
    match s.mem.hbmKey a with
    | some k => { s with mem := s.mem.setHbm k v }
    | none => s
  | .cistern =>
    match s.mem.cisKey a with
    | some k => { s with mem := s.mem.setCis k v }
    | none => s
  | .stall => s.modCore p (fun c => { c with stall := tabPut 0 c.stall (a - stallBase) v })
  | .depot =>
    s.modDie ((a - depotBase) / 0x2000000)
      (fun d => { d with depot := tabPut 0 d.depot ((a - depotBase) % 0x2000000) v })
  | .port => s
  | .reserved => s

/-- Bytes from an address on. -/
def State.setBytes (s : State) (p : Nat) : Nat → List Byte → State
  | _, [] => s
  | a, v :: vs => (s.setByte p a v).setBytes p (a + 1) vs

def State.bytesAt (s : State) (p a n : Nat) : List Byte :=
  (List.range n).map (fun i => s.byteAt p (a + i))

/-- The error mark of the word that holds a byte: 0 none, 1 single-bit, 2 double-bit. -/
def State.markAt (s : State) (p : Nat) (a : Nat) : BitVec 2 :=
  match tierOf a with
  | .hbm =>
    match s.mem.hbmKey a with
    | some k => tabGet 0 s.mem.hbmErr (k / 4)
    | none => 0
  | .cistern =>
    match s.mem.cisKey a with
    | some k => tabGet 0 s.mem.cisErr (k / 4)
    | none => 0
  | .stall => tabGet 0 (s.core p).stallErr ((a - stallBase) / 4)
  | .depot =>
    tabGet 0 (s.die ((a - depotBase) / 0x2000000)).depotErr ((a - depotBase) % 0x2000000 / 4)
  | .port => 0
  | .reserved => 0

/-- The error mark of the word that holds a byte set. -/
def State.setMark (s : State) (p : Nat) (a : Nat) (v : BitVec 2) : State :=
  match tierOf a with
  | .hbm =>
    match s.mem.hbmKey a with
    | some k => { s with mem := { s.mem with hbmErr := tabPut 0 s.mem.hbmErr (k / 4) v } }
    | none => s
  | .cistern =>
    match s.mem.cisKey a with
    | some k => { s with mem := { s.mem with cisErr := tabPut 0 s.mem.cisErr (k / 4) v } }
    | none => s
  | .stall =>
    s.modCore p (fun c => { c with stallErr := tabPut 0 c.stallErr ((a - stallBase) / 4) v })
  | .depot =>
    s.modDie ((a - depotBase) / 0x2000000)
      (fun d => { d with depotErr := tabPut 0 d.depotErr ((a - depotBase) % 0x2000000 / 4) v })
  | .port => s
  | .reserved => s

/-- The first bytes of the words that an access touches. -/
def wordsOf (a n : Nat) : List Nat :=
  if n = 0 then [] else (List.range ((a + n - 1) / 4 + 1 - a / 4)).map (fun i => 4 * (a / 4 + i))

/-- Every byte of the access lies in one row of Table 7.1, not a reserved one, and a valid group covers
each byte of HBM or cistern (R190). -/
def State.mapped (s : State) (a n : Nat) : Bool :=
  tierOf a != .reserved && tierOf (a + n - 1) == tierOf a
    && (List.range n).all (fun i =>
      match tierOf a with
      | .hbm => (s.mem.hbmKey (a + i)).isSome
      | .cistern => (s.mem.cisKey (a + i)).isSome
      | _ => true)

/-- Is [a, a + n) inside [b, b + m)? -/
def inside (a n b m : Nat) : Bool := decide (b ≤ a) && decide (a + n ≤ b + m)

/-- A depot buffer as a range of internal addresses. -/
def DepotBuf.inBuf (d : DepotBuf) (die a n : Nat) : Bool :=
  inside a n (depotBase + die * 0x2000000 + d.base) d.size

/-- The windows of a partition (R197), but for a core's own stall and update ports: private windows,
placements that admit accesses, and the depot buffers of its loaded itinerary. -/
def State.inWindow (s : State) (q a n : Nat) : Bool :=
  let x := s.part q
  match x.cfg with
  | none => false
  | some c =>
    (c.windows.any (fun w => !w.pool && inside a n w.base w.size))
      || (x.mem.placements.any (fun e => x.mem.removing != some e.1 && inside a n e.2.base e.2.size))
      || (List.range 12).any (fun d =>
          (s.die d).dbufs.any (fun e => e.2.owner == q && e.2.inBuf d a n))

/-- Does the partition own a logical core of die `d`? -/
def State.ownsDie (s : State) (q d : Nat) : Bool :=
  (List.range 20).any (fun j => s.ownsCore q (20 * d + j))

/-- An access for partition `q`, by a core when `byCore` (R190, R197, R198): `true` when it is
admitted. An update port takes only a 64-byte store at its first byte. -/
def State.admitted (s : State) (q : Nat) (byCore : Bool) (store : Bool) (a n : Nat) : Bool :=
  if n = 0 then true
  else s.mapped a n &&
    match tierOf a with
    | .stall => byCore
    | .port =>
      byCore && store && n == 64 && (a - portBase) % 0x10000 == 0
        && s.ownsDie q ((a - portBase) / 0x10000)
    | .reserved => false
    | _ => s.inWindow q a n

/-- The partition in one of whose windows an address lies (R213). -/
def State.ownerOf (s : State) (a : Nat) : Option Nat :=
  (List.range 16).find? (fun q => s.inWindow q a 1)

/-- The cistern channels that an access touches. -/
def State.chansOf (s : State) (a n : Nat) : List Nat :=
  if tierOf a = .cistern then
    ((List.range ((a + n - 1) / 1024 + 1 - a / 1024)).filterMap
      (fun i => s.mem.cisKey (max a (1024 * (a / 1024 + i))))).map (· / 2 ^ 34)
  else []

/-- Is cistern channel 16 m + c FAILED (R206)? -/
def State.chanFailed (s : State) (ch : Nat) : Bool := bitAt (s.cis (ch / 16)).failed.toNat (ch % 16)

/-- A FAILED channel that an access touches. -/
def State.failedChan (s : State) (a n : Nat) : Option Nat :=
  (s.chansOf a n).find? s.chanFailed

/-- The stacks that an access touches. -/
def State.stacksOf (s : State) (a n : Nat) : List Nat :=
  if tierOf a = .hbm then
    ((List.range ((a + n - 1) / 4096 + 1 - a / 4096)).filterMap
      (fun i => s.mem.hbmKey (max a (4096 * (a / 4096 + i))))).map (· / 2 ^ 36)
  else []

/-- Does the access touch a FAILED stack (R209)? -/
def State.failedStack (s : State) (a n : Nat) : Bool :=
  (s.stacksOf a n).any (fun n => (s.die n).hbm.failed)

/-- A cistern channel becomes FAILED (R206): bit set, READY cleared, code 0x3101, the lifetime
ledger. -/
def State.failChannel (s : State) (m c : Nat) : State :=
  let s1 := s.modCis m (fun x =>
    { x with failed := x.failed ||| BitVec.ofNat 16 (2 ^ c),
             ready := x.ready &&& ~~~(BitVec.ofNat 16 (2 ^ c)) })
  let s2 := s1.logCis m 0x3101 0x05 none [w32 c]
  (s2.modLife (fun r => { r with failed := r.failed ||| BitVec.ofNat 128 (2 ^ (16 * m + c)) })).lifeBegin

/-- An HBM3E stack becomes FAILED (R209). -/
def State.failStack (s : State) (n : Nat) : State :=
  let s1 := s.modDie n (fun d => { d with hbm := { d.hbm with failed := true, ready := false, patrolActive := false } })
  let s2 := s1.logHbm n 0x3004 0x05 none []
  (s2.modLife (fun r => { r with failed := r.failed ||| BitVec.ofNat 128 (2 ^ (96 + n)) })).lifeBegin

/-- The error registers of a stack after an error of KIND at stack-local address `off`. -/
def HbmCtl.noteErr (h : HbmCtl) (off kind : Nat) (owner : Option Nat) : HbmCtl :=
  { h with errAddr := BitVec.ofNat 36 off, errKind := BitVec.ofNat 2 kind,
           errPart := BitVec.ofNat 4 (owner.getD 0), errOwned := owner.isSome }

/-- The error registers of a cistern die after an error of KIND on channel `c`. -/
def CisDie.noteErr (x : CisDie) (c off kind : Nat) (owner : Option Nat) : CisDie :=
  { x with errAddr := BitVec.ofNat 34 off, errChan := BitVec.ofNat 4 c,
           errKind := BitVec.ofNat 2 kind, errPart := BitVec.ofNat 4 (owner.getD 0),
           errOwned := owner.isSome }

/-- A corrected word of a stack (R211): counted, logged, to be written back. -/
def State.correctHbm (s : State) (word : Nat) : State :=
  let n := 4 * word / 2 ^ 36
  let off := 4 * word % 2 ^ 36
  let owner := (s.mem.hbmAddr (4 * word)).bind s.ownerOf
  let s1 := s.modDie n (fun d =>
    { d with hbm := { (d.hbm.noteErr off 1 owner) with corr := satAdd d.hbm.corr 1 } })
  let s2 := s1.modLife (fun r => { r with hbmCorr := tabMod 0 r.hbmCorr n (· + 1) })
  let s3 := { s2 with mem := { s2.mem with hbmWb := s2.mem.hbmWb ++ [word] } }
  s3.logHbm n 0x3001 0 owner (addrWords off)

/-- A corrected word of a channel (R211). -/
def State.correctCis (s : State) (word : Nat) : State :=
  let ch := 4 * word / 2 ^ 34
  let off := 4 * word % 2 ^ 34
  let owner := (s.mem.cisAddr (4 * word)).bind s.ownerOf
  let s1 := s.modCis (ch / 16) (fun x =>
    { (x.noteErr (ch % 16) off 1 owner) with corr := tabMod 0 x.corr (ch % 16) (satAdd · 1) })
  let s2 := s1.modLife (fun r => { r with cisCorr := tabMod 0 r.cisCorr ch (· + 1) })
  let s3 := { s2 with mem := { s2.mem with cisWb := s2.mem.cisWb ++ [word] } }
  s3.logCis (ch / 16) 0x3102 0 owner (addrWords off)

/-- An uncorrectable word of a stack (R213): counted, logged, events. KIND 2 a read, 3 the patrol. -/
def State.uncorrHbm (s : State) (word kind : Nat) : State :=
  let n := 4 * word / 2 ^ 36
  let off := 4 * word % 2 ^ 36
  let addr := s.mem.hbmAddr (4 * word)
  let owner := addr.bind s.ownerOf
  let code := if kind = 3 then 0x3003 else 0x3002
  let s1 := s.modDie n (fun d =>
    { d with hbm := { (d.hbm.noteErr off kind owner) with uncorr := satAdd d.hbm.uncorr 1 } })
  let s2 := s1.modLife (fun r => { r with hbmUncorr := tabMod 0 r.hbmUncorr n (· + 1) })
  (s2.logHbm n code 0x05 owner (addrWords off)).event code 0x05 owner (addr.getD 0)

/-- An uncorrectable word of a channel (R213), and the channel's failure at 16 within 1 s (R206). -/
def State.uncorrCis (s : State) (word kind : Nat) : State :=
  let ch := 4 * word / 2 ^ 34
  let m := ch / 16
  let c := ch % 16
  let off := 4 * word % 2 ^ 34
  let addr := s.mem.cisAddr (4 * word)
  let owner := addr.bind s.ownerOf
  let code := if kind = 3 then 0x3104 else 0x3103
  let times := s.now :: (tabGet [] (s.cis m).recentUncorr c).filter
    (fun t => decide ((s.now - t).toNat < 1000000000))
  let s1 := s.modCis m (fun x =>
    { (x.noteErr c off kind owner) with
      uncorr := satAdd x.uncorr 1, recentUncorr := tabSet x.recentUncorr c times })
  let s2 := s1.modLife (fun r => { r with cisUncorr := tabMod 0 r.cisUncorr ch (satAdd · 1) })
  let s3 := (s2.logCis m code 0x05 owner (addrWords off)).event code 0x05 owner (addr.getD 0)
  if 16 ≤ times.length && !bitAt (s3.cis m).failed.toNat c then s3.failChannel m c else s3

/-- What a read of one word finds (R211, R213): a single-bit error is corrected, counted and logged; a
double-bit error is logged and posted. `p` is the reading core. -/
def State.readWord1 (s : State) (p a : Nat) : State :=
  match tierOf a with
  | .hbm =>
    match s.mem.hbmKey a with
    | some k =>
      if s.markAt p a = 1 then s.correctHbm (k / 4)
      else if s.markAt p a = 2 then s.uncorrHbm (k / 4) 2 else s
    | none => s
  | .cistern =>
    match s.mem.cisKey a with
    | some k =>
      if s.markAt p a = 1 then s.correctCis (k / 4)
      else if s.markAt p a = 2 then s.uncorrCis (k / 4) 2 else s
    | none => s
  | .stall =>
    if s.markAt p a = 1 then s.logCore p 0x1038 0 [w32 (a - stallBase)]
    else if s.markAt p a = 2 then
      (s.logCore p 0x1039 0x05 [w32 (a - stallBase)]).event 0x1039 0x05 (s.partOfPhys p) a
    else s
  | .depot =>
    if s.markAt p a = 1 then s.logCore p 0x103A 0 (addrWords a)
    else if s.markAt p a = 2 then
      (s.logCore p 0x103B 0x05 (addrWords a)).event 0x103B 0x05 (s.ownerOf a) a
    else s
  | .port => s
  | .reserved => s

/-- The words of a list of accesses that carry an error mark. -/
def State.markedWords (s : State) (p : Nat) (segs : List (Nat × Nat)) : List Nat :=
  (segs.flatMap (fun e => wordsOf e.1 e.2)).filter (fun a => decide (s.markAt p a ≠ 0))

/-- A read meets the words of `segs`: corrections and uncorrectable reports. -/
def State.touchRead (s : State) (p : Nat) (segs : List (Nat × Nat)) : State :=
  eachDo (s.markedWords p segs) (fun a t => t.readWord1 p a) s

/-- Does a read of `segs` meet an uncorrectable word or a FAILED stack? -/
def State.uncorrIn (s : State) (p : Nat) (segs : List (Nat × Nat)) : Bool :=
  (s.markedWords p segs).any (fun a => decide (s.markAt p a = 2))
    || segs.any (fun e => s.failedStack e.1 e.2)

/-- A FAILED channel that a read of `segs` touches (R207). -/
def State.failedIn (s : State) (segs : List (Nat × Nat)) : Option Nat :=
  segs.findSome? (fun e => s.failedChan e.1 e.2)

/-- Is a word's write whole (R212)? -/
def wholeWord (a n w : Nat) : Bool := decide (a ≤ w) && decide (w + 4 ≤ a + n)

/-- The armed injection marks the next whole word written to a stack or channel (R219, R220). -/
def State.inject (s : State) (p w : Nat) : State :=
  match tierOf w with
  | .hbm =>
    match s.mem.hbmKey w with
    | some k =>
      let n := k / 2 ^ 36
      let v := (s.die n).hbm.inject
      if v = 0 then s
      else (s.modDie n (fun d => { d with hbm := { d.hbm with inject := 0 } })).setMark p w v
    | none => s
  | .cistern =>
    match s.mem.cisKey w with
    | some k =>
      let ch := k / 2 ^ 34
      let v := tabGet 0 (s.cis (ch / 16)).inject (ch % 16)
      if v = 0 then s
      else (s.modCis (ch / 16) (fun x => { x with inject := tabSet x.inject (ch % 16) 0 })).setMark p w v
    | none => s
  | _ => s

/-- The write-back of a corrected word is dropped when a write to it is accepted first (R211). -/
def State.dropWb (s : State) (w : Nat) : State :=
  match tierOf w with
  | .hbm =>
    match s.mem.hbmKey w with
    | some k => { s with mem := { s.mem with hbmWb := s.mem.hbmWb.filter (· != k / 4) } }
    | none => s
  | .cistern =>
    match s.mem.cisKey w with
    | some k => { s with mem := { s.mem with cisWb := s.mem.cisWb.filter (· != k / 4) } }
    | none => s
  | _ => s

/-- The bytes of a write that fall into the word at `w`. -/
def wordBytes (a : Nat) (data : List Byte) (w : Nat) : List (Nat × Byte) :=
  (List.range 4).filterMap (fun i =>
    if a ≤ w + i then
      match data[w + i - a]? with
      | some v => some (w + i, v)
      | none => none
    else none)

/-- Write one word's share of a write (R212): a whole word never reads the word and clears its error;
a partial word whose read is uncorrectable is left unchanged. The answer's second part says whether
that happened. -/
def State.writeWord (s : State) (p a : Nat) (data : List Byte) (w : Nat) : State × Bool :=
  let put := fun (t : State) => eachDo (wordBytes a data w) (fun e t => t.setByte p e.1 e.2) t
  if wholeWord a data.length w then ((put (s.dropWb w)).setMark p w 0 |>.inject p w, false)
  else if s.markAt p w = 2 then (s.readWord1 p w, true)
  else (((put (s.readWord1 p w)).dropWb w).setMark p w 0, false)

/-- Write words `ws` of a write in order; true when a partial word failed (R212). -/
def State.writeList (s : State) (p a : Nat) (data : List Byte) (ws : List Nat) : State × Bool :=
  ws.foldl (fun acc w => let r := acc.1.writeWord p a data w; (r.1, acc.2 || r.2)) (s, false)

/-- Write one 32-byte unit's share of a write to the cistern (R390): a unit that is not wholly covered is
read, modified and written as R212 gives for a word. -/
def State.writeUnit (s : State) (p a : Nat) (data : List Byte) (u : Nat) : State × Bool :=
  let ws := (List.range 8).map (fun i => u + 4 * i)
  if a ≤ u ∧ u + 32 ≤ a + data.length then s.writeList p a data ws
  else
    let bad := ws.filter (fun w => decide (s.markAt p w ≠ 0))
    let s1 := eachDo bad (fun w t => t.readWord1 p w) s
    if bad.any (fun w => decide (s.markAt p w = 2)) then (s1, true)
    else
      let s2 := eachDo ws (fun w t => (t.dropWb w).setMark p w 0) s1
      let s3 := eachDo (ws.flatMap (wordBytes a data)) (fun e t => t.setByte p e.1 e.2) s2
      (eachDo (ws.filter (wholeWord a data.length)) (fun w t => t.inject p w) s3, false)

/-- The first bytes of the 32-byte units that an access touches. -/
def unitsOf (a n : Nat) : List Nat :=
  if n = 0 then [] else (List.range ((a + n - 1) / 32 + 1 - a / 32)).map (fun i => 32 * (a / 32 + i))

/-- Write bytes at an internal address, word by word, or unit by unit in the cistern; true when a partial
word or unit failed (R212, R390). -/
def State.writeWords (s : State) (p a : Nat) (data : List Byte) : State × Bool :=
  if tierOf a = .cistern then
    (unitsOf a data.length).foldl
      (fun acc u => let r := acc.1.writeUnit p a data u; (r.1, acc.2 || r.2)) (s, false)
  else s.writeList p a data (wordsOf a data.length)

/-- A write discarded on a FAILED channel (R207): counted, code 0x3106. -/
def State.dropWrite (s : State) (ch : Nat) (part : Option Nat) (a : Nat) : State :=
  (s.modCis (ch / 16) (fun x => { x with failDrops := satAdd x.failDrops 1 })).logCis (ch / 16)
    0x3106 0 part (addrWords a)

/-- A COPY read dropped on a FAILED channel (R207): counted, code 0x3107. -/
def State.dropRead (s : State) (ch : Nat) (part : Option Nat) (a : Nat) : State :=
  (s.modCis (ch / 16) (fun x => { x with failDrops := satAdd x.failDrops 1 })).logCis (ch / 16)
    0x3107 0x08 part (addrWords a)

/-- A store of a core porter, Porter or the trace porter: discarded when it touches a FAILED channel,
UNCORRECTABLE when it touches a FAILED stack (R207, R209). -/
def State.store (s : State) (p : Nat) (part : Option Nat) (a : Nat) (data : List Byte) : State × Bool :=
  if data.isEmpty then (s, false)
  else
    match s.failedChan a data.length with
    | some ch => (s.dropWrite ch part a, false)
    | none =>
      if s.failedStack a data.length then (s, true)
      else s.writeWords p a data

/-- Stores of a list of ranges in order. -/
def State.stores (s : State) (p : Nat) (part : Option Nat) (ws : List (Nat × List Byte)) : State × Bool :=
  ws.foldl (fun acc e => let r := acc.1.store p part e.1 e.2; (r.1, acc.2 || r.2)) (s, false)

/-- Zero the table entries whose key satisfies `f`. -/
def tabDrop {α : Type} (t : Tab α) (f : Nat → Bool) : Tab α := t.filter (fun e => !f e.1)

/-- A scrub of a range of HBM or cistern (R216, R390): every word zero with valid check bits, below the
cistern's encryption, so that a scrubbed byte of the cistern is undefined. -/
def State.scrubRange (s : State) (base size : Nat) : State :=
  let inR := fun (x : Option Nat) =>
    match x with
    | some a => decide (base ≤ a) && decide (a < base + size)
    | none => false
  let hit := fun k => inR (s.mem.hbmAddr k)
  let hitC := fun k => inR (s.mem.cisAddr k)
  { s with mem := { s.mem with
      hbm := tabDrop s.mem.hbm hit, hbmErr := tabDrop s.mem.hbmErr (fun w => hit (4 * w)),
      hbmWb := s.mem.hbmWb.filter (fun w => !hit (4 * w)),
      cis := tabDrop s.mem.cis hitC, cisErr := tabDrop s.mem.cisErr (fun w => hitC (4 * w)),
      cisWb := s.mem.cisWb.filter (fun w => !hitC (4 * w)),
      cisScrubs := if tierOf base = .cistern then
          .range s.mem.cgrps base size :: s.mem.cisScrubs
        else s.mem.cisScrubs } }

/-- The scrub of a reassignment and its new groups (Table 13.12, R193): HBM and cistern places whose owner is not
the same before and after it. -/
def Memory.reassign (m : Memory) (hg cg : Tab Group) (was will : List (Nat × Nat × Nat)) : Memory :=
  let c : CisScrub := .change m.cgrps cg was will
  let hit := fun k => !sameOwner (ownerIn was (m.hgrps.findSome? (fun e => e.2.addrH k)))
    (ownerIn will (hg.findSome? (fun e => e.2.addrH k)))
  let hitC := fun k => !sameOwner (ownerIn was (m.cgrps.findSome? (fun e => e.2.addrC k)))
    (ownerIn will (cg.findSome? (fun e => e.2.addrC k)))
  { hgrps := hg, cgrps := cg, cisScrubs := c :: m.cisScrubs,
    hbm := tabDrop m.hbm hit, hbmErr := tabDrop m.hbmErr (fun w => hit (4 * w)),
    hbmWb := m.hbmWb.filter (fun w => !hit (4 * w)),
    cis := tabDrop m.cis c.covers, cisErr := tabDrop m.cisErr (fun w => hitC (4 * w)),
    cisWb := m.cisWb.filter (fun w => !hitC (4 * w)) }

end Sys2Proof.Machine
end

