-- ==== Sys2Proof/Machine/CoreOps.lean ====
section
/-!
DEFINITION. Operations of a core that many instructions share: tallies, trace records, core faults,
issue and advance, tokens (R135, R139, R143, R146, R435 to R444, R479).
-/

namespace Sys2Proof.Machine

/-- Tally indices (Table 15.1). -/
def tlARRAY : Nat := 2
def tlMAC16 : Nat := 8
def tlMAC8 : Nat := 9
def tlMAC6 : Nat := 10
def tlMAC4 : Nat := 11
def tlFWD : Nat := 12
def tlDX : Nat := 13
def tlDW : Nat := 14
def tlDRAW : Nat := 15
def tlCONV : Nat := 16
def tlVEC : Nat := 17
def tlIMG : Nat := 18
def tlTXREMOTE : Nat := 25
def tlRXREMOTE : Nat := 26
def tlINSNS : Nat := 27
def tlSR : Nat := 28
def tlTOKPOSTS : Nat := 29
def tlRESOLVE : Nat := 30
def tlTEST : Nat := 31

/-- Advance a tally by `n` (R435); code 0x1040 when COUNT passes 2^64 − 1 (R437). -/
def State.tallyAdd (s : State) (p idx n : Nat) : State :=
  let v := tabGet 0 (s.core p).tally idx
  let s1 := s.modCore p (fun c => { c with tally := tabSet c.tally idx (v + BitVec.ofNat 80 n) })
  if 2 ^ 64 ≤ v.toNat % 2 ^ 64 + n then s1.logCore p 0x1040 0 [w32 idx] else s1

/-- Advance several tallies. -/
def State.talliesAdd (s : State) (p : Nat) (l : List (Nat × Nat)) : State :=
  eachDo l (fun e t => t.tallyAdd p e.1 e.2) s

/-- Units of 32 bytes that records take (R442). -/
def traceFill (l : List TraceRec) : Nat :=
  (l.map (fun r => if r.gap.isSome then 2 else 1)).foldl (· + ·) 0

/-- A record of the core as it would be written now. -/
def State.traceRec (s : State) (p kind : Nat) (tag : BitVec 16) (pc : Nat) (stm : BitVec 3)
    (a b : DWord) : TraceRec :=
  let c := s.core p
  { time := s.dieNow (p / 22), tmark := s.tmark (s.stretched (p / 22)) c.gapTrace.mark.isSome,
    kind := kind, lcore := BitVec.ofNat 8 ((s.logicalOf p).getD 255), tag := tag, pc := pc,
    stm := stm, gap := c.gapTrace.mark, a := a, b := b }

/-- Put a record into the core's buffer, or drop and count it (R444). -/
def State.tracePut (s : State) (p : Nat) (r : TraceRec) : State :=
  let c := s.core p
  if traceFill (c.trace ++ [r]) ≤ 2048 then
    s.setCore p { c with trace := c.trace ++ [r], gapTrace := c.gapTrace.taken }
  else
    (s.setCore p { c with trcLost := satAdd c.trcLost 1, trcDropped := c.trcDropped + 1 }).logCore p
      0x1044 0 [w32 1]

/-- The LOST record that comes before the next record after a loss (R444). -/
def State.traceLost (s : State) (p : Nat) : State :=
  let c := s.core p
  if c.trcDropped = 0 ∨ 2048 ≤ traceFill c.trace then s
  else
    (s.setCore p { c with trcDropped := 0 }).tracePut p
      (s.traceRec p 15 0 c.pc 0 (w64 c.trcDropped) 0)

/-- Is kind `k` traced (R442)? -/
def Core.traces (c : Core) (k : Nat) : Bool := c.trcEn && (k == 0 || bitAt c.trcMask.toNat (k - 1))

/-- Write a trace record of kind `k` (R442). -/
def State.traceAt (s : State) (p k : Nat) (tag : BitVec 16) (stm : BitVec 3) (a b : DWord) : State :=
  if (s.core p).traces k then
    let s1 := s.traceLost p
    s1.tracePut p (s1.traceRec p k tag (s1.core p).pc stm a b)
  else s

/-- The TAGs of the waybills that a logbook entry concerns, as its last arguments (Table 5.4, log entry 69). -/
def tagWords (tags : List (BitVec 16)) : List Word := tags.map (fun t => t.setWidth 32)

/-- A core fault (R146): the core stops at the instruction; CE_FAULT takes the status and the specific
code, or 0x1001; code 0x1001 is written, then `log` writes the specific one. `own` says that a check on
the core's own arithmetic or storage caused it (Table 5.8); `tags` are the TAGs of the waybills that the fault
concerns (Table 5.4, log entry 69), of which the trace record takes the first. Serai acts at CORE_FAULT_REPORT. -/
def State.coreFaultWith (s : State) (p : Nat) (status : Nat) (code : Nat) (own : Bool) (stm : BitVec 3)
    (log : State → State) (tags : List (BitVec 16) := []) : State :=
  let s1 := s.modCore p (fun c =>
    { c with st := .faulted, wait := .none, faultStatus := st8 status,
             faultCode := BitVec.ofNat 16 (if code = 0 then 0x1001 else code), faultPc := c.pc,
             faultStm := stm, faultPending := true, faultOwn := own })
  let s3 := log (s1.logCore p 0x1001 status (tagWords tags))
  let c := s3.core p
  s3.traceAt p 7 (tags.headD 0) stm (c.ceFault.setWidth 64) (c.ceFaultPc.setWidth 64)

/-- A core fault with a core-control code (R146, R167). -/
def State.coreFault (s : State) (p : Nat) (status : Nat) (code : Nat) (own : Bool) (stm : BitVec 3)
    (args : List Word) (tags : List (BitVec 16) := []) : State :=
  s.coreFaultWith p status code own stm
    (fun t => if code = 0 then t else t.logCore p code status (args ++ tagWords tags)) tags

/-- A core fault whose specific code has been written already (R213): CE_FAULT takes that code. -/
def State.coreFaultSeen (s : State) (p : Nat) (status : Nat) (code : Nat) (own : Bool)
    (stm : BitVec 3) (tags : List (BitVec 16) := []) : State :=
  s.coreFaultWith p status code own stm (fun t => t) tags

/-- A fault of a waybill, reference or piece (R135): code 0x1009. -/
def State.refFault (s : State) (p : Nat) (status : Nat) (stm : BitVec 3)
    (tags : List (BitVec 16) := []) : State :=
  s.coreFault p status 0x1009 false stm [] tags

/-- The logbook code of an uncorrectable read by a core of a tier (Table 7.7). -/
def uncorrCode : Tier → Nat
  | .stall => 0x1039
  | .depot => 0x103B
  | .cistern => 0x3103
  | _ => 0x3002

/-- The tier of the first uncorrectable word that a read of `segs` meets. -/
def State.uncorrTier (s : State) (p : Nat) (segs : List (Nat × Nat)) : Tier :=
  match (s.markedWords p segs).find? (fun a => decide (s.markAt p a = 2)) with
  | some a => tierOf a
  | none => .hbm

/-- A read by an instruction of core `p` of partition `q` over `segs` (R198, R207, R209, R211, R213): the
core faults when an access is refused, touches a FAILED channel, or meets an uncorrectable word; true
when the data can be used. -/
def State.coreRead (s : State) (p q : Nat) (segs : List (Nat × Nat)) (stm : BitVec 3)
    (tags : List (BitVec 16) := []) : State × Bool :=
  if segs.any (fun e => !s.admitted q true false e.1 e.2) then (s.refFault p scAccess stm tags, false)
  else if (s.failedIn segs).isSome then (s.coreFault p scUncorr 0x100C false stm [] tags, false)
  else if s.uncorrIn p segs then
    let t := s.uncorrTier p segs
    ((s.touchRead p segs).coreFaultSeen p scUncorr (uncorrCode t) (decide (t = .stall)) stm tags, false)
  else (s.touchRead p segs, true)

/-- A write by an instruction of core `p` of partition `q`: admitted, then stored; the core faults when
it is refused or fails (R198, R209, R212). -/
def State.coreWrite (s : State) (p q : Nat) (ws : List (Nat × List Byte)) (stm : BitVec 3)
    (tags : List (BitVec 16) := []) : State × Bool :=
  if ws.any (fun e => !s.admitted q true true e.1 e.2.length) then (s.refFault p scAccess stm tags, false)
  else
    let r := s.stores p (some q) ws
    if r.2 then
      let t := s.uncorrTier p (ws.map (fun e => (e.1, e.2.length)))
      (r.1.coreFaultSeen p scUncorr (uncorrCode t) (decide (t = .stall)) stm tags, false)
    else (r.1, true)

/-- May the logical core issue instruction `i` now? It runs, waits for nothing, and its clock is not gated: its
partition is RUNNING or RECOVERING (R334) and no context switch of it has begun (R152); and its instruction store
holds that instruction's word at the pc (R23, R136, R479). The answer is its physical core. -/
def State.issuing (s : State) (l : Nat) (i : Instr) : Option Nat :=
  match s.physOf l with
  | none => none
  | some p =>
    let q := s.part (s.partNo l)
    if s.clocked ∧ (s.core p).st = .running ∧ (s.core p).wait = .none
        ∧ (q.st = .running ∨ q.st = .recovering) ∧ q.switching = none
        ∧ (s.core p).insns[(s.core p).pc]? = i.word then some p
    else none

/-- The physical core of a logical number while the dies' clocks run. -/
def State.clockedPhys (s : State) (l : Nat) : Option Nat := if s.clocked then s.physOf l else none

/-- Is the core with logical number `l` waiting, with its clock running? The answer is its physical
core. -/
def State.waiting (s : State) (l : Nat) : Option Nat :=
  match s.physOf l with
  | none => none
  | some p =>
    let q := s.part (s.partNo l)
    if s.clocked ∧ (s.core p).st = .running ∧ (q.st = .running ∨ q.st = .recovering) ∧ q.switching = none then
      some p
    else none

/-- The instruction at the pc has issued and the next is at `pc` (R479); reaching INSN_COUNT is a core
fault of code 0x100F (R139). -/
def State.goto (s : State) (p pc : Nat) (stm : BitVec 3) : State :=
  let s1 := s.modCore p (fun c => { c with pc := pc })
  if pc < (s.core p).insns.length then s1 else s1.coreFault p 0x01 0x100F false stm []

/-- To the next instruction. -/
def State.advance (s : State) (p : Nat) (stm : BitVec 3) : State :=
  s.goto p ((s.core p).pc + 1) stm

/-- Count the instruction as issued (tally 27). -/
def State.issued (s : State) (p : Nat) : State := s.tallyAdd p tlINSNS 1

/-- XREG[i]; XREG[0] reads zero (R136). -/
def Core.x (c : Core) (i : Nat) : Word := if i = 0 then 0 else tabGet 0 c.xreg i

/-- Write XREG[i]; XREG[0] discards writes (R164). -/
def Core.setX (c : Core) (i : Nat) (v : Word) : Core :=
  if i = 0 then c else { c with xreg := tabSet c.xreg i v }

def Core.stream (c : Core) (i : Nat) : StreamReg := tabGet {} c.streams i

def Core.recd (c : Core) (t : Nat) : TensorRec := tabGet {} c.recs t

/-- Change record t. -/
def Core.modRec (c : Core) (t : Nat) (g : TensorRec → TensorRec) : Core :=
  { c with recs := tabMod ({} : TensorRec) c.recs t g }

def Core.sbuf (c : Core) (b : Nat) : StallBuf := tabGet {} c.sbufs b

/-- The buffer a BUFREF names after relocation (R136), where it is defined: a stall buffer of the core's
table, or a depot buffer that the partition's image defines. -/
def State.bufRef (s : State) (p q : Nat) (stm : BitVec 3) (r : BitVec 14) : Option Buf :=
  let v := r.toNat
  if bitAt v 13 then
    let d := bits v 11 8
    if d < 12 ∧ bitAt v 12 = false then
      match (s.die d).dbufs.find? (fun e => e.1 == bits v 7 0 && e.2.owner == q) with
      | some _ => some (.depot d (bits v 7 0))
      | none => none
    else none
  else
    let b := (bits v 5 0 + ((s.core p).stream stm.toNat).sbase.toNat) % 64
    if bits v 12 6 = 0 ∧ ((s.core p).sbuf b).size ≠ 0 then some (.stall b) else none

/-- The token count of a buffer (R143). -/
def State.tok (s : State) (p : Nat) : Buf → Nat
  | .stall b => ((s.core p).sbuf b).tok.toNat
  | .depot d b =>
    match (s.die d).dbufs.find? (fun e => e.1 == b) with
    | some e => e.2.tok.toNat
    | none => 0

/-- The MISSING mark of a buffer (R207). -/
def State.missing (s : State) (p : Nat) : Buf → Bool
  | .stall b => ((s.core p).sbuf b).missing
  | .depot d b =>
    match (s.die d).dbufs.find? (fun e => e.1 == b) with
    | some e => e.2.missing
    | none => false

/-- Change the entry of a depot buffer, where it is defined. -/
def Die.modBuf (d : Die) (b : Nat) (g : DepotBuf → DepotBuf) : Die :=
  { d with dbufs := d.dbufs.map (fun e => if e.1 = b then (e.1, g e.2) else e) }

/-- Set a buffer's token count. -/
def State.setTok (s : State) (p : Nat) (b : Buf) (n : Nat) : State :=
  match b with
  | .stall i =>
    s.modCore p (fun c => { c with sbufs := tabMod {} c.sbufs i (fun x => { x with tok := BitVec.ofNat 8 n }) })
  | .depot d i => s.modDie d (fun x => x.modBuf i (fun y => { y with tok := BitVec.ofNat 8 n }))

/-- Set or clear a buffer's MISSING mark. -/
def State.setMissing (s : State) (p : Nat) (b : Buf) (v : Bool) : State :=
  match b with
  | .stall i =>
    s.modCore p (fun c => { c with sbufs := tabMod {} c.sbufs i (fun x => { x with missing := v }) })
  | .depot d i => s.modDie d (fun x => x.modBuf i (fun y => { y with missing := v }))

/-- Base address and size in bytes of a buffer. -/
def State.bufRange (s : State) (p : Nat) : Buf → Nat × Nat
  | .stall b => (stallBase + ((s.core p).sbuf b).base, ((s.core p).sbuf b).size)
  | .depot d b =>
    match (s.die d).dbufs.find? (fun e => e.1 == b) with
    | some e => (depotBase + d * 0x2000000 + e.2.base, e.2.size)
    | none => (depotBase, 0)

/-- Post `n` tokens; none when the count would pass 255 (R143). -/
def State.post (s : State) (p : Nat) (b : Buf) (n : Nat) : Option State :=
  if s.tok p b + n ≤ 255 then some (s.setTok p b (s.tok p b + n)) else none

/-- The core's record of a WAIT at the start of a wait (Table 15.4). -/
def State.traceWait (s : State) (p : Nat) (stm : BitVec 3) : State :=
  s.traceAt p 1 0 stm (w64 (s.core p).wait.code) 0

/-- The core begins to wait. -/
def State.beginWait (s : State) (p : Nat) (w : WaitOn) (stm : BitVec 3) : State :=
  (s.modCore p (fun c => { c with wait := w, waitSince := s.dieNow (p / 22), waitStm := stm })).traceWait p stm

/-- The wait ends: the record at its end carries the ns waited (Table 15.4). -/
def State.endWait (s : State) (p : Nat) : State :=
  let c := s.core p
  let s1 := s.traceAt p 1 0 c.waitStm (w64 c.wait.code) (s.dieNow (p / 22) - c.waitSince)
  s1.modCore p (fun c => { c with wait := .none })

end Sys2Proof.Machine
end

