-- ==== Sys2Proof/Machine/PartBase.lean ====
section
/-!
DEFINITION. Parts of a partition's life that other operations use: its state and clocks, its used cores,
the completions of START and PAUSE, recall, MISSING marks and deadlines (R147, R151, R205, R207, R334).
-/

namespace Sys2Proof.Machine

/-- Apply `g` to the gaps of a core's record sources (R358). -/
def Core.modGaps (c : Core) (g : Gap → Gap) : Core :=
  { c with gapTally := g c.gapTally, gapSnap := g c.gapSnap, gapTrace := g c.gapTrace,
           gapLog := g c.gapLog }

/-- Do the clocks of the partition's cores run in this state (R334)? -/
def PartSt.clocked : PartSt → Bool
  | .running => true
  | .recovering => true
  | _ => false

/-- Do `g` on a core with its clock running: a clear or a self-test of a core whose clock is gated lets it run for the
time of `g` (R334). -/
def State.withClock (s : State) (p : Nat) (g : State → State) : State :=
  let off := match s.partOfPhys p with
    | some q => !(s.part q).st.clocked
    | none => true
  if off then (g (s.modCore p (fun c => c.modGaps (fun x => x.start s.now)))).modCore p (fun c =>
    c.modGaps (fun x => x.stop s.now))
  else g s

/-- The clocks of a partition's cores run only in RUNNING and RECOVERING (R334). -/
def State.gateCores (s : State) (q : Nat) (on : Bool) : State :=
  eachDo (s.physOfPart q) (fun p t =>
    t.modCore p (fun c => c.modGaps (fun g => if on then g.start s.now else g.stop s.now))) s

/-- The logical cores that the partition's image uses (Table 5.1, NCORE). -/
def Part.usedCores (x : Part) : List Nat :=
  (List.range 240).filter (fun l => decide (l % 20 < x.ncore.getD (l / 20) 0))

/-- Does a partition keep the PLLs of its used cores running (R334): in every state but IDLE and HALTED, and while a
context switch needs them? -/
def Part.pll (x : Part) : Bool :=
  match x.switching with
  | some .held => false
  | some _ => true
  | none =>
    match x.st with
    | .idle => false
    | .halted => false
    | _ => true

/-- Does a PLL of a core of CDn run, and with it CK_UPD (R333, R334)? -/
def State.pllOn (s : State) (n : Nat) : Bool :=
  s.clocked && (List.range 16).any (fun p =>
    (s.part p).pll && (s.part p).usedCores.any (fun l => l / 20 == n))

/-- Is a compute die sealed: does a sealed partition own cores of it (R341)? -/
def State.dieSealed (s : State) (n : Nat) : Bool :=
  (List.range 16).any (fun p =>
    match (s.part p).cfg with
    | some c => c.sealed && tabGet 0 c.cores n != 0
    | none => false)

/-- CK_UPD starts or stops on the dies whose PLLs ran in `old` and do not now, or the other way about (R333, R358). -/
def State.gateUpd (s old : State) : State :=
  eachDo ((List.range 12).filter (fun n => old.pllOn n != s.pllOn n)) (fun n t => t.modDie n (fun d =>
    { d with upd := { d.upd with
      gap := if s.pllOn n then d.upd.gap.start s.now else d.upd.gap.stop s.now } })) s

/-- PART_STAT.STATE changes, with REASON in PAUSED and STATUS in HALTED (Table 5.16): clocks are gated or
run (R334), and vector 0 signals the change (R414). -/
def State.setPartSt (s : State) (q : Nat) (st : PartSt) (reason status : Nat) : State :=
  let s1 := s.modPart q (fun x =>
    { x with st := st, reason := if st = .paused then BitVec.ofNat 4 reason else 0,
             status := if st = .halted then st8 status else 0 })
  let s2 := (s1.gateCores q st.clocked).gateUpd s
  if (s.part q).statWord = (s1.part q).statWord then s2 else s2.partChanged q

/-- The physical cores that carry them. -/
def State.usedPhys (s : State) (q : Nat) : List Nat := (s.part q).usedCores.filterMap s.physOf

/-- Has every used core of the partition executed HALT, with its porter operations complete (R147)? -/
def State.allDone (s : State) (q : Nat) : Bool :=
  (s.part q).usedCores.all (fun l =>
    match s.physOf l with
    | some p => decide ((s.core p).st = .done) && (s.core p).ops.isEmpty
    | none => false)

/-- START completes, with PART_RP as RESULT0 (R151, Table 14.5). -/
def State.finishStart (s : State) (q status : Nat) : State :=
  match (s.part q).start with
  | none => s
  | some c =>
    (s.modPart q (fun x => { x with start := none })).complete c status
      ((s.part q).rpWord.setWidth 64) 0

/-- A pending PAUSE completes (R151). -/
def State.finishPause (s : State) (q status : Nat) : State :=
  match (s.part q).pause with
  | none => s
  | some c => (s.modPart q (fun x => { x with pause := none })).complete c status 0 0

/-- Every used core has halted (R147, R151): LOADED, and START completes with OK. -/
def State.itineraryDone (s : State) (q : Nat) : State :=
  (s.setPartSt q .loaded 0 0).finishStart q scOk

/-- A core stops issuing at a recall; a core that faulted or is done keeps that state (Table 5.8). -/
def Core.recall (c : Core) : Core :=
  match c.st with
  | .running => { c with st := .recalled, wait := .none, fence := none }
  | .loaded => { c with st := .recalled }
  | _ => c

/-- Recall every core of a partition; their requests for tolls end. -/
def State.recallCores (s : State) (q : Nat) : State :=
  let ps := s.physOfPart q
  let s1 := eachDo ps (fun p t => t.modCore p Core.recall) s
  { s1 with tollWait := s1.tollWait.filter (fun p => !ps.contains p) }

/-- DLBR on a buffer with a MISSING mark (R207): the mark is cleared, code 0x100B, branch. -/
def State.missBranch (s : State) (p : Nat) (b : Buf) (stm : BitVec 3) (target : Nat) : State :=
  ((s.setMissing p b false).logCore p 0x100B scDeadline []).goto p target stm

/-- Land the bytes that a free value picks: those of a cancelled COPY that landed before the deadline
(R205). -/
def State.landSome (s : State) (p : Nat) : List (Nat × List Byte) → State
  | [] => s
  | (_, []) :: rest => s.landSome p rest
  | (a, v :: vs) :: rest =>
    let s1 := if s.freeVal.getLsbD 0 then s.useFree.setByte p a v else s.useFree
    (eachDo vs.zipIdx (fun (e : Byte × Nat) t =>
      if t.freeVal.getLsbD 0 then t.useFree.setByte p (a + 1 + e.2) e.1 else t.useFree) s1).landSome p rest

def State.house (s : State) (n : Nat) : House := tabGet {} s.houses n

def State.modHouse (s : State) (n : Nat) (g : House → House) : State :=
  { s with houses := tabSet s.houses n (g (s.house n)) }

/-- An add's bytes return to the pool they came from (R302). -/
def House.giveBack (h : House) : AddSrc → House
  | .copy _ _ => { h with coreFree := h.coreFree + 12 }
  | .frame _ => { h with porterFree := h.porterFree + 12 }

/-- The adds of a source that are still queued at the houses, of which a free value says each is kept, to be
applied, or lost with its bytes given back. -/
def State.loseAdds (s : State) (src : AddSrc) : State :=
  eachDo (List.range 12) (fun n t =>
    let q := (t.house n).queue
    let r := q.foldl (fun (acc : State × List Add × House) e =>
      if e.src = src then
        if acc.1.freeVal.getLsbD 0 then (acc.1.useFree, acc.2.1 ++ [e], acc.2.2)
        else (acc.1.useFree, acc.2.1, acc.2.2.giveBack src)
      else (acc.1, acc.2.1 ++ [e], acc.2.2)) (t, [], t.house n)
    r.1.modHouse n (fun _ => { r.2.2 with queue := r.2.1 })) s

/-- A descriptor reaches the queue of its engine (R117): a slot is filled that a toll committed. -/
def State.postDescriptor (s : State) (p n : Nat) (words : List Word) : State :=
  s.modDie n (fun d => { d with upd := { d.upd with
    queue := d.upd.queue ++ [{ words := words, part := s.partOfPhys p |>.getD 16, core := some p }],
    committed := d.upd.committed - 1 } })

/-- What an operation of core `p` that ends before its time has done (R140, R205, Table 7.14): of a COPY each byte,
of a COPY with ADD each add still queued, of a descriptor its arrival, is a free choice. A descriptor that does not
arrive leaves its slot (log entry 70). -/
def State.landPartly (s : State) (p : Nat) (o : PorterOp) : State :=
  match o.act with
  | .copy ws => s.landSome p ws
  | .add _ => s.loseAdds (.copy p o.id)
  | .descriptor n ws =>
    if s.freeVal.getLsbD 0 then s.useFree.postDescriptor p n ws
    else s.useFree.modDie n (fun d => { d with upd := { d.upd with committed := d.upd.committed - 1 } })
  | .remote _ _ _ => s
  | .convoy _ _ _ _ => s

/-- Is the operation a COPY (R137): a plain one, one with ADD, or one of an update descriptor? -/
def PorterDo.isCopy : PorterDo → Bool
  | .copy _ => true
  | .add _ => true
  | .descriptor _ _ => true
  | .remote _ _ _ => false
  | .convoy _ _ _ _ => false

/-- Cancel the COPYs of core `p` whose PBUF is `b` (R140, R205). -/
def State.cancelCopies (s : State) (p : Nat) (b : Buf) : State :=
  let hit := fun (o : PorterOp) => o.act.isCopy && decide (o.post = some b)
  let c := s.core p
  if c.ops.any hit then
    eachDo (c.ops.filter hit) (fun o t => t.landPartly p o)
      (s.setCore p { c with ops := c.ops.filter (fun o => !hit o) })
  else s

/-- The deadline of a DLBR passes (R140): every COPY outstanding to the buffer is cancelled, of any core
for a depot buffer; code 0x100B; branch. -/
def State.deadlineBranch (s : State) (p : Nat) (b : Buf) (stm : BitVec 3) (target : Nat) : State :=
  let s1 := match b with
    | .stall _ => s.cancelCopies p b
    | .depot _ _ => eachDo (s.cores.map Prod.fst) (fun k t => t.cancelCopies k b) s
  (s1.logCore p 0x100B scDeadline []).goto p target stm

/-- A MISSING mark acts on a core that waits on the buffer (R207). -/
def State.missWaiter (s : State) (p : Nat) (b : Buf) : State :=
  let c := s.core p
  if c.st ≠ .running then s
  else
    match c.wait with
    | .token x _ _ =>
      if x = b then s.coreFault p scUncorr 0x100C false c.waitStm [] else s
    | .deadline x _ _ target =>
      if x = b then (s.endWait p).missBranch p b c.waitStm target else s
    | _ => s

/-- The cores that may wait on a buffer named by core `p`. -/
def State.bufCores (s : State) (p : Nat) : Buf → List Nat
  | .stall _ => [p]
  | .depot _ _ => s.cores.map Prod.fst

/-- A buffer receives a MISSING mark, which acts at once on cores that wait on it (R207). -/
def State.markMissing (s : State) (p : Nat) (b : Buf) : State :=
  eachDo (s.bufCores p b) (fun k t => if t.missing p b then t.missWaiter k b else t)
    (s.setMissing p b true)

end Sys2Proof.Machine
end

