-- ==== Sys2Proof/Machine/PorterBase.lean ====
section
/-!
DEFINITION. Riris and the Porters, the sending end: queue pairs, regions, frames, acknowledgements and
failures (R251 to R266, R270, R275 to R280).
-/

namespace Sys2Proof.Machine

/-- The home lantern of a queue pair (R251). -/
def homeOf (q : Nat) : Nat := q % 6

def State.qp (s : State) (q : Nat) : Qp := tabGet {} s.qps q

def State.setQp (s : State) (q : Nat) (x : Qp) : State := { s with qps := tabSet s.qps q x }

def State.modQp (s : State) (q : Nat) (g : Qp → Qp) : State := s.setQp q (g (s.qp q))

def State.porter (s : State) (m : Nat) : Porter := tabGet {} s.porters m

def State.modPorter (s : State) (m : Nat) (g : Porter → Porter) : State :=
  { s with porters := tabSet s.porters m (g (s.porter m)) }

/-- The queue-pair page of partition `p` at lantern `m`. -/
def State.page (s : State) (m p : Nat) : PqPage := tabGet {} s.pages (16 * m + p)

def State.modPage (s : State) (m p : Nat) (g : PqPage → PqPage) : State :=
  { s with pages := tabSet s.pages (16 * m + p) (g (s.page m p)) }

def State.region (s : State) (i : Nat) : Region := tabGet {} s.regions i

def State.modRegion (s : State) (i : Nat) (g : Region → Region) : State :=
  { s with regions := tabSet s.regions i (g (s.region i)) }

/-- Is a queue pair in the partition's range (R251)? -/
def State.ownsQp (s : State) (part q : Nat) : Bool :=
  match (s.part part).cfg with
  | some c => decide (c.qpBase ≤ q) && decide (q < c.qpBase + c.qpCount)
  | none => false

def QpSt.code : QpSt → Nat
  | .free => 0
  | .active => 1
  | .error => 2

/-- Payload bytes per frame (Table 9.1, MTU). -/
def Qp.mtuBytes (x : Qp) : Nat := if x.mtu = 0 then 1024 else if x.mtu = 1 then 4096 else 8192

/-- Units of 256 bytes. -/
def units (n : Nat) : Nat := (n + 255) / 256

/-- The grant not yet used (R259). -/
def Qp.avail (x : Qp) : Nat := (x.tollOut - x.sent).toNat

/-- The grant that the end makes (R259). -/
def Qp.grant (x : Qp) : Word := x.done + x.rxwin.setWidth 32

/-- Bytes 0 to 31 of a context as words (Table 9.1). -/
def Qp.words8 (x : Qp) : List Word :=
  [w32 (x.st.code + 4 * b2n x.pinned + 256 * (x.prio.toNat + 8 * x.mtu.toNat)
      + 65536 * x.owner.toNat + 2 ^ 24 * (x.part.toNat + 16 * x.retryLimit.toNat)),
   w32 (x.peer.toNat + 2 ^ 24 * (x.peerQp.toNat % 256)),
   w32 (x.peerQp.toNat / 256 + 65536 * x.keyslot.toNat + 2 ^ 24 * (x.retries % 32)),
   x.txseq.setWidth 32,
   w32 (x.txseq.toNat / 2 ^ 32 + 2 ^ 24 * x.lastNak.toNat), x.spsn, x.una, x.epsn]

/-- Bytes 0 to 63 of a context (Table 9.1). -/
def Qp.bytes64 (x : Qp) : List Byte :=
  x.words8.flatMap (fun w => leBytes 4 w.toNat)
    ++ leBytes 4 x.tollOut.toNat ++ leBytes 4 x.sent.toNat ++ leBytes 4 x.done.toNat
    ++ leBytes 2 x.rxwin.toNat
    ++ leBytes 2 (x.nbuf.toNat + 256 * x.ndie.toNat + 32768 * b2n x.nvalid)
    ++ List.replicate 16 0

/-- Units of the miss buffer that a frame takes: from destination address through FCS (R268). -/
def frameLen (f : RirisFrame) : Nat := 90 + f.payload.length

/-- PORTER_MISSBUF.USED. -/
def Porter.used (x : Porter) : Nat := (x.parked.map (fun e => units (frameLen e.frame))).foldl (· + ·) 0

/-- The frame fields of a Porter entry (R283), which fill ARG (R448): SRC, SQP, PSN and RKEY. -/
def frameArgs : Option RirisFrame → List Word
  | some g => [g.src.setWidth 32, g.sqp.setWidth 32, g.psn, g.rkey]
  | none => []

/-- A Porter code of queue pair `q` (R283). PORTER_MISSBUF, the ninth snapshot word, is omitted under R448. -/
def State.logQp (s : State) (q code status : Nat) (args : List Word) : State :=
  let x := s.qp q
  s.logAt (.die (12 + homeOf q)) code status (some x.part.toNat) args
    (x.words8 ++ [w32 (s.porter (homeOf q)).used])

/-! Operations of cores on queue pairs. -/

/-- Change operation `id` of core `p`, where it is outstanding. -/
def State.modOp (s : State) (p id : Nat) (g : PorterOp → PorterOp) : State :=
  s.modCore p (fun c => { c with ops := c.ops.map (fun o => if o.id = id then g o else o) })

/-- An operation fails: the first status stays. -/
def State.failOp (s : State) (status : Nat) : OpRef → State
  | .core p id => s.modOp p id (fun o => if o.status = 0 then { o with status := st8 status } else o)
  | .response => s
  | .trace _ _ => s

/-- One frame of an operation is acknowledged (R260, R286). -/
def PorterDo.acked : PorterDo → PorterDo
  | .remote q k n => if k = 2 then .remote q k n else .remote q k (n - 1)
  | .convoy q t c n => .convoy q t c (n - 1)
  | a => a

def State.ackOp (s : State) : OpRef → State
  | .core p id => s.modOp p id (fun o => { o with act := o.act.acked })
  | .response => s
  | .trace _ _ => s

/-- The operation of something still to send. -/
def ToSend.op : ToSend → OpRef
  | .frame _ o => o
  | .resp _ _ _ _ _ _ _ _ => .response
  | .skip _ _ _ => .response

/-- Every operation outstanding on a queue pair completes with a status. -/
def State.failAll (s : State) (q status : Nat) : State :=
  let x := s.qp q
  let s1 := eachDo (x.unacked.map (fun u => u.op) ++ x.queued.map ToSend.op)
    (fun o t => t.failOp status o) s
  eachDo x.reads (fun (r : Reading) t => t.failOp status (.core r.core r.op)) s1

/-- The responses that a queue pair no longer sends leave their regions (R272). -/
def State.dropResp (s : State) (q : Nat) : State :=
  eachDo (s.qp q).queued (fun e t => match e with
    | .resp i _ _ _ _ _ true _ => t.modRegion i (fun r => { r with inflight := r.inflight - 1 })
    | .skip i _ _ => t.modRegion i (fun r => { r with inflight := r.inflight - 1 })
    | _ => t) s

/-- A queue pair stops: what it had to send and to receive is dropped. TXSEQ is kept. -/
def State.qpStop (s : State) (q : Nat) (st : QpSt) : State :=
  (s.dropResp q).modQp q (fun x =>
    { x with st := st, queued := [], unacked := [], reads := [], reserved := 0, busy := false,
             ackDue := false, gapNak := false, behind := [] })

/-- A queue pair enters ERROR (R265, R269, R280): its operations complete with `status`, code 0x210A. -/
def State.qpError (s : State) (q status : Nat) : State :=
  ((s.failAll q status).qpStop q .error).logQp q 0x210A status []

/-! Sending frames. -/

/-- A frame of queue pair `q` with the fields its context gives (Table 9.3). -/
def State.mkFrame (s : State) (q : Nat) (cls : Nat) : RirisFrame :=
  let x := s.qp q
  { cls := BitVec.ofNat 8 cls, ver := 1, first := true, last := true, owner := x.owner, prio := x.prio,
    src := BitVec.ofNat 20 s.coord, dst := x.peer, dqp := x.peerQp, sqp := BitVec.ofNat 20 q, txseq := 0,
    code := 0, psn := 0, rkey := 0, roff := 0, oplen := 0, toll := 0, ackpsn := 0, payload := [], tag := 0 }

/-- A frame leaves the Porter: to a link, or over the causeway when its peer is this module (R231,
R295). -/
def State.ship (s : State) (f : RirisFrame) : State :=
  if f.dst.toNat = s.coord then { s with selfFrames := s.selfFrames ++ [f] }
  else s.sendFrame none false false none (.riris f)

/-- A frame of queue pair `q` leaves the Porter. PORTER_INJECT.DROP discards the next data frame before the
link (R281). -/
def State.shipOf (s : State) (q : Nat) (f : RirisFrame) : State :=
  if f.payload.isEmpty = false ∧ (s.porter (homeOf q)).injDrop then
    s.modPorter (homeOf q) (fun p => { p with injDrop := false })
  else s.ship f

/-- The two ends of a queue pair (R277). -/
def State.ownEnd (s : State) (q : Nat) : Nat := endOf s.coord q

def Qp.peerEnd (x : Qp) : Nat := endOf x.peer.toNat x.peerQp.toNat

/-- The keys under which queue pair `q` sends and receives, of its context's key slot (R277). -/
def State.txKey (s : State) (q : Nat) : BitVec 256 :=
  (s.keySlot (s.qp q).keyslot.toNat).sendKey (s.ownEnd q) (s.qp q).peerEnd

def State.rxKey (s : State) (q : Nat) : BitVec 256 :=
  (s.keySlot (s.qp q).keyslot.toNat).sendKey (s.qp q).peerEnd (s.ownEnd q)

/-- Does a frame's tag verify under the receive key of the queue pair it is addressed to (R277)? -/
def State.tagOk (s : State) (f : RirisFrame) : Bool :=
  let q := f.dqp.toNat
  decide ((s.keySlot (s.qp q).keyslot.toNat).kind = .link) && f.tag == ririsTag (s.rxKey q) f

/-- TXSEQ, TOLL and ACKPSN of a frame sent now (R259, R262, R278). -/
def Qp.stamp (x : Qp) (f : RirisFrame) : RirisFrame :=
  { f with txseq := x.txseq, toll := x.grant, ackpsn := x.epsn }

/-- TXSEQ has reached 2^56 − 1 (R280). -/
def State.checkTxseq (s : State) (q : Nat) : State :=
  if (s.qp q).txseq = BitVec.allOnes 56 then
    (s.logQp q 0x210B scIllegal []).qpError q scIllegal
  else s

/-- Send an ACK or NAK (R262): never acknowledged. -/
def State.sendUnseq (s : State) (q : Nat) (f : RirisFrame) : State :=
  let x := s.qp q
  let g := protectFrame (x.stamp f) (s.txKey q)
  ((s.setQp q { x with txseq := x.txseq + 1, used := s.now }).shipOf q g).checkTxseq q

/-- An ACK with ACKPSN = EPSN and the current grant (R262): none is due any more. -/
def State.sendAck (s : State) (q : Nat) : State :=
  (s.modQp q (fun x => { x with ackDue := false })).sendUnseq q { s.mkFrame q 6 with psn := (s.qp q).epsn }

/-- A NAK of a code at a PSN (R264). -/
def State.sendNak (s : State) (q : Nat) (code : Nat) (psn : Word) (oplen : Nat) : State :=
  s.sendUnseq q { s.mkFrame q 7 with code := st8 code, psn := psn, oplen := w32 oplen }

/-- Give a frame its PSN and send it, protected (R262, R277). -/
def State.sendSeq (s : State) (q : Nat) (f : RirisFrame) (op : OpRef) : State :=
  let x := s.qp q
  let u := units f.payload.length
  let g := protectFrame { x.stamp f with psn := x.spsn } (s.txKey q)
  let x1 := { x with
    spsn := x.spsn + 1, sent := x.sent + w32 u, txseq := x.txseq + 1, used := s.now,
    unacked := x.unacked ++ [{ frame := g, op := op }],
    reserved := match op with
      | .core _ _ => x.reserved - u
      | _ => x.reserved }
  let s1 := s.setQp q x1
  let s2 := match op with
    | .core p _ => s1.tallyAdd p tlTXREMOTE f.payload.length
    | _ => s1
  (s2.shipOf q g).checkTxseq q

/-- Payload bytes of something to send. -/
def ToSend.len : ToSend → Nat
  | .frame f _ => f.payload.length
  | .resp _ _ _ n _ _ _ _ => n
  | .skip _ _ _ => 0

/-- Does an entry of the queue go on with the response of a region that an earlier entry began? -/
def ToSend.goesOn (i : Nat) : ToSend → Bool
  | .resp j _ _ _ _ first _ _ => i == j && !first
  | _ => false

/-- Does an entry of the queue belong to a response of a region? -/
def ToSend.ofRegion (i : Nat) : ToSend → Bool
  | .resp j _ _ _ _ _ _ _ => i == j
  | _ => false

/-- Send the entry at the head of the queue. A response reads its data now (R272, R273); an
uncorrectable word ends the response with NAK UNCORRECTABLE (R264). -/
def State.sendHead (s : State) (q : Nat) (e : ToSend) (rest : List ToSend) : State :=
  let s0 := s.modQp q (fun x => { x with queued := rest })
  match e with
  | .frame f op => s0.sendSeq q f op
  | .resp i _ roff n oplen first last rkey =>
    let a := (s.region i).base + roff
    if s0.uncorrIn 0 [(a, n)] || (s0.failedIn [(a, n)]).isSome then
      let more := (rest.takeWhile (ToSend.goesOn i)).length
      let s1 := ((s0.touchRead 0 [(a, n)]).modRegion i (fun r => { r with inflight := r.inflight - 1 })).modQp
        q (fun x => { x with queued := rest.drop more })
      (s1.sendNak q 4 (s1.qp q).spsn (more + 1)).modQp q
        (fun x => { x with spsn := x.spsn + w32 (more + 1) })
    else
      let s1 := s0.touchRead 0 [(a, n)]
      let s2 := if last then s1.modRegion i (fun r => { r with inflight := r.inflight - 1 }) else s1
      s2.sendSeq q { s2.mkFrame q 4 with
        first := first, last := last, rkey := rkey, roff := BitVec.ofNat 48 roff, oplen := w32 oplen,
        payload := s0.bytesAt 0 a n } .response
  | .skip i n code =>
    let s1 := s0.modRegion i (fun r => { r with inflight := r.inflight - 1 })
    (s1.sendNak q code.toNat (s1.qp q).spsn n).modQp q (fun x => { x with spsn := x.spsn + w32 n })

/-- Send what the grant allows (R259), at most `n` entries. -/
def State.pump (s : State) (q : Nat) : Nat → State
  | 0 => s
  | n + 1 =>
    let x := s.qp q
    match x.queued with
    | [] => s
    | e :: rest =>
      if x.st = .active ∧ x.busy = false ∧ units e.len ≤ x.avail then
        (s.sendHead q e rest).pump q n
      else s

/-- Send everything that may be sent now. -/
def State.pumpQp (s : State) (q : Nat) : State := s.pump q (s.qp q).queued.length

/-- Queue frames of an operation and send what may be sent. -/
def State.queueSend (s : State) (q : Nat) (l : List ToSend) : State :=
  (s.modQp q (fun x => { x with queued := x.queued ++ l })).pumpQp q

/-- Send unacknowledged frames again, oldest first, byte for byte, and count them (R263). -/
def State.resend (s : State) (q : Nat) (l : List Unacked) : State :=
  (eachDo l (fun u t => t.shipOf q u.frame) s).modPorter (homeOf q) (fun p => { p with retx := p.retx + w64 l.length })

/-! Receiving acknowledgements and grants. -/

/-- A received TOLL (R259). -/
def Qp.takeToll (x : Qp) (t : Word) : Qp :=
  let d := (t - x.tollOut).toNat
  if 1 ≤ d ∧ d < 2 ^ 31 then { x with tollOut := t } else x

/-- Is PSN `a` before `b`, within 2^31? -/
def psnBefore (a b : Word) : Bool := decide (1 ≤ (b - a).toNat) && decide ((b - a).toNat < 2 ^ 31)

/-- A received ACKPSN (R260, R263): frames below it are acknowledged, UNA advances, RETRIES := 0. -/
def State.takeAck (s : State) (q : Nat) (ack : Word) : State :=
  let x := s.qp q
  if psnBefore x.una ack ∧ (ack - x.una).toNat ≤ (x.spsn - x.una).toNat then
    let gone := x.unacked.filter (fun u => psnBefore u.frame.psn ack)
    let left := x.unacked.filter (fun u => !psnBefore u.frame.psn ack)
    eachDo gone (fun u t => t.ackOp u.op) (s.setQp q { x with una := ack, retries := 0, unacked := left })
  else s

/-- The grant and acknowledgement that every authenticated frame carries, and what they let be sent. -/
def State.takeHeader (s : State) (q : Nat) (f : RirisFrame) : State :=
  ((s.modQp q (fun x => { x.takeToll f.toll with used := s.now })).takeAck q f.ackpsn).pumpQp q

/-- Retries are exhausted (R265): codes 0x2104 and 0x210A. -/
def State.qpExhaust (s : State) (q status : Nat) : State :=
  ((s.modPorter (homeOf q) (fun p => { p with timeouts := p.timeouts + 1 })).logQp q 0x2104 status
    []).qpError q status

/-- The retry timer expires (R263). -/
def State.qpExpire (s : State) (q : Nat) : State :=
  let x := s.qp q
  if x.busy then
    ((s.setQp q { x with busy := false }).resend q
      (x.unacked.filter (fun u => !psnBefore u.frame.psn x.busyPsn))).pumpQp q
  else if x.retryLimit.toNat < x.retries + 1 then
    (s.setQp q { x with retries := x.retries + 1 }).qpExhaust q scTimeout
  else (s.setQp q { x with retries := x.retries + 1 }).resend q x.unacked

/-- A NAK CONTEXT_BUSY stands as a timer expiry (R264, R265): sending stops until the timer ends. -/
def State.qpBusy (s : State) (q : Nat) (psn : Word) : State :=
  let x := s.qp q
  if x.retryLimit.toNat < x.retries + 1 then
    (s.setQp q { x with retries := x.retries + 1 }).qpExhaust q scBusy
  else s.setQp q { x with retries := x.retries + 1, busy := true, busyPsn := psn }

/-! Regions. -/

/-- RIGHTS bit that a class needs (R270). -/
def rightOf (cls : Nat) : Nat := if cls = 1 ∨ cls = 2 then 0 else if cls = 3 then 1 else 2

/-- Is a frame of class `cls` to queue pair `q` admitted to [ROFF, ROFF + n) of its region (R270)? -/
def State.regionAdmits (s : State) (q cls : Nat) (rkey : Word) (roff n : Nat) : Bool :=
  let x := s.qp q
  let r := s.region (rkey.toNat % 4096)
  r.st == .valid && r.tag.toNat == rkey.toNat / 4096 && r.part == x.part && r.keyslot == x.keyslot
    && r.rights.getLsbD (rightOf cls) && decide (roff + n ≤ r.size)
    && s.admitted r.part.toNat false (cls != 3) (r.base + roff) n

/-- SRC, SQP, RKEY, ROFF and CLASS of a refused frame in the 16 bytes of ARG (R275, log entry 78): 20, 20, 32, 48
and 8 bits from bit 0 up. -/
def refusedArgs (f : RirisFrame) : List Word :=
  let v := f.src.toNat + f.sqp.toNat * 2 ^ 20 + f.rkey.toNat * 2 ^ 40 + f.roff.toNat * 2 ^ 72 + f.cls.toNat * 2 ^ 120
  (List.range 4).map (fun i => w32 (v / 2 ^ (32 * i)))

/-- A refusal at the target is reported (R275): counters, code 0x2105, events. -/
def State.reportViolation (s : State) (q : Nat) (f : RirisFrame) : State :=
  let p := (s.qp q).part.toNat
  let s1 := (s.modPorter (homeOf q) (fun x => { x with viol := x.viol + 1 })).modPage (homeOf q) p
    (fun x => { x with event := satAdd x.event 1 })
  let s2 := s1.logQp q 0x2105 scAccess (refusedArgs f)
  s2.event 0x2105 scAccess (some p) 0

/-- A frame is consumed: EPSN moves past it and DONE counts its payload (R259, R262, R264). -/
def Qp.consume (x : Qp) (f : RirisFrame) : Qp :=
  { x with epsn := x.epsn + 1, done := x.done + w32 (units f.payload.length), gapNak := false }

/-- The answer to a frame that was consumed: a NAK of `code` unless it is 0, and an ACK at once when the
frame is marked LAST, otherwise within 1 µs (R262). -/
def State.answer (s : State) (q : Nat) (f : RirisFrame) (code : Nat) : State :=
  let s1 := if code = 0 then s else s.sendNak q code f.psn 0
  if f.last then s1.sendAck q else s1.modQp q (fun x => { x with ackDue := true })

/-- Add one token to a depot buffer of a partition's loaded itinerary (R261): the NAK code, 0 when it is
posted. -/
def State.postDepot (s : State) (part die num : Nat) : State × Nat :=
  match (s.die die).dbufs.find? (fun e => e.1 == num && e.2.owner == part) with
  | none => (s, 3)
  | some e =>
    if e.2.tok.toNat + 1 ≤ 255 then
      (s.modDie die (fun d => d.modBuf num (fun b => { b with tok := b.tok + 1 })), 0)
    else (s, 6)

end Sys2Proof.Machine
end

