-- ==== Sys2Proof/Machine/ConvoyBase.lean ====
section
/-!
DEFINITION. Convoys and counting houses: registers, log entries, the add queues, epochs (R288, R297,
R302 to R304, R311, R312).
-/

namespace Sys2Proof.Machine

def State.convoy (s : State) (p : Nat) : Convoy := tabGet {} s.convoys p

def State.modConvoy (s : State) (p : Nat) (g : Convoy → Convoy) : State :=
  { s with convoys := tabSet s.convoys p (g (s.convoy p)) }

def Convoy.bucket (c : Convoy) (b : Nat) : Bkt := tabGet {} c.buckets b

def Convoy.modBucket (c : Convoy) (b : Nat) (g : Bkt → Bkt) : Convoy :=
  { c with buckets := tabSet c.buckets b (g (c.bucket b)) }

/-- OPEN buckets (Table 10.9). -/
def Convoy.openCount (c : Convoy) : Nat := (c.buckets.filter (fun e => decide (e.2.st = .opened))).length

def BktSt.code : BktSt → Nat
  | .free => 0
  | .opened => 1
  | .retired => 2

/-- The peek registers for bucket `b` (Table 10.9). -/
def Convoy.peekWords (c : Convoy) (b : Nat) : List Word :=
  let k := c.bucket b
  [w32 b, w32 (k.st.code + 4 * k.epoch.toNat + 64 * b2n k.ovf), k.step,
   w32 (k.contrib.toNat + 2 ^ 24 * k.guard.toNat)] ++ w64words (w64 k.count) ++ [k.exp.setWidth 32]

/-- A convoy code (R316) of bucket `b` of partition `p` for a frame: SRC, SQP, PSN, TAG and RCOUNT fill ARG, and STEP
follows the seven peek words (log entry 78). -/
def State.logConvoy (s : State) (p b code status : Nat) (f : Option RirisFrame) : State :=
  let peek := (s.convoy p).peekWords b
  match f with
  | some g =>
    s.logAt (.die (12 + b % 6)) code status (some p)
      [g.src.setWidth 32, g.sqp.setWidth 32, g.psn, w32 (netNat g.payload 0 2 + 65536 * netNat g.payload 12 2)]
      (peek ++ [w32 (netNat g.payload 2 4)])
  | none => s.logAt (.die (12 + b % 6)) code status (some p) [] peek

/-- May a switch name this epoch and milestone (R309): the next epoch, and a valid job-wide object of the partition? -/
def State.switchOk (s : State) (p : Nat) (new : BitVec 4) (mid : BitVec 16) : Bool :=
  new == (s.convoy p).epoch + 1
    && (s.part p).ms.objs.any (fun e => e.2.valid && e.2.jobwide && e.2.mid == mid)

/-- A write of the switch registers is discarded (R309): code 0x2210. -/
def State.switchDiscard (s : State) (p : Nat) : State :=
  s.logConvoy p (s.convoy p).peekIdx.toNat 0x2210 scIllegal none

/-- CH_STAT (Table 10.8). -/
def House.statWord (h : House) : Word :=
  w32 (h.coreFree / 256 + 2048 * (h.porterFree / 256) + 2 ^ 20 * b2n (!h.queue.isEmpty))

/-- A counting-house code (R316). -/
def State.logHouse (s : State) (n code status : Nat) (part : Option Nat) (a : Nat) : State :=
  s.logAt (.die n) code status part (addrWords a) ((s.house n).statWord :: addrWords a)

/-- The stack, and so the counting house, of an HBM address. -/
def State.stackAt (s : State) (a : Nat) : Nat :=
  match s.mem.hbmKey a with
  | some k => k / 2 ^ 36
  | none => 0

/-- Put adds into the queues of their counting houses, in order (R303). -/
def State.queueAdds (s : State) (src : AddSrc) (l : List (Nat × BitVec 72)) : State :=
  eachDo l (fun e t => t.modHouse (t.stackAt e.1) (fun h =>
    { h with queue := h.queue ++ [{ addr := e.1, value := e.2, src := src }] })) s

/-- Bytes of a list of elements on stack `n` (R302). -/
def State.bytesOn (s : State) (n : Nat) (l : List (Nat × BitVec 72)) : Nat :=
  12 * (l.filter (fun e => s.stackAt e.1 == n)).length

/-- Do a frame's adds fit in the Porter shares of their counting houses (R302)? -/
def State.porterRoom (s : State) (l : List (Nat × BitVec 72)) : Bool :=
  (List.range 12).all (fun n => decide (s.bytesOn n l ≤ (s.house n).porterFree))

/-- Issue the adds of frame `f` (R302). -/
def State.issueFrame (s : State) (f : PendFrame) : State :=
  let s1 := eachDo (List.range 12) (fun n t => t.modHouse n (fun h =>
    { h with porterFree := h.porterFree - s.bytesOn n f.adds })) s
  s1.queueAdds (.frame f.id) f.adds

/-- Issue the adds of the frames that wait and now fit, in order. -/
def State.issueWaiting (s : State) : State :=
  eachDo s.pendFrames (fun f t =>
    if !f.issued && t.porterRoom f.adds then
      let l := t.pendFrames.map (fun g => if g.id = f.id then { g with issued := true } else g)
      { (t.issueFrame f) with pendFrames := l }
    else t) s

/-- The 72-bit integer in a T72 container's bytes (R35). -/
def t72Of (bs : List Byte) : BitVec 72 := BitVec.ofNat 72 (leNat (bs.take 9))

/-- The 12 bytes of a T72 container: bits [95:72] copy bit 71 (R35). -/
def t72Bytes (v : BitVec 72) : List Byte := leBytes 12 (v.signExtend 96).toNat

/-- The module takes the new layout epoch (R311): code 0x2205. -/
def State.takeEpoch (s : State) (p : Nat) : State :=
  (s.modConvoy p (fun c =>
    { c with epoch := c.switchNew, armed := false, sentUp := false })).logConvoy p 0 0x2205 scOk none

end Sys2Proof.Machine
end

