-- ==== Sys2Proof/Machine/Sign.lean ====
section
/-!
DEFINITION. Signed objects and the module's keys: trailers (R371, R372), the keys of Table 13.4, the module's
identity and certificates (R373, R374, R379), and X25519 (R385).
-/

namespace Sys2Proof.Machine

/-- The ASCII bytes of a text. -/
def ascii (t : String) : List Byte := t.toList.map (fun c => BitVec.ofNat 8 c.toNat)

/-- Bytes of a digest, byte 0 lowest. -/
def digestBytes (d : BitVec 384) : List Byte := leBytes 48 d.toNat

/-! Trailers. -/

/-- Bytes of a trailer (R371). -/
def trailerLen : Nat := 5368

/-- The public keys of a signer as a digest takes them: ED_PK, then MLDSA_PK. -/
def keyBytes (ed : BitVec 256) (mldsa : BitVec 15616) : List Byte := leBytes 32 ed.toNat ++ leBytes 1952 mldsa.toNat

/-- The key hash of a trailer (R372). -/
def trailerKey (t : Trailer) : BitVec 384 := Config.sha384 (keyBytes t.edPk t.mldsaPk)

/-- The Plovda firmware key hash in the fuses (Table 13.3). -/
def fwAnchor : BitVec 384 := Config.sha384 (keyBytes Config.fwEdKey Config.fwMldsaKey)

/-- The signed message M (R372). -/
def signedMessage (typ : Nat) (body : List Byte) : List Byte :=
  ascii "CT25-SIG2" ++ leBytes 4 typ ++ digestBytes (Config.sha384 body)

/-- Does a trailer pass R371 and R372 for a TYPE, an anchor and the body before it? -/
def trailerOk (t : Trailer) (typ : Nat) (anchor : BitVec 384) (body : List Byte) : Bool :=
  let m := signedMessage typ body
  t.magic == 0x32474953 && t.typ.toNat == typ && t.zeros == 0 && trailerKey t == anchor
    && t.edS == Config.edCheck t.edPk m t.edR && t.mldsaC == Config.mldsaCheck t.mldsaPk m t.mldsaZ

/-- The trailer that a signer with these private keys puts after a body. -/
def signTrailer (ed mldsa : BitVec 256) (typ : Nat) (body : List Byte) : Trailer :=
  let m := signedMessage typ body
  let pk := Config.edPublic ed
  let mpk := Config.mldsaPublic mldsa
  { magic := 0x32474953, typ := w32 typ, edPk := pk, mldsaPk := mpk, edR := Config.edNonce ed m,
    edS := Config.edCheck pk m (Config.edNonce ed m),
    mldsaC := Config.mldsaCheck mpk m (Config.mldsaNonce mldsa m), mldsaZ := Config.mldsaNonce mldsa m, zeros := 0 }

/-- The bytes of a trailer (Table 13.2). -/
def trailerBytes (t : Trailer) : List Byte :=
  leBytes 4 t.magic.toNat ++ leBytes 4 t.typ.toNat ++ keyBytes t.edPk t.mldsaPk ++ leBytes 32 t.edR.toNat
    ++ leBytes 32 t.edS.toNat ++ leBytes 48 t.mldsaC.toNat ++ leBytes 3261 t.mldsaZ.toNat ++ leBytes 3 t.zeros.toNat

/-- A pure Ed25519 signature on a message (RFC 8032). -/
def edSign (sk : BitVec 256) (m : List Byte) : List Byte :=
  leBytes 32 (Config.edNonce sk m).toNat
    ++ leBytes 32 (Config.edCheck (Config.edPublic sk) m (Config.edNonce sk m)).toNat

/-! Derived keys (Table 13.4). -/

/-- A key derived from UDS with an empty salt. -/
def fromUds (info : String) : BitVec 256 := Config.hkdf384 (leBytes 32 Config.uds.toNat) [] (ascii info)

def deviceEd : BitVec 256 := fromUds "CT25-ID-ED"

def deviceMldsa : BitVec 256 := fromUds "CT25-ID-MLDSA"

/-- The anchor integrity key. -/
def anchorKey : BitVec 256 := fromUds "CT25-ANCHOR"

/-- CDI of an image: of FWM and the image's SVN. -/
def cdiOf (fwm : BitVec 384) (svn : Byte) : BitVec 256 :=
  Config.hkdf384 (leBytes 32 Config.uds.toNat) (digestBytes fwm) (ascii "CT25-CDI1" ++ [svn])

/-- A key derived from the CDI of this boot. -/
def Customs.fromCdi (c : Customs) (info : String) : BitVec 256 :=
  Config.hkdf384 (leBytes 32 (c.cdi.getD 0).toNat) [] (ascii info)

def Customs.aliasEd (c : Customs) : BitVec 256 := c.fromCdi "CT25-AL-ED"

def Customs.aliasMldsa (c : Customs) : BitVec 256 := c.fromCdi "CT25-AL-MLDSA"

/-- The module's identity (R379): SHA-384 of its DeviceID public keys. -/
def deviceId : BitVec 384 := Config.sha384 (keyBytes (Config.edPublic deviceEd) (Config.mldsaPublic deviceMldsa))

/-- The HMAC of an operator anchor (R378). -/
def anchorMac (a : BitVec 384) : BitVec 384 := Config.hmac384 anchorKey (digestBytes a)

/-- The anchor that SPI NOR holds; one whose HMAC fails is treated as absent (R378). -/
def anchorOf (x : Option (BitVec 384 × BitVec 384)) : Option (BitVec 384) :=
  match x with
  | some (a, h) => if h = anchorMac a then some a else none
  | none => none

/-- The SVN of an image, byte 6 of its header (R426). -/
def imageSvn (i : FwImage) : Byte := i.body.getD 6 0

/-! Certificates (R374, Table 13.6). -/

/-- The Alias certificate, signed with the DeviceID Ed25519 key: of the Alias public keys and FWM. -/
def Customs.aliasCert (c : Customs) : List Byte :=
  let tbs := Config.aliasTbs (keyBytes (Config.edPublic c.aliasEd) (Config.mldsaPublic c.aliasMldsa) ++ digestBytes c.fwm)
  Config.aliasCert tbs (edSign deviceEd tbs)

/-- The chain of slot 0. -/
def Customs.chain (c : Customs) : List Byte := Config.plovdaCerts ++ Config.deviceCert ++ c.aliasCert

/-- The trailers of TYPE 2 over the DER of the DeviceID and Alias certificates (Table 13.7, block 0xFE), under the
DeviceID keys (Table 13.3). -/
def Customs.certTrailers (c : Customs) : List Byte :=
  trailerBytes (signTrailer deviceEd deviceMldsa 2 Config.deviceCert)
    ++ trailerBytes (signTrailer deviceEd deviceMldsa 2 c.aliasCert)

/-! X25519 (RFC 7748, which R385 names; PRESUMED in its detail, log entry 6). -/

/-- The prime of the field. -/
def p25519 : Nat := 2 ^ 255 - 19

/-- The points (x2 : z2) and (x3 : z3) of the Montgomery ladder. -/
structure Ladder where
  x2 : Nat
  z2 : Nat
  x3 : Nat
  z3 : Nat
  deriving DecidableEq, Repr

def subMod (a b : Nat) : Nat := (a + (p25519 - b % p25519)) % p25519

def Ladder.swap (l : Ladder) (b : Bool) : Ladder :=
  if b then { x2 := l.x3, z2 := l.z3, x3 := l.x2, z3 := l.z2 } else l

/-- One doubling and one differential addition for the point with u-coordinate `u`. -/
def Ladder.step (l : Ladder) (u : Nat) : Ladder :=
  let aa := (l.x2 + l.z2) * (l.x2 + l.z2) % p25519
  let bb := subMod l.x2 l.z2 * subMod l.x2 l.z2 % p25519
  let e := subMod aa bb
  let da := subMod l.x3 l.z3 * (l.x2 + l.z2) % p25519
  let cb := (l.x3 + l.z3) * subMod l.x2 l.z2 % p25519
  { x2 := aa * bb % p25519, z2 := e * (aa + 121665 * e) % p25519,
    x3 := (da + cb) * (da + cb) % p25519, z3 := u * (subMod da cb * subMod da cb % p25519) % p25519 }

/-- The ladder over bits n − 1 to 0 of a scalar. -/
def ladder (u k : Nat) : Nat → Ladder → Ladder
  | 0, l => l
  | n + 1, l => ladder u k n (((l.swap (k.testBit n)).step u).swap (k.testBit n))

/-- x to a power modulo the prime, by bits n − 1 to 0 of the exponent. -/
def powMod (x e : Nat) : Nat → Nat → Nat
  | 0, acc => acc
  | n + 1, acc => powMod x e n (acc * acc % p25519 * (if e.testBit n then x else 1) % p25519)

/-- A scalar with the bits that RFC 7748 clears and sets. -/
def clampScalar (k : Nat) : Nat := k % 2 ^ 254 / 8 * 8 + 2 ^ 254

def x25519 (k u : BitVec 256) : BitVec 256 :=
  let x := u.toNat % 2 ^ 255 % p25519
  let l := ladder x (clampScalar k.toNat) 255 { x2 := 1, z2 := 0, x3 := x, z3 := 1 }
  BitVec.ofNat 256 (l.x2 * powMod l.z2 (p25519 - 2) 255 1 % p25519)

end Sys2Proof.Machine
end

