-- ==== Sys2Proof/Machine/CusBase.lean ====
section
/-!
DEFINITION. Customs: registers, log entries and key slots (R378, R383, R387, R399 to R401).
-/

namespace Sys2Proof.Machine

def State.cus (s : State) (p : Nat) : CusPart := tabGet {} s.cusParts p

def State.modCus (s : State) (p : Nat) (g : CusPart → CusPart) : State :=
  { s with cusParts := tabSet s.cusParts p (g (s.cus p)) }

def State.setKeySlot (s : State) (i : Nat) (k : KeySlot) : State :=
  { s with customs := { s.customs with slots := tabSet s.customs.slots i k } }

def SlotKind.code : SlotKind → Nat
  | .empty => 0
  | .link => 1
  | .host => 2
  | .weight => 3

/-- CUS_STAT (Table 13.14). -/
def Customs.statWord (c : Customs) : Word :=
  w32 (b2n c.fwOk + 2 * b2n c.recovery + 4 * b2n c.anchor.isSome + 8 * b2n c.scrubbing
    + 256 * c.fwSvn.toNat + 65536 * c.fuseSvn)

/-- CUSP_STAT (Table 13.15). -/
def CusPart.statWord (c : CusPart) : Word :=
  w32 (b2n c.record.isSome + 2 * b2n c.protected_ + 4 * b2n c.clean)

/-- A Customs code (R401). -/
def State.logCus (s : State) (code status : Nat) (part : Option Nat) (args : List Word) : State :=
  let pw := match part with
    | some p => [(s.cus p).statWord, (s.cus p).status.setWidth 32]
    | none => []
  s.logAt .serai code status part args
    ([s.customs.statWord, s.customs.status.setWidth 32] ++ pw)

/-- Does a queue pair that is not FREE, or a region that is not INVALID, name the slot (R387)? -/
def State.slotRef (s : State) (i : Nat) : Bool :=
  s.qps.any (fun e => decide (e.2.st ≠ .free) && e.2.keyslot.toNat == i)
    || s.regions.any (fun e => decide (e.2.st ≠ .invalid) && e.2.keyslot.toNat == i)

/-- A slot is emptied (R387): code 0x0208. -/
def State.emptySlot (s : State) (p i : Nat) : State :=
  (s.setKeySlot i {}).logCus 0x0208 scOk (some p) [w32 i]

/-- The key slots of a partition (R383). -/
def State.slotsOf (s : State) (p : Nat) : List Nat :=
  match (s.part p).cfg with
  | some c => (List.range c.keyCount).map (c.keyBase + ·)
  | none => []

/-- Is a slot in the partition's range and does it hold a pair of LINK keys (R253, R271, R383)? -/
def State.linkSlot (s : State) (p i : Nat) : Bool :=
  (s.slotsOf p).contains i && decide ((s.keySlot i).kind = .link)

/-- What a context switch does to a partition's keys in its clear phase (R387). -/
def State.clearKeys (s : State) (p : Nat) : State :=
  let s1 := eachDo ((s.slotsOf p).filter (fun i => decide ((s.keySlot i).kind ≠ .empty)))
    (fun i t => t.emptySlot p i) s
  s1.modCus p (fun c => { c with record := none, protected_ := false })

/-- The bytes of a key record (Table 13.8); the public X25519 key is that of the base point, 9. -/
def KeyRecord.bytes (r : KeyRecord) : List Byte :=
  leBytes 4 0x52434B4A ++ [r.part, r.ctx, 0, 0] ++ leBytes 4 r.epoch.toNat
    ++ leBytes 32 r.digest.toNat ++ leBytes 16 r.random.toNat
    ++ leBytes 32 (x25519 r.skX 9).toNat ++ leBytes 1568 (Config.mlkemPublic r.dk).toNat ++ [0, 0, 0, 0]

/-- The hash that a blob names a record by (Table 13.9). -/
def KeyRecord.hash (r : KeyRecord) : BitVec 384 := Config.sha384 r.bytes

/-- A value of `64 n` bits from Customs' random-number generator: free values, the first lowest. -/
def State.random (s : State) : Nat → State × Nat
  | 0 => (s, 0)
  | n + 1 =>
    let r := s.useFree.random n
    (r.1, s.freeVal.toNat + 2 ^ 64 * r.2)

/-- A fresh pair of cistern keys (R390). -/
def State.freshCisKeys (s : State) (p : Nat) : State :=
  let a := s.random 4
  let b := a.1.random 4
  b.1.modCus p (fun c => { c with cisKeys := some (BitVec.ofNat 256 a.2, BitVec.ofNat 256 b.2) })

/-- The module's pair in force: digest and epoch, zero without a manifest. -/
def State.pair (s : State) : BitVec 256 × Word :=
  match s.mod.inForce with
  | some m => (m.digest, m.epoch)
  | none => (0, 0)

/-- CLEAN is cleared (R395). -/
def State.unclean (s : State) (p : Nat) : State :=
  if (s.cus p).clean then s.modCus p (fun c => { c with clean := false }) else s

end Sys2Proof.Machine
end

