-- ==== Sys2Proof/Machine/TallyOps.lean ====
section
/-!
DEFINITION. Module totals, samples and their marks (R437 to R441).
-/

namespace Sys2Proof.Machine

/-- Add a core's increments of tally `i` since the last addition to the module total (R441); a total that
wraps writes code 0x0151. -/
def State.totalAdd (s : State) (p i : Nat) : State :=
  let c := s.core p
  let d := tabGet 0 c.tally i - tabGet 0 c.tallyAdded i
  let t := tabGet 0 s.totals i
  let s1 := { s with totals := tabPut 0 s.totals i (t + d) }
  if 2 ^ 80 ≤ t.toNat + d.toNat then s1.logAt .serai 0x0151 scOk none [w32 i] [] else s1

/-- Add all increments of a core to the module totals. -/
def State.totalsAdd (s : State) (p : Nat) : State :=
  (eachDo (List.range 32) (fun i t => t.totalAdd p i) s).modCore p
    (fun c => { c with tallyAdded := c.tally })

/-- Set a core's tallies to zero, after adding them to the totals (R438, R441). -/
def State.clearTallies (s : State) (p : Nat) : State :=
  (s.totalsAdd p).modCore p (fun c => { c with tally := [], tallyAdded := [] })

end Sys2Proof.Machine
end

