-- ==== Sys2Proof/Machine/MsBase.lean ====
section
/-!
DEFINITION. Milestones: objects and trees, messages towards the root and down from it, waiters, holds and
abandonment (R171 to R185, R327).
-/

namespace Sys2Proof.Machine

def Milestones.obj (m : Milestones) (o : Nat) : MsObj := tabGet {} m.objs o

def Milestones.node (m : Milestones) (l : Nat) : MsNode := tabGet {} m.nodes l

def Milestones.group (m : Milestones) (g : Nat) : BitVec 256 := tabGet 0 m.groups g

def State.ms (s : State) (q : Nat) : Milestones := (s.part q).ms

def State.obj (s : State) (q o : Nat) : MsObj := (s.ms q).obj o

def State.modObj (s : State) (q o : Nat) (g : MsObj → MsObj) : State :=
  s.modMs q (fun m => { m with objs := tabSet m.objs o (g (m.obj o)) })

/-- The logical cores of an object's group (R171). -/
def Milestones.coresOf (m : Milestones) (o : Nat) : List Nat :=
  let g := m.group (m.obj o).group.toNat
  (List.range 240).filter (fun l => g.getLsbD l)

/-- The valid object that a MID names (R172). -/
def Milestones.find (m : Milestones) (mid : BitVec 16) : Option Nat :=
  (List.range 256).find? (fun o => (m.obj o).valid && (m.obj o).mid == mid)

/-- The levels whose node this module hosts, in ascending order (R174). -/
def Milestones.hosted (m : Milestones) : List Nat :=
  [1, 2, 3, 4, 5, 6].filter (fun l => (m.node l).host)

/-- A job that completes on this module: MS_NODE[1].TOP is 1 and CHILDREN 1 (R174). -/
def Milestones.localJob (m : Milestones) : Bool := (m.node 1).top && (m.node 1).children == 1

/-- Is the root of the job's tree here? A partition of JOB 0 forms a job of its own (R159). -/
def Milestones.rootHere (m : Milestones) : Bool :=
  m.localJob || m.jobId == 0 || m.hosted.any (fun l => (m.node l).top)

/-- The module that hosts the next node above this module's highest (R174). -/
def Milestones.parent (m : Milestones) : BitVec 20 :=
  (m.node ((m.hosted.getLast?.getD 0) + 1)).target

/-- Does the partition own a valid object or host a node counter (R183)? -/
def Milestones.owns (m : Milestones) : Bool :=
  m.objs.any (fun e => e.2.valid) || !m.hosted.isEmpty

/-- The children of the level-l node hosted here, in ascending order of coordinate: the run of dimension
l − 1 whose home is this module (R327). -/
def State.childCoords (s : State) (q l : Nat) : List Nat :=
  let n := ((s.ms q).node l).children.toNat
  let d := l - 1
  let e := max 1 (s.extent d)
  let lo := (dimOf d s.coord + e * 32 - n / 2) % e
  let run := (List.range n).map (fun i => setDim d ((lo + i) % e) s.coord)
  (run.mergeSort (fun a b => decide (a ≤ b)))

/-- The level of a child: its coordinate differs from the host's only in dimension l − 1 (R327). -/
def State.childLevel (s : State) (src : Nat) : Nat :=
  match ([5, 4, 3, 2, 1, 0] : List Nat).find? (fun d => dimOf d src != dimOf d s.coord) with
  | some d => d + 1
  | none => 1

/-- The partitions of the module that are of one job with `q` (R159). -/
def State.jobParts (s : State) (q : Nat) : List Nat :=
  let j := (s.ms q).jobId
  if j = 0 then [q]
  else (List.range 16).filter (fun r => r == q || ((s.part r).cfg.isSome && (s.ms r).jobId == j))

/-- A message of partition `q` (R175). -/
def State.msMsg (s : State) (q : Nat) (kind : MsKind) (mid gen : BitVec 16) (status : Nat) : MsMsg :=
  let m := s.ms q
  { src := BitVec.ofNat 20 s.coord, dst := 0, job := m.jobId, mid := mid, gen := gen, ctx := m.ctx,
    kind := kind, rcount := m.rcount, status := st8 status, foldDigest := 0, foldEpoch := 0,
    foldMod := 0, mismatch := false }

/-- Send a message up the job's tree. -/
def State.msUp (s : State) (q : Nat) (m : MsMsg) : State :=
  s.sendMsg { m with src := BitVec.ofNat 20 s.coord, dst := (s.ms q).parent }

/-- Send a message to the children of every node that this module hosts for the job. -/
def State.msDown (s : State) (q : Nat) (m : MsMsg) : State :=
  let dsts := (s.ms q).hosted.flatMap (fun l => (s.childCoords q l).filter (· != s.coord))
  eachDo dsts (fun d t =>
    t.sendMsg { m with src := BitVec.ofNat 20 s.coord, dst := BitVec.ofNat 20 d }) s

/-- Is a message from the node above this module's highest (R174)? -/
def State.fromParent (s : State) (q : Nat) (m : MsMsg) : Bool :=
  !(s.ms q).rootHere && (s.ms q).parent == m.src

/-- A message is discarded as stale (R175): counted, code 0x0132. -/
def State.msStale (s : State) (q : Nat) (o : Option Nat) : State :=
  (s.modMs q (fun m => { m with stale := satAdd m.stale 1 })).logMs q 0x0132 scOk o []

/-- A milestone code that a core reports (R185, R188). -/
def State.logMsCore (s : State) (p q code status : Nat) (o : Option Nat) (args : List Word) : State :=
  let m := s.ms q
  let objw := match o with
    | some i => [(m.obj i).defWord, (m.obj i).stateWord]
    | none => []
  s.logAt (.core p) code status (some q) args (objw ++ [m.statWord, m.missSum, w32 m.missChild.toNat])

/-- A milestone wait of core `p` ends without OK (R185): code 0x1012, with MID and generation. -/
def State.msFault (s : State) (p q o : Nat) (gen : BitVec 16) (status : Nat) : State :=
  let x := s.obj q o
  ((s.logMsCore p q 0x1012 status (some o) [x.mid.setWidth 32, gen.setWidth 32]).coreFaultSeen p status
    0x1012 false (s.core p).waitStm)

/-- Does the core wait on an object's release? -/
def Core.waitsMs (c : Core) (q o : Nat) : Bool :=
  match c.wait with
  | .milestone a b _ => a == q && b == o && decide (c.st = .running)
  | _ => false

/-- Does the core wait on any milestone of partition `q`? -/
def Core.waitsAny (c : Core) (q : Nat) : Bool :=
  match c.wait with
  | .milestone a _ _ => a == q && decide (c.st = .running)
  | _ => false

/-- The physical cores of partition `q` that wait on object `o`. -/
def State.msWaiters (s : State) (q o : Nat) : List Nat :=
  (s.physOfPart q).filter (fun p => (s.core p).waitsMs q o)

/-- Stop each core that waits on object `o` with a fault of `status`. -/
def State.stopWaiters (s : State) (q o : Nat) (gen : BitVec 16) (status : Nat) : State :=
  eachDo (s.msWaiters q o) (fun p t => t.msFault p q o gen status) s

/-- The job is abandoned at partition `q` (R183): its waiting cores stop with ABANDONED. -/
def State.abandonAt (s : State) (q : Nat) : State :=
  let s1 := s.modPart q (fun x => { x with ms := { x.ms with abandoned := true, hold := 0, replayReq := false }, heldCores := [] })
  eachDo ((s1.physOfPart q).filter (fun p => (s1.core p).waitsAny q)) (fun p t =>
    match (t.core p).wait with
    | .milestone _ o _ => t.msFault p q o (t.obj q o).gen scAbandoned
    | _ => t) s1

/-- The root broadcasts an abandon (R183). -/
def State.abandonJob (s : State) (q : Nat) : State :=
  (eachDo (s.jobParts q) (fun r t => t.abandonAt r) s).msDown q (s.msMsg q .abandon 0 0 0)

/-- The owner of objects or node counters goes away (R183): JOB_ABANDONED, code 0x0134, and the abandon
goes to the root. -/
def State.msAbandon (s : State) (q : Nat) : State :=
  if (s.ms q).owns then
    let s1 := (s.abandonAt q).logMs q 0x0134 scAbandoned none []
    if (s1.ms q).rootHere then s1.abandonJob q else s1.msUp q (s1.msMsg q .abandon 0 0 0)
  else s

/-- One hold more stands for the job at partition `q`, or one less: the watchdogs are suspended while any stands,
and restart from zero when none does (R181). -/
def State.holdAt (s : State) (q : Nat) (v : Bool) : State :=
  s.modMs q (fun m => { m with
    hold := if v then m.hold + 1 else m.hold - 1,
    objs := if v ∨ 1 < m.hold then m.objs
      else m.objs.map (fun e => (e.1, { e.2 with since := e.2.since.map (fun _ => s.now) })) })

/-- The root broadcasts a hold or a withdrawal (R181). -/
def State.holdJob (s : State) (q : Nat) (v : Bool) : State :=
  (eachDo (s.jobParts q) (fun r t => t.holdAt r v) s).msDown q
    (s.msMsg q (if v then .hold else .withdrawal) 0 0 0)

/-- Partition `q` raises a hold, or withdraws the one it raised (R181): it goes to the root, which broadcasts it. -/
def State.msHold (s : State) (q : Nat) (v : Bool) : State :=
  if (s.part q).holding = v then s
  else
    let s1 := s.modPart q (fun x => { x with holding := v })
    if (s1.ms q).rootHere then s1.holdJob q v
    else s1.msUp q (s1.msMsg q (if v then .hold else .withdrawal) 0 0 0)

/-- Every object returns to the generation it held at the replay point's release and drops its arrivals;
the recovery count increases by one; the replay request stands where `req` says that the partition itself recovers
(R181, R182). -/
def State.msRewind (s : State) (q : Nat) (req : Bool) : State :=
  s.modPart q (fun x => { x with
    pendSnaps := [], heldCores := [],
    ms := { x.ms with
      rcount := x.ms.rcount + 1, replayReq := x.ms.replayReq || req,
      objs := x.ms.objs.map (fun e => (e.1, { e.2 with
        gen := tabGet 0 x.rpGens e.1, arrived := [], coming := [], nodes := [], since := none,
        fired := false, phase := 0, due := none })) } })

/-- The replay request of partition `q` (R175): the replay point, its generation, the count that the
recovery starts, the fault's status. -/
def State.replayMsg (s : State) (q status : Nat) : MsMsg :=
  s.msMsg q .replayRequest (s.part q).rpMid (s.part q).rpGen status

end Sys2Proof.Machine
end

