-- ==== Sys2Proof/Machine/PartSwitch.lean ====
section
/-!
DEFINITION. Halting, context switch, quarantine and recovery of a partition (R146, R152, R153, R156 to
R160, R274, R276, R312, R387).
-/

namespace Sys2Proof.Machine

/-- A partition enters HALTED (R146, R151, R183, R311): the job is abandoned, its waiting cores with it; its cores are
recalled and keep their state, START completes with the halting status and a pending PAUSE with STATE_ILLEGAL. -/
def State.enterHalted (s : State) (q status : Nat) : State :=
  let x := s.part q
  if x.st = .idle ∨ x.st = .halted ∨ x.switching.isSome then s
  else
    let s1 := ((s.msHold q false).msAbandon q).recallCores q
    let s2 := (s1.modPart q (fun x => { x with recovery := none, heldCores := [] })).modConvoy q
      (fun c => { c with armed := false, held := false })
    ((s2.setPartSt q .halted 0 status).finishStart q status).finishPause q scIllegal

/-- What a context switch or a quarantine clears of a core (R152): everything but TALLY_SEQ, the trace
controls, armed injections and the marks of its record sources. Its tallies are added to the totals
first (R441). -/
def Core.cleared (c : Core) (st : CoreSt) : Core :=
  { st := st, nextOp := c.nextOp, tallySeq := c.tallySeq, stretchTally := c.stretchTally,
    stretchSnap := c.stretchSnap, stretchTrace := c.stretchTrace, gapTally := c.gapTally,
    gapSnap := c.gapSnap, gapTrace := c.gapTrace, gapLog := c.gapLog, trcEn := c.trcEn,
    trcMask := c.trcMask, trcPeriod := c.trcPeriod, trcTmask := c.trcTmask, trcLost := c.trcLost,
    lastTest := c.lastTest,
    lreg := { injChunk := c.lreg.injChunk, injDraw := c.lreg.injDraw } }

def State.clearCore (s : State) (p : Nat) (st : CoreSt) : State :=
  s.withClock p (fun t => (t.clearTallies p).modCore p (fun c => c.cleared st))

/-- May core Ck of CDn carry a logical number: it passed self-test, is not quarantined and not retired
(R156)? -/
def Die.healthy (d : Die) (k : Nat) : Bool := !d.quar.getLsbD k && !d.retired.getLsbD k

/-- The healthy physical cores of a die, in order. -/
def Die.healthyCores (d : Die) : List Nat := (List.range 22).filter d.healthy

/-- CORE_MAP as at boot (R156): logical j on the (j + 1)-th healthy core. -/
def Die.bootMap (d : Die) : List (Option Nat) := (List.range 20).map (fun j => d.healthyCores[j]?)

/-- The lowest-numbered healthy spare. -/
def Die.spare (d : Die) : Option Nat :=
  (d.healthyCores.filter (fun k => !d.coreMap.contains (some k))).head?

/-- What a spare takes over with a logical number: instructions, waybills and the stall buffer table
(R133, R157). -/
def Core.takeOver (c old : Core) : Core :=
  { c with st := .loaded, insns := old.insns, wbCount := old.wbCount, sbufs := old.sbufs,
           stall := old.stall.filter (fun e => decide (0x2F0000 ≤ e.1)) }

/-- Move logical `20n + j` from Ck of CDn to the lowest-numbered healthy spare, or remove it (R156). -/
def State.remap (s : State) (n j : Nat) (old : Core) : State :=
  match (s.die n).spare with
  | none => s.modDie n (fun d => { d with coreMap := d.coreMap.set j none })
  | some k =>
    let s1 := s.modDie n (fun d => { d with coreMap := d.coreMap.set j (some k) })
    ((if old.insns.isEmpty then s1 else s1.modCore (22 * n + k) (fun c => c.takeOver old))).logCore
      (22 * n + k) 0x1003 scOk []

/-- The lifetime ledger's record of a quarantine (R156): the second retires the core. -/
def State.lifeQuarantine (s : State) (p : Nat) : State :=
  let c : LifeCore := tabGet {} s.life.cur.cores p
  let c1 : LifeCore :=
    { quarantines := c.quarantines + 1, retired := c.retired || decide (1 ≤ c.quarantines.toNat),
      hours := BitVec.ofNat 23 (s.life.cur.powerOnS.toNat / 3600) }
  let s1 := (s.modLife (fun r => { r with cores := tabSet r.cores p c1 })).lifeBegin
  if c1.retired then
    s1.modDie (p / 22) (fun d => { d with retired := d.retired ||| BitVec.ofNat 22 (2 ^ (p % 22)) })
  else s1

/-- Quarantine physical core `p` (R156): code 0x1002, cleared, marked, its number moved to a spare. -/
def State.quarantine (s : State) (p : Nat) : State :=
  if (s.die (p / 22)).quar.getLsbD (p % 22) then s
  else
    let old := s.core p
    let j := mapIndex (p % 22) (s.die (p / 22)).coreMap 0
    let s1 := (s.logCore p 0x1002 scUncorr []).clearCore p .quarantined
    let s2 := s1.modDie (p / 22) (fun d => { d with quar := d.quar ||| BitVec.ofNat 22 (2 ^ (p % 22)) })
    let s3 := s2.lifeQuarantine p
    match j with
    | none => s3
    | some j => s3.remap (p / 22) j old

/-! Context switch. -/

/-- The queue pairs of a partition in a state. -/
def State.qpsOf (s : State) (q : Nat) (st : QpSt) : List Nat :=
  (s.qps.filter (fun e => e.2.part.toNat == q && decide (e.2.st = st))).map Prod.fst

/-- The regions of a partition in a state. -/
def State.regionsOf (s : State) (q : Nat) (st : RegionSt) : List Nat :=
  (s.regions.filter (fun e => e.2.part.toNat == q && decide (e.2.st = st))).map Prod.fst

/-- A context switch begins (R152, R181, R183, R274, R276): its hold withdrawn, the job abandoned and its own waiting
cores released with ABANDONED, the cores recalled, queue pairs in ERROR, regions DRAINING. -/
def State.beginSwitch (s : State) (q : Nat) (cause : SwitchCause) : State :=
  let s1 := ((s.msHold q false).msAbandon q).recallCores q
  let s2 := eachDo (s1.qpsOf q .active) (fun i t => t.qpStop i .error) s1
  let s3 := eachDo (s2.regionsOf q .valid) (fun i t => t.modRegion i (fun r => { r with st := .draining })) s2
  (s3.modPart q (fun x => { x with switching := some cause, recovery := none, heldCores := [] })).gateUpd s

/-- Are the local porter operations of the partition's cores complete (R152, Table 5.11)? They are the COPYs. -/
def State.localsDone (s : State) (q : Nat) : Bool :=
  (s.physOfPart q).all (fun p => (s.core p).ops.all (fun o => !o.act.isCopy))

/-- May the recall phase of a context switch end (R152, R274)? -/
def State.recalled (s : State) (q : Nat) : Bool :=
  s.localsDone q && (s.regionsOf q .draining).isEmpty && (s.regionsOf q .valid).isEmpty

/-- Zero the bytes of a depot buffer and their error marks. -/
def Die.zeroBuf (d : Die) (b : DepotBuf) : Die :=
  { d with
    depot := tabDrop d.depot (fun k => decide (b.base ≤ k) && decide (k < b.base + b.size)),
    depotErr := tabDrop d.depotErr (fun w => decide (b.base ≤ 4 * w) && decide (4 * w < b.base + b.size)) }

/-- Zero and remove the depot buffers of a partition on a die (R133, R152). -/
def Die.dropBufs (d : Die) (q : Nat) : Die :=
  let mine := d.dbufs.filter (fun e => e.2.owner == q)
  let d1 := mine.foldl (fun x e => x.zeroBuf e.2) d
  { d1 with dbufs := d.dbufs.filter (fun e => e.2.owner != q) }

/-- Zero and remove every depot buffer of a partition. -/
def State.dropDepots (s : State) (q : Nat) : State :=
  eachDo (List.range 12) (fun n t => t.modDie n (fun d => d.dropBufs q)) s

/-- What a context switch clears of a partition's convoys (R312). -/
def Convoy.switched (c : Convoy) : Convoy :=
  { c with table := 0, epoch := 0, armed := false, held := false, sentUp := false, buckets := [],
           rpEpoch := 0 }

/-- What a context switch clears of what Serai holds of a partition (R152). -/
def Part.switched (x : Part) : Part :=
  { x with family := 0, ncore := [], resumeTab := [], imageDigest := 0, switching := none,
           recovery := none, snapshots := [], rpStart := true, pendSnaps := [], rpGens := [],
           heldCores := [], holding := false, fromJob := false, jobPair := none, ms := { ctx := x.ms.ctx + 1 } }

/-- The clear and release phases of a context switch (R152, R153, R387): the partition is IDLE, START and
a pending PAUSE complete with ABANDONED. -/
def State.finishSwitch (s : State) (q : Nat) : State :=
  let s1 := eachDo (s.physOfPart q) (fun p t => t.clearCore p .idle) s
  let s2 := (s1.dropDepots q).clearKeys q
  let s3 := ((s2.modConvoy q Convoy.switched).modPart q Part.switched).gateUpd s
  ((s3.setPartSt q .idle 0 0).finishStart q scAbandoned).finishPause q scAbandoned

/-! Recovery. -/

/-- Frames of operations of these cores that have no PSN yet are dropped, and the READs that they would have
asked for (R276). -/
def Qp.dropUnsent (x : Qp) (ps : List Nat) : Qp :=
  let gone (o : OpRef) : Bool := match o with
    | .core p _ => ps.contains p
    | _ => false
  { x with
    queued := x.queued.filter (fun e => !gone e.op),
    reads := x.reads.filter (fun r => !(x.queued.any (fun e => gone e.op && e.op == .core r.core r.op))) }

/-- Frames of the partition's operations that have no PSN yet are dropped (R276). -/
def State.dropQueued (s : State) (q : Nat) : State :=
  { s with qps := s.qps.map (fun e =>
      (e.1, if e.2.part.toNat = q then e.2.dropUnsent (s.physOfPart q) else e.2)) }

/-- A recovery of partition `q` begins (R157, R158): `quar` lists the cores to quarantine; `who` is the core whose
fault on this module starts it (step 1), none when a replay request does (R159). The fourth recovery to one replay
point halts the partition. The hold of a PAUSED partition ends, since it will not be PAUSED again (log entry 73). -/
def State.enterRecovering (s : State) (q status : Nat) (quar : List Nat) (who : Option Nat) : State :=
  let x := s.part q
  if x.rpTries = 3 then (s.logPart q 0x1005 scUncorr who).enterHalted q scUncorr
  else
    let r : Recovery := { status := st8 status, core := who, quarantine := quar, recalled := false }
    let s1 := (s.msHold q false).modPart q (fun x =>
      { x with rpTries := x.rpTries + 1, replays := satAdd x.replays 1, recovery := some r,
               fromJob := who.isNone })
    let s2 := s1.setPartSt q .recovering 0 0
    let s3 := if who.isSome then s2.logPart q 0x1004 status who else s2
    ((s3.recallCores q).dropQueued q).msRewind q true

/-- The replay point of object `o` comes into force at its release (R154, R158, R182, R312): `gen` is
the generation released, to which the object returns. -/
def State.takeReplayPoint (s : State) (q o : Nat) (gen : BitVec 16) (vr : Bool) (snaps : Tab Snapshot) :
    State :=
  let x := s.part q
  let mid := (x.ms.obj o).mid
  let same := x.recovery.isSome && x.rpValid && x.rpMid == mid
  let gens := x.ms.objs.map (fun e => (e.1, if e.1 = o then gen else e.2.gen))
  let s1 := s.modPart q (fun x => { x with
    rpValid := true, rpMid := mid, rpVr := vr, rpTries := if same then x.rpTries else 0, rpGen := gen,
    rpTime := s.now, rpStart := false, rpGens := gens,
    snapshots := snaps.foldl (fun t e => tabSet t e.1 e.2) x.snapshots,
    pendSnaps := tabErase x.pendSnaps o })
  s1.modConvoy q (fun c => { c with rpEpoch := c.epoch })

/-- A replay request names a replay point whose release has not reached this partition yet, but whose snapshots
Serai holds: the point comes into force, so that every partition recovers to the same one (R159, log entry 71). -/
def State.adoptPoint (s : State) (q : Nat) (mid gen : BitVec 16) : State :=
  match (s.ms q).find mid with
  | none => s
  | some o =>
    match (s.part q).pendSnaps.find? (fun e => e.1 == o) with
    | some e => if (s.obj q o).gen = gen then s.takeReplayPoint q o gen e.2.1 e.2.2 else s
    | none => s

/-- A replay request reaches partition `q` (R147, R159, R182): one that has a replay point recovers to it, one whose
cores have all halted too; one that holds none, or is halted, drops its arrivals and counts the recovery. -/
def State.replayPart (s : State) (q status : Nat) (mid gen : BitVec 16) : State :=
  let s1 := s.adoptPoint q mid gen
  match (s1.part q).switching with
  | some _ => s
  | none =>
    match (s1.part q).st with
    | .idle => s1.msRewind q false
    | .halted => s1.msRewind q false
    | .loaded =>
      if (s1.part q).snapshots.isEmpty then s1.msRewind q false else s1.enterRecovering q status [] none
    | .running => s1.enterRecovering q status [] none
    | .paused => s1.enterRecovering q status [] none
    | .recovering => s1.enterRecovering q status [] none

/-- A fault of core `p` starts a recovery here (R157): the replay request goes to the root, which broadcasts it
(R175, R181). -/
def State.beginRecovery (s : State) (q p status : Nat) (quar : List Nat) : State :=
  let s1 := s.enterRecovering q status quar (some p)
  if (s1.part q).st ≠ .recovering then s1
  else if (s1.ms q).rootHere then
    let x := s1.part q
    (eachDo ((s1.jobParts q).filter (fun r => r != q)) (fun r t => t.replayPart r status x.rpMid x.rpGen) s1).msDown q
      (s1.replayMsg q status)
  else s1.msUp q (s1.replayMsg q status)

/-- A core resumes from its snapshot (R154, R157 step 4). -/
def Core.restore (c : Core) (n : Snapshot) : Core :=
  { c with
    st := .running, wait := .none, fence := none, ops := [], faultPending := false, pc := n.pc,
    loops := n.loops, xreg := n.xreg, streams := n.streams, conv := n.conv, recs := n.recs,
    wmask := n.wmask }

/-- Tokens, MISSING marks and tolls of a core to zero, and Z set on its ledger (R143, R157, R207). -/
def Core.step4 (c : Core) : Core :=
  { c with
    sbufs := c.sbufs.map (fun e => (e.1, { e.2 with tok := 0, missing := false })), tolls := [],
    ops := [], ledger := c.ledger.map (fun e => (e.1, { e.2 with z := true })) }

/-- Tokens, MISSING marks and free space of a partition's depot buffers (R157). -/
def Die.step4 (d : Die) (q : Nat) : Die :=
  { d with dbufs := d.dbufs.map (fun e =>
      (e.1, if e.2.owner = q then { e.2 with tok := 0, missing := false, free := e.2.size / 256 } else e.2)) }

/-- What a recovery does to a partition's convoys (R312). -/
def Convoy.recovered (c : Convoy) : Convoy :=
  { c with buckets := [], epoch := c.rpEpoch, held := false, sentUp := false }

/-- Is some used core without a healthy physical core (R160)? -/
def State.sparesExhausted (s : State) (q : Nat) : Bool :=
  (s.part q).usedCores.any (fun l => (s.physOf l).isNone)

/-- Steps 3 and 4 of a recovery (R156, R157, R160, R312), and step 5: the cores issue from the replay
point. When START is the replay point there is no milestone to release, and the recovery ends. -/
def State.finishRecall (s : State) (q : Nat) (r : Recovery) : State :=
  let s1 := eachDo r.quarantine (fun p t => t.quarantine p) s
  let s2 := eachDo (s1.physOfPart q) (fun p t => t.modCore p Core.step4) s1
  let s3 := eachDo (List.range 12) (fun n t => t.modDie n (fun d => d.step4 q)) s2
  let s4 := s3.modConvoy q Convoy.recovered
  let s5 := { s4 with qps := s4.qps.map (fun e =>
    (e.1, if e.2.part.toNat = q then { e.2 with
      reserved := 0, reads := e.2.reads.map (fun r => { r with ended := true }) } else e.2)) }
  let s6 := eachDo (s5.part q).snapshots (fun e t =>
    match t.physOf e.1 with
    | some p => t.modCore p (fun c => c.restore e.2)
    | none => t) s5
  let s7 := s6.modPart q (fun x => { x with recovery := some { r with recalled := true } })
  if s7.sparesExhausted q then
    ((s7.setPartSt q .paused 1 0).logPart q 0x1006 scOk r.core).msHold q true
  else if (s7.part q).rpStart then
    (s7.modPart q (fun x => { x with recovery := none, ms := { x.ms with replayReq := false } })).setPartSt
      q .running 0 0
  else s7

/-- What Serai does with a fault of a core of partition `q` (R146, Table 5.8, R158): `quar` when a check
on the core's own arithmetic or storage failed. -/
def State.partFault (s : State) (q p status : Nat) (quar : Bool) : State :=
  let x := s.part q
  if x.st = .idle ∨ x.st = .halted ∨ x.st = .loaded ∨ x.switching.isSome then
    if quar then s.quarantine p else s
  else if status ≠ scUncorr then s.enterHalted q status
  else
    let l := if quar then [p] else []
    match x.recovery with
    | some r =>
      if !r.recalled then
        s.modPart q (fun x => { x with recovery := some { r with quarantine := r.quarantine ++ l } })
      else s.beginRecovery q p status l
    | none => s.beginRecovery q p status l

end Sys2Proof.Machine
end

