-- ==== Sys2Proof/Machine/MsRelease.lean ====
section
/-!
DEFINITION. Arrivals, folds and releases of milestones (R151, R154, R172 to R178, R181, R182, R310,
R311, R339, R424).
-/

namespace Sys2Proof.Machine

/-- The pair that a partition's job holds (R424). -/
def State.jobPairOf (s : State) (q : Nat) : BitVec 256 × Word := (s.part q).jobPair.getD s.pair

/-! Arrivals. -/

/-- The snapshot of a core (R154). -/
def Core.snapshot (c : Core) : Snapshot :=
  { pc := c.pc, loops := c.loops, xreg := c.xreg, streams := c.streams, conv := c.conv, recs := c.recs,
    wmask := c.wmask }

/-- Serai takes a core's snapshot at a replay point that is not released yet (R154). -/
def Part.takeSnap (x : Part) (o l : Nat) (vr : Bool) (n : Snapshot) : Part :=
  let e := tabGet (false, []) x.pendSnaps o
  { x with pendSnaps := tabSet x.pendSnaps o (e.1 || vr, tabSet e.2 l n) }

/-- A in a MILESTONE trace record (Table 15.4). -/
def msTraceA (mid gen : BitVec 16) (release : Bool) : DWord :=
  w64 (mid.toNat + 2 ^ 16 * gen.toNat + 2 ^ 32 * b2n release)

/-- Core `p`, logical `l`, of partition `q` arrives at object `o` (R154, R172): its arrival is on the way
to Serai; with WAIT it waits for the release, otherwise it goes on. -/
def State.arriveNew (s : State) (p q l o : Nat) (wait rp vr : Bool) (stm : BitVec 3) : State :=
  let x := s.obj q o
  let s1 := if rp then s.modPart q (fun y => y.takeSnap o l vr (s.core p).snapshot) else s
  let s2 := s1.modObj q o (fun y => { y with coming := y.coming ++ [l] })
  let s3 := s2.traceAt p 5 0 stm (msTraceA x.mid x.gen false) 0
  if wait then s3.beginWait p (.milestone q o none) stm else s3.advance p stm

/-- An MSARRIVE of core `p` to object `o` (R172): a core that has already arrived in the generation
first waits for its release. -/
def State.arrive (s : State) (p q l o : Nat) (wait rp vr : Bool) (stm : BitVec 3) : State :=
  let x := s.obj q o
  if x.arrived.contains l || x.coming.contains l then
    s.beginWait p (.milestone q o (some (wait, rp, vr))) stm
  else if vr && !(s.core p).loops.isEmpty then s.coreFault p scIllegal 0x1009 false stm []
  else s.arriveNew p q l o wait rp vr stm

/-! Releases. -/

/-- A waiting core's release with OK (R172, R173). -/
def State.wake (s : State) (p q o : Nat) (gen : BitVec 16) : State :=
  let c := s.core p
  match c.wait with
  | .milestone _ _ again =>
    let s1 := (s.traceAt p 5 0 c.waitStm (msTraceA (s.obj q o).mid gen true) 0).endWait p
    match again with
    | none => s1.advance p c.waitStm
    | some (w, rp, vr) => s1.arrive p q ((s.logicalOf p).getD 0) o w rp vr c.waitStm
  | _ => s

/-- Wake the cores whose release is held, at RESUME (R182). -/
def State.wakeHeld (s : State) (q : Nat) : State :=
  let ls := (s.part q).heldCores
  eachDo ls (fun l t => match t.physOf l with
    | some p =>
      match (t.core p).wait with
      | .milestone _ o _ => t.wake p q o ((t.obj q o).gen - 1)
      | _ => t
    | none => t) (s.modPart q (fun x => { x with heldCores := [] }))

/-- The phase table of a partition at a release of `mid` (R339): the entry moves to the front; a MID
without one takes the place of the least recently used, with 140 W a die assumed. -/
def phaseUse (l : List PhaseEntry) (mid : BitVec 16) : List PhaseEntry :=
  match l.find? (fun e => e.mid == mid) with
  | some e => e :: l.filter (fun e => e.mid != mid)
  | none => { mid := mid, draw := List.replicate 12 140, phase := List.replicate 12 0 } :: l.take 63

/-- The tallies of a compute die: the sums over its cores (R339). -/
def State.dieTally (s : State) (n : Nat) : DieTally :=
  (List.range 22).foldl (fun t k =>
    let v := fun (i : Nat) => (tabGet 0 (s.core (22 * n + k)).tally i).toNat
    { array := t.array + v tlARRAY, fwd := t.fwd + v tlFWD, bwd := t.bwd + v tlDX + v tlDW }) {}

/-- A release of `mid` starts an interval of the partition (R339). -/
def State.startPhase (s : State) (q : Nat) (mid : BitVec 16) : State :=
  { s with pwr := { s.pwr with
      phases := tabSet s.pwr.phases q (phaseUse (tabGet [] s.pwr.phases q) mid),
      curPhase := tabSet s.pwr.curPhase q { mid := mid, base := (List.range 12).map s.dieTally } } }

/-- The replay point's release ends a recovery (R157 step 6, R181). -/
def State.endRecovery (s : State) (q : Nat) : State :=
  match (s.part q).recovery with
  | some r =>
    if r.recalled then
      let s1 := s.modPart q (fun x => { x with
        recovery := none, fromJob := false, ms := { x.ms with replayReq := false } })
      if (s.part q).st = .recovering then s1.setPartSt q .running 0 0 else s1
    else s
  | none => s

/-- Does the SWITCH entry of a job name this release (R424)? -/
def Manifest.switchAt (m : Manifest) (job : Word) (mid gen : BitVec 16) : Bool :=
  m.switches.any (fun e => e.job == job && e.mid == mid && e.gen == gen)

/-- A job takes the new pair, with code 0x0123 (R424). -/
def State.jobTakes (s : State) (q : Nat) (pair : Option (BitVec 256 × Word)) : State :=
  (s.modPart q (fun x => { x with jobPair := pair })).logSerai 0x0123 scOk (some q) []

/-- The release that a SWITCH entry of the manifest in force names comes after T_ACT (R424): the job takes the
module's pair, and an affected partition is taken. -/
def State.lateSwitch (s : State) (q : Nat) (mid gen : BitVec 16) : State :=
  match s.mod.inForce with
  | some m =>
    if m.switchAt (s.ms q).jobId mid gen ∧ (s.part q).jobPair.isSome then
      let s1 := s.jobTakes q none
      if s1.mod.taking.contains q ∧ (s1.part q).switching.isNone ∧ (s1.part q).st ≠ .idle then
        ({ s1 with mod := { s1.mod with stopped := q :: s1.mod.stopped } }).beginSwitch q .manifest
      else s1
    else s
  | none => s

/-- The release that a SWITCH entry of the staged manifest names (R424): the job takes the new pair, and an
affected RUNNING partition pauses, with a hold for its job (Table 14.12). -/
def State.earlySwitch (s : State) (q : Nat) (mid gen : BitVec 16) : State :=
  match s.mod.staged with
  | some m =>
    if m.switchAt (s.ms q).jobId mid gen then
      let s1 := s.jobTakes q (some (m.digest, m.epoch))
      if s1.mod.affected.contains q ∧ (s1.part q).st = .running then (s1.setPartSt q .paused 2 0).msHold q true
      else s1
    else s
  | none => s

/-- What a release does for a manifest (R424). -/
def State.manifestRelease (s : State) (q : Nat) (mid gen : BitVec 16) : State :=
  (s.lateSwitch q mid gen).earlySwitch q mid gen

/-- A pending PAUSE takes effect (R151, R181). -/
def State.takePause (s : State) (q : Nat) : State :=
  if (s.part q).pause.isSome ∧ (s.part q).switching.isNone ∧
      ((s.part q).st = .running ∨ (s.part q).st = .paused) then
    let s1 := if (s.part q).st = .running then s.setPartSt q .paused 0 0 else s
    (s1.finishPause q scOk).msHold q true
  else s

/-- A release with OK reaches partition `q` after GEN and the arrivals of object `o` have changed
(R173). -/
def State.releaseOk (s : State) (q o : Nat) (gen : BitVec 16) (waiters : List Nat) : State :=
  let mid := (s.obj q o).mid
  let c := s.convoy q
  let s1 := if c.armed ∧ c.switchMid = mid ∧ c.switchGen = gen then s.takeEpoch q else s
  let s2 := match (s1.part q).pendSnaps.find? (fun e => e.1 == o) with
    | some e => (s1.takeReplayPoint q o gen e.2.1 e.2.2).endRecovery q
    | none => s1
  let s3 := ((s2.startPhase q mid).manifestRelease q mid gen).takePause q
  if (s3.part q).switching.isSome then s3
  else if (s3.part q).st = .paused then
    s3.modPart q (fun x => { x with heldCores := x.heldCores ++ waiters.filterMap s3.logicalOf })
  else eachDo waiters (fun p t => t.wake p q o gen) s3

/-- A release of object `o` at partition `q` (R173, R178, R180): GEN, then arrivals, then the waiting
cores. Releases after an abandon are discarded (R183). -/
def State.release (s : State) (q o status : Nat) (mismatch : Option (BitVec 20)) : State :=
  if (s.ms q).abandoned then s
  else
    let gen := (s.obj q o).gen
    let waiters := s.msWaiters q o
    let s1 := s.modObj q o (fun y => { y with
      gen := y.gen + 1, arrived := [], coming := [], nodes := [], since := none, fired := false,
      phase := 0, lastOk := decide (status = 0), due := none })
    let s2 := match mismatch with
      | some m =>
        (s1.modMs q (fun x => { x with mismatch := true, mismatchMod := m })).logMs q 0x0133 scManifest
          (some o) []
      | none => s1
    if status = 0 then s2.releaseOk q o gen waiters
    else
      let s3 := s2.modPart q (fun x => { x with pendSnaps := tabErase x.pendSnaps o })
      eachDo waiters (fun p t => t.msFault p q o gen status) s3

/-- The status of a release with this fold (R178). -/
def Fold.status (f : Fold) : Nat := if f.mismatch then scManifest else scOk

/-- The MOD that a release with a status records (R178). -/
def Fold.modOf (f : Fold) (status : Nat) : Option (BitVec 20) :=
  if f.mismatch ∧ status = scManifest then some f.mod else none

/-- The job-wide objects of one MID and generation that the partitions of a job hold on this module (R159, R173): a
MID names one object of a partition. -/
def State.sharers (s : State) (parts : List Nat) (mid gen : BitVec 16) : List (Nat × Nat) :=
  parts.filterMap (fun r => match (s.ms r).find mid with
    | some o => if (s.obj r o).gen = gen ∧ (s.obj r o).jobwide = true then some (r, o) else none
    | none => none)

/-- A release reaches the partitions of a job on this module: their job-wide objects of the MID in that
generation. -/
def State.releaseHere (s : State) (parts : List Nat) (mid gen : BitVec 16) (status : Nat)
    (mismatch : Option (BitVec 20)) : State :=
  eachDo (s.sharers parts mid gen) (fun e t => t.release e.1 e.2 status mismatch) s

/-- The root releases a generation of object `o` (R173, R178): down the tree and here. -/
def State.rootRelease (s : State) (q o status : Nat) (f : Fold) : State :=
  let x := s.obj q o
  let m := { s.msMsg q .release x.mid x.gen status with
    foldDigest := f.digest, foldEpoch := f.epoch, foldMod := f.mod, mismatch := f.mismatch }
  if (s.ms q).abandoned then s
  else if x.jobwide then
    (s.msDown q m).releaseHere (s.jobParts q) x.mid x.gen status (f.modOf status)
  else s.release q o status none

/-- The root has found the generation complete: MS_RELEASE is due (R173). -/
def State.setDue (s : State) (q o : Nat) (f : Fold) : State :=
  s.modObj q o (fun y => { y with due := some f })

/-! Counting. -/

/-- The fold of a local counter (R177). -/
def State.ownFold (s : State) (q : Nat) : Fold :=
  { digest := (s.jobPairOf q).1, epoch := (s.jobPairOf q).2, mod := 0, mismatch := false }

/-- The lowest of a list of coordinates. -/
def lowest : List (BitVec 20) → BitVec 20
  | [] => 0
  | a :: l => l.foldl (fun m b => if b < m then b else m) a

/-- The fold of a node counter (R177). -/
def foldNode (own : Fold) (l : List ChildArrival) : Fold :=
  let bad := l.filter (fun c => c.fold.mismatch)
  let diff := l.filter (fun c => c.fold.digest != own.digest || c.fold.epoch != own.epoch)
  if !bad.isEmpty then { own with mismatch := true, mod := lowest (bad.map (fun c => c.fold.mod)) }
  else if !diff.isEmpty then { own with mismatch := true, mod := lowest (diff.map (fun c => c.src)) }
  else own

/-- The arrival message of a counter with its fold (R175). -/
def State.arrivalMsg (s : State) (q o : Nat) (f : Fold) (dst : BitVec 20) : MsMsg :=
  let x := s.obj q o
  { s.msMsg q .arrival x.mid x.gen 0 with
    dst := dst, foldDigest := f.digest, foldEpoch := f.epoch, foldMod := f.mod, mismatch := f.mismatch }

/-- The first arrival of a generation starts the watchdog (R179). -/
def MsObj.started (x : MsObj) (now : DWord) : MsObj :=
  match x.since with
  | some _ => x
  | none => { x with since := some now }

/-- An arrival of child `src` at the node of level `l` hosted here (R174, R177): the complete node sends
one arrival up, or a release is due at the root. `fuel` bounds the levels. -/
def State.nodeArrival (s : State) (q o : Nat) (src : BitVec 20) (f : Fold) : Nat → Nat → State
  | _, 0 => s
  | l, fuel + 1 =>
    let x := s.obj q o
    let cs := tabGet [] x.nodes l
    if cs.any (fun c => c.src == src) then s
    else
      let cs1 := cs ++ [{ src := src, fold := f }]
      let s1 := s.modObj q o (fun y => { (y.started s.now) with
        nodes := tabSet y.nodes l cs1, phase := if y.phase = 0 then 1 else y.phase })
      let n := (s.ms q).node l
      if cs1.length < n.children.toNat then s1
      else
        let g := foldNode (s.ownFold q) cs1
        let up := (s.ms q).node (l + 1)
        if n.top then s1.setDue q o g
        else if up.host then s1.nodeArrival q o (BitVec.ofNat 20 s.coord) g (l + 1) fuel
        else s1.sendMsg (s1.arrivalMsg q o g up.target)

/-- Is the local generation of object `o` complete (R173)? -/
def State.localFull (s : State) (q o : Nat) : Bool :=
  ((s.ms q).coresOf o).all (fun l => (s.obj q o).arrived.contains l)

/-- May the arrival of the partition's object go up: its group has arrived, and no armed switch withholds it
(R173, R310)? -/
def State.localReady (s : State) (q o : Nat) : Bool :=
  s.localFull q o && !((s.convoy q).held && (s.convoy q).switchMid == (s.obj q o).mid)

/-- The counter of a job-wide object on this module is complete (R173, R174): the root of a job that is here alone is
due for its release; otherwise the arrival goes to level 1. -/
def State.moduleArrival (s : State) (q o : Nat) : State :=
  let m := s.ms q
  if m.localJob || m.jobId == 0 then s.setDue q o (s.ownFold q)
  else
    let s1 := s.modObj q o (fun y => { y with phase := 2 })
    if (m.node 1).host then s1.nodeArrival q o (BitVec.ofNat 20 s.coord) (s1.ownFold q) 1 7
    else s1.sendMsg (s1.arrivalMsg q o (s1.ownFold q) (m.node 1).target)

/-- The local counter of an object is complete and its arrival is not withheld: a module-local object is due for its
release; a job-wide one completes on the module when every partition of the job here is complete, and the lowest
of them speaks for the module (R159, R173, log entry 74). -/
def State.sendLocal (s : State) (q o : Nat) : State :=
  let x := s.obj q o
  if !x.jobwide then s.setDue q o (s.ownFold q)
  else
    let c := s.convoy q
    let s1 := if c.armed ∧ c.switchMid = x.mid ∧ c.switchGen = x.gen then
        s.modConvoy q (fun c => { c with sentUp := true })
      else s
    let peers := s1.sharers (s1.jobParts q) x.mid x.gen
    if peers.all (fun e => s1.localReady e.1 e.2) then
      match peers with
      | [] => s1
      | e :: _ => s1.moduleArrival e.1 e.2
    else s1

/-- The local counter of an object completes a generation (R173); an armed switch with OPEN buckets
withholds the arrival (R310). -/
def State.localComplete (s : State) (q o : Nat) : State :=
  let x := s.obj q o
  let c := s.convoy q
  if x.jobwide ∧ c.armed ∧ c.switchMid = x.mid ∧ c.switchGen = x.gen ∧ 0 < c.openCount then
    ((s.modConvoy q (fun c => { c with held := true })).modObj q o (fun y => { y with phase := 3 })).logConvoy
      q 0 0x2204 scOk none
  else s.sendLocal q o

/-- The arrival of logical core `l` reaches Serai (Table 6.3). -/
def State.countArrival (s : State) (q o l : Nat) : State :=
  let s1 := s.modObj q o (fun y => { (y.started s.now) with
    coming := y.coming.filter (· != l), arrived := y.arrived ++ [l],
    phase := if y.phase = 0 then 1 else y.phase })
  if s1.localFull q o then s1.localComplete q o else s1

end Sys2Proof.Machine
end

