-- ==== Sys2Proof/Machine/ConvoyRx.lean ====
section
/-!
DEFINITION. Convoy frames at the receiver: subheader, bucket table, Table 10.5, retirement, and the adds
of the counting houses (R292, R296 to R304, R310, R311).
-/

namespace Sys2Proof.Machine

/-- A big-endian number from bytes (R8). -/
def beNat (l : List Byte) : Nat := leNat l.reverse

/-- The convoy subheader (Table 10.2) and the elements that follow it. -/
structure ConvoyHdr where
  tag : Nat
  step : Word
  contrib : BitVec 24
  guard : BitVec 7
  exp : BitVec 16
  rcount : BitVec 16
  ovf : Bool
  elems : List (BitVec 72)
  deriving DecidableEq, Repr

/-- The elements of a payload, nine bytes each in network order (R292); `n` of them. -/
def elemsOf : List Byte → Nat → List (BitVec 72)
  | _, 0 => []
  | l, n + 1 => BitVec.ofNat 72 (beNat (l.take 9)) :: elemsOf (l.drop 9) n

/-- The subheader and elements of a convoy frame (R292). -/
def convoyHdr (f : RirisFrame) : ConvoyHdr :=
  let p := f.payload
  { tag := beNat (p.take 2), step := w32 (beNat ((p.drop 2).take 4)),
    contrib := BitVec.ofNat 24 (beNat ((p.drop 6).take 3)),
    guard := BitVec.ofNat 7 (beNat ((p.drop 9).take 1)),
    exp := BitVec.ofNat 16 (beNat ((p.drop 10).take 2)),
    rcount := BitVec.ofNat 16 (beNat ((p.drop 12).take 2)),
    ovf := bitAt (beNat ((p.drop 14).take 1)) 0,
    elems := elemsOf (p.drop 16) ((p.length - 16) / 9) }

/-- The bytes of a subheader (Table 10.2). -/
def ConvoyHdr.bytes (h : ConvoyHdr) : List Byte :=
  beBytes 2 h.tag ++ beBytes 4 h.step.toNat ++ beBytes 3 h.contrib.toNat ++ beBytes 1 h.guard.toNat
    ++ beBytes 2 h.exp.toNat ++ beBytes 2 h.rcount.toNat ++ [BitVec.ofNat 8 (b2n h.ovf), 0]

/-- The payload of a convoy frame (R292). -/
def ConvoyHdr.payload (h : ConvoyHdr) : List Byte := h.bytes ++ h.elems.flatMap (fun v => beBytes 9 v.toNat)

/-- The epoch and the bucket index of a tag (R287). -/
def ConvoyHdr.epoch (h : ConvoyHdr) : BitVec 4 := BitVec.ofNat 4 (h.tag / 4096)

def ConvoyHdr.index (h : ConvoyHdr) : Nat := h.tag % 4096

/-- CV_BUCKETS.COUNT of a partition (Table 10.9). -/
def State.bucketCount (s : State) (p : Nat) : Nat :=
  match (s.part p).cfg with
  | some c => c.buckets
  | none => 0

/-- Where the entry of bucket `b` lies (R296). -/
def State.entryAddr (s : State) (p b : Nat) : Nat := (s.convoy p).table.toNat + 32 * b

/-- A bucket opened with the entry's bytes (Table 10.4) and the frame's values (R297). -/
def Bkt.open (bs : List Byte) (h : ConvoyHdr) : Bkt :=
  let le := fun (a n : Nat) => leNat ((bs.drop a).take n)
  { st := .opened, epoch := h.epoch, step := h.step, contrib := h.contrib, guard := h.guard, exp := h.exp,
    rkey := w32 (le 0 4), doff := le 4 6, len := le 10 4, nbuf := BitVec.ofNat 8 (le 14 1),
    ndie := BitVec.ofNat 4 (le 15 1), nvalid := bitAt (le 15 1) 7 }

/-- Does an entry pass the checks of opening (Table 10.5): its region VALID with the add right and in HBM,
LEN in range? -/
def State.entryOk (s : State) (p : Nat) (k : Bkt) : Bool :=
  let r := s.region (k.rkey.toNat % 4096)
  r.st == .valid && r.tag.toNat == k.rkey.toNat / 4096 && r.part.toNat == p && r.rights.getLsbD 2
    && tierOf r.base == .hbm && decide (1 ≤ k.len) && decide (k.len ≤ 2 ^ 28)

/-- What becomes of an arriving convoy frame: refused with a NAK code, consumed without effect, or its
adds go to the counting houses. -/
inductive ConvoyFate
  | refuse (code : Nat)
  | stale
  | adds (region : Nat) (l : List (Nat × BitVec 72))
  deriving DecidableEq, Repr

/-- A refusal with TAG (R300). -/
def State.refuseTag (s : State) (p b code : Nat) (f : RirisFrame) : State × ConvoyFate :=
  ((s.modConvoy p (fun c => { c with tagmis := satAdd c.tagmis 1 })).logConvoy p b code scTag (some f),
   .refuse 7)

/-- A refusal with ACCESS_VIOLATION (R275). -/
def State.refuseAccess (s : State) (q : Nat) (f : RirisFrame) : State × ConvoyFate :=
  (s.reportViolation q f, .refuse 3)

/-- The last row of Table 10.5 and the one before it, for an OPEN bucket. -/
def State.convoyAdds (s : State) (q p b : Nat) (h : ConvoyHdr) (f : RirisFrame) : State × ConvoyFate :=
  let k := (s.convoy p).bucket b
  let n := h.elems.length
  let j0 := f.roff.toNat
  if k.len < j0 + n ∨ s.regionAdmits q 0x20 k.rkey (k.doff + 12 * j0) (12 * n) = false then
    s.refuseAccess q f
  else
    let i := k.rkey.toNat % 4096
    let a := (s.region i).base + k.doff + 12 * j0
    (s, .adds i (h.elems.zipIdx.map (fun e => (a + 12 * e.2, e.1))))

/-- Open a bucket (Table 10.5, fourth row). -/
def State.convoyOpen (s : State) (q p b : Nat) (h : ConvoyHdr) (f : RirisFrame) : State × ConvoyFate :=
  let a := s.entryAddr p b
  let bad := fun (t : State) => (t.logConvoy p b 0x2207 scAccess (some f)).refuseAccess q f
  if s.admitted p false false a 32 = false then bad s
  else if s.uncorrIn 0 [(a, 32)] then (s.touchRead 0 [(a, 32)], .refuse 4)
  else
    let s1 := s.touchRead 0 [(a, 32)]
    let k := Bkt.open (s.bytesAt 0 a 32) h
    if s1.entryOk p k then
      (s1.modConvoy p (fun c => c.modBucket b (fun _ => k))).convoyAdds q p b h f
    else bad s1

/-- Table 10.5 from the row of the bucket index on. -/
def State.convoyBucket (s : State) (q p : Nat) (h : ConvoyHdr) (f : RirisFrame) : State × ConvoyFate :=
  let b := h.index
  let k := (s.convoy p).bucket b
  let same := k.epoch == h.epoch && k.step == h.step
  if s.bucketCount p ≤ b then s.refuseAccess q f
  else match k.st with
    | .free => s.convoyOpen q p b h f
    | .retired => if same then s.refuseTag p b 0x2201 f else s.convoyOpen q p b h f
    | .opened =>
      if !same then s.refuseTag p b 0x2202 f
      else if k.contrib ≠ h.contrib ∨ k.guard ≠ h.guard ∨ k.exp ≠ h.exp then
        (s.logConvoy p b 0x2203 scIllegal (some f), .refuse 8)
      else s.convoyAdds q p b h f

/-- Table 10.5 for a frame of queue pair `q`, in row order; a frame with the new epoch that comes after
the module's arrival takes it early (R311). -/
def State.convoyCheck (s : State) (q : Nat) (f : RirisFrame) : State × ConvoyFate :=
  let p := (s.qp q).part.toNat
  let h := convoyHdr f
  let c := s.convoy p
  if h.rcount ≠ (s.ms p).rcount then
    ((s.modConvoy p (fun c => { c with stale := satAdd c.stale 1 })).logConvoy p h.index 0x2206 scOk
      (some f), .stale)
  else if h.epoch = c.epoch then s.convoyBucket q p h f
  else if c.armed ∧ c.sentUp ∧ h.epoch = c.switchNew then (s.takeEpoch p).convoyBucket q p h f
  else s.refuseTag p h.index 0x2202 f

/-- The last OPEN bucket has retired during a hold (R310): the withheld arrival is sent. -/
def State.endHold (s : State) (p : Nat) : State :=
  let c := s.convoy p
  if c.held ∧ c.openCount = 0 then
    let s1 := s.modConvoy p (fun c => { c with held := false })
    match (s1.ms p).find c.switchMid with
    | some o => s1.sendLocal p o
    | none => s1
  else s

/-- The token of a retirement (R299). -/
def State.retireToken (s : State) (p b : Nat) (k : Bkt) : State :=
  if k.nvalid then
    let r := s.postDepot p k.ndie.toNat k.nbuf.toNat
    if r.2 = 0 then r.1 else s.logConvoy p b 0x2209 scIllegal none
  else s

/-- RECORD of an entry at `a` (R299), which is stored only where the partition's windows admit it (R198). -/
def State.storeRecord (s : State) (p a : Nat) (d : List Byte) : State :=
  if s.admitted p false true a d.length then (s.store 0 (some p) a d).1 else s

/-- Bucket `b` retires (R299): RECORD, the token, RETIRED. -/
def State.retire (s : State) (p b : Nat) : State :=
  let k := (s.convoy p).bucket b
  let st := if k.ovf then scOvf else scOk
  let rec_ := leBytes 4 k.step.toNat ++ [st8 st, 0, 0, 0]
  let s1 := s.storeRecord p (s.entryAddr p b + 16) rec_
  let s2 := (s1.retireToken p b k).modConvoy p (fun c => c.modBucket b (fun x => { x with st := .retired }))
  let s3 := if k.ovf then
      (s2.modConvoy p (fun c => { c with ovfBuckets := satAdd c.ovfBuckets 1 })).logConvoy p b 0x2208 scOvf
        none
    else s2
  s3.endHold p

/-- The bucket of a frame whose adds have all been applied counts them (Table 10.5, R297), unless a
context switch or a recovery has set it FREE since, whichever frame has opened it again: the frame is of an earlier
recovery count (R312); at CONTRIB × LEN it retires (R299). -/
def State.bucketCountIn (s : State) (f : PendFrame) : State :=
  let h := convoyHdr f.frame
  let k := (s.convoy f.part).bucket f.bucket
  if k.st = .opened ∧ k.epoch = h.epoch ∧ k.step = h.step ∧ h.rcount = (s.ms f.part).rcount then
    let n := k.count + f.adds.length
    let s1 := s.modConvoy f.part (fun c => c.modBucket f.bucket (fun x =>
      { x with count := n, ovf := x.ovf || h.ovf }))
    if k.contrib.toNat * k.len ≤ n then s1.retire f.part f.bucket else s1
  else s

/-- What is done when the adds of a convoy frame are complete, but for its acknowledgement (R261, R272,
R304): the NAK code with which it is consumed. -/
def State.framedDone (s : State) (f : PendFrame) : State × Nat :=
  let s1 := s.modRegion f.region (fun r => { r with inflight := r.inflight - 1 })
  if f.failed then (s1, 4) else (s1.bucketCountIn f, 0)

/-! The counting houses. -/

/-- One add (R303, R304): true when its read finds an uncorrectable word. -/
def State.applyAdd (s : State) (n : Nat) (e : Add) : State × Bool :=
  if s.uncorrIn 0 [(e.addr, 12)] then
    let part := s.ownerOf e.addr
    let s1 := (s.touchRead 0 [(e.addr, 12)]).modHouse n (fun h => { h with uncorr := satAdd h.uncorr 1 })
    (s1.logHouse n 0x1201 scUncorr part e.addr, true)
  else
    let v := t72Of (s.bytesAt 0 e.addr 12) + e.value
    let s1 := s.touchRead 0 [(e.addr, 12)]
    ((s1.store 0 none e.addr (t72Bytes v)).1.modHouse n (fun h => { h with adds := h.adds + 1 }), false)

/-- An add of a COPY with ADD is done (R303, R304). -/
def PorterDo.addDone : PorterDo → PorterDo
  | .add n => .add (n - 1)
  | a => a

/-- The source of an add learns that it is done. -/
def State.addSource (s : State) (bad : Bool) : AddSrc → State
  | .copy p op =>
    s.modOp p op (fun o => { o with
      act := o.act.addDone, status := if bad ∧ o.status = 0 then st8 scUncorr else o.status })
  | .frame id =>
    let l := s.pendFrames.map (fun f => if f.id = id then { f with left := f.left - 1, failed := f.failed || bad } else f)
    { s with pendFrames := l }

end Sys2Proof.Machine
end

