-- ==== Sys2Proof/Machine/PorterRx.lean ====
section
/-!
DEFINITION. The Porters at the receiving end: order of frames, admission, what each class does, NAKs,
context misses and fetches (R255, R261 to R270, R278, R279, R297).
-/

namespace Sys2Proof.Machine

/-! Frames in sequence. -/

/-- The convoy frame of queue pair `q` whose adds are not all applied. -/
def State.pendingOn (s : State) (q : Nat) : Bool := s.pendFrames.any (fun f => f.qp == q)

/-- Consume a frame and answer it (R262, R264). -/
def State.consume (s : State) (q : Nat) (f : RirisFrame) (code : Nat) : State :=
  (s.modQp q (fun x => x.consume f)).answer q f code

/-- The token of a WRITE_NOTIFY or NOTIFY (R261): the NAK code, 0 when it is posted. -/
def State.notify (s : State) (q : Nat) : State × Nat :=
  let x := s.qp q
  if x.nvalid then s.postDepot x.part.toNat x.ndie.toNat x.nbuf.toNat else (s, 3)

/-- A refused notify is a violation when its code is 3 (R261, R275); PORTER_VIOL counts every refusal of R261. -/
def State.notifyEnd (s : State) (q : Nat) (f : RirisFrame) : State :=
  let r := s.notify q
  let s1 := if r.2 = 3 then r.1.reportViolation q f
    else if r.2 = 0 then r.1
    else r.1.modPorter (homeOf q) (fun p => { p with viol := p.viol + 1 })
  s1.consume q f r.2

/-- WRITE and WRITE_NOTIFY (R261, R270, R272). -/
def State.rxWrite (s : State) (q : Nat) (f : RirisFrame) : State :=
  if s.regionAdmits q 1 f.rkey f.roff.toNat f.payload.length = false then
    (s.reportViolation q f).consume q f 3
  else
    let p := (s.qp q).part.toNat
    let a := (s.region (f.rkey.toNat % 4096)).base + f.roff.toNat
    let r := (s.unclean p).store 0 (some p) a f.payload
    if r.2 then r.1.consume q f 4
    else if f.cls = 2 ∧ f.last then r.1.notifyEnd q f
    else r.1.consume q f 0

/-- The READ_RESP frames of a request (R256, R259, R272). -/
def respFrames (i part roff0 mtu total : Nat) (rkey : Word) : Nat → Nat → List ToSend
  | _, 0 => []
  | off, n + 1 =>
    if total ≤ off then []
    else
      let len := min mtu (total - off)
      .resp i part (roff0 + off) len total (decide (off = 0)) (decide (total ≤ off + len)) rkey
        :: respFrames i part roff0 mtu total rkey (off + len) n

/-- READ_REQ (R259, R270, R272). -/
def State.rxReadReq (s : State) (q : Nat) (f : RirisFrame) : State :=
  let n := f.oplen.toNat
  if s.regionAdmits q 3 f.rkey f.roff.toNat n = false then (s.reportViolation q f).consume q f 3
  else
    let i := f.rkey.toNat % 4096
    let x := s.qp q
    let l := respFrames i x.part.toNat f.roff.toNat x.mtuBytes n f.rkey 0 (n / x.mtuBytes + 1)
    let s1 := if l.isEmpty then s else s.modRegion i (fun r => { r with inflight := r.inflight + 1 })
    (s1.consume q f 0).queueSend q l

/-- Bytes `skip` to `skip + n` of a list of ranges. -/
def sliceSegs : List (Nat × Nat) → Nat → Nat → List (Nat × Nat)
  | [], _, _ => []
  | (a, len) :: rest, skip, n =>
    if n = 0 then []
    else if len ≤ skip then sliceSegs rest (skip - len) n
    else
      let k := min (len - skip) n
      (a + skip, k) :: sliceSegs rest 0 (n - k)

/-- The writes of data into a list of ranges in order. -/
def fillSegs : List (Nat × Nat) → List Byte → List (Nat × List Byte)
  | [], _ => []
  | (a, n) :: rest, d => (a, d.take n) :: fillSegs rest (d.drop n)

/-- READ_RESP (R260): the bytes go to the local piece of the oldest READ; the last ends it. A write that meets an
uncorrectable word fails the READ, and the frame is refused with NAK UNCORRECTABLE (R264). Data of a READ that has
ended is consumed. -/
def State.rxReadResp (s : State) (q : Nat) (f : RirisFrame) : State :=
  match (s.qp q).reads with
  | [] => s.consume q f 0
  | r :: rest =>
    let n := f.payload.length
    let all := decide (r.need ≤ r.got + n)
    let left (bad : Bool) (x : Qp) : Qp :=
      { x with reads := if all then rest else { r with got := r.got + n, ended := r.ended || bad } :: rest }
    if r.ended then (s.modQp q (left false)).consume q f 0
    else
      let w := s.stores r.core (some (s.qp q).part.toNat) (fillSegs (sliceSegs r.addrs r.got n) f.payload)
      let s1 := (w.1.tallyAdd r.core tlRXREMOTE n).modQp q (left w.2)
      let s2 := if w.2 then s1.failOp scUncorr (.core r.core r.op) else s1
      let s3 := if all || w.2 then s2.modOp r.core r.op (fun o => { o with act := .remote q 2 0 }) else s2
      s3.consume q f (if w.2 then 4 else 0)

/-- A convoy frame in sequence (Table 10.5). -/
def State.rxConvoy (s : State) (q : Nat) (f : RirisFrame) : State :=
  let r := s.convoyCheck q f
  match r.2 with
  | .refuse code => r.1.consume q f code
  | .stale => r.1.consume q f 0
  | .adds i l =>
    let s1 := (r.1.unclean (s.qp q).part.toNat).modRegion i (fun x => { x with inflight := x.inflight + 1 })
    let p : PendFrame :=
      { id := s1.nextFrameId, qp := q, part := (s.qp q).part.toNat, bucket := (convoyHdr f).index,
        region := i, frame := f, adds := l, issued := false, left := l.length, failed := false }
    if l.isEmpty then
      let d := s1.framedDone p
      d.1.consume q f d.2
    else
      { s1 with nextFrameId := s1.nextFrameId + 1, pendFrames := s1.pendFrames ++ [p] }.issueWaiting

/-- Process a frame that is the next in sequence (R261). -/
def State.rxProcess (s : State) (q : Nat) (f : RirisFrame) : State :=
  match f.cls.toNat with
  | 1 => s.rxWrite q f
  | 2 => s.rxWrite q f
  | 3 => s.rxReadReq q f
  | 4 => s.rxReadResp q f
  | 5 => s.notifyEnd q f
  | _ => s.rxConvoy q f

/-- Process the frames that came in sequence behind a convoy frame, until another one holds them. -/
def State.rxBehind (s : State) (q : Nat) : Nat → State
  | 0 => s
  | n + 1 =>
    if s.pendingOn q then s
    else
      match (s.qp q).behind with
      | [] => s
      | f :: rest => ((s.modQp q (fun x => { x with behind := rest })).rxProcess q f).rxBehind q n

/-- The adds of convoy frame `f` are complete: it is consumed and acknowledged, and the frames behind it
follow (R261, R297). -/
def State.frameDone (s : State) (f : PendFrame) : State :=
  let l := s.pendFrames.filter (fun g => g.id != f.id)
  let d := { s with pendFrames := l }.framedDone f
  let x := d.1.qp f.qp
  if x.st = .active ∧ x.epsn = f.frame.psn then
    (d.1.consume f.qp f.frame d.2).rxBehind f.qp x.behind.length
  else d.1

/-- A sequenced frame (R262): the next is processed; an earlier one is a duplicate, answered with an ACK;
a later one is discarded with NAK SEQ at EPSN, once for each gap. -/
def State.rxSeq (s : State) (q : Nat) (f : RirisFrame) : State :=
  let x := s.qp q
  let held := b2n (s.pendingOn q) + x.behind.length
  if f.psn = x.epsn + w32 held then
    if held = 0 then s.rxProcess q f
    else s.modQp q (fun x => { x with behind := x.behind ++ [f], gapNak := false })
  else if psnBefore f.psn x.epsn then s.sendAck q
  else if psnBefore f.psn (x.epsn + w32 held) then s
  else if x.gapNak then s
  else (s.modQp q (fun x => { x with gapNak := true })).sendNak q 1 x.epsn 0

/-! NAKs. -/

/-- The status that a NAK code gives the operation (Tables 9.6 and R300). -/
def nakStatus (code : Nat) : Nat :=
  if code = 3 then scAccess else if code = 4 then scUncorr else if code = 7 then scTag else scIllegal

/-- Drop the READ of a failed operation. -/
def State.dropReading (s : State) (q : Nat) : OpRef → State
  | .core p id => s.modQp q (fun x => { x with reads := x.reads.filter (fun r => !(r.core == p && r.op == id)) })
  | _ => s

/-- A NAK that reports a run of PSNs of a response that is not sent (R264, R273): they are passed over, and
the READ completes with the code's status. -/
def State.nakSkip (s : State) (q : Nat) (f : RirisFrame) : State :=
  let x := s.qp q
  if f.psn ≠ x.epsn then s
  else
    let s1 := s.setQp q { x with epsn := x.epsn + f.oplen, reads := x.reads.tail, gapNak := false }
    let s2 := match x.reads with
      | r :: _ => s1.failOp (nakStatus f.code.toNat) (.core r.core r.op)
      | [] => s1
    if f.code = 3 then s2.logQp q 0x2106 scAccess (frameArgs (some f)) else s2

/-- Does a NAK's PSN lie in [UNA, SPSN) (R264)? -/
def Qp.owns (x : Qp) (psn : Word) : Bool := decide ((psn - x.una).toNat < (x.spsn - x.una).toNat)

/-- A NAK of an operation's frame (codes 3, 4, 6, 7 and 8). -/
def State.nakOp (s : State) (q : Nat) (f : RirisFrame) : State :=
  match (s.qp q).unacked.find? (fun u => u.frame.psn == f.psn) with
  | some u =>
    let s1 := (s.failOp (nakStatus f.code.toNat) u.op).dropReading q u.op
    if f.code = 3 then s1.logQp q 0x2106 scAccess (frameArgs (some f)) else s1
  | none => s

/-- A NAK (R264, R266): its acknowledgement and grant count too; one outside [UNA, SPSN) is ignored, but for the
report of a response's PSNs (R273), which are the responder's. A NAK SEQ leaves RETRIES unchanged. -/
def State.rxNak (s : State) (q : Nat) (f : RirisFrame) : State :=
  let x := s.qp q
  let code := f.code.toNat
  if (code = 3 ∨ code = 4) ∧ f.oplen ≠ 0 then
    ((s.setQp q { x with lastNak := f.code }).nakSkip q f).takeHeader q f
  else if x.owns f.psn = false then s
  else
    let s1 := s.setQp q { x with lastNak := f.code }
    match code with
    | 1 =>
      let s2 := (s1.takeHeader q f).modQp q (fun y => { y with retries := x.retries })
      s2.resend q ((s2.qp q).unacked.filter (fun u => !psnBefore u.frame.psn f.psn))
    | 2 => s1.qpBusy q f.psn
    | 5 => (s1.failAll q scAbandoned).qpStop q .error
    | _ => (s1.nakOp q f).takeHeader q f

/-! Frames of a cached context. -/

/-- Is the class one of Table 9.4 that is not reserved? -/
def knownClass (c : Byte) : Bool := (decide (1 ≤ c.toNat) && decide (c.toNat ≤ 7)) || c == 0x20

/-- Is the frame one that a Porter knows (R255)? -/
def State.rxKnown (s : State) (f : RirisFrame) : Bool :=
  knownClass f.cls && f.ver == 1 && decide ((s.qp f.dqp.toNat).st ≠ .free)

/-- The unprotected NAK CONTEXT_BUSY that an end acts on (R278). -/
def Qp.busyNak (x : Qp) (f : RirisFrame) : Bool :=
  f.cls == 7 && f.code == 2 && f.src == x.peer && f.sqp == x.peerQp && x.owns f.psn

/-- A frame fails its tag check (R279). -/
def State.authFail (s : State) (q : Nat) (f : RirisFrame) : State :=
  (s.modPorter (homeOf q) (fun p => { p with authFail := p.authFail + 1 })).logQp q 0x2103 scAccess
    (frameArgs (some f))

/-- An authenticated frame of queue pair `q`. A frame to a pair in ERROR is answered with NAK STATE when
it is sequenced (R264, R276). -/
def State.rxAuthed (s : State) (q : Nat) (f : RirisFrame) : State :=
  let seq := f.cls != 6 && f.cls != 7
  if (s.qp q).st = .error then
    if seq && (s.qp q).txseq != BitVec.allOnes 56 then s.sendNak q 5 f.psn 0 else s
  else if f.cls = 7 then s.rxNak q f
  else if seq then
    let s1 := s.takeHeader q f
    if (s1.qp q).st = .active then s1.rxSeq q f else s1
  else s.takeHeader q f

/-- A frame whose context is cached (R268, R277, R279, R281). -/
def State.rxCached (s : State) (f : RirisFrame) : State :=
  let q := f.dqp.toNat
  let m := homeOf q
  let s1 := s.modPorter m (fun p => { p with injAuth := false })
  if (s.porter m).injAuth then s1.authFail q f
  else if s.tagOk f then s1.rxAuthed q (openFrame f (s.rxKey q))
  else if (s.qp q).busyNak f ∧ (s.qp q).st = .active then
    (s1.modQp q (fun x => { x with lastNak := 2 })).qpBusy q f.psn
  else s1.authFail q f

/-- A Riris frame has been received: its link counts it (R243). -/
def State.ririsIn (s : State) (f : RirisFrame) : State :=
  s.frameIn f.src.toNat f.dst.toNat f.dqp.toNat f.prio.toNat (frameLen f)

/-- Is the frame one that can come in: for this module, and one that the module sent itself only when it is the
next that crosses the causeway to its peer queue pair (R295)? -/
def State.comesIn (s : State) (f : RirisFrame) : Bool :=
  s.clocked && f.dst.toNat == s.coord && (f.src.toNat != s.coord || s.selfFrames.head? == some f)

/-- A frame is taken from its link, or from the causeway. -/
def State.takeIn (s : State) (f : RirisFrame) : State :=
  if f.src.toNat = s.coord then { s with selfFrames := s.selfFrames.tail } else s.ririsIn f

/-- A frame that finds its context in the cache (R268). -/
def State.rxHit (s : State) (f : RirisFrame) : State :=
  (s.modPorter (homeOf f.dqp.toNat) (fun p => { p with hits := p.hits + 1 })).rxCached f

/-- A frame of class `cls` for this module whose context is cached arrives; anything else is no such
event (log entry 1). -/
def State.rxFrame (s : State) (classes : List Byte) (f : RirisFrame) : State :=
  if s.comesIn f ∧ s.rxKnown f ∧ classes.contains f.cls ∧ (s.qp f.dqp.toNat).cached then (s.takeIn f).rxHit f
  else s

/-- A frame that no Porter knows is discarded and counted, never answered (R255). -/
def State.rxUnknown (s : State) (f : RirisFrame) : State :=
  s.modPorter (homeOf f.dqp.toNat) (fun p => { p with rxUnknown := p.rxUnknown + 1 })

/-! Context misses. -/

/-- Fetch a context, unless it is being fetched (R268). -/
def State.startFetch (s : State) (q : Nat) : State :=
  if (s.porter (homeOf q)).fetching.contains q then s
  else s.modPorter (homeOf q) (fun p => { p with fetching := p.fetching ++ [q], misses := p.misses + 1 })

/-- NAK CONTEXT_BUSY, unprotected (R268, R278). -/
def State.busyReply (s : State) (f : RirisFrame) : State :=
  s.ship { f with
    cls := 7, first := true, last := true, src := BitVec.ofNat 20 s.coord, dst := f.src, dqp := f.sqp,
    sqp := f.dqp, txseq := 0, code := 2, rkey := 0, roff := 0, oplen := 0, toll := 0, ackpsn := 0,
    payload := [], tag := 0 }

/-- A frame arrives for a context that is not cached (R268). -/
def State.rxMiss (s : State) (f : RirisFrame) : State :=
  let q := f.dqp.toNat
  let m := homeOf q
  if (s.porter m).used + units (frameLen f) ≤ 1024 then
    (s.modPorter m (fun p => { p with parked := p.parked ++ [{ qp := q, frame := f, since := s.now }] })).startFetch q
  else
    ((s.modPorter m (fun p => { p with busyNaks := p.busyNaks + 1 })).logQp q 0x2101 scBusy (frameArgs (some f))).busyReply f

/-- The next frame of the module to itself reaches its peer queue pair (R295). -/
def State.rxSelf (s : State) : State :=
  match s.selfFrames with
  | [] => s
  | f :: rest =>
    let s1 := { s with selfFrames := rest }
    if s1.rxKnown f = false then s1.rxUnknown f
    else if (s1.qp f.dqp.toNat).cached then s1.rxHit f
    else s1.rxMiss f

/-- Discard the parked frames of queue pair `q`. -/
def State.dropParked (s : State) (q : Nat) : State :=
  s.modPorter (homeOf q) (fun p => { p with parked := p.parked.filter (fun e => e.qp != q) })

/-- Where context `q` lies in the pool of a partition (R252). -/
def State.contextAddr (s : State) (part q : Nat) : Nat :=
  let base := match (s.part part).cfg with
    | some c => c.qpBase
    | none => 0
  (s.page (homeOf q) part).pool.toNat + 128 * (q - base)

/-- Where a context lies in its partition's pool. -/
def State.poolAddr (s : State) (q : Nat) : Nat := s.contextAddr (s.qp q).part.toNat q

/-- Do the 128 bytes of a context lie in a placement of class 2 of the partition (R252)? -/
def State.contextPlaced (s : State) (part q : Nat) : Bool :=
  (s.part part).mem.placements.any (fun e =>
    e.2.cls == 2 && inside (s.contextAddr part q) 128 e.2.base e.2.size)

/-- Is a context idle (R267)? -/
def State.idleQp (s : State) (q : Nat) : Bool :=
  let x := s.qp q
  let m := homeOf q
  x.unacked.isEmpty && x.reserved == 0 && !(s.porter m).parked.any (fun e => e.qp == q)
    && x.queued.isEmpty && x.reads.isEmpty && x.behind.isEmpty && !s.pendingOn q
    && !((s.page m x.part.toNat).busy && (s.page m x.part.toNat).idx.toNat == q)

/-- The cached contexts of lantern `m`. -/
def State.cachedOf (s : State) (m : Nat) : List Nat :=
  (s.qps.filter (fun e => homeOf e.1 == m && e.2.cached)).map Prod.fst

/-- The least recently used idle context of lantern `m` that is not pinned (R267). -/
def State.victim (s : State) (m : Nat) : Option Nat :=
  let l := (s.cachedOf m).filter (fun q => !(s.qp q).pinned && s.idleQp q)
  match l with
  | [] => none
  | q :: rest => some (rest.foldl (fun b c => if (s.qp c).used < (s.qp b).used then c else b) q)

/-- Bytes 64 to 127 of a context are private to Porter: free values (Table 9.1). -/
def State.privBytes (s : State) : Nat → State × List Byte
  | 0 => (s, [])
  | n + 1 =>
    let r := s.useFree.privBytes n
    (r.1, s.freeVal.setWidth 8 :: r.2)

/-- Write a context's bytes to its place in the pool (R252, R267), where the partition's placements admit them
(R198). -/
def State.writeContext (s : State) (q : Nat) : State :=
  let p := (s.qp q).part.toNat
  if s.contextPlaced p q then
    let r := s.privBytes 64
    (r.1.store 0 (some p) (s.poolAddr q) ((s.qp q).bytes64 ++ r.2)).1
  else s

/-- Write a context back to the pool and free its slot (R267). -/
def State.evict (s : State) (q : Nat) : State :=
  (s.writeContext q).modQp q (fun x => { x with cached := false })

/-- Make room in the cache of queue pair `q`'s home: none when every context is busy or pinned. -/
def State.makeRoom (s : State) (q : Nat) : Option State :=
  if (s.cachedOf (homeOf q)).length < 4096 then some s
  else
    match s.victim (homeOf q) with
    | some v => some (s.evict v)
    | none => none

/-- Process the parked frames of queue pair `q` in arrival order (R268). -/
def State.rxParked (s : State) (q : Nat) : State :=
  let l := (s.porter (homeOf q)).parked.filter (fun e => e.qp == q)
  eachDo l (fun e t =>
    if (t.qp q).cached ∧ t.rxKnown e.frame then t.rxCached e.frame else t) (s.dropParked q)

/-- A fetch that met an uncorrectable word (R269, Table 7.7). -/
def State.fetchBad (s : State) (q : Nat) : State :=
  let a := s.poolAddr q
  let s1 := if s.uncorrIn 0 [(a, 128)] then s.touchRead 0 [(a, 128)]
    else match s.mem.cisKey a with
      | some k => s.logCis (k / 2 ^ 34 / 16) 0x3103 scUncorr (some (s.qp q).part.toNat) (addrWords a)
      | none => s
  (s1.dropParked q).qpError q scUncorr

/-- Cores that wait for a context issue again (R257). -/
def State.wakeContext (s : State) (q : Nat) : State :=
  eachDo (s.cores.map Prod.fst) (fun p t =>
    if (t.core p).wait = .context q then t.endWait p else t) s

end Sys2Proof.Machine
end

