-- ==== Sys2Proof/Machine/Signals.lean ====
section
/-!
DEFINITION. Tokens, tolls, fences, host notes and core faults (R143 to R146, R168 to R170, R207, R257,
R258, R302, R415).
-/

namespace Sys2Proof.Machine

/-- Issue a write or a signal of core `p`: while a FENCE is in progress the core waits for it and issues
the instruction again afterwards (R168, R169). -/
def State.issueWrite (s : State) (p : Nat) (stm : BitVec 3) (g : State → State) : State :=
  match (s.core p).fence with
  | some _ => s.beginWait p .fence stm
  | none => g (s.issued p)

/-- TOKWAIT takes its tokens (R143). -/
def State.takeTokens (s : State) (p : Nat) (b : Buf) (n : Nat) (consume : Bool) : State :=
  if consume then s.setTok p b (s.tok p b - n) else s

/-- TOKWAIT (R143, R207): a MISSING mark is a core fault; N tokens continue; otherwise the core waits. -/
def execTokwait (i : Issue) (buf : BitVec 14) (n : BitVec 8) (consume : Bool) (s : State) :
    Host.Outcome State Fault Refusal :=
  .next (match s.issuing i.core (.tokwait i buf n consume) with
    | none => s
    | some p =>
      let s0 := s.issued p
      match s0.bufRef p (s0.partNo i.core) i.stm buf with
      | none => s0.refFault p scIllegal i.stm
      | some b =>
        if s0.missing p b then s0.coreFault p scUncorr 0x100C false i.stm []
        else if n.toNat ≤ s0.tok p b then (s0.takeTokens p b n.toNat consume).advance p i.stm
        else s0.beginWait p (.token b n.toNat consume) i.stm)

/-- TOKWAIT_SATISFIED (R143): the count has reached N. -/
def execTokwaitSatisfied (core : Nat) (s : State) : Host.Outcome State Fault Refusal :=
  .next (match s.waiting core with
    | none => s
    | some p =>
      match (s.core p).wait with
      | .token b n consume =>
        if n ≤ s.tok p b then ((s.takeTokens p b n consume).endWait p).advance p (s.core p).waitStm else s
      | _ => s)

/-- TOKPOST (R143, R169): a post that would take the count above 255 changes nothing and is a core
fault. -/
def execTokpost (i : Issue) (buf : BitVec 14) (n : BitVec 8) (s : State) :
    Host.Outcome State Fault Refusal :=
  .next (match s.issuing i.core (.tokpost i buf n) with
    | none => s
    | some p => s.issueWrite p i.stm (fun s0 =>
      match s0.bufRef p (s0.partNo i.core) i.stm buf with
      | none => s0.refFault p scIllegal i.stm
      | some b =>
        match s0.post p b n.toNat with
        | some s1 => (s1.tallyAdd p tlTOKPOSTS 1).advance p i.stm
        | none => s0.coreFault p scIllegal 0x1007 false i.stm []))

/-- RELEASE (R144): the free space of a depot buffer is SIZE again. -/
def execRelease (i : Issue) (buf : BitVec 14) (s : State) : Host.Outcome State Fault Refusal :=
  .next (match s.issuing i.core (.release i buf) with
    | none => s
    | some p =>
      let s0 := s.issued p
      match s0.bufRef p (s0.partNo i.core) i.stm buf with
      | some (.depot d b) =>
        (s0.modDie d (fun x => x.modBuf b (fun y => { y with free := y.size / 256 }))).advance p i.stm
      | _ => s0.refFault p scIllegal i.stm)

/-! Tolls. -/

/-- What the check of a queue pair at issue answers (R257). -/
inductive QpCheck
  | ok | refused | fetch
  deriving DecidableEq, Repr

/-- R257's checks of a queue pair that an instruction of partition `part` names. -/
def State.checkQp (s : State) (part q : Nat) : QpCheck :=
  if s.ownsQp part q = false ∨ (s.qp q).st ≠ .active then .refused
  else if (s.qp q).cached then .ok else .fetch

/-- The core waits for the fetch of a context and issues again afterwards (R257). -/
def State.waitContext (s : State) (p q : Nat) (stm : BitVec 3) : State :=
  (s.startFetch q).beginWait p (.context q) stm

/-- The key of a toll balance (R144). -/
def tollKey (cls target : Nat) : Nat := cls * 2 ^ 20 + target

/-- May a TOLLREQ be made at all (R138, R144, R257)? The answer is a core-fault code, 0 when it may. -/
def State.tollCheck (s : State) (p part : Nat) (cls target amount : Nat) : Nat :=
  match cls with
  | 0 =>
    match s.bufRef p part 0 (BitVec.ofNat 14 target) with
    | some (.depot _ _) => if target < 2 ^ 14 then 0 else 0x1009
    | _ => 0x1009
  | 1 => if target < 12 then 0 else 0x1009
  | 2 => if target < 12 then 0 else 0x1009
  | 3 =>
    if s.ownsQp part target = false ∨ (s.qp target).st ≠ .active ∨ (s.qp target).rxwin.toNat < amount then
      0x100D
    else 0
  | _ => 0x1009

/-- TOLLREQ (R144, Table 5.7): the core waits in the order of R145 until TOLL_GRANT. -/
def execTollreq (i : Issue) (cls : BitVec 4) (target : BitVec 20) (amount : BitVec 24) (s : State) :
    Host.Outcome State Fault Refusal :=
  .next (match s.issuing i.core (.tollreq i cls target amount) with
    | none => s
    | some p =>
      let code := s.tollCheck p (s.partNo i.core) cls.toNat target.toNat amount.toNat
      if code ≠ 0 then (s.issued p).coreFault p scIllegal code false i.stm []
      else if cls = 3 ∧ (s.qp target.toNat).cached = false then s.waitContext p target.toNat i.stm
      else
        let s1 := (s.issued p).beginWait p (.toll cls.toNat target.toNat amount.toNat) i.stm
        { s1 with tollWait := s1.tollWait ++ [p] })

/-- Can the receiver grant this toll now (Table 5.7, R117, R258, R302)? -/
def State.tollRoom (s : State) (cls target amount : Nat) : Bool :=
  match cls with
  | 0 =>
    match (s.die (bits target 11 8)).dbufs.find? (fun e => e.1 == bits target 7 0) with
    | some e => decide (amount ≤ e.2.free)
    | none => false
  | 1 =>
    let u := (s.die target).upd
    decide (u.queue.length + u.committed + amount ≤ 32)
  | 2 => decide (256 * amount ≤ (s.house target).coreFree)
  | _ => decide (amount + (s.qp target).reserved ≤ (s.qp target).avail)

/-- The receiver grants a toll. -/
def State.tollTake (s : State) (cls target amount : Nat) : State :=
  match cls with
  | 0 => s.modDie (bits target 11 8) (fun d =>
      d.modBuf (bits target 7 0) (fun b => { b with free := b.free - amount }))
  | 1 => s.modDie target (fun d => { d with upd := { d.upd with committed := d.upd.committed + amount } })
  | 2 => s.modHouse target (fun h => { h with coreFree := h.coreFree - 256 * amount })
  | _ => s.modQp target (fun x => { x with reserved := x.reserved + amount })

/-- The receiver a core's request is for. -/
def Core.tollTarget (c : Core) : Option (Nat × Nat) :=
  match c.wait with
  | .toll cls target _ => some (cls, target)
  | _ => none

/-- Is core `p` the first that waits for its receiver (R145)? -/
def State.firstFor (s : State) (p : Nat) : Bool :=
  (s.tollWait.find? (fun k => (s.core k).tollTarget == (s.core p).tollTarget)) == some p

/-- TOLL_GRANT (R144, R145): the receiver has AMOUNT units and no earlier request waits for it. -/
def execTollGrant (core : Nat) (s : State) : Host.Outcome State Fault Refusal :=
  .next (match s.waiting core with
    | none => s
    | some p =>
      match (s.core p).wait with
      | .toll cls target amount =>
        if s.firstFor p ∧ s.tollRoom cls target amount then
          let s1 := s.tollTake cls target amount
          let s2 := s1.modCore p (fun c => { c with
            tolls := tabMod 0 c.tolls (tollKey cls target) (· + amount) })
          let s3 := { s2 with tollWait := s2.tollWait.filter (· != p) }
          (s3.endWait p).advance p (s.core p).waitStm
        else s
      | _ => s)

/-! Fences and notes. -/

/-- FENCE (R168): it covers every write the core has started; the core goes on, and its later writes and
signals wait for FENCE_COMPLETE. A FENCE while one is in progress covers the same writes. -/
def execFence (i : Issue) (s : State) : Host.Outcome State Fault Refusal :=
  .next (match s.issuing i.core (.fence i) with
    | none => s
    | some p =>
      let s0 := (s.issued p).modCore p (fun c =>
        { c with fence := some (c.ops.map (fun o => o.id)) })
      s0.advance p i.stm)

/-- FENCE_COMPLETE (R168, R170): every write that the FENCE covers is visible. -/
def execFenceComplete (core : Nat) (s : State) : Host.Outcome State Fault Refusal :=
  .next (match s.waiting core with
    | none => s
    | some p =>
      let c := s.core p
      match c.fence with
      | some l =>
        if c.ops.all (fun o => !l.contains o.id) then
          let s1 := s.modCore p (fun c => { c with fence := none })
          match c.wait with
          | .fence => s1.endWait p
          | _ => s1
        else s
      | none => s)

/-- HOSTNOTE (R415). -/
def execHostnote (i : Issue) (queue : BitVec 8) (payload : Word) (s : State) :
    Host.Outcome State Fault Refusal :=
  .next (match s.issuing i.core (.hostnote i queue payload) with
    | none => s
    | some p => s.issueWrite p i.stm (fun s0 =>
      let q := s0.partNo i.core
      (s0.deliver (s0.fnOfPart q)
        { cid := 0xFFFF, status := 0, kind := 1, queue := queue.toNat,
          result0 := w64 (payload.toNat + 2 ^ 32 * i.core + 2 ^ 40 * q),
          result1 := w64 (s0.core p).pc }).advance p i.stm))

/-- Serai takes the pending fault of physical core `p` (R146, Table 5.8). -/
def State.takeFault (s : State) (p : Nat) : State :=
  let c := s.core p
  if c.faultPending then
    let s1 := s.setCore p { c with faultPending := false }
    match s.partOfPhys p with
    | some q => s1.partFault q p c.faultStatus.toNat (c.faultOwn && decide (c.faultStatus = st8 scUncorr))
    | none => if c.faultOwn then s1.quarantine p else s1
  else s

/-- CORE_FAULT_REPORT (R146, Table 5.8): Serai takes the fault of Ck of CDn. -/
def execCoreFaultReport (n k : Nat) (s : State) : Host.Outcome State Fault Refusal :=
  .next (if s.clocked ∧ k < 22 ∧ n < 12 then s.takeFault (22 * n + k) else s)

end Sys2Proof.Machine
end

