-- ==== Sys2Proof/Machine/Milestone.lean ====
section
/-!
DEFINITION. Milestones: MSARRIVE, arrivals, releases, watchdogs, abandons, holds, replay requests and
definitions (R154, R171 to R185).
-/

namespace Sys2Proof.Machine

/-- A core fault of an MSARRIVE whose code is a milestone code (R172, R188). -/
def State.msIllegal (s : State) (p q code : Nat) (o : Option Nat) (stm : BitVec 3) : State :=
  (s.logMsCore p q code scIllegal o []).coreFaultSeen p scIllegal code false stm

/-- MSARRIVE (R154, R172, R183). -/
def execMsarrive (i : Issue) (mid : BitVec 16) (wait rp vr : Bool) (s : State) :
    Host.Outcome State Fault Refusal :=
  .next (match s.issuing i.core (.msarrive i mid wait rp vr) with
    | none => s
    | some p => s.issueWrite p i.stm (fun s0 =>
      let q := s0.partNo i.core
      if vr && !rp then s0.refFault p scIllegal i.stm
      else
        match (s0.ms q).find mid with
        | none => s0.msIllegal p q 0x1010 none i.stm
        | some o =>
          if !((s0.ms q).coresOf o).contains i.core then s0.msIllegal p q 0x1011 (some o) i.stm
          else if (s0.ms q).abandoned then
            (s0.modCore p (fun c => { c with waitStm := i.stm })).msFault p q o (s0.obj q o).gen scAbandoned
          else s0.arrive p q i.core o wait rp vr i.stm))

/-- MS_LOCAL_ARRIVAL (R172, R173): the arrival of a core reaches Serai and is counted; the complete
generation is due for release, or its arrival goes up the tree. -/
def execMsLocalArrival (part obj core : Nat) (s : State) : Host.Outcome State Fault Refusal :=
  .next (if s.clocked && (s.obj part obj).coming.contains core then s.countArrival part obj core else s)

/-! Messages. -/

/-- The partitions of this module that a message's job names (R175). -/
def State.jobOf (s : State) (job : Word) : List Nat :=
  (List.range 16).filter (fun r => (s.part r).cfg.isSome && (s.ms r).jobId == job && job != 0)

/-- Does a message name the object's context and the job's recovery count (R175)? -/
def State.msCurrent (s : State) (q : Nat) (m : MsMsg) : Bool :=
  m.ctx == (s.ms q).ctx && m.rcount == (s.ms q).rcount

/-- An arrival message at one partition (R174, R175). -/
def State.arrivalAt (s : State) (q : Nat) (m : MsMsg) : State :=
  match (s.ms q).find m.mid with
  | none => s.msStale q none
  | some o =>
    let x := s.obj q o
    if m.gen = x.gen ∧ m.ctx = x.ctx ∧ m.rcount = (s.ms q).rcount then
      let l := s.childLevel m.src.toNat
      if ((s.ms q).node l).host then
        s.nodeArrival q o m.src
          { digest := m.foldDigest, epoch := m.foldEpoch, mod := m.foldMod, mismatch := m.mismatch } l 7
      else s
    else s.msStale q (some o)

/-- Is this message for this module and of this kind? -/
def State.msHere (s : State) (m : MsMsg) (k : MsKind) : Bool :=
  s.clocked && decide (m.dst.toNat = s.coord) && decide (m.kind = k)

/-- Act on a message of kind `k` for this module, when its frame comes in order (R235). -/
def State.onMsg (s : State) (m : MsMsg) (k : MsKind) (act : State → State) : State :=
  if s.msHere m k then
    let r := s.msIn m
    if r.2 then act r.1 else r.1
  else s

/-- MS_ARRIVAL_MSG (R174, R175, R177): an arrival of a child at a node hosted here. -/
def execMsArrivalMsg (m : MsMsg) (s : State) : Host.Outcome State Fault Refusal :=
  .next (s.onMsg m .arrival (fun s =>
    eachDo (s.jobOf m.job) (fun q t => if (t.ms q).hosted.isEmpty then t else t.arrivalAt q m) s))

/-- A release message at one partition (R173, R175, R178). -/
def State.releaseAt (s : State) (q : Nat) (m : MsMsg) : State :=
  match (s.ms q).find m.mid with
  | none => s.msStale q none
  | some o =>
    let x := s.obj q o
    if m.gen = x.gen ∧ m.ctx = x.ctx ∧ m.rcount = (s.ms q).rcount then
      let f : Fold := { digest := m.foldDigest, epoch := m.foldEpoch, mod := m.foldMod, mismatch := m.mismatch }
      s.release q o m.status.toNat (f.modOf m.status.toNat)
    else s.msStale q (some o)

/-- Pass a message of the root on to the children of the nodes hosted here (R174). -/
def State.passDown (s : State) (m : MsMsg) : State :=
  match s.jobOf m.job with
  | q :: _ => s.msDown q m
  | [] => s

/-- Pass a message on towards the root. -/
def State.passUp (s : State) (m : MsMsg) : State :=
  match s.jobOf m.job with
  | q :: _ => s.msUp q m
  | [] => s

/-- Does the release message name the generation, context and recovery count of an object of partition `q` that has
not been abandoned (R175, R183)? -/
def State.releaseCurrent (s : State) (q : Nat) (m : MsMsg) : Bool :=
  match (s.ms q).find m.mid with
  | none => false
  | some o =>
    m.gen == (s.obj q o).gen && m.ctx == (s.obj q o).ctx && m.rcount == (s.ms q).rcount && !(s.ms q).abandoned

/-- MS_RELEASE (R173, R174): the release that is due at this module's root, or one that comes down the
tree: it goes on to the children unless it is discarded here. -/
def execMsRelease (r : MsRelease) (s : State) : Host.Outcome State Fault Refusal :=
  .next (match r with
    | .own part obj =>
      match (if s.clocked then (s.obj part obj).due else none) with
      | some f => s.rootRelease part obj f.status f
      | none => s
    | .message m =>
      s.onMsg m .release (fun s =>
        let qs := s.jobOf m.job
        eachDo qs (fun q t => t.releaseAt q m)
          (match qs.find? (fun q => s.releaseCurrent q m) with
            | some q => s.msDown q m
            | none => s)))

/-- Bit c of MS_MISS_CHILD for level `l`: child c, in ascending order, has not arrived (R179). -/
def State.missChildren (s : State) (q o l : Nat) : Nat :=
  let cs := tabGet [] (s.obj q o).nodes l
  (s.childCoords q l).zipIdx.foldl (fun a e =>
    if cs.any (fun c => c.src.toNat == e.1) then a else a + 2 ^ e.2) 0

/-- What a watchdog records (R179). -/
def State.recordMiss (s : State) (q o : Nat) : State :=
  let m := s.ms q
  let miss := (m.coresOf o).filter (fun l => !(s.obj q o).arrived.contains l)
  let ch := if (m.obj o).jobwide then
      m.hosted.foldl (fun (a : BitVec 16) l => a ||| BitVec.ofNat 16 (s.missChildren q o l)) 0
    else 0
  s.modMs q (fun m => { m with
    miss := BitVec.ofNat 256 (miss.foldl (fun a l => a + 2 ^ l) 0), missChild := ch,
    nMiss := BitVec.ofNat 8 miss.length, firstMiss := BitVec.ofNat 8 (miss.head?.getD 255) })

/-- The watchdog's notice to the root, which releases the generation with WATCHDOG (R179, R180). -/
def State.noticeRoot (s : State) (q o : Nat) : State :=
  let x := s.obj q o
  if (s.ms q).rootHere then s.rootRelease q o scWatchdog (s.ownFold q)
  else s.msUp q (s.msMsg q .watchdogNotice x.mid x.gen scWatchdog)

/-- MS_WATCHDOG_FIRE (R179, R181): the command is the passing of the watchdog's time (log entry 4). -/
def execMsWatchdogFire (part obj : Nat) (s : State) : Host.Outcome State Fault Refusal :=
  .next (
    let x := s.obj part obj
    let m := s.ms part
    if s.clocked ∧ x.valid ∧ x.since.isSome ∧ x.fired = false ∧ x.due.isNone ∧ m.hold = 0
        ∧ m.replayReq = false then
      let s1 := (s.recordMiss part obj).modObj part obj (fun y => { y with fired := true })
      let s2 := (s1.logMs part 0x0130 scWatchdog (some obj) []).stopWaiters part obj x.gen scWatchdog
      if x.jobwide then s2.noticeRoot part obj else s2
    else s)

/-- A watchdog notice (R175, R180): at the root the generation is released with WATCHDOG, or the notice is ignored
after its release with OK; below the root a notice that may still matter goes on. -/
def State.noticeAt (s : State) (q : Nat) (m : MsMsg) : State :=
  match (s.ms q).find m.mid with
  | none => s.msStale q none
  | some o =>
    let x := s.obj q o
    if m.ctx = x.ctx ∧ m.rcount = (s.ms q).rcount ∧ (m.gen = x.gen ∨ (m.gen + 1 = x.gen ∧ x.lastOk)) then
      if (s.ms q).rootHere = false then s.msUp q m
      else if m.gen = x.gen ∧ x.due.isNone then s.rootRelease q o scWatchdog (s.ownFold q)
      else s.logMs q 0x0136 scOk (some o) []
    else s.msStale q (some o)

/-- MS_WATCHDOG_NOTICE (R175, R180). -/
def execMsWatchdogNotice (m : MsMsg) (s : State) : Host.Outcome State Fault Refusal :=
  .next (s.onMsg m .watchdogNotice (fun s =>
    match s.jobOf m.job with
    | [] => s
    | q :: _ => s.noticeAt q m))

/-- A message that the root broadcasts to the job (R181, R183): at the root and on the way down it acts
by `act` on the partitions here; on the way up it goes on. -/
def State.broadcast (s : State) (m : MsMsg) (act : Nat → State → State) : State :=
  match s.jobOf m.job with
  | [] => s
  | q :: _ =>
    if s.msCurrent q m = false then s.msStale q none
    else if (s.ms q).rootHere ∨ s.fromParent q m then
      eachDo (s.jobOf m.job) act (s.passDown { m with ctx := (s.ms q).ctx })
    else s.passUp m

/-- MS_ABANDON (R183). -/
def execMsAbandon (m : MsMsg) (s : State) : Host.Outcome State Fault Refusal :=
  .next (s.onMsg m .abandon (fun s => s.broadcast m (fun q t => t.abandonAt q)))

/-- MS_HOLD (R181). -/
def execMsHold (m : MsMsg) (s : State) : Host.Outcome State Fault Refusal :=
  .next (s.onMsg m .hold (fun s => s.broadcast m (fun q t => t.holdAt q true)))

/-- MS_WITHDRAWAL (R181). -/
def execMsWithdrawal (m : MsMsg) (s : State) : Host.Outcome State Fault Refusal :=
  .next (s.onMsg m .withdrawal (fun s => s.broadcast m (fun q t => t.holdAt q false)))

/-- A replay request at one partition (R159, R175): one with the recovery count plus one is taken; one with the
present count is a further copy of the request that is under way; any other is stale. -/
def State.replayAt (s : State) (q : Nat) (m : MsMsg) : State :=
  let x := s.part q
  if m.rcount = x.ms.rcount + 1 then s.replayPart q m.status.toNat m.mid m.gen
  else if m.rcount = x.ms.rcount then s
  else s.msStale q none

/-- MS_REPLAY_REQUEST (R159, R175, R181): the first that carries the recovery count plus one is taken.
It goes on towards the root, or from there to the job. -/
def execMsReplayRequest (m : MsMsg) (s : State) : Host.Outcome State Fault Refusal :=
  .next (s.onMsg m .replayRequest (fun s =>
      match s.jobOf m.job with
      | [] => s
      | q :: _ =>
        let new := decide (m.rcount = (s.ms q).rcount + 1)
        let s1 :=
          if new = false then s
          else if s.fromParent q m ∨ (s.ms q).rootHere then s.passDown m
          else s.passUp m
        eachDo (s.jobOf m.job) (fun r t => t.replayAt r m) s1))

/-! Definitions. -/

/-- MS_OBJ[o].DEF from a word (Table 6.5). -/
def MsObj.define (x : MsObj) (v : Word) (ctx : Byte) : MsObj :=
  { x with mid := v.setWidth 16, group := (v >>> 16).setWidth 4, jobwide := v.getLsbD 20,
           valid := v.getLsbD 21, ctx := ctx }

/-- MS_NODE[l] from a word. -/
def nodeOf (v : Word) : MsNode :=
  { target := v.setWidth 20, children := (v >>> 20).setWidth 5, host := v.getLsbD 25, top := v.getLsbD 26 }

/-- Group mask with word `w` written; the bits of cores 240 to 255 are reserved. -/
def groupSet (g : BitVec 256) (w : Nat) (v : Word) : BitVec 256 :=
  let old := g.toNat
  let keep := old - bits old (32 * w + 31) (32 * w) * 2 ^ (32 * w)
  BitVec.ofNat 256 ((keep + v.toNat * 2 ^ (32 * w)) % 2 ^ 240)

/-- The milestone block after a write that R171 governs; none when the write is discarded: two valid
objects of one MID, or an object with a group of no cores. -/
def Milestones.write (m : Milestones) (off : Nat) (v : Word) : Option Milestones :=
  if off = 0x08 then some { m with jobId := v }
  else if 0x10 ≤ off ∧ off < 0x28 then
    some { m with nodes := tabSet m.nodes ((off - 0x10) / 4 + 1) (nodeOf v) }
  else if 0x100 ≤ off ∧ off < 0x1100 ∧ off % 16 = 0 then
    let o := (off - 0x100) / 16
    let x := (m.obj o).define v m.ctx
    let clash := (List.range 256).any (fun k => k != o && (m.obj k).valid && (m.obj k).mid == x.mid)
    if x.valid && (clash || m.group x.group.toNat == 0) then none
    else some { m with objs := tabSet m.objs o x }
  else
    let g := (off - 0x1100) / 32
    let mask := groupSet (m.group g) ((off - 0x1100) % 32 / 4) v
    if mask == 0 && m.objs.any (fun e => e.2.valid && e.2.group.toNat == g) then none
    else some { m with groups := tabSet m.groups g mask }

/-- Is the offset one of the registers that R171 governs? -/
def msDefOff (off : Nat) : Bool :=
  off % 4 == 0 && (off == 0x08 || (decide (0x10 ≤ off) && decide (off < 0x28))
    || (decide (0x100 ≤ off) && decide (off < 0x1100) && off % 16 == 0)
    || (decide (0x1100 ≤ off) && decide (off < 0x1300)))

end Sys2Proof.Machine
end

