-- ==== Sys2Proof/Machine/Operands.lean ====
section
/-!
DEFINITION. Waybills and the elements they describe (R28, R33, R35, R52, R134 to R136, R478).
-/

namespace Sys2Proof.Machine

/-- A little-endian field of a byte list. -/
def fieldLe (bs : List Byte) (a n : Nat) : Nat := leNat ((bs.drop a).take n)

/-- Three fields of `n` bytes each from byte `a` on. -/
def fieldLe3 (bs : List Byte) (a n : Nat) : Nat × Nat × Nat :=
  (fieldLe bs a n, fieldLe bs (a + n) n, fieldLe bs (a + 2 * n) n)

/-- A waybill from its 64 bytes (Table 5.4). -/
def parseWaybill (bs : List Byte) : Waybill :=
  let b18 := fieldLe bs 18 1
  let b19 := fieldLe bs 19 1
  { base := fieldLe bs 0 6, scalePtr := fieldLe bs 6 6, tensorId := w32 (fieldLe bs 12 4),
    tag := BitVec.ofNat 16 (fieldLe bs 16 2), fmt := bits b18 3 0, kaxis := bits b18 5 4,
    trec := bits b19 5 0, whole := fieldLe3 bs 20 4, origin := fieldLe3 bs 32 4,
    piece := fieldLe3 bs 44 2, stride0 := fieldLe bs 52 4, stride1 := fieldLe bs 56 4,
    zeros := fieldLe bs 0 6 < 2 ^ 44 && fieldLe bs 6 6 < 2 ^ 44 && decide (b18 < 64) && decide (b19 < 64)
      && fieldLe bs 50 2 == 0 && fieldLe bs 60 4 == 0 }

/-- The extent of the piece in dimension d (R478). -/
def Waybill.ext (w : Waybill) (d : Nat) : Nat :=
  match d with
  | 0 => w.piece.1 + 1
  | 1 => w.piece.2.1 + 1
  | _ => w.piece.2.2 + 1

def Waybill.wholeAt (w : Waybill) (d : Nat) : Nat :=
  match d with
  | 0 => w.whole.1
  | 1 => w.whole.2.1
  | _ => w.whole.2.2

def Waybill.originAt (w : Waybill) (d : Nat) : Nat :=
  match d with
  | 0 => w.origin.1
  | 1 => w.origin.2.1
  | _ => w.origin.2.2

/-- Elements of the piece. -/
def Waybill.count (w : Waybill) : Nat := w.ext 0 * w.ext 1 * w.ext 2

/-- Bits of `n` elements as whole bytes. -/
def rowLen (fmt n : Nat) : Nat := (n * fmtBits fmt + 7) / 8

/-- Bytes of one row of the piece. -/
def Waybill.rowBytes (w : Waybill) : Nat := rowLen w.fmt (w.ext 2)

/-- Bytes of the piece. -/
def Waybill.bytes (w : Waybill) : Nat := w.ext 0 * w.ext 1 * w.rowBytes

/-- Elements per whole-word group of a format (R33). -/
def fmtGroup : Nat → Nat
  | 0 => 1
  | 1 => 2
  | 2 => 2
  | 3 => 4
  | 4 => 4
  | 5 => 16
  | 6 => 16
  | 7 => 8
  | _ => 1

/-- A row begins on a word and spans whole words (R33). -/
def Waybill.rowsOk (w : Waybill) : Bool :=
  w.base % 4 == 0 && w.stride0 % 4 == 0 && w.stride1 % 4 == 0 && w.ext 2 % fmtGroup w.fmt == 0

/-- Well formed, but for the window test (R28, R33, R135, Table 5.4). -/
def Waybill.wellFormed (w : Waybill) : Bool :=
  decide (w.fmt ≤ 8) && w.zeros && w.scalePtr % 4 == 0
    && ([0, 1, 2] : List Nat).all (fun d => decide (w.originAt d + w.ext d ≤ w.wholeAt d))
    && decide (w.wholeAt 0 * w.wholeAt 1 * w.wholeAt 2 ≤ 2 ^ 64)
    && w.rowsOk && decide (w.rowBytes ≤ w.stride1) && decide (w.stride1 * w.ext 1 ≤ w.stride0)
    && w.kaxis != 3

/-- The rows of the piece, in row-major order, as ranges of addresses. -/
def Waybill.rows (w : Waybill) : List (Nat × Nat) :=
  (List.range (w.ext 0)).flatMap (fun a =>
    (List.range (w.ext 1)).map (fun b => (w.base + a * w.stride0 + b * w.stride1, w.rowBytes)))

/-- Do the rows of the piece follow one another without a gap? -/
def Waybill.dense (w : Waybill) : Bool :=
  (w.ext 1 == 1 || w.stride1 == w.rowBytes) && (w.ext 0 == 1 || w.stride0 == w.ext 1 * w.rowBytes)

/-- The accesses that the piece stands for: its rows, but one access of 64 bytes where 64 bytes without a gap go to
an update port, whatever their rows (R117, R137). -/
def Waybill.segs (w : Waybill) : List (Nat × Nat) :=
  if tierOf w.base = .port ∧ w.dense = true ∧ w.bytes = 64 then [(w.base, 64)] else w.rows

/-- The element linear index of the element at (a, b, c) of the piece (R52). -/
def Waybill.gindex (w : Waybill) (a b c : Nat) : Nat :=
  ((w.originAt 0 + a) * w.wholeAt 1 + (w.originAt 1 + b)) * w.wholeAt 2 + (w.originAt 2 + c)

/-- The element linear indices of the piece, in row-major order. -/
def Waybill.indices (w : Waybill) : List Nat :=
  (List.range (w.ext 0)).flatMap (fun a =>
    (List.range (w.ext 1)).flatMap (fun b => (List.range (w.ext 2)).map (fun c => w.gindex a b c)))

/-- The elements of a row's bytes; T72 ignores bits [95:72] of its container (R33, R35). -/
def rowElems (fmt n : Nat) (bs : List Byte) : List Nat :=
  let v := leNat bs
  let b := fmtBits fmt
  (List.range n).map (fun i =>
    let x := v / 2 ^ (b * i) % 2 ^ b
    if fmt = fmtT72 then x % 2 ^ 72 else x)

/-- The bytes of a row of elements (R33). -/
def packRow (fmt : Nat) (l : List Nat) : List Byte :=
  let b := fmtBits fmt
  leBytes (rowLen fmt l.length) (l.zipIdx.foldl (fun a e => a + e.1 % 2 ^ b * 2 ^ (b * e.2)) 0)

/-- Cut a list into pieces of `n`, at most `k` of them. -/
def chunksOf {α : Type} (n : Nat) : List α → Nat → List (List α)
  | _, 0 => []
  | l, k + 1 => l.take n :: chunksOf n (l.drop n) k

/-- The writes that store elements, in row-major order of the piece. -/
def Waybill.storeAll (w : Waybill) (l : List Nat) : List (Nat × List Byte) :=
  (w.rows.zip (chunksOf (w.ext 2) l (w.ext 0 * w.ext 1))).map (fun e => (e.1.1, packRow w.fmt e.2))

/-- The waybill a WBREF names after relocation (R136); none at or beyond WB_COUNT. -/
def Core.wbIndex (c : Core) (stm : BitVec 3) (ref : BitVec 14) : Option Nat :=
  let v := ref.toNat
  let i := (bits v 9 0 + (c.x (bits v 13 10)).toNat + (c.stream stm.toNat).wbase.toNat) % 1024
  if i < c.wbCount then some i else none

/-- The window test of a waybill (R135): every byte of the piece and its scale word. -/
def State.wbAdmitted (s : State) (q : Nat) (dst : Bool) (w : Waybill) : Bool :=
  w.segs.all (fun r => s.admitted q true dst r.1 r.2) && s.admitted q true false w.scalePtr 4

/-- Read a waybill at issue (R135, R136): the answer is none when the core has faulted. `dst` when the
piece is written. -/
def State.readWb (s : State) (p q : Nat) (stm : BitVec 3) (ref : BitVec 14) (dst : Bool) :
    State × Option Waybill :=
  match (s.core p).wbIndex stm ref with
  | none => (s.refFault p scIllegal stm, none)
  | some i =>
    let a := stallBase + 0x2F0000 + 64 * i
    let r := s.coreRead p q [(a, 64)] stm
    if !r.2 then (r.1, none)
    else
      let w := parseWaybill (s.bytesAt p a 64)
      if !w.wellFormed then (r.1.refFault p scIllegal stm [w.tag], none)
      else if !r.1.wbAdmitted q dst w then (r.1.refFault p scAccess stm [w.tag], none)
      else (r.1, some w)

/-- The elements of a piece in row-major order, as patterns. -/
def State.pieceElems (s : State) (p : Nat) (w : Waybill) : List Nat :=
  w.rows.flatMap (fun r => rowElems w.fmt (w.ext 2) (s.bytesAt p r.1 r.2))

/-- Read the piece of a waybill as an instruction's operand (R207, R213). -/
def State.readPiece (s : State) (p q : Nat) (stm : BitVec 3) (w : Waybill) : State × Option (List Nat) :=
  let r := s.coreRead p q w.rows stm [w.tag]
  if r.2 then (r.1, some (s.pieceElems p w)) else (r.1, none)

/-- Bytes of a piece in row-major order. -/
def State.pieceBytes (s : State) (p : Nat) (w : Waybill) : List Byte :=
  w.rows.flatMap (fun r => s.bytesAt p r.1 r.2)

/-- Read a waybill's scale word (R37). The answer is none when the core has faulted. -/
def State.readScale (s : State) (p q : Nat) (stm : BitVec 3) (w : Waybill) : State × Option Nat :=
  let r := s.coreRead p q [(w.scalePtr, 4)] stm [w.tag]
  if r.2 then (r.1, some (leNat (s.bytesAt p w.scalePtr 4))) else (r.1, none)

/-- The tally of a porter's reads of a tier (Table 15.1). -/
def rdTally : Tier → Option Nat
  | .depot => some 19
  | .hbm => some 21
  | .cistern => some 23
  | _ => none

/-- The tally of a porter's writes of a tier. -/
def wrTally : Tier → Option Nat
  | .depot => some 20
  | .hbm => some 22
  | .cistern => some 24
  | _ => none

/-- Count bytes that core `p`'s porter reads or writes at an address. -/
def State.tallyTier (s : State) (p : Nat) (idx : Option Nat) (n : Nat) : State :=
  match idx with
  | some i => s.tallyAdd p i n
  | none => s

end Sys2Proof.Machine
end

