-- ==== Sys2Proof/Machine/Porterage.lean ====
section
/-!
DEFINITION. COPY, REMOTE and CONVOY (R113, R117, R137, R144, R202 to R207, R256 to R260, R284 to R294,
R302, R304).
-/

namespace Sys2Proof.Machine

/-! Toll balances. -/

/-- Debit toll balances; none when one is short (R144). -/
def State.debit (s : State) (p : Nat) : List (Nat × Nat) → Option State
  | [] => some s
  | (key, n) :: rest =>
    let b := tabGet 0 (s.core p).tolls key
    if n ≤ b then (s.modCore p (fun c => { c with tolls := tabSet c.tolls key (b - n) })).debit p rest
    else none

/-- The balance is short: code 0x1008 (R144). -/
def State.tollShort (s : State) (p : Nat) (stm : BitVec 3) (tags : List (BitVec 16) := []) : State :=
  s.coreFault p scIllegal 0x1008 false stm [] tags

/-- Bytes of a list of ranges that lie in [b, b + n). -/
def bytesIn (segs : List (Nat × Nat)) (b n : Nat) : Nat :=
  (segs.map (fun e => min (e.1 + e.2) (b + n) - max e.1 b)).foldl (· + ·) 0

/-- The class-0 debits of a store to depots: ceil(bytes ÷ 256) for each buffer it touches (Table 5.7). -/
def State.depotDebits (s : State) (segs : List (Nat × Nat)) : List (Nat × Nat) :=
  (List.range 12).flatMap (fun d =>
    (s.die d).dbufs.filterMap (fun e =>
      let n := bytesIn segs (depotBase + d * 0x2000000 + e.2.base) e.2.size
      if n = 0 then none else some (tollKey 0 (2 ^ 13 + 256 * d + e.1), units n)))

/-- The class-2 debits of a COPY with ADD: ceil(bytes on HBn ÷ 256) for each stack (R302). -/
def State.houseDebits (s : State) (l : List (Nat × BitVec 72)) : List (Nat × Nat) :=
  (List.range 12).filterMap (fun n =>
    let b := s.bytesOn n l
    if b = 0 then none else some (tollKey 2 n, units b))

/-! Operations of the core porter. -/

/-- Start an operation of core `p` that reads the ranges `reads`. -/
def State.startOp (s : State) (p : Nat) (act : PorterDo) (stm : BitVec 3) (reads : List (Nat × Nat))
    (post : Option Buf) (bytes : Nat) (tag : BitVec 16) : State :=
  let o : PorterOp := { id := (s.core p).nextOp, act := act, pc := (s.core p).pc, stm := stm, reads := reads,
                        post := post, bytes := bytes, tag := tag }
  s.modCore p (fun c => { c with nextOp := c.nextOp + 1, ops := c.ops ++ [o] })

/-- Operation `id` of core `p` is no longer outstanding. -/
def State.endOp (s : State) (p id : Nat) : State :=
  s.modCore p (fun c => { c with ops := c.ops.filter (fun o => o.id != id) })

def Core.op (c : Core) (id : Nat) : Option PorterOp := c.ops.find? (fun o => o.id == id)

/-- A core that is running or done stops with a fault of an operation; one that is recalled or has
faulted already does not (R146, R170). -/
def State.opFault (s : State) (p status code : Nat) (stm : BitVec 3) (tags : List (BitVec 16) := []) : State :=
  if (s.core p).st = .running ∨ (s.core p).st = .done then s.coreFault p status code false stm [] tags else s

/-- A record of kind PORTER (Table 15.4): opcode, queue pair above it, and bytes. -/
def State.tracePorter (s : State) (p opcode qp : Nat) (o : PorterOp) : State :=
  let c := s.core p
  if c.traces 4 then
    let s1 := s.traceLost p
    s1.tracePut p (s1.traceRec p 4 o.tag o.pc o.stm (w64 (opcode + 256 * qp)) (w64 o.bytes))
  else s

/-- A completed COPY posts its token (R137, R143). -/
def State.postDone (s : State) (p : Nat) (o : PorterOp) : State :=
  match o.post with
  | none => s
  | some b =>
    match s.post p b 1 with
    | some s1 => s1.tallyAdd p tlTOKPOSTS 1
    | none => s.opFault p scIllegal 0x1007 o.stm [o.tag]

/-! COPY. -/

/-- The word list of a descriptor's 64 bytes. -/
def descWords (bs : List Byte) : List Word := (List.range 16).map (fun i => w32 (fieldLe bs (4 * i) 4))

/-- A COPY reading a FAILED channel (Table 7.4): dropped, complete, and its PBUF is MISSING. -/
def State.copyDropped (s : State) (p q : Nat) (ch a : Nat) (post : Option Buf) (stm : BitVec 3) : State :=
  let s1 := s.dropRead ch (some q) a
  let s2 := match post with
    | some b => s1.markMissing p b
    | none => s1
  if (s2.core p).st = .running then s2.advance p stm else s2

/-- The elements and addresses of a COPY with ADD. -/
def addList (rows : List (Nat × Nat)) (bs : List Byte) : List (Nat × BitVec 72) :=
  let addrs := rows.flatMap (fun r => (List.range (r.2 / 12)).map (fun i => r.1 + 12 * i))
  addrs.zip ((chunksOf 12 bs addrs.length).map t72Of)

/-- Issue a COPY whose operands are checked and whose source bytes are `bs` (R113, R117, R137, R302). -/
def State.copyGo (s : State) (p : Nat) (stm : BitVec 3) (src dst : Waybill) (add : Bool)
    (post : Option Buf) (bs : List Byte) : State :=
  let s1 := s.tallyTier p (rdTally (tierOf src.base)) src.bytes
  if add then
    let l := addList dst.rows bs
    match s1.debit p (s1.houseDebits l) with
    | none => s1.tollShort p stm [dst.tag]
    | some s2 =>
      let s3 := eachDo (s1.houseDebits l) (fun e t => t.modHouse (e.1 % 2 ^ 20) (fun h =>
        { h with coreFree := h.coreFree + 256 * e.2 - s1.bytesOn (e.1 % 2 ^ 20) l })) s2
      let id := (s3.core p).nextOp
      let s4 := (s3.startOp p (.add l.length) stm src.rows post dst.bytes dst.tag).queueAdds (.copy p id) l
      (s4.tallyTier p (wrTally .hbm) dst.bytes).advance p stm
  else if tierOf dst.base = .port then
    let n := (dst.base - portBase) / 0x10000
    match s1.debit p [(tollKey 1 n, 1)] with
    | none => s1.tollShort p stm [dst.tag]
    | some s2 => (s2.startOp p (.descriptor n (descWords bs)) stm src.rows post 64 dst.tag).advance p stm
  else
    match s1.debit p (s1.depotDebits dst.rows) with
    | none => s1.tollShort p stm [dst.tag]
    | some s2 =>
      ((s2.startOp p (.copy (fillSegs dst.rows bs)) stm src.rows post dst.bytes dst.tag).tallyTier p
        (wrTally (tierOf dst.base)) dst.bytes).advance p stm

/-- Do the two pieces of a COPY fit (R137, R113)? -/
def copyShape (src dst : Waybill) (add : Bool) : Bool :=
  src.fmt == dst.fmt && src.piece == dst.piece && (!add || (src.fmt == fmtT72 && tierOf dst.base == .hbm))

/-- COPY with its waybills and PBUF (R137). -/
def State.copyWith (s : State) (p q : Nat) (stm : BitVec 3) (src dst : Waybill) (add : Bool)
    (post : Option Buf) : State :=
  if !copyShape src dst add then s.refFault p scIllegal stm [src.tag, dst.tag]
  else
    match s.failedIn src.rows with
    | some ch => s.copyDropped p q ch src.base post stm
    | none =>
      let r := s.coreRead p q src.rows stm [src.tag]
      if r.2 then r.1.copyGo p stm src dst add post (s.pieceBytes p src) else r.1

/-- COPY (R137). -/
def execCopy (i : Issue) (src dst : BitVec 14) (pbuf : BitVec 14) (post add : Bool) (s : State) :
    Host.Outcome State Fault Refusal :=
  .next (match s.issuing i.core (.copy i src dst pbuf post add) with
    | none => s
    | some p => s.issueWrite p i.stm (fun s0 =>
      let q := s0.partNo i.core
      let r := s0.readWb p q i.stm src false
      match r.2 with
      | none => r.1
      | some ws =>
        let r2 := r.1.readWb p q i.stm dst true
        match r2.2 with
        | none => r2.1
        | some wd =>
          if post then
            match r2.1.bufRef p q i.stm pbuf with
            | none => r2.1.refFault p scIllegal i.stm
            | some b => r2.1.copyWith p q i.stm ws wd add (some b)
          else r2.1.copyWith p q i.stm ws wd add none))

/-- The end of a local operation of core `p` (R137, R304): its token, or the core's fault. -/
def State.copyEnd (s : State) (p : Nat) (o : PorterOp) (bad : Bool) : State :=
  let s1 := (s.endOp p o.id).tracePorter p 0x20 0 o
  if bad then s1.opFault p scUncorr 0 o.stm [o.tag] else s1.postDone p o

/-- COPY_COMPLETE (R137): the bytes are visible, or every add has been applied, or the descriptor sits in
the engine's queue. -/
def execCopyComplete (core op : Nat) (s : State) : Host.Outcome State Fault Refusal :=
  .next (match s.clockedPhys core with
    | none => s
    | some p =>
      match (s.core p).op op with
      | none => s
      | some o =>
        match o.act with
        | .copy ws =>
          let r := s.stores p (s.partOf core) ws
          r.1.copyEnd p o (r.2 || decide (o.status ≠ 0))
        | .add n => if n = 0 then s.copyEnd p o (decide (o.status ≠ 0)) else s
        | .descriptor n ws => (s.postDescriptor p n ws).copyEnd p o false
        | _ => s)

/-! REMOTE. -/

/-- Frames of an operation's data (R254, R256): `mtu` bytes each but the last. -/
def dataFrames (f : RirisFrame) (mtu : Nat) (bs : List Byte) : List RirisFrame :=
  let n := (bs.length + mtu - 1) / mtu
  (List.range n).map (fun k =>
    { f with first := decide (k = 0), last := decide (k + 1 = n),
             roff := f.roff + BitVec.ofNat 48 (k * mtu), payload := (bs.drop (k * mtu)).take mtu })

/-- A refusal of R257: code 0x100D. -/
def State.qpRefused (s : State) (p : Nat) (stm : BitVec 3) (tags : List (BitVec 16) := []) : State :=
  s.coreFault p scIllegal 0x100D false stm [] tags

/-- Start an operation on queue pair `q` that reads the ranges `reads`, and queue its frames. -/
def State.sendOp (s : State) (p q : Nat) (act : PorterDo) (stm : BitVec 3) (reads : List (Nat × Nat)) (bytes : Nat)
    (tag : BitVec 16)
    (fs : List RirisFrame) : State :=
  let id := (s.core p).nextOp
  ((s.startOp p act stm reads none bytes tag).queueSend q (fs.map (fun f => .frame f (.core p id)))).advance p stm

/-- WRITE and WRITE_NOTIFY (R256, R258). -/
def State.remoteWrite (s : State) (p part q : Nat) (stm : BitVec 3) (w : Waybill) (f : RirisFrame)
    (kind : Nat) : State :=
  let r := s.coreRead p part w.rows stm [w.tag]
  if !r.2 then r.1
  else
    match (r.1.tallyTier p (rdTally (tierOf w.base)) w.bytes).debit p [(tollKey 3 q, units w.bytes)] with
    | none => r.1.tollShort p stm [w.tag]
    | some s1 =>
      let fs := dataFrames { f with oplen := w32 w.bytes } (s1.qp q).mtuBytes (s.pieceBytes p w)
      s1.sendOp p q (.remote q kind fs.length) stm w.rows w.bytes w.tag fs

/-- READ (R256, R260). -/
def State.remoteRead (s : State) (p q : Nat) (stm : BitVec 3) (w : Waybill) (f : RirisFrame) : State :=
  let r : Reading := { core := p, op := (s.core p).nextOp, addrs := w.rows, got := 0, need := w.bytes }
  let s1 := (s.modQp q (fun x => { x with reads := x.reads ++ [r] })).tallyTier p
    (wrTally (tierOf w.base)) w.bytes
  s1.sendOp p q (.remote q 2 1) stm [] w.bytes w.tag [{ f with oplen := w32 w.bytes }]

/-- REMOTE (R256 to R258): KIND 0 WRITE, 1 WRITE_NOTIFY, 2 READ, 3 NOTIFY. -/
def execRemote (i : Issue) (loc : BitVec 14) (qp : BitVec 20) (rkey : Word) (roff : BitVec 44)
    (kind : BitVec 2) (s : State) : Host.Outcome State Fault Refusal :=
  .next (match s.issuing i.core (.remote i loc qp rkey roff kind) with
    | none => s
    | some p =>
      let part := s.partNo i.core
      let q := qp.toNat
      let frame := fun (t : State) (cls : Nat) =>
        { t.mkFrame q cls with rkey := rkey, roff := roff.setWidth 48 }
      match s.checkQp part q with
      | .refused => (s.issued p).qpRefused p i.stm
      | .fetch => s.waitContext p q i.stm
      | .ok => s.issueWrite p i.stm (fun s0 =>
        if kind = 3 then s0.sendOp p q (.remote q 3 1) i.stm [] 0 0 [frame s0 5]
        else
          let r := s0.readWb p part i.stm loc (decide (kind = 2))
          match r.2 with
          | none => r.1
          | some w =>
            if w.bytes = 0 ∨ 2 ^ 32 ≤ w.bytes then r.1.qpRefused p i.stm [w.tag]
            else if kind = 2 then r.1.remoteRead p q i.stm w (frame r.1 3)
            else r.1.remoteWrite p part q i.stm w (frame r.1 (if kind = 0 then 1 else 2)) kind.toNat))

/-- REMOTE_COMPLETE (R260): the last frame is acknowledged, or the bytes of a READ have come, or a failure
is known. -/
def execRemoteComplete (core op : Nat) (s : State) : Host.Outcome State Fault Refusal :=
  .next (match s.clockedPhys core with
    | none => s
    | some p =>
      match (s.core p).op op with
      | none => s
      | some o =>
        match o.act with
        | .remote q _ left =>
          if left = 0 ∨ o.status ≠ 0 then
            let s1 := (s.endOp p op).tracePorter p 0x21 q o
            if o.status = 0 then s1 else s1.opFault p o.status.toNat 0 o.stm [o.tag]
          else s
        | _ => s)

/-! CONVOY. -/

/-- The clamp of R285: the value sent and whether it was clamped. -/
def clampT72 (guard : Nat) (v : BitVec 72) : BitVec 72 × Bool :=
  let b : Int := 2 ^ (71 - guard) - 1
  if b < v.toInt then (BitVec.ofInt 72 b, true)
  else if v.toInt < -b then (BitVec.ofInt 72 (-b), true)
  else (v, false)

/-- The checks of R284, beyond those of R257. `e` is SRC's scale word. -/
def State.convoyOk (s : State) (part : Nat) (w : Waybill) (tag : BitVec 16) (contrib : BitVec 24)
    (guard : BitVec 7) (e : Nat) : Bool :=
  w.fmt == fmtT72 && scaleOk true e && decide (guard.toNat ≤ 70)
    && decide (1 ≤ contrib.toNat) && decide (contrib.toNat ≤ 2 ^ guard.toNat)
    && decide (tag.toNat / 4096 = (s.convoy part).epoch.toNat)
    && decide (1 ≤ w.count) && decide (w.count ≤ 2 ^ 28)

/-- The frames of a contribution (R292, R293). -/
def convoyFrames (f : RirisFrame) (h : ConvoyHdr) (nmax : Nat) (l : List (BitVec 72 × Bool)) :
    List RirisFrame :=
  let n := (l.length + nmax - 1) / nmax
  (chunksOf nmax l n).zipIdx.map (fun e =>
    { f with first := decide (e.2 = 0), last := decide (e.2 + 1 = n),
             roff := BitVec.ofNat 48 (e.2 * nmax), oplen := w32 l.length,
             payload := { h with elems := e.1.map Prod.fst, ovf := e.1.any Prod.snd }.payload })

/-- Send a contribution whose checks have passed (R285, R292 to R294). `e` is SRC's scale word. -/
def State.convoyGo (s : State) (p part q : Nat) (stm : BitVec 3) (w : Waybill) (tag : BitVec 16)
    (contrib : BitVec 24) (guard : BitVec 7) (e : Nat) : State :=
  let r := s.readPiece p part stm w
  match r.2 with
  | none => r.1
  | some els =>
    let l := els.map (fun v => clampT72 guard.toNat (BitVec.ofNat 72 v))
    let nclamp := (l.filter Prod.snd).length
    let h : ConvoyHdr :=
      { tag := tag.toNat, step := (s.core p).conv.step, contrib := contrib, guard := guard,
        exp := BitVec.ofInt 16 ((e / 2 ^ 23 : Nat) - (127 : Int)), rcount := (s.ms part).rcount,
        ovf := false, elems := [] }
    let fs := convoyFrames (s.mkFrame q 0x20) h (((s.qp q).mtuBytes - 16) / 9) l
    let need := (fs.map (fun f => units f.payload.length)).foldl (· + ·) 0
    match (r.1.tallyTier p (rdTally (tierOf w.base)) w.bytes).debit p [(tollKey 3 q, need)] with
    | none => r.1.tollShort p stm [w.tag]
    | some s1 =>
      let s2 := s1.modCore p (fun c => { c with
        cvOvf := c.cvOvf || decide (0 < nclamp), cvSat := satAdd c.cvSat nclamp })
      s2.sendOp p q (.convoy q tag (decide (0 < nclamp)) fs.length) stm w.rows
        (fs.map (fun f => f.payload.length)).sum w.tag fs

/-- Is a write that core `p` has begun into ranges of its own stall still outstanding (R285): of a COPY, or of the
bytes that a READ brings? -/
def State.stallWriting (s : State) (p : Nat) (rows : List (Nat × Nat)) : Bool :=
  let hits (a n : Nat) : Bool := tierOf a == .stall && rows.any (fun e => decide (a < e.1 + e.2) && decide (e.1 < a + n))
  (s.core p).ops.any (fun o => match o.act with
    | .copy ws => ws.any (fun e => hits e.1 e.2.length)
    | _ => false)
    || s.qps.any (fun e => e.2.reads.any (fun r => r.core == p && !r.ended && r.addrs.any (fun x => hits x.1 x.2)))

/-- CONVOY (R257, R284, R285): it does not issue while a write into its source in the core's own stall is outstanding
(log entry 79). -/
def execConvoy (i : Issue) (src : BitVec 14) (tag : BitVec 16) (qp : BitVec 20) (contrib : BitVec 24)
    (guard : BitVec 7) (s : State) : Host.Outcome State Fault Refusal :=
  .next (match s.issuing i.core (.convoy i src tag qp contrib guard) with
    | none => s
    | some p =>
      let part := s.partNo i.core
      let q := qp.toNat
      match s.checkQp part q with
      | .refused => (s.issued p).qpRefused p i.stm
      | .fetch => (s.issued p).qpRefused p i.stm
      | .ok =>
        if !(s.qp q).pinned then (s.issued p).qpRefused p i.stm
        else s.issueWrite p i.stm (fun s0 =>
          let r := s0.readWb p part i.stm src false
          match r.2 with
          | none => r.1
          | some w =>
            let r2 := r.1.readScale p part i.stm w
            match r2.2 with
            | none => r2.1
            | some e =>
              if s.stallWriting p w.rows then s
              else if s.convoyOk part w tag contrib guard e then
                r2.1.convoyGo p part q i.stm w tag contrib guard e
              else r2.1.coreFault p scIllegal 0x100E false i.stm [] [w.tag]))

/-- CONVOY_COMPLETE (R286): CV_CORE_LAST takes the tag and the status; OVF_SATURATED is informational. -/
def execConvoyComplete (core op : Nat) (s : State) : Host.Outcome State Fault Refusal :=
  .next (match s.clockedPhys core with
    | none => s
    | some p =>
      match (s.core p).op op with
      | none => s
      | some o =>
        match o.act with
        | .convoy q tag clamped left =>
          if left = 0 ∨ o.status ≠ 0 then
            let st := if o.status ≠ 0 then o.status else if clamped then st8 scOvf else 0
            let s1 := ((s.endOp p op).tracePorter p 0x22 q o).modCore p (fun c =>
              { c with cvLastTag := tag, cvLastStatus := st })
            if o.status = 0 then s1 else s1.opFault p o.status.toNat 0 o.stm [o.tag]
          else s
        | _ => s)

end Sys2Proof.Machine
end

