-- ==== Sys2Proof/Machine/Ledger.lean ====
section
/-!
DEFINITION. Chunk values and the ledger: entries, adds, resolution, images, checks (R61 to R77, R86 to
R92).
-/

namespace Sys2Proof.Machine

/-! Entries. -/

/-- The residue of R86: ((x mod 3) + 3) mod 3. -/
def res3 (x : Int) : Nat := (x % 3).toNat

/-- The pending carry of limb j (Table 3.4). -/
def LedgerEntry.pendAt (e : LedgerEntry) (j : Nat) : Int := e.pend.getD j 0

/-- The pending carries as a number of the weight of bit 0. -/
def LedgerEntry.pendSum (e : LedgerEntry) : Int :=
  ((List.range 10).map (fun j => e.pendAt j * 2 ^ (64 * (j + 1)))).foldl (· + ·) 0

/-- L with its pending carries. -/
def LedgerEntry.value (e : LedgerEntry) : Int := e.l.toInt + e.pendSum

/-- An entry whose Z is set, about to be added to (R71). -/
def LedgerEntry.opened (e : LedgerEntry) : LedgerEntry := if e.z then { z := false } else e

/-- Is a value inside the range of R73? -/
def inLedger (v : Int) : Bool := decide (-(2 ^ 703) ≤ v) && decide (v < 2 ^ 703)

/-- What an operation on an entry answers. -/
inductive LedgOut
  | ok (e : LedgerEntry)
  /-- A resolution would leave the range (R73). -/
  | wrap
  /-- An add into limb 10 would leave the range (R71, R73). -/
  | over
  /-- The residue does not match (R87). -/
  | bad
  deriving DecidableEq, Repr

/-- Resolution (R72, R73, R87). -/
def LedgerEntry.resolve (e : LedgerEntry) : LedgOut :=
  if e.z then .ok e
  else if inLedger e.value = false then .wrap
  else if res3 e.value = e.res.toNat then .ok { e with l := BitVec.ofInt 704 e.value, pend := [] }
  else .bad

/-! Chunk values. -/

/-- A chunk value C × 2^q and the sidecar flags of its non-finite products: bit 0 NAN, 1 PINF, 2 NINF
(R65 to R67). -/
structure ChunkVal where
  c : Int
  q : Int
  side : BitVec 3
  deriving DecidableEq, Repr

/-- Chunk length of an operand format (Table 3.1). -/
def chunkLen (fmt : Nat) : Nat := if fmt ≤ 2 then 128 else if fmt ≤ 6 then 256 else 512

/-- An operand element after R43, and whether it was flushed. -/
def flushIn (fmt : Nat) (flush : Byte) (pat : Nat) : FVal × Bool :=
  let l := layoutOf fmt
  if bitAt flush.toNat fmt && l.subnormal pat then
    (.fin (decide (l.signBit ≤ pat % (2 * l.signBit))) 0 0, true)
  else (l.value pat, false)

/-- The sidecar flags of a product (R67); zero for a finite one. A product of two infinities, which R67 does not
name, is taken as infinite with the sign of the product (log entry 64). -/
def sideOf (a b : FVal) : BitVec 3 :=
  match a, b with
  | .nan, _ => 1
  | _, .nan => 1
  | .inf x, .inf y => if x = y then 2 else 4
  | .inf x, .fin y m _ => if m = 0 then 1 else if x = y then 2 else 4
  | .fin x m _, .inf y => if m = 0 then 1 else if x = y then 2 else 4
  | .fin _ _ _, .fin _ _ _ => 0

/-- The finite products of a chunk. -/
def finProducts (ps : List (FVal × FVal)) : List Dy :=
  (ps.filter (fun e => sideOf e.1 e.2 = 0)).map (fun e => e.1.dy.mul e.2.dy)

/-- The exact sum of products in units of 2^q, where every product is a multiple of 2^q. -/
def sumAt (q : Int) (l : List Dy) : Int :=
  (l.map (fun d => d.m * 2 ^ (d.e - q).toNat)).foldl (· + ·) 0

/-- An integer × 2^−k rounded to an integer by RTO (R66). -/
def rtoShift (x : Int) (k : Nat) : Int :=
  let lo := x.natAbs / 2 ^ k
  let m := if x.natAbs % 2 ^ k = 0 then lo else lo ||| 1
  if x < 0 then -(m : Int) else m

/-- The chunk value of the pairs of operand elements of a chunk (R65 to R67). `l` is the operands'
layout. R66 gives a BF16 or F16 chunk without a finite non-zero product no q: its add reads the window of the
format's smallest grid (log entry 64). -/
def chunkValue (fmt : Nat) (ps : List (FVal × FVal)) : ChunkVal :=
  let l := layoutOf fmt
  let grid : Int := 2 * (1 - (l.bias : Int) - l.mbits)
  let fin := (finProducts ps).filter (fun d => d.m ≠ 0)
  let side := (ps.map (fun e => sideOf e.1 e.2)).foldl (· ||| ·) 0
  if fmt ≤ 2 then
    match (fin.map (fun d => d.e)).max? with
    | none => { c := 0, q := grid, side := side }
    | some top =>
      let q := top + 2 * l.mbits - 61
      let s := sumAt grid fin
      { c := if q ≤ grid then s * 2 ^ (grid - q).toNat else rtoShift s (q - grid).toNat,
        q := q, side := side }
  else { c := sumAt grid fin, q := grid, side := side }

/-! Adds. -/

/-- The limbs of the window of an add at q (R71): lowest and highest. -/
def windowLo (q : Int) : Nat := (q + 384).toNat / 64

def windowHi (q : Int) : Nat := (q + 456).toNat / 64

/-- Add a value to an entry whose window reaches limb 10 (R71): exactly, after a resolution. -/
def LedgerEntry.addTop (e : LedgerEntry) (add : Int) (res : Nat) : LedgOut :=
  match e.resolve with
  | .ok r =>
    let v := r.l.toInt + add
    if inLedger v then
      .ok { r with l := BitVec.ofInt 704 v, res := BitVec.ofNat 2 ((r.res.toNat + res) % 3) }
    else .over
  | x => x

/-- Add C into the window below limb 10 (R71, steps 2 to 4). -/
def LedgerEntry.addWindow (e : LedgerEntry) (v : ChunkVal) (res : Nat) : LedgerEntry :=
  let lo := windowLo v.q
  let hi := windowHi v.q
  let w := 64 * (hi - lo + 1)
  let old := e.l.toNat / 2 ^ (64 * lo) % 2 ^ w
  let add := (v.c * 2 ^ ((v.q + 384).toNat - 64 * lo) % 2 ^ w).toNat
  let carry : Int := ((old + add) / 2 ^ w : Nat) - (if v.c < 0 then 1 else 0)
  let rest := e.l.toNat - old * 2 ^ (64 * lo)
  { e with l := BitVec.ofNat 704 (rest + (old + add) % 2 ^ w * 2 ^ (64 * lo)),
           pend := (List.range 10).map (fun j => e.pendAt j + if j = hi then carry else 0),
           res := BitVec.ofNat 2 ((e.res.toNat + res) % 3) }

/-- Are the pending carries within their fields (Table 3.4)? -/
def LedgerEntry.pendOk (e : LedgerEntry) : Bool :=
  e.pend.all (fun x => decide (-16 ≤ x) && decide (x ≤ 15))

/-- Add a chunk value to an entry (R71 to R73); the answer's second part says whether it was resolved
first. -/
def LedgerEntry.addChunk (e0 : LedgerEntry) (v : ChunkVal) : LedgOut × Bool :=
  let e := { e0.opened with side := e0.opened.side ||| v.side }
  if v.c = 0 ∧ windowHi v.q ≠ 10 then (.ok e, false)
  else
    let res := res3 v.c * res3 (2 ^ (v.q + 384).toNat) % 3
    if windowHi v.q = 10 then (e.addTop (v.c * 2 ^ (v.q + 384).toNat) res, true)
    else
      let r := e.addWindow v res
      if r.pendOk then (.ok r, false)
      else
        match e.resolve with
        | .ok e1 => (.ok (e1.addWindow v res), true)
        | x => (x, true)

/-! Images (Table 3.5). -/

/-- The image of an entry whose carries are resolved (R76). -/
def LedgerEntry.image (e : LedgerEntry) : List Byte :=
  if e.z then List.replicate 96 0
  else leBytes 88 e.l.toNat ++ leBytes 4 e.side.toNat ++ leBytes 4 e.res.toNat

/-- An image as it is read: L, sidecar and residue word. -/
structure LedgImage where
  l : BitVec 704
  side : BitVec 3
  res : Nat
  deriving DecidableEq, Repr

/-- An image from its 96 bytes. -/
def parseImage (bs : List Byte) : LedgImage :=
  { l := BitVec.ofNat 704 (fieldLe bs 0 88), side := BitVec.ofNat 3 (fieldLe bs 88 4), res := fieldLe bs 92 4 }

/-- Does the recomputed residue match (R77)? -/
def LedgImage.ok (i : LedgImage) : Bool := decide (res3 i.l.toInt = i.res)

/-- Add an image to an entry (R77): as a chunk value covering limbs 0 to 10. -/
def LedgerEntry.addImage (e0 : LedgerEntry) (i : LedgImage) : LedgOut :=
  let e := { e0.opened with side := e0.opened.side ||| i.side }
  e.addTop i.l.toInt i.res

/-! A core's ledger. -/

/-- Kinds of LEDG_FAULT (Table 3.15). -/
def lfChunk : Nat := 1
def lfDraw : Nat := 2
def lfEntry : Nat := 3
def lfWord : Nat := 4
def lfImage : Nat := 5
def lfRange : Nat := 6

/-- A ledger while an instruction works on it: entries, error marks, the indices of corrected words,
resolutions, the entry and kind at which it stops, and whether a resolution of R72 is what failed. -/
structure LedgRun where
  tab : Tab LedgerEntry
  err : Tab (BitVec 2)
  corr : List Nat := []
  resolves : Nat := 0
  stop : Option (Nat × Nat) := none
  resolving : Bool := false
  deriving DecidableEq, Repr

/-- An entry; one that was never written has Z set (R74, R152). -/
def LedgRun.get (r : LedgRun) (i : Nat) : LedgerEntry := tabGet {} r.tab i

/-- Store an entry. -/
def LedgRun.put (r : LedgRun) (i : Nat) (e : LedgerEntry) : LedgRun := { r with tab := tabPut {} r.tab i e }

/-- Stop at an entry. -/
def LedgRun.fail (r : LedgRun) (i kind : Nat) : LedgRun := { r with stop := some (i, kind) }

/-- Words of an entry are read (R89): a single-bit error is corrected, a double-bit error stops. The words
of an entry whose Z is set are ignored (Table 3.4). -/
def LedgRun.touch (r : LedgRun) (i : Nat) (words : List Nat) : LedgRun :=
  if (r.get i).z then r
  else
    let keys := words.map (fun w => 24 * i + w)
    let ones := keys.filter (fun k => tabGet 0 r.err k = 1)
    let r1 := { r with err := ones.foldl (fun t k => tabPut 0 t k 0) r.err,
                       corr := r.corr ++ ones.map (fun _ => i) }
    if keys.any (fun k => tabGet 0 r.err k = 2) then r1.fail i lfWord else r1

/-- The words of an add's window, and the two that hold carries, sidecar, Z and residue. -/
def windowWords (q : Int) : List Nat :=
  (List.range 24).filter (fun w => decide (22 ≤ w)
    || (decide (windowLo q ≤ w / 2) && decide (w / 2 ≤ windowHi q)))

/-- After an entry is zeroed or first written no error of its old words stands. -/
def LedgRun.clean (r : LedgRun) (i : Nat) : LedgRun :=
  { r with err := (List.range 24).foldl (fun t w => tabPut 0 t (24 * i + w) 0) r.err }

/-- Set Z (R74). -/
def LedgRun.zero (r : LedgRun) (i : Nat) : LedgRun := r.put i {}

/-- Take the outcome of an operation on entry `i`. -/
def LedgRun.take (r : LedgRun) (i : Nat) (o : LedgOut) (resolved : Bool) : LedgRun :=
  match o with
  | .ok e => { (r.put i e) with resolves := r.resolves + b2n resolved }
  | .over => r.fail i lfRange
  | .wrap => { r.fail i lfRange with resolving := true }
  | .bad => { r.fail i lfEntry with resolving := true }

/-- Add a chunk value to entry `i`; after a stop nothing more is added. An add that resolves the entry first reads
all of its words (R71, R72, R87, R89). -/
def LedgRun.addChunk (r : LedgRun) (i : Nat) (v : ChunkVal) : LedgRun :=
  match r.stop with
  | some _ => r
  | none =>
    let r1 := if (r.get i).z then r.clean i
      else r.touch i (if ((r.get i).addChunk v).2 then List.range 24 else windowWords v.q)
    match r1.stop with
    | some _ => r1
    | none =>
      let o := (r1.get i).addChunk v
      r1.take i o.1 o.2

/-- Add an image to entry `i` (R77): a residue that does not match leaves the entry unchanged. -/
def LedgRun.addImage (r : LedgRun) (i : Nat) (im : LedgImage) : LedgRun :=
  match r.stop with
  | some _ => r
  | none =>
    if im.ok then
      let r1 := if (r.get i).z then r.clean i else r.touch i (List.range 24)
      match r1.stop with
      | some _ => r1
      | none => r1.take i ((r1.get i).addImage im) true
    else r.fail i lfImage

/-- The ledger of a core at the start of an instruction. -/
def Core.ledgRun (c : Core) : LedgRun := { tab := c.ledger, err := c.ledgerErr }

/-- Ledger index of (m, n) (R70). -/
def ledgIdx (lrow m n : Nat) : Nat := 64 * (lrow + m) + n

/-- The indices of an M × N tile in row-major order. -/
def tileIdx (lrow m n : Nat) : List Nat :=
  (List.range m).flatMap (fun i => (List.range n).map (fun j => ledgIdx lrow i j))

/-! Registers, the logbook and faults of the ledger. -/

/-- ARR_STAT (Table 3.12). -/
def LedgerRegs.arrWord (r : LedgerRegs) : Word :=
  w32 (b2n r.issueBusy + 2 * b2n r.drawBusy + 4 * b2n r.resolving)

/-- LEDG_STAT (Table 3.13). -/
def LedgerRegs.statWord (r : LedgerRegs) : Word :=
  w32 (b2n r.wrap + 2 * b2n r.t72Inexact + 4 * b2n r.resChunk + 8 * b2n r.resDraw + 16 * b2n r.resEntry
    + 32 * b2n r.uncorr + 64 * b2n r.imageRes)

/-- LEDG_FAULT (Table 3.15). -/
def LedgerRegs.faultWord (r : LedgerRegs) : Word := w32 (r.faultEntry.toNat + 4096 * r.faultKind.toNat)

/-- A ledger code (R91): snapshots of ARR_STAT, LEDG_STAT and LEDG_FAULT, and the core's physical number, k + 256 n
for Ck of CDn (log entry 58), and logical number as arguments. -/
def State.logLedger (s : State) (p code status : Nat) (tags : List (BitVec 16) := []) : State :=
  let r := (s.core p).lreg
  s.logAt (.core p) code status (s.partOfPhys p) (w32 (p % 22 + 256 * (p / 22)) :: s.ceLogical p :: tagWords tags)
    [r.arrWord, r.statWord, r.faultWord]

/-- The busy bits of ARR_STAT while an instruction works on the ledger (Table 3.12, log entry 58). -/
def State.arrBusy (s : State) (p : Nat) (issue draw : Bool) : State :=
  s.modCore p (fun c => { c with lreg := { c.lreg with issueBusy := issue, drawBusy := draw, resolving := false } })

/-- An instruction that works on the ledger, as a whole: the busy bits stand only while it runs. -/
def State.whileBusy (s : State) (p : Nat) (issue draw : Bool) (g : State → State) : State :=
  (g (s.arrBusy p issue draw)).arrBusy p false false

/-- The sticky flag that a kind of ledger fault sets. -/
def LedgerRegs.flag (r : LedgerRegs) (kind : Nat) : LedgerRegs :=
  match kind with
  | 1 => { r with resChunk := true }
  | 2 => { r with resDraw := true }
  | 3 => { r with resEntry := true }
  | 4 => { r with uncorr := true }
  | 5 => { r with imageRes := true }
  | _ => { r with wrap := true }

/-- The logbook code of a kind of ledger fault (Table 3.10). -/
def ledgCode (kind : Nat) : Nat :=
  match kind with
  | 1 => 0x1030
  | 2 => 0x1031
  | 3 => 0x1032
  | 4 => 0x1033
  | 5 => 0x1036
  | _ => 0x1035

/-- A ledger fault (R73, R77, R86 to R90): flag, LEDG_FAULT, code, core fault. A range fault is the
itinerary's; an image's residue is a fault of data read; the others are the core's own. -/
def State.ledgFault (s : State) (p idx kind : Nat) (stm : BitVec 3) : State :=
  let s1 := s.modCore p (fun c =>
    { c with lreg := { (c.lreg.flag kind) with faultEntry := BitVec.ofNat 12 idx,
                                               faultKind := BitVec.ofNat 4 kind } })
  let status := if kind = lfRange then scIllegal else scUncorr
  s1.coreFaultWith p status (ledgCode kind) (decide (kind ≠ lfRange) && decide (kind ≠ lfImage)) stm
    (fun t => t.logLedger p (ledgCode kind) status)

/-- A chunk boundary or K mismatch (R62 to R64, R97). -/
def State.chunkFault (s : State) (p : Nat) (stm : BitVec 3) (tags : List (BitVec 16) := []) : State :=
  s.coreFaultWith p scIllegal 0x1037 false stm (fun t => t.logLedger p 0x1037 scIllegal tags) tags

/-- Store a ledger run: entries, marks, LEDG_CORR with its entries of code 0x1034, and tally 30. -/
def State.setLedger (s : State) (p : Nat) (r : LedgRun) : State :=
  let s1 := s.modCore p (fun c =>
    { c with ledger := r.tab, ledgerErr := r.err,
             lreg := { c.lreg with corr := satAdd c.lreg.corr r.corr.length } })
  let s2 := eachDo r.corr (fun _ t => t.logLedger p 0x1034 0) s1
  if r.resolves = 0 then s2 else s2.tallyAdd p tlRESOLVE r.resolves

/-- Store a ledger run and fault where it stopped; true when the instruction can go on. -/
def State.endLedger (s : State) (p : Nat) (r : LedgRun) (stm : BitVec 3) : State × Bool :=
  match r.stop with
  | some e =>
    (((s.setLedger p r).modCore p (fun c => { c with lreg := { c.lreg with resolving := r.resolving } })).ledgFault
      p e.1 e.2 stm, false)
  | none => (s.setLedger p r, true)

end Sys2Proof.Machine
end

