-- ==== Sys2Proof/Machine/Bar.lean ====
section
/-!
DEFINITION. Who sees which registers of BAR0 (R405, R406, R428, R429).
-/

namespace Sys2Proof.Machine

/-- The blocks of Table 14.3, as R405 filters them. -/
inductive BarBlock
  /-- MOD_STAT. -/
  | modStat
  /-- The rest of the module block. -/
  | module
  /-- TIME_NOW and TB_STAT. -/
  | time
  /-- The Customs module block. -/
  | customs
  | fnBlock (f : Nat)
  /-- The entry of partition q in a block indexed by partition. -/
  | part (q : Nat)
  /-- The window of Ck of CDn. -/
  | core (n k : Nat)
  /-- The die control and update-engine blocks of CDn. -/
  | die (n : Nat)
  | logbook
  /-- Blocks that only the PF sees. -/
  | pf
  deriving DecidableEq, Repr

/-- Does a function's BAR0 answer at all: the module is powered and PCIe is trained (R429, Table 14.10, Table
16.5)? -/
def State.barUp (s : State) : Bool :=
  !s.mod.pcieDown && match s.mod.state with
  | .off => false
  | .standby => false
  | .boot => decide (3 ≤ s.mod.bootStep.toNat)
  | _ => true

/-- Does function `fn` see a block (R405, R428)? -/
def State.sees (s : State) (fn : Nat) (b : BarBlock) : Bool :=
  let x := s.fn fn
  s.barUp && decide (fn ≤ 16) &&
    if s.mod.recovery then
      fn == 0 && (b == .modStat || b == .module || b == .customs)
    else
      fn == 0 ||
        match b with
        | .modStat => true
        | .time => true
        | .fnBlock f => f == fn
        | .part q => x.bound && x.part.toNat == q
        | .core n k => x.bound && s.partOfPhys (22 * n + k) == some x.part.toNat
        | .die n => x.bound && s.ownsDie x.part.toNat n
        | .logbook => x.bound
        | .module => false
        | .customs => false
        | .pf => false

/-- Do an operation on a block that the function sees; a write to anything else is discarded (R405). -/
def State.onBar (s : State) (fn : Nat) (b : BarBlock) (g : State → State) : State :=
  if s.sees fn b then g s else s

/-- What a function's last read returned (log entry 7). -/
def State.readBack (s : State) (fn : Nat) (v : DWord) : State :=
  { s with host := { s.host with readData := tabSet s.host.readData fn v } }

end Sys2Proof.Machine
end

