-- ==== Sys2Proof/Machine/ModOps.lean ====
section
/-!
DEFINITION. Module states: changes, FAULT, and what a loss of power or of the main rails takes (R350,
R431, R457, R466, R469).
-/

namespace Sys2Proof.Machine

/-- A change of the module's state (R431): code 0x0101. -/
def State.setMod (s : State) (m : ModSt) : State :=
  ({ s with mod := { s.mod with state := m } }).logSerai 0x0101 scOk none []

/-- The module enters FAULT (Table 14.11): MOD_STAT.FAULT takes the cause and FAULT# goes low (R469). Only
from BOOT, READY, RUN and QUIESCE. -/
def State.enterFault (s : State) (cause : Nat) : State :=
  if s.clocked then
    let s1 := { s with mod := { s.mod with fault := BitVec.ofNat 4 cause },
                       phys := { s.phys with faultN := true } }
    s1.setMod .fault
  else s

/-- What is not lost with the main rails: host memory and what the outside has seen, flash and fuses, and,
when `keep`, what the always-on domain holds: TIME_NOW, the fact that it has been locked, and PWR_BUDGET (Table
15.7, R350, R356, R457, R469). An update of
the firmware in progress leaves no valid image (R427, R470). -/
def State.powerCut (s : State) (keep : Bool) (m : ModSt) : State :=
  { State.reset with
    pending := s.pending, free := if s.life.committing.isSome then s.free + 1 else s.free,
    now := if keep then s.now else 0,
    host := s.host,
    log := { ({} : Logbook) with units := s.log.units, archSeq := s.log.archSeq, archPos := s.log.archPos },
    mod := { ({} : Module) with
      state := m, manHigh := s.mod.manHigh, flashValid := s.mod.flashValid && !s.mod.fwuBusy,
      flash := s.mod.flash },
    phys := { s.phys with mainRails := false, railsOff := [], faultN := s.phys.faultHeld },
    mem := { ({} : Memory) with cisScrubs := s.mem.cisScrubs },
    customs := { ({} : Customs) with
      fuseSvn := s.customs.fuseSvn, anchor := anchorOf s.customs.anchorFlash, anchorFlash := s.customs.anchorFlash,
      anchorSeq := s.customs.anchorSeq },
    pwr := { ({} : Power) with
      budget := if keep then s.pwr.budget else 1200 },
    time := { ({} : TimeBase) with everLocked := keep && s.time.everLocked },
    life := lifeFromFlash s.cutSlots }

/-- To BOOT: every register starts again from its reset value; the main rails come up (R429, R466). -/
def State.startBoot (s : State) (recov : Bool) : State :=
  let s1 := s.powerCut true .boot
  let s2 := { s1 with
    mod := { s1.mod with bootStep := 1, recovStrap := recov },
    phys := { s1.phys with mainRails := true, faultN := false, faultHeld := false } }
  s2.logSerai 0x0101 scOk none []

end Sys2Proof.Machine
end

