-- ==== Sys2Proof/Machine/Power.lean ====
section
/-!
DEFINITION. The power controller, droop and temperature (R333 to R349, R364).
-/

namespace Sys2Proof.Machine

/-- May a write from this source reach a block: a function by what it sees, the sideband while Serai runs
(R405, R472)? -/
def State.mayWrite (s : State) (src : Source) (b : BarBlock) : Bool :=
  match src with
  | .function f => s.sees f b
  | .sideband =>
    match s.mod.state with
    | .off => false
    | .standby => false
    | _ => true

/-- The die's CK_ARITH as the controller holds it: nominal until it first sets one (Table 12.1). -/
def State.freqHeld (s : State) (n : Nat) : Nat :=
  let f := (tabGet {} s.pwr.dies n).freq.toNat
  if f ≠ 0 then f else if s.dieSealed n then 2400 else 2700

/-- PWR_DIE[n].FREQ_MHZ: CK_ARITH of CDn, 0 while no PLL runs (Table 12.6). -/
def State.dieFreq (s : State) (n : Nat) : Nat := if s.pllOn n then s.freqHeld n else 0

/-- PWR_DIE[n]. -/
def State.dieWord (s : State) (n : Nat) : Word :=
  let d := tabGet ({} : DiePower) s.pwr.dies n
  w32 (s.dieFreq n + 4096 * d.watts.toNat + 2 ^ 24 * d.phase.toNat + 2 ^ 27 * b2n (s.dieSealed n))

/-! The limit (R26, R336, R337, R345). -/

/-- Supply voltage × 62 A in whole watts, rounded down (R26; the rounding is the model's, log entry 61). -/
def supplyW (mv : Nat) : Nat := mv * 62 / 1000

/-- The effective limit (R337). -/
def State.limitNow (s : State) : Nat :=
  min s.pwr.budget.toNat (min (supplyW s.phys.vin) 3000)

/-- Does the supply set the limit (R26, PWR_STAT.UNDERVOLT)? -/
def State.supplyLimits (s : State) : Bool :=
  decide (supplyW s.phys.vin < min s.pwr.budget.toNat 3000)

/-- A sealed breach begins or ends (R345): code 0x4003 when it begins. -/
def State.checkBreach (s : State) : State :=
  let b := decide (s.pwr.eff.toNat < s.sealedW + s.pwr.uncoreW.toNat)
  let s1 := { s with pwr := { s.pwr with breach := b } }
  if b && !s.pwr.breach then s1.logPower 24 0x4003 scOk [] else s1

/-- The limit follows the supply and the budget: code 0x4001 for each change and for a budget write
taken, 0x4002 when the supply sets a changed limit (R336, R337). -/
def State.applyLimit (s : State) (taken : Bool) : State :=
  let e := s.limitNow
  let changed := decide (e ≠ s.pwr.eff.toNat)
  let s1 := { s with pwr := { s.pwr with
    eff := BitVec.ofNat 16 e, undervolt := s.supplyLimits,
    supplyMv := BitVec.ofNat 16 (min s.phys.vin 65535) } }
  let s2 := if changed || taken then s1.logPower 24 0x4001 scOk [w32 e] else s1
  let s3 := if changed && s.supplyLimits then s2.logPower 24 0x4002 scOk [] else s2
  s3.checkBreach

/-- A write of PWR_BUDGET (R336): 600 to 3,000 W is taken, anything else is discarded with code 0x4001
and STATE_ILLEGAL. -/
def State.writeBudget (s : State) (v : Word) : State :=
  let w := v.toNat % 65536
  if 600 ≤ w ∧ w ≤ 3000 then
    { s with pwr := { s.pwr with budget := BitVec.ofNat 16 w } }.applyLimit true
  else s.logPower 24 0x4001 scIllegal [w32 w]

/-- PWR_BUDGET_WRITE (R336). A write from a virtual function is discarded. -/
def execPwrBudgetWrite (src : Source) (v : Word) (s : State) : Host.Outcome State Fault Refusal :=
  .next (if s.mayWrite src .pf then s.writeBudget v else s)

/-- SUPPLY_VOLTAGE_CHANGE (R337): VIN is now `mv`; Serai's controller acts on it while Serai runs. -/
def execSupplyVoltageChange (mv : Nat) (s : State) : Host.Outcome State Fault Refusal :=
  .next (
    let s1 := { s with phys := { s.phys with vin := mv } }
    match s.mod.state with
    | .off => s1
    | .standby => s1
    | _ => s1.applyLimit false)

/-! Phases (R339). -/

/-- The learned draw of a die: D + (measured − D) ÷ 4, over 4^(scale + 1). -/
def learn (scale d measured : Nat) : Nat := 3 * d + measured * 4 ^ scale

/-- What the cores of a die have counted since the interval began. -/
def DieTally.since (now base : DieTally) : DieTally :=
  { array := now.array - base.array, fwd := now.fwd - base.fwd, bwd := now.bwd - base.bwd }

/-- The phase class of an interval on a die from its tallies (R339): `open_` where neither kind of MAC leads. -/
def shareClass (x : PhaseShare) (t : DieTally) (open_ : BitVec 3) : BitVec 3 :=
  if 20 * t.array < x.intervalCycles then
    if x.updBusy then 3 else if x.redLeads then 4 else 0
  else if t.bwd < t.fwd then 1
  else if t.fwd < t.bwd then 2
  else open_

/-- The entry at the end of an interval. -/
def PhaseEntry.learned (e : PhaseEntry) (dies : List PhaseShare) (classes : List (BitVec 3)) : PhaseEntry :=
  { e with
    draw := (e.draw.zip dies).map (fun x => learn e.scale x.1 x.2.draw), scale := e.scale + 1, phase := classes }

/-- PWR_DIE[n].PHASE of a die on which partition `part` owns cores shows the class; a change appears in the trace of
those cores (R339, Table 15.4). -/
def State.showPhase (s : State) (part n : Nat) (x : BitVec 3) : State :=
  if (tabGet ({} : DiePower) s.pwr.dies n).phase = x then s
  else
    eachDo ((s.physOfPart part).filter (fun p => p / 22 == n)) (fun p t => t.traceAt p 8 0 0 (x.setWidth 64) 0)
      { s with pwr := { s.pwr with dies := tabMod {} s.pwr.dies n (fun d => { d with phase := x }) } }

/-- PHASE_LEARN (R339): the interval of partition `part` since its last release has ended. -/
def execPhaseLearn (part : Nat) (dies : List PhaseShare) (s : State) :
    Host.Outcome State Fault Refusal :=
  .next (
    match s.pwr.curPhase.find? (fun e => e.1 == part) with
    | none => s
    | some (_, i) =>
      if s.clocked ∧ part < 16 ∧ dies.length = 12 then
        let o : BitVec 3 := s.freeVal.setWidth 3
        let cs := dies.zipIdx.map (fun (x : PhaseShare × Nat) =>
          shareClass x.1 ((s.dieTally x.2).since (i.base.getD x.2 {})) o)
        let tab := (tabGet [] s.pwr.phases part).map (fun e => if e.mid = i.mid then e.learned dies cs else e)
        let s1 := { s.useFree with pwr := { s.pwr with
          phases := tabSet s.pwr.phases part tab, curPhase := tabErase s.pwr.curPhase part } }
        eachDo ((List.range 12).filter (s.ownsDie part)) (fun n t => t.showPhase part n (cs.getD n 0)) s1
      else s)

/-! Shares and frequencies (R338, R342, R344, R345, R349). -/

/-- The partitions that run on a die: those that keep its PLLs running. -/
def State.runsOn (s : State) (n : Nat) : List Nat :=
  (List.range 16).filter (fun p => (s.part p).pll && s.ownsDie p n)

/-- A partition's predicted draw of a die for its coming phase as numerator over 4^scale; 140 W before its
first release (R339). -/
def State.coming (s : State) (p n : Nat) : Nat × Nat :=
  match tabGet [] s.pwr.phases p with
  | [] => (140, 0)
  | e :: _ => (e.draw.getD n 140, e.scale)

/-- The die's predicted draw × 4^`k`, `k` at least every scale in use: the largest of its partitions. -/
def State.weight (s : State) (k n : Nat) : Nat :=
  ((s.runsOn n).map (fun p => (s.coming p n).1 * 4 ^ (k - (s.coming p n).2))).foldl max 0

/-- A scale that every entry's divides. -/
def State.maxScale (s : State) : Nat :=
  ((List.range 16).map (fun p => (s.coming p 0).2)).foldl max 0

/-- The open pool (R338, R345). -/
def State.openPool (s : State) : Nat := s.pwr.eff.toNat - (s.sealedW + s.pwr.uncoreW.toNat)

/-- The allowed values of CK_ARITH on an open die (R342). -/
def freqSteps : List Nat := (List.range 31).map (fun i => 1200 + 50 * i)

/-- The highest CK_ARITH whose predicted draw fits the allocation; 1,200 MHz when none does. -/
def fitFreq (alloc : Nat) (predicted : Nat → Nat) : Nat :=
  (freqSteps.filter (fun f => decide (predicted f ≤ alloc))).foldl max 1200

/-- The allocation of an open die: its part of the pool, at most its predicted draw at 2.7 GHz (R338). -/
def allocation (pool w total full : Nat) : Nat := if total = 0 then full else min (pool * w / total) full

/-- A step towards a target of at most 300 MHz (R342). -/
def stepTo (now target : Nat) : Nat :=
  if now + 300 < target then now + 300 else if target + 300 < now then now - 300 else target

/-- May the die's frequency change: not within 1 ms of the last change (R342, R349)? -/
def DiePower.mayChange (d : DiePower) (now : DWord) : Bool :=
  match d.changedAt with
  | none => true
  | some t => decide (1000000 ≤ (now - t).toNat)

/-- Set a die's frequency. -/
def State.setFreq (s : State) (n f : Nat) : State :=
  if f = s.freqHeld n then s
  else { s with pwr := { s.pwr with dies := tabMod {} s.pwr.dies n (fun d =>
    { d with freq := BitVec.ofNat 12 f, changedAt := some s.now }) } }

/-- The frequency of an open die (R338, R342, R345, R349). -/
def State.openFreq (s : State) (pool total k n : Nat) : State :=
  let predicted := Config.predictedDraw n (s.weight k n) k
  let d := tabGet ({} : DiePower) s.pwr.dies n
  let target :=
    if d.throttled then max 1200 (s.freqHeld n - 50)
    else if s.pwr.breach then 1200
    else fitFreq (allocation pool (s.weight k n) total (predicted 2700)) predicted
  if d.mayChange s.now then s.setFreq n (stepTo (s.freqHeld n) target) else s

/-- The frequency of a sealed die (R344, R345, R349): 2.4 GHz, lowered by 50 MHz in a breach whose limit is
still exceeded with the open dies at 1.2 GHz, and by 50 MHz while it is throttled. -/
def State.sealedFreq (s : State) (exceeds : Bool) (n : Nat) : State :=
  let d := tabGet ({} : DiePower) s.pwr.dies n
  if d.throttled || (s.pwr.breach && exceeds) then
    if d.mayChange s.now then s.setFreq n (max 50 (s.freqHeld n - 50)) else s
  else if s.pwr.breach then s
  else s.setFreq n 2400

/-- The uncore measurements of the last 100 ms, with a new one. -/
def State.uncoreNow (s : State) (w : Nat) : List (DWord × BitVec 16) :=
  (s.now, BitVec.ofNat 16 (min w 65535))
    :: s.pwr.uncore.filter (fun e => decide ((s.now - e.1).toNat ≤ 100000000))

/-- The figures of the measurement (R338, Table 12.6). -/
def State.takeMeasure (s : State) (m : PowerMeasure) : State :=
  let dies := (List.range 12).foldl (fun t n => tabMod ({} : DiePower) t n (fun d =>
    { d with watts := BitVec.ofNat 12 (min (m.measured.getD n 0) 4095) })) s.pwr.dies
  { s with
    pwr := { s.pwr with
      inputW := BitVec.ofNat 16 (min m.inputW 65535),
      peakW := BitVec.ofNat 16 (max s.pwr.peakW.toNat (min m.peakW 65535)),
      uncoreW := BitVec.ofNat 16 (((s.uncoreNow m.uncoreW).map (fun e => e.2.toNat)).foldl max 0),
      uncore := s.uncoreNow m.uncoreW,
      energy := s.pwr.energy + w64 m.energyJ, dies := dies }
    life := { s.life with cur :=
      { s.life.cur with energyJ := s.life.cur.energyJ + w64 m.energyJ } } }

/-- POWER_RECOMPUTE (R335, R338): Serai measures, in FAULT too, and every die with a running PLL takes the CK_ARITH that
its class gives it. -/
def execPowerRecompute (m : PowerMeasure) (s : State) : Host.Outcome State Fault Refusal :=
  .next (
    if s.seraiOn then
      let s1 := (s.takeMeasure m).checkBreach
      let k := s1.maxScale
      let dies := (List.range 12).filter s1.pllOn
      let opens := dies.filter (fun n => !s1.dieSealed n)
      let total := (opens.map (s1.weight k)).foldl (· + ·) 0
      let exceeds := decide (s1.pwr.eff.toNat < m.inputW) && opens.all (fun n => s1.freqHeld n == 1200)
      eachDo dies (fun n t =>
        if s1.dieSealed n then t.sealedFreq exceeds n
        else t.openFreq s1.openPool total k n) s1
    else s)

/-! Droop (R347, R348). -/

/-- The samples of a core's tallies to come carry STRETCHED (R358). -/
def Core.markStretch (c : Core) : Core :=
  { c with stretchTally := 0xFFFFFFFF, stretchSnap := 0xFFFFFFFF, stretchTrace := 0xFFFFFFFF }

/-- Code 0x4005 at most once per second per die (R348). -/
def State.logDroop (s : State) (d : Nat) : State :=
  let due := match (s.sense d).lastDroopLog with
    | none => true
    | some t => decide (1000000000 ≤ (s.now - t).toNat)
  if due then
    ({ s with pwr := { s.pwr with sense := tabMod {} s.pwr.sense d (fun x =>
      { x with lastDroopLog := some s.now }) } }).logPower d 0x4005 scOk []
  else s

/-- Does a die carry droop detectors: the compute dies and Serai (R347)? -/
def droopDie (d : Nat) : Bool := decide (d < 12) || d == 24

/-- Do stretchable domains of a die run: those of Serai in FAULT too (Tables 12.1 and 12.2)? -/
def State.mayDroop (s : State) (d : Nat) : Bool := droopDie d && (if d = 24 then s.seraiOn else s.clocked)

/-- DROOP_CROSSING (R347, R348): the stretchable domains of the die lengthen their cycles to 1.5 times, or
2 times at 6 %. -/
def execDroopCrossing (d : Nat) (six : Bool) (s : State) : Host.Outcome State Fault Refusal :=
  .next (
    if s.mayDroop d then
      let s1 := { s with pwr := { s.pwr with droop := true, sense := tabMod {} s.pwr.sense d (fun x =>
        { x with stretch3 := true, stretch6 := x.stretch6 || six }) } }
      let s2 := if d < 12 then
          eachDo (List.range 22) (fun k t => t.modCore (22 * d + k) Core.markStretch) s1
        else s1
      s2.logDroop d
    else s)

/-- The cores of a die whose clock runs (R334). -/
def State.clockedCores (s : State) (n : Nat) : List Nat :=
  ((List.range 16).filter (fun p => (s.part p).st.clocked)).flatMap (fun p =>
    (s.physOfPart p).filter (fun c => c / 22 == n))

/-- DROOP_STRETCH_END (R347, R348): the stretched cycles count in the tallies of the cores whose clock ran. -/
def execDroopStretchEnd (d cycles : Nat) (s : State) : Host.Outcome State Fault Refusal :=
  .next (
    if s.mayDroop d ∧ s.stretched d then
      let s1 := { s with pwr := { s.pwr with sense := tabMod {} s.pwr.sense d (fun x =>
        { x with stretch3 := false, stretch6 := false }) } }
      if d < 12 then
        eachDo (s1.clockedCores d) (fun p t => t.talliesAdd p [(0, cycles), (1, cycles)]) s1
      else s1
    else s)

/-! Temperature (R349). -/

/-- The hottest compute die. -/
def Power.hottest (p : Power) : Nat :=
  ((List.range 12).map (fun n => (tabGet ({} : DieSense) p.sense n).tj.toNat)).foldl max 0

/-- Count thermal cycles (Table 12.5): a fall of at least 40 K from a peak, then a return of 40 K. -/
def Life.heat (l : Life) (h : Nat) : Life :=
  if l.falling then
    if l.trough + 40 ≤ h then
      { l with falling := false, peak := h,
               cur := { l.cur with thermalCycles := l.cur.thermalCycles + 1 } }
    else { l with trough := min l.trough h }
  else if h + 40 ≤ l.peak then { l with falling := true, trough := h }
  else { l with peak := max l.peak h }

/-- PWR_TJ[d] after a report. -/
def State.takeTj (s : State) (d : Nat) (tj : Byte) : State :=
  let s1 := { s with pwr := { s.pwr with sense := tabMod {} s.pwr.sense d (fun x =>
    { x with tj := tj, maxTj := if x.maxTj.toNat < tj.toNat then tj else x.maxTj }) } }
  if d < 12 then { s1 with life := s1.life.heat s1.pwr.hottest } else s1

/-- A compute die starts to be throttled above 100 °C, with code 0x4004, and stops at 98 °C. -/
def State.throttle (s : State) (d : Nat) (tj : Byte) : State :=
  let x := tabGet ({} : DiePower) s.pwr.dies d
  let set := fun (b : Bool) (s : State) =>
    { s with pwr := { s.pwr with dies := tabMod {} s.pwr.dies d (fun x => { x with throttled := b }) } }
  if 100 < tj.toNat ∧ x.throttled = false then
    let s1 := set true s
    ({ s1 with pwr := { s1.pwr with thermal := true } }).logPower d 0x4004 scOk []
  else if tj.toNat ≤ 98 ∧ x.throttled = true then set false s
  else s

/-- THERMAL_SAMPLE (R335, R349): above 110 °C on any die the module enters FAULT, with code 0x4006. In FAULT, where
CK_ARITH does not run, the reports go on. -/
def execThermalSample (d : Nat) (tj : Byte) (s : State) : Host.Outcome State Fault Refusal :=
  .next (
    if s.seraiOn ∧ d < 25 then
      let s1 := s.takeTj d tj
      let s2 := if d < 12 ∧ s.clocked then s1.throttle d tj else s1
      if 110 < tj.toNat ∧ s.clocked then (s2.logPower d 0x4006 scUncorr []).enterFault 1 else s2
    else s)

end Sys2Proof.Machine
end

