-- ==== Sys2Proof/Machine/TimeBase.lean ====
section
/-!
DEFINITION. The time base (R350 to R358, R366) and the lifetime ledger's commits and service calendar (R360
to R363, R367).
-/

namespace Sys2Proof.Machine

def State.modTime (s : State) (g : TimeBase → TimeBase) : State := { s with time := g s.time }

/-! Reference and upstream link (R353). -/

/-- States in which a link may be the upstream link. -/
def carriesTime (x : LinkSt) : Bool := decide (x = .beacon ∨ x = .up ∨ x = .fenced)

/-- The upstream link: the one on which R231 would send a link control frame to the time root, which in a switched
installation is that of the module's own caravan. -/
def State.upstream (s : State) : Option Nat :=
  if s.time.rootValid && !s.time.root then
    s.torusLink carriesTime s.coord s.time.rootCoord.toNat 0
  else none

/-- UPLINK of TB_STAT follows the links; a change writes code 0x4105, and the measurements against the reference start
again (R352, R353). -/
def State.refreshUplink (s : State) : State :=
  let u : BitVec 6 := BitVec.ofNat 6 (s.upstream.getD 63)
  if u = s.time.uplink then s
  else (s.modTime (fun t => { t with
    uplink := u, good := 0, hops := if t.root then 0 else 63 })).logTime 0x4105 scOk []

/-- Does the root take wall time from PTP (R353)? -/
def TimeBase.usesPtp (t : TimeBase) : Bool := t.root && t.ptpEn && t.ptpLocked

/-- The time base enters LOCKED (R352, R356): code 0x4101 with the step at the first lock, 0x4103 when it
leaves HOLDOVER. -/
def State.enterLocked (s : State) (step : DWord) : State :=
  if s.time.st = .locked then s
  else if s.time.everLocked then
    let s1 := s.modTime (fun t => { t with st := .locked })
    if s.time.st = .holdover then s1.logTime 0x4103 scOk [] else s1
  else
    let s1 := { s with now := s.now + step }
    (s1.modTime (fun t => { t with st := .locked, everLocked := true })).logTime 0x4101 scOk
      (w64words step)

/-- What a time root's reference gives (R353): PTP's wall time when its servo is locked, itself otherwise.
A root that is its own reference measures no offset, so it is LOCKED; a first lock to PTP steps to a time
that is not the module's own (a free value). -/
def State.rootReference (s : State) : State :=
  if s.time.root then
    let p := s.time.usesPtp
    let s1 := s.modTime (fun t => { t with wall := p, hops := 0 })
    if p && !s1.time.everLocked then s1.useFree.enterLocked s1.freeVal else s1.enterLocked 0
  else s

/-- PTP_LOCK_CHANGE (R353): TB_PTP_STAT, and at a time root that takes PTP the change of its reference, with
code 0x4106 when PTP is lost. -/
def execPtpLockChange (locked : Bool) (s : State) : Host.Outcome State Fault Refusal :=
  .next (match s.mod.state with
    | .off => s
    | .standby => s
    | _ =>
      let had := s.time.usesPtp
      let s1 := (s.modTime (fun t => { t with ptpLocked := locked })).rootReference
      if had && !locked then s1.logTime 0x4106 scWatchdog [] else s1)

/-- TIME_REFERENCE_LOSS (R352): HOLDOVER and code 0x4102. A time root, which may be its own reference, does
not lose it. -/
def execTimeReferenceLoss (s : State) : Host.Outcome State Fault Refusal :=
  .next (
    if s.time.st = .locked ∧ s.time.root = false ∧ s.seraiOn then
      (s.modTime (fun t => { t with st := .holdover, good := 0 })).logTime 0x4102 scWatchdog []
    else s)

/-! Time frames (R354 to R356). -/

/-- Bytes of a time frame from destination address through FCS (R227, Table 12.3). -/
def timeLen : Nat := 14 + 4 + 48 + 4

/-- The time frame that the module sends on a link; T_TX is written when it leaves. -/
def State.timeFrame (s : State) (l : Nat) : TimeFrame :=
  let e := tabGet ({} : LinkTime) s.time.links l
  { src := BitVec.ofNat 20 s.coord, dst := BitVec.ofNat 20 (s.peerOf l).1,
    locked := decide (s.time.st = .locked), root := s.time.root, wall := s.time.wall,
    hops := if s.time.hops = 63 then 0xFFFF else s.time.hops.setWidth 16,
    tTx := s.now, echoTx := e.echoTx, echoRx := e.echoRx }

/-- TIME_FRAME_DUE (R354): a link in BEACON, UP or FENCED sends a time frame on queue 7. -/
def execTimeFrameDue (link : Nat) (s : State) : Host.Outcome State Fault Refusal :=
  .next (
    if s.clocked ∧ link < 36 ∧ carriesTime (s.link link).st then
      s.enqueue link 7
        { s.qframe link (.time (s.timeFrame link)) with laneB := s.laneOut none false link }
    else s)

/-- Half of a difference in ns; which way an odd one rounds is open (log entry 5). -/
def State.half (s : State) (x : Int) : State × Int :=
  if x % 2 = 0 then (s, x / 2) else (s.useFree, x / 2 + (if s.freeVal.getLsbD 0 then 1 else 0))

/-- A signed 32-bit register; what it shows outside its range is open (log entry 5). -/
def State.reg32 (s : State) (x : Int) : State × Word :=
  if -2147483648 ≤ x ∧ x ≤ 2147483647 then (s, BitVec.ofInt 32 x) else (s.useFree, s.freeVal.setWidth 32)

/-- The rate correction after a measurement: within ±1,000 ppm, otherwise open (R356, log entry 5). -/
def State.newRate (s : State) : State :=
  s.useFree.modTime (fun t => { t with
    rate := BitVec.ofInt 32 ((s.freeVal.toNat % 2000001 : Nat) - 1000000) })

/-- A measurement of R355 against the upstream module's frame `t`, received at `t4`. -/
def State.measure (s : State) (t : TimeFrame) (t4 : DWord) : State :=
  let t1 := t.echoTx
  let t2 := t.echoRx
  let d := s.half ((t4 - t1).toInt - (t.tTx - t2).toInt)
  let o := d.1.half ((t2 - t1).toInt + (t.tTx - t4).toInt)
  let rd := o.1.reg32 d.2
  let ro := rd.1.reg32 o.2
  let within := decide (-5 ≤ o.2 ∧ o.2 ≤ 5)
  let good := if within then s.time.good + 1 else 0
  let s1 := ro.1.modTime (fun x => { x with
    offset := ro.2, delay := rd.2, wall := t.wall,
    hops := if t.hops.toNat < 62 then BitVec.ofNat 6 (t.hops.toNat + 1) else 63,
    good := if 16 ≤ good then 16 else good })
  let s2 := s1.newRate
  if s2.time.st = .locked then
    if o.2 < -1000 ∨ 1000 < o.2 then s2.logTime 0x4104 scOk [] else s2
  else if 16 ≤ good then s2.enterLocked (BitVec.ofInt 64 o.2) else s2

/-- TIME_FRAME_RECEIVED (R355): every link keeps what its next frame echoes; a frame on the upstream link that
echoes a frame sent there within the last 1 ms gives a measurement. -/
def execTimeFrameReceived (link : Nat) (t : TimeFrame) (s : State) : Host.Outcome State Fault Refusal :=
  .next (
    if s.clocked ∧ link < 36 ∧ carriesTime (s.link link).st then
      let e := tabGet ({} : LinkTime) s.time.links link
      let s1 := (s.gotFrame link 7 (s.laneOut none false link) timeLen).modTime (fun x =>
        { x with links := tabSet x.links link { e with echoTx := t.tTx, echoRx := s.now } })
      let echo := e.sentTx.any (fun x => x == t.echoTx && decide ((s.now - x).toNat ≤ 1000000))
      if s.time.uplink.toNat = link ∧ echo then s1.measure t s.now else s1
    else s)

/-! Steps and replicas (R351, R356). -/

/-- Is no partition RUNNING, PAUSED or RECOVERING (R356)? -/
def State.noneActive (s : State) : Bool :=
  (List.range 16).all (fun p =>
    match (s.part p).st with
    | .running => false
    | .paused => false
    | .recovering => false
    | _ => true)

/-- A write of TB_STEP_HI steps TIME_NOW by the signed value of both registers, with code 0x4107; it is discarded
with STATE_ILLEGAL while a partition is active (R356). -/
def State.timeStep (s : State) (hi : Word) : State :=
  let step : DWord := hi ++ s.time.stepLo
  if s.noneActive then { s with now := s.now + step }.logTime 0x4107 scOk (w64words step)
  else s.logTime 0x4107 scIllegal (w64words step)

/-- TIME_STEP (R356). -/
def execTimeStep (src : Source) (hi : Word) (s : State) : Host.Outcome State Fault Refusal :=
  .next (if s.mayWrite src .pf then s.timeStep hi else s)

/-- Was a record stamped within the last 1 ms? -/
def recent (now t : DWord) : Bool := decide ((now - t).toNat ≤ 1000000)

/-- UNSYNC of a time mark (R358). -/
def unsync (m : BitVec 4) : BitVec 4 := m ||| 4

/-- An entry of the logbook that die `d` stamped within the last 1 ms carries UNSYNC. -/
def LogEntry.resync (e : LogEntry) (d : Nat) (now : DWord) : LogEntry :=
  if e.die = d ∧ recent now e.time then { e with tmark := unsync e.tmark } else e

/-- The records of a core that were stamped within the last 1 ms carry UNSYNC. -/
def Core.resync (c : Core) (now : DWord) : Core :=
  { c with
    trace := c.trace.map (fun r => if recent now r.time then { r with tmark := unsync r.tmark } else r),
    snap := if recent now c.snap.time then { c.snap with mark := unsync c.snap.mark } else c.snap }

/-- Serai realigns a die's replica (R351): code 0x4108; the die's records of the last 1 ms carry UNSYNC. -/
def State.realign (s : State) (d : Nat) : State :=
  let s1 := { s with log := { s.log with
    rings := s.log.rings.map (fun r => (r.1, { r.2 with
      entries := r.2.entries.map (fun e => e.resync d s.now) })),
    staging := s.log.staging.map (fun e => e.resync d s.now) } }
  let s2 := if d < 12 then
      eachDo ((List.range 22).filter (fun k => s.cores.any (fun e => e.1 == 22 * d + k)))
        (fun k t => t.modCore (22 * d + k) (fun c => c.resync s.now)) s1
    else s1
  let s3 := { s2 with pwr := { s2.pwr with
    sense := tabMod {} s2.pwr.sense d (fun x => { x with replicaDiff := 0 }) } }
  s3.logTime 0x4108 scOk [w32 d]

/-- REPLICA_CHECK (R351): a replica that differs by more than 4 ns is realigned. -/
def execReplicaCheck (diffs : List Int) (s : State) : Host.Outcome State Fault Refusal :=
  .next (
    if s.seraiOn ∧ diffs.length = 25 then
      eachDo diffs.zipIdx (fun (e : Int × Nat) t =>
        if e.1 < -4 ∨ 4 < e.1 then t.realign e.2
        else { t with pwr := { t.pwr with
          sense := tabMod {} t.pwr.sense e.2 (fun x => { x with replicaDiff := e.1 }) } }) s
    else s)

/-! The lifetime ledger (R360 to R363). -/

/-- LIFETIME_COMMIT_CMD (R361, Table 12.9): a write of 1 to LIFE_CMD.COMMIT. -/
def execLifetimeCommitCmd (fn : Nat) (s : State) : Host.Outcome State Fault Refusal :=
  .next (s.onBar fn .pf State.lifeBegin)

/-- LIFETIME_COMMIT_TIMER (R361). -/
def execLifetimeCommitTimer (s : State) : Host.Outcome State Fault Refusal :=
  .next (if s.seraiOn then s.lifeBegin else s)

/-- After a commit ends, one that became due meanwhile begins (R361). -/
def State.lifeNext (s : State) : State :=
  if s.life.again then s.lifeBegin else s

/-- LIFETIME_COMMIT_DONE (R361): the record is the newest committed one; a failed read-back is retried once in the
next slot of the same bank, and then sets WRITE_FAIL with code 0x4007. -/
def execLifetimeCommitDone (ok : Bool) (s : State) : Host.Outcome State Fault Refusal :=
  .next (match s.life.committing with
    | none => s
    | some (r, retry) =>
      if !s.seraiOn then s
      else
        let k := lifeSlot r.seq.toNat retry
        if ok then
          ({ s with life := { s.life with
            committing := none, committed := r, bank := decide (64 ≤ k), slots := tabSet s.life.slots k (.valid r) } }).lifeNext
        else
          let s1 := { s.useFree with life := { s.life with
            slots := tabSet s.life.slots k (tornSlot r (s.freeVal.getLsbD 0)) } }
          if retry then
            (({ s1 with life := { s1.life with committing := none, writeFail := true } }).logPower 24 0x4007
              scUncorr []).lifeNext
          else { s1 with life := { s1.life.erase (lifeSlot r.seq.toNat true) with committing := some (r, true) } })

/-- SERVICE_DUE (R363): POWERON_S has reached the DUE hours of a valid entry: DUE_NOW and code 0x4009 once. -/
def execServiceDue (k : Nat) (s : State) : Host.Outcome State Fault Refusal :=
  .next (
    let v := tabGet ({} : Svc) s.life.cur.svc k
    if k < 16 ∧ s.seraiOn ∧ v.valid ∧ v.dueNow = false
        ∧ v.due.toNat * 3600 ≤ s.life.cur.powerOnS.toNat then
      (s.modLife (fun r => { r with svc := tabSet r.svc k { v with dueNow := true } })).logPower 24 0x4009
        scOk [w32 k]
    else s)

end Sys2Proof.Machine
end

