-- ==== Sys2Proof/Machine/Customs.lean ====
section
/-!
DEFINITION. Customs: signatures, the operator anchor, the fused SVN, key records, key blobs and the scrub
of a partition (R371 to R395).
-/

namespace Sys2Proof.Machine

/-- Does a trailer pass R372 under the operator anchor (Table 13.3), where one is enrolled (R378)? -/
def State.operatorOk (s : State) (t : Trailer) (typ : Nat) (body : List Byte) : Bool :=
  match s.customs.anchor with
  | some a => trailerOk t typ a body
  | none => false

/-! CUS_CMD (R376, R378). In recovery mode the PF may not use it (R428). -/

/-- A command of the Customs module block. -/
def State.cusCmd (s : State) (fn : Nat) (g : State → State) : State :=
  s.onBar fn .customs (fun s => if s.mod.recovery then s else g s)

/-- CUS_RESULT takes a command's status. -/
def State.cusStatus (s : State) (status : Nat) : State :=
  { s with customs := { s.customs with status := st8 status } }

/-- The anchor in force and in SPI NOR, there with its HMAC (R378). -/
def State.setAnchor (s : State) (a : Option (BitVec 384)) : State :=
  { s with customs := { s.customs with anchor := a, anchorFlash := a.map (fun x => (x, anchorMac x)) } }

/-- The status of an enrolment (R378): only while no anchor is enrolled; the body is the trailer's own keys;
the signatures verify under them. -/
def State.enrolStatus (s : State) (o : AnchorObj) : Nat :=
  if s.customs.anchor.isSome then scIllegal
  else if o.body ≠ keyBytes o.trailer.edPk o.trailer.mldsaPk then scIllegal
  else if trailerOk o.trailer 6 (trailerKey o.trailer) o.body then scOk
  else scSignature

/-- ANCHOR_ENROL (R378): code 0x0204 with the status. -/
def execAnchorEnrol (fn : Nat) (obj : AnchorObj) (s : State) : Host.Outcome State Fault Refusal :=
  .next (s.cusCmd fn (fun s =>
    let st := s.enrolStatus obj
    let s1 := if st = scOk then s.setAnchor (some (trailerKey obj.trailer)) else s
    (s1.cusStatus st).logCus 0x0204 st none []))

/-- The body of a release (R378): the module and the current sequence number. -/
def State.releaseBody (s : State) : List Byte :=
  ascii "CT25-REL" ++ digestBytes deviceId ++ leBytes 4 s.customs.anchorSeq.toNat

/-- The status of a release (R378). -/
def State.releaseStatus (s : State) (o : AnchorObj) : Nat :=
  if s.operatorOk o.trailer 7 o.body then
    if o.body = s.releaseBody then scOk else scIllegal
  else scSignature

/-- ANCHOR_RELEASE (R378): the anchor is removed, the sequence number advances, the stored highest
epoch returns to zero (R420), code 0x0204. -/
def execAnchorRelease (fn : Nat) (obj : AnchorObj) (s : State) : Host.Outcome State Fault Refusal :=
  .next (s.cusCmd fn (fun s =>
    let st := s.releaseStatus obj
    let s1 := if st = scOk then
        let t := s.setAnchor none
        { t with customs := { t.customs with anchorSeq := s.customs.anchorSeq + 1 },
                 mod := { s.mod with manHigh := 0 } }
      else s
    (s1.cusStatus st).logCus 0x0204 st none []))

/-- SVN_ADVANCE (R376): the fused SVN rises to the running image's, code 0x0205. The thermometer field has
64 fuses, and none is ever restored. -/
def execSvnAdvance (fn : Nat) (s : State) : Host.Outcome State Fault Refusal :=
  .next (s.cusCmd fn (fun s =>
    let v := max s.customs.fuseSvn (min s.customs.fwSvn.toNat 64)
    (({ s with customs := { s.customs with fuseSvn := v } }).cusStatus scOk).logCus 0x0205 scOk none []))

/-! CUSP_CMD (R383, R387). -/

def State.cuspStatus (s : State) (p status : Nat) : State :=
  s.modCus p (fun c => { c with status := st8 status })

/-- Does a partition exist under the manifest in force? -/
def State.exists_ (s : State) (p : Nat) : Bool := (s.part p).cfg.isSome

/-- KEYGEN (R383): a new record replaces the old one; its 16 random bytes and its private halves are free values. -/
def execKeygen (fn part : Nat) (s : State) : Host.Outcome State Fault Refusal :=
  .next (if part < 16 then s.onBar fn (.part part) (fun s =>
      if s.exists_ part then
        let a := s.random 2
        let b := a.1.random 4
        let c := b.1.random 8
        let r : KeyRecord :=
          { part := BitVec.ofNat 8 part, ctx := (s.part part).ms.ctx, epoch := s.pair.2,
            digest := s.pair.1, random := BitVec.ofNat 128 a.2, skX := BitVec.ofNat 256 b.2, dk := BitVec.ofNat 512 c.2 }
        (c.1.modCus part (fun x => { x with record := some r })).cuspStatus part scOk
      else s.cuspStatus part scIllegal)
    else s)

/-- KEY_SLOT_EMPTY (R387): a slot of the partition that no queue pair and no region names. -/
def execKeySlotEmpty (fn part : Nat) (slot : BitVec 6) (s : State) :
    Host.Outcome State Fault Refusal :=
  .next (if part < 16 then s.onBar fn (.part part) (fun s =>
      let i := slot.toNat
      if (s.slotsOf part).contains i && !s.slotRef i then
        (if (s.keySlot i).kind = .empty then s else s.emptySlot part i).cuspStatus part scOk
      else s.cuspStatus part scIllegal)
    else s)

/-! Key blobs (R384 to R386). -/

def kindOf (k : Nat) : SlotKind :=
  if k = 1 then .link else if k = 2 then .host else .weight

/-- An entry of a key blob in the clear (Table 13.9). -/
structure KeyEntry where
  kind : Nat
  slot : Nat
  /-- Bytes 2 to 15 are zero, and key B too unless the kind is LINK. -/
  zeros : Bool
  keyA : BitVec 256
  keyB : BitVec 256
  deriving DecidableEq, Repr

/-- An entry from its 80 bytes. -/
def keyEntry (b : List Byte) : KeyEntry :=
  let k := (b.headD 0).toNat
  let keyB := leNat ((b.drop 48).take 32)
  { kind := k, slot := ((b.drop 1).headD 0).toNat,
    zeros := ((b.drop 2).take 14).all (· == 0) && (k == 1 || keyB == 0),
    keyA := BitVec.ofNat 256 (leNat ((b.drop 16).take 32)), keyB := BitVec.ofNat 256 keyB }

/-- `n` entries from the bytes of a blob. -/
def keyEntries : Nat → List Byte → List KeyEntry
  | 0, _ => []
  | n + 1, b => keyEntry (b.take 80) :: keyEntries n (b.drop 80)

/-- Does no slot occur twice? -/
def slotsDistinct : List KeyEntry → Bool
  | [] => true
  | e :: t => t.all (fun x => x.slot != e.slot) && slotsDistinct t

/-- Bytes 0 to 63 of a blob, its header and the additional data of its encryption (R384). -/
def blobHead (b : KeyBlob) : List Byte :=
  leBytes 4 b.magic.toNat ++ leBytes 2 b.version.toNat ++ [b.nkeys, b.flags] ++ digestBytes b.recordHash
    ++ leBytes 8 b.zeros.toNat

/-- The bytes of a blob before its trailer. -/
def blobBody (b : KeyBlob) : List Byte :=
  blobHead b ++ leBytes 32 b.epk.toNat ++ leBytes 1568 b.ct.toNat ++ leBytes 12 b.iv.toNat
    ++ leBytes 4 b.zeros2.toNat ++ b.entries ++ leBytes 16 b.tag.toNat

/-- The wrapping key of a blob under a record, none when ss_x is zero (R385). -/
def KeyRecord.wrapKey (r : KeyRecord) (b : KeyBlob) : Option (BitVec 256) :=
  let x := x25519 r.skX b.epk
  if x = 0 then none
  else some (Config.hkdf384 (leBytes 32 (Config.mlkemDecaps r.dk b.ct).toNat ++ leBytes 32 x.toNat)
    (digestBytes b.recordHash)
    (ascii "CT25-KW1" ++ digestBytes (Config.sha384 (leBytes 32 b.epk.toNat ++ leBytes 1568 b.ct.toNat))))

/-- The entries of a blob in the clear, when its tag verifies (R384, R385). -/
def KeyRecord.opens (r : KeyRecord) (b : KeyBlob) : Option (List KeyEntry) :=
  match r.wrapKey b with
  | none => none
  | some k =>
    if b.tag = Config.gcmTag k b.iv (blobHead b) b.entries then
      some (keyEntries b.nkeys.toNat (gcmCrypt k b.iv b.entries))
    else none

/-- The form of a blob (Table 13.10, first check). -/
def blobForm (b : KeyBlob) : Bool :=
  b.len == 7064 + 80 * b.nkeys.toNat && b.entries.length == 80 * b.nkeys.toNat && b.magic == 0x424B5752
    && b.version == 1 && decide (1 ≤ b.nkeys.toNat) && decide (b.nkeys.toNat ≤ 8) && decide (b.flags.toNat < 2)
    && b.zeros == 0 && b.zeros2 == 0

/-- May an entry be installed: its KIND, its slot and its zero fields (Table 13.10, last check)? -/
def State.keyEntryOk (s : State) (p : Nat) (e : KeyEntry) : Bool :=
  e.zeros && decide (1 ≤ e.kind) && decide (e.kind ≤ 3) && (s.slotsOf p).contains e.slot
    && decide ((s.keySlot e.slot).kind = .empty)

/-- Table 13.10, in order: the status of the first check that fails, or the entries. The zero fields of the entries are
plain only once the tag has verified. -/
def State.blobCheck (s : State) (p : Nat) (b : KeyBlob) : Except Nat (List KeyEntry) :=
  match (s.part p).cfg.bind (·.anchor), (s.cus p).record with
  | some anchor, some r =>
    if !blobForm b ∨ b.recordHash ≠ r.hash ∨ r.ctx ≠ (s.part p).ms.ctx then .error scIllegal
    else if (r.digest, r.epoch) ≠ s.pair then .error scManifest
    else if !trailerOk b.trailer 4 anchor (blobBody b) then .error scSignature
    else
      match r.opens b with
      | none => .error scSignature
      | some es => if es.all (s.keyEntryOk p) && slotsDistinct es then .ok es else .error scIllegal
  | _, _ => .error scIllegal

/-- Install every entry of a blob (R386). -/
def State.installKeys (s : State) (p : Nat) (es : List KeyEntry) (protect : Bool) : State :=
  let s1 := eachDo es (fun e t => t.setKeySlot e.slot
    { kind := kindOf e.kind, part := BitVec.ofNat 4 p, keyA := e.keyA, keyB := e.keyB }) s
  if protect then s1.modCus p (fun c => { c with protected_ := true }) else s1

/-- The command's effect and status (R386): every entry or nothing, code 0x0207 or 0x0206. -/
def State.takeBlob (s : State) (p : Nat) (b : KeyBlob) : State × Nat :=
  match s.blobCheck p b with
  | .ok es => ((s.installKeys p es (b.flags.getLsbD 0)).logCus 0x0207 scOk (some p) [], scOk)
  | .error st => (s.logCus 0x0206 st (some p) [], st)

/-! SCRUB (R395). -/

/-- The ranges that SCRUB scrubs: the partition's private windows and its placements. -/
def State.scrubRanges (s : State) (p : Nat) : List (Nat × Nat) :=
  (match (s.part p).cfg with
    | some c => (c.windows.filter (fun w => !w.pool)).map (fun w => (w.base, w.size))
    | none => [])
    ++ (s.part p).mem.placements.map (fun e => (e.2.base, e.2.size))

/-- CUS_STAT.SCRUBBING while any scrub runs. -/
def State.refreshScrubbing (s : State) : State :=
  { s with customs := { s.customs with
    scrubbing := s.mod.reassigning || (List.range 16).any (fun p => (s.cus p).scrub.isSome) } }

/-- SCRUB_DONE (R395): the ranges are scrubbed, the cistern keys are new, CLEAN is set, code 0x020B, and the
command completes. -/
def execScrubDone (part : Nat) (s : State) : Host.Outcome State Fault Refusal :=
  .next (match (s.cus part).scrub with
    | none => s
    | some c =>
      if s.clocked ∧ part < 16 then
        let s1 := eachDo (s.scrubRanges part) (fun r t => t.scrubRange r.1 r.2) s
        let s2 := ((s1.freshCisKeys part).modCus part (fun x =>
          { x with scrub := none, clean := true })).refreshScrubbing
        (s2.logCus 0x020B scOk (some part) []).complete c scOk 0 0
      else s)

end Sys2Proof.Machine
end

