-- ==== Sys2Proof/Machine/CoreRegs.lean ====
section
/-!
DEFINITION. Writes of the registers of a core's window that itineraries and the host share (R56, R141,
R164, R128).
-/

namespace Sys2Proof.Machine

/-- STREAM[s] from a word. -/
def streamOf (v : Word) : StreamReg := { wbase := v.setWidth 10, sbase := (v >>> 10).setWidth 6 }

/-- CONV_CTL written (Table 2.9): RMODE_DEF 6 and 7 and SRBITS_DEF 3 are discarded. -/
def ConvCtl.write (c : ConvCtl) (v : Word) : ConvCtl :=
  let r : BitVec 3 := (v >>> 8).setWidth 3
  let b : BitVec 2 := (v >>> 11).setWidth 2
  { c with flush := v.setWidth 8,
           rmodeDef := if 6 ≤ r.toNat then c.rmodeDef else r,
           srbitsDef := if b = 3 then c.srbitsDef else b }

/-- CONV_CTL as a word. -/
def ConvCtl.word (c : ConvCtl) : Word :=
  w32 (c.flush.toNat + 256 * c.rmodeDef.toNat + 2048 * c.srbitsDef.toNat)

/-- CONV_AMAX[t] written: a write with bit 31 set, or of a NaN pattern, is discarded (Table 2.12). -/
def TensorRec.writeAmax (r : TensorRec) (v : Word) : TensorRec :=
  if 0x7F800000 < v.toNat then r else { r with amax := v }

/-- CONV_FLAGS[t] written: each 1 clears its bit. -/
def TensorRec.writeFlags (r : TensorRec) (v : Word) : TensorRec :=
  { r with flushed := r.flushed && !v.getLsbD 0, overflow := r.overflow && !v.getLsbD 1,
           nonfinite := r.nonfinite && !v.getLsbD 2 }

def TensorRec.flagWord (r : TensorRec) : Word :=
  w32 (b2n r.flushed + 2 * b2n r.overflow + 4 * b2n r.nonfinite)

/-- One word of WMASK[j] written (Table 4.9). -/
def WMask.write (m : WMask) (i : Nat) (v : Word) : WMask :=
  match i with
  | 0 => { m with rowsLo := v }
  | 1 => { m with rowsHi := v }
  | 2 => { m with colsLo := v }
  | _ => { m with colsHi := v }

def WMask.word (m : WMask) (i : Nat) : Word :=
  match i with
  | 0 => m.rowsLo
  | 1 => m.rowsHi
  | 2 => m.colsLo
  | _ => m.colsHi

/-- The offsets that REGWR may write (R141). 0x8004 holds none of the registers it names. -/
def regwrOk (off : Nat) : Bool :=
  off % 4 == 0 &&
    ((decide (0x10 ≤ off) && decide (off < 0x30)) || (decide (0x44 ≤ off) && decide (off < 0x80))
      || off == 0x8000 || off == 0x8008 || off == 0x800C
      || (decide (0x8400 ≤ off) && decide (off < 0x8600))
      || (decide (0xA000 ≤ off) && decide (off < 0xA080)))

/-- A write of one of the registers that R141 names, by its offset in the core's window. -/
def Core.regWrite (c : Core) (off : Nat) (v : Word) : Core :=
  if off < 0x30 then { c with streams := tabSet c.streams ((off - 0x10) / 4) (streamOf v) }
  else if off < 0x80 then c.setX ((off - 0x40) / 4) v
  else if off = 0x8000 then { c with conv := c.conv.write v }
  else if off = 0x8008 then { c with conv := { c.conv with seed := v } }
  else if off = 0x800C then { c with conv := { c.conv with step := v } }
  else if off < 0x8500 then
    { c with recs := tabMod ({} : TensorRec) c.recs ((off - 0x8400) / 4) (fun r => r.writeAmax v) }
  else if off < 0x8600 then
    { c with recs := tabMod ({} : TensorRec) c.recs ((off - 0x8500) / 4) (fun r => r.writeFlags v) }
  else
    let j := (off - 0xA000) / 16
    { c with wmask := tabMod ({} : WMask) c.wmask j (fun m => m.write ((off - 0xA000) % 16 / 4) v) }

end Sys2Proof.Machine
end

