-- ==== Sys2Proof/Machine/Control.lean ====
section
/-!
DEFINITION. Control instructions: NOP, loops, branches, deadline branches, HALT and REGWR (R137 to
R141, R147, R205, R207).
-/

namespace Sys2Proof.Machine

/-- Bits [127:120] of an instruction (R136). -/
def opcodeOf (w : BitVec 128) : Nat := (w >>> 120).toNat

/-- The index after the ENDLOOP that closes a loop whose body starts at `i`; `depth` loops are open
inside it. -/
def afterLoop : List (BitVec 128) → Nat → Nat → Nat
  | [], i, _ => i
  | w :: ws, i, depth =>
    if opcodeOf w = 3 then if depth = 0 then i + 1 else afterLoop ws (i + 1) (depth - 1)
    else if opcodeOf w = 1 ∨ opcodeOf w = 2 then afterLoop ws (i + 1) (depth + 1)
    else afterLoop ws (i + 1) depth

/-- Where a loop opened at the pc continues when its count is 0 (R139). -/
def Core.skipLoop (c : Core) : Nat := afterLoop (c.insns.drop (c.pc + 1)) (c.pc + 1) 0

/-- Open a loop of `count` iterations (R139). -/
def State.openLoop (s : State) (p : Nat) (stm : BitVec 3) (xi : BitVec 4) (step : Word)
    (count : Nat) : State :=
  let c := s.core p
  if count = 0 then s.goto p c.skipLoop stm
  else if 4 ≤ c.loops.length then s.coreFault p scIllegal 0x100F false stm []
  else
    (s.setCore p { c with
      loops := { start := c.pc + 1, xi := xi, step := step, left := count } :: c.loops }).advance p stm

/-- ENDLOOP on the top entry (R139). -/
def State.endLoop (s : State) (p : Nat) (stm : BitVec 3) : State :=
  let c := s.core p
  match c.loops with
  | [] => s.coreFault p scIllegal 0x100F false stm []
  | e :: rest =>
    let c1 := c.setX e.xi.toNat (c.x e.xi.toNat + e.step)
    if 1 < e.left then
      (s.setCore p { c1 with loops := { e with left := e.left - 1 } :: rest }).goto p e.start stm
    else (s.setCore p { c1 with loops := rest }).advance p stm

/-- The address ADDR + 4 × XREG[XA] (R139, R140). -/
def Core.wordAddr (c : Core) (xa : BitVec 4) (addr : BitVec 44) : Nat :=
  addr.toNat + 4 * (c.x xa.toNat).toNat

/-- A 32-bit word of memory as a core reads it. -/
def State.wordAt (s : State) (p a : Nat) : Nat := leNat (s.bytesAt p a 4)

/-- Branch to `target` when `b`, else go on in line. -/
def State.branch (s : State) (p : Nat) (stm : BitVec 3) (b : Bool) (target : BitVec 14) : State :=
  if b then s.goto p target.toNat stm else s.advance p stm

/-- The flags of a record that MASK selects (R140). -/
def TensorRec.any (r : TensorRec) (mask : BitVec 3) : Bool :=
  (mask.getLsbD 0 && r.flushed) || (mask.getLsbD 1 && r.overflow) || (mask.getLsbD 2 && r.nonfinite)

/-- NOP (R137). -/
def execNop (i : Issue) (s : State) : Host.Outcome State Fault Refusal :=
  .next (match s.issuing i.core (.nop i) with
    | none => s
    | some p => (s.issued p).advance p i.stm)

/-- LOOP (R139). -/
def execLoop (i : Issue) (xi : BitVec 4) (step count : Word) (s : State) :
    Host.Outcome State Fault Refusal :=
  .next (match s.issuing i.core (.loop i xi step count) with
    | none => s
    | some p => (s.issued p).openLoop p i.stm xi step count.toNat)

/-- LOOPM (R139): the count is the word at ADDR + 4 × XREG[XA], at most MAX. -/
def execLoopm (i : Issue) (xi xa : BitVec 4) (addr : BitVec 44) (step : BitVec 16) (max : Word)
    (s : State) : Host.Outcome State Fault Refusal :=
  .next (match s.issuing i.core (.loopm i xi xa addr step max) with
    | none => s
    | some p =>
      let s0 := s.issued p
      let a := (s0.core p).wordAddr xa addr
      let r := s0.coreRead p (s0.partNo i.core) [(a, 4)] i.stm
      if !r.2 then r.1
      else
        let n := s0.wordAt p a
        if max.toNat < n then r.1.coreFault p scIllegal 0x100A false i.stm []
        else r.1.openLoop p i.stm xi (step.signExtend 32) n)

/-- ENDLOOP (R139). -/
def execEndloop (i : Issue) (s : State) : Host.Outcome State Fault Refusal :=
  .next (match s.issuing i.core (.endloop i) with
    | none => s
    | some p => (s.issued p).endLoop p i.stm)

/-- JUMP (R140). -/
def execJump (i : Issue) (target : BitVec 14) (s : State) : Host.Outcome State Fault Refusal :=
  .next (match s.issuing i.core (.jump i target) with
    | none => s
    | some p => (s.issued p).goto p target.toNat i.stm)

/-- BRFLAG (R140). -/
def execBrflag (i : Issue) (trec : BitVec 6) (mask : BitVec 3) (sense : Bool) (target : BitVec 14)
    (s : State) : Host.Outcome State Fault Refusal :=
  .next (match s.issuing i.core (.brflag i trec mask sense target) with
    | none => s
    | some p =>
      let any := ((s.core p).recd trec.toNat).any mask
      (s.issued p).branch p i.stm (any == sense) target)

/-- BRMEM (R140). -/
def execBrmem (i : Issue) (xa : BitVec 4) (addr : BitVec 44) (sense : Bool) (target : BitVec 14)
    (s : State) : Host.Outcome State Fault Refusal :=
  .next (match s.issuing i.core (.brmem i xa addr sense target) with
    | none => s
    | some p =>
      let s0 := s.issued p
      let a := (s0.core p).wordAddr xa addr
      let r := s0.coreRead p (s0.partNo i.core) [(a, 4)] i.stm
      if !r.2 then r.1
      else r.1.branch p i.stm ((s0.wordAt p a != 0) == sense) target)

/-- DLBR at issue (R140, R205, R207): a MISSING mark branches at once and is cleared; N tokens continue
in line; DL = 0 branches at once; otherwise the core waits. -/
def execDlbr (i : Issue) (buf : BitVec 14) (n : BitVec 8) (dl : BitVec 24) (target : BitVec 14)
    (s : State) : Host.Outcome State Fault Refusal :=
  .next (match s.issuing i.core (.dlbr i buf n dl target) with
    | none => s
    | some p =>
      let s0 := s.issued p
      match s0.bufRef p (s0.partNo i.core) i.stm buf with
      | none => s0.refFault p scIllegal i.stm
      | some b =>
        if s0.missing p b then s0.missBranch p b i.stm target.toNat
        else if n.toNat ≤ s0.tok p b then s0.advance p i.stm
        else if dl = 0 then s0.deadlineBranch p b i.stm target.toNat
        else
          s0.beginWait p (.deadline b n.toNat (s0.now + dl.setWidth 64) target.toNat) i.stm)

/-- DLBR_TOKEN_REACHED (R140, R205): the count has reached N; it stays as it is. -/
def execDlbrTokenReached (core : Nat) (s : State) : Host.Outcome State Fault Refusal :=
  .next (match s.waiting core with
    | none => s
    | some p =>
      match (s.core p).wait with
      | .deadline b n _ _ =>
        if n ≤ s.tok p b then (s.endWait p).advance p (s.core p).waitStm else s
      | _ => s)

/-- DLBR_DEADLINE_EXPIRY (R140, R205). The command is the passing of the deadline (log entry 4). When
the count has reached N in that cycle, the core continues in line. -/
def execDlbrDeadlineExpiry (core : Nat) (s : State) : Host.Outcome State Fault Refusal :=
  .next (match s.waiting core with
    | none => s
    | some p =>
      match (s.core p).wait with
      | .deadline b n _ target =>
        let stm := (s.core p).waitStm
        if n ≤ s.tok p b then (s.endWait p).advance p stm
        else (s.endWait p).deadlineBranch p b stm target
      | _ => s)

/-- HALT (R147): the core is DONE. -/
def execHalt (i : Issue) (s : State) : Host.Outcome State Fault Refusal :=
  .next (match s.issuing i.core (.halt i) with
    | none => s
    | some p => (s.issued p).modCore p (fun c => { c with st := .done }))

/-- ITINERARY_DONE (R147, R151): every used core has halted and its operations are complete; the
partition enters LOADED and START completes with OK and PART_RP. -/
def execItineraryDone (part : Nat) (s : State) : Host.Outcome State Fault Refusal :=
  .next (
    let q := s.part part
    if s.clocked ∧ q.st = .running ∧ q.switching = none ∧ s.allDone part then s.itineraryDone part else s)

/-- REGWR (R141). An offset outside R141's list is refused at load; at issue it is a reference fault. -/
def execRegwr (i : Issue) (offset : BitVec 16) (xi : BitVec 4) (imm : Word) (s : State) :
    Host.Outcome State Fault Refusal :=
  .next (match s.issuing i.core (.regwr i offset xi imm) with
    | none => s
    | some p =>
      let s0 := s.issued p
      if regwrOk offset.toNat then
        (s0.modCore p (fun c => c.regWrite offset.toNat (imm + c.x xi.toNat))).advance p i.stm
      else s0.refFault p scIllegal i.stm)

end Sys2Proof.Machine
end

