-- ==== Sys2Proof/Machine/ArrayOps.lean ====
section
/-!
DEFINITION. Array issues: FORWARD, DX, DW, IMAGE_ADD and INTERLEAVED (R58 to R64, R94 to R101, R478).
-/

namespace Sys2Proof.Machine

/-- An operand of an array issue: its waybill, its elements after R43 in row-major order of the piece, and
whether one was flushed. -/
structure Operand where
  w : Waybill
  els : List FVal
  flushed : Bool
  deriving DecidableEq, Repr

/-- K length of an operand (R478). -/
def Waybill.klen (w : Waybill) : Nat := w.ext w.kaxis

/-- K offset (R62, R135). -/
def Waybill.koff (w : Waybill) : Nat := w.originAt w.kaxis

/-- Whole K extent (R135). -/
def Waybill.kwhole (w : Waybill) : Nat := w.wholeAt w.kaxis

/-- Rows of A, columns of B: the product of the extents along the other dimensions (R478). -/
def Waybill.lanes (w : Waybill) : Nat :=
  match w.kaxis with
  | 0 => w.ext 1 * w.ext 2
  | 1 => w.ext 0 * w.ext 2
  | _ => w.ext 0 * w.ext 1

/-- The place of element k of lane r in row-major order of the piece (R478). -/
def Waybill.kIndex (w : Waybill) (r k : Nat) : Nat :=
  match w.kaxis with
  | 0 => k * (w.ext 1 * w.ext 2) + r
  | 1 => (r / w.ext 2 * w.ext 1 + k) * w.ext 2 + r % w.ext 2
  | _ => r * w.ext 2 + k

/-- Element k of lane r. -/
def Operand.at_ (o : Operand) (r k : Nat) : FVal := o.els.getD (o.w.kIndex r k) (.fin false 0 0)

/-- Is the piece in the core's stall (R95)? -/
def Waybill.inStall (w : Waybill) : Bool := w.rows.all (fun e => tierOf e.1 == .stall)

/-- The K rules of R62 to R64. -/
def kRules (a b : Waybill) : Bool :=
  a.koff == b.koff && a.kwhole == b.kwhole && a.klen == b.klen
    && a.koff % chunkLen a.fmt == 0
    && ((a.koff + a.klen) % chunkLen a.fmt == 0 || a.koff + a.klen == a.kwhole)

/-- The extents of an operand read transposed (R97); the last chunk of a whole K extent may be short. -/
def transposedOk (w : Waybill) : Bool :=
  ([1, 2] : List Nat).all (fun d => w.ext d % fmtGroup w.fmt == 0
    || (d == w.kaxis && w.koff + w.klen == w.kwhole))

/-- Read an array operand (R43, R95): none when the core has faulted. -/
def State.readOperand (s : State) (p q : Nat) (stm : BitVec 3) (w : Waybill) : State × Option Operand :=
  let r := s.readPiece p q stm w
  match r.2 with
  | none => (r.1, none)
  | some els =>
    let vs := els.map (flushIn w.fmt (s.core p).conv.flush)
    let fl := vs.any Prod.snd
    (r.1.modCore p (fun c => c.modRec w.trec (fun x => { x with flushed := x.flushed || fl })),
     some { w := w, els := vs.map Prod.fst, flushed := fl })

/-- The pairs of chunk `c` of output (m, n) (R58, R61). -/
def chunkPairs (a b : Operand) (m n c : Nat) : List (FVal × FVal) :=
  let lc := chunkLen a.w.fmt
  (List.range (min lc (a.w.klen - c * lc))).map (fun k => (a.at_ m (c * lc + k), b.at_ n (c * lc + k)))

/-- Chunks of an issue. -/
def Waybill.chunks (w : Waybill) : Nat := (w.klen + chunkLen w.fmt - 1) / chunkLen w.fmt

/-- Add chunk `c` of an issue to its M × N entries (R58, R71). -/
def LedgRun.addTile (r : LedgRun) (a b : Operand) (lrow m n c : Nat) : LedgRun :=
  ((List.range m).flatMap (fun i => (List.range n).map (fun j => (i, j)))).foldl
    (fun t e => t.addChunk (ledgIdx lrow e.1 e.2) (chunkValue a.w.fmt (chunkPairs a b e.1 e.2 c))) r

/-- Set Z on the entries of a tile (R74). -/
def LedgRun.fresh (r : LedgRun) (lrow m n : Nat) : LedgRun :=
  (tileIdx lrow m n).foldl (fun t i => t.zero i) r

/-- The MAC tally of a format. -/
def macTally (fmt : Nat) : Nat :=
  if fmt ≤ 2 then tlMAC16 else if fmt ≤ 4 then tlMAC8 else if fmt ≤ 6 then tlMAC6 else tlMAC4

/-- The tallies of an issue (R436): `mode` is tlFWD, tlDX or tlDW. -/
def State.tallyIssue (s : State) (p : Nat) (w : Waybill) (mode m n : Nat) : State :=
  let macs := chunkLen w.fmt * n * m * w.chunks
  s.talliesAdd p [(tlARRAY, m * w.chunks), (macTally w.fmt, macs), (mode, macs)]

/-- One tile of an array issue whose waybills are read: the issue's lrow, M, N, ACC and PMODE. -/
structure Tile where
  pmode : Nat
  lrow : Nat
  m : Nat
  n : Nat
  acc : Bool
  deriving DecidableEq, Repr

/-- The tally of a tile's product mode. -/
def Tile.mode (t : Tile) : Nat := if t.pmode = 0 then tlFWD else if t.pmode = 1 then tlDX else tlDW

/-- The checks of R29, R95 and R478 on a tile's operands. -/
def Tile.shapeOk (t : Tile) (a b : Waybill) : Bool :=
  a.fmt == b.fmt && decide (1 ≤ a.fmt) && decide (a.fmt ≤ 7) && a.inStall && b.inStall
    && a.lanes == t.m && b.lanes == t.n && decide (t.lrow + t.m ≤ 64)

/-- The checks of R62 to R64 and R97. -/
def Tile.kOk (t : Tile) (a b : Waybill) : Bool :=
  kRules a b && (t.pmode != 1 || transposedOk b) && (t.pmode != 2 || transposedOk a)

/-- Read and check the operands of a tile; none when the core has faulted. -/
def State.tileOperands (s : State) (p q : Nat) (stm : BitVec 3) (t : Tile) (ra rb : BitVec 14) :
    State × Option (Operand × Operand) :=
  let r1 := s.readWb p q stm ra false
  match r1.2 with
  | none => (r1.1, none)
  | some a =>
    let r2 := r1.1.readWb p q stm rb false
    match r2.2 with
    | none => (r2.1, none)
    | some b =>
      if !t.shapeOk a b then (r2.1.refFault p scIllegal stm [a.tag, b.tag], none)
      else if !t.kOk a b then (r2.1.chunkFault p stm [a.tag, b.tag], none)
      else
        let r3 := r2.1.readOperand p q stm a
        match r3.2 with
        | none => (r3.1, none)
        | some oa =>
          let r4 := r3.1.readOperand p q stm b
          match r4.2 with
          | none => (r4.1, none)
          | some ob => (r4.1, some (oa, ob))

/-- The trace record of an array issue (Table 15.4). -/
def State.traceArray (s : State) (p : Nat) (stm : BitVec 3) (t : Tile) (w : Waybill) (chunks : Nat) : State :=
  s.traceAt p 2 w.tag stm
    (w64 (t.pmode + 8 * w.fmt + 128 * t.lrow + 2 ^ 13 * (t.m - 1) + 2 ^ 19 * (t.n - 1))) (w64 chunks)

/-- The first chunk comparison of an issue sees an armed injection (R86, R92): the index at which the
issue stops. -/
def Core.injected (c : Core) (lrow : Nat) : Option Nat :=
  if c.lreg.injChunk then some (ledgIdx lrow 0 0) else none

/-- Consume an armed chunk injection. -/
def State.takeChunkInj (s : State) (p : Nat) : State :=
  s.modCore p (fun c => { c with lreg := { c.lreg with injChunk := false } })

/-- Add the chunks of one tile after another, or of two tiles alternating (R58, R100). -/
def LedgRun.addOrder (r : LedgRun) (l : List (Tile × Operand × Operand × Nat)) : LedgRun :=
  l.foldl (fun t e => t.addTile e.2.1 e.2.2.1 e.1.lrow e.1.m e.1.n e.2.2.2) r

/-- The chunks of a tile with their numbers. -/
def chunkJobs (t : Tile) (o : Operand × Operand) : List (Tile × Operand × Operand × Nat) :=
  (List.range o.1.w.chunks).map (fun c => (t, o.1, o.2, c))

/-- Chunks of two tiles in the order of R100. -/
def alternate {α : Type} : List α → List α → List α
  | [], ys => ys
  | x :: xs, ys => x :: (match ys with
    | [] => xs
    | y :: yt => y :: alternate xs yt)

/-- Run the chunk jobs of an issue on the ledger of a core and advance. `first` is the row at which the
first chunk comparison falls. -/
def State.runTiles (s : State) (p : Nat) (stm : BitVec 3) (tiles : List Tile)
    (jobs : List (Tile × Operand × Operand × Nat)) (first : Nat) : State :=
  s.whileBusy p true false (fun s =>
    let c := s.core p
    let r0 := tiles.foldl (fun r t => if t.acc then r else r.fresh t.lrow t.m t.n) c.ledgRun
    match c.injected first with
    | some i => ((s.takeChunkInj p).setLedger p r0).ledgFault p i lfChunk stm
    | none =>
      let e := s.endLedger p (r0.addOrder jobs) stm
      if e.2 then e.1.advance p stm else e.1)

/-- A FORWARD, DX or DW issue (R58 to R64, R94 to R97). -/
def State.arrayIssue (s : State) (p q : Nat) (stm : BitVec 3) (t : Tile) (ra rb : BitVec 14) : State :=
  let r := s.tileOperands p q stm t ra rb
  match r.2 with
  | none => r.1
  | some o =>
    let s1 := (r.1.traceArray p stm t o.1.w o.1.w.chunks).tallyIssue p o.1.w t.mode t.m t.n
    s1.runTiles p stm [t] (chunkJobs t o) t.lrow

/-- The image waybill of an M × N tile, or the destination of an image drawdown (R77, R478). -/
def imageShape (w : Waybill) (m n : Nat) : Bool :=
  w.fmt == fmtT72 && w.ext 2 == 8 * n && w.ext 0 * w.ext 1 == m

/-- An IMAGE_ADD issue (R77). -/
def State.imageIssue (s : State) (p q : Nat) (stm : BitVec 3) (t : Tile) (ra : BitVec 14) : State :=
  let r := s.readWb p q stm ra false
  match r.2 with
  | none => r.1
  | some w =>
    if !imageShape w t.m t.n ∨ 64 < t.lrow + t.m then r.1.refFault p scIllegal stm [w.tag]
    else
      let r2 := r.1.coreRead p q w.rows stm [w.tag]
      if !r2.2 then r2.1
      else
        let ims := (chunksOf 96 (s.pieceBytes p w) (t.m * t.n)).map parseImage
        let s1 := r2.1.traceArray p stm t w 0
        let s2 := s1.talliesAdd p [(tlARRAY, t.m * ((96 * t.n + 255) / 256)), (tlIMG, t.m * t.n)]
        s2.whileBusy p true false (fun s2 =>
          let c := s2.core p
          let r0 := if t.acc then c.ledgRun else c.ledgRun.fresh t.lrow t.m t.n
          let run := ((tileIdx t.lrow t.m t.n).zip ims).foldl (fun x e => x.addImage e.1 e.2) r0
          let e := s2.endLedger p run stm
          if e.2 then e.1.advance p stm else e.1)

/-- ARRAY (R58, R77, R94): PMODE 0 FORWARD, 1 DX, 2 DW, 3 IMAGE_ADD with B zero; the others are refused
at load and are a reference fault at issue. -/
def execArray (i : Issue) (a b : BitVec 14) (pmode : BitVec 3) (acc : Bool) (lrow m1 n1 : BitVec 6)
    (s : State) : Host.Outcome State Fault Refusal :=
  .next (match s.issuing i.core (.array i a b pmode acc lrow m1 n1) with
    | none => s
    | some p =>
      let s0 := s.issued p
      let q := s0.partNo i.core
      let t : Tile := { pmode := pmode.toNat, lrow := lrow.toNat, m := m1.toNat + 1, n := n1.toNat + 1,
                        acc := acc }
      if pmode.toNat < 3 then s0.arrayIssue p q i.stm t a b
      else if pmode = 3 ∧ b = 0 then s0.imageIssue p q i.stm t a
      else s0.refFault p scIllegal i.stm)

/-- ARRAYI (R99 to R101): a DX tile on rows 0 to 31 and a DW tile on rows 32 to 63, their chunks in
turn. R29's rule of equal formats is applied to the two operands of each tile (log entry 63). -/
def execArrayi (i : Issue) (dxA dxB dwA dwB : BitVec 14) (dxAcc dwAcc : Bool) (dxM1 dwM1 : BitVec 5)
    (dxN1 dwN1 : BitVec 6) (s : State) : Host.Outcome State Fault Refusal :=
  .next (match s.issuing i.core (.arrayi i dxA dxB dwA dwB dxAcc dwAcc dxM1 dwM1 dxN1 dwN1) with
    | none => s
    | some p =>
      let s0 := s.issued p
      let q := s0.partNo i.core
      let tx : Tile := { pmode := 1, lrow := 0, m := dxM1.toNat + 1, n := dxN1.toNat + 1, acc := dxAcc }
      let tw : Tile := { pmode := 2, lrow := 32, m := dwM1.toNat + 1, n := dwN1.toNat + 1, acc := dwAcc }
      let rx := s0.tileOperands p q i.stm tx dxA dxB
      match rx.2 with
      | none => rx.1
      | some ox =>
        let rw := rx.1.tileOperands p q i.stm tw dwA dwB
        match rw.2 with
        | none => rw.1
        | some ow =>
          let s1 := (rw.1.traceArray p i.stm tx ox.1.w ox.1.w.chunks).traceArray p i.stm tw ow.1.w
            ow.1.w.chunks
          let s2 := (s1.tallyIssue p ox.1.w tlDX tx.m tx.n).tallyIssue p ow.1.w tlDW tw.m tw.n
          s2.runTiles p i.stm [tx, tw] (alternate (chunkJobs tx ox) (chunkJobs tw ow)) 0)

end Sys2Proof.Machine
end

