-- ==== Sys2Proof/Machine/Flags.lean ====
section
/-!
DEFINITION. The sticky flags and maxima that conversions leave: tensor records (R43 to R47) and
LEDG_STAT.T72_INEXACT (R82, R105).
-/

namespace Sys2Proof.Machine

/-- CONV_AMAX after an element of value x (R45). -/
def amaxAfter (amax : Word) (x : FVal) : Word :=
  match amaxOf x with
  | none => amax
  | some a => if amax.toNat < a then w32 a else amax

/-- A destination's record after an element of value x is written with outcome `o` (R45, R46). -/
def TensorRec.written (r : TensorRec) (x : FVal) (o : ConvOut) : TensorRec :=
  { amax := amaxAfter r.amax x, flushed := r.flushed || o.flushed, overflow := r.overflow || o.overflow,
    nonfinite := r.nonfinite || o.nonfinite }

/-- A destination's record after the elements of an instruction (R47: the order does not matter). -/
def TensorRec.writtenAll (r : TensorRec) (l : List (FVal × ConvOut)) : TensorRec :=
  l.foldl (fun t e => t.written e.1 e.2) r

/-- A source's record after its elements were read (R43, R46). -/
def TensorRec.readFrom (r : TensorRec) (flushed : Bool) : TensorRec := { r with flushed := r.flushed || flushed }

/-- Does a conversion into T72 round: is y = x ÷ s not an integer (R82)? -/
def t72Rounds (s : Dy) (x : FVal) : Bool :=
  match x with
  | .fin _ m e => let f := (Dy.mk m e).fracDiv s; f.1 % f.2 != 0
  | _ => false

end Sys2Proof.Machine
end

