-- ==== Sys2Proof/Machine/Draw.lean ====
section
/-!
DEFINITION. Drawdowns and conversions (R37 to R53, R74 to R82, R87, R88, R104 to R106, R478).
-/

namespace Sys2Proof.Machine

/-- The rounding controls of a DRAW or CONV with the core's defaults (R39, R51). -/
structure Rounding where
  rmode : Nat
  srb : Nat
  conv : ConvCtl
  deriving DecidableEq, Repr

/-- The mode for element i of tensor `id`. -/
def Rounding.mode (r : Rounding) (id : Word) (i : Nat) : RMode :=
  modeOf r.rmode r.srb r.conv.rmodeDef.toNat r.conv.srbitsDef.toNat r.conv.seed.toNat r.conv.step.toNat
    id.toNat i

/-- Is the mode stochastic? -/
def Rounding.isSr (r : Rounding) : Bool :=
  r.rmode == 5 || (r.rmode == 7 && decide (r.conv.rmodeDef = 5))

/-- The encodings that LOAD_ITINERARY refuses (R39). -/
def rmodeOk (rmode srb : Nat) : Bool := rmode != 6 && !(rmode == 5 && srb == 3)

/-- Read and check a scale word (R37): none when the core has faulted. -/
def State.scaleOf (s : State) (p q : Nat) (stm : BitVec 3) (w : Waybill) : State × Option Dy :=
  let r := s.readScale p q stm w
  match r.2 with
  | none => (r.1, none)
  | some v =>
    if scaleOk (w.fmt == fmtT72) v then (r.1, some (scaleDy v))
    else (r.1.coreFault p scIllegal 0 false stm [] [w.tag], none)

/-- The exact value of a drawdown of a resolved entry (R78 to R80). -/
def LedgerEntry.drawValue (e : LedgerEntry) (sa sb : Dy) : FVal :=
  if e.z then .fin false 0 0
  else if e.side.getLsbD 0 || (e.side.getLsbD 1 && e.side.getLsbD 2) then .nan
  else if e.side.getLsbD 1 then .inf false
  else if e.side.getLsbD 2 then .inf true
  else
    let d := (Dy.mk e.l.toInt (-384)).mul (sa.mul sb)
    if d.m = 0 then .fin false 0 0 else .fin (decide (d.m < 0)) d.m.natAbs d.e

/-! Masked stores (R105, R212). -/

/-- Bits of an element as places in its row. -/
def elemBits (fmt j : Nat) : Nat × Nat := (fmtBits fmt * j, fmtBits fmt * j + fmtBits fmt - 1)

/-- Does element j of a row share bits with word w of it? -/
def elemInWord (fmt w j : Nat) : Bool :=
  decide ((elemBits fmt j).1 / 32 ≤ w) && decide (w ≤ (elemBits fmt j).2 / 32)

/-- Write one word of a row of which only some elements are written: a read-modify-write; a word whose
read is uncorrectable is left, and true is answered. -/
def State.writePart (s : State) (p a : Nat) (word : List Byte) : State × Bool :=
  if s.markAt p a = 2 then (s.readWord1 p a, true)
  else
    let s1 := eachDo (wordBytes a word a) (fun e t => t.setByte p e.1 e.2) (s.readWord1 p a)
    ((s1.dropWb a).setMark p a 0, false)

/-- The words of a row that a masked store cannot write: those written in part only whose read is uncorrectable. No
element of such a word is written (R105), which may leave a further word written in part: `fuel` rounds. -/
def badWords (fmt : Nat) (uncorr : Nat → Bool) (words : List Nat) (keep : List Bool) : Nat → List Nat → List Nat
  | 0, bad => bad
  | k + 1, bad =>
    let live := keep.zipIdx.map (fun e => (e.1 && !bad.any (fun w => elemInWord fmt w e.2), e.2))
    let part := fun w =>
      let here := live.filter (fun e => elemInWord fmt w e.2)
      here.any (fun e => e.1) && here.any (fun e => !e.1)
    badWords fmt uncorr words keep k (words.filter (fun w => bad.contains w || (uncorr w && part w)))

/-- Store a row at `a`, of which the elements with `keep` true are written. `old` are the bytes there. An element
that shares a word whose read fails is not written, in that word or the next (R105). -/
def State.storeMasked (s : State) (p q fmt a : Nat) (els : List (Nat × Bool)) (old : List Byte) :
    State × Bool :=
  let n := rowLen fmt els.length
  match s.failedChan a n with
  | some ch => (s.dropWrite ch (some q) a, false)
  | none =>
    if s.failedStack a n then (s, true)
    else
      let cur := rowElems fmt els.length old
      let words := List.range (n / 4)
      let bad := badWords fmt (fun w => decide (s.markAt p (a + 4 * w) = 2)) words (els.map Prod.snd) words.length []
      let live := els.zipIdx.map (fun e => (e.1.1, e.1.2 && !bad.any (fun w => elemInWord fmt w e.2)))
      let bs := packRow fmt ((live.zip cur).map (fun e => if e.1.2 then e.1.1 else e.2))
      words.foldl
        (fun acc w =>
          let here := (live.zipIdx.filter (fun e => elemInWord fmt w e.2)).map (fun e => e.1.2)
          if bad.contains w then ((acc.1.readWord1 p (a + 4 * w)), true)
          else if here.all (fun b => !b) then acc
          else
            let word := (bs.drop (4 * w)).take 4
            let r := if here.all (fun b => b) then acc.1.writeWord p (a + 4 * w) word (a + 4 * w)
              else acc.1.writePart p (a + 4 * w) word
            (r.1, acc.2 || r.2))
        (s, false)

/-! Drawdown. -/

/-- What a drawdown works with. `mask` is the write mask it has latched (R106). -/
structure DrawJob where
  lrow : Nat
  m : Nat
  n : Nat
  keep : Bool
  dst : Waybill
  rnd : Rounding
  mask : Option WMask
  sa : Dy
  sb : Dy
  sd : Dy
  deriving DecidableEq, Repr

/-- Is the element of output (m, n) written (R104)? -/
def DrawJob.writes (j : DrawJob) (m n : Nat) : Bool :=
  match j.mask with
  | none => true
  | some k => bitAt (k.rowsLo.toNat + 2 ^ 32 * k.rowsHi.toNat) m && bitAt (k.colsLo.toNat + 2 ^ 32 * k.colsHi.toNat) n

/-- Row m of the destination: its address (R478). -/
def DrawJob.rowAddr (j : DrawJob) (m : Nat) : Nat :=
  j.dst.base + m / j.dst.ext 1 * j.dst.stride0 + m % j.dst.ext 1 * j.dst.stride1

/-- The entries of ledger row m, resolved and checked (R78, R87), and the run after Z is set (R74). -/
def LedgRun.readRow (r : LedgRun) (lrow m n : Nat) (keep : Bool) : LedgRun × List LedgerEntry :=
  let idx := (List.range n).map (ledgIdx lrow m)
  let acc := idx.foldl
    (fun (a : LedgRun × List LedgerEntry) i =>
      match a.1.stop with
      | some _ => a
      | none =>
        let r1 := a.1.touch i (List.range 24)
        match r1.stop with
        | some _ => (r1, a.2)
        | none =>
          match (r1.get i).resolve with
          | .ok e => (r1, a.2 ++ [e])
          | x => (r1.take i x false, a.2))
    (r, [])
  (if keep then acc.1 else idx.foldl (fun t i => t.zero i) acc.1, acc.2)

/-- The conversion of output (m, n): its exact value and the result (R78). -/
def DrawJob.convert (j : DrawJob) (flush : Byte) (m n : Nat) (e : LedgerEntry) : FVal × ConvOut :=
  let x := e.drawValue j.sa j.sb
  let i := j.dst.gindex (m / j.dst.ext 1) (m % j.dst.ext 1) n
  (x, convertTo j.dst.fmt flush (j.rnd.mode j.dst.tensorId i) j.sd x)

/-- Store a drawn row, masked or not; true when a store failed (R105, R212). -/
def State.storeRow (s : State) (p q : Nat) (j : DrawJob) (m : Nat) (outs : List (FVal × ConvOut)) :
    State × Bool :=
  let a := j.rowAddr m
  match j.mask with
  | none => s.stores p (some q) [(a, packRow j.dst.fmt (outs.map (fun o => o.2.pat)))]
  | some _ =>
    s.storeMasked p q j.dst.fmt a (outs.zipIdx.map (fun e => (e.1.2.pat, j.writes m e.2)))
      (s.bytesAt p a (rowLen j.dst.fmt j.n))

/-- The records and flags of a drawn row: written elements only (R45, R46, R82, R105). -/
def State.drawFlags (s : State) (p : Nat) (j : DrawJob) (m : Nat) (outs : List (FVal × ConvOut)) : State :=
  let wr := (outs.zipIdx.filter (fun e => j.writes m e.2)).map Prod.fst
  let inexact := j.dst.fmt == fmtT72 && wr.any (fun o => t72Rounds j.sd o.1)
  s.modCore p (fun c => { (c.modRec j.dst.trec (fun r => r.writtenAll wr)) with
    lreg := { c.lreg with t72Inexact := c.lreg.t72Inexact || inexact } })

/-- Rows that a drawdown has read when the check of a row fails (R81, R88): it and those read in the 18
cycles after. A row of images takes 24 cycles (R77). -/
def rowsRead (fmt : Nat) (image : Bool) : Nat :=
  18 / (if image then 24 else (64 * fmtBits fmt + 2047) / 2048) + 1

/-- The next drawdown row sees an armed injection (R88, R92): nothing is written from that row on, and Z
is set on the rows read by then. The bank of LEDG_FAULT is a free value. -/
def State.drawInjected (s : State) (p : Nat) (stm : BitVec 3) (j : DrawJob) (m : Nat) (image : Bool) : State :=
  let rows := (List.range (min (rowsRead j.dst.fmt image) (j.m - m))).map (fun k => m + k)
  let idx := rows.flatMap (fun r => (List.range j.n).map (ledgIdx j.lrow r))
  let run := (s.core p).ledgRun
  let run1 := if j.keep then run else idx.foldl (fun t i => t.zero i) run
  let bank := s.freeVal.toNat % j.n
  ((s.useFree.modCore p (fun c => { c with lreg := { c.lreg with injDraw := false } })).setLedger p
    run1).ledgFault p (ledgIdx j.lrow m bank) lfDraw stm

/-- Draw row m down; true when the instruction goes on with the next row. -/
def State.drawRow (s : State) (p q : Nat) (stm : BitVec 3) (j : DrawJob) (m : Nat) : State × Bool :=
  let c := s.core p
  let s0 := s.talliesAdd p ((tlDRAW, j.n) :: (if j.rnd.isSr then [(tlSR, j.n)] else []))
  if c.lreg.injDraw then (s0.drawInjected p stm j m false, false)
  else
    let rr := c.ledgRun.readRow j.lrow m j.n j.keep
    let e := s0.endLedger p rr.1 stm
    if !e.2 then e
    else
      let outs := rr.2.zipIdx.map (fun x => j.convert c.conv.flush m x.2 x.1)
      let w := (e.1.drawFlags p j m outs).storeRow p q j m outs
      if w.2 then
        let t := s.uncorrTier p [(j.rowAddr m, rowLen j.dst.fmt j.n)]
        (w.1.coreFaultSeen p scUncorr (uncorrCode t) (decide (t = .stall)) stm [j.dst.tag], false)
      else (w.1, true)

/-- Draw the rows of a job in order until one fails. -/
def State.drawRows (s : State) (p q : Nat) (stm : BitVec 3) (j : DrawJob) : State × Bool :=
  (List.range j.m).foldl
    (fun acc m => if acc.2 then acc.1.drawRow p q stm j m else acc) (s, true)

/-- Draw one row into images (R76, R77). An injection for the next drawdown row (RES_INJECT, TARGET 2) takes such a
row too (log entry 60). -/
def State.imageRow (s : State) (p q : Nat) (stm : BitVec 3) (j : DrawJob) (m : Nat) : State × Bool :=
  let c := s.core p
  let s0 := s.talliesAdd p [(tlDRAW, j.n), (tlIMG, j.n)]
  if c.lreg.injDraw then (s0.drawInjected p stm j m true, false)
  else
    let rr := c.ledgRun.readRow j.lrow m j.n j.keep
    let e := s0.endLedger p rr.1 stm
    if !e.2 then e
    else e.1.coreWrite p q [(j.rowAddr m, rr.2.flatMap LedgerEntry.image)] stm [j.dst.tag]

def State.imageRows (s : State) (p q : Nat) (stm : BitVec 3) (j : DrawJob) : State × Bool :=
  (List.range j.m).foldl
    (fun acc m => if acc.2 then acc.1.imageRow p q stm j m else acc) (s, true)

/-- The trace record of a drawdown (Table 15.4). -/
def State.traceDraw (s : State) (p : Nat) (stm : BitVec 3) (j : DrawJob) (image : Bool) : State :=
  s.traceAt p 3 j.dst.tag stm
    (w64 (j.dst.fmt + 16 * j.rnd.rmode + 128 * b2n j.keep + 256 * b2n image)) (w64 j.m)

/-- A store by an instruction into depot buffers debits their toll balances (R144): none when one is
short. -/
def State.debitStore (s : State) (p : Nat) (segs : List (Nat × Nat)) : Option State :=
  s.debit p (s.depotDebits segs)

/-- Run a drawdown whose operands are read. -/
def State.runDraw (s : State) (p q : Nat) (stm : BitVec 3) (j : DrawJob) (image : Bool) : State :=
  match s.debitStore p j.dst.rows with
  | none => s.tollShort p stm [j.dst.tag]
  | some s1 =>
    (s1.traceDraw p stm j image).whileBusy p false true (fun s2 =>
      let r := if image then s2.imageRows p q stm j else s2.drawRows p q stm j
      if r.2 then r.1.advance p stm else r.1)

/-- The mask a WM field selects (R104). -/
def Core.maskOf (c : Core) (wm : Nat) : Option WMask :=
  if wm = 0 then none else some (tabGet {} c.wmask (wm - 1))

/-- An image drawdown (R76, R77, R137). -/
def State.drawImage (s : State) (p q : Nat) (stm : BitVec 3) (j : DrawJob) (dst : BitVec 14) : State :=
  let r := s.readWb p q stm dst true
  match r.2 with
  | none => r.1
  | some w =>
    if imageShape w j.m j.n then r.1.runDraw p q stm { j with dst := w } true
    else r.1.refFault p scIllegal stm [w.tag]

/-- A drawdown into a tensor (R78, R37): its three waybills, their scales, then its rows. -/
def State.drawTensor (s : State) (p q : Nat) (stm : BitVec 3) (j : DrawJob) (dst sa sb : BitVec 14) : State :=
  let r := s.readWb p q stm dst true
  match r.2 with
  | none => r.1
  | some w =>
    let ra := r.1.readWb p q stm sa false
    match ra.2 with
    | none => ra.1
    | some wa =>
      let rb := ra.1.readWb p q stm sb false
      match rb.2 with
      | none => rb.1
      | some wb =>
        if w.ext 2 ≠ j.n ∨ w.ext 0 * w.ext 1 ≠ j.m then rb.1.refFault p scIllegal stm [w.tag]
        else
          let x := rb.1.scaleOf p q stm wa
          match x.2 with
          | none => x.1
          | some da =>
            let y := x.1.scaleOf p q stm wb
            match y.2 with
            | none => y.1
            | some db =>
              let z := y.1.scaleOf p q stm w
              match z.2 with
              | none => z.1
              | some dd => z.1.runDraw p q stm { j with dst := w, sa := da, sb := db, sd := dd } false

/-- A waybill with nothing in it. -/
def noWaybill : Waybill :=
  { base := 0, scalePtr := 0, tensorId := 0, tag := 0, fmt := 0, kaxis := 0, trec := 0, whole := (1, 1, 1),
    origin := (0, 0, 0), piece := (0, 0, 0), stride0 := 0, stride1 := 0, zeros := true }

/-- DRAW (R74 to R82, R104 to R106). What LOAD_ITINERARY refuses is a reference fault at issue. -/
def execDraw (i : Issue) (lrow m1 n1 : BitVec 6) (dst : BitVec 14) (rmode : BitVec 3) (srbits : BitVec 2)
    (keep : Bool) (wm : BitVec 4) (image : Bool) (sa sb : BitVec 14) (s : State) :
    Host.Outcome State Fault Refusal :=
  .next (match s.issuing i.core (.draw i lrow m1 n1 dst rmode srbits keep wm image sa sb) with
    | none => s
    | some p => s.issueWrite p i.stm (fun s0 =>
      let q := s0.partNo i.core
      let c := s0.core p
      let j : DrawJob :=
        { lrow := lrow.toNat, m := m1.toNat + 1, n := n1.toNat + 1, keep := keep, dst := noWaybill,
          rnd := { rmode := rmode.toNat, srb := srbits.toNat, conv := c.conv },
          mask := c.maskOf wm.toNat, sa := ⟨1, 0⟩, sb := ⟨1, 0⟩, sd := ⟨1, 0⟩ }
      if 64 < j.lrow + j.m ∨ 8 < wm.toNat ∨ rmodeOk rmode.toNat srbits.toNat = false
          ∨ (image ∧ ¬(rmode = 0 ∧ srbits = 0 ∧ wm = 0 ∧ sa = 0 ∧ sb = 0)) then
        s0.refFault p scIllegal i.stm
      else if image then s0.drawImage p q i.stm j dst
      else s0.drawTensor p q i.stm j dst sa sb))

/-! CONV. -/

/-- A source element as an exact value before its scale, after R43, and whether it was flushed. -/
def sourceElem (fmt : Nat) (flush : Byte) (pat : Nat) : FVal × Bool :=
  if fmt = fmtT72 then
    let v := t72Int pat
    (.fin (decide (v < 0)) v.natAbs 0, false)
  else flushIn fmt flush pat

/-- A value times a scale (R38). -/
def FVal.scaled (x : FVal) (s : Dy) : FVal :=
  match x with
  | .fin neg m e => .fin neg (m * s.m.natAbs) (e + s.e)
  | y => y

/-- Convert the elements of a piece (R38 to R53). -/
def convAll (src dst : Waybill) (flush : Byte) (rnd : Rounding) (ss sd : Dy) (els : List Nat) :
    List (FVal × ConvOut) :=
  (els.zip dst.indices).map (fun e =>
    let x := (sourceElem src.fmt flush e.1).1.scaled ss
    (x, convertTo dst.fmt flush (rnd.mode dst.tensorId e.2) sd x))

/-- A conversion whose operands are read and whose scales are valid. -/
def State.runConv (s : State) (p q : Nat) (stm : BitVec 3) (src dst : Waybill) (rnd : Rounding) (clr : Bool)
    (ss sd : Dy) (els : List Nat) : State :=
  match s.debitStore p dst.rows with
  | none => s.tollShort p stm [dst.tag]
  | some s1 =>
    let flush := (s1.core p).conv.flush
    let outs := convAll src dst flush rnd ss sd els
    let fl := els.any (fun v => (sourceElem src.fmt flush v).2)
    let s2 := if clr then
        s1.modCore p (fun c => (c.modRec src.trec (fun _ => {})).modRec dst.trec (fun _ => {}))
      else s1
    let s3 := s2.modCore p (fun c =>
      (c.modRec src.trec (fun r => r.readFrom fl)).modRec dst.trec (fun r => r.writtenAll outs))
    let s4 := s3.talliesAdd p ((tlCONV, outs.length) :: (if rnd.isSr then [(tlSR, outs.length)] else []))
    let w := s4.coreWrite p q (dst.storeAll (outs.map (fun o => o.2.pat))) stm [dst.tag]
    if w.2 then w.1.advance p stm else w.1

/-- CONV (R37 to R48, R478). -/
def execConv (i : Issue) (src dst : BitVec 14) (rmode : BitVec 3) (srbits : BitVec 2) (clrrec : Bool)
    (s : State) : Host.Outcome State Fault Refusal :=
  .next (match s.issuing i.core (.conv i src dst rmode srbits clrrec) with
    | none => s
    | some p => s.issueWrite p i.stm (fun s0 =>
      let q := s0.partNo i.core
      if rmodeOk rmode.toNat srbits.toNat = false then s0.refFault p scIllegal i.stm
      else
        let r := s0.readWb p q i.stm src false
        match r.2 with
        | none => r.1
        | some a =>
          let r2 := r.1.readWb p q i.stm dst true
          match r2.2 with
          | none => r2.1
          | some b =>
            if a.piece ≠ b.piece then r2.1.refFault p scIllegal i.stm [a.tag, b.tag]
            else
              let x := r2.1.scaleOf p q i.stm a
              match x.2 with
              | none => x.1
              | some ss =>
                let y := x.1.scaleOf p q i.stm b
                match y.2 with
                | none => y.1
                | some sd =>
                  let z := y.1.readPiece p q i.stm a
                  match z.2 with
                  | none => z.1
                  | some els =>
                    z.1.runConv p q i.stm a b
                      { rmode := rmode.toNat, srb := srbits.toNat, conv := (s0.core p).conv } clrrec ss sd
                      els))

end Sys2Proof.Machine
end

