-- ==== Sys2Proof/Machine/Image.lean ====
section
/-!
DEFINITION. Itinerary images: what LOAD_ITINERARY reads of them, the load checks of Table 5.3 and what a
load installs (R131 to R141, R154, R161, R478).
-/

namespace Sys2Proof.Machine

/-! Reading an image at internal address `a` (Tables 5.1, 5.2). -/

/-- `n` little-endian bytes at offset `off`. -/
def State.img (s : State) (a off n : Nat) : Nat := leNat (s.bytesAt 0 (a + off) n)

/-- Are `n` bytes at offset `off` zero? -/
def State.imgZero (s : State) (a off n : Nat) : Bool := (s.bytesAt 0 (a + off) n).all (· == 0)

def State.imgSize (s : State) (a : Nat) : Nat := s.img a 28 4
def State.imgFamily (s : State) (a : Nat) : DWord := w64 (s.img a 8 8)
def State.imgNcore (s : State) (a n : Nat) : Nat := s.img a (16 + n) 1

/-- The logical cores that the image uses (Table 5.1, NCORE). -/
def State.imgCores (s : State) (a : Nat) : List Nat :=
  (List.range 240).filter (fun l => decide (l % 20 < s.imgNcore a (l / 20)))

/-- A core directory entry. -/
structure ImgCore where
  insnOff : Nat
  insnCount : Nat
  wbCount : Nat
  wbOff : Nat
  sbufOff : Nat
  deriving DecidableEq, Repr

def State.imgCore (s : State) (a l : Nat) : ImgCore :=
  let o := 64 + 16 * l
  { insnOff := s.img a o 4, insnCount := s.img a (o + 4) 2, wbCount := s.img a (o + 6) 2,
    wbOff := s.img a (o + 8) 4, sbufOff := s.img a (o + 12) 4 }

def State.imgInsns (s : State) (a : Nat) (c : ImgCore) : List (BitVec 128) :=
  (List.range c.insnCount).map (fun i => BitVec.ofNat 128 (s.img a (c.insnOff + 16 * i) 16))

def State.imgWbs (s : State) (a : Nat) (c : ImgCore) : List Waybill :=
  (List.range c.wbCount).map (fun i => parseWaybill (s.bytesAt 0 (a + c.wbOff + 64 * i) 64))

/-- The stall buffer entries B0 to B63 as BASE, SIZE and whether the reserved bits are zero. -/
def State.imgSbufs (s : State) (a : Nat) (c : ImgCore) : List (Nat × Nat × Bool) :=
  (List.range 64).map (fun b =>
    let v := s.img a (c.sbufOff + 8 * b) 8
    (bits v 21 0, bits v 43 22, bits v 63 44 == 0))

/-- The depot buffer entries of a die as NUM, BASE, SIZE and whether the reserved bits are zero. -/
def State.imgDbufs (s : State) (a n : Nat) : List (Nat × Nat × Nat × Bool) :=
  let o := 3904 + 8 * n
  let off := s.img a o 4
  (List.range (s.img a (o + 4) 2)).map (fun i =>
    let v := s.img a (off + 8 * i) 8
    (bits v 7 0, bits v 32 8, bits v 57 33, bits v 63 58 == 0))

def State.imgResumeOff (s : State) (a : Nat) : Nat := s.img a 32 4

/-- The resume table's entries (Table 5.2). -/
def State.imgResume (s : State) (a : Nat) : List ResumeEntry :=
  let r := s.imgResumeOff a
  if r = 0 then []
  else (List.range (s.img a r 4)).map (fun e =>
    let o := r + 16 + 496 * e
    { mid := BitVec.ofNat 16 (s.img a o 2), pcs := (List.range 240).map (fun j => s.img a (o + 16 + 2 * j) 2) })

/-! Row 1: form (R131, R132, R161). -/

/-- The parts that the image names, as offset and length (R131). -/
def State.imgParts (s : State) (a : Nat) : List (Nat × Nat) :=
  (s.imgCores a).flatMap (fun l =>
    let c := s.imgCore a l
    [(c.insnOff, 16 * c.insnCount), (c.wbOff, 64 * c.wbCount), (c.sbufOff, 512)])
    ++ (List.range 12).map (fun n => (s.img a (3904 + 8 * n) 4, 8 * s.img a (3904 + 8 * n + 4) 2))
    ++ (if s.imgResumeOff a = 0 then []
        else [(s.imgResumeOff a, 16), (s.imgResumeOff a, 16 + 496 * s.img a (s.imgResumeOff a) 4)])

/-- The header and the directories. -/
def State.imgHeaderOk (s : State) (a : Nat) : Bool :=
  s.img a 0 4 == 0x4E495449 && s.img a 4 2 == 1 && s.imgZero a 6 2 && s.imgZero a 36 28
    && (List.range 12).all (fun n => decide (s.imgNcore a n ≤ 20))
    && (List.range 240).all (fun l =>
      let c := s.imgCore a l
      if l % 20 < s.imgNcore a (l / 20) then
        c.insnOff % 16 == 0 && decide (1 ≤ c.insnCount) && decide (c.insnCount ≤ 16384)
          && decide (c.wbCount ≤ 1024) && c.wbOff % 64 == 0
      else s.imgZero a (64 + 16 * l) 16)
    && (List.range 12).all (fun n =>
      decide (s.img a (3904 + 8 * n + 4) 2 ≤ 256) && s.imgZero a (3904 + 8 * n + 6) 2)

/-- Every named part lies within IMAGE_SIZE. A part of no bytes whose offset lies beyond IMAGE_SIZE is refused
(log entry 68). -/
def State.imgWithin (s : State) (a : Nat) : Bool :=
  decide (4000 ≤ s.imgSize a) && (s.imgParts a).all (fun p => decide (p.1 + p.2 ≤ s.imgSize a))

/-- The buffer entries: multiples of 256, within stall or depot, reserved bits zero. -/
def State.imgBufsOk (s : State) (a : Nat) : Bool :=
  (s.imgCores a).all (fun l => (s.imgSbufs a (s.imgCore a l)).all (fun b =>
      b.1 % 256 == 0 && b.2.1 % 256 == 0 && b.2.2 && decide (b.1 + b.2.1 ≤ 0x300000)))
    && (List.range 12).all (fun n => (s.imgDbufs a n).all (fun b =>
      b.2.1 % 256 == 0 && b.2.2.1 % 256 == 0 && decide (256 ≤ b.2.2.1)
        && decide (b.2.1 + b.2.2.1 ≤ 0x2000000) && b.2.2.2))

/-- The resume table (Table 5.2, R161). -/
def State.imgResumeOk (s : State) (a : Nat) : Bool :=
  let r := s.imgResumeOff a
  let es := s.imgResume a
  decide (r ≠ 0) && s.imgZero a (r + 4) 12
    && (List.range es.length).all (fun e => s.imgZero a (r + 16 + 496 * e + 2) 14)
    && (es.map (fun e => e.mid)).Nodup
    && es.all (fun e => (List.range 240).all (fun j =>
      if j % 20 < s.imgNcore a (j / 20) then decide (e.pcs.getD j 0 < (s.imgCore a j).insnCount)
      else e.pcs.getD j 0 == 0))

/-- What R161 asks of a variant for the partition. -/
def State.variantOk (s : State) (a q : Nat) : Bool :=
  let x := s.part q
  s.imgResumeOk a && s.imgFamily a == x.family && x.rpValid && x.rpVr
    && (s.imgResume a).any (fun e => e.mid == x.rpMid)

/-! Row 2: windows (R131, R135). -/

/-- Is a range inside one of the partition's windows, with the depot buffers that the image itself
defines? -/
def State.imgWindow (s : State) (a q : Nat) (r : Nat × Nat) : Bool :=
  match tierOf r.1 with
  | .depot =>
    let n := (r.1 - depotBase) / 0x2000000
    (s.imgDbufs a n).any (fun b =>
      inside r.1 r.2 (depotBase + n * 0x2000000 + b.2.1) b.2.2.1)
  | _ => s.admitted q true false r.1 r.2 || s.admitted q true true r.1 r.2

/-- The image lies in the partition's HBM windows, and every waybill's piece and scale word in a window. The piece of
a waybill of reserved FMT is measured too, before row 7 refuses it (log entry 62). -/
def State.imgWindowsOk (s : State) (a q : Nat) : Bool :=
  tierOf a == .hbm && s.admitted q false false a (s.imgSize a)
    && (s.imgCores a).all (fun l => (s.imgWbs a (s.imgCore a l)).all (fun w =>
      w.segs.all (s.imgWindow a q) && s.imgWindow a q (w.scalePtr, 4)))

/-! Rows 3 to 5: cores and buffers. -/

/-- Row 3: healthy cores, cores of the partition, dies of the depot buffers. -/
def State.imgCoresOk (s : State) (a q : Nat) : Bool :=
  (List.range 12).all (fun n => decide (s.imgNcore a n ≤ (s.die n).healthyCores.length))
    && (s.imgCores a).all (s.ownsCore q)
    && (List.range 12).all (fun n => (s.imgDbufs a n).isEmpty || s.ownsDie q n)

/-- Do two ranges share a byte? -/
def meet (a n b m : Nat) : Bool := decide (a < b + m) && decide (b < a + n) && decide (0 < n) && decide (0 < m)

/-- No two ranges of a list share a byte. -/
def apart : List (Nat × Nat) → Bool
  | [] => true
  | r :: t => t.all (fun x => !meet r.1 r.2 x.1 x.2) && apart t

/-- Row 4: overlaps, and buffer numbers of other partitions (Table 5.3). -/
def State.imgApart (s : State) (a q : Nat) : Bool :=
  (s.imgCores a).all (fun l =>
      let bs := (s.imgSbufs a (s.imgCore a l)).map (fun b => (b.1, b.2.1))
      apart bs && bs.all (fun b => !meet b.1 b.2 0x2F0000 0x10000))
    && (List.range 12).all (fun n =>
      let bs := s.imgDbufs a n
      let others := (s.die n).dbufs.filter (fun e => e.2.owner != q)
      apart (bs.map (fun b => (b.2.1, b.2.2.1))) && (bs.map (fun b => b.1)).Nodup
        && others.all (fun e => bs.all (fun b =>
          b.1 != e.1 && !meet b.2.1 b.2.2.1 e.2.base e.2.size)))

/-- Row 5: the depot quota, in units of 256 bytes (Table 14.8, QUOTA). -/
def State.imgQuota (s : State) (a q : Nat) : Bool :=
  let used := ((List.range 12).flatMap (fun n => (s.imgDbufs a n).map (fun b => b.2.2.1))).foldl (· + ·) 0
  match (s.part q).cfg with
  | some c => decide (used ≤ c.quotaDep.toNat * 256)
  | none => false

/-! Row 6: instructions (Table 5.5, R138 to R141). -/

/-- The listed fields of an opcode; none for an opcode that Table 5.5 does not have. -/
def opFields : Nat → Option (List (Nat × Nat))
  | 0x00 => some []
  | 0x01 => some [(111, 108), (95, 64), (63, 32)]
  | 0x02 => some [(111, 108), (107, 104), (103, 60), (59, 44), (43, 12)]
  | 0x03 => some []
  | 0x04 => some [(61, 48)]
  | 0x05 => some [(111, 106), (105, 103), (102, 102), (61, 48)]
  | 0x06 => some [(111, 108), (107, 64), (63, 63), (61, 48)]
  | 0x07 => some [(111, 98), (97, 90), (89, 66), (61, 48)]
  | 0x08 => some []
  | 0x09 => some [(111, 96), (95, 92), (31, 0)]
  | 0x10 => some [(111, 98), (97, 90), (89, 89)]
  | 0x11 => some [(111, 98), (97, 90)]
  | 0x12 => some [(111, 98)]
  | 0x13 => some [(111, 108), (107, 88), (87, 64)]
  | 0x14 => some []
  | 0x15 => some [(111, 96), (95, 95), (94, 94), (93, 93)]
  | 0x16 => some [(111, 104), (31, 0)]
  | 0x20 => some [(111, 98), (97, 84), (83, 70), (69, 69), (68, 68)]
  | 0x21 => some [(111, 98), (97, 78), (77, 46), (45, 2), (1, 0)]
  | 0x22 => some [(111, 98), (97, 82), (81, 62), (61, 38), (37, 31)]
  | 0x30 => some [(111, 98), (97, 84), (83, 81), (80, 80), (79, 74), (73, 68), (67, 62)]
  | 0x31 => some [(111, 98), (97, 84), (83, 70), (69, 56), (55, 55), (54, 54), (53, 49), (48, 44), (43, 38),
                  (37, 32)]
  | 0x32 => some [(111, 106), (105, 100), (99, 94), (93, 80), (79, 77), (76, 75), (74, 74), (73, 70),
                  (69, 69), (68, 55), (54, 41)]
  | 0x33 => some [(111, 98), (97, 84), (83, 81), (80, 79), (78, 78)]
  | 0x34 => some [(111, 104), (103, 90), (89, 76), (75, 62), (61, 48), (47, 47), (31, 0)]
  | 0x40 => some [(111, 80), (79, 66)]
  | 0x41 => some [(111, 96), (31, 0)]
  | _ => none

/-- The bits of a field. -/
def fieldMask (f : Nat × Nat) : Nat := 2 ^ (f.1 + 1) - 2 ^ f.2

/-- What an instruction's checks know of its image: the instructions of its core, the stall buffers that its
core's table defines, the depot buffers by die, and its core's waybills. -/
structure ImgEnv where
  count : Nat
  sbufs : List Nat
  dbufs : List (Nat × Nat)
  wbs : List Waybill
  deriving DecidableEq, Repr

/-- A BUFREF as written (R136, R138). -/
def ImgEnv.bufOk (e : ImgEnv) (v : Nat) : Bool :=
  if bitAt v 13 then !bitAt v 12 && e.dbufs.contains (bits v 11 8, bits v 7 0)
  else bits v 12 6 == 0 && e.sbufs.contains (bits v 5 0)

/-- The format of the waybill that a WBREF names as written, where it is in range. -/
def ImgEnv.fmt (e : ImgEnv) (v : Nat) : Option Nat := (e.wbs[bits v 9 0]?).map (fun w => w.fmt)

/-- An operand format that R29 admits. -/
def operandFmt : Option Nat → Bool
  | none => true
  | some f => f != 0 && f != 8

/-- R29 on two operands as written: of an ARRAY, or of each tile of an ARRAYI (log entry 63). -/
def ImgEnv.operandsOk (e : ImgEnv) (a b : Nat) : Bool :=
  let x := e.fmt a
  let y := e.fmt b
  operandFmt x && operandFmt y && (x.isNone || y.isNone || x == y)

/-- RMODE and SRBITS (R39). -/
def roundingOk (rmode srbits : Nat) : Bool := rmode != 6 && !(srbits == 3 && rmode == 5)

/-- A TOLLREQ's target (R138, Table 5.7). -/
def ImgEnv.tollOk (e : ImgEnv) (cls target : Nat) : Bool :=
  match cls with
  | 0 => bits target 19 14 == 0 && bitAt target 13 && e.bufOk (bits target 13 0)
  | 1 => decide (bits target 3 0 ≤ 11) && bits target 19 4 == 0
  | 2 => decide (bits target 3 0 ≤ 11) && bits target 19 4 == 0
  | 3 => true
  | _ => false

/-- The vector operations of Table 5.6. -/
def vopOk (v : Nat) : Bool := (decide (1 ≤ v) && decide (v ≤ 0x0C)) || (decide (0x10 ≤ v) && decide (v ≤ 0x16))

/-- The checks of an opcode's fields; `f hi lo` reads a field. -/
def ImgEnv.opOk (e : ImgEnv) (op : Nat) (f : Nat → Nat → Nat) : Bool :=
  let target := decide (f 61 48 < e.count)
  match op with
  | 0x04 => target
  | 0x05 => target
  | 0x06 => target
  | 0x07 => target && e.bufOk (f 111 98)
  | 0x09 => regwrOk (f 111 96)
  | 0x10 => e.bufOk (f 111 98)
  | 0x11 => e.bufOk (f 111 98)
  | 0x12 => bitAt (f 111 98) 13 && e.bufOk (f 111 98)
  | 0x13 => e.tollOk (f 111 108) (f 107 88)
  | 0x15 => f 93 93 == 0 || f 94 94 == 1
  | 0x20 => f 69 69 == 0 || e.bufOk (f 83 70)
  | 0x30 =>
    decide (f 79 74 + f 73 68 + 1 ≤ 64) && decide (f 83 81 ≤ 3)
      && (if f 83 81 = 3 then f 97 84 == 0 else e.operandsOk (f 111 98) (f 97 84))
  | 0x31 => e.operandsOk (f 111 98) (f 97 84) && e.operandsOk (f 83 70) (f 69 56)
  | 0x32 =>
    decide (f 111 106 + f 105 100 + 1 ≤ 64) && decide (f 73 70 ≤ 8) && roundingOk (f 79 77) (f 76 75)
      && (f 69 69 == 0
        || (f 79 77 == 0 && f 76 75 == 0 && f 73 70 == 0 && f 68 55 == 0 && f 54 41 == 0))
  | 0x33 => roundingOk (f 83 81) (f 80 79)
  | 0x34 => vopOk (f 111 104)
  | 0x40 => e.bufOk (f 79 66)
  | _ => true

/-- An instruction (R136, R138): unlisted bits zero, then the opcode's own checks. -/
def ImgEnv.insnOk (e : ImgEnv) (w : BitVec 128) : Bool :=
  match opFields (opcodeOf w) with
  | none => false
  | some fs =>
    let mask := (fs.map fieldMask).foldl (· ||| ·) (fieldMask (127, 117))
    (w.toNat &&& mask) == w.toNat && e.opOk (opcodeOf w) (fun hi lo => bits w.toNat hi lo)

/-- Loops properly nested, at most four deep (R139). -/
def nested : List (BitVec 128) → Nat → Bool
  | [], d => d == 0
  | w :: ws, d =>
    if opcodeOf w = 1 ∨ opcodeOf w = 2 then decide (d < 4) && nested ws (d + 1)
    else if opcodeOf w = 3 then decide (0 < d) && nested ws (d - 1)
    else nested ws d

def State.imgEnv (s : State) (a : Nat) (c : ImgCore) : ImgEnv :=
  { count := c.insnCount,
    sbufs := ((s.imgSbufs a c).zipIdx.filter (fun b => decide (b.1.2.1 ≠ 0))).map Prod.snd,
    dbufs := (List.range 12).flatMap (fun n => (s.imgDbufs a n).map (fun b => (n, b.1))),
    wbs := s.imgWbs a c }

def State.imgInsnsOk (s : State) (a : Nat) : Bool :=
  (s.imgCores a).all (fun l =>
    let c := s.imgCore a l
    let e := s.imgEnv a c
    let is := s.imgInsns a c
    is.all e.insnOk && nested is 0)

/-! Rows 7 and 8: waybills and toll targets. -/

/-- The distinct toll targets that a core's TOLLREQs name (R144). -/
def tollTargets (is : List (BitVec 128)) : List Nat :=
  ((is.filter (fun w => decide (opcodeOf w = 0x13))).map (fun w => bits w.toNat 111 88)).eraseDups

/-- The status of the first row of Table 5.3 that fails, once the image can be read. -/
def State.loadStatus (s : State) (a q : Nat) (resume : Bool) : Nat :=
  if !(s.imgHeaderOk a && s.imgWithin a && s.imgBufsOk a && (!resume || s.variantOk a q)) then scIllegal
  else if !s.imgWindowsOk a q then scAccess
  else if !s.imgCoresOk a q then scIllegal
  else if !s.imgApart a q then scIllegal
  else if !s.imgQuota a q then scQuota
  else if !s.imgInsnsOk a then scIllegal
  else if !(s.imgCores a).all (fun l =>
      (s.imgWbs a (s.imgCore a l)).all (fun w => w.wellFormed)) then scIllegal
  else if (s.imgCores a).all (fun l =>
      decide ((tollTargets (s.imgInsns a (s.imgCore a l))).length ≤ 64)) then scOk
  else scIllegal

/-- The bytes of the image that a load reads. -/
def State.imgSegs (s : State) (a : Nat) : List (Nat × Nat) := [(a, max 4000 (s.imgSize a))]

/-- The status of a load, and the state after its read (R133): an address that is no memory of the HBM range
cannot be read at all; an uncorrectable word refuses the image. -/
def State.loadCheck (s : State) (a q : Nat) (resume : Bool) : State × Nat :=
  if tierOf a ≠ .hbm ∨ s.mapped a 4000 = false then (s, scAccess)
  else if s.uncorrIn 0 [(a, 4000)] then (s.touchRead 0 [(a, 4000)], scUncorr)
  else
    let segs := s.imgSegs a
    if s.mapped a (s.imgSize a) && s.uncorrIn 0 segs then (s.touchRead 0 segs, scUncorr)
    else ((if s.mapped a (s.imgSize a) then s.touchRead 0 segs else s), s.loadStatus a q resume)

/-! Installing (R133, R161). -/

/-- The rounding defaults that a load sets (R56). -/
def ConvCtl.loaded (c : ConvCtl) (cfg : PartCfg) : ConvCtl :=
  { c with flush := cfg.flush, rmodeDef := cfg.rmodeDef, srbitsDef := cfg.srbitsDef }

/-- A stall buffer table from an image. -/
def sbufTab (l : List (Nat × Nat × Bool)) : Tab StallBuf :=
  (l.zipIdx.filter (fun b => decide (b.1.2.1 ≠ 0))).map (fun b =>
    (b.2, { base := b.1.1, size := b.1.2.1 }))

/-- A core after its part of an image is loaded. -/
def Core.loaded (c : Core) (is : List (BitVec 128)) (nwb : Nat) (sb : Tab StallBuf) (cfg : PartCfg) : Core :=
  { c with
    st := .loaded, wait := .none, pc := 0, loops := [], insns := is, wbCount := nwb, sbufs := sb,
    tolls := [], ops := [], fence := none, faultPending := false, conv := c.conv.loaded cfg }

/-- A core that the new image does not use. -/
def Core.unloaded (c : Core) : Core :=
  { c with st := if c.st = .quarantined then .quarantined else .idle, wait := .none, pc := 0, loops := [],
           insns := [], wbCount := 0, sbufs := [], tolls := [], ops := [], fence := none,
           faultPending := false }

/-- Load logical core `l` from the image: instructions, buffer table, and the waybills at the top of stall. -/
def State.loadCore (s : State) (src : State) (a l : Nat) (cfg : PartCfg) : State :=
  match s.physOf l with
  | none => s
  | some p =>
    let c := src.imgCore a l
    let s1 := s.modCore p (fun x =>
      x.loaded (src.imgInsns a c) c.wbCount (sbufTab (src.imgSbufs a c)) cfg)
    (s1.writeWords p (stallBase + 0x2F0000) (src.bytesAt 0 (a + c.wbOff) (64 * c.wbCount))).1

/-- The depot buffers of an image on a die, with all their space free (R144). -/
def State.loadDepots (s : State) (src : State) (a q n : Nat) : State :=
  s.modDie n (fun d => { d with dbufs := (src.imgDbufs a n).foldl (fun t b =>
    tabSet t b.1 { owner := q, base := b.2.1, size := b.2.2.1, free := b.2.2.1 / 256 }) d.dbufs })

/-- Install an image: the old image's depot buffers are cleared first, then the cores and the tables. -/
def State.install (s : State) (a q : Nat) (cfg : PartCfg) : State :=
  let s1 := s.dropDepots q
  let s2 := eachDo (s1.physOfPart q) (fun p t => t.modCore p Core.unloaded) s1
  let s3 := eachDo (s.imgCores a) (fun l t => t.loadCore s a l cfg) s2
  let s4 := eachDo (List.range 12) (fun n t => t.loadDepots s a q n) s3
  (s4.modPart q (fun x => { x with
    family := s.imgFamily a, ncore := (List.range 12).map (s.imgNcore a), resumeTab := s.imgResume a,
    imageDigest := Config.sha384 (s.bytesAt 0 a (s.imgSize a)) }))

/-- Rebuild CORE_MAP of CDn as at boot (R156, R161). What a logical number's physical core holds moves with
the number. -/
def State.rebuildMap (s : State) (n : Nat) : State :=
  let d := s.die n
  let new := d.bootMap
  let moves := (List.range 20).filterMap (fun j =>
    match d.coreMap.getD j none, new.getD j none with
    | some a, some b => if a = b then none else some (a, b)
    | _, _ => none)
  let s1 := s.modDie n (fun d => { d with coreMap := new })
  let s2 := eachDo moves (fun m t => t.setCore (22 * n + m.2) (s.core (22 * n + m.1))) s1
  eachDo (moves.filter (fun m => !new.contains (some m.1)))
    (fun m t => t.modCore (22 * n + m.1) Core.unloaded) s2

/-- A core of a variant starts at its PC of the resume entry, with registers at their reset values but
SR_SEED and SR_STEP (R161), and but CONV_CTL, which every load sets (R56, log entry 50). -/
def Core.atResume (c : Core) (pc : Nat) : Core :=
  { c with
    pc := pc, xreg := [], streams := [], recs := [], wmask := [], faultStatus := 0, faultCode := 0, faultPc := 0,
    faultStm := 0, cvOvf := false, cvSat := 0, cvLastTag := 0, cvLastStatus := 0,
    lreg := { injChunk := c.lreg.injChunk, injDraw := c.lreg.injDraw } }

/-- Install a variant (R161): CORE_MAP, the image, the PCs; REASON is cleared. The cores' snapshots are taken
anew, so that a recovery to the replay point starts the variant. -/
def State.installVariant (s : State) (a q : Nat) (cfg : PartCfg) : State :=
  let pcs := match (s.imgResume a).find? (fun e => e.mid == (s.part q).rpMid) with
    | some e => e.pcs
    | none => []
  let s1 := eachDo ((List.range 12).filter (s.ownsDie q)) (fun n t => t.rebuildMap n) s
  let s2 := s1.install a q cfg
  let s3 := eachDo (s.imgCores a) (fun l t =>
    match t.physOf l with
    | none => t
    | some p =>
      let t1 := t.modCore p (fun c => c.atResume (pcs.getD l 0))
      t1.modPart q (fun x => { x with
        snapshots := tabSet x.snapshots l (t1.core p).snapshot })) s2
  s3.modPart q (fun x =>
    let kept := x.snapshots.filter (fun e => (s.imgCores a).contains e.1)
    { x with reason := 0, heldCores := [], snapshots := kept })

/-- LOAD_ITINERARY on partition `q` (R133, R161): the state and the status. -/
def State.load (s : State) (a q : Nat) (resume : Bool) : State × Nat :=
  let r := s.loadCheck a q resume
  match (s.part q).cfg with
  | none => (s, scIllegal)
  | some cfg =>
    if r.2 ≠ scOk then (r.1.logPart q 0x1020 r.2 none, r.2)
    else if resume then (r.1.installVariant a q cfg, scOk)
    else
      (((r.1.install a q cfg).modPart q (fun x => { x with snapshots := [], pendSnaps := [] })).setPartSt q .loaded
        0 0, scOk)

end Sys2Proof.Machine
end

