-- ==== Sys2Proof/Machine/PorterOps.lean ====
section
/-!
DEFINITION. Queue-pair operations through a page (R253, Table 9.2) and the end of a context fetch (R268,
R269), for which such an operation may wait.
-/

namespace Sys2Proof.Machine

/-- An operation ends: its status in PQ_RESULT, code 0x2109 when it failed (R253). -/
def State.pageEnd (s : State) (m part q status : Nat) : State :=
  let s1 := s.modPage m part (fun x => { x with busy := false, busyOp := 0, status := st8 status })
  if status = scOk then s1
  else
    s1.logAt (.die (12 + m)) 0x2109 status (some part) []
      ((s1.qp q).words8 ++ [w32 (s1.porter m).used])

/-- Does an operation find the queue pair in a state of Table 9.2? -/
def Qp.allows (x : Qp) (op : Nat) : Bool :=
  if op = 1 then decide (x.st = .free)
  else if op = 2 ∨ op = 3 then decide (x.st ≠ .free)
  else if op = 4 then decide (x.st ≠ .free) && x.pinned
  else if op = 5 then decide (x.st = .error)
  else true

/-- CREATE's own checks (Table 9.2): the status. -/
def State.createCheck (s : State) (m part q : Nat) : Nat :=
  let x := s.page m part
  let ownerOk := match (s.part part).cfg with
    | some c => x.owner == c.owner || (!c.sealed && x.owner == 31)
    | none => false
  if x.prio.toNat < 4 ∨ 6 < x.prio.toNat ∨ x.mtu = 3 ∨ x.retryLimit.toNat < 7 ∨ x.rxwin = 0
      ∨ 4096 < x.rxwin.toNat ∨ (x.peer.toNat = s.coord ∧ x.peerQp.toNat = q)
      ∨ s.linkSlot part x.keyslot.toNat = false ∨ ownerOk = false then scIllegal
  else if s.contextPlaced part q then scOk
  else scAccess

/-- TXSEQ of a context that is created (Table 9.2): kept from the pool, or 0 for a context never used. -/
def State.poolTxseq (s : State) (part q : Nat) : BitVec 56 :=
  if (s.qp q).known then BitVec.ofNat 56 (leNat (s.bytesAt 0 (s.contextAddr part q + 12) 7)) else 0

/-- The context that CREATE makes of staging (Table 9.2). -/
def PqPage.create (x : PqPage) (part : Nat) (txseq : BitVec 56) (now : DWord) : Qp :=
  { st := .active, prio := x.prio, mtu := x.mtu, owner := x.owner, part := BitVec.ofNat 4 part,
    retryLimit := x.retryLimit, peer := x.peer, peerQp := x.peerQp, keyslot := x.keyslot,
    txseq := txseq, known := true, tollOut := x.rxwin.setWidth 32, rxwin := x.rxwin, nbuf := x.nbuf, ndie := x.ndie,
    nvalid := x.nvalid, used := now }

/-- RESET (Table 9.2). -/
def Qp.resetOp (x : Qp) : Qp :=
  { x with st := .active, spsn := 0, una := 0, epsn := 0, sent := 0, done := 0,
           tollOut := x.rxwin.setWidth 32, retries := 0 }

/-- READ_BACK (Table 9.2). -/
def PqPage.readBack (x : PqPage) (c : Qp) : PqPage :=
  { x with peer := c.peer, peerQp := c.peerQp, prio := c.prio, mtu := c.mtu, owner := c.owner,
           keyslot := c.keyslot, retryLimit := c.retryLimit, rxwin := c.rxwin, nbuf := c.nbuf,
           ndie := c.ndie, nvalid := c.nvalid, qpstate := BitVec.ofNat 2 c.st.code, resPinned := c.pinned,
           txseq := c.txseq }

/-- DESTROY (Table 9.2): the context is FREE, and only the pool holds it. -/
def State.qpDestroy (s : State) (q : Nat) : State :=
  ((((s.failAll q scAbandoned).qpStop q .free).dropParked q).modQp q (fun x => { x with pinned := false })).evict q

/-- Contexts of a partition pinned on a lantern (PQ_PIN_QUOTA). -/
def State.pinnedOn (s : State) (m part : Nat) : Nat :=
  (s.qps.filter (fun e => homeOf e.1 == m && e.2.part.toNat == part && e.2.pinned)).length

/-- PINMAX of a partition on a lantern. -/
def State.pinMax (s : State) (m part : Nat) : Nat :=
  match (s.part part).cfg with
  | some c => c.pinQuota.getD m 0
  | none => 0

/-- PIN (Table 9.2): the context is fetched first when it is not in the cache, and the operation waits. -/
def State.pageDoPin (s : State) (m part q : Nat) : State :=
  if s.pinMax m part ≤ s.pinnedOn m part then s.pageEnd m part q scQuota
  else if (s.qp q).cached then (s.modQp q (fun x => { x with pinned := true })).pageEnd m part q scOk
  else (s.startFetch q).modPage m part (fun x => { x with busy := true, busyOp := 3 })

/-- Write a changed context that is not in the cache to the pool. -/
def State.putContext (s : State) (q : Nat) : State := if (s.qp q).cached then s else s.writeContext q

/-- An operation that passed the checks of the range and the state: its own checks and effect. -/
def State.pageDo (s : State) (m part q op : Nat) : State :=
  match op with
  | 1 =>
    let st := s.createCheck m part q
    if st = scOk then
      ((s.setQp q ((s.page m part).create part (s.poolTxseq part q) s.now)).writeContext q).pageEnd m part q scOk
    else s.pageEnd m part q st
  | 2 => (s.qpDestroy q).pageEnd m part q scOk
  | 3 => s.pageDoPin m part q
  | 4 => (s.modQp q (fun x => { x with pinned := false })).pageEnd m part q scOk
  | 5 => ((s.modQp q Qp.resetOp).putContext q).pageEnd m part q scOk
  | _ => (s.modPage m part (fun x => x.readBack (s.qp q))).pageEnd m part q scOk

/-- An operation's checks in their order (R253); one on a context that is being fetched waits. -/
def State.pageRun (s : State) (m part q op : Nat) : State :=
  if s.ownsQp part q = false ∨ homeOf q ≠ m then s.pageEnd m part q scAccess
  else if (s.qp q).allows op = false then s.pageEnd m part q scIllegal
  else if (s.porter m).fetching.contains q then
    s.modPage m part (fun x => { x with busy := true, busyOp := op })
  else s.pageDo m part q op

/-- A write of PQ_CMD through the page of partition `part` at lantern `m`, discarded while BUSY. -/
def State.pageCmd (s : State) (m part op : Nat) : State :=
  if s.clocked ∧ m < 6 ∧ part < 16 ∧ (s.page m part).busy = false then
    s.pageRun m part (s.page m part).idx.toNat op
  else s

/-- The partition whose page at the context's home holds an operation that waits for queue pair `q`. -/
def State.pageWaiting (s : State) (q : Nat) : Option Nat :=
  (List.range 16).find? (fun p =>
    (s.page (homeOf q) p).busy && (s.page (homeOf q) p).idx.toNat == q)

/-- The operation that waits for the fetch of a context, if there is one. After a fetch that failed a PIN
completes with UNCORRECTABLE. -/
def State.pageResume (s : State) (q : Nat) (bad : Bool) : State :=
  let m := homeOf q
  match s.pageWaiting q with
  | some part =>
    let op := (s.page m part).busyOp
    if bad ∧ op = 3 then s.pageEnd m part q scUncorr else s.pageRun m part q op
  | none => s

/-- The fetch of a context ends (R268, R269): the context is installed, or not when the fetch met an
uncorrectable word; an operation that waits for it follows, then the parked frames. While no slot of the
cache can be freed the fetch does not end. -/
def State.fetchEnd (s : State) (q : Nat) (bad : Bool) : State :=
  let m := homeOf q
  if (s.porter m).fetching.contains q = false then s
  else
    let s0 := s.modPorter m (fun p => { p with fetching := p.fetching.filter (· != q) })
    if bad ∨ s.uncorrIn 0 [(s.poolAddr q, 128)] then ((s0.fetchBad q).pageResume q true).wakeContext q
    else
      match s0.makeRoom q with
      | none => s
      | some s1 =>
        let s2 := (s1.touchRead 0 [(s1.poolAddr q, 128)]).modQp q (fun x => { x with cached := true, used := s.now })
        ((s2.pageResume q false).rxParked q).wakeContext q

end Sys2Proof.Machine
end

