-- ==== Sys2Proof/Machine/F32.lean ====
section
/-!
DEFINITION. F32 arithmetic rounded once under RNE (R109, R110, R122, R125): patterns are numbers below
2^32.
-/

namespace Sys2Proof.Machine

abbrev f32 : Layout := layoutOf 0

/-- The canonical F32 NaN (R32). -/
def f32NaN : Nat := 0x7FC00000

def f32Inf (neg : Bool) : Nat := if neg then 0xFF800000 else 0x7F800000

def f32Zero (neg : Bool) : Nat := if neg then 0x80000000 else 0

/-- The value of a pattern. -/
def f32Val (x : Nat) : FVal := f32.value x

/-- n ÷ d with a sign, rounded to F32 under RNE; an exact zero keeps the sign. -/
def f32Round (neg : Bool) (n d : Nat) : Nat := (f32.convert false .rne neg n d).pat

/-- A dyadic number rounded to F32; an exact zero takes the sign `zneg`. -/
def f32OfDy (zneg : Bool) (d : Dy) : Nat :=
  if d.m = 0 then f32Zero zneg
  else f32Round (decide (d.m < 0)) (d.m.natAbs * 2 ^ d.e.toNat) (2 ^ (-d.e).toNat)

def Dy.add (a b : Dy) : Dy :=
  let e := min a.e b.e
  ⟨a.m * 2 ^ (a.e - e).toNat + b.m * 2 ^ (b.e - e).toNat, e⟩

def FVal.isNeg : FVal → Bool
  | .nan => false
  | .inf n => n
  | .fin n _ _ => n

def FVal.isZero : FVal → Bool
  | .fin _ m _ => m == 0
  | _ => false

/-- The exact product of two values (R67 gives the kinds); NaN when there is none. -/
def FVal.mul (a b : FVal) : FVal :=
  match sideOfProduct a b with
  | some x => x
  | none => .fin (a.isNeg != b.isNeg) (a.dy.m.natAbs * b.dy.m.natAbs) (a.dy.e + b.dy.e)
where
  /-- The product when an operand is not finite. -/
  sideOfProduct : FVal → FVal → Option FVal
    | .nan, _ => some .nan
    | _, .nan => some .nan
    | .inf x, .inf y => some (.inf (x != y))
    | .inf x, .fin y m _ => some (if m = 0 then .nan else .inf (x != y))
    | .fin x m _, .inf y => some (if m = 0 then .nan else .inf (x != y))
    | .fin _ _ _, .fin _ _ _ => none

/-- The sum of two values rounded to F32. -/
def FVal.addRound (a b : FVal) : Nat :=
  match a, b with
  | .nan, _ => f32NaN
  | _, .nan => f32NaN
  | .inf x, .inf y => if x = y then f32Inf x else f32NaN
  | .inf x, .fin _ _ _ => f32Inf x
  | .fin _ _ _, .inf y => f32Inf y
  | .fin x _ _, .fin y _ _ => f32OfDy (x && y) (a.dy.add b.dy)

/-- A value rounded to F32. -/
def FVal.round32 (a : FVal) : Nat :=
  match a with
  | .nan => f32NaN
  | .inf n => f32Inf n
  | .fin n _ _ => f32OfDy n a.dy

/-- The value with the other sign. -/
def FVal.neg : FVal → FVal
  | .nan => .nan
  | .inf n => .inf (!n)
  | .fin n m e => .fin (!n) m e

def f32Add (x y : Nat) : Nat := (f32Val x).addRound (f32Val y)

def f32Sub (x y : Nat) : Nat := (f32Val x).addRound (f32Val y).neg

def f32Mul (x y : Nat) : Nat := ((f32Val x).mul (f32Val y)).round32

/-- x × y + z, rounded once. -/
def f32Fma (x y z : Nat) : Nat := ((f32Val x).mul (f32Val y)).addRound (f32Val z)

/-- x ÷ y (IEEE 754 binary32). -/
def f32Div (x y : Nat) : Nat :=
  let a := f32Val x
  let b := f32Val y
  let s := a.isNeg != b.isNeg
  match a, b with
  | .nan, _ => f32NaN
  | _, .nan => f32NaN
  | .inf _, .inf _ => f32NaN
  | .inf _, .fin _ _ _ => f32Inf s
  | .fin _ _ _, .inf _ => f32Zero s
  | .fin _ m _, .fin _ n _ =>
    if n = 0 then if m = 0 then f32NaN else f32Inf s
    else
      let f := a.dy.fracDiv b.dy
      f32Round s f.1 f.2

/-- floor(√n), by Newton's method from above with `fuel` steps. -/
def isqrtFrom (n : Nat) : Nat → Nat → Nat
  | 0, x => x
  | k + 1, x =>
    let y := (x + n / x) / 2
    if y < x then isqrtFrom n k y else x

def isqrt (n : Nat) : Nat := if n = 0 then 0 else isqrtFrom n (Nat.log2 n + 8) (2 ^ (Nat.log2 n / 2 + 1))

/-- √(n ÷ d) rounded to F32 under RNE, n and d not 0: from floor(√(n × 2^(2k) ÷ d)) and a sticky bit. -/
def f32SqrtFrac (n d k : Nat) : Nat :=
  let v := n * 2 ^ (2 * k)
  let t := isqrt (v / d)
  let st := if t * t * d = v then 0 else 1
  f32Round false (2 * t + st) (2 ^ (k + 1))

/-- √x (IEEE 754 binary32). -/
def f32Sqrt (x : Nat) : Nat :=
  match f32Val x with
  | .nan => f32NaN
  | .inf n => if n then f32NaN else f32Inf false
  | .fin n m e =>
    if m = 0 then f32Zero n
    else if n then f32NaN
    else f32SqrtFrac (m * 2 ^ e.toNat) (2 ^ (-e).toNat) 128

/-- Is value a below value b (no NaN)? -/
def FVal.lt (a b : FVal) : Bool :=
  match a, b with
  | .nan, _ => false
  | _, .nan => false
  | .inf x, .inf y => x && !y
  | .inf x, .fin _ _ _ => x
  | .fin _ _ _, .inf y => !y
  | .fin _ _ _, .fin _ _ _ => decide ((a.dy.add ⟨-b.dy.m, b.dy.e⟩).m < 0)

/-- max (Table 4.7): NaN if either is NaN; +0 over −0. -/
def f32Max (x y : Nat) : Nat :=
  let a := f32Val x
  let b := f32Val y
  if a = .nan ∨ b = .nan then f32NaN
  else if a.isZero ∧ b.isZero then f32Zero (a.isNeg && b.isNeg)
  else if a.lt b then y else x

/-- min (Table 4.7): NaN if either is NaN; −0 under +0. -/
def f32Min (x y : Nat) : Nat :=
  let a := f32Val x
  let b := f32Val y
  if a = .nan ∨ b = .nan then f32NaN
  else if a.isZero ∧ b.isZero then f32Zero (a.isNeg || b.isNeg)
  else if b.lt a then y else x

/-- sign (R122): −1, +1, ±0 or NaN. -/
def f32Sign (x : Nat) : Nat :=
  let a := f32Val x
  if a = .nan then f32NaN
  else if a.isZero then f32Zero a.isNeg
  else if a.isNeg then 0xBF800000 else 0x3F800000

/-- abs: a NaN is the canonical one (R32). -/
def f32Abs (x : Nat) : Nat := if f32Val x = .nan then f32NaN else x % 2 ^ 31

/-- A pattern as a result: a NaN is the canonical one (R32). -/
def f32Canon (x : Nat) : Nat := if f32Val x = .nan then f32NaN else x

/-! The exponential. -/

/-- Bounds of a number in units of 2^−k. -/
structure Ival where
  lo : Nat
  hi : Nat
  deriving DecidableEq, Repr

/-- The product of two numbers in units of 2^−k, within bounds. -/
def Ival.mul (k : Nat) (a b : Ival) : Ival := { lo := a.lo * b.lo / 2 ^ k, hi := a.hi * b.hi / 2 ^ k + 1 }

/-- `n` squarings. -/
def Ival.squares (k : Nat) : Nat → Ival → Ival
  | 0, a => a
  | n + 1, a => Ival.squares k n (a.mul k a)

/-- Σ y^j ÷ j! from term j on, `n` terms: `t` is the bounds of term j and `s` those of the sum before it.
The last term bounds what is left out, since y is at most 1/2. -/
def expTerms (k : Nat) (y : Ival) : Nat → Nat → Ival → Ival → Ival
  | 0, _, t, s => { lo := s.lo, hi := s.hi + 2 * t.hi + 2 }
  | n + 1, j, t, s =>
    let p := t.mul k y
    expTerms k y n (j + 1) { lo := p.lo / (j + 1), hi := p.hi / (j + 1) + 1 }
      { lo := s.lo + t.lo, hi := s.hi + t.hi }

/-- Bounds of e^(n ÷ d) in units of 2^−k, for 0 ≤ n ÷ d ≤ 128: e^(n ÷ 256 d) squared eight times. -/
def expIval (k n d : Nat) : Ival :=
  let y : Ival := { lo := n * 2 ^ k / (256 * d), hi := n * 2 ^ k / (256 * d) + 1 }
  Ival.squares k 8 (expTerms k y (k / 2 + 8) 0 { lo := 2 ^ k, hi := 2 ^ k } { lo := 0, hi := 0 })

/-- e^x with `k` bits, where both bounds round to the same F32. -/
def expTry (k : Nat) (neg : Bool) (n d : Nat) : Option Nat :=
  let v := expIval k n d
  let a := if neg then f32Round false (2 ^ k) v.hi else f32Round false v.lo (2 ^ k)
  let b := if neg then f32Round false (2 ^ k) v.lo else f32Round false v.hi (2 ^ k)
  if a = b then some a else none

/-- e^x with more and more bits. -/
def expLoop : Nat → Nat → Bool → Nat → Nat → Option Nat
  | 0, _, _, _, _ => none
  | f + 1, k, neg, n, d =>
    match expTry k neg n d with
    | some r => some r
    | none => expLoop f (2 * k) neg n d

/-- e^x rounded once to F32 under RNE. Above 128 it overflows and below −128 it rounds to +0. -/
def f32ExpDy (x : Dy) : Nat :=
  let n := x.m.natAbs * 2 ^ x.e.toNat
  let d := 2 ^ (-x.e).toNat
  if x.m = 0 then 0x3F800000
  else if 128 * d < n then if x.m < 0 then 0 else 0x7F800000
  else
    match expLoop 6 256 (decide (x.m < 0)) n d with
    | some r => r
    | none => Config.expOpen x.m x.e % 2 ^ 32

/-- e^x of a value. -/
def f32ExpVal (x : FVal) : Nat :=
  match x with
  | .nan => f32NaN
  | .inf n => if n then 0 else 0x7F800000
  | .fin _ _ _ => f32ExpDy x.dy

end Sys2Proof.Machine
end

