-- ==== Sys2Proof/Machine/Observe.lean ====
section
/-!
DEFINITION. Samples of tallies, module totals, trace and the reading of the logbook (R358, R435 to R451,
R458 to R462).
-/

namespace Sys2Proof.Machine

/-! Samples (R439). -/

/-- Tallies selected by a mask, in ascending index. -/
def selected (mask : Word) : List Nat := setBits 32 mask.toNat

/-- TMARK of a sample of tallies `mask` whose stretch marks are `st` (R358). -/
def State.sampleMark (s : State) (p : Nat) (st mask : Word) (gap : Bool) : BitVec 4 :=
  s.tmark (s.stretched (p / 22) || decide (st &&& mask ≠ 0)) gap

/-- The stretch marks after a sample: those of the tallies sampled end, unless a stretch is in progress. -/
def State.afterSample (s : State) (p : Nat) (st mask : Word) : Word :=
  if s.stretched (p / 22) then st else st &&& ~~~mask

/-- The entry of one tally in a sample record (Table 15.2). -/
def tallyEntry (v : BitVec 80) (i : Nat) : List Byte :=
  leBytes 8 v.toNat ++ leBytes 2 (v.toNat / 2 ^ 64) ++ leBytes 1 i ++ leBytes 5 0

/-- A tally sample record (Table 15.2). -/
def State.tallyRecord (s : State) (p l : Nat) (mask : Word) : List Byte :=
  let c := s.core p
  let g := (c.gapTally.mark).getD (0, 0)
  let m := s.sampleMark p c.stretchTally mask c.gapTally.mark.isSome
  leBytes 8 (s.dieNow (p / 22)).toNat ++ leBytes 4 c.tallySeq.toNat
    ++ [m.setWidth 8, BitVec.ofNat 8 l, 0, 0] ++ leBytes 8 g.1.toNat ++ leBytes 8 g.2.toNat
    ++ leBytes 4 mask.toNat ++ List.replicate 28 0
    ++ (selected mask).flatMap (fun i => tallyEntry (tabGet 0 c.tally i) i)

/-- TALLY (R440): the sample goes to the start of the buffer. -/
def execTally (i : Issue) (mask : Word) (dst : BitVec 14) (s : State) :
    Host.Outcome State Fault Refusal :=
  .next (match s.issuing i.core (.tally i mask dst) with
    | none => s
    | some p => s.issueWrite p i.stm (fun s0 =>
      let q := s0.partNo i.core
      match s0.bufRef p q i.stm dst with
      | none => s0.refFault p scIllegal i.stm
      | some b =>
        let r := s0.bufRange p b
        let n := 64 + 16 * (selected mask).length
        if r.2 < n then s0.coreFault p scIllegal 0x1041 false i.stm []
        else
          match s0.debitStore p [(r.1, n)] with
          | none => s0.tollShort p i.stm
          | some s1 =>
            let bs := s1.tallyRecord p i.core mask
            let st := s1.afterSample p (s1.core p).stretchTally mask
            let s2 := s1.modCore p (fun c => { c with gapTally := c.gapTally.taken, stretchTally := st })
            let w := s2.coreWrite p q [(r.1, bs)] i.stm
            if w.2 then w.1.advance p i.stm else w.1))

/-- TRACE (R442): a MARK record. -/
def execTrace (i : Issue) (mark : BitVec 16) (payload : Word) (s : State) :
    Host.Outcome State Fault Refusal :=
  .next (match s.issuing i.core (.trace i mark payload) with
    | none => s
    | some p => ((s.issued p).traceAt p 0 mark i.stm (payload.setWidth 64) 0).advance p i.stm)

/-- TALLY_SNAP (R439, Table 15.8): all 32 tallies into the snapshot registers. -/
def execTallySnap (fn n k : Nat) (s : State) : Host.Outcome State Fault Refusal :=
  .next (if n < 12 ∧ k < 22 then s.onBar fn (.core n k) (fun s =>
      let p := 22 * n + k
      let c := s.core p
      let all : Word := 0xFFFFFFFF
      let g := (c.gapSnap.mark).getD (0, 0)
      let sn : TallySnap :=
        { seq := c.tallySeq, mark := s.sampleMark p c.stretchSnap all c.gapSnap.mark.isSome,
          time := s.dieNow n, gapStart := g.1, gapNs := g.2, vals := c.tally }
      s.setCore p { c with snap := sn, gapSnap := c.gapSnap.taken,
                           stretchSnap := s.afterSample p c.stretchSnap all })
    else s)

/-- TOTAL_SNAP (Table 15.9). -/
def execTotalSnap (fn : Nat) (s : State) : Host.Outcome State Fault Refusal :=
  .next (s.onBar fn .pf (fun s => { s with totSnap := s.totals, totTime := s.now }))

/-- TALLY_TOTAL_UPDATE (R441): every core adds its increments. -/
def execTallyTotalUpdate (s : State) : Host.Outcome State Fault Refusal :=
  .next (eachDo (s.cores.map Prod.fst) (fun p t => t.totalsAdd p) s)

/-! Trace. -/

/-- The record of one tally in a periodic sample (Table 15.4, kind 6). -/
def State.tallyTrace (s : State) (p : Nat) (mark : BitVec 4) (i : Nat) : State :=
  let c := s.core p
  let v := tabGet 0 c.tally i
  let s1 := s.traceLost p
  let r := s1.traceRec p 6 0 c.pc 0 (v.setWidth 64)
    (w64 (v.toNat / 2 ^ 64 + 65536 * i + 2 ^ 24 * c.tallySeq.toNat))
  s1.tracePut p { r with tmark := mark ||| (if r.gap.isSome then 2 else 0) }

/-- TRACE_TALLY_PERIOD (R442): the records of one period form one sample (R439). -/
def execTraceTallyPeriod (n k : Nat) (s : State) : Host.Outcome State Fault Refusal :=
  let p := 22 * n + k
  let c := s.core p
  .next (if s.clocked ∧ n < 12 ∧ k < 22 ∧ c.traces 6 then
      let m := s.sampleMark p c.stretchTrace c.trcTmask false
      let s1 := eachDo (selected c.trcTmask) (fun i t => t.tallyTrace p m i) s
      s1.modCore p (fun x => { x with stretchTrace := s.afterSample p c.stretchTrace c.trcTmask })
    else s)

/-- The bytes of a trace record (Table 15.3). -/
def TraceRec.bytes (r : TraceRec) : List Byte :=
  leBytes 8 r.time.toNat ++ [BitVec.ofNat 8 (r.tmark.toNat + 16 * r.kind), r.lcore]
    ++ leBytes 2 r.tag.toNat ++ leBytes 2 (r.pc % 16384) ++ [r.stm.setWidth 8, 0]
    ++ leBytes 8 r.a.toNat ++ leBytes 8 r.b.toNat
    ++ match r.gap with
      | none => []
      | some g => leBytes 8 g.1.toNat ++ leBytes 8 g.2.toNat ++ List.replicate 16 0

/-- Bytes of one segment of a trace destination: a twelfth of SIZE × 48 KiB (R443, Table 15.11). -/
def TraceDest.seg (t : TraceDest) : Nat := t.size.toNat * 4096

/-- Where a record of `n` bytes goes in segment `d`: offsets and lengths; none in STOP mode when the segment
has no room (R443). -/
def TraceDest.place (t : TraceDest) (d n : Nat) : Option (List (Nat × Nat)) :=
  let w := (tabGet 0 t.wptr d).toNat
  if w + n ≤ t.seg then some [(d * t.seg + w, n)]
  else if t.stopMode then none
  else if w < t.seg then some [(d * t.seg + w, t.seg - w), (d * t.seg, n - (t.seg - w))]
  else some [(d * t.seg, n)]

/-- The next write offset after `n` bytes. -/
def TraceDest.step (t : TraceDest) (d n : Nat) : TraceDest :=
  let w := (tabGet 0 t.wptr d).toNat
  let e := if w + n < t.seg ∨ t.stopMode then w + n else (w + n) % t.seg
  { t with wptr := tabSet t.wptr d (w32 e) }

/-- A destination write that R198 refuses: the partition's trace is disabled, code 0x1044 (R443). -/
def State.traceRefused (s : State) (p q : Nat) : State :=
  (s.modPart q (fun x => { x with trp := { x.trp with en := false } })).logCore p 0x1044 scAccess []

/-- May the partition's trace go through its queue pair (R443)? -/
def State.traceQpOk (s : State) (q : Nat) : Bool :=
  let i := (s.part q).trp.qp.toNat
  s.ownsQp q i && decide ((s.qp i).st = .active) && (s.qp i).pinned

/-- Send pieces of a record to a region of another module. -/
def State.traceSend (s : State) (q d : Nat) (segs : List (Nat × List Byte)) : State :=
  let t := (s.part q).trp
  let i := t.qp.toNat
  s.queueSend i (segs.map (fun e =>
    .frame { s.mkFrame i 1 with rkey := t.rkey, roff := BitVec.ofNat 48 (t.base.toNat + e.1),
                                oplen := w32 e.2.length, payload := e.2 } (.trace q d)))

/-- The pieces of a record with their bytes. -/
def sliceAt : List (Nat × Nat) → List Byte → List (Nat × List Byte)
  | [], _ => []
  | (a, n) :: rest, bs => (a, bs.take n) :: sliceAt rest (bs.drop n)

/-- The trace porter of a die moves the oldest record of core `p` (R443). -/
def State.drainOne (s : State) (p q : Nat) : State :=
  let d := p / 22
  let t := (s.part q).trp
  match (s.core p).trace with
  | [] => s
  | r :: rest =>
    let bs := r.bytes
    let s1 := s.modCore p (fun c => { c with trace := rest })
    if !t.en ∨ t.seg = 0 then s
    else
      match t.place d bs.length with
      | none => s1
      | some segs =>
        let pieces := sliceAt segs bs
        if t.remote then
          if s.traceQpOk q then
            (s1.traceSend q d pieces).modPart q (fun x => { x with trp := x.trp.step d bs.length })
          else s.traceRefused p q
        else
          let at_ := pieces.map (fun e => (t.base.toNat + e.1, e.2))
          if at_.any (fun e => !s.admitted q false true e.1 e.2.length) then s.traceRefused p q
          else
            (s1.stores p (some q) at_).1.modPart q (fun x => { x with trp := x.trp.step d bs.length })

/-- Repeat an operation. -/
def times (n : Nat) (g : State → State) (s : State) : State := (List.range n).foldl (fun t _ => g t) s

/-- TRACE_DRAIN (R443, R444): up to `count` records of Ck of CDn, in order. -/
def execTraceDrain (n k count : Nat) (s : State) : Host.Outcome State Fault Refusal :=
  let p := 22 * n + k
  .next (if s.clocked ∧ n < 12 ∧ k < 22 then
      match s.partOfPhys p with
      | some q => times (min count (s.core p).trace.length) (fun t => t.drainOne p q) s
      | none => s
    else s)

/-! Reading the logbook (R450). -/

/-- The ring that a function reads (R398, R450). -/
def State.viewRing (s : State) (fn : Nat) : Nat :=
  if fn = 0 then (s.fn 0).view.ring.toNat else (s.fn fn).part.toNat

/-- The archive as one list of entries with their sequence numbers, newest first (R451). -/
def Logbook.archive (l : Logbook) : List (Nat × LogEntry) :=
  l.units.flatMap (fun u => (u.2.zipIdx.map (fun e => (u.1 + e.2, e.1))).reverse)

/-- LOG_OLDEST of a ring; 17 is the archive. -/
def Logbook.oldestOf (l : Logbook) (ring : Nat) : Nat :=
  if ring = 17 then
    match l.archive.getLast? with
    | some e => e.1
    | none => l.archSeq
  else (tabGet {} l.rings ring : LogRing).oldest

/-- LOG_HEAD of a ring. -/
def Logbook.headOf (l : Logbook) (ring : Nat) : Nat :=
  if ring = 17 then
    match l.archive.head? with
    | some e => e.1 + 1
    | none => l.archSeq
  else (tabGet {} l.rings ring : LogRing).head

/-- Entry `q` of a ring. -/
def Logbook.entryOf (l : Logbook) (ring q : Nat) : Option LogEntry :=
  if ring = 17 then (l.archive.find? (fun e => e.1 == q)).map Prod.snd
  else
    let r : LogRing := tabGet {} l.rings ring
    if q < r.head then r.entries[r.head - 1 - q]? else none

/-- Copy entries `c` to c + 3 of a ring into the window (R450). -/
def LogView.copy (v : LogView) (l : Logbook) (ring c : Nat) : LogView :=
  let lost := decide (c < l.oldestOf ring)
  let from_ := max c (l.oldestOf ring)
  let es := (List.range 4).filterMap (fun i =>
    if from_ + i < l.headOf ring then l.entryOf ring (from_ + i) else none)
  { v with cursor := w64 from_, valid := BitVec.ofNat 3 es.length, lost := lost, window := es,
           heldLow := none }

/-- Change a function's copy of the logbook block. -/
def State.modView (s : State) (fn : Nat) (g : LogView → LogView) : State :=
  s.modFn fn (fun x => { x with view := g x.view })

/-- LOG_CURSOR_WRITE (R450): a 64-bit write copies; a low half is held; a high half copies. -/
def execLogCursorWrite (fn : Nat) (wide high : Bool) (v : DWord) (s : State) :
    Host.Outcome State Fault Refusal :=
  .next (s.onBar fn .logbook (fun s =>
    let x := (s.fn fn).view
    let ring := s.viewRing fn
    if wide then s.modView fn (fun y => y.copy s.log ring v.toNat)
    else if high then
      let lo := (x.heldLow.getD (x.cursor.setWidth 32)).toNat
      s.modView fn (fun y => y.copy s.log ring ((v.setWidth 32).toNat * 2 ^ 32 + lo))
    else s.modView fn (fun y => { y with heldLow := some (v.setWidth 32) })))

/-- The last window word, w = 63. -/
def LogView.lastWord (v : LogView) : Word :=
  match v.window[3]? with
  | some e => e.words.getLastD 0
  | none => 0

/-- What a read of the last window word does (R450): while AUTO is 1 the cursor advances by VALID, and the window is
copied again. -/
def State.windowEnd (s : State) (fn : Nat) : State :=
  let x := (s.fn fn).view
  if x.auto then s.modView fn (fun y => y.copy s.log (s.viewRing fn) (x.cursor.toNat + x.valid.toNat)) else s

/-- LOG_AUTO_ADVANCE (R450): a read of the last window word. -/
def execLogAutoAdvance (fn : Nat) (s : State) : Host.Outcome State Fault Refusal :=
  .next (s.onBar fn .logbook (fun s =>
    (s.readBack fn ((s.fn fn).view.lastWord.setWidth 64)).windowEnd fn))

/-- The units that the archive's area holds, and those of a sector (R451). -/
def archiveUnits : Nat := 98304

def sectorUnits : Nat := 256

/-- The bytes of a unit of the archive (R451). Places without an entry are zero. -/
def unitBytes (u : Nat × List LogEntry) : List Byte :=
  let es := u.2.flatMap (fun e => e.words.flatMap (fun w => leBytes 4 w.toNat))
  let body := es ++ List.replicate (192 - es.length) 0 ++ leBytes 4 0x56435241 ++ leBytes 8 u.1
    ++ List.replicate 44 0
  body ++ leBytes 4 (crc32 body).toNat ++ leBytes 4 0xA5C30F5A

/-- The unit at the write point and the units that the area still holds: the sector of the write point is erased before its
first unit is programmed (R451, log entry 88). -/
def Logbook.program (l : Logbook) : Logbook :=
  let es := l.staging.take 3
  { l with staging := l.staging.drop 3, archSeq := l.archSeq + es.length, archPos := l.archPos + 1,
           units := (l.archSeq, es) :: l.units.take (archiveUnits - sectorUnits + l.archPos % sectorUnits) }

/-- LOG_ARCHIVE_PROGRAM (R451): a unit holds three entries; at a QUIESCE the rest is flushed (R431). -/
def execLogArchiveProgram (s : State) : Host.Outcome State Fault Refusal :=
  .next (if 3 ≤ s.log.staging.length ∨ (s.mod.state = .quiesce ∧ s.log.staging ≠ []) then
      { s with log := s.log.program }
    else s)

end Sys2Proof.Machine
end

