-- ==== Sys2Proof/Machine/Update.lean ====
section
/-!
DEFINITION. The update engine (R114 to R130).
-/

namespace Sys2Proof.Machine

/-! Descriptors (Table 4.5). -/

/-- The bytes of a descriptor. -/
def UpdDesc.bytes (d : UpdDesc) : List Byte := d.words.flatMap (fun w => leBytes 4 w.toNat)

/-- A field of a descriptor. -/
def UpdDesc.field (d : UpdDesc) (a n : Nat) : Nat := fieldLe d.bytes a n

def UpdDesc.hi (d : UpdDesc) : Nat := d.field 0 6
def UpdDesc.lo (d : UpdDesc) : Nat := d.field 6 6
def UpdDesc.m (d : UpdDesc) : Nat := d.field 12 6
def UpdDesc.v (d : UpdDesc) : Nat := d.field 18 6
def UpdDesc.g (d : UpdDesc) : Nat := d.field 24 6
def UpdDesc.param (d : UpdDesc) : Nat := d.field 30 6
def UpdDesc.count (d : UpdDesc) : Nat := d.field 36 4
def UpdDesc.hiDelta (d : UpdDesc) : Int := (BitVec.ofNat 32 (d.field 40 4)).toInt * 1024
def UpdDesc.cisDelta (d : UpdDesc) : Int := (BitVec.ofNat 32 (d.field 44 4)).toInt * 1024
def UpdDesc.recipe (d : UpdDesc) : Nat := d.field 48 1 % 16
def UpdDesc.gfmt (d : UpdDesc) : Nat := d.field 48 1 / 16
def UpdDesc.policy (d : UpdDesc) : Bool := bitAt (d.field 49 1) 0
def UpdDesc.gexp (d : UpdDesc) : Int := (BitVec.ofNat 16 (d.field 50 2)).toInt
def UpdDesc.token (d : UpdDesc) : Nat := d.field 52 4
def UpdDesc.seq (d : UpdDesc) : Word := w32 (d.field 56 4)

/-- Bytes of a gradient element. -/
def UpdDesc.gsize (d : UpdDesc) : Nat := if d.gfmt = 0 then 4 else if d.gfmt = 1 then 2 else 12

/-- Its alignment (R118). -/
def UpdDesc.galign (d : UpdDesc) : Nat := if d.gfmt = 1 then 2 else 4

/-- The ranges that a descriptor names: inputs, parameters, and outputs moved by their deltas (R118, R120). -/
def UpdDesc.ranges (d : UpdDesc) : List (Nat × Nat) :=
  let c := d.count
  let moved := fun (b : Nat) (dl : Int) => ((b : Int) + dl).toNat
  [(d.hi, 2 * c), (d.lo, 2 * c), (d.m, 4 * c), (d.v, 4 * c), (d.g, d.gsize * c), (d.param, 64),
   (moved d.hi d.hiDelta, 2 * c), (moved d.lo d.cisDelta, 2 * c), (moved d.m d.cisDelta, 4 * c),
   (moved d.v d.cisDelta, 4 * c)]

/-! Micro-program (R125, R126). -/

/-- A micro-op word is defined, with zero reserved bits (Tables 4.6, 4.7). -/
def uopOk (w : Word) : Bool :=
  decide (1 ≤ bits w.toNat 31 26) && decide (bits w.toNat 31 26 ≤ 12) && bits w.toNat 5 0 == 0

/-- UPD_STAT.UCODE_VALID (R126). -/
def UpdEngine.ucodeValid (u : UpdEngine) : Bool :=
  decide (1 ≤ u.ucodeLen.toNat) && decide (u.ucodeLen.toNat ≤ 64)
    && (List.range u.ucodeLen.toNat).all (fun j => uopOk (tabGet 0 u.ucode j))

/-- UPD_STAT (Table 4.10). -/
def UpdEngine.statWord (u : UpdEngine) : Word :=
  w32 (b2n u.current.isSome + 2 * b2n (u.halt && u.current.isNone) + 4 * b2n u.ucodeValid
    + 256 * u.queue.length)

/-- One micro-op on the working values (Table 4.7). -/
def uop (u : List Nat) (w : Nat) : List Nat :=
  let a := u.getD (bits w 20 16) 0
  let b := u.getD (bits w 15 11) 0
  let c := u.getD (bits w 10 6) 0
  let r := match bits w 31 26 with
    | 0x01 => f32Add a b
    | 0x02 => f32Sub a b
    | 0x03 => f32Mul a b
    | 0x04 => f32Div a b
    | 0x05 => f32Fma a b c
    | 0x06 => f32Sqrt a
    | 0x07 => f32Canon (f32Max a b)
    | 0x08 => f32Canon (f32Min a b)
    | 0x09 => f32Sign a
    | 0x0A => f32Abs a
    | 0x0B => f32Canon (if (FVal.fin false 0 0).lt (f32Val a) then b else c)
    | _ => f32Canon a
  u.set (bits w 25 21) r

/-! Checks (R118). -/

/-- Does an address field lie in a tier with its alignment? -/
def fieldOk (a align : Nat) (tiers : List Tier) : Bool := a % align == 0 && tiers.contains (tierOf a)

/-- Is the parameter block's address in HBM, the cistern or the depot of die n? -/
def paramOk (n a : Nat) : Bool :=
  a % 4 == 0 && (tierOf a == .hbm || tierOf a == .cistern
    || (tierOf a == .depot && (a - depotBase) / 0x2000000 == n))

/-- Does V_BASE's range lie wholly within one cistern window of the partition (R125)? -/
def State.vInWindow (s : State) (q : Nat) (d : UpdDesc) : Bool :=
  let x := s.part q
  tierOf d.v == .cistern &&
    match x.cfg with
    | none => false
    | some c =>
      c.windows.any (fun w => !w.pool && inside d.v (4 * d.count) w.base w.size)
        || x.mem.placements.any (fun e =>
          x.mem.removing != some e.1 && inside d.v (4 * d.count) e.2.base e.2.size)

/-- Does the descriptor read and write v (R118, R125)? -/
def State.usesV (s : State) (d : UpdDesc) : Bool :=
  d.recipe == 0 || (d.recipe == 3 && s.vInWindow d.part d)

/-- The first paragraph of R118. -/
def State.updFields (s : State) (n : Nat) (d : UpdDesc) : Bool :=
  decide (d.recipe ≤ 3) && (d.gfmt == 0 || d.gfmt == 1 || d.gfmt == 8)
    && d.count % 2 == 0 && decide (2 ≤ d.count) && decide (d.count ≤ 2 ^ 28)
    && decide (-126 ≤ d.gexp) && decide (d.gexp ≤ 127)
    && decide (d.field 49 1 < 2) && d.field 60 4 == 0
    && (d.recipe != 3 || (s.die n).upd.ucodeValid)
    && [d.hi, d.lo, d.m, d.v, d.g, d.param].all (fun a => decide (a < 2 ^ 44))
    && fieldOk d.hi 2 [.hbm] && fieldOk d.lo 2 [.cistern] && fieldOk d.m 4 [.cistern]
    && fieldOk d.g d.galign [.hbm, .cistern] && paramOk n d.param
    && (!s.usesV d || fieldOk d.v 4 [.cistern])
    && d.token % 8 == 0

/-- The depot buffer of the posting partition that holds the completion record (R118). -/
def State.recordBuf (s : State) (n : Nat) (d : UpdDesc) : Option Nat :=
  if d.token % 8 = 0 then
    ((s.die n).dbufs.find? (fun e => e.2.owner == d.part && inside d.token 8 e.2.base e.2.size)).map
      Prod.fst
  else none

/-- A range [a + delta, + n) for the partition: inside its windows? The whole range lies in one of them, as R198
asks of an access (log entry 65). -/
def State.updRange (s : State) (d : UpdDesc) (a n : Nat) (delta : Int) : Bool :=
  let b : Int := a + delta
  decide (0 ≤ b) && s.admitted d.part false false b.toNat n

/-- The second paragraph of R118. -/
def State.updWindows (s : State) (n : Nat) (d : UpdDesc) : Bool :=
  let c := d.count
  s.updRange d d.hi (2 * c) 0 && s.updRange d d.lo (2 * c) 0 && s.updRange d d.m (4 * c) 0
    && s.updRange d d.g (d.gsize * c) 0 && s.updRange d d.param 64 0
    && s.updRange d d.hi (2 * c) d.hiDelta && s.updRange d d.lo (2 * c) d.cisDelta
    && s.updRange d d.m (4 * c) d.cisDelta
    && (!s.usesV d || (s.updRange d d.v (4 * c) 0 && s.updRange d d.v (4 * c) d.cisDelta))
    && (s.recordBuf n d).isSome

/-- An engine code (R130). -/
def State.logUpd (s : State) (n code status : Nat) (part : Option Nat) (args : List Word) : State :=
  let u := (s.die n).upd
  s.logAt (.upd n) code status part args [u.statWord, u.doneSeq]

def State.modUpd (s : State) (n : Nat) (g : UpdEngine → UpdEngine) : State :=
  s.modDie n (fun d => { d with upd := g d.upd })

/-- A read by the engine: true when it meets an uncorrectable word or a FAILED channel (R121, R207). An error in a
word of the die's depot is reported as one of core C00 of the die, with 0x103A or 0x103B (log entry 66). -/
def State.updRead (s : State) (n : Nat) (segs : List (Nat × Nat)) : State × Bool :=
  if (s.failedIn segs).isSome then (s, true)
  else (s.touchRead (22 * n) segs, s.uncorrIn (22 * n) segs)

/-- A word of memory as the engine reads it. -/
def State.updVal (s : State) (n a k : Nat) : Nat := leNat (s.bytesAt (22 * n) a k)

/-- UPDATE_ENGINE_TAKE (R117, R118, R123, R334, R454): while CK_UPD runs, the engine takes the oldest descriptor, checks it and reads
its parameter block. -/
def execUpdateEngineTake (n : Nat) (s : State) : Host.Outcome State Fault Refusal :=
  .next (
    let u := (s.die n).upd
    if s.pllOn n ∧ n < 12 ∧ u.halt = false ∧ u.current = none then
      match u.queue with
      | [] => s
      | d :: rest =>
        let take := fun (t : State) (status : Nat) (ps : List Nat) =>
          t.modUpd n (fun u => { u with queue := rest, current := some d, curStatus := st8 status, params := ps })
        if u.fenced then take s scUncorr []
        else if !s.updFields n d then take s scIllegal []
        else if !s.updWindows n d then take s scAccess []
        else
          let r := s.updRead n [(d.param, 64)]
          if r.2 then take r.1 scUncorr []
          else take r.1 scOk ((List.range 16).map (fun k => s.updVal n (d.param + 4 * k) 4))
    else s)

/-! Elements. -/

/-- The inputs of an element. -/
structure UpdIn where
  g : Nat
  w : Nat
  m : Nat
  v : Nat
  deriving DecidableEq, Repr

/-- The gradient g (R122): the exact value times p9, rounded once. -/
def UpdDesc.grad (d : UpdDesc) (raw p9 : Nat) : Nat :=
  let x := if d.gfmt = 0 then f32Val raw
    else if d.gfmt = 1 then (layoutOf 1).value raw
    else
      let v := t72Int raw
      .fin (decide (v < 0)) v.natAbs d.gexp
  (x.mul (f32Val p9)).round32

/-- AdamW (R122). -/
def adamw (p : Nat → Nat) (i : UpdIn) : UpdIn :=
  let m := f32Add (f32Mul (p 1) i.m) (f32Mul (p 2) i.g)
  let v := f32Add (f32Mul (p 3) i.v) (f32Mul (p 4) (f32Mul i.g i.g))
  let u := f32Div (f32Mul m (p 7)) (f32Add (f32Sqrt (f32Mul v (p 8))) (p 5))
  { i with m := m, v := v, w := f32Sub i.w (f32Mul (p 0) (f32Add u (f32Mul (p 6) i.w))) }

/-- SGD with momentum (R122). -/
def sgdMomentum (p : Nat → Nat) (i : UpdIn) : UpdIn :=
  let m := f32Fma (p 1) i.m i.g
  { i with m := m, w := f32Sub i.w (f32Mul (p 0) (f32Add m (f32Mul (p 6) i.w))) }

/-- Sign momentum (R122). -/
def signMomentum (p : Nat → Nat) (i : UpdIn) : UpdIn :=
  let c := f32Add (f32Mul (p 1) i.m) (f32Mul (p 2) i.g)
  { i with w := f32Sub i.w (f32Mul (p 0) (f32Add (f32Sign c) (f32Mul (p 6) i.w))),
           m := f32Add (f32Mul (p 3) i.m) (f32Mul (p 4) i.g) }

/-- The user recipe (R125). -/
def userRecipe (code : List Nat) (p : Nat → Nat) (i : UpdIn) : UpdIn :=
  let u0 := [i.g, i.w, i.m, i.v] ++ List.replicate 12 0 ++ (List.range 16).map p
  let u := code.foldl uop u0
  { i with w := f32Canon (u.getD 1 0), m := f32Canon (u.getD 2 0), v := f32Canon (u.getD 3 0) }

/-- The outputs of an element. -/
def UpdEngine.apply (e : UpdEngine) (recipe : Nat) (i : UpdIn) : UpdIn :=
  let p := fun k => e.params.getD k 0
  match recipe with
  | 0 => adamw p i
  | 1 => sgdMomentum p i
  | 2 => signMomentum p i
  | _ => userRecipe ((List.range e.ucodeLen.toNat).map (fun j => (tabGet 0 e.ucode j).toNat)) p i

/-- Is a pattern finite? -/
def f32Finite (x : Nat) : Bool := decide (bits x 30 23 < 255)

/-- The ranges an element reads. -/
def UpdDesc.reads (d : UpdDesc) (useV : Bool) (i : Nat) : List (Nat × Nat) :=
  [(d.g + d.gsize * i, d.gsize), (d.hi + 2 * i, 2), (d.lo + 2 * i, 2), (d.m + 4 * i, 4)]
    ++ (if useV then [(d.v + 4 * i, 4)] else [])

/-- An address with its delta. -/
def moved (a : Nat) (delta : Int) : Nat := ((a : Int) + delta).toNat

/-- What an element writes (R115, R119, R124). -/
def UpdDesc.writes (d : UpdDesc) (useV : Bool) (i : Nat) (o : UpdIn) : List (Nat × List Byte) :=
  [(moved (d.hi + 2 * i) d.hiDelta, leBytes 2 (o.w / 65536)), (moved (d.lo + 2 * i) d.cisDelta, leBytes 2 o.w),
   (moved (d.m + 4 * i) d.cisDelta, leBytes 4 o.m)]
    ++ (if useV then [(moved (d.v + 4 * i) d.cisDelta, leBytes 4 o.v)] else [])

/-- The writes of an element whose computed outputs are withheld (R124, NF_POLICY 1): copies where a delta
is not zero. -/
def UpdDesc.kept (d : UpdDesc) (useV : Bool) (i : Nat) (x : UpdIn) : List (Nat × List Byte) :=
  (if d.hiDelta = 0 then [] else (d.writes useV i x).take 1)
    ++ (if d.cisDelta = 0 then [] else (d.writes useV i x).drop 1)

/-- A run of the engine over elements: the state, the non-finite count, and the element at which it
stopped. -/
structure UpdRun where
  s : State
  nf : Nat := 0
  stop : Option Nat := none

/-- One element (R119, R121, R122, R124). `skip` leaves its outputs unwritten. Each half of a weight is a write of two
bytes, part of a word, so that an uncorrectable word in an output range stops the descriptor (log entry 66). -/
def UpdRun.elem (r : UpdRun) (n : Nat) (d : UpdDesc) (useV : Bool) (i : Nat) (skip : Bool) : UpdRun :=
  match r.stop with
  | some _ => r
  | none =>
    let rd := r.s.updRead n (d.reads useV i)
    if rd.2 then { r with s := rd.1, stop := some i }
    else
      let u := (r.s.die n).upd
      let x : UpdIn :=
        { g := d.grad (r.s.updVal n (d.g + d.gsize * i) d.gsize) (u.params.getD 9 0),
          w := r.s.updVal n (d.hi + 2 * i) 2 * 65536 + r.s.updVal n (d.lo + 2 * i) 2,
          m := r.s.updVal n (d.m + 4 * i) 4,
          v := if useV then r.s.updVal n (d.v + 4 * i) 4 else 0 }
      let o := u.apply d.recipe x
      let bad := !(f32Finite x.g && f32Finite o.w && f32Finite o.m && (!useV || f32Finite o.v))
      let ws := if skip then [] else if bad && d.policy then d.kept useV i x else d.writes useV i o
      if (rd.1.failedIn (ws.map (fun e => (e.1, e.2.length)))).isSome then
        { r with s := rd.1, stop := some i }
      else
        let w := rd.1.stores (22 * n) (some d.part) ws
        { s := w.1, nf := r.nf + b2n bad, stop := if w.2 then some i else none }

/-- All elements in order. -/
def UpdRun.all (s : State) (n : Nat) (d : UpdDesc) (useV : Bool) : UpdRun :=
  (List.range d.count).foldl (fun r i => r.elem n d useV i false) { s := s }

/-- A descriptor that stops at element `k` (R121): whether each earlier element was written is a free
value. -/
def UpdRun.partly (s : State) (n : Nat) (d : UpdDesc) (useV : Bool) (k : Nat) : UpdRun :=
  (List.range (k + 1)).foldl
    (fun r i => ({ r with s := r.s.useFree }).elem n d useV i (r.s.freeVal.getLsbD 0)) { s := s }

/-- The completion record (R120). -/
def updRecord (d : UpdDesc) (status : Nat) (nf : Nat) : List Byte :=
  leBytes 4 d.seq.toNat ++ leBytes 1 status ++ leBytes 3 (min nf 0xFFFFFF)

/-- The token that announces a completion record in depot buffer `b`; with no room for it, log 0x1108 (R124). -/
def State.recordPost (s : State) (n b : Nat) (d : UpdDesc) : State :=
  match s.post (22 * n) (.depot n b) 1 with
  | some t => t
  | none => s.logUpd n 0x1108 scIllegal (some d.part) [d.seq]

/-- Write the record and post its token (R118, R120). -/
def State.updDone (s : State) (n : Nat) (d : UpdDesc) (status nf : Nat) : State :=
  match s.recordBuf n d with
  | none => s
  | some b =>
    (s.stores (22 * n) (some d.part)
      [(depotBase + n * 0x2000000 + d.token, updRecord d status nf)]).1.recordPost n b d

/-- The code of a descriptor's status (Table 4.11), 0 for none. -/
def updCode (status nf : Nat) : Nat :=
  if status = scIllegal then 0x1101 else if status = scAccess then 0x1103
  else if status = scUncorr then 0x1104 else if 0 < nf then 0x1102 else 0

/-- A descriptor completes (R118, R120, R121, R124). -/
def State.updFinish (s : State) (n : Nat) (d : UpdDesc) (status nf : Nat) : State :=
  let s1 := s.modUpd n (fun u => { u with
    current := none, curStatus := 0, flitLost := false, params := [], doneSeq := d.seq,
    nfCount := satAdd u.nfCount nf })
  let s2 := s1.updDone n d status nf
  let code := updCode status nf
  let s3 := if code = 0 then s2
    else s2.logUpd n code status (some d.part) (d.seq :: (if code = 0x1102 then [w32 nf] else []))
  let st := (s3.part d.part).st
  if status = scUncorr ∧ (st = .running ∨ st = .recovering) then s3.partFault d.part 0 scUncorr false
  else s3

/-- UPDATE_ENGINE_COMPLETE (R119 to R125, R334): while CK_UPD runs, the elements in order, then the record. -/
def execUpdateEngineComplete (n : Nat) (s : State) : Host.Outcome State Fault Refusal :=
  .next (
    let u := (s.die n).upd
    match (if s.pllOn n then u.current else none) with
    | none => s
    | some d =>
      if u.curStatus ≠ 0 ∨ u.fenced then
        s.updFinish n d (if u.fenced then scUncorr else u.curStatus.toNat) 0
      else
        let useV := s.usesV d
        let r := UpdRun.all s n d useV
        match r.stop with
        | none =>
          if u.flitLost then
            let r2 := UpdRun.partly s n d useV (d.count - 1)
            r2.s.updFinish n d scUncorr r2.nf
          else r.s.updFinish n d scOk r.nf
        | some k =>
          let r2 := UpdRun.partly s n d useV k
          r2.s.updFinish n d scUncorr r2.nf)

/-! Registers (R126, R129). -/

/-- May the function write the engine's controls: the PF, or a VF whose partition owns all 20 logical cores
of the die? -/
def State.ownsWholeDie (s : State) (fn n : Nat) : Bool :=
  fn == 0 || (List.range 20).all (fun j => s.ownsCore (s.fn fn).part.toNat (20 * n + j))

/-- UPD_SUBMIT (R117, R129): a write to word 15 submits the sixteen words. -/
def execUpdSubmit (fn n : Nat) (word15 : Word) (s : State) : Host.Outcome State Fault Refusal :=
  .next (if fn = 0 ∧ n < 12 then s.onBar fn (.die n) (fun s =>
      let u := (s.die n).upd
      let q := u.submitPart.toNat
      let ws := (List.range 15).map (tabGet 0 u.submit) ++ [word15]
      let s1 := s.modUpd n (fun u => { u with submit := tabSet u.submit 15 word15 })
      if 32 ≤ u.queue.length + u.committed ∨ s.ownsDie q n = false then
        s1.logUpd n 0x1107 scIllegal (some q) [ws.getD 14 0]
      else s1.modUpd n (fun u => { u with queue := u.queue ++ [{ words := ws, part := q, core := none }] }))
    else s)

/-- UPD_HALT (R129). -/
def execUpdHalt (fn n : Nat) (v : Bool) (s : State) : Host.Outcome State Fault Refusal :=
  .next (if n < 12 then s.onBar fn (.die n) (fun s =>
      if s.ownsWholeDie fn n then s.modUpd n (fun u => { u with halt := v }) else s)
    else s)

/-- UPD_UCODE_WRITE (R126, R129). A discarded write has no descriptor: the entry's partition is that of the virtual
function that wrote, and none for the physical function (log entry 67). -/
def execUpdUcodeWrite (fn n idx : Nat) (v : Word) (s : State) : Host.Outcome State Fault Refusal :=
  .next (if n < 12 ∧ idx ≤ 64 then s.onBar fn (.die n) (fun s =>
      let u := (s.die n).upd
      if u.current.isSome ∨ u.queue ≠ [] ∨ s.ownsWholeDie fn n = false then
        s.logUpd n 0x1105 scIllegal (if fn = 0 then none else some (s.fn fn).part.toNat) []
      else if idx < 64 then s.modUpd n (fun u => { u with ucode := tabSet u.ucode idx v })
      else if 64 < v.toNat % 128 then s
      else s.modUpd n (fun u => { u with ucodeLen := v.setWidth 7 }))
    else s)

end Sys2Proof.Machine
end

