-- ==== Sys2Proof/Machine/Causeway.lean ====
section
/-!
DEFINITION. The causeway (R17 to R20): the dies' places, ports, edges and spurs, and the fixed route of a flit.

Dies are numbered as in Table 7.15: 0 to 11 CD, 12 to 17 LN, 18 to 23 CS, 24 SV. Ports are 0 north, 1 east,
2 south, 3 west, 4 spur. The one mesh port of a lantern or cistern die takes the number of the side that faces
its compute die (log entry 57).
-/

namespace Sys2Proof.Machine

/-- The row and column of a compute die (R17). -/
def rowOf (n : Nat) : Nat := n / 4

def colOf (n : Nat) : Nat := n % 4

/-- Table 1.2: the compute die of a lantern or cistern die, and the port on that compute die. -/
def attachment : Nat → Option (Nat × Nat)
  | 12 => some (0, 0)
  | 13 => some (1, 0)
  | 14 => some (2, 0)
  | 15 => some (9, 2)
  | 16 => some (10, 2)
  | 17 => some (11, 2)
  | 18 => some (0, 3)
  | 19 => some (4, 3)
  | 20 => some (8, 3)
  | 21 => some (3, 1)
  | 22 => some (7, 1)
  | 23 => some (11, 1)
  | _ => none

/-- The port across an edge. -/
def facing (port : Nat) : Nat := (port + 2) % 4

/-- The boundary die at a port of a compute die, where Table 1.2 attaches one. -/
def attachedAt (n port : Nat) : Option Nat :=
  (List.range' 12 12).find? (fun d => attachment d == some (n, port))

/-- The die across a mesh port (R18): the 9 row edges, 8 column edges and 12 edges of Table 1.2. -/
def meshPeer (d port : Nat) : Option Nat :=
  if d < 12 then
    match port with
    | 0 => if 0 < rowOf d then some (d - 4) else attachedAt d 0
    | 1 => if colOf d < 3 then some (d + 1) else attachedAt d 1
    | 2 => if rowOf d < 2 then some (d + 4) else attachedAt d 2
    | 3 => if 0 < colOf d then some (d - 1) else attachedAt d 3
    | _ => none
  else
    match attachment d with
    | some a => if port = facing a.2 then some a.1 else none
    | none => none

/-- Is there a spur between two dies: Serai and every other die (R18)? -/
def spurEdge (a b : Nat) : Bool := (a == 24 && decide (b < 24)) || (b == 24 && decide (a < 24))

/-- Where a flit to or from a die enters or leaves the grid (R20). -/
def gridDie (d : Nat) : Option Nat := if d < 12 then some d else (attachment d).map Prod.fst

/-- The grid part of a route, along the row and then along the column (R20), as receiving dies and ports; `fuel`
bounds its length. -/
def gridHops : Nat → Nat → Nat → List (Nat × Nat)
  | 0, _, _ => []
  | fuel + 1, a, b =>
    if colOf a < colOf b then (a + 1, 3) :: gridHops fuel (a + 1) b
    else if colOf b < colOf a then (a - 1, 1) :: gridHops fuel (a - 1) b
    else if rowOf a < rowOf b then (a + 4, 0) :: gridHops fuel (a + 4) b
    else if rowOf b < rowOf a then (a - 4, 2) :: gridHops fuel (a - 4) b
    else []

/-- The ports at which a flit from one die to another is received, in order (R20). No mesh route leads to or from
Serai. -/
def causewayRoute (a b : Nat) : List (Nat × Nat) :=
  match gridDie a, gridDie b with
  | some x, some y =>
    if a = b then []
    else
      (match attachment a with
        | some p => [p]
        | none => []) ++ gridHops 5 x y ++
      (match attachment b with
        | some p => [(b, facing p.2)]
        | none => [])
  | _, _ => []

/-- Do the flits of a transfer between two dies, there or back, cross a receiving port? -/
def onRoute (a b d port : Nat) : Bool :=
  (causewayRoute a b).contains (d, port) || (causewayRoute b a).contains (d, port)

/-- The dies that hold the bytes of a range: stacks beside their compute dies, cistern dies, depots (R17, R191,
R192). -/
def State.diesOf (s : State) (a n : Nat) : List Nat :=
  s.stacksOf a n ++ (s.chansOf a n).map (fun c => 18 + c / 16)
    ++ (if tierOf a = .depot then [(a - depotBase) / 0x2000000] else [])
    ++ (if tierOf a = .port then [(a - portBase) / 0x10000] else [])

/-- The dies that a porter operation of a core exchanges flits with. -/
def State.opDies (s : State) (p : Nat) (o : PorterOp) : List Nat :=
  o.reads.flatMap (fun e => s.diesOf e.1 e.2) ++
    match o.act with
    | .copy ws => ws.flatMap (fun e => s.diesOf e.1 e.2.length)
    | .add _ => (List.range 12).filter (fun n => (s.house n).queue.any (fun e => decide (e.src = .copy p o.id)))
    | .descriptor n _ => [n]
    | .remote q _ _ => [12 + homeOf q]
    | .convoy q _ _ _ => [12 + homeOf q]

/-- Is a receiving port on a route that the transfer's flits take (R20, R222)? Copies of the host, scrubs and
frames between lantern dies may cross any mesh edge. -/
def State.crosses (s : State) (t : Transfer) (d port : Nat) : Bool :=
  match t with
  | .corePorter core op =>
    match s.physOf core with
    | some p =>
      match (s.core p).ops.find? (fun o => o.id == op) with
      | some o => (s.opDies p o).any (fun x => onRoute (core / 20) x d port)
      | none => false
    | none => false
  | .updateEngine n =>
    match (s.die n).upd.current with
    | some u => u.ranges.any (fun e => (s.diesOf e.1 e.2).any (fun x => onRoute n x d port))
    | none => false
  | .convoyAdds f => (List.range 12).any (fun n => onRoute (12 + homeOf f.dqp.toNat) n d port)
  | .contextFetch q => (s.diesOf (s.poolAddr q) 128).any (fun x => onRoute (12 + homeOf q) x d port)
  | .contextWriteback q => (s.diesOf (s.poolAddr q) 128).any (fun x => onRoute (12 + homeOf q) x d port)
  | .traceData n _ _ => (List.range 24).any (fun x => onRoute n x d port)
  | .linkFrame => (List.range 6).any (fun a => (List.range 6).any (fun b => onRoute (12 + a) (12 + b) d port))
  | .hostCopy _ => true
  | .scrubWrites => true
  | .corrected => true

end Sys2Proof.Machine
end

