-- ==== Sys2Proof/Machine/MemEvents.lean ====
section
/-!
DEFINITION. Counting-house adds, placements, injections and errors of the memories and the causeway (R199 to
R222, R303, R304).
-/

namespace Sys2Proof.Machine

/-! COUNTING_HOUSE_ADD. -/

/-- An add at house `n`; a fenced house refuses it as an uncorrectable word (R304, R454). -/
def State.houseAdd (s : State) (n : Nat) (e : Add) : State × Bool :=
  if (s.die n).chFenced then
    let s1 := s.modHouse n (fun h => { h with uncorr := satAdd h.uncorr 1 })
    (s1.logHouse n 0x1201 scUncorr (s.ownerOf e.addr) e.addr, true)
  else s.applyAdd n e

/-- Convoy frames whose adds are all done are consumed. -/
def State.framesDone (s : State) : State :=
  eachDo (s.pendFrames.filter (fun f => f.issued && f.left == 0)) (fun f t => t.frameDone f) s

/-- COUNTING_HOUSE_ADD (R302 to R304): the add at the head of the queue of HBn's counting house. -/
def execCountingHouseAdd (n : Nat) (s : State) : Host.Outcome State Fault Refusal :=
  .next (if s.clocked ∧ n < 12 then
      match (s.house n).queue with
      | [] => s
      | e :: rest =>
        let s1 := s.modHouse n (fun h => { h with queue := rest })
        let r := s1.houseAdd n e
        let s2 := (r.1.modHouse n (fun h => h.giveBack e.src)).addSource r.2 e.src
        s2.framesDone.issueWaiting
    else s)

/-! Placements. -/

/-- A placement code (R221). -/
def State.logPlace (s : State) (p code status : Nat) : State :=
  s.logAt .serai code status (some p) [] (s.part p).mem.plcWords

/-- Change the memory block of partition `p`. -/
def State.modPartMem (s : State) (p : Nat) (g : PartMem → PartMem) : State :=
  s.modPart p (fun x => { x with mem := g x.mem })

/-- Bytes of a partition's private windows and placements in a tier (R201). -/
def State.usedBytes (s : State) (p : Nat) (t : Tier) : Nat :=
  let x := s.part p
  let ws := match x.cfg with
    | some c => (c.windows.filter (fun (w : MWindow) => !w.pool && decide (tierOf w.base = t))).map MWindow.size
    | none => []
  let ps := (x.mem.placements.filter (fun e => decide (tierOf e.2.base = t))).map (fun e => e.2.size)
  ws.sum + ps.sum

/-- The quota of a partition in a tier, in bytes (R201). -/
def State.quotaBytes (s : State) (p : Nat) (t : Tier) : Nat :=
  match (s.part p).cfg with
  | some c => 4096 * (if t = .hbm then c.quotaHbm else c.quotaCis).toNat
  | none => 0

/-- Is a range wholly inside one pool window of the partition? -/
def State.inPool (s : State) (p a n : Nat) : Bool :=
  match (s.part p).cfg with
  | some c => c.windows.any (fun w => w.pool && inside a n w.base w.size)
  | none => false

/-- Do two ranges share a byte? -/
def meets (a n b m : Nat) : Bool := decide (a < b + m) && decide (b < a + n)

/-- The checks of Table 7.3, in order: the status. -/
def State.placeCheck (s : State) (p idx base size cls : Nat) : Nat :=
  if base % 4096 ≠ 0 ∨ size = 0 ∨ 7 < cls ∨ (s.part p).mem.placements.any (fun e => e.1 == idx) then scIllegal
  else if !s.inPool p base size then scAccess
  else if (List.range 16).any (fun q =>
      (s.part q).mem.placements.any (fun e => meets base size e.2.base e.2.size)) then scIllegal
  else if s.quotaBytes p (tierOf base) < s.usedBytes p (tierOf base) + size then scQuota
  else scOk

/-- The result of a placement command. -/
def State.placeResult (s : State) (p status : Nat) : State :=
  s.modPartMem p (fun m => { m with plcStatus := st8 status, plcBusy := false })

/-- PLACEMENT_PLACE (R199, R395). -/
def execPlacementPlace (fn part : Nat) (s : State) : Host.Outcome State Fault Refusal :=
  .next (s.onBar fn (.part part) (fun s =>
    let m := (s.part part).mem
    if m.plcBusy then s
    else
      let size := 4096 * m.plcSize.toNat
      let st := s.placeCheck part m.plcIdx.toNat m.plcBase.toNat size m.plcClass.toNat
      let s1 := s.placeResult part st
      if st = 0 then
        let e : Placement := { base := m.plcBase.toNat, size := size, cls := m.plcClass }
        (s1.modPartMem part (fun m => { m with placements := tabSet m.placements m.plcIdx.toNat e })).unclean part
      else s1.logPlace part 0x0140 st))

/-- PLACEMENT_REMOVE (R200): the range admits no access from now on. -/
def execPlacementRemove (fn part : Nat) (s : State) : Host.Outcome State Fault Refusal :=
  .next (s.onBar fn (.part part) (fun s =>
    let m := (s.part part).mem
    let i := m.plcIdx.toNat
    if m.plcBusy then s
    else if m.placements.any (fun e => e.1 == i) then
      s.modPartMem part (fun m => { m with removing := some i, plcBusy := true })
    else s.placeResult part scIllegal))

/-- Does what an outstanding operation reads, until it completes with its retries (R200, R263), or what it writes
meet a range? -/
def PorterOp.meets (o : PorterOp) (a n : Nat) : Bool :=
  o.reads.any (fun e => Machine.meets e.1 e.2 a n)
    || (match o.act with
      | .copy ws => ws.any (fun e => Machine.meets e.1 e.2.length a n)
      | _ => false)

/-- Does what a queue pair has still to send or to land meet a range? -/
def State.qpMeets (s : State) (x : Qp) (a n : Nat) : Bool :=
  x.reads.any (fun r => r.addrs.any (fun e => meets e.1 e.2 a n))
    || x.queued.any (fun e => match e with
      | .resp i _ roff len _ _ _ _ => meets ((s.region i).base + roff) len a n
      | _ => false)

/-- Does the descriptor in progress of an engine use a range? -/
def UpdDesc.meets (d : UpdDesc) (a n : Nat) : Bool := d.ranges.any (fun e => Machine.meets e.1 e.2 a n)

/-- Is an access that was admitted to a range still in progress (R200)? -/
def State.rangeBusy (s : State) (a n : Nat) : Bool :=
  s.cores.any (fun c => c.2.ops.any (fun o => o.meets a n))
    || s.houses.any (fun h => h.2.queue.any (fun e => meets e.addr 12 a n))
    || s.pendFrames.any (fun f => f.adds.any (fun e => meets e.1 12 a n))
    || s.qps.any (fun e => s.qpMeets e.2 a n)
    || s.dies.any (fun d => match d.2.upd.current with
      | some u => u.meets a n
      | none => false)

/-- PLACEMENT_REMOVE_DONE (R200): every admitted access has completed and the range is scrubbed. -/
def execPlacementRemoveDone (part : Nat) (s : State) : Host.Outcome State Fault Refusal :=
  .next (
    let m := (s.part part).mem
    match (if s.clocked then m.removing else none) with
    | none => s
    | some i =>
      match m.placements.find? (fun e => e.1 == i) with
      | none => s
      | some e =>
        if s.rangeBusy e.2.base e.2.size then s
        else
          let s1 := (s.scrubRange e.2.base e.2.size).modPartMem part (fun m =>
            { m with placements := tabErase m.placements i, removing := none })
          (s1.placeResult part scOk).logPlace part 0x0141 scOk)

/-- PLACEMENT_READ_BACK (R200). -/
def execPlacementReadBack (fn part : Nat) (s : State) : Host.Outcome State Fault Refusal :=
  .next (s.onBar fn (.part part) (fun s =>
    let m := (s.part part).mem
    if m.plcBusy then s
    else
      let s1 := match m.placements.find? (fun e => e.1 == m.plcIdx.toNat) with
        | some e => s.modPartMem part (fun m => { m with
            plcBase := BitVec.ofNat 44 e.2.base, plcSize := w32 (e.2.size / 4096), plcClass := e.2.cls,
            plcValid := true })
        | none => s.modPartMem part (fun m => { m with
            plcBase := 0, plcSize := 0, plcClass := 0, plcValid := false })
      s1.placeResult part scOk))

/-! Injections (R206, R219, R220) and failures of memories (R206, R209). -/

/-- HBM_INJECT (R219). -/
def execHbmInject (fn n : Nat) (kind : BitVec 2) (s : State) : Host.Outcome State Fault Refusal :=
  .next (if n < 12 ∧ (kind = 1 ∨ kind = 2) then s.onBar fn .pf (fun s =>
      s.modDie n (fun d => { d with hbm := { d.hbm with inject := kind } }))
    else s)

/-- CIS_INJECT with KIND 1 or 2 (R220). -/
def execCisInjectError (fn m : Nat) (dbl : Bool) (chan : BitVec 4) (s : State) :
    Host.Outcome State Fault Refusal :=
  .next (if m < 6 then s.onBar fn .pf (fun s =>
      s.modCis m (fun x => { x with inject := tabSet x.inject chan.toNat (if dbl then 2 else 1) }))
    else s)

/-- A channel fails unless it has failed already. -/
def State.failOnce (s : State) (m c : Nat) : State :=
  if bitAt (s.cis m).failed.toNat c then s else s.failChannel m c

/-- CIS_INJECT with KIND 3 (R206). -/
def execCisInjectFail (fn m : Nat) (chan : BitVec 4) (s : State) : Host.Outcome State Fault Refusal :=
  .next (if m < 6 then s.onBar fn .pf (fun s => s.failOnce m chan.toNat) else s)

/-- CISTERN_READ_TIMEOUT (R206). -/
def execCisternReadTimeout (m : Nat) (chan : BitVec 4) (s : State) : Host.Outcome State Fault Refusal :=
  .next (if s.clocked ∧ m < 6 then s.failOnce m chan.toNat else s)

/-- HBM_READ_TIMEOUT (R209). -/
def execHbmReadTimeout (n : Nat) (s : State) : Host.Outcome State Fault Refusal :=
  .next (if s.clocked ∧ n < 12 ∧ (s.die n).hbm.failed = false then s.failStack n else s)

/-- CORRECTED_WRITEBACK (R211, R215): the corrected word is written, unless a write to it came first. -/
def execCorrectedWriteback (cistern : Bool) (word : Nat) (s : State) : Host.Outcome State Fault Refusal :=
  .next (if s.clocked then
      if cistern then
        if s.mem.cisWb.contains word then
          { s with mem := { s.mem with
              cisErr := tabPut 0 s.mem.cisErr word 0, cisWb := s.mem.cisWb.filter (· != word) } }
        else s
      else if s.mem.hbmWb.contains word then
        { s with mem := { s.mem with
            hbmErr := tabPut 0 s.mem.hbmErr word 0, hbmWb := s.mem.hbmWb.filter (· != word) } }
      else s
    else s)

/-- Words of a stack and of a cistern die. -/
def stackWords : Nat := 36 * 2 ^ 28

def cisDieWords : Nat := 2 ^ 36

/-- A patrol read of a stack's word (R213, R214). -/
def State.patrolHbm (s : State) (n word : Nat) (passEnd : Bool) : State :=
  let h := (s.die n).hbm
  if h.patrolEn ∧ h.failed = false ∧ word < stackWords then
    let key := n * 2 ^ 34 + word
    let v := tabGet 0 s.mem.hbmErr key
    let s1 := if v = 1 then s.correctHbm key else if v = 2 then s.uncorrHbm key 3 else s
    let pos := if passEnd then 0 else BitVec.ofNat 16 (word * 65536 / stackWords)
    let s2 := s1.modDie n (fun d => { d with hbm := { d.hbm with patrolPos := pos, patrolActive := true } })
    if passEnd then s2.logHbm n 0x3005 scOk none [] else s2
  else s

/-- A patrol read of a cistern die's word (R213, R214). -/
def State.patrolCis (s : State) (m word : Nat) (passEnd : Bool) : State :=
  let x := s.cis m
  if x.patrolEn ∧ word < cisDieWords then
    let key := m * cisDieWords + word
    let v := if bitAt x.failed.toNat (word / 2 ^ 32) then 0 else tabGet 0 s.mem.cisErr key
    let s1 := if v = 1 then s.correctCis key else if v = 2 then s.uncorrCis key 3 else s
    let pos := if passEnd then 0 else BitVec.ofNat 16 (word * 65536 / cisDieWords)
    let s2 := s1.modCis m (fun x => { x with patrolPos := pos })
    if passEnd then s2.logCis m 0x3105 scOk none [] else s2
  else s

/-- PATROL_READ (R214): word `word` of a stack or of a cistern die, counted from its first. -/
def execPatrolRead (cistern : Bool) (unit word : Nat) (passEnd : Bool) (s : State) :
    Host.Outcome State Fault Refusal :=
  .next (if s.clocked then
      if cistern then (if unit < 6 then s.patrolCis unit word passEnd else s)
      else if unit < 12 then s.patrolHbm unit word passEnd
      else s
    else s)

/-! The causeway (R222). -/

/-- An uncorrectable flit at a port of die `d` (R222): counted, CWY_LAST. -/
def State.flitBad (s : State) (d port : Nat) (retry : Bool) : State :=
  { s with cwy := { s.cwy with
      uncorr := tabMod 0 s.cwy.uncorr d (satAdd · 1), lastDie := BitVec.ofNat 5 d,
      lastPort := BitVec.ofNat 3 port, lastSpurRetry := retry } }

/-- A single-bit error in a flit is corrected at the receiving port and counted (R19, R222). -/
def State.flitCorrected (s : State) (d : Nat) : State :=
  { s with cwy := { s.cwy with corr := tabMod 0 s.cwy.corr d (satAdd · 1) } }

/-- SPUR_FLIT_ERROR (R222): sent again up to three times; the fourth failure sends the module to FAULT. An error
of one bit is corrected and the flit has not failed (`failures` is 0). -/
def execSpurFlitError (rx tx failures : Nat) (s : State) : Host.Outcome State Fault Refusal :=
  .next (if s.clocked ∧ spurEdge rx tx then
      if failures = 0 then s.flitCorrected rx
      else if failures < 4 then
        let s1 := s.flitBad rx 4 true
        { s1 with cwy := { s1.cwy with retry := tabMod 0 s1.cwy.retry tx (satAdd · 1) } }
      else ((s.flitBad rx 4 false).logSerai 0x0102 scUncorr none []).enterFault 2
    else s)

/-- A core porter's transfer fails (Table 7.14): what a failed write would have written is a free value; the
core stops with a fault of status UNCORRECTABLE. -/
def State.porterLoss (s : State) (p : Nat) (o : PorterOp) : State :=
  let s1 := match o.act with
    | .remote q _ _ => s.dropReading q (.core p o.id)
    | _ => s.landPartly p o
  ((s1.endOp p o.id).tracePorter p 0x20 0 o).opFault p scUncorr 0 o.stm [o.tag]

/-- The outcome of a lost flit (Table 7.14). -/
def State.transferLoss (s : State) (t : Transfer) : State :=
  match t with
  | .corePorter core op =>
    match s.physOf core with
    | some p =>
      match (s.core p).op op with
      | some o => s.porterLoss p o
      | none => s
    | none => s
  | .updateEngine d => if (s.die d).upd.current.isSome then s.modUpd d (fun u => { u with flitLost := true }) else s
  | .convoyAdds f =>
    match s.pendFrames.find? (fun g => g.issued && decide (g.frame = f)) with
    | some g =>
      let s1 := s.loseAdds (.frame g.id)
      let left := ((List.range 12).map (fun n =>
        ((s1.house n).queue.filter (fun e => decide (e.src = .frame g.id))).length)).sum
      let l := s1.pendFrames.map (fun h => if h.id = g.id then { h with failed := true, left := left } else h)
      { s1 with pendFrames := l }.framesDone.issueWaiting
    | none => s
  | .linkFrame => s
  | .contextFetch q => s.fetchEnd q true
  | .contextWriteback q => if (s.qp q).st = .active then s.qpError q scUncorr else s
  | .hostCopy h => { s with lostCopies := s.lostCopies ++ [(h.fn, h.q, h.cid)] }
  | .traceData n k records => s.modCore (22 * n + k) (fun c => { c with trcLost := satAdd c.trcLost records })
  | .scrubWrites => s
  | .corrected => s

/-- MESH_FLIT_LOSS (R222, Table 7.14) at a port on a route of the transfer (R20): an error of one bit is corrected;
any other is counted, with CWY_LAST, code 0x0161, and the transfer's outcome. -/
def execMeshFlitLoss (die port : Nat) (t : Transfer) (s : State) : Host.Outcome State Fault Refusal :=
  .next (if s.clocked ∧ (meshPeer die port).isSome ∧ s.crosses t die port then
      if t = .corrected then s.flitCorrected die
      else
        let s1 := s.flitBad die port false
        (s1.logAt (.die die) 0x0161 scUncorr none [] [s1.cwy.lastWord, tabGet 0 s1.cwy.uncorr die]).transferLoss t
    else s)

end Sys2Proof.Machine
end

