-- ==== Sys2Proof/Machine/HostCmd.lean ====
section
/-!
DEFINITION. Taking command descriptors from the queues, and the host commands NOP to POST_TOKEN (R148 to
R152, R161, R405, R410, R412, R428).
-/

namespace Sys2Proof.Machine

/-! Descriptors (Tables 14.4 and 14.5). -/

/-- A descriptor from its code, FLAGS, header and the bytes from 8 on as one number. -/
def descOf (h : CmdHdr) (code flags args : Nat) : BitVec 512 :=
  BitVec.ofNat 512 (code % 256 + 256 * (flags % 256) + 2 ^ 16 * h.cid.toNat + 2 ^ 32 * (h.part % 256) + 2 ^ 64 * args)

/-- Bytes 8 to 15 hold a host address whose contents are the command's operand (log entry 7). -/
def namesHost (code : Nat) : Bool := code == 0x0B || code == 0x0D

/-- A descriptor without the host address of INSTALL_KEY and APPLY_MANIFEST. -/
def maskHost (d : BitVec 512) : BitVec 512 :=
  if namesHost (d.toNat % 256) then d &&& ~~~(BitVec.ofNat 512 (2 ^ 128 - 2 ^ 64)) else d

/-- The bits of bytes 8 to 63 that a command names (Table 14.5), as fields. -/
def argFields (code : Nat) (protect : Bool) : List (Nat × Nat) :=
  match code with
  | 0x01 => [(47, 0)]
  | 0x06 => [(3, 0), (15, 8), (23, 16)]
  | 0x07 => if protect then [(63, 0), (111, 64), (159, 128), (165, 160), (223, 192)]
            else [(63, 0), (111, 64), (159, 128)]
  | 0x08 => if protect then [(63, 0), (111, 64), (159, 128), (165, 160)] else [(63, 0), (111, 64), (159, 128)]
  | 0x09 => [(31, 0), (111, 64), (175, 128), (194, 192), (205, 200)]
  | 0x0A => [(31, 0)]
  | 0x0B => [(63, 0), (95, 64)]
  | 0x0D => [(63, 0), (127, 64)]
  | _ => []

/-- The ranges that Table 14.5 and R388 give arguments. -/
def argsOk (code : Nat) (protect : Bool) (a : Nat) : Bool :=
  match code with
  | 0x01 => a % 4096 == 0
  | 0x06 => bits a 23 16 != 0
  | 0x07 => bits a 159 128 != 0 && (!protect || decide (bits a 223 192 < 2 ^ 31))
  | 0x08 => bits a 159 128 != 0
  | 0x0D => decide (bits a 127 64 ≤ 2 ^ 40)
  | _ => true

/-- Does a descriptor keep R410? -/
def descOk (d : BitVec 512) : Bool :=
  let v := d.toNat
  let code := bits v 7 0
  let flags := bits v 15 8
  let a := v / 2 ^ 64
  let protect := bitAt flags 0
  let mask := (argFields code protect).foldl (fun m f => m + (2 ^ (f.1 + 1) - 2 ^ f.2)) 0
  decide (code ≤ 0x0D) && decide (flags < 4)
    && (!protect || code == 0x07 || code == 0x08) && (!bitAt flags 1 || code == 0x01)
    && bits v 63 40 == 0 && (code == 0x0D || decide (bits v 39 32 < 16))
    && a &&& mask == a && argsOk code protect a

/-! Taking a descriptor. -/

/-- May the module take a descriptor from a queue now (R412, R413, Table 14.11)? -/
def State.canTake (s : State) (f q : Nat) : Bool :=
  let y := s.queue f q
  (decide (s.mod.state = .ready) || decide (s.mod.state = .run)) && !s.mod.pcieDown
    && y.en && y.kind == 0 && !y.halted && !y.error && decide (0 < y.freeSlots)

/-- A descriptor is taken: the submission head advances and a completion slot is reserved (R412). -/
def State.takeDesc (s : State) (f q : Nat) : State :=
  s.modQueue f q (fun y =>
    ({ y with sqHead := (y.sqHead + 1) % y.size, ring := y.ring.tail, taken := y.taken + 1 }).refresh)

/-- Does an unbound VF send this (R405)? -/
def State.unbound (s : State) (f : Nat) : Bool := f != 0 && !(s.fn f).bound

/-- The partition whose ring a rejected descriptor's entry goes to: the one it names, but from a virtual function only
its own, so that no act of another's is seen there (R396 to R398, log entry 86). -/
def State.rejectPart (s : State) (f named : Nat) : Nat := if f = 0 then named else (s.fn f).part.toNat

/-- Reject descriptors at the front of a queue that break R410 (R412); ACCESS_VIOLATION to an unbound VF
(R405), STATE_ILLEGAL in recovery mode (R428). -/
def State.settle (s : State) (f q : Nat) : Nat → State
  | 0 => s
  | n + 1 =>
    match (s.queue f q).ring with
    | [] => s
    | d :: _ =>
      if s.canTake f q && !descOk d then
        let c : CmdRef := { fn := f, q := q, cid := d.extractLsb' 16 16, code := d.toNat % 256 }
        let s1 := s.takeDesc f q
        let s2 := if s.mod.recovery then s1.complete c scIllegal 0 0
          else if s.unbound f then s1.complete c scAccess 0 0
          else s1.reject c (s.rejectPart f (bits d.toNat 39 32))
        s2.settle f q n
      else s

/-- Reject every descriptor that breaks R410 at the front of a queue. -/
def State.settleQueue (s : State) (f q : Nat) : State := s.settle f q (s.queue f q).ring.length

/-- Is this descriptor at the front of its queue, to be taken now? A command taken after a SCRUB of its
partition starts only when the SCRUB has completed (R395). -/
def State.takes (s : State) (h : CmdHdr) (d : BitVec 512) : Bool :=
  s.canTake h.fn h.q && descOk d && decide (h.part < 256)
    && (match (s.queue h.fn h.q).ring with
      | [] => false
      | r :: _ => maskHost r == maskHost d)
    && (d.toNat % 256 == 0x0D || (s.cus h.part).scrub.isNone)

/-- Table 5.10: is a command legal in a partition's state? `resume` is the RESUME flag. While a context
switch runs, only four are (R152). -/
def Part.legal (x : Part) (code : Nat) (resume : Bool) : Bool :=
  if x.switching.isSome then code == 0x00 || code == 0x07 || code == 0x08 || code == 0x0A
  else
    match code with
    | 0x01 => if x.st = .paused then resume
              else (decide (x.st = .idle) || decide (x.st = .loaded)) && !resume
    | 0x02 => decide (x.st = .loaded)
    | 0x03 => decide (x.st = .running) && x.pause.isNone
    | 0x04 => decide (x.st = .paused) && x.reason != 1
    | 0x05 => decide (x.st ≠ .idle)
    | 0x06 => decide (x.st = .loaded) || decide (x.st = .running) || decide (x.st = .paused)
    | 0x0B => decide (x.st = .idle) || decide (x.st = .loaded)
    | 0x0C => decide (x.st = .idle)
    | _ => true

/-- Take a command whose descriptor is at the front of its queue, and judge it (R148, R149, R405, R428);
`act` is its effect once it is legal. -/
def State.hostCmd (s : State) (h : CmdHdr) (code flags args : Nat) (act : State → CmdRef → State) : State :=
  if s.takes h (descOf h code flags args) then
    let c := CmdHdr.ref h code
    let s1 := s.takeDesc h.fn h.q
    let s2 :=
      if s.mod.recovery then s1.complete c scIllegal 0 0
      else if s.unbound h.fn then s1.complete c scAccess 0 0
      else if !s.exists_ h.part then s1.reject c (s.rejectPart h.fn h.part)
      else if h.fn ≠ 0 ∧ (s.fn h.fn).part.toNat ≠ h.part then s1.complete c scAccess 0 0
      else if (s.part h.part).legal code (bitAt flags 1) then act s1 c
      else s1.reject c h.part
    s2.settleQueue h.fn h.q
  else s

/-! The commands. -/

/-- NOP (Table 14.5). -/
def execCmdNop (h : CmdHdr) (s : State) : Host.Outcome State Fault Refusal :=
  .next (s.hostCmd h 0x00 0 0 (fun s c => s.complete c scOk 0 0))

/-- LOAD_ITINERARY (R133, R161, R395): CLEAN is cleared; RESULT0 is FAMILY. -/
def execLoadItinerary (h : CmdHdr) (image : BitVec 48) (resume : Bool) (s : State) :
    Host.Outcome State Fault Refusal :=
  .next (s.hostCmd h 0x01 (2 * b2n resume) image.toNat (fun s c =>
    let r := (s.unclean h.part).load image.toNat h.part resume
    r.1.complete c r.2 (if r.2 = scOk then s.imgFamily image.toNat else 0) 0))

/-- The used cores issue from their load-time values, which START snapshots as a replay point (R154); the
tallies of every core of the partition start again (R438). -/
def State.startCores (s : State) (q : Nat) : State :=
  let s1 := eachDo (s.physOfPart q) (fun p t =>
    (t.clearTallies p).modCore p (fun c => { c with tallySeq := c.tallySeq + 1 })) s
  eachDo (s.part q).usedCores (fun l t =>
    match t.physOf l with
    | none => t
    | some p =>
      let t1 := t.modCore p (fun c =>
        { c with st := .running, wait := .none, pc := 0, loops := [] })
      let snap := (t1.core p).snapshot
      t1.modPart q (fun x => { x with snapshots := tabSet x.snapshots l snap })) s1

/-- START (R151, R154). -/
def State.startPart (s : State) (q : Nat) (c : CmdRef) : State :=
  let s1 := s.modPart q (fun x =>
    let gens := x.ms.objs.map (fun e => (e.1, e.2.gen))
    { x with start := some c, snapshots := [], pendSnaps := [], rpStart := true, rpValid := false,
             rpMid := 0, rpVr := false, rpTries := 0, rpGen := 0, rpTime := s.now, rpGens := gens,
             heldCores := [], fromJob := false })
  ((s1.modConvoy q (fun x => { x with rpEpoch := x.epoch })).startCores q).setPartSt q .running 0 0

/-- START (R151): it completes when the partition leaves RUNNING for good. -/
def execStart (h : CmdHdr) (s : State) : Host.Outcome State Fault Refusal :=
  .next (s.hostCmd h 0x02 0 0 (fun s c => s.startPart h.part c))

/-- PAUSE (R151): pending until the partition's next milestone release. -/
def execPause (h : CmdHdr) (s : State) : Host.Outcome State Fault Refusal :=
  .next (s.hostCmd h 0x03 0 0 (fun s c => s.modPart h.part (fun x => { x with pause := some c })))

/-- Cores of a variant or of a finished recall that have not run issue now (R161). -/
def State.runLoaded (s : State) (q : Nat) : State :=
  eachDo (s.usedPhys q) (fun p t =>
    t.modCore p (fun c => if c.st = .loaded then { c with st := .running } else c)) s

/-- RESUME (R148, R181): RUNNING, the hold is withdrawn, and the held cores go on. -/
def execResume (h : CmdHdr) (s : State) : Host.Outcome State Fault Refusal :=
  .next (s.hostCmd h 0x04 0 0 (fun s c =>
    let q := h.part
    (((s.setPartSt q .running 0 0).runLoaded q).msHold q false |>.wakeHeld q).complete c scOk 0 0))

/-- STOP (R152): a context switch; the command completes when it ends. -/
def execStop (h : CmdHdr) (s : State) : Host.Outcome State Fault Refusal :=
  .next (s.hostCmd h 0x05 0 0 (fun s c => s.beginSwitch h.part (.stop c)))

/-- The end of a context switch, and the completion of the STOP that began it (R152). A partition that a manifest
reassigns goes on with the steps of Table 13.12. -/
def State.switchDone (s : State) (q : Nat) : State :=
  match (s.part q).switching with
  | some .held => s
  | some cause =>
    let s1 := s.finishSwitch q
    let s2 := if s1.mod.taking.contains q then s1.modPart q (fun x => { x with switching := some .held }) else s1
    match cause with
    | .stop c => s2.complete c scOk 0 0
    | _ => s2
  | none => s

/-- CONTEXT_SWITCH_DONE (R152, Table 5.11): the recall has ended, and the phases after it. -/
def execContextSwitchDone (part : Nat) (s : State) : Host.Outcome State Fault Refusal :=
  .next (if s.clocked ∧ part < 16 ∧ s.recalled part then s.switchDone part else s)

/-- RECOVERY_RECALL_DONE (R157): the recall of a recovery has ended; steps 3 to 5. -/
def execRecoveryRecallDone (part : Nat) (s : State) : Host.Outcome State Fault Refusal :=
  .next (match (s.part part).recovery with
    | some r =>
      if s.clocked ∧ r.recalled = false ∧ s.localsDone part then s.finishRecall part r else s
    | none => s)

/-- POST_TOKEN (R148, R143): N tokens on a depot buffer of the partition. -/
def execPostToken (h : CmdHdr) (die : BitVec 4) (buf n : BitVec 8) (s : State) :
    Host.Outcome State Fault Refusal :=
  .next (s.hostCmd h 0x06 0 (die.toNat + 256 * buf.toNat + 65536 * n.toNat) (fun s c =>
    match (s.die die.toNat).dbufs.find? (fun e => e.1 == buf.toNat && e.2.owner == h.part) with
    | none => s.reject c h.part
    | some _ =>
      match s.post 0 (.depot die.toNat buf.toNat) n.toNat with
      | some t => t.complete c scOk 0 0
      | none => s.complete c scIllegal 0 0))

end Sys2Proof.Machine
end

