-- ==== Sys2Proof/Machine/HostData.lean ====
section
/-!
DEFINITION. The host commands COPY_IN, COPY_OUT, REGISTER_REGION, REVOKE_REGION, INSTALL_KEY and SCRUB
(R198, R207, R212, R213, R271, R273, R386 to R389, R395).
-/

namespace Sys2Proof.Machine

/-! Copies. -/

/-- The arguments of a copy's descriptor (Table 14.5). -/
def copyArgs (host : DWord) (dev : BitVec 48) (len : Word) (slot : BitVec 6) (stream : Nat) : Nat :=
  host.toNat + 2 ^ 64 * dev.toNat + 2 ^ 128 * len.toNat + 2 ^ 160 * slot.toNat + 2 ^ 192 * stream

/-- A range cut at the 1,024-byte lines of the cistern (R192); each piece lies in one channel, and in one
stack. -/
def lineSegs : Nat → Nat → Nat → List (Nat × Nat)
  | 0, _, _ => []
  | k + 1, a, n =>
    if n = 0 then []
    else
      let m := min n (1024 - a % 1024)
      (a, m) :: lineSegs k (a + m) (n - m)

/-- The pieces of [a, a + n). -/
def State.lines (a n : Nat) : List (Nat × Nat) := lineSegs (n / 1024 + 2) a n

/-- Does a piece lie on a FAILED channel or stack (R207, R209)? -/
def State.lineFailed (s : State) (r : Nat × Nat) : Bool := (s.failedChan r.1 r.2).isSome || s.failedStack r.1 r.2

/-- What a copy in has done: the healthy bytes, whether a FAILED unit was met (R207), and whether a partial
word could not be read (R212). -/
structure CopyDone where
  moved : Nat := 0
  failed : Bool := false
  bad : Bool := false
  deriving DecidableEq, Repr

/-- Write host data: healthy bytes are written (R207, R212). -/
def State.copyWrite (s : State) (a : Nat) (data : List Byte) : State × CopyDone :=
  (State.lines a data.length).foldl (fun acc r =>
    if acc.1.lineFailed r then (acc.1, { acc.2 with failed := true })
    else
      let w := acc.1.writeWords 0 r.1 ((data.drop (r.1 - a)).take r.2)
      (w.1, { acc.2 with moved := acc.2.moved + r.2, bad := acc.2.bad || w.2 })) (s, {})

/-- A copy loses a flit on the causeway (Table 7.14). -/
def State.copyLost (s : State) (c : CmdRef) : Bool := s.lostCopies.contains (c.fn, c.q, c.cid)

def State.dropLost (s : State) (c : CmdRef) : State :=
  { s with lostCopies := s.lostCopies.filter (· != (c.fn, c.q, c.cid)) }

/-- Complete a copy in: OK with the bytes moved; UNCORRECTABLE otherwise. How many bytes it counts is not
stated when a partial word or a flit was lost (log entry 33). -/
def State.endCopyIn (s : State) (c : CmdRef) (d : CopyDone) : State :=
  if d.bad then s.useFree.complete c scUncorr s.freeVal 0
  else s.complete c (if d.failed then scUncorr else scOk) (w64 d.moved) 0

/-- Write plain data, or the part of it that a free value picks when a flit is lost. -/
def State.copyData (s : State) (c : CmdRef) (a : Nat) (data : List Byte) : State × CopyDone :=
  if s.copyLost c then (s.landSome 0 [(a, data)], { bad := true })
  else s.copyWrite a data

/-- The chunks of R388 that a transfer of `len` bytes has. -/
def chunkCount (len : Nat) : Nat := (len + 65535) / 65536

/-- Plaintext bytes of chunk i of a transfer of `len` bytes. -/
def plainLen (len i : Nat) : Nat := min 65536 (len - 65536 * i)

/-- Are these chunks of the lengths that the transfer has? -/
def chunksFit (len : Nat) (cs : List Chunk) : Bool :=
  cs.length == chunkCount len && cs.zipIdx.all (fun c => c.1.data.length == plainLen len c.2)

/-- The nonce of a chunk (R388). -/
def chunkNonce (stream i : Nat) : BitVec 96 := BitVec.ofNat 96 (2 ^ 64 * stream + i)

/-- The AAD of a chunk (R388); `out` is the direction. -/
def chunkAad (stream i : Nat) (last out : Bool) : List Byte :=
  leBytes 4 stream ++ leBytes 8 i ++ [BitVec.ofNat 8 (b2n last + 2 * b2n out), 0, 0, 0]

/-- Does the tag of inbound chunk i verify (R388)? LAST and the direction are in the AAD, so that a chunk made as
the last verifies only where the command ends. -/
def chunkVerifies (x : Chunk) (key : BitVec 256) (stream i : Nat) (last : Bool) : Bool :=
  x.tag == Config.gcmTag key (chunkNonce stream i) (chunkAad stream i last false) x.data

/-- Write the chunks in order from chunk `i` on, each after its tag verifies under the slot's key, until one is refused
(R388): the last carries LAST, and no other. True when all are written. -/
def State.copyChunks (s : State) (c : CmdRef) (key : BitVec 256) (stream : Nat) (a i : Nat) :
    List Chunk → CopyDone → State × CopyDone × Bool
  | [], d => (s, d, true)
  | x :: rest, d =>
    if chunkVerifies x key stream i rest.isEmpty then
      let r := s.copyData c a (gcmCrypt key (chunkNonce stream i) x.data)
      r.1.copyChunks c key stream (a + x.data.length) (i + 1) rest
        { moved := d.moved + r.2.moved, failed := d.failed || r.2.failed, bad := d.bad || r.2.bad }
    else (s, d, false)

/-- A copy without PROTECT of a PROTECTED partition, or a COPY_OUT under a WEIGHT slot (R389). -/
def State.protectRefuse (s : State) (q : Nat) (c : CmdRef) : State :=
  (s.logCus 0x020A scAccess (some q) []).complete c scAccess 0 0

/-- May the slot decrypt a transfer in (R388)? -/
def State.slotIn (s : State) (q i : Nat) : Bool :=
  (s.slotsOf q).contains i
    && (decide ((s.keySlot i).kind = .host) || decide ((s.keySlot i).kind = .weight))

/-- COPY_IN (R198, R207, R388, R389, R395). -/
def execCopyIn (h : CmdHdr) (host : DWord) (dev : BitVec 48) (len : Word) (protect : Bool) (slot : BitVec 6)
    (stream : Word) (data : List Byte) (chunks : List Chunk) (s : State) :
    Host.Outcome State Fault Refusal :=
  .next (
    let n := len.toNat
    let q := h.part
    if (if protect then chunksFit n chunks else data.length == n) then
      s.hostCmd h 0x07 (b2n protect) (copyArgs host dev len slot stream.toNat) (fun t c =>
        let s := t.unclean q
        if !protect && (s.cus q).protected_ then s.protectRefuse q c
        else if (protect && !s.slotIn q slot.toNat) || !s.admitted q false true dev.toNat n then
          s.complete c scAccess 0 0
        else if !protect then
          let r := s.copyData c dev.toNat data
          (r.1.dropLost c).endCopyIn c r.2
        else
          let r := s.copyChunks c (s.keySlot slot.toNat).keyA stream.toNat dev.toNat 0 chunks {}
          let t := r.1.dropLost c
          if r.2.2 then t.endCopyIn c r.2.1
          else (t.logCus 0x0209 scAccess (some q) []).complete c scAccess (w64 r.2.1.moved) 0)
    else s)

/-- The bytes of a range as free values: what a transfer that failed has written (log entry 33). -/
def State.freeBytes (s : State) : Nat → State × List Byte
  | 0 => (s, [])
  | n + 1 =>
    let r := s.useFree.freeBytes n
    (r.1, s.freeVal.setWidth 8 :: r.2)

/-- A chunk out as it lies in host memory: ciphertext, then tag (R388). -/
def sealChunk (key : BitVec 256) (stream i : Nat) (last : Bool) (d : List Byte) : List Byte :=
  let x := gcmCrypt key (chunkNonce stream i) d
  x ++ beBytes 16 (Config.gcmTag key (chunkNonce stream i) (chunkAad stream i last true) x).toNat

/-- The chunks of a protected transfer out. -/
def sealAll (key : BitVec 256) (stream : Nat) : Nat → List Byte → Nat → List Byte
  | 0, _, _ => []
  | k + 1, d, i =>
    sealChunk key stream i (decide (d.length ≤ 65536)) (d.take 65536) ++ sealAll key stream k (d.drop 65536) (i + 1)

/-- What a copy out puts into host memory: the bytes, sealed under a slot's key where it has one. -/
def outBytes (key : Option (BitVec 256 × Nat)) (d : List Byte) : List Byte :=
  match key with
  | some k => sealAll k.1 k.2 (chunkCount d.length) d 0
  | none => d

/-- Write the pieces that were read: all of them without PROTECT, at their places; with it the transfer as a
whole. -/
def State.copyOutHealthy (s : State) (host a : Nat) (ok : List (Nat × Nat)) : State :=
  eachDo ok (fun r t => t.hostWrite (host + (r.1 - a)) (s.bytesAt 0 r.1 r.2)) s

/-- Read and send `n` bytes from `a` (R207, R213): the completion's status and bytes moved. -/
def State.copyOut (s : State) (c : CmdRef) (host a n : Nat) (key : Option (BitVec 256 × Nat)) : State × Nat × DWord :=
  let ls := State.lines a n
  let ok := ls.filter (fun r => !s.lineFailed r)
  let len := (outBytes key (s.bytesAt 0 a n)).length
  let s1 := s.touchRead 0 ok
  if s.copyLost c || s.uncorrIn 0 ok || (key.isSome && ok.length != ls.length) then
    let r := s1.freeBytes len
    let t := (r.1.hostWrite host r.2).dropLost c
    (t.useFree, scUncorr, t.freeVal)
  else if ok.length = ls.length then (s1.hostWrite host (outBytes key (s.bytesAt 0 a n)), scOk, w64 n)
  else (s1.copyOutHealthy host a ok, scUncorr, w64 ((ok.map Prod.snd).foldl (· + ·) 0))

/-- COPY_OUT with PROTECT (R388, R389): the stream number comes from the slot's counter. -/
def State.copyOutSealed (s : State) (q : Nat) (c : CmdRef) (host a n i : Nat) : State :=
  let k := s.keySlot i
  if (s.slotsOf q).contains i && decide (k.kind = .weight) then s.protectRefuse q c
  else if !((s.slotsOf q).contains i && decide (k.kind = .host)) || !s.admitted q false false a n then
    s.complete c scAccess 0 0
  else if 0xFFFFFFFF < k.stream then s.complete c scIllegal 0 0
  else
    let r := (s.setKeySlot i { k with stream := k.stream + 1 }).copyOut c host a n (some (k.keyA, k.stream))
    r.1.complete c r.2.1 r.2.2 (w64 k.stream)

/-- COPY_OUT (R198, R207, R213, R388, R389). -/
def execCopyOut (h : CmdHdr) (host : DWord) (dev : BitVec 48) (len : Word) (protect : Bool)
    (slot : BitVec 6) (s : State) : Host.Outcome State Fault Refusal :=
  .next (s.hostCmd h 0x08 (b2n protect) (copyArgs host dev len slot 0) (fun s c =>
    let n := len.toNat
    let q := h.part
    if protect then s.copyOutSealed q c host.toNat dev.toNat n slot.toNat
    else if (s.cus q).protected_ then s.protectRefuse q c
    else if !s.admitted q false false dev.toNat n then s.complete c scAccess 0 0
    else
      let r := s.copyOut c host.toNat dev.toNat n none
      r.1.complete c r.2.1 r.2.2 0))

/-! Regions. -/

/-- A code of the Porters that concerns a region, with PORTER_MISSBUF of LN0 (R283, log entry 34). -/
def State.logRegion (s : State) (q code : Nat) (rkey : Word) : State :=
  s.logAt .serai code scOk (some q) [rkey] [w32 (s.porter 0).used]

/-- Is a range within one window of the partition (R197, R271)? -/
def State.oneWindow (s : State) (q base size : Nat) : Bool :=
  (tierOf base == .hbm || tierOf base == .cistern || tierOf base == .depot) && s.inWindow q base size

/-- Is an index in the partition's range (R270)? -/
def State.regionOwned (s : State) (q i : Nat) : Bool :=
  match (s.part q).cfg with
  | some c => decide (c.regBase ≤ i) && decide (i < c.regBase + c.regCount)
  | none => false

/-- REGISTER_REGION (R271). -/
def execRegisterRegion (h : CmdHdr) (rkey : Word) (base size : BitVec 48) (rights : BitVec 3)
    (slot : BitVec 6) (s : State) : Host.Outcome State Fault Refusal :=
  .next (s.hostCmd h 0x09 0
    (rkey.toNat + 2 ^ 64 * base.toNat + 2 ^ 128 * size.toNat + 2 ^ 192 * rights.toNat + 2 ^ 200 * slot.toNat)
    (fun s c =>
      let q := h.part
      let i := rkey.toNat % 4096
      if !s.regionOwned q i then s.complete c scAccess 0 0
      else if (s.region i).st ≠ .invalid then s.reject c q
      else if rkey.toNat / 4096 = 0 ∨ base.toNat % 4096 ≠ 0 ∨ size.toNat % 4096 ≠ 0 ∨ size = 0 ∨ rights = 0
          ∨ s.linkSlot q slot.toNat = false then s.complete c scIllegal 0 0
      else if !s.oneWindow q base.toNat size.toNat then s.complete c scAccess 0 0
      else
        let r : Region :=
          { st := .valid, tag := (rkey >>> 12).setWidth 20, part := BitVec.ofNat 4 q, base := base.toNat,
            size := size.toNat, rights := rights, keyslot := slot }
        ((s.modRegion i (fun _ => r)).complete c scOk 0 0).logRegion q 0x2107 rkey))

/-- The frames of responses of region `i` in a queue pair's queue become skipped PSNs, one run for each
response (R273). `n` frames of the response in hand have been passed. -/
def skipRuns (i : Nat) : Nat → List ToSend → List ToSend
  | _, [] => []
  | n, e :: rest =>
    match e with
    | .resp j _ _ _ _ _ last _ =>
      if j = i then
        if last then .skip i (n + 1) 3 :: skipRuns i 0 rest else skipRuns i (n + 1) rest
      else e :: skipRuns i n rest
    | _ => e :: skipRuns i n rest

/-- Responses of region `i` that have not been read are not sent (R273). -/
def State.skipResponses (s : State) (i : Nat) : State :=
  eachDo ((s.qps.filter (fun e => e.2.queued.any (ToSend.ofRegion i))).map Prod.fst) (fun k t =>
    (t.modQp k (fun x => { x with queued := skipRuns i 0 x.queued })).pumpQp k) s

/-- REVOKE_REGION (R273): the entry is DRAINING from now on; responses whose data has not been read are not
sent. It completes at REGION_DRAINED. -/
def execRevokeRegion (h : CmdHdr) (rkey : Word) (s : State) : Host.Outcome State Fault Refusal :=
  .next (s.hostCmd h 0x0A 0 rkey.toNat (fun s c =>
    let q := h.part
    let i := rkey.toNat % 4096
    if !s.regionOwned q i then s.complete c scAccess 0 0
    else if (s.region i).st ≠ .valid then s.reject c q
    else if (s.region i).tag.toNat ≠ rkey.toNat / 4096 then s.complete c scIllegal 0 0
    else (s.modRegion i (fun r => { r with st := .draining, revoke := some c })).skipResponses i))

/-- REGION_DRAINED (R273, R274): nothing of the region is in flight; it is INVALID, the command that revoked
it completes, code 0x2108. -/
def execRegionDrained (idx : Nat) (s : State) : Host.Outcome State Fault Refusal :=
  .next (
    let r := s.region idx
    if s.clocked ∧ r.st = .draining ∧ r.inflight = 0 then
      let s1 := s.modRegion idx (fun r => { r with st := .invalid, revoke := none })
      let s2 := match r.revoke with
        | some c => s1.complete c scOk 0 0
        | none => s1
      s2.logRegion r.part.toNat 0x2108 (w32 (r.tag.toNat * 4096 + idx))
    else s)

/-! Keys and scrubs. -/

/-- INSTALL_KEY (R386). The blob is what lies at HOST. -/
def execInstallKey (h : CmdHdr) (blob : KeyBlob) (s : State) : Host.Outcome State Fault Refusal :=
  .next (s.hostCmd h 0x0B 0 (2 ^ 64 * (blob.len % 2 ^ 32)) (fun s c =>
    let r := s.takeBlob h.part blob
    r.1.complete c r.2 0 0))

/-- SCRUB (R395): it runs until SCRUB_DONE. -/
def execScrub (h : CmdHdr) (s : State) : Host.Outcome State Fault Refusal :=
  .next (s.hostCmd h 0x0C 0 0 (fun s c =>
    (s.modCus h.part (fun x => { x with scrub := some c })).refreshScrubbing))

end Sys2Proof.Machine
end

