-- ==== Sys2Proof/Machine/Queues.lean ====
section
/-!
DEFINITION. Queues, doorbells, interrupts, held notes and function-level resets (R405 to R415).
-/

namespace Sys2Proof.Machine

/-! QUEUE_CTL and QUEUE_STAT (Table 14.14). -/

/-- The fields of QUEUE_CTL but EN. -/
def Queue.ctl (y : Queue) (v : Word) : Queue :=
  { y with haltOnReject := v.getLsbD 1, ien := v.getLsbD 2, coalUs := (v >>> 8).setWidth 8 }

/-- A queue that is enabled starts with empty rings in their first pass, and without ERROR (R408, R411,
R413; log entry 35). -/
def Queue.enable (y : Queue) : Queue :=
  ({ y with en := true, error := false, sqHead := 0, sqTail := 0, cqHead := 0, cqTail := 0, ring := [],
            phase := true, msiPending := false, rxBufs := [] }).refresh

/-- QUEUE_ENABLE (R408): discarded for a queue beyond QMAX or a LOG2 outside 4 to 16. -/
def execQueueEnable (fn q : Nat) (v : Word) (s : State) : Host.Outcome State Fault Refusal :=
  .next (if v.getLsbD 0 ∧ q < 256 then s.onBar fn (.fnBlock fn) (fun s =>
      let y := s.queue fn q
      if y.en then s.setQueue fn q (y.ctl v)
      else if q < (s.fn fn).qmax.toNat ∧ 4 ≤ y.log2.toNat ∧ y.log2.toNat ≤ 16 then
        let s1 := s.setQueue fn q (y.ctl v).enable
        if y.error then s1.msix0 fn else s1
      else s)
    else s)

/-- QUEUE_DISABLE (R408): fetching stops; commands taken run to their end. -/
def execQueueDisable (fn q : Nat) (v : Word) (s : State) : Host.Outcome State Fault Refusal :=
  .next (if v.getLsbD 0 = false ∧ q < 256 then s.onBar fn (.fnBlock fn) (fun s =>
      s.modQueue fn q (fun y => ({ y.ctl v with en := false }).refresh))
    else s)

/-- QUEUE_HALT_CLEAR (R412): the queue takes descriptors again. -/
def execQueueHaltClear (fn q : Nat) (s : State) : Host.Outcome State Fault Refusal :=
  .next (if q < 256 then s.onBar fn (.fnBlock fn) (fun s =>
      if (s.queue fn q).halted then
        ((s.modQueue fn q (fun y => { y with halted := false })).msix0 fn).settleQueue fn q
      else s)
    else s)

/-! Doorbells (R409). -/

/-- Does BAR2 of a function answer? -/
def State.bar2 (s : State) (fn q : Nat) : Bool := s.barUp && decide (fn ≤ 16) && decide (q < 256)

/-- DOORBELL_SQ_TAIL (R409): the ring then holds `descs`, from its head on. A tail outside the ring holds
more than the ring can (log entry 36). -/
def execDoorbellSqTail (fn q : Nat) (tail : Word) (descs : List (BitVec 512)) (s : State) :
    Host.Outcome State Fault Refusal :=
  .next (
    let y := s.queue fn q
    if s.bar2 fn q ∧ y.en ∧ y.error = false then
      if y.size ≤ tail.toNat then s.queueError fn q
      else if descs.length = (tail.toNat + y.size - y.sqHead) % y.size then
        (s.modQueue fn q (fun y => { y with sqTail := tail.toNat, ring := descs })).settleQueue fn q
      else s
    else s)

/-- DOORBELL_CQ_HEAD (R409, R414): a head that passes the completion tail is an error. A head that leaves
entries unread asks for a message again. -/
def execDoorbellCqHead (fn q : Nat) (head : Word) (s : State) : Host.Outcome State Fault Refusal :=
  .next (
    let y := s.queue fn q
    if s.bar2 fn q ∧ y.en ∧ y.error = false then
      if y.size ≤ head.toNat ∨ y.unread < (head.toNat + y.size - y.cqHead) % y.size then s.queueError fn q
      else
        let s1 := s.modQueue fn q (fun y => { y with cqHead := head.toNat })
        let s2 := if 0 < (s1.queue fn q).unread then s1.cqInterrupt fn q else s1
        s2.settleQueue fn q
    else s)

/-- QUEUE_RING_ERROR (R413): a ring read returned an error, or the host did not accept a ring write. -/
def execQueueRingError (fn q : Nat) (s : State) : Host.Outcome State Fault Refusal :=
  .next (
    let y := s.queue fn q
    if s.bar2 fn q ∧ y.en ∧ y.error = false then s.queueError fn q else s)

/-- MSIX_COALESCE_EXPIRY (R414): the spacing has passed, and the message that waits goes out. -/
def execMsixCoalesceExpiry (fn q : Nat) (s : State) : Host.Outcome State Fault Refusal :=
  .next (
    let y := s.queue fn q
    if s.barUp ∧ y.msiPending then
      (s.setQueue fn q { y with lastMsi := some s.now, msiPending := false }).msix fn (q + 1)
    else s)

/-- EVENT_DELIVER_DEFERRED (R415): the oldest held entry is written once its queue has a free slot, or dropped
when its queue takes none any more. -/
def execEventDeliverDeferred (fn : Nat) (s : State) : Host.Outcome State Fault Refusal :=
  .next (match (if s.barUp then (s.fn fn).held else []) with
    | [] => s
    | e :: rest =>
      let y := s.queue fn e.queue
      let s1 := s.modFn fn (fun x => { x with held := rest })
      if !y.takesNotes then s1.dropNote fn e.queue
      else if 0 < y.freeSlots then s1.cqWrite fn e.queue e
      else s)

/-! Function-level resets (R407). -/

/-- A function's queues are disabled and its held events discarded. -/
def Fn.reset (x : Fn) : Fn :=
  let qs := x.queues.map (fun e => (e.1, ({ e.2 with en := false, msiPending := false }).refresh))
  { x with queues := qs, held := [] }

/-- A partition is stopped as STOP does (R152), unless it is IDLE or already switching. -/
def State.stopPart (s : State) (q : Nat) (cause : SwitchCause) : State :=
  let x := s.part q
  if x.cfg.isSome ∧ x.st ≠ .idle ∧ x.switching.isNone then s.beginSwitch q cause else s

/-- FLR_VF (R407): code 0x0305. -/
def execFlrVf (v : Nat) (s : State) : Host.Outcome State Fault Refusal :=
  .next (if s.barUp ∧ 1 ≤ v ∧ v ≤ 16 then
      let x := s.fn v
      let s1 := if x.bound ∧ s.clocked then s.stopPart x.part.toNat .flr else s
      (s1.modFn v Fn.reset).logPcie 0x0305 scOk v 0 []
    else s)

/-- The effect of a function-level reset of the PF (R407): every partition and every function. -/
def State.resetPf (s : State) : State :=
  let s1 := if s.clocked then eachDo (List.range 16) (fun q t => t.stopPart q .flr) s else s
  (eachDo (List.range 17) (fun f t => t.modFn f Fn.reset) s1).logPcie 0x0305 scOk 0 0 []

/-- FLR_PF (R407). -/
def execFlrPf (s : State) : Host.Outcome State Fault Refusal :=
  .next (if s.barUp then s.resetPf else s)

end Sys2Proof.Machine
end

