-- ==== Sys2Proof/Machine/Nic.lean ====
section
/-!
DEFINITION. The NIC rings: sends, segmentation, posted buffers and received frames (R246, R247, R416, R417).
-/

namespace Sys2Proof.Machine

/-! Frames in network order (R8). -/

/-- Bytes of a frame replaced from an offset on. -/
def patch (d : List Byte) (off : Nat) (v : List Byte) : List Byte :=
  d.take off ++ v ++ d.drop (off + v.length)

/-! Send descriptors (R416). -/

structure NicDesc where
  addr : Nat
  len : Nat
  mss : Nat
  link : Nat
  insertTag : Bool
  hdr : Nat
  cid : BitVec 16
  deriving DecidableEq, Repr

def nicDesc (d : BitVec 512) : NicDesc :=
  let v := d.toNat
  { addr := bits v 63 0, len := bits v 95 64, mss := bits v 111 96, link := bits v 117 112,
    insertTag := bitAt v 120, hdr := bits v 143 128, cid := BitVec.ofNat 16 (bits v 159 144) }

/-- The headers of a frame (R247): where IP begins, is it IPv6, and the length of the TCP header; none when
they are not Ethernet, IPv4 without options or IPv6 without extension headers, then TCP. -/
structure TcpHdr where
  ip : Nat
  v6 : Bool
  tcpLen : Nat
  deriving DecidableEq, Repr

def TcpHdr.tcp (h : TcpHdr) : Nat := h.ip + (if h.v6 then 40 else 20)

/-- Read the headers of a frame that carries a tag or not. -/
def parseTcp (d : List Byte) (tagged : Bool) : Option TcpHdr :=
  let e := if tagged then 16 else 12
  let typ := netNat d e 2
  let ip := e + 2
  let v6 := typ == 0x86DD
  let tcp := ip + (if v6 then 40 else 20)
  let ok := if v6 then netNat d ip 1 / 16 == 6 && netNat d (ip + 6) 1 == 6
    else typ == 0x0800 && netNat d ip 1 == 0x45 && netNat d (ip + 9) 1 == 6
  let n := netNat d (tcp + 12) 1 / 16 * 4
  if ok ∧ 20 ≤ n ∧ tcp + n ≤ d.length then some { ip := ip, v6 := v6, tcpLen := n } else none

/-- The tag that the ring gives a frame (R227, R416): PCP is the traffic class, DEI zero. -/
def tagFrame (d : List Byte) (insert : Bool) (tc vid : Nat) : List Byte :=
  if insert then d.take 12 ++ beBytes 2 0x8100 ++ beBytes 2 (tc * 8192 + vid) ++ d.drop 12
  else patch d 14 (beBytes 2 (tc * 8192 + netNat d 14 2 % 4096))

/-- Segment j of a send, before its tag (Table 8.6). -/
def tcpSegment (h : TcpHdr) (hdr payload : List Byte) (mss j : Nat) : List Byte :=
  let part := (payload.drop (mss * j)).take mss
  let last := decide (payload.length ≤ mss * (j + 1))
  let len := h.tcpLen + part.length
  let tcp := h.tcp
  let flags := (netNat hdr (tcp + 13) 1)
  let fl1 := if last then flags else flags - (b2n (bitAt flags 0) + 8 * b2n (bitAt flags 3))
  let fl2 := if j = 0 then fl1 else fl1 - 128 * b2n (bitAt fl1 7)
  let h1 := patch hdr (tcp + 4) (beBytes 4 ((netNat hdr (tcp + 4) 4 + j * mss) % 2 ^ 32))
  let h2 := patch (patch h1 (tcp + 13) [BitVec.ofNat 8 fl2]) (tcp + 16) [0, 0]
  let h3 := if h.v6 then patch h2 (h.ip + 4) (beBytes 2 len)
    else
      let x := patch (patch (patch h2 (h.ip + 2) (beBytes 2 (20 + len))) (h.ip + 4)
        (beBytes 2 ((netNat hdr (h.ip + 4) 2 + j) % 65536))) (h.ip + 10) [0, 0]
      patch x (h.ip + 10) (beBytes 2 (checksum (sum16 ((x.drop h.ip).take 20))))
  let addrs := if h.v6 then (h3.drop (h.ip + 8)).take 32 else (h3.drop (h.ip + 12)).take 8
  let pseudo := sum16 addrs + 6 + len
  patch h3 (tcp + 16) (beBytes 2 (checksum (pseudo + sum16 (h3.drop tcp) + sum16 part))) ++ part

/-- The frames of an accepted send with segmentation (R247). -/
def tcpSegments (h : TcpHdr) (d : NicDesc) (data : List Byte) : List (List Byte) :=
  let payload := data.drop d.hdr
  (List.range ((payload.length + d.mss - 1) / d.mss)).map (tcpSegment h (data.take d.hdr) payload d.mss)

/-- Does the tag rule of R416 hold? -/
def NicDesc.tagOk (d : NicDesc) (data : List Byte) : Bool :=
  if d.insertTag then !isTagged data else isTagged data && netNat data 16 2 != 0x8100

/-- The length rule of R416 without segmentation. -/
def NicDesc.lenOk (d : NicDesc) : Bool :=
  if d.insertTag then decide (56 ≤ d.len) && decide (d.len ≤ 9208) else decide (60 ≤ d.len) && decide (d.len ≤ 9212)

/-- The headers of a send that R247 accepts. -/
def NicDesc.segment (d : NicDesc) (data : List Byte) : Option TcpHdr :=
  match parseTcp data (!d.insertTag) with
  | some h =>
    if h.tcp + h.tcpLen = d.hdr ∧ d.hdr ≤ 256 ∧ d.len - d.hdr ≤ 262144 ∧ 64 ≤ d.mss ∧ d.mss ≤ 9000
        ∧ d.hdr + d.mss + (if d.insertTag then 8 else 4) ≤ 9216 ∧ d.tagOk data
    then some h else none
  | none => none

/-- Is the link one that the NIC may send on (R416)? -/
def State.nicLink (s : State) (l : Nat) : Bool :=
  decide (l < 36) && (s.link l).switched && ((s.link l).st == .up || (s.link l).st == .fenced)

/-- Queue the frames of a send on a link, in order; the last one completes the send. -/
def State.nicFrames (s : State) (l tc : Nat) (ref : Nat × Nat × BitVec 16) : List (List Byte) → State
  | [] => s
  | f :: rest =>
    (s.enqueue l tc { s.qframe l (.ether f) with
                      nic := if rest.isEmpty then some ref else none }).nicFrames l tc ref rest

/-- May a NIC ring take a descriptor now, and is this the one at its front? -/
def State.nicTakes (s : State) (fn q : Nat) (kind : BitVec 2) (desc : BitVec 512) : Bool :=
  let y := s.queue fn q
  s.bar2 fn q && decide (s.mod.state = .run ∨ s.mod.state = .ready) && y.en && y.kind == kind && !y.error
    && decide (0 < y.freeSlots) && y.ring.head? == some desc

/-- NIC_SEND_DESCRIPTOR (R247, R416): `data` is the frame at the descriptor's host address, LEN bytes. -/
def execNicSendDescriptor (fn q : Nat) (desc : BitVec 512) (data : List Byte) (s : State) :
    Host.Outcome State Fault Refusal :=
  .next (
    let d := nicDesc desc
    if s.nicTakes fn q 1 desc ∧ data.length = d.len then
      let tc := (s.queue fn q).tc.toNat
      let vid := (s.link d.link).vid.toNat
      let s1 := s.takeDesc fn q
      let refuse := fun (t : State) => t.completeKind fn q d.cid 3 scIllegal 0 0
      if !s.nicLink d.link then refuse s1
      else if d.mss = 0 then
        if d.lenOk && d.tagOk data then
          s1.nicFrames d.link tc (fn, q, d.cid) [tagFrame data d.insertTag tc vid]
        else refuse s1
      else
        match d.segment data with
        | some h =>
          let fs := (tcpSegments h d data).map (fun f => tagFrame f d.insertTag tc vid)
          if fs.isEmpty then s1.nicSent (some (fn, q, d.cid)) else s1.nicFrames d.link tc (fn, q, d.cid) fs
        | none => refuse (s1.logLink d.link 0x200A scIllegal)
    else s)

/-- NIC_RX_BUFFER_POST (R417): a buffer is posted; one that is too small completes with STATE_ILLEGAL (log
entry 37). -/
def execNicRxBufferPost (fn q : Nat) (desc : BitVec 512) (s : State) : Host.Outcome State Fault Refusal :=
  .next (if s.nicTakes fn q 2 desc then
      let v := desc.toNat
      let b : RxBuf := { addr := w64 (bits v 63 0), size := bits v 95 64, cid := BitVec.ofNat 16 (bits v 111 96) }
      let s1 := s.takeDesc fn q
      if b.size < 9216 then s1.completeKind fn q b.cid 4 scIllegal 0 0
      else s1.modQueue fn q (fun y => { y with rxBufs := y.rxBufs ++ [b] })
    else s)

/-! Received frames (R246, R417). -/

/-- A filter entry's MAC address. -/
def NicMac.addr (m : NicMac) : Nat := m.addrHi.toNat * 2 ^ 32 + m.addrLo.toNat

/-- Does a VF's filter on a link take a frame to this address? -/
def Fn.accepts (x : Fn) (l dst : Nat) : Bool :=
  if dst = 2 ^ 48 - 1 then (tabGet {} x.nic (4 * l) : NicMac).bcast
  else (List.range 4).any (fun i =>
    let m : NicMac := tabGet {} x.nic (4 * l + i)
    m.valid && m.addr == dst)

/-- The VFs that take a frame. -/
def State.nicTakers (s : State) (l dst : Nat) : List Nat :=
  (List.range 17).filter (fun f => f != 0 && (s.fn f).bound && (s.fn f).accepts l dst)

/-- The enabled receive ring of a VF for a link that has a buffer posted. -/
def Fn.rxRing (x : Fn) (l : Nat) : Option Nat :=
  (x.queues.find? (fun e => e.2.en && !e.2.error && e.2.kind == 2 && e.2.link.toNat == l
    && !e.2.rxBufs.isEmpty)).map Prod.fst

/-- Count a NIC frame discarded on a link. -/
def State.nicDrop (s : State) (l : Nat) : State :=
  s.modLink l (fun x => { x with nicDrops := x.nicDrops + 1 })

/-- Deliver a frame without its tag to a VF (R417). -/
def State.nicDeliver (s : State) (f l vid : Nat) (bytes : List Byte) : State :=
  match (s.fn f).rxRing l with
  | none => s.nicDrop l
  | some q =>
    match (s.queue f q).rxBufs with
    | [] => s.nicDrop l
    | b :: rest =>
      let s1 := (s.hostWrite b.addr.toNat bytes).modQueue f q (fun y => { y with rxBufs := rest })
      s1.completeKind f q b.cid 4 scOk (w64 (bytes.length + 65536 * vid + 2 ^ 28 * l)) 0

/-- A frame from a SWITCHED link for the NIC function (R246). -/
def State.nicReceive (s : State) (l : Nat) (bytes : List Byte) : State :=
  let ts := s.nicTakers l (netNat bytes 0 6)
  if ts.isEmpty then s.nicDrop l
  else
    let vid := netNat bytes 14 2 % 4096
    eachDo ts (fun f t => t.nicDeliver f l vid (bytes.take 12 ++ bytes.drop 16)) s

end Sys2Proof.Machine
end

