-- ==== Sys2Proof/Machine/Links.lean ====
section
/-!
DEFINITION. The optical links: bring-up, beacons, control acknowledgements, credits, PFC, forwarding, and
received frames of the host NIC and of ARP and neighbour discovery (R227 to R245, R320).
-/

namespace Sys2Proof.Machine

/-- Do `g` on a link while the module's clocks run; UPLINK follows the links (R353). -/
def State.onLink (s : State) (l : Nat) (ok : Link → Bool) (g : State → State) : State :=
  if s.clocked ∧ l < 36 ∧ ok (s.link l) = true then (g s).refreshUplink else s

def Link.isSt (st : LinkSt) (x : Link) : Bool := decide (x.st = st)

/-- May frames be received: BEACON, UP, FENCED (Table 8.4)? -/
def Link.live (x : Link) : Bool := carriesTime x.st

/-- Does the link send and expect beacons (R237, R238)? -/
def Link.beacons (x : Link) : Bool := x.torus || (x.switched && x.peerValid)

/-- A state of bring-up, with its lasers (Table 8.4). -/
def State.linkTo (s : State) (l : Nat) (st : LinkSt) : State :=
  s.modLink l (fun x => { x with st := st, lasers := true })

/-! MAC_CTL (R236, R239). -/

/-- LINK_ADMIN_DOWN (R239): DISABLED at once. -/
def execLinkAdminDown (fn link : Nat) (s : State) : Host.Outcome State Fault Refusal :=
  .next (s.onBar fn .pf (fun s => s.onLink link (fun _ => true) (fun s =>
    (s.modLink link (fun x => { x with adminUp := false })).linkDisable link)))

/-- A DISABLED link whose role is not UNUSED goes to DOWN when ADMIN_UP is 1 (Table 8.4). -/
def State.enableLink (s : State) (l : Nat) : State :=
  let x := s.link l
  if x.st = .disabled ∧ x.adminUp = true ∧ (x.torus || x.switched) = true then
    s.modLink l (fun x => { x with st := .down })
  else s

/-- LINK_ADMIN_UP (R236). -/
def execLinkAdminUp (fn link : Nat) (s : State) : Host.Outcome State Fault Refusal :=
  .next (s.onBar fn .pf (fun s => s.onLink link (fun _ => true) (fun s =>
    (s.modLink link (fun x => { x with adminUp := true })).enableLink link)))

/-- RETRAIN (R239): DOWN, for a new attempt; discarded while DISABLED. -/
def execRetrain (fn link : Nat) (s : State) : Host.Outcome State Fault Refusal :=
  .next (s.onBar fn .pf (fun s => s.onLink link (fun x => !x.isSt .disabled) (fun s => s.linkDown link 0)))

/-! Bring-up (R236, Table 8.4). Each command is the passing of its time or the end of its work (log
entry 4). -/

/-- LINK_RETRY_TIMER: a new attempt, 100 ms after entry to DOWN. -/
def execLinkRetryTimer (link : Nat) (s : State) : Host.Outcome State Fault Refusal :=
  .next (s.onLink link (Link.isSt .down) (fun s => s.linkTo link .optics))

/-- OPTICS_POWER_OK: ALIGN. -/
def execOpticsPowerOk (link : Nat) (s : State) : Host.Outcome State Fault Refusal :=
  .next (s.onLink link (Link.isSt .optics) (fun s => s.linkTo link .align))

/-- OPTICS_TIMEOUT: DOWN after 20 ms, reason 7. -/
def execOpticsTimeout (link : Nat) (s : State) : Host.Outcome State Fault Refusal :=
  .next (s.onLink link (Link.isSt .optics) (fun s => s.attemptFailed link 7))

/-- ALIGN_DONE: BEACON, or UP on a SWITCHED link with no configured peer. -/
def execAlignDone (link : Nat) (s : State) : Host.Outcome State Fault Refusal :=
  .next (s.onLink link (Link.isSt .align) (fun s =>
    if (s.link link).beacons then
      (s.linkTo link .beacon).modLink link (fun x => { x with seenValid := false })
    else s.linkUp link))

/-- ALIGN_TIMEOUT: DOWN after 5 ms, reason 7. -/
def execAlignTimeout (link : Nat) (s : State) : Host.Outcome State Fault Refusal :=
  .next (s.onLink link (Link.isSt .align) (fun s => s.attemptFailed link 7))

/-- BEACON_WAIT_TIMEOUT: DOWN when no beacon is received within 20 ms, reason 7. -/
def execBeaconWaitTimeout (link : Nat) (s : State) : Host.Outcome State Fault Refusal :=
  .next (s.onLink link (fun x => x.isSt .beacon && !x.seenValid) (fun s => s.attemptFailed link 7))

/-- The PCS takes a link DOWN (R239); during bring-up that is a failed attempt. -/
def State.pcsDown (s : State) (l reason : Nat) : State :=
  let st := (s.link l).st
  if st = .optics ∨ st = .align ∨ st = .beacon then s.attemptFailed l reason else s.linkDown l reason

/-- PCS_ALIGNMENT_LOST (R239): reason 4. -/
def execPcsAlignmentLost (link : Nat) (s : State) : Host.Outcome State Fault Refusal :=
  .next (s.onLink link (fun x => !x.isSt .disabled) (fun s => s.pcsDown link 4))

/-- PCS_HIGH_SER (R239): reason 5. -/
def execPcsHighSer (link : Nat) (s : State) : Host.Outcome State Fault Refusal :=
  .next (s.onLink link (fun x => !x.isSt .disabled) (fun s => s.pcsDown link 5))

/-! Beacons (R237, R238). -/

/-- The beacon that the module sends on a link (Table 8.3). -/
def State.beacon (s : State) (l : Nat) : Beacon :=
  let x := s.link l
  { src := BitVec.ofNat 20 s.coord, link := BitVec.ofNat 6 l, speed := x.speed, role := x.role,
    epoch := s.pair.2, digest := s.pair.1, peerOk := x.peerOk s.now, fenced := decide (x.st = .fenced) }

/-- BEACON_DUE (R237). -/
def execBeaconDue (link : Nat) (s : State) : Host.Outcome State Fault Refusal :=
  .next (s.onLink link (fun x => x.live && x.beacons) (fun s => s.emitNow link (.beacon (s.beacon link))))

/-- Does a beacon's pair equal the module's? -/
def State.pairMatches (s : State) (epoch : Word) (digest : BitVec 256) : Bool := s.pair == (digest, epoch)

/-- Does a beacon come from the module and link that R229 or MAC_PEER_CFG names? -/
def State.wiringMatches (s : State) (l : Nat) (b : Beacon) : Bool := s.peerOf l == (b.src.toNat, b.link.toNat)

/-- Two epochs that differ by exactly one (R238). -/
def oneApart (a b : Word) : Bool := a.toNat + 1 == b.toNat || b.toNat + 1 == a.toNat

/-- A beacon that does not match arrives on a link in UP (R238): the grace begins, or it is fenced. -/
def State.beaconBad (s : State) (l : Nat) (b : Beacon) : State :=
  let pairOk := s.pairMatches b.epoch b.digest
  if !pairOk && !oneApart b.epoch s.pair.2 then s.linkFence l 1 0x2003 scManifest
  else if !s.wiringMatches l b then s.linkFence l 2 0x2004 scManifest
  else if (s.link l).graceFrom.isSome then s
  else s.modLink l (fun x => { x with graceFrom := some s.now })

/-- What a received beacon leaves in the link's registers (Table 8.9). -/
def Link.see (x : Link) (b : Beacon) : Link :=
  { x with seenCoord := b.src, seenLink := b.link, seenValid := true,
           bcnEpoch := b.epoch, bcnDigest := b.digest }

/-- BEACON_RECEIVED (R237, R238). -/
def execBeaconReceived (link : Nat) (b : Beacon) (s : State) : Host.Outcome State Fault Refusal :=
  .next (s.onLink link (fun x => x.live && x.beacons) (fun s =>
    let s1 := (s.countRx link).modLink link (fun x => x.see b)
    let st := (s.link link).st
    if s.pairMatches b.epoch b.digest && s.wiringMatches link b then
      let s2 := s1.modLink link (fun x => { x with peerOkAt := some s.now, graceFrom := none })
      if b.peerOk ∧ (st = .beacon ∨ st = .fenced) then s2.linkUp link else s2
    else if st = .up then s1.beaconBad link b
    else s1))

/-- BEACON_LOSS_TIMEOUT (R238): FENCED with reason 3. -/
def execBeaconLossTimeout (link : Nat) (s : State) : Host.Outcome State Fault Refusal :=
  .next (s.onLink link (fun x => (x.isSt .up || x.isSt .fenced) && x.beacons) (fun s =>
    s.linkFence link 3 0x2005 scWatchdog))

/-- BEACON_GRACE_EXPIRY (R238): the link fences if the difference still stands. -/
def execBeaconGraceExpiry (link : Nat) (s : State) : Host.Outcome State Fault Refusal :=
  .next (s.onLink link (fun x => x.isSt .up && x.graceFrom.isSome) (fun s =>
    let x := s.link link
    if s.pairMatches x.bcnEpoch x.bcnDigest then s.modLink link (fun x => { x with graceFrom := none })
    else s.linkFence link 1 0x2003 scManifest))

/-! Milestone frames (R235). -/

/-- Is a milestone frame acknowledged by ACKSEQ? -/
def msAcked (m : MsMsg) (ackseq : BitVec 16) : Bool := decide ((ackseq - m.lseq).toNat < 32768)

/-- The frames that ACKSEQ acknowledges need not be kept, nor sent again (R235). -/
def Link.ackedTo (x : Link) (ackseq : BitVec 16) : Link :=
  { x with
    replay := x.replay.filter (fun r => !msAcked r.msg ackseq),
    queues := tabMod [] x.queues 7 (fun fs => fs.filter (fun f => match f.frame with
      | .milestone m => !(f.again && msAcked m ackseq)
      | _ => true)) }

/-- CONTROL_ACK_RECEIVED (R235). -/
def execControlAckReceived (link : Nat) (ackseq : BitVec 16) (s : State) : Host.Outcome State Fault Refusal :=
  .next (s.onLink link (Link.isSt .up) (fun s =>
    ((s.countRx link).modLink link (fun x => x.ackedTo ackseq)).drainLink link))

/-- A frame of the replay buffer that is sent again (R235), and is not already waiting to be. -/
def ReplayFrame.again (r : ReplayFrame) : QFrame :=
  { laneB := r.laneB, owner := 31, len := msLen, frame := .milestone r.msg, again := true }

/-- The unacknowledged milestone frames are sent again, oldest first, ahead of what else waits in queue 7, and
counted (R235). -/
def Link.retransmit (x : Link) : Link :=
  { x with
    queues := tabMod [] x.queues 7 (fun fs => x.replay.map ReplayFrame.again ++ fs.filter (fun f => !f.again)),
    ctrlRetx := x.ctrlRetx + BitVec.ofNat 64 x.replay.length,
    replay := x.replay.map (fun r => { r with resent := r.resent + 1 }) }

/-- CONTROL_RETX_TIMEOUT (R235): 2 µs without progress in ACKSEQ; after eight times, DOWN with reason 6. -/
def execControlRetxTimeout (link : Nat) (s : State) : Host.Outcome State Fault Refusal :=
  .next (s.onLink link (fun x => x.isSt .up && !x.replay.isEmpty) (fun s =>
    if (s.link link).replay.any (fun r => decide (8 ≤ r.resent)) then
      (s.logLink link 0x2008 scTimeout).linkDown link 6
    else (s.modLink link Link.retransmit).drainLink link))

/-! Credits (R243). -/

/-- Credits that a credit frame returns for pair `i`: cumulative, at most 512 held. -/
def Link.credited (x : Link) (cred : List (BitVec 16)) (i : Nat) : Link :=
  let c := cred.getD i 0
  { x with
    credits := tabSet x.credits i (min 512 (tabGet 512 x.credits i + (c - tabGet 0 x.credSeen i).toNat)),
    credSeen := tabSet x.credSeen i c }

/-- CREDIT_FRAME_RECEIVED (R243). -/
def execCreditFrameReceived (link : Nat) (cred : List (BitVec 16)) (s : State) :
    Host.Outcome State Fault Refusal :=
  .next (s.onLink link (fun x => x.live && x.torus && cred.length == 8) (fun s =>
    ((s.countRx link).modLink link (fun x =>
      (List.range 8).foldl (fun y i => y.credited cred i) x)).drainLink link))

/-- CREDIT_FRAME_TIMER (R243): within 250 ns of a freeing, and every 100 µs. -/
def execCreditFrameTimer (link : Nat) (s : State) : Host.Outcome State Fault Refusal :=
  .next (s.onLink link (fun x => x.live && x.torus) (fun s => s.sendCredit link))

/-! Priority flow control (R244, R245). -/

def setB (v : Byte) (p : Nat) (b : Bool) : Byte :=
  if b then v ||| BitVec.ofNat 8 (2 ^ p) else v &&& ~~~(BitVec.ofNat 8 (2 ^ p))

/-- A PFC frame's effect on one priority of a SWITCHED link. -/
def Link.pfc (x : Link) (enable : Byte) (times : List (BitVec 16)) (p : Nat) : Link :=
  if bitAt enable.toNat p && bitAt x.pfcRxEn.toNat p && !bitAt x.recovering.toNat p then
    { x with paused := setB x.paused p (times.getD p 0 != 0) }
  else x

/-- PFC_FRAME_RECEIVED (R243, R244): discarded and counted on a TORUS link. -/
def execPfcFrameReceived (link : Nat) (enable : Byte) (times : List (BitVec 16)) (s : State) :
    Host.Outcome State Fault Refusal :=
  .next (s.onLink link (fun x => x.live && times.length == 8) (fun s =>
    let s1 := s.countRx link
    if (s.link link).torus then s1.modLink link (fun x => { x with rxErr := x.rxErr + 1 })
    else (s1.modLink link (fun x =>
      (List.range 8).foldl (fun y p => y.pfc enable times p) x)).drainLink link))

/-- PFC_PAUSE_EXPIRY (R244): the queue resumes. -/
def execPfcPauseExpiry (link prio : Nat) (s : State) : Host.Outcome State Fault Refusal :=
  .next (s.onLink link (fun x => decide (prio < 8) && bitAt x.paused.toNat prio) (fun s =>
    (s.modLink link (fun x => { x with paused := setB x.paused prio false })).drainLink link))

/-- The receive buffer of a priority holds more than 48 KiB: a PFC time of 0xFFFF (R244). Table 8.4 lets a PFC
frame out in UP only. -/
def State.pfcAsk (s : State) (l p : Nat) : State :=
  (s.modLink l (fun x => { x with pfcSent := setB x.pfcSent p true })).emitNow l (.pfc p 0xFFFF)

/-- May the T25 generate PFC for a priority of a link (R243, R244)? -/
def Link.mayPfc (x : Link) (p : Nat) : Bool :=
  x.isSt .up && x.switched && decide (p < 4) && bitAt x.pfcTxEn.toNat p

/-- A host NIC frame is taken into the receive buffer of its priority (R244). -/
def State.bufferNic (s : State) (l p len : Nat) : State :=
  let s1 := s.modLink l (fun x => { x with nicBuf := tabMod 0 x.nicBuf p (· + len) })
  let x := s1.link l
  if x.mayPfc p && !bitAt x.pfcSent.toNat p && decide (49152 < tabGet 0 x.nicBuf p) then s1.pfcAsk l p else s1

/-- PFC_REPEAT_TIMER (R244): every 20 µs, until the buffer has fallen below 16 KiB (log entry 39). -/
def execPfcRepeatTimer (link prio : Nat) (s : State) : Host.Outcome State Fault Refusal :=
  .next (s.onLink link (fun x => x.mayPfc prio && bitAt x.pfcSent.toNat prio) (fun s => s.pfcAsk link prio))

/-- The host function takes bytes out of the receive buffer of a priority; how many, the spec leaves to the host's
link (log entry 39). Below 16 KiB a PFC time of 0 ends the pause asked for (R244). -/
def State.takeNic (s : State) (l p : Nat) : State :=
  let n := tabGet 0 (s.link l).nicBuf p
  if n = 0 then s
  else
    let s1 := s.useFree.modLink l (fun x => { x with nicBuf := tabMod 0 x.nicBuf p (· - s.freeVal.toNat % (n + 1)) })
    let x := s1.link l
    if bitAt x.pfcSent.toNat p && decide (tabGet 0 x.nicBuf p < 16384) then
      let s2 := s1.modLink l (fun x => { x with pfcSent := setB x.pfcSent p false })
      if x.mayPfc p then s2.emitNow l (.pfc p 0) else s2
    else s1

/-- PFC_WATCHDOG_FIRE (R245): the queue's frames are discarded and counted, STORM is set, code 0x2007, and PFC is
ignored on the priority. A NIC send whose last frame is lost here completes as one lost on the way does. -/
def execPfcWatchdogFire (link prio : Nat) (s : State) : Host.Outcome State Fault Refusal :=
  .next (s.onLink link (fun x => x.switched && decide (prio < 8) && bitAt x.paused.toNat prio) (fun s =>
    let fs := tabGet [] (s.link link).queues prio
    let s1 := s.modLink link (fun x => { x with
      queues := tabSet x.queues prio [], wdDrops := x.wdDrops + BitVec.ofNat 64 fs.length,
      paused := setB x.paused prio false, storm := setB x.storm prio true,
      recovering := setB x.recovering prio true })
    (eachDo fs (fun f t => t.nicSent f.nic) s1).logLink link 0x2007 scWatchdog))

/-- PFC_RECOVERY_END (R245): PFC is honoured again. -/
def execPfcRecoveryEnd (link prio : Nat) (s : State) : Host.Outcome State Fault Refusal :=
  .next (s.onLink link (fun x => decide (prio < 8) && bitAt x.recovering.toNat prio) (fun s =>
    s.modLink link (fun x => { x with recovering := setB x.recovering prio false })))

/-! Forwarding (R231, R232, R235, R320). -/

/-- Is the frame one that the module sends on: for another module? -/
def State.passes (s : State) (f : Frame) : Bool :=
  match towards f with
  | some t => t.2.1 != s.coord
  | none => false

/-- A frame to send on arrives on a link (R231, R232, R235, R243): it is counted and keeps its place in the receive
buffer until it leaves; a milestone frame out of LSEQ order is discarded, and every one is acknowledged. -/
def State.forwardOn (s : State) (link : Nat) (laneB plane : Bool) (f : Frame) : State :=
  let s1 := s.countRx link
  match f with
  | .riris g =>
    s1.sendFrame (some link) laneB plane (s.place link g.prio.toNat laneB (s.qframe link f).len) f
  | .milestone m =>
    let s2 := s1.msAccept link m
    if s.inOrder link m then s2.sendFrame (some link) laneB plane (s.place link 7 laneB msLen) f
    else (s2.unhold (s.place link 7 laneB msLen)).drainLink link
  | _ => s1

/-- FRAME_FORWARD (R231, R232, R235): a frame for another module arrived on a TORUS link in UP. -/
def execFrameForward (link : Nat) (laneB : Bool) (f : Frame) (s : State) : Host.Outcome State Fault Refusal :=
  .next (s.onLink link (fun x => x.isSt .up && x.torus && s.passes f) (fun s => s.forwardOn link laneB false f))

/-- SWITCHED_FRAME_SEND (R320): a frame for another module, of this module or received from a plane. -/
def execSwitchedFrameSend (fromPlane : Option Nat) (f : Frame) (s : State) : Host.Outcome State Fault Refusal :=
  .next (
    if s.clocked ∧ s.switchedInst = true ∧ s.passes f = true then
      match fromPlane with
      | none => s.sendFrame none false false none f
      | some l => s.onLink l (fun x => x.isSt .up && x.switched) (fun s => s.forwardOn l false true f)
    else s)

/-! Received Ethernet frames (R227, R230, R246). -/

/-- Is a tagged frame received on a link one for the host NIC function (R246): not EtherType 0x88B5, not a MAC
control frame, not Riris in UDP to the link's address, not ARP or neighbour solicitation for it? -/
def State.isNicFrame (s : State) (l : Nat) (b : List Byte) : Bool :=
  let et := netNat b 16 2
  let riris4 := et == 0x0800 && netNat b 27 1 == 17 && some (netNat b 34 4) == s.ipv4 l
    && netNat b (18 + 4 * (netNat b 18 1 % 16) + 2) 2 == s.ririsUdp
  let riris6 := et == 0x86DD && netNat b 24 1 == 17 && some (netNat b 42 16) == s.ipv6 l
    && netNat b 60 2 == s.ririsUdp
  let arp := et == 0x0806 && some (netNat b 42 4) == s.ipv4 l
  let nd := et == 0x86DD && netNat b 24 1 == 58 && netNat b 58 1 == 135 && some (netNat b 66 16) == s.ipv6 l
  et != 0x88B5 && et != 0x8808 && !riris4 && !riris6 && !arp && !nd

/-- NIC_FRAME_RECEIVED (R227, R246): `bytes` from destination address on, without the FCS. -/
def execNicFrameReceived (link : Nat) (bytes : List Byte) (s : State) : Host.Outcome State Fault Refusal :=
  .next (s.onLink link (fun x => (x.isSt .up || x.isSt .fenced) && x.switched && decide (60 ≤ bytes.length)
      && decide (bytes.length ≤ 9212) && isTagged bytes && s.isNicFrame link bytes) (fun s =>
    let p := netNat bytes 14 1 / 32
    let s1 := s.countRx link
    (if p < 4 then s1.bufferNic link p (bytes.length + 4) else s1).nicReceive link bytes))

/-- The answer to an ARP request (RFC 826) for a link's IPv4 address: its MAC address. -/
def arpReply (mac : BitVec 48) (ip : Nat) (b : List Byte) : Frame :=
  .neighbour (BitVec.ofNat 48 (netNat b 26 6)) 0x0806
    (beBytes 2 1 ++ beBytes 2 0x0800 ++ [6, 4] ++ beBytes 2 2 ++ beBytes 6 mac.toNat ++ beBytes 4 ip
      ++ beBytes 6 (netNat b 26 6) ++ beBytes 4 (netNat b 32 4))

/-- The answer to a neighbour solicitation (RFC 4861) for a link's IPv6 address: a solicited advertisement with its
MAC address. -/
def ndReply (mac : BitVec 48) (ip : Nat) (b : List Byte) : Frame :=
  let addrs := beBytes 16 ip ++ beBytes 16 (netNat b 26 16)
  let body (c : Nat) := [136, 0] ++ beBytes 2 c ++ [0x60, 0, 0, 0] ++ beBytes 16 ip ++ [2, 1] ++ beBytes 6 mac.toNat
  .neighbour (BitVec.ofNat 48 (netNat b 6 6)) 0x86DD
    (beBytes 4 (6 * 2 ^ 28) ++ beBytes 2 32 ++ [58, 255] ++ addrs
      ++ body (checksum (sum16 addrs + 58 + 32 + sum16 (body 0))))

/-- The answer to an ARP request or neighbour solicitation for the address of link `l` (R230); none for anything
else. -/
def State.neighbourReply (s : State) (l : Nat) (b : List Byte) : Option Frame :=
  let mac := (s.link l).addr
  match s.ipv4 l, s.ipv6 l with
  | some a, some c =>
    if netNat b 16 2 = 0x0806 ∧ netNat b 24 2 = 1 ∧ netNat b 42 4 = a then some (arpReply mac a b)
    else if netNat b 16 2 = 0x86DD ∧ netNat b 24 1 = 58 ∧ netNat b 58 1 = 135 ∧ netNat b 66 16 = c then
      some (ndReply mac c b)
    else none
  | _, _ => none

/-- ARP_ND_FRAME (R230): an ARP request or neighbour solicitation for the link's own address is answered. -/
def execArpNdFrame (link : Nat) (head body : List Byte) (s : State) : Host.Outcome State Fault Refusal :=
  let bytes := head ++ body
  .next (s.onLink link (fun x => x.isSt .up && x.switched && isTagged bytes) (fun s =>
    match s.neighbourReply link bytes with
    | some f => (s.countRx link).emitNow link f
    | none => s))

/-- Why the MAC discards a received frame and counts it in MAC_RX_FCS_ERR: a bad FCS, a length outside 64 to 9,216
bytes (R227), or a reserved class (R234); and a frame without the 802.1Q tag of R227 that is no MAC control frame
(log entry 76). -/
def macBad (fcsOk : Bool) (b : List Byte) : Bool :=
  !fcsOk || decide (b.length + 4 < 64) || decide (9216 < b.length + 4)
    || (!isTagged b && netNat b 12 2 != 0x8808)
    || (isTagged b && netNat b 16 2 == 0x88B5 && decide (0xF5 ≤ netNat b 18 1))

/-- A frame that a TORUS link does not carry (R246): neither EtherType 0x88B5 nor a MAC control frame (R243). -/
def foreign (b : List Byte) : Bool := isTagged b && netNat b 16 2 != 0x88B5

/-- FRAME_DISCARDED (R227, R234, R246): counted in MAC_RX_FCS_ERR, or in MAC_NIC_RX_DROPS when a TORUS link does not
carry it. -/
def execFrameDiscarded (link : Nat) (fcsOk : Bool) (addrs tag body : List Byte) (s : State) :
    Host.Outcome State Fault Refusal :=
  let bytes := addrs ++ tag ++ body
  .next (s.onLink link (fun x => x.live && (macBad fcsOk bytes || (foreign bytes && x.torus))) (fun s =>
    let s1 := if fcsOk then s.countRx link else s
    s1.modLink link (fun x =>
      if macBad fcsOk bytes then { x with rxErr := x.rxErr + 1 } else { x with nicDrops := x.nicDrops + 1 })))

/-! What a manifest sets (R217, R228, R230, R248, R249). -/

/-- The link's registers from its LINK TLV, or its reset values without one. -/
def Link.configure (x : Link) (coord : BitVec 20) (l : Nat) (c : Option LinkCfg) : Link :=
  match c with
  | some c => { x with
      speed := c.speed, role := c.role, dir := c.dir, vid := c.vid, peerCoord := c.peerCoord,
      peerLink := c.peerLink, peerValid := c.peerValid, addr := if c.mac = 0 then defaultMac coord l else c.mac }
  | none => { x with
      speed := 0, role := 0, dir := false, vid := 0, peerCoord := 0, peerLink := 0, peerValid := false,
      addr := defaultMac coord l }

/-- A link takes a manifest's configuration: UNUSED disables it, another mode or role starts it again, and a link
that was DISABLED for its role goes to DOWN. -/
def State.configureLink (s : State) (m : Manifest) (l : Nat) : State :=
  let c := m.links.find? (fun e => e.link == l)
  let x := s.link l
  let y := x.configure m.coord l c
  let s1 := s.setLink l y
  if y.role = 0 then (if x.st = .disabled then s1 else s1.linkDisable l)
  else if x.st ≠ .disabled ∧ (x.role ≠ y.role ∨ x.speed ≠ y.speed) then s1.linkDown l 0
  else s1.enableLink l

/-- The lantern block of LNm from a manifest (R242, R248). -/
def Manifest.lantern (m : Manifest) (i : Nat) : LanternCfg :=
  let c : LanternCfg := { coord := m.coord, extent := BitVec.ofNat 5 (m.extents.getD i 1) }
  match m.calendars.find? (fun e => e.m == i) with
  | some k => { c with slotEn := k.en, owners := k.owners }
  | none => c

end Sys2Proof.Machine
end

