-- ==== Sys2Proof/Machine/Manifest.lean ====
section
/-!
DEFINITION. Manifests: their layout, the checks of Table 14.9, and the partitions they affect (R193, R229, R267,
R287, R318, R346, R391 to R393, R418 to R423).
-/

namespace Sys2Proof.Machine

/-! TLVs (R419). -/

/-- A TLV: its TYPE, its byte offset in the object, and its value. -/
structure Tlv where
  typ : Nat
  off : Nat
  val : List Byte
  deriving DecidableEq, Repr

/-- A failed check: the offset of the TLV that fails it, where one does. -/
abbrev Failed := Option Nat

/-- A little-endian field of a value. -/
def fld (v : List Byte) (a n : Nat) : Nat := leNat ((v.drop a).take n)

/-- The TLVs of a byte string at an offset; the framing of R419. -/
def tlvsOf : Nat → Nat → List Byte → Except Failed (List Tlv)
  | 0, off, _ => .error (some off)
  | n + 1, off, bs =>
    if bs.isEmpty then .ok []
    else
      let len := fld bs 2 2
      let stop := 4 + len + (4 - len % 4) % 4
      if bs.length < 4 ∨ bs.length < stop ∨ ((bs.take stop).drop (4 + len)).any (· != 0) then .error (some off)
      else
        match tlvsOf n (off + stop) (bs.drop stop) with
        | .ok l => .ok ({ typ := fld bs 0 2, off := off, val := (bs.drop 4).take len } :: l)
        | .error e => .error e

/-- The TLVs nested in a value from byte `from_` on. -/
def Tlv.nested (t : Tlv) (from_ : Nat) : Except Failed (List Tlv) :=
  tlvsOf (t.val.length / 4 + 1) (t.off + 4 + from_) (t.val.drop from_)

def tMODULE : Nat := 0x0010
def tPARTITION : Nat := 0x0110

/-- Are the TLVs of a MODULE TLV, and those of its PARTITION TLVs, framed? -/
def Tlv.moduleFramed (t : Tlv) : Except Failed Unit :=
  match t.nested 52 with
  | .error e => .error e
  | .ok l => (l.filter (fun x => x.typ == tPARTITION)).forM (fun x => (x.nested 0).map (fun _ => ()))

/-! The header (Table 14.7), and the framing: the first check. -/

/-- Every byte of some fields is zero. -/
def zeroFld (v : List Byte) (a n : Nat) : Bool := ((v.drop a).take n).all (· == 0)

/-- The first check of Table 14.9: the TLVs of the body. -/
def ManifestObj.frame (o : ManifestObj) (len : Nat) : Except Failed (List Tlv) :=
  let h := o.body
  if h.length < 64 ∨ len ≠ h.length + trailerLen ∨ fld h 32 8 ≠ h.length ∨ fld h 0 4 ≠ 0x4E414D43 ∨ fld h 4 2 ≠ 1
      ∨ zeroFld h 6 2 = false ∨ zeroFld h 12 4 = false ∨ zeroFld h 40 24 = false then .error none
  else
    match tlvsOf (h.length / 4) 64 (h.drop 64) with
    | .error e => .error e
    | .ok l =>
      match (l.filter (fun t => t.typ == tMODULE)).forM Tlv.moduleFramed with
      | .error e => .error e
      | .ok _ => .ok l

/-! Values (Table 14.8), the fourth check. -/

/-- The bytes that a TLV's fields take. -/
def minLen (typ : Nat) : Option Nat :=
  match typ with
  | 0x0001 => some 12
  | 0x0002 => some 36
  | 0x0003 => some 14
  | 0x0004 => some 8
  | 0x0010 => some 52
  | 0x0101 => some 14
  | 0x0102 => some 20
  | 0x0103 => some 20
  | 0x0104 => some 2
  | 0x0110 => some 0
  | 0x0111 => some 56
  | 0x0112 => some 8
  | 0x0113 => some 16
  | 0x0114 => some 12
  | 0x0115 => some 9
  | 0x0116 => some 30
  | _ => none

/-- Types by scope: installation, module, partition. -/
def installTypes : List Nat := [0x0001, 0x0002, 0x0003, 0x0004, 0x0010]
def moduleTypes : List Nat := [0x0101, 0x0102, 0x0103, 0x0104, 0x0110]
def partTypes : List Nat := [0x0111, 0x0112, 0x0113, 0x0114, 0x0115, 0x0116]

/-- Fail with a TLV unless a condition holds. -/
def need (off : Option Nat) (b : Bool) : Except Failed Unit := if b then .ok () else .error off

/-- Is every TLV of a type of its scope, and do its fields lie within its LENGTH? -/
def typesOk (types : List Nat) (l : List Tlv) : Except Failed Unit :=
  l.forM (fun t => need (some t.off) (types.contains t.typ && match minLen t.typ with
    | some n => decide (n ≤ t.val.length)
    | none => false))

/-- The TLVs of a type. -/
def ofType (l : List Tlv) (typ : Nat) : List Tlv := l.filter (fun t => t.typ == typ)

/-- Do no two elements of a list agree? -/
def distinct : List Nat → Bool
  | [] => true
  | x :: l => !l.contains x && distinct l

def Tlv.calendar (t : Tlv) : Calendar :=
  { m := fld t.val 0 1, en := bitAt (fld t.val 1 1) 0,
    owners := (List.range 32).map (fun k => BitVec.ofNat 5 (fld t.val (4 + k) 1)) }

def Tlv.switch (t : Tlv) : SwitchEntry :=
  { job := w32 (fld t.val 0 4), mid := BitVec.ofNat 16 (fld t.val 4 2), gen := BitVec.ofNat 16 (fld t.val 6 2) }

def Tlv.link (t : Tlv) : LinkCfg :=
  let mode := fld t.val 1 1
  let peer := fld t.val 7 1
  { link := fld t.val 0 1, speed := BitVec.ofNat 2 mode, role := BitVec.ofNat 2 (mode / 4), dir := bitAt mode 4,
    vid := BitVec.ofNat 12 (fld t.val 2 2), peerCoord := BitVec.ofNat 20 (fld t.val 4 3),
    peerLink := BitVec.ofNat 6 peer, peerValid := bitAt peer 7,
    mac := BitVec.ofNat 48 (beNat ((t.val.drop 8).take 6)) }

/-- A group TLV: byte 0 its number, bytes 4 to 19 its registers of Table 7.8 (log entry 40). `bits_` is the width of
the set, above which stands VALID; an invalid group is empty. -/
def Tlv.group (t : Tlv) (bits_ baseW sizeW offW : Nat) : Group :=
  let set := fld t.val 4 4
  if bitAt set bits_ then
    { set := set % 2 ^ bits_, base := fld t.val 8 4 % 2 ^ baseW, size := fld t.val 12 4 % 2 ^ sizeW,
      off := fld t.val 16 4 % 2 ^ offW }
  else {}

def Tlv.window (t : Tlv) : MWindow :=
  { idx := fld t.val 0 1, pool := bitAt (fld t.val 1 1) 0, base := fld t.val 4 6, size := fld t.val 10 6 }

/-- Is a window 4 KiB-aligned and wholly within one tier (R197)? -/
def MWindow.ok (w : MWindow) : Bool :=
  decide (w.idx < 16) && w.base % 4096 == 0 && w.size % 4096 == 0 && decide (0 < w.size)
    && (decide (w.base + w.size ≤ 0x6C00000000)
      || (decide (cisBase ≤ w.base) && decide (w.base + w.size ≤ 0x28000000000)))

/-- A partition's configuration from its TLV: PART and the optional TLVs. -/
def partCfgOf (raw : List Byte) (p : List Byte) (l : List Tlv) : PartCfg :=
  let q := ((ofType l 0x0114).head?.map Tlv.val).getD []
  let s := ((ofType l 0x0115).head?.map Tlv.val).getD []
  let r := ((ofType l 0x0116).head?.map Tlv.val).getD []
  { num := fld p 0 1, vf := fld p 1 1, sealed := bitAt (fld p 2 1) 0, owner := BitVec.ofNat 5 (fld p 3 1),
    qmax := fld p 4 2, flush := BitVec.ofNat 8 (fld p 6 1), rmodeDef := BitVec.ofNat 3 (fld p 7 1),
    srbitsDef := BitVec.ofNat 2 (fld p 7 1 / 8),
    anchor := if fld p 8 48 = 0 then none else some (BitVec.ofNat 384 (fld p 8 48)),
    cores := (ofType l 0x0112).foldl (fun t c =>
      tabSet t (fld c.val 0 1) (BitVec.ofNat 20 (fld c.val 4 4))) [],
    windows := (ofType l 0x0113).map Tlv.window,
    quotaHbm := w32 (fld q 0 4), quotaCis := w32 (fld q 4 4), quotaDep := w32 (fld q 8 4),
    share := BitVec.ofNat 16 (fld s 0 2), cwySlots := BitVec.ofNat 16 (fld s 2 2),
    seraiSlots := BitVec.ofNat 16 (fld s 4 2), pcieSlots := BitVec.ofNat 16 (fld s 6 2),
    cisPos := BitVec.ofNat 4 (fld s 8 1), keyBase := fld r 0 1, keyCount := fld r 1 1, qpBase := fld r 4 4,
    qpCount := fld r 8 4, regBase := fld r 12 2, regCount := fld r 14 2, buckets := fld r 16 2,
    pinQuota := (List.range 6).map (fun m => fld r (18 + 2 * m) 2), raw := raw }

/-- A partition of the module's own MODULE TLV (Table 14.8). -/
def parsePart (t : Tlv) : Except Failed PartCfg := do
  let l ← t.nested 0
  typesOk partTypes l
  let once := [0x0111, 0x0114, 0x0115, 0x0116].all (fun k => decide ((ofType l k).length ≤ 1))
  need (some t.off) (once && (ofType l 0x0111).length == 1)
  (ofType l 0x0112).forM (fun c => need (some c.off) (decide (fld c.val 0 1 < 12) && decide (fld c.val 4 4 < 2 ^ 20)))
  (ofType l 0x0113).forM (fun w => need (some w.off) w.window.ok)
  let p := ((ofType l 0x0111).head?.map Tlv.val).getD []
  need (some t.off) (distinct ((ofType l 0x0112).map (fun c => fld c.val 0 1))
    && distinct ((ofType l 0x0113).map (fun w => fld w.val 0 1))
    && decide (fld p 0 1 < 16) && decide (fld p 1 1 ≤ 16) && (decide (fld p 3 1 < 16) || fld p 3 1 == 31)
    && decide (fld p 4 2 ≤ 256) && decide (fld p 7 1 % 8 < 6) && decide (fld p 7 1 / 8 % 4 < 3)
    && (bitAt (fld p 2 1) 0 || (ofType l 0x0115).isEmpty))
  return partCfgOf t.val p l

/-- Groups from their TLVs; without any, those of reset (R193, log entry 40). -/
def groupTab (l : List Tlv) (hbm : Bool) : Tab Group :=
  if l.isEmpty then (if hbm then ({} : Memory).hgrps else ({} : Memory).cgrps)
  else l.foldl (fun t x =>
    tabSet t (fld x.val 0 1) (if hbm then x.group 12 9 6 6 else x.group 4 11 5 4)) []

/-- The fourth check: the module's manifest from the installation TLVs and its own MODULE TLV. -/
def parseManifest (h : List Byte) (l : List Tlv) : Except Failed Manifest := do
  let own := (ofType l tMODULE).filter (fun t => t.val.take 48 == leBytes 48 deviceId.toNat)
  need none (own.length == 1 && (ofType l 0x0001).length == 1)
  let inst := l.filter (fun t => t.typ != tMODULE)
  typesOk installTypes (inst ++ own)
  (ofType l 0x0001).forM (fun t => need (some t.off) (decide (fld t.val 0 1 < 2)))
  (ofType l 0x0002).forM (fun t => need (some t.off) (decide (fld t.val 0 1 < 6)
    && (List.range 32).all (fun k => decide (fld t.val (4 + k) 1 < 16) || fld t.val (4 + k) 1 == 31)))
  (ofType l 0x0003).forM (fun t => need (some t.off) (fld t.val 0 4 % 2 ^ 14 == 0))
  need none (distinct ((ofType l 0x0002).map (fun t => fld t.val 0 1)) && decide ((ofType l 0x0003).length ≤ 1)
    && distinct ((ofType l 0x0004).map (fun t => fld t.val 0 4)))
  let me ← (own.head?.elim (.error none) .ok : Except Failed Tlv)
  let ml ← me.nested 52
  typesOk moduleTypes ml
  (ofType ml 0x0101).forM (fun t => need (some t.off) (decide (fld t.val 0 1 < 36)))
  (ofType ml 0x0102).forM (fun t => need (some t.off) (decide (fld t.val 0 1 < 16)))
  (ofType ml 0x0103).forM (fun t => need (some t.off) (decide (fld t.val 0 1 < 8)))
  (ofType ml 0x0104).forM (fun t => need (some t.off) (decide (1 ≤ fld t.val 0 2) && decide (fld t.val 0 2 ≤ 256)))
  need none ([0x0101, 0x0102, 0x0103].all (fun k => distinct ((ofType ml k).map (fun t => fld t.val 0 1)))
    && decide ((ofType ml 0x0104).length ≤ 1))
  let parts ← (ofType ml tPARTITION).mapM parsePart
  need none (distinct (parts.map PartCfg.num))
  let iv := ((ofType l 0x0001).head?.map Tlv.val).getD []
  let sv := (ofType l 0x0003).head?
  let sb := (sv.map Tlv.val).getD []
  return {
    epoch := w32 (fld h 8 4), digest := (Config.sha384 h).setWidth 256, tAct := w64 (fld h 24 8),
    switched := fld iv 0 1 == 1, extents := (List.range 6).map (fun d => fld iv (1 + d) 1),
    root := BitVec.ofNat 20 (fld iv 8 3), coord := BitVec.ofNat 20 (fld me.val 48 3),
    calendars := (ofType l 0x0002).map Tlv.calendar, subnet := sv.isSome, ipv4 := w32 (fld sb 0 4),
    ipv6 := w64 (fld sb 4 8), ririsUdp := BitVec.ofNat 16 (fld sb 12 2),
    switches := (ofType l 0x0004).map Tlv.switch, links := (ofType ml 0x0101).map Tlv.link,
    hgrps := groupTab (ofType ml 0x0102) true, cgrps := groupTab (ofType ml 0x0103) false,
    pfQmax := ((ofType ml 0x0104).head?.map (fun t => fld t.val 0 2)).getD 64, parts := parts }

/-! The fifth check: coordinate, extents, links (R228, R229, R318). -/

/-- Extents of an installation kind (Table 11.1). -/
def Manifest.extentsOk (m : Manifest) : Bool :=
  if m.switched then m.extents == [16, 16, 16, 16, 4, 4]
  else m.extents.getD 0 0 == 16 && (List.range 6).all (fun d =>
    decide (1 ≤ m.extents.getD d 0) && decide (m.extents.getD d 0 ≤ if d < 4 then 16 else 4))

/-- Does the coordinate lie within the extents, and in a switched installation name only a caravan? -/
def Manifest.coordOk (m : Manifest) : Bool :=
  (List.range 6).all (fun d => decide (dimOf d m.coord.toNat < m.extents.getD d 0))
    && (!m.switched || decide (m.coord.toNat < 256))

/-- Is a link's role one that Table 11.1 gives it, and its DIR that of R229? -/
def Manifest.linkOk (m : Manifest) (x : LinkCfg) : Bool :=
  let d := x.link / 6
  x.role == 0
    || (x.role == 1 && (!m.switched || d == 0) && m.extents.getD d 0 != 1 && x.dir == decide (3 ≤ x.link % 6))
    || (x.role == 2 && m.switched && d != 0)

/-! The sixth check (R193, R267, R287, R346, R391 to R393, R405, R414). -/

/-- Addresses of a group from its base on. -/
def Group.bytes (g : Group) (hbm : Bool) : Nat :=
  (if hbm then (setBits 12 g.set).length else 24 * (setBits 4 g.set).length) * g.size * gib

def Group.start (g : Group) (hbm : Bool) : Nat := (if hbm then 0 else cisBase) + g.base * gib

/-- Does a group meet a range of addresses? -/
def Group.touches (g : Group) (hbm : Bool) (a n : Nat) : Bool :=
  g.set != 0 && meets (g.start hbm) (g.bytes hbm) a n

/-- A group alone (R193). -/
def Group.ok (g : Group) (hbm : Bool) : Bool :=
  g.set == 0 || (decide (g.off + g.size ≤ if hbm then 36 else 16)
    && decide (g.start hbm + g.bytes hbm ≤ if hbm then 0x6C00000000 else 0x28000000000))

/-- Two groups of one tier (R193). -/
def Group.apart (g h : Group) (hbm : Bool) : Bool :=
  g.set == 0 || h.set == 0
    || (!meets (g.start hbm) (g.bytes hbm) (h.start hbm) (h.bytes hbm)
      && (g.set &&& h.set == 0 || !meets g.off g.size h.off h.size))

/-- The groups of a tier (R193). -/
def groupsOk (t : Tab Group) (hbm : Bool) : Bool :=
  t.all (fun e => e.2.ok hbm && (e.2.set != 0 || e.2 == {}) && t.all (fun f => e.1 == f.1 || e.2.apart f.2 hbm))

/-- Every pair of different partitions. -/
def Manifest.pairs (m : Manifest) (ok : PartCfg → PartCfg → Bool) : Bool :=
  m.parts.all (fun p => m.parts.all (fun q => p.num == q.num || ok p q))

/-- Do two partitions share no logical core? -/
def coresApart (p q : PartCfg) : Bool :=
  (List.range 12).all (fun n => tabGet 0 p.cores n &&& tabGet 0 q.cores n == 0)

/-- Windows of two partitions meet only as pools of open ones (R197, Table 13.11). -/
def windowsApart (p q : PartCfg) : Bool :=
  p.windows.all (fun w => q.windows.all (fun v =>
    !meets w.base w.size v.base v.size || (w.pool && v.pool && !p.sealed && !q.sealed)))

/-- The compute dies that a partition's cores lie on. -/
def PartCfg.dies (p : PartCfg) : List Nat := (List.range 12).filter (fun n => tabGet 0 p.cores n != 0)

/-- The groups of a sealed partition's stacks or positions are its own: they hold no other stack or position, its
windows lie in them, and no other partition's window does (Table 13.11). -/
def Manifest.groupsOwn (m : Manifest) (p : PartCfg) (hbm : Bool) : Bool :=
  let mask := if hbm then (p.dies.map (2 ^ ·)).foldl (· + ·) 0 else p.cisPos.toNat
  (if hbm then m.hgrps else m.cgrps).all (fun e =>
    let g := e.2
    if g.set &&& mask != 0 then
      g.set &&& mask == g.set
        && m.parts.all (fun q => q.num == p.num || q.windows.all (fun w => !g.touches hbm w.base w.size))
    else p.windows.all (fun w => !g.touches hbm w.base w.size))

/-- A sealed partition's resources (R346, R392, R393, Table 13.11). The lantern dies it uses are those on which it may pin
queue pairs, for each of which its calendar owner has a slot (log entry 32). -/
def Manifest.sealedOk (m : Manifest) (p : PartCfg) : Bool :=
  p.dies.all (fun n => tabGet 0 p.cores n == BitVec.allOnes 20) && m.groupsOwn p true && m.groupsOwn p false
    && decide (p.owner.toNat < 16)
    && (List.range 6).all (fun i => p.pinQuota.getD i 0 == 0 || m.calendars.any (fun c =>
      c.m == i && c.owners.contains p.owner))
    && decide (165 * p.dies.length + 48 * (setBits 4 p.cisPos.toNat).length ≤ p.share.toNat)
    && p.cwySlots != 0 && p.seraiSlots != 0 && p.pcieSlots != 0

/-- Two sealed partitions share no slot, position or calendar owner. -/
def sealedApart (p q : PartCfg) : Bool :=
  !p.sealed || !q.sealed || (p.cwySlots &&& q.cwySlots == 0 && p.seraiSlots &&& q.seraiSlots == 0
    && p.pcieSlots &&& q.pcieSlots == 0 && p.cisPos &&& q.cisPos == 0 && p.owner != q.owner)

/-- At least one slot of a set is open while an open partition exists (R392). -/
def Manifest.slotLeft (m : Manifest) (f : PartCfg → BitVec 16) : Bool :=
  m.parts.all (·.sealed) || (m.parts.filter (·.sealed)).foldl (fun a p => a ||| f p) 0 != BitVec.allOnes 16

/-- Ranges of two partitions are disjoint. -/
def rangesApart (p q : PartCfg) : Bool :=
  !meets p.keyBase p.keyCount q.keyBase q.keyCount && !meets p.qpBase p.qpCount q.qpBase q.qpCount
    && !meets p.regBase p.regCount q.regBase q.regCount && (p.vf == 0 || p.vf != q.vf)

/-- Ranges within what the module has. -/
def PartCfg.rangesOk (p : PartCfg) : Bool :=
  decide (p.keyBase + p.keyCount ≤ 64) && decide (p.qpBase + p.qpCount ≤ 2 ^ 20)
    && decide (p.regBase + p.regCount ≤ 4096) && decide (p.buckets ≤ 4096)

def sumOf (l : List Nat) : Nat := l.foldl (· + ·) 0

/-- The sixth check of Table 14.9. -/
def Manifest.resourcesOk (m : Manifest) : Bool :=
  groupsOk m.hgrps true && groupsOk m.cgrps false
    && m.pairs (fun p q => coresApart p q && windowsApart p q && sealedApart p q && rangesApart p q)
    && m.parts.all (fun p => p.rangesOk && if p.sealed then m.sealedOk p else p.owner == 31)
    && m.slotLeft PartCfg.cwySlots && m.slotLeft PartCfg.seraiSlots && m.slotLeft PartCfg.pcieSlots
    && (List.range 6).all (fun i => decide (sumOf (m.parts.map (fun p => p.pinQuota.getD i 0)) ≤ 3072))
    && decide (sumOf (m.parts.map PartCfg.buckets) ≤ 16384)
    && decide (m.pfQmax + 1 + sumOf ((m.parts.filter (fun p => p.vf != 0)).map (fun p => p.qmax + 1)) ≤ 4096)

/-! What a manifest affects (R423). -/

/-- Partition `q` of a manifest. -/
def Manifest.part (m : Manifest) (q : Nat) : Option PartCfg := m.parts.find? (fun p => p.num == q)

/-- Does a changed CALENDAR name a partition's calendar owner? -/
def calendarHits (a b : Manifest) (p : PartCfg) : Bool :=
  p.owner != 31 && (List.range 6).any (fun i =>
    let x := a.calendars.find? (fun c => c.m == i)
    let y := b.calendars.find? (fun c => c.m == i)
    let names := fun (c : Option Calendar) => match c with
      | some c => c.owners.contains p.owner
      | none => false
    x != y && (names x || names y))

/-- Does a changed group cover a window of a partition? -/
def groupHits (a b : Tab Group) (hbm : Bool) (p : PartCfg) : Bool :=
  (List.range 16).any (fun g =>
    let x := tabGet ({} : Group) a g
    let y := tabGet ({} : Group) b g
    x != y && p.windows.any (fun w => x.touches hbm w.base w.size || y.touches hbm w.base w.size))

/-- Does a manifest affect partition `q` beside the one in force (R423)? -/
def Manifest.affects (a b : Manifest) (q : Nat) : Bool :=
  match a.part q, b.part q with
  | none, none => false
  | some _, none => true
  | none, some _ => true
  | some p, some r =>
    p.raw != r.raw || calendarHits a b p || groupHits a.hgrps b.hgrps true p || groupHits a.cgrps b.cgrps false p
      || a.switched != b.switched || a.extents != b.extents || a.root != b.root || a.coord != b.coord

/-- The partitions that a manifest affects. -/
def State.affectedBy (s : State) (m : Manifest) : List Nat :=
  let old := s.mod.inForce.getD {}
  (List.range 16).filter (old.affects m)

end Sys2Proof.Machine
end

