-- ==== Sys2Proof/Machine/Apply.lean ====
section
/-!
DEFINITION. Manifests: staging, activation and the reassignment of partitions (R197, R394, R418 to R424).
-/

namespace Sys2Proof.Machine

/-! Checks (Table 14.9). -/

/-- What the checks of a manifest answer: the manifest, or a status and the TLV that fails. -/
inductive Verdict
  | accepted (m : Manifest)
  | failed (status : Nat) (at_ : Option Nat)
  | rejected
  deriving DecidableEq, Repr

/-- The epoch rule (R420). -/
def State.epochOk (s : State) (e : Word) : Bool :=
  match s.mod.inForce with
  | some m => e == m.epoch + 1
  | none => decide (s.mod.manHigh.toNat ≤ e.toNat)

/-- The rule of T_ACT (R422). -/
def State.tActOk (s : State) (t : Nat) : Bool :=
  if t = 0 then s.mod.inForce.isNone || (List.range 16).all (fun q => decide ((s.part q).st = .idle))
  else decide (s.time.st = .locked) && decide (s.now.toNat + 10000000 ≤ t) && decide (t ≤ s.now.toNat + 86400000000000)

/-- The checks of Table 14.9 in order. -/
def State.checkManifest (s : State) (len : Nat) (o : ManifestObj) : Verdict :=
  match ManifestObj.frame o len with
  | .error e => .failed scIllegal e
  | .ok l =>
    if !s.operatorOk o.trailer 5 o.body then .failed scSignature none
    else if !s.epochOk (w32 (fld o.body 8 4)) then .failed scIllegal none
    else
      match parseManifest o.body l with
      | .error e => .failed scIllegal e
      | .ok m =>
        if !(m.extentsOk && m.coordOk && m.links.all m.linkOk) then .failed scIllegal none
        else if !m.resourcesOk then .failed scIllegal none
        else if !s.tActOk m.tAct.toNat then .failed scIllegal none
        else if (s.affectedBy m).any (fun q => decide ((s.part q).st = .recovering)) then .rejected
        else .accepted m

/-! Reassignment (Table 13.12). -/

/-- The private windows and placements of a partition as owned ranges. -/
def ownedRanges (q : Nat) (c : Option PartCfg) (ps : List Placement) : List (Nat × Nat × Nat) :=
  (match c with
    | some c => (c.windows.filter (fun w => !w.pool)).map (fun w => (w.base, w.size, q))
    | none => []) ++ ps.map (fun e => (e.base, e.size, q))

/-- Does a placement still lie wholly inside one pool window of the configuration (R197)? -/
def keepsPlacement (c : Option PartCfg) (e : Placement) : Bool :=
  match c with
  | some c => c.windows.any (fun w => w.pool && inside e.base e.size w.base w.size)
  | none => false

/-- The configuration of partition `q` once the reassignment ends. -/
def State.nextCfg (s : State) (m : Manifest) (q : Nat) : Option PartCfg :=
  if s.mod.taking.contains q then m.part q else (s.part q).cfg

/-- The placements that stay. -/
def State.keptPlacements (s : State) (m : Manifest) (q : Nat) : Tab Placement :=
  (s.part q).mem.placements.filter (fun e => keepsPlacement (s.nextCfg m q) e.2)

/-- The owned ranges of the module before and after the reassignment. A placement that lapses counts as owned by
none, so that it is scrubbed whoever owns its range afterwards (Table 13.12, step 3). -/
def State.rangesWere (s : State) (m : Manifest) : List (Nat × Nat × Nat) :=
  (List.range 16).flatMap (fun q => ownedRanges q (s.part q).cfg ((s.keptPlacements m q).map Prod.snd))

def State.rangesWill (s : State) (m : Manifest) : List (Nat × Nat × Nat) :=
  (List.range 16).flatMap (fun q => ownedRanges q (s.nextCfg m q) ((s.keptPlacements m q).map Prod.snd))

/-- The placements of partition `q` that have lapsed go (R197, R200): code 0x0141 for each. -/
def State.lapse (s : State) (m : Manifest) (q : Nat) : State :=
  let gone := (s.part q).mem.placements.filter (fun e => !keepsPlacement (s.nextCfg m q) e.2)
  let ended := (s.part q).mem.removing.any (fun i => gone.any (fun e => e.1 == i))
  let s1 := s.modPartMem q (fun x => { x with
    placements := s.keptPlacements m q, removing := if ended then none else x.removing })
  let s2 := if ended then s1.placeResult q scOk else s1
  eachDo gone (fun _ t => t.logPlace q 0x0141 scOk) s2

/-- A partition as a manifest leaves it: one that is created or removed starts anew, but for its context number
(R183). -/
def Part.reassigned (x : Part) (c : Option PartCfg) : Part :=
  if x.cfg.isSome && c.isSome then { x with cfg := c, switching := none }
  else { cfg := c, ms := { ctx := x.ms.ctx } }

/-- Step 4 of Table 13.12 (R390): fresh cistern keys for a partition that is created, and none for one removed; the rest
of its Customs page starts anew. -/
def State.reassignCus (s : State) (q : Nat) (was will : Bool) : State :=
  if was && will then s
  else
    let s1 := s.modCus q (fun _ => {})
    if will then s1.freshCisKeys q else s1

/-- Partition `q` takes its new configuration: codes 0x020B and, when it was stopped for it, 0x0124 (R424). -/
def State.reassignPart (s : State) (m : Manifest) (q : Nat) : State :=
  let c := m.part q
  let s1 := (s.reassignCus q (s.part q).cfg.isSome c.isSome).modPart q (fun x => x.reassigned c)
  let s2 := s1.logCus 0x020B scOk (some q) []
  if s.mod.stopped.contains q then s2.logSerai 0x0124 scAbandoned (some q) [] else s2

/-- The functions that the partitions bind (R405). -/
def State.bindFns (s : State) : State :=
  eachDo (List.range 17) (fun f t =>
    if f = 0 then t
    else
      match (List.range 16).find? (fun q => t.vfOf q == some f) with
      | some q => t.modFn f (fun x => { x with
          bound := true, part := BitVec.ofNat 4 q,
          qmax := BitVec.ofNat 9 (((t.part q).cfg.map PartCfg.qmax).getD 0) })
      | none => t.modFn f (fun x => { x with bound := false, part := 0, qmax := 0 })) s

/-- The partitions that own cores of a die. -/
def State.ownersOf (s : State) (n : Nat) : List Nat := (List.range 16).filter (fun q => s.ownsDie q n)

/-- The update engine of a die whose owners change: its micro-program and the other registers of Table 4.10 (R129).
Descriptors that wait, and a fence, are not the old owner's alone and stay. -/
def UpdEngine.cleared (u : UpdEngine) : UpdEngine :=
  { u with halt := false, nfCount := 0, doneSeq := 0, ucode := [], ucodeLen := 0, submitPart := 0, submit := [] }

/-- The state of a die whose owners change that outlives a context switch (R129). -/
def State.clearDie (s : State) (n : Nat) : State := s.modDie n (fun d => { d with upd := d.upd.cleared })

/-- A die whose owners or class change starts from its nominal frequency (Table 12.1, R344), unless another partition
runs on it (R342). -/
def State.dieAnew (s : State) (n : Nat) : State :=
  if s.pllOn n then s
  else { s with pwr := { s.pwr with dies := tabMod {} s.pwr.dies n (fun d => { d with freq := 0 }) } }

/-- Steps 3 to 5 of Table 13.12: the scrub has ended and the new ownership takes effect. -/
def State.endReassign (s : State) (m : Manifest) : State :=
  let s1 := { s with mem := s.mem.reassign m.hgrps m.cgrps (s.rangesWere m) (s.rangesWill m) }
  let s2 := eachDo (List.range 16) (fun q t => t.lapse m q) s1
  let s3 := (eachDo s2.mod.taking (fun q t => t.reassignPart m q) s2).bindFns
  let changed := (List.range 12).filter (fun n => s.ownersOf n != s3.ownersOf n)
  let sealing := (List.range 12).filter (fun n => s.dieSealed n != s3.dieSealed n)
  let s4 := eachDo (changed ++ sealing) (fun n t => t.dieAnew n) (eachDo changed (fun n t => t.clearDie n) s3)
  ({ s4 with mod := { s4.mod with taking := [], stopped := [], reassigning := false } }.refreshScrubbing).applyLimit
    false

/-- Has every partition that the manifest reassigns been switched? -/
def State.allHeld (s : State) : Bool :=
  s.mod.taking.all (fun q => decide ((s.part q).switching = some .held))

/-- REASSIGNMENT_SCRUB_DONE (R394). -/
def execReassignmentScrubDone (s : State) : Host.Outcome State Fault Refusal :=
  .next (match (if s.clocked && s.mod.reassigning && s.allHeld then s.mod.inForce else none) with
    | some m => s.endReassign m
    | none => s)

/-! Activation (R424). -/

/-- Does a job of the partition run: may it take a pair? -/
def PartSt.hasJob : PartSt → Bool
  | .running => true
  | .paused => true
  | .recovering => true
  | _ => false

/-- The job pair of partition `q` at T_ACT: a job without a SWITCH entry takes the new pair; one whose release has
still to come keeps the old. -/
def State.jobAtTact (s : State) (m : Manifest) (old : BitVec 256 × Word) (q : Nat) : State :=
  let x := s.part q
  if !x.st.hasJob then s.modPart q (fun x => { x with jobPair := none })
  else if m.switches.any (fun e => e.job == x.ms.jobId) then
    if x.jobPair = some (m.digest, m.epoch) then s.modPart q (fun x => { x with jobPair := none })
    else s.modPart q (fun x => { x with jobPair := some (x.jobPair.getD old) })
  else s.jobTakes q none

/-- An affected partition is taken from its state (R394, R424). A partition that did not exist has nothing to
switch. -/
def State.takePart (s : State) (q : Nat) : State :=
  let x := s.part q
  if x.cfg.isNone then s.modPart q (fun x => { x with switching := some .held })
  else if x.switching.isSome then
    if x.st = .idle then s else { s with mod := { s.mod with stopped := q :: s.mod.stopped } }
  else if x.st = .idle then s.beginSwitch q .manifest
  else
    let s1 := if x.st = .running then (s.setPartSt q .paused 2 0).msHold q true else s
    ({ s1 with mod := { s1.mod with stopped := q :: s1.mod.stopped } }).beginSwitch q .manifest

/-- An affected partition at T_ACT: it is taken, unless its job's switch release has still to come. -/
def State.affectedAtTact (s : State) (q : Nat) : State :=
  let x := s.part q
  if x.st.hasJob ∧ x.jobPair.isSome ∧ x.switching.isNone then s else s.takePart q

/-- The time root of a manifest (R353): in a switched installation, at the root's position of this module's
caravan. -/
def Manifest.rootCoord (m : Manifest) : BitVec 20 :=
  if m.switched then BitVec.ofNat 20 (m.coord.toNat / 16 * 16 + m.root.toNat % 16) else m.root

/-- What a manifest sets for the module as a whole: pair, coordinate, lanterns, links, the PF's queues, the time
root (R228, R230, R242, R353). -/
def State.adopt (s : State) (m : Manifest) : State :=
  let s1 := { s with
    mod := { s.mod with
      inForce := some m, staged := none, affected := [], reassigning := true,
      manHigh := if s.mod.manHigh.toNat < m.epoch.toNat then m.epoch else s.mod.manHigh },
    lanternCfg := (List.range 6).foldl (fun t i => tabSet t i (m.lantern i)) s.lanternCfg }
  let s2 := (eachDo (List.range 36) (fun l t => t.configureLink m l) s1).modFn 0 (fun x =>
    { x with qmax := BitVec.ofNat 9 m.pfQmax })
  let r := m.rootCoord
  let s3 := s2.modTime (fun t => { t with root := decide (r = m.coord), rootCoord := r, rootValid := true })
  s3.rootReference.refreshUplink

/-- A manifest takes effect (R424): code 0x0122, RUN after the first (Table 14.11), the jobs, and the affected
partitions. -/
def State.activate (s : State) (m : Manifest) : State :=
  let old := s.pair
  let aff := s.mod.affected
  let s1 := (s.adopt m).logSerai 0x0122 scOk none []
  let s2 := if s1.mod.state = .ready then s1.setMod .run else s1
  let s3 := eachDo (List.range 16) (fun q t => if (t.part q).cfg.isSome then t.jobAtTact m old q else t) s2
  let s4 := { s3 with mod := { s3.mod with taking := s3.mod.taking ++ aff.filter (fun q => !s3.mod.taking.contains q) } }
  let s5 := (eachDo aff (fun q t => t.affectedAtTact q) s4).refreshScrubbing
  if s5.mod.taking.isEmpty then s5.endReassign m else s5.applyLimit false

/-! Commands. -/

/-- An accepted manifest is staged, with code 0x0120; with T_ACT 0 it takes effect at once (R422). -/
def State.stage (s : State) (m : Manifest) (c : CmdRef) : State :=
  let aff := s.affectedBy m
  let s1 := { s with mod := { s.mod with staged := some m, affected := aff } }
  let s2 := (s1.logSerai 0x0120 scOk none []).complete c scOk (m.epoch.setWidth 64) m.tAct
  if m.tAct = 0 then s2.activate m else s2

/-- A refused manifest (R421): RESULT1 is the offset of the TLV that fails, open where no TLV does. -/
def State.refuseManifest (s : State) (status : Nat) (at_ : Option Nat) (c : CmdRef) : State :=
  let s1 := if status = scSignature then s.logCus 0x0203 status none [] else s.logSerai 0x0121 status none []
  match at_ with
  | some off => s1.complete c status 0 (w64 off)
  | none => s1.useFree.complete c status 0 s1.freeVal

/-- APPLY_MANIFEST (R420 to R422): the PF alone, and not while one is staged (Table 5.10). -/
def execApplyManifest (h : CmdHdr) (len : Nat) (obj : ManifestObj) (s : State) : Host.Outcome State Fault Refusal :=
  .next (
    if s.takes h (descOf h 0x0D 0 (2 ^ 64 * len)) then
      let c := CmdHdr.ref h 0x0D
      let s1 := s.takeDesc h.fn h.q
      let s2 :=
        if s.mod.recovery then s1.complete c scIllegal 0 0
        else if s.unbound h.fn then s1.complete c scAccess 0 0
        else if h.fn ≠ 0 ∨ s.mod.staged.isSome then s1.reject c 16
        else
          match s1.checkManifest len obj with
          | .accepted m => s1.stage m c
          | .failed st at_ => s1.refuseManifest st at_ c
          | .rejected => s1.reject c 16
      s2.settleQueue h.fn h.q
    else s)

/-- MANIFEST_ACTIVATION (R424): T_ACT of the staged manifest. -/
def execManifestActivation (s : State) : Host.Outcome State Fault Refusal :=
  .next (match (if s.mod.state = .ready ∨ s.mod.state = .run then s.mod.staged else none) with
    | some m => s.activate m
    | none => s)

/-- MANIFEST_SWITCH_TIMEOUT (R424): no switch release has come within WD_MS of T_ACT. -/
def execManifestSwitchTimeout (part : Nat) (s : State) : Host.Outcome State Fault Refusal :=
  .next (
    let x := s.part part
    if s.clocked ∧ part < 16 ∧ s.mod.reassigning = true ∧ s.mod.taking.contains part = true ∧ x.switching.isNone then
      ({ s with mod := { s.mod with
          stopped := if x.st = PartSt.idle then s.mod.stopped else part :: s.mod.stopped } }).beginSwitch part .manifest
    else s)

/-- Discard the staged manifest (R422, R431): code 0x0125. -/
def State.cancelStaged (s : State) : State :=
  match s.mod.staged with
  | some _ => ({ s with mod := { s.mod with staged := none, affected := [] } }).logSerai 0x0125 scOk none []
  | none => s

/-- A write of 1 to MAN_CTL.CANCEL (R422): discarded later than 1 ms before T_ACT. -/
def State.manCancel (s : State) : State :=
  match s.mod.staged with
  | some m => if s.now.toNat + 1000000 ≤ m.tAct.toNat then s.cancelStaged else s
  | none => s

/-- MANIFEST_CANCEL (R422). -/
def execManifestCancel (fn : Nat) (s : State) : Host.Outcome State Fault Refusal :=
  .next (s.onBar fn .module State.manCancel)

end Sys2Proof.Machine
end

