-- ==== Sys2Proof/Machine/Quiesce.lean ====
section
/-!
DEFINITION. Shutdown and reboot, the end of QUIESCE, and the firmware update (R426, R427, R431).
-/

namespace Sys2Proof.Machine

/-- A boot begins (R429): Serai's power controller takes the limit of the supply (R337). -/
def State.boot (s : State) (recov : Bool) : State := (s.startBoot recov).applyLimit false

/-- NIC sends whose frames are still in a transmit queue. -/
def State.nicRefs (s : State) : List (Nat × Nat × BitVec 16) :=
  s.links.flatMap (fun e => e.2.queues.flatMap (fun x => x.2.filterMap (fun f => f.nic)))

/-- A link's queued frames without their NIC sends. -/
def Link.dropNicRefs (x : Link) : Link :=
  { x with queues := x.queues.map (fun e => (e.1, e.2.map (fun f => { f with nic := none }))) }

/-- The STOP that a partition's context switch belongs to completes with ABANDONED. -/
def State.abandonStop (s : State) (q : Nat) : State :=
  match (s.part q).switching with
  | some (.stop c) =>
    (s.modPart q (fun x => { x with switching := some .quiesce })).complete c scAbandoned 0 0
  | _ => s

/-- The SCRUB of a partition completes with ABANDONED. -/
def State.abandonScrub (s : State) (q : Nat) : State :=
  match (s.cus q).scrub with
  | some c => (s.modCus q (fun x => { x with scrub := none })).complete c scAbandoned 0 0
  | none => s

/-- The REVOKE_REGION that waits for region `i` completes with ABANDONED. -/
def State.abandonRevoke (s : State) (i : Nat) : State :=
  match (s.region i).revoke with
  | some c => (s.modRegion i (fun x => { x with revoke := none })).complete c scAbandoned 0 0
  | none => s

/-- Commands in flight complete with ABANDONED (Table 14.11); START and PAUSE do at the end of their
partition's context switch. -/
def State.abandonCommands (s : State) : State :=
  let s1 := eachDo (List.range 16) (fun q t => (t.abandonStop q).abandonScrub q) s
  let s2 := eachDo (s1.regions.map Prod.fst) (fun i t => t.abandonRevoke i) s1
  let s3 := eachDo s2.nicRefs (fun r t => t.completeKind r.1 r.2.1 r.2.2 3 scAbandoned 0 0) s2
  let ls := s3.links.map (fun e => (e.1, e.2.dropNicRefs))
  { s3 with links := ls }.refreshScrubbing

/-- The module enters QUIESCE (R431): a staged manifest is cancelled, every partition is stopped, a commit of the
lifetime ledger begins (R361). -/
def State.enterQuiesce (s : State) (after : AfterQuiesce) : State :=
  let s1 := ({ s with mod := { s.mod with after := after } }.setMod .quiesce).cancelStaged.abandonCommands
  (eachDo (List.range 16) (fun q t => t.stopPart q .quiesce) s1).lifeBegin

/-- May the module go to QUIESCE (Table 14.11)? -/
def State.mayQuiesce (s : State) : Bool := decide (s.mod.state = .ready) || decide (s.mod.state = .run)

/-- A write of 1 to MOD_CTL.SHUTDOWN. -/
def State.shutdownOp (s : State) : State := if s.mayQuiesce then s.enterQuiesce .shutdown else s

/-- A write of 1 to MOD_CTL.REBOOT: from FAULT straight to BOOT. -/
def State.rebootOp (s : State) : State :=
  if s.mayQuiesce then s.enterQuiesce .reboot
  else if s.mod.state = .fault then s.boot false
  else s

/-- SHUTDOWN (R431). -/
def execShutdown (src : Source) (s : State) : Host.Outcome State Fault Refusal :=
  .next (if s.mayWrite src .module then s.shutdownOp else s)

/-- REBOOT (R431). -/
def execReboot (src : Source) (s : State) : Host.Outcome State Fault Refusal :=
  .next (if s.mayWrite src .module then s.rebootOp else s)

/-- Is a partition stopped: IDLE, and no context switch runs? -/
def Part.stopped (x : Part) : Bool :=
  decide (x.st = .idle) && (match x.switching with
    | none => true
    | some .held => true
    | some _ => false)

/-- May QUIESCE end: partitions stopped, ledger committed, logbook flushed (Table 14.11)? -/
def State.quiesced (s : State) : Bool :=
  (List.range 16).all (fun q => (s.part q).stopped) && s.life.committing.isNone && !s.life.again
    && s.log.staging.isEmpty

/-- QUIESCE_DONE (R431). -/
def execQuiesceDone (s : State) : Host.Outcome State Fault Refusal :=
  .next (if s.mod.state = .quiesce ∧ s.quiesced then
      match s.mod.after with
      | .shutdown => s.powerCut true .standby
      | .reboot => s.boot false
    else s)

/-! Firmware update (R426, R427). -/

/-- Bytes of the image area (Table 16.7). -/
def imageArea : Nat := 2 ^ 24

/-- Is the header of an image as R426 gives it, and does the image fit the area? -/
def imageForm (i : FwImage) : Bool :=
  let len := i.body.length + trailerLen
  fld i.body 0 4 == 0x57463532 && fld i.body 8 4 == len && fld i.body 7 1 == 0
    && ((i.body.drop 12).take 52).all (· == 0) && decide (64 ≤ i.body.length) && decide (len ≤ imageArea)

/-- The status of the checks of an image (R372, R376, R426, R427). -/
def State.imageCheck (s : State) (i : FwImage) : Nat :=
  if !trailerOk i.trailer 1 fwAnchor i.body then scSignature
  else if (imageSvn i).toNat < s.customs.fuseSvn then scIllegal
  else if imageForm i then scOk
  else scIllegal

/-- An update ends: FWU_RESULT.STATUS and code 0x0104. -/
def State.fwuEnd (s : State) (status : Nat) : State :=
  { s with mod := { s.mod with fwuBusy := false, fwuStatus := st8 status, fwuImage := none } }.logSerai 0x0104 status none []

/-- FIRMWARE_UPDATE (R427): discarded while BUSY; an image that fails a check changes nothing. -/
def execFirmwareUpdate (fn : Nat) (image : FwImage) (s : State) : Host.Outcome State Fault Refusal :=
  .next (s.onBar fn .module (fun s =>
    if s.mod.fwuBusy then s
    else
      let st := s.imageCheck image
      if st = scOk then { s with mod := { s.mod with fwuBusy := true, fwuProgress := 0, fwuImage := some image } }
      else s.fwuEnd st))

/-- FIRMWARE_UPDATE_DONE (R427): the area has been erased and programmed, and read back. -/
def execFirmwareUpdateDone (ok : Bool) (s : State) : Host.Outcome State Fault Refusal :=
  .next (if s.seraiOn ∧ s.mod.fwuBusy then
      ({ s with mod := { s.mod with
          flashValid := ok, flash := s.mod.fwuImage.getD s.mod.flash, fwuProgress := 100 } }).fwuEnd
        (if ok then scOk else scUncorr)
    else s)

end Sys2Proof.Machine
end

