-- ==== Sys2Proof/Machine/Boot.lean ====
section
/-!
DEFINITION. The supply, the pins, the rails, PCIe training and boot (R362, R375 to R378, R402, R428 to R431,
R464 to R477).
-/

namespace Sys2Proof.Machine

/-! 54 V (R465). -/

/-- Is VIN in the range of "54 V present" (R465)? -/
def vinPresent (mv : Nat) : Bool := decide (47000 ≤ mv) && decide (mv ≤ 58000)

/-- POWER_PRESENT (R464, R465): VIN has stayed in range with SEAT mated; OFF to STANDBY. -/
def execPowerPresent (mv : Nat) (s : State) : Host.Outcome State Fault Refusal :=
  .next (if s.mod.state = .off ∧ vinPresent mv then
      { s with
        mod := { s.mod with state := .standby }
        phys := { s.phys with vin := mv, seat := true, inputOn := true, stbyOk := true } }
    else s)

/-- OFF (R457, R465): the input switch is open, and no output is driven. -/
def State.goOff (s : State) : State :=
  let s1 := { s with phys := { s.phys with faultHeld := false } }.powerCut false .off
  { s1 with phys := { s1.phys with inputOn := false, leakN := false, stbyOk := false } }

/-- POWER_LOST (R457, R465). -/
def execPowerLost (s : State) : Host.Outcome State Fault Refusal :=
  .next (if s.mod.state = .off then s else s.goOff)

/-- OVERVOLTAGE (R465). -/
def execOvervoltage (s : State) : Host.Outcome State Fault Refusal :=
  .next (if s.mod.state = .off then s else s.goOff)

/-! Pins (R469). -/

/-- WAKE (R429, Table 16.5): ignored outside STANDBY. -/
def execWake (recov : Bool) (s : State) : Host.Outcome State Fault Refusal :=
  .next (if s.mod.state = .standby then s.boot recov else s)

/-- PERST (Table 16.5): in RUN a reset of the PF (R407); in other states the PCIe controller is reset and
trains again. -/
def execPerst (s : State) : Host.Outcome State Fault Refusal :=
  .next (match s.mod.state with
    | .off => s
    | .standby => s
    | .run => if s.barUp then s.resetPf else s
    | _ => { s with mod := { s.mod with pcieDown := true } })

/-- MRST (Table 16.5, R470): to STANDBY from any state but OFF. -/
def execMrst (s : State) : Host.Outcome State Fault Refusal :=
  .next (if s.mod.state = .off then s else s.powerCut true .standby)

/-- PCIE_LINK_TRAINED (R402): FN_LINK, step 2 of boot is complete, and code 0x0302 below 64 GT/s x16. -/
def execPcieLinkTrained (speed : BitVec 3) (width : BitVec 2) (s : State) :
    Host.Outcome State Fault Refusal :=
  .next (if s.seraiOn ∧ speed.toNat ≤ 3 ∧ width.toNat ≤ 2 then
      let step := if s.mod.state = .boot ∧ s.mod.bootStep.toNat < 3 then 3 else s.mod.bootStep
      let s1 := { s with mod := { s.mod with
        pcieDown := false, pcieSpeed := speed, pcieWidth := width, bootStep := step } }
      if speed = 0 ∧ width = 0 then s1 else s1.logPcie 0x0302 scOk 0 0 []
    else s)

/-! Rails and the leak sensor (R467, R475, R477). -/

/-- A rail's number in the model. -/
def railNumber : Rail → Nat
  | .vstby => 0
  | .vsv => 1
  | .vio => 2
  | .vphy => 3
  | .vln => 4
  | .vcs => 5
  | .lpddr => 6
  | .vopt => 7
  | .vcd n => 16 + n
  | .hbm n => 32 + n

/-- Does a rail feed Serai or the always-on domain (R467, third item)? -/
def railVital : Rail → Bool
  | .vstby => true
  | .vsv => true
  | _ => false

/-- A fault of VSV or VSTBY: every main rail goes off, STANDBY, FAULT# until the next wake. -/
def State.vitalFault (s : State) (r : Rail) : State :=
  let s1 := { s with phys := { s.phys with faultHeld := true } }.powerCut true .standby
  { s1 with phys := { s1.phys with stbyOk := decide (r ≠ .vstby) } }

/-- A rail of a memory goes off: its stack, or every channel of the cistern, is READY no more (R219, R220). -/
def State.memoryRail (s : State) (r : Rail) : State :=
  match r with
  | .hbm n => s.modDie n (fun d => { d with hbm := { d.hbm with ready := false, patrolActive := false } })
  | .lpddr => eachDo (List.range 6) (fun m t => t.modCis m (fun c => { c with ready := 0 })) s
  | _ => s

/-- A fault of any other rail: code 0x4011, the rail off, FAULT with cause 3. -/
def State.otherFault (s : State) (r : Rail) : State :=
  let s1 := (s.logPhys 0x4011 scUncorr [Config.railArg (railNumber r)]).memoryRail r
  { s1 with phys := { s1.phys with railsOff := railNumber r :: s1.phys.railsOff } }.enterFault 3

/-- What a rail fault does (R467). Only VSTBY is up in STANDBY, and none in OFF (Table 16.3). -/
def State.railFault (s : State) (r : Rail) : State :=
  match s.mod.state with
  | .off => s
  | .standby => if r = .vstby then s.vitalFault r else s
  | _ => if railVital r then s.vitalFault r else s.otherFault r

/-- RAIL_FAULT (R467). -/
def execRailFault (r : Rail) (s : State) : Host.Outcome State Fault Refusal :=
  .next (s.railFault r)

/-- LEAK_DETECTED (R475): LEAK# is asserted, with code 0x4012 once per assertion. -/
def execLeakDetected (s : State) : Host.Outcome State Fault Refusal :=
  .next (if s.mod.state = .off ∨ s.phys.leakN then s
    else
      let s1 := { s with phys := { s.phys with leakN := true } }
      if s.seraiOn then s1.logPhys 0x4012 scOk [] else s1)

/-- LEAK_CLEARED (R475, Table 16.5): LEAK# is released. -/
def execLeakCleared (s : State) : Host.Outcome State Fault Refusal :=
  .next { s with phys := { s.phys with leakN := false } }

/-! Boot (Table 14.10). -/

/-- Recovery mode is entered (R428): READY, code 0x0103. No image runs, so that FWM is zeros and the SVN 0, and the CDI
is that of these (log entry 85). -/
def State.enterRecovery (s : State) (status : Nat) : State :=
  let s1 := { s with
    mod := { s.mod with recovery := true },
    customs := { s.customs with recovery := true, fwm := 0, fwSvn := 0, cdi := some (cdiOf 0 0) } }
  (s1.setMod .ready).logSerai 0x0103 status none []

/-- An image that fails R375 or R376 (R428): the Customs code, then recovery mode. -/
def State.badImage (s : State) (code status : Nat) : State := (s.logCus code status none []).enterRecovery status

/-- Cores that the lifetime record gives as retired (R156, R362). -/
def State.bootRetired (s : State) : State :=
  eachDo s.life.cur.cores (fun e t =>
    if e.2.retired ∧ e.1 < 264 then
      t.modDie (e.1 / 22) (fun d => { d with retired := d.retired ||| BitVec.ofNat 22 (2 ^ (e.1 % 22)) })
    else t) s

/-- A core fails self-test (R156, R430): quarantined, code 0x1002, the lifetime ledger. -/
def State.bootQuarantine (s : State) (p : Nat) : State :=
  if p < 264 then
    let s1 := (s.modCore p (fun c => { c with st := .quarantined })).modDie (p / 22) (fun d =>
      { d with quar := d.quar ||| BitVec.ofNat 22 (2 ^ (p % 22)) })
    (s1.logCore p 0x1002 scUncorr []).lifeQuarantine p
  else s

/-- CORE_MAP at boot (R156), the stack trained, its patrol running, and the engines' tests passed. -/
def Die.booted (d : Die) (now : DWord) : Die :=
  { d with coreMap := d.bootMap, hbm := { d.hbm with ready := true, patrolActive := true },
           lastUpdTest := now, lastChTest := now }

/-- Cores, stacks and channels after training and self-test (R156, R206, R209, R430). -/
def State.bootUnits (s : State) (r : BootReport) : State :=
  let s1 := eachDo (r.failedCores.eraseDups) (fun p t => t.bootQuarantine p) s.bootRetired
  let s2 := eachDo (List.range 12) (fun n t => t.modDie n (fun d => d.booted s.now)) s1
  let s3 := eachDo (List.range 264) (fun p t =>
    if r.failedCores.contains p then t else t.modCore p (fun c => { c with lastTest := s.now })) s2
  let s4 := eachDo (List.range 6) (fun m t => t.modCis m (fun c => { c with ready := BitVec.allOnes 16 })) s3
  let s5 := eachDo r.failedStacks.eraseDups (fun n t => if n < 12 then t.failStack n else t) s4
  eachDo r.failedChannels.eraseDups (fun c t => if c < 96 then t.failChannel (c / 16) (c % 16) else t) s5

/-- The boot scrub (R216, R377): all of HBM3E reads zero, all of the cistern is undefined, code 0x020C. -/
def State.bootScrub (s : State) : State :=
  let m := { s.mem with
    hbm := [], hbmErr := [], hbmWb := [], cis := [], cisErr := [], cisWb := [],
    cisScrubs := s.mem.cisScrubs ++ [.change [] [] [] []] }
  { s with mem := m }.logCus 0x020C scOk none []

/-- The lifetime ledger at boot (R362, Table 14.10): BOOTS + 1; a slot of higher SEQ that is not valid sets RECOVERED,
with code 0x4008. The loss of power before it has left the newest valid record in `committed`. -/
def State.bootLife (s : State) : State :=
  let s1 := s.modLife (fun r => { r with boots := r.boots + 1 })
  if tornAbove s.life.slots then
    { s1 with life := { s1.life with recovered := true } }.logPower 24 0x4008 scOk []
  else s1

/-- Steps 4 to 8 of Table 14.10 with an image that passed. The power controller, which is firmware's, takes the supply and the
budget that the always-on domain kept (R337). -/
def State.bootRest (s : State) (r : BootReport) : State :=
  let fwm := Config.sha384 s.mod.flash.body
  let svn := imageSvn s.mod.flash
  let s1 := { s with customs := { s.customs with
    fwOk := true, fwSvn := svn, fwm := fwm, cdi := some (cdiOf fwm svn) } }
  if r.causewayOk = false then
    ({ s1 with mod := { s1.mod with bootStep := 6 } }.logSerai 0x0102 scUncorr none []).enterFault 2
  else
    let s2 := (((s1.applyLimit false).bootUnits r).bootScrub).bootLife
    { s2 with mod := { s2.mod with bootStep := 8 } }.setMod .ready

/-- The end of boot (R373, R375, R376, R378, R428 to R430): the ROM has locked UDS, and the operator anchor is the one whose
HMAC verifies. Where the spec does not say which of its two statuses code 0x0103
carries, a free value chooses. -/
def State.bootEnd (s : State) (r : BootReport) : State :=
  let s1 := { s with
    mod := { s.mod with bootStep := 3 },
    customs := { s.customs with udsLocked := true, anchor := anchorOf s.customs.anchorFlash } }
  if s.mod.recovStrap || r.recov || !r.flashOk then
    s1.useFree.enterRecovery (if s1.freeVal.getLsbD 0 then scSignature else scIllegal)
  else if !s.mod.flashValid || !trailerOk s.mod.flash.trailer 1 fwAnchor s.mod.flash.body then s1.badImage 0x0201 scSignature
  else if (imageSvn s.mod.flash).toNat < s.customs.fuseSvn then s1.badImage 0x0202 scIllegal
  else s1.bootRest r

/-- BOOT_DONE (R429, R430). -/
def execBootDone (r : BootReport) (s : State) : Host.Outcome State Fault Refusal :=
  .next (if s.mod.state = .boot then s.bootEnd r else s)

end Sys2Proof.Machine
end

