-- ==== Sys2Proof/Machine/Detect.lean ====
section
/-!
DEFINITION. Fault detection: periodic tests, lockstep, clock monitors, and the injections that prove them
(R92, R156, R165, R452 to R456).
-/

namespace Sys2Proof.Machine

/-- A check on the core's own arithmetic or storage fails (Table 15.6): a core fault of status
UNCORRECTABLE, which Serai takes at once; quarantine and replay (Table 5.8). -/
def State.checkFailed (s : State) (p code : Nat) (args : List Word) : State :=
  (s.coreFault p scUncorr code true 0 args).takeFault p

/-- Is the core quarantined already? -/
def State.quarantined (s : State) (p : Nat) : Bool := (s.die (p / 22)).quar.getLsbD (p % 22)

/-- The test times of a failed test (R456): the last passing test, and the replay point of the core's
partition, low halves first. -/
def State.testArgs (s : State) (p : Nat) : List Word :=
  let rp := match s.partOfPhys p with
    | some q => (s.part q).rpTime
    | none => 0
  w64words (s.core p).lastTest ++ w64words rp

/-- May a core be tested now (R453)? Its clock runs, or, where it carries no logical core of a partition, starts for the
self-test (R334); a partition's core whose clock is gated is tested after the next start. -/
def State.testable (s : State) (p : Nat) : Bool :=
  !s.quarantined p && (match s.partOfPhys p with
    | some q => (s.part q).st.clocked
    | none => true)

/-- PERIODIC_CORE_TEST (R453, R456): its cycles count in tally 31. -/
def execPeriodicCoreTest (n k : Nat) (pass : Bool) (cycles : Nat) (s : State) :
    Host.Outcome State Fault Refusal :=
  let p := 22 * n + k
  .next (if s.clocked ∧ n < 12 ∧ k < 22 ∧ s.testable p = true then s.withClock p (fun s =>
      let s1 := (s.tallyAdd p tlTEST cycles).traceAt p 9 0 0 (w64 (b2n (!pass))) (w64 cycles)
      if pass then s1.modCore p (fun c => { c with lastTest := s.dieNow n })
      else
        (s1.modDie n (fun d => { d with safeFails := satAdd d.safeFails 1 })).checkFailed p 0x1042
          (s1.testArgs p))
    else s)

/-- The replay point named in an engine's entry (R456): that of the partition with cores on the die, the lowest-numbered of
several, and time 0 where none has cores there (log entry 88). -/
def State.engineReplay (s : State) (n : Nat) : DWord :=
  match (List.range 16).find? (fun q => s.ownsDie q n) with
  | some q => (s.part q).rpTime
  | none => 0

/-- PERIODIC_ENGINE_TEST (R454, R456): a failed test fences the engine until the next boot. The update engine is tested
while its clock runs (R333). -/
def execPeriodicEngineTest (n : Nat) (house pass : Bool) (s : State) : Host.Outcome State Fault Refusal :=
  .next (if s.clocked ∧ n < 12 ∧ (house || s.pllOn n) then
      let t := s.dieNow n
      if pass then
        s.modDie n (fun d => if house then { d with lastChTest := t } else { d with lastUpdTest := t })
      else
        let last := if house then (s.die n).lastChTest else (s.die n).lastUpdTest
        let s1 := s.modDie n (fun d => { d with
          safeFails := satAdd d.safeFails 1, chFenced := d.chFenced || house,
          upd := { d.upd with fenced := d.upd.fenced || !house } })
        s1.logEngine n house (if house then 0x1202 else 0x1106) scUncorr
          (w64words last ++ w64words (s.engineReplay n))
    else s)

/-- LOCKSTEP_MISMATCH (R452). -/
def execLockstepMismatch (n k : Nat) (s : State) : Host.Outcome State Fault Refusal :=
  .next (if s.clocked ∧ n < 12 ∧ k < 22 ∧ s.quarantined (22 * n + k) = false then
      s.checkFailed (22 * n + k) 0x1043 []
    else s)

/-- QUAR_INJECT (R156, R165): as on a failed check, with code 0x1002. -/
def execQuarInject (fn n : Nat) (phys : BitVec 5) (s : State) : Host.Outcome State Fault Refusal :=
  let p := 22 * n + phys.toNat
  .next (if fn = 0 ∧ n < 12 ∧ phys.toNat < 22 ∧ s.clocked then s.onBar fn (.die n) (fun s =>
      if s.quarantined p then s else (s.coreFaultSeen p scUncorr 0x1002 true 0).takeFault p)
    else s)

/-- RES_INJECT (R92): discarded from a VF. -/
def execResInject (fn n k : Nat) (target : BitVec 2) (s : State) : Host.Outcome State Fault Refusal :=
  .next (if fn = 0 ∧ n < 12 ∧ k < 22 then s.onBar fn (.core n k) (fun s =>
      s.modCore (22 * n + k) (fun c => { c with lreg := { c.lreg with
        injChunk := c.lreg.injChunk || decide (target = 1),
        injDraw := c.lreg.injDraw || decide (target = 2) } }))
    else s)

/-! Clock monitors (R455). -/

/-- Blocks of `blk` bytes, from the b0-th to the b1-th of a group of `n` places, reach a place of which
`ok` holds: all are reached when there are `n` of them. -/
def anyBlock (b0 b1 n : Nat) (ok : Nat → Bool) : Bool :=
  (List.range (min n (b1 + 1 - b0))).any (fun i => ok ((b0 + i) % n))

/-- Does a range of a group of HBM lie on stack `d`? -/
def Group.onStack (g : Group) (a n d : Nat) : Bool :=
  let sts := setBits 12 g.set
  let lo := g.base * gib
  let hi := lo + sts.length * g.size * gib
  let x := max a lo
  let y := min (a + n) hi
  decide (x < y) &&
    anyBlock ((x - lo) / 4096) ((y - 1 - lo) / 4096) sts.length (fun i => sts.getD i 99 == d)

/-- Does a range of a group of the cistern lie on cistern die `m`? -/
def Group.onCis (g : Group) (a n m : Nat) : Bool :=
  let k := 24 * (setBits 4 g.set).length
  let lo := cisBase + g.base * gib
  let hi := lo + k * g.size * gib
  let x := max a lo
  let y := min (a + n) hi
  decide (x < y) && anyBlock ((x - lo) / 1024) ((y - 1 - lo) / 1024) k (fun c => c % 24 / 4 == m)

/-- Does a range of internal addresses lie on die `d`, numbered as in PWR_TJ? -/
def State.rangeOn (s : State) (a n d : Nat) : Bool :=
  if d < 12 then s.mem.hgrps.any (fun e => e.2.onStack a n d)
  else if 18 ≤ d then s.mem.cgrps.any (fun e => e.2.onCis a n (d - 18))
  else false

/-- Has the partition cores or memory on die `d` (R455)? -/
def State.partOnDie (s : State) (q d : Nat) : Bool :=
  let x := s.part q
  (decide (d < 12) && s.ownsDie q d)
    || (match x.cfg with
        | some c => c.windows.any (fun w => !w.pool && s.rangeOn w.base w.size d)
        | none => false)
    || x.mem.placements.any (fun e => s.rangeOn e.2.base e.2.size d)

/-- CLOCK_MONITOR_FAULT (R455). -/
def execClockMonitorFault (c : ClockAt) (s : State) : Host.Outcome State Fault Refusal :=
  .next (if s.clocked then
      match c with
      | .coreArith n k =>
        if n < 12 ∧ k < 22 ∧ s.quarantined (22 * n + k) = false then
          s.checkFailed (22 * n + k) 0x1045 []
        else s
      | .die d =>
        if d < 24 then
          let qs := (List.range 16).filter (fun q => s.partOnDie q d)
          let s1 := s.logAt (.die d) 0x4010 scUncorr none [] []
          eachDo (qs.flatMap s.physOfPart) (fun p t =>
            if (t.core p).st = .running ∨ (t.core p).st = .done then
              t.coreFaultSeen p scUncorr 0x4010 false (t.core p).waitStm
            else t) s1
        else s
      | .serai => s.enterFault 4
    else s)

/-- FIRMWARE_WATCHDOG (R431, R452). -/
def execFirmwareWatchdog (s : State) : Host.Outcome State Fault Refusal := .next (s.enterFault 4)

end Sys2Proof.Machine
end

