-- ==== Sys2Proof/Machine/MsRegs.lean ====
section
/-!
DEFINITION. MS_DEF_WRITE: the definition registers of the milestone block (R171, R187).
-/

namespace Sys2Proof.Machine

/-- MS_DEF_WRITE (R171): effective only while the partition is IDLE or LOADED; otherwise discarded with
code 0x0131. -/
def execMsDefWrite (fn part off : Nat) (v : Word) (s : State) : Host.Outcome State Fault Refusal :=
  .next (if s.sees fn (.part part) ∧ part < 16 ∧ msDefOff off then
      let x := s.part part
      let o := if 0x100 ≤ off ∧ off < 0x1100 then some ((off - 0x100) / 16) else none
      if (x.st = .idle ∨ x.st = .loaded) ∧ x.switching.isNone then
        match x.ms.write off v with
        | some m => s.modMs part (fun _ => m)
        | none => s.logMs part 0x0131 scIllegal o []
      else s.logMs part 0x0131 scIllegal o []
    else s)

end Sys2Proof.Machine
end

