-- ==== Sys2Proof/Machine/PorterCmds.lean ====
section
/-!
DEFINITION. The Porters' commands: queue-pair operations, injections, frames that arrive, context fetches and
timers (R253 to R281), and the convoy epoch switch (R309, R315).
-/

namespace Sys2Proof.Machine

/-! Queue-pair operations (R253, Table 9.2). -/

/-- QP_CREATE. -/
def execQpCreate (fn m part : Nat) (s : State) : Host.Outcome State Fault Refusal :=
  .next (s.onBar fn (.part part) (fun s => s.pageCmd m part 1))

/-- QP_DESTROY. -/
def execQpDestroy (fn m part : Nat) (s : State) : Host.Outcome State Fault Refusal :=
  .next (s.onBar fn (.part part) (fun s => s.pageCmd m part 2))

/-- QP_PIN. -/
def execQpPin (fn m part : Nat) (s : State) : Host.Outcome State Fault Refusal :=
  .next (s.onBar fn (.part part) (fun s => s.pageCmd m part 3))

/-- QP_UNPIN. -/
def execQpUnpin (fn m part : Nat) (s : State) : Host.Outcome State Fault Refusal :=
  .next (s.onBar fn (.part part) (fun s => s.pageCmd m part 4))

/-- QP_RESET. -/
def execQpReset (fn m part : Nat) (s : State) : Host.Outcome State Fault Refusal :=
  .next (s.onBar fn (.part part) (fun s => s.pageCmd m part 5))

/-- QP_READ_BACK. -/
def execQpReadBack (fn m part : Nat) (s : State) : Host.Outcome State Fault Refusal :=
  .next (s.onBar fn (.part part) (fun s => s.pageCmd m part 6))

/-! Injections (R281). -/

/-- PORTER_INJECT_AUTH: the next received frame fails its tag check. -/
def execPorterInjectAuth (fn m : Nat) (s : State) : Host.Outcome State Fault Refusal :=
  .next (s.onBar fn .pf (fun s =>
    if m < 6 then s.modPorter m (fun p => { p with injAuth := true }) else s))

/-- PORTER_INJECT_DROP: the next data frame sent is discarded before the link. -/
def execPorterInjectDrop (fn m : Nat) (s : State) : Host.Outcome State Fault Refusal :=
  .next (s.onBar fn .pf (fun s =>
    if m < 6 then s.modPorter m (fun p => { p with injDrop := true }) else s))

/-! Frames that find their context in the cache (Tables 9.4 and 10.5). -/

/-- RIRIS_WRITE (R261, R270, R272). -/
def execRirisWrite (f : RirisFrame) (s : State) : Host.Outcome State Fault Refusal := .next (s.rxFrame [1] f)

/-- RIRIS_WRITE_NOTIFY (R261). -/
def execRirisWriteNotify (f : RirisFrame) (s : State) : Host.Outcome State Fault Refusal :=
  .next (s.rxFrame [2] f)

/-- RIRIS_READ_REQ (R259, R270). -/
def execRirisReadReq (f : RirisFrame) (s : State) : Host.Outcome State Fault Refusal := .next (s.rxFrame [3] f)

/-- RIRIS_READ_RESP (R260). -/
def execRirisReadResp (f : RirisFrame) (s : State) : Host.Outcome State Fault Refusal :=
  .next (s.rxFrame [4] f)

/-- RIRIS_NOTIFY (R261). -/
def execRirisNotify (f : RirisFrame) (s : State) : Host.Outcome State Fault Refusal := .next (s.rxFrame [5] f)

/-- RIRIS_ACK (R262, R263). -/
def execRirisAck (f : RirisFrame) (s : State) : Host.Outcome State Fault Refusal := .next (s.rxFrame [6] f)

/-- RIRIS_NAK (R264). -/
def execRirisNak (f : RirisFrame) (s : State) : Host.Outcome State Fault Refusal := .next (s.rxFrame [7] f)

/-- CONVOY_FRAME (R297). -/
def execConvoyFrame (f : RirisFrame) (s : State) : Host.Outcome State Fault Refusal :=
  .next (s.rxFrame [0x20] f)

/-- RIRIS_UNKNOWN_FRAME (R255): discarded and counted, never answered. -/
def execRirisUnknownFrame (f : RirisFrame) (s : State) : Host.Outcome State Fault Refusal :=
  .next (if s.comesIn f ∧ s.rxKnown f = false then (s.takeIn f).rxUnknown f else s)

/-! Context misses (R268, R269). -/

/-- CONTEXT_MISS (R268). -/
def execContextMiss (f : RirisFrame) (s : State) : Host.Outcome State Fault Refusal :=
  .next (if s.comesIn f ∧ s.rxKnown f ∧ (s.qp f.dqp.toNat).cached = false then (s.takeIn f).rxMiss f else s)

/-- CONTEXT_FETCH_DONE (R268, R269). -/
def execContextFetchDone (qp : BitVec 20) (uncorrectable : Bool) (s : State) :
    Host.Outcome State Fault Refusal :=
  .next (if s.clocked then s.fetchEnd qp.toNat uncorrectable else s)

/-- Take the oldest parked frame of a queue pair out of the miss buffer. -/
def takeParked (q : Nat) : List Parked → List Parked
  | [] => []
  | e :: t => if e.qp = q then t else e :: takeParked q t

/-- PARKED_FRAME_TIMEOUT (R269): discarded, counted, code 0x2102. -/
def execParkedFrameTimeout (qp : BitVec 20) (s : State) : Host.Outcome State Fault Refusal :=
  .next (
    let q := qp.toNat
    match (s.porter (homeOf q)).parked.find? (fun e => e.qp == q) with
    | some e =>
      (s.modPorter (homeOf q) (fun p =>
        { p with parked := takeParked q p.parked, parkDrops := p.parkDrops + 1 })).logQp q 0x2102 scOk
          (frameArgs (some e.frame))
    | none => s)

/-! Timers. -/

/-- QP_RETRY_TIMEOUT (R263, R265): the timer runs while frames are unacknowledged, or after a NAK
CONTEXT_BUSY. -/
def execQpRetryTimeout (qp : BitVec 20) (s : State) : Host.Outcome State Fault Refusal :=
  .next (
    let x := s.qp qp.toNat
    if s.clocked ∧ x.st = .active ∧ (x.unacked.isEmpty = false ∨ x.busy = true) then s.qpExpire qp.toNat else s)

/-- ACK_DELAY_EXPIRY (R262). -/
def execAckDelayExpiry (qp : BitVec 20) (s : State) : Host.Outcome State Fault Refusal :=
  .next (
    let x := s.qp qp.toNat
    if s.clocked ∧ x.st = .active ∧ x.ackDue = true then s.sendAck qp.toNat else s)

/-! The epoch switch of a partition's convoys. -/

/-- Is a write of ARM taken (R309)? -/
def State.armOk (s : State) (part : Nat) : Bool :=
  let c := s.convoy part
  !c.held && s.switchOk part c.switchNew c.switchMid

/-- CV_SWITCH_ARM (R309): discarded with code 0x2210 while HELD, when NEW is not the next epoch, or when MID
names no valid job-wide object. -/
def execCvSwitchArm (fn part : Nat) (s : State) : Host.Outcome State Fault Refusal :=
  .next (if part < 16 then s.onBar fn (.part part) (fun s =>
      if s.armOk part then s.modConvoy part (fun c => { c with armed := true, sentUp := false })
      else s.switchDiscard part)
    else s)

/-- CV_SWITCH_DISARM (R309, R315): discarded while HELD, with code 0x2210. -/
def execCvSwitchDisarm (fn part : Nat) (s : State) : Host.Outcome State Fault Refusal :=
  .next (if part < 16 then s.onBar fn (.part part) (fun s =>
      if (s.convoy part).held then s.switchDiscard part else s.modConvoy part (fun c => { c with armed := false }))
    else s)

end Sys2Proof.Machine
end

