-- ==== Sys2Proof/Machine/Regs.lean ====
section
/-!
DEFINITION. BAR0: where its registers lie (Table 14.3), and writes of registers without a row of their own
(R11, R12).
-/

namespace Sys2Proof.Machine

/-- A block of Table 14.3. Windows of a die, a core, a lantern die or a link are blocks of their own. -/
inductive RegBlock
  | module | logbook | trace (q : Nat) | part (q : Nat) | totals | ms (q : Nat) | mem (q : Nat) | groups | causeway
  | convoy (q : Nat) | power | partPower (q : Nat) | time | life | customs | cusPage (q : Nat) | fn (f : Nat)
  | core (p : Nat) | die (n : Nat) | lantern (m : Nat) | porter (m : Nat) | link (l : Nat) | page (m q : Nat)
  | cistern (m : Nat) | other
  deriving DecidableEq, Repr

/-- A block indexed by partition. -/
def indexed (off base step : Nat) (mk : Nat → RegBlock) : RegBlock × Nat :=
  (mk ((off - base) / step), (off - base) % step)

/-- The block and the offset in it of an offset of BAR0. -/
def locate (off : Nat) : RegBlock × Nat :=
  if off < 0x1000 then (.module, off)
  else if 0x10000 ≤ off ∧ off < 0x40000 then (.logbook, off - 0x10000)
  else if 0x40000 ≤ off ∧ off < 0x40400 then indexed off 0x40000 0x40 .part
  else if 0x44000 ≤ off ∧ off < 0x45000 then indexed off 0x44000 0x100 .trace
  else if 0x48000 ≤ off ∧ off < 0x49000 then (.totals, off - 0x48000)
  else if 0x80000 ≤ off ∧ off < 0xC0000 then indexed off 0x80000 0x4000 .ms
  else if 0xC0000 ≤ off ∧ off < 0xC4000 then indexed off 0xC0000 0x400 .mem
  else if 0xD0000 ≤ off ∧ off < 0xD1000 then (.groups, off - 0xD0000)
  else if 0xD1000 ≤ off ∧ off < 0xD2000 then (.causeway, off - 0xD1000)
  else if 0xE0000 ≤ off ∧ off < 0xE1000 then indexed off 0xE0000 0x100 .convoy
  else if 0xF0000 ≤ off ∧ off < 0xF0800 then (.power, off - 0xF0000)
  else if 0xF0800 ≤ off ∧ off < 0xF0C00 then indexed off 0xF0800 0x40 .partPower
  else if 0xF1000 ≤ off ∧ off < 0xF2000 then (.time, off - 0xF1000)
  else if 0xF2000 ≤ off ∧ off < 0xF3000 then (.life, off - 0xF2000)
  else if 0x100000 ≤ off ∧ off < 0x101000 then (.customs, off - 0x100000)
  else if 0x180000 ≤ off ∧ off < 0x190000 then indexed off 0x180000 0x1000 .cusPage
  else if 0x200000 ≤ off ∧ off < 0x288000 then indexed off 0x200000 0x8000 .fn
  else if 0x1000000 ≤ off ∧ off < 0x2800000 then
    let n := (off - 0x1000000) / 0x200000
    let w := (off - 0x1000000) % 0x200000
    if 0x10000 ≤ w ∧ w < 0x170000 then (.core (22 * n + w / 0x10000 - 1), w % 0x10000) else (.die n, w)
  else if 0x2800000 ≤ off ∧ off < 0x2E00000 then
    let m := (off - 0x2800000) / 0x100000
    let w := (off - 0x2800000) % 0x100000
    if w < 0x10000 then (.lantern m, w)
    else if w < 0x70000 then (.link (6 * m + w / 0x10000 - 1), w % 0x10000)
    else if 0x80000 ≤ w ∧ w < 0x90000 then (.porter m, w)
    else if 0x90000 ≤ w ∧ w < 0x91000 then indexed w 0x90000 0x100 (.page m)
    else (.other, w)
  else if 0x2E00000 ≤ off ∧ off < 0x3400000 then indexed off 0x2E00000 0x100000 .cistern
  else (.other, off)

/-- What R405 compares a register's block with; only MOD_STAT, TIME_NOW and TB_STAT are seen by every
function. -/
def RegBlock.bar (b : RegBlock) (off : Nat) : BarBlock :=
  match b with
  | .module => if off = 0 then .modStat else .module
  | .logbook => if (0x28 ≤ off ∧ off < 0x30) ∨ (0x40 ≤ off ∧ off < 0x80) then .pf else .logbook
  | .trace q => .part q
  | .part q => .part q
  | .ms q => .part q
  | .mem q => .part q
  | .convoy q => .part q
  | .page _ q => .part q
  | .partPower q => .part q
  | .cusPage q => .part q
  | .time => if off < 8 ∨ off = 8 then .time else .pf
  | .customs => .customs
  | .fn f => .fnBlock f
  | .core p => .core (p / 22) (p % 22)
  | .die n => if off < 0x190000 then .die n else .pf
  | _ => .pf

/-! Words of the blocks that the sideband reaches (R472). -/

/-- MOD_COORD. -/
def State.modCoord (s : State) : Word := w32 (s.coord + 2 ^ 20 * b2n s.mod.inForce.isSome)

/-- FWU_RESULT. -/
def Module.fwuResult (m : Module) : Word :=
  w32 (m.fwuStatus.toNat + 256 * b2n m.fwuBusy + 512 * m.fwuProgress.toNat)

/-- The staged T_ACT. -/
def State.manTact (s : State) : DWord :=
  match s.mod.staged with
  | some m => m.tAct
  | none => 0

/-- A word of the module block (Table 14.13). -/
def State.moduleWord (s : State) (off : Nat) : Word :=
  match off with
  | 0x000 => s.modStat
  | 0x008 => s.modCoord
  | 0x010 => s.manEpoch
  | 0x014 => s.mod.manHigh
  | 0x040 => s.manStaged
  | 0x048 => s.manTact.setWidth 32
  | 0x04C => (s.manTact >>> 32).setWidth 32
  | 0x050 => s.manCtl
  | 0x100 => s.mod.fwuAddr.setWidth 32
  | 0x104 => (s.mod.fwuAddr >>> 32).setWidth 32
  | 0x108 => s.mod.fwuLen.setWidth 32
  | 0x110 => s.mod.fwuResult
  | _ => if 0x020 ≤ off ∧ off < 0x040 then w32 (s.pair.1.toNat / 2 ^ (8 * (off - 0x020))) else 0

/-- PWR_TJ[d]. -/
def DieSense.word (d : DieSense) : Word := w32 (d.tj.toNat + 256 * d.maxTj.toNat)

/-- A word of the power block (Table 12.6). -/
def State.powerWord (s : State) (off : Nat) : Word :=
  match off with
  | 0x000 => s.pwr.budget.setWidth 32
  | 0x004 => s.pwr.eff.setWidth 32
  | 0x008 => s.pwr.nowWord
  | 0x00C => s.pwr.supplyMv.setWidth 32
  | 0x010 => s.pwr.statWord
  | 0x014 => s.pwrCommit
  | 0x100 => s.pwr.energy.setWidth 32
  | 0x104 => (s.pwr.energy >>> 32).setWidth 32
  | _ =>
    if 0x040 ≤ off ∧ off < 0x070 then s.dieWord ((off - 0x040) / 4)
    else if 0x080 ≤ off ∧ off < 0x0E4 then (s.sense ((off - 0x080) / 4)).word
    else 0

/-- A word of the time block (Table 12.8). -/
def State.timeWord (s : State) (off : Nat) : Word :=
  match off with
  | 0x000 => s.now.setWidth 32
  | 0x004 => (s.now >>> 32).setWidth 32
  | 0x008 => s.time.statWord
  | 0x00C => s.time.offset
  | 0x010 => s.time.delay
  | 0x014 => s.time.rate
  | 0x018 => w32 (s.time.rootCoord.toNat + 2 ^ 20 * b2n s.time.rootValid)
  | 0x01C => w32 (b2n s.time.ptpEn)
  | 0x028 => w32 (b2n s.time.ptpLocked)
  | _ => 0

/-! Writes (R11, R12): RW fields take their bits of the value, W1C bits are cleared, everything else is left
as it is. Writes that have a row of their own do nothing here. -/

/-- The low or the high half of a 64-bit value written. -/
def setHalf (d : DWord) (high : Bool) (v : Word) : DWord := if high then v ++ d.setWidth 32 else (d >>> 32).setWidth 32 ++ v

/-- Module block: the FWU registers, discarded while BUSY. -/
def Module.write (m : Module) (off : Nat) (v : Word) : Module :=
  if m.fwuBusy then m
  else if off = 0x100 then { m with fwuAddr := setHalf m.fwuAddr false v }
  else if off = 0x104 then { m with fwuAddr := setHalf m.fwuAddr true v }
  else if off = 0x108 then { m with fwuLen := v.setWidth 25 }
  else m

/-- LOG_RL_DEF: a write of 0 to a field is discarded. -/
def Logbook.writeDef (l : Logbook) (v : Word) : Logbook :=
  let r : Byte := v.setWidth 8
  let d : Byte := (v >>> 8).setWidth 8
  { l with rlRate := if r = 0 then l.rlRate else r, rlDepth := if d = 0 then l.rlDepth else d }

/-- Logbook block (Table 15.13). A VF's write of LOG_RING is discarded. -/
def State.writeLog (s : State) (fn off : Nat) (v : Word) : State :=
  if off = 0 then
    if fn = 0 ∧ v.toNat % 32 ≤ 17 then s.modView 0 (fun x => { x with ring := v.setWidth 5 }) else s
  else if off = 0x24 then s.modView fn (fun x => { x with auto := v.getLsbD 0 })
  else if off = 0x28 then { s with log := s.log.writeDef v }
  else if 0x40 ≤ off ∧ off < 0x80 then
    let e : LogRl := { code := v.setWidth 16, rate := (v >>> 16).setWidth 8, depth := (v >>> 24).setWidth 7,
                       valid := v.getLsbD 31 }
    { s with log := { s.log with rl := tabSet s.log.rl ((off - 0x40) / 4) e } }
  else s

/-- Partition trace block (Table 15.11): the destination is fixed while EN is 1 (R460). -/
def TraceDest.write (t : TraceDest) (off : Nat) (v : Word) : TraceDest :=
  if off = 0x00 then { t with en := v.getLsbD 0, stopMode := v.getLsbD 1, remote := v.getLsbD 2 }
  else if t.en then t
  else if off = 0x04 then { t with base := BitVec.ofNat 44 (t.base.toNat / 2 ^ 32 * 2 ^ 32 + v.toNat / 4096 * 4096) }
  else if off = 0x08 then { t with base := BitVec.ofNat 44 (v.toNat % 4096 * 2 ^ 32 + t.base.toNat % 2 ^ 32) }
  else if off = 0x0C then { t with size := v }
  else if off = 0x10 then { t with qp := v.setWidth 20 }
  else if off = 0x14 then { t with rkey := v }
  else t

/-- MS_CTL and MS_STAT (Table 6.5). -/
def Milestones.writeCtl (m : Milestones) (off : Nat) (v : Word) : Milestones :=
  if off = 0 then (let w : BitVec 16 := v.setWidth 16; if w = 0 then m else { m with wdMs := w })
  else if off = 4 then { m with mismatch := m.mismatch && !v.getLsbD 8 }
  else m

/-- A 44-bit base whose two halves are registers: bits [31:12] and [43:32]. -/
def writeBase (b : BitVec 44) (high : Bool) (v : Word) : BitVec 44 :=
  if high then BitVec.ofNat 44 (v.toNat % 4096 * 2 ^ 32 + b.toNat % 2 ^ 32)
  else BitVec.ofNat 44 (b.toNat / 2 ^ 32 * 2 ^ 32 + v.toNat / 4096 * 4096)

/-- The placement staging registers (Table 7.9), discarded while a command is in progress (R200). -/
def PartMem.write (m : PartMem) (off : Nat) (v : Word) : PartMem :=
  if m.plcBusy then m
  else if off = 0x200 then { m with plcIdx := v.setWidth 6 }
  else if off = 0x204 then { m with plcBase := writeBase m.plcBase false v }
  else if off = 0x208 then { m with plcBase := writeBase m.plcBase true v }
  else if off = 0x20C then { m with plcSize := v }
  else if off = 0x210 then { m with plcClass := v.setWidth 4 }
  else m

/-- Convoy block (Table 10.9): the table's base is fixed while a bucket is OPEN (R315); a write of CV_SWITCH or
CV_SWITCH_GEN while HELD, and one of CV_SWITCH that names no next epoch or no job-wide milestone, is discarded with code
0x2210 (R309). -/
def State.writeConvoy (s : State) (q off : Nat) (v : Word) : State :=
  let c := s.convoy q
  if off = 0x00 ∨ off = 0x04 then
    if c.buckets.any (fun e => decide (e.2.st = .opened)) then s
    else s.modConvoy q (fun c => { c with table := writeBase c.table (off == 0x04) v })
  else if off = 0x10 ∨ off = 0x14 then
    if c.held then s.switchDiscard q
    else if off = 0x10 then
      if s.switchOk q (v.setWidth 4) ((v >>> 4).setWidth 16) = false then s.switchDiscard q
      else s.modConvoy q (fun c => { c with switchNew := v.setWidth 4, switchMid := (v >>> 4).setWidth 16 })
    else s.modConvoy q (fun c => { c with switchGen := v.setWidth 16 })
  else if off = 0x30 then s.modConvoy q (fun c => { c with peekIdx := v.setWidth 12 })
  else s

/-- Time block (Table 12.8). -/
def TimeBase.write (t : TimeBase) (off : Nat) (v : Word) : TimeBase :=
  if off = 0x1C then { t with ptpEn := v.getLsbD 0 }
  else if off = 0x20 then { t with stepLo := v }
  else t

/-- Time block: with PTP_EN the reference of a time root changes (R353). -/
def State.writeTime (s : State) (off : Nat) (v : Word) : State :=
  let s1 := s.modTime (fun t => t.write off v)
  if off = 0x1C then s1.rootReference else s1

/-- A service entry (Table 12.9, R363): a new DUE, or VALID = 0, clears DUE_NOW. -/
def Svc.write (x : Svc) (ctl : Bool) (v : Word) : Svc :=
  if ctl then { x with kind := v.setWidth 8, valid := v.getLsbD 8, dueNow := x.dueNow && v.getLsbD 8 }
  else { x with due := v, dueNow := false }

/-- Lifetime block; a service entry written begins a commit (R361). -/
def State.writeLife (s : State) (off : Nat) (v : Word) : State :=
  if off = 0x004 then
    { s with life := { s.life with writeFail := s.life.writeFail && !v.getLsbD 1,
                                   recovered := s.life.recovered && !v.getLsbD 2 } }
  else if off = 0x008 then { s with life := { s.life with page := v.setWidth 8 } }
  else if 0x040 ≤ off ∧ off < 0x0C0 then
    (s.modLife (fun r => { r with svc := tabMod ({} : Svc) r.svc ((off - 0x040) / 8) (fun x =>
      x.write (decide (off % 8 = 4)) v) })).lifeBegin
  else s

/-- Customs module block: the argument registers (Table 13.14). -/
def Customs.write (c : Customs) (off : Nat) (v : Word) : Customs :=
  if off = 0x100 then { c with argAddr := setHalf c.argAddr false v }
  else if off = 0x104 then { c with argAddr := setHalf c.argAddr true v }
  else if off = 0x108 then { c with argLen := v.setWidth 16 }
  else c

/-- QUEUE_CFG (Table 14.14): KIND 1 and 2 are discarded on the PF, and KIND 3 everywhere. -/
def Queue.writeCfg (y : Queue) (fn : Nat) (v : Word) : Queue :=
  let k : BitVec 2 := (v >>> 5).setWidth 2
  { y with log2 := v.setWidth 5, kind := if k = 3 ∨ (fn = 0 ∧ k ≠ 0) then y.kind else k,
           tc := (v >>> 7).setWidth 2, link := (v >>> 9).setWidth 6 }

/-- The set-up registers of a queue, discarded while EN is 1 (R408). -/
def Queue.write (y : Queue) (fn off : Nat) (v : Word) : Queue :=
  if y.en then y
  else if off = 0x00 then { y with sqBase := setHalf y.sqBase false (v &&& 0xFFFFF000) }
  else if off = 0x04 then { y with sqBase := setHalf y.sqBase true v }
  else if off = 0x08 then { y with cqBase := setHalf y.cqBase false (v &&& 0xFFFFF000) }
  else if off = 0x0C then { y with cqBase := setHalf y.cqBase true v }
  else if off = 0x10 then y.writeCfg fn v
  else y

/-- FN_NIC_MAC. -/
def NicMac.write (m : NicMac) (high : Bool) (v : Word) : NicMac :=
  if high then { m with addrHi := v.setWidth 16, valid := v.getLsbD 16, bcast := v.getLsbD 17 }
  else { m with addrLo := v }

/-- Function block (Table 14.14). -/
def State.writeFn (s : State) (f off : Nat) (v : Word) : State :=
  if off = 0x4 then s.modFn f (fun x => { x with evq := v.setWidth 8 })
  else if 0x1000 ≤ off ∧ off < 0x3000 then
    s.modQueue f ((off - 0x1000) / 0x20) (fun y => y.write f (off % 0x20) v)
  else if 0x4000 ≤ off ∧ off < 0x4480 then
    s.modFn f (fun x => { x with nic := tabMod ({} : NicMac) x.nic ((off - 0x4000) / 8) (fun m =>
      m.write (decide (off % 8 = 4)) v) })
  else s

/-- TRC_CTL: a TPERIOD above 20 is outside the field's range and is discarded. -/
def Core.writeTrc (c : Core) (v : Word) : Core :=
  let p : BitVec 5 := (v >>> 16).setWidth 5
  { c with trcEn := v.getLsbD 0, trcMask := (v >>> 1).setWidth 9, trcPeriod := if 20 < p.toNat then c.trcPeriod else p }

/-- LEDG_STAT: each 1 clears its bit. -/
def LedgerRegs.clear (r : LedgerRegs) (v : Word) : LedgerRegs :=
  { r with wrap := r.wrap && !v.getLsbD 0, t72Inexact := r.t72Inexact && !v.getLsbD 1,
           resChunk := r.resChunk && !v.getLsbD 2, resDraw := r.resDraw && !v.getLsbD 3,
           resEntry := r.resEntry && !v.getLsbD 4, uncorr := r.uncorr && !v.getLsbD 5,
           imageRes := r.imageRes && !v.getLsbD 6 }

/-- A core's window: STREAM and XREG not while RUNNING (R164), LEDG_PEEK_IDX not while the core has an
itinerary running (Table 3.17). -/
def Core.hostWrite (c : Core) (off : Nat) (v : Word) : Core :=
  let running := decide (c.st = .running)
  if (0x10 ≤ off ∧ off < 0x30) ∨ (0x40 ≤ off ∧ off < 0x80) then if running then c else c.regWrite off v
  else if off = 0x8000 ∨ off = 0x8008 ∨ off = 0x800C ∨ (0x8400 ≤ off ∧ off < 0x8600) ∨ (0xA000 ≤ off ∧ off < 0xA080)
    then c.regWrite off v
  else if off = 0x9004 then { c with lreg := c.lreg.clear v }
  else if off = 0x9014 then
    if running then c else { c with lreg := { c.lreg with peekIdx := v.setWidth 12 } }
  else if off = 0xB000 then { c with cvOvf := c.cvOvf && !v.getLsbD 0 }
  else if off = 0xD000 then c.writeTrc v
  else if off = 0xD004 then { c with trcTmask := v }
  else c

/-- A compute die's window: UPD_SUBMIT_PART and UPD_SUBMIT from the PF (R129), HBM_PATROL with HOURS from
1 to 24 (R214). -/
def State.writeDie (s : State) (fn n off : Nat) (v : Word) : State :=
  if off = 0x180014 then
    if fn = 0 then s.modUpd n (fun u => { u with submitPart := v.setWidth 4 }) else s
  else if 0x180400 ≤ off ∧ off < 0x18043C then
    if fn = 0 then s.modUpd n (fun u => { u with submit := tabSet u.submit ((off - 0x180400) / 4) v }) else s
  else if off = 0x190014 then
    let h : BitVec 5 := v.setWidth 5
    if 1 ≤ h.toNat ∧ h.toNat ≤ 24 then
      s.modDie n (fun d => { d with hbm := { d.hbm with
        patrolHours := h, patrolEn := v.getLsbD 8, patrolActive := v.getLsbD 8 && d.hbm.ready } })
    else s
  else s

/-- A cistern die's window: CIS_PATROL with HOURS from 1 to 72 (R214). -/
def State.writeCis (s : State) (m off : Nat) (v : Word) : State :=
  let h : BitVec 7 := v.setWidth 7
  if off = 0x5C ∧ 1 ≤ h.toNat ∧ h.toNat ≤ 72 then
    s.modCis m (fun c => { c with patrolHours := h, patrolEn := v.getLsbD 8 })
  else s

/-- A link block (Table 8.9): writes of 0 to GRACE_MS, LIMIT_MS and RECOVER_MS are discarded. -/
def Link.write (x : Link) (off : Nat) (v : Word) : Link :=
  let lo : BitVec 16 := v.setWidth 16
  let hi : BitVec 16 := (v >>> 16).setWidth 16
  if off = 0x018 then (if v.setWidth 8 = (0 : Byte) then x else { x with graceMs := v.setWidth 8 })
  else if off = 0x050 then { x with pfcRxEn := v.setWidth 8, pfcTxEn := (v >>> 8).setWidth 4 }
  else if off = 0x054 then
    { x with limitMs := if lo = 0 then x.limitMs else lo, recoverMs := if hi = 0 then x.recoverMs else hi }
  else if off = 0x058 then { x with storm := x.storm &&& ~~~((v >>> 8).setWidth 8) }
  else x

/-- The staging registers of a queue-pair page (Table 9.10), discarded while BUSY (R253). -/
def PqPage.write (x : PqPage) (off : Nat) (v : Word) : PqPage :=
  if x.busy then x
  else if off = 0x20 then { x with idx := v.setWidth 20 }
  else if off = 0x24 then { x with peer := v.setWidth 20 }
  else if off = 0x28 then { x with peerQp := v.setWidth 20 }
  else if off = 0x2C then
    { x with prio := v.setWidth 3, mtu := (v >>> 3).setWidth 2, owner := (v >>> 5).setWidth 5,
             keyslot := (v >>> 10).setWidth 6, retryLimit := (v >>> 16).setWidth 4 }
  else if off = 0x30 then { x with rxwin := v.setWidth 13 }
  else if off = 0x34 then
    { x with nbuf := v.setWidth 8, ndie := (v >>> 8).setWidth 4, nvalid := v.getLsbD 15 }
  else x

/-- A page's pool base may change only while every context of the partition is FREE (R282). -/
def State.writePage (s : State) (m q off : Nat) (v : Word) : State :=
  if off = 0x10 ∨ off = 0x14 then
    if s.qps.any (fun e => e.2.part.toNat == q && decide (e.2.st ≠ .free)) then s
    else s.modPage m q (fun x => { x with pool := writeBase x.pool (off == 0x14) v })
  else s.modPage m q (fun x => x.write off v)

/-- A write of a 32-bit word at an offset of a block. -/
def State.writeWord32 (s : State) (fn : Nat) (b : RegBlock) (off : Nat) (v : Word) : State :=
  match b with
  | .module => { s with mod := s.mod.write off v }
  | .logbook => s.writeLog fn off v
  | .trace q => s.modPart q (fun x => { x with trp := x.trp.write off v })
  | .ms q => s.modMs q (fun m => m.writeCtl off v)
  | .mem q => s.modPartMem q (fun m => m.write off v)
  | .convoy q => s.writeConvoy q off v
  | .power => if off = 0x010 then
      { s with pwr := { s.pwr with thermal := s.pwr.thermal && !v.getLsbD 2, droop := s.pwr.droop && !v.getLsbD 3 } }
    else s
  | .time => s.writeTime off v
  | .life => s.writeLife off v
  | .customs => { s with customs := s.customs.write off v }
  | .fn f => s.writeFn f off v
  | .core p => s.modCore p (fun c => c.hostWrite off v)
  | .die n => s.writeDie fn n off v
  | .link l => (s.modLink l (fun x => x.write off v)).drainLink l
  | .page m q => s.writePage m q off v
  | .cistern m => s.writeCis m off v
  | _ => s

/-- A write of a 32-bit word of BAR0 by a function (R405, R428). -/
def State.barWrite (s : State) (fn off : Nat) (v : Word) : State :=
  let r := locate off
  s.onBar fn (r.1.bar r.2) (fun s =>
    if s.mod.recovery && r.1 == .customs then s else s.writeWord32 fn r.1 r.2 v)

/-- REGISTER_WRITE (R9, R11, R12): an aligned 32-bit write, or an aligned 64-bit write of two registers. -/
def execRegisterWrite (fn off : Nat) (wide : Bool) (v : DWord) (s : State) :
    Host.Outcome State Fault Refusal :=
  .next (if wide then
      if off % 8 = 0 then (s.barWrite fn off (v.setWidth 32)).barWrite fn (off + 4) ((v >>> 32).setWidth 32) else s
    else if off % 4 = 0 then s.barWrite fn off (v.setWidth 32)
    else s)

end Sys2Proof.Machine
end

