-- ==== Sys2Proof/Machine/Read.lean ====
section
/-!
DEFINITION. Reads of BAR0 (R9 to R12, R405): the word of every register of Table 14.3, reads that clear, and the halves of
64-bit registers.
-/

namespace Sys2Proof.Machine

/-! Words of the registers (R11): RO, RW and W1C fields hold their value, WO and reserved fields read zero. -/

/-- Half `h` of a 64-bit value. -/
def halfWord (d : DWord) (high : Bool) : Word := if high then (d >>> 32).setWidth 32 else d.setWidth 32

/-- The 32-bit word at an offset of a register of many bytes, byte 4w in [7:0]. -/
def bytesWord (bs : List Byte) (off : Nat) : Word := w32 (fieldLe bs off 4)

/-- A word of a function's copy of the logbook block (Table 15.13). -/
def State.logWord (s : State) (fn off : Nat) : Word :=
  let x := (s.fn fn).view
  match off with
  | 0x00 => w32 (s.viewRing fn)
  | 0x18 => halfWord x.cursor false
  | 0x1C => halfWord x.cursor true
  | 0x20 => w32 (x.valid.toNat + 8 * b2n x.lost)
  | 0x24 => w32 (b2n x.auto)
  | 0x28 => w32 (s.log.rlRate.toNat + 256 * s.log.rlDepth.toNat)
  | _ =>
    if 0x40 ≤ off ∧ off < 0x80 then
      let e := tabGet ({} : LogRl) s.log.rl ((off - 0x40) / 4)
      w32 (e.code.toNat + 65536 * e.rate.toNat + 2 ^ 24 * e.depth.toNat + 2 ^ 31 * b2n e.valid)
    else if 0x100 ≤ off ∧ off < 0x200 then
      match x.window[(off - 0x100) / 64]? with
      | some e => e.words.getD ((off - 0x100) % 64 / 4) 0
      | none => 0
    else 0

/-- A word of a partition trace block (Table 15.11). -/
def TraceDest.word (t : TraceDest) (off : Nat) : Word :=
  match off with
  | 0x00 => w32 (b2n t.en + 2 * b2n t.stopMode + 4 * b2n t.remote)
  | 0x04 => t.base.setWidth 32
  | 0x08 => w32 (t.base.toNat / 2 ^ 32)
  | 0x0C => t.size
  | 0x10 => t.qp.setWidth 32
  | 0x14 => t.rkey
  | _ => if 0x40 ≤ off ∧ off < 0x70 then tabGet 0 t.wptr ((off - 0x40) / 4) else 0

/-- A word of a partition block (Table 5.16). -/
def Part.word (x : Part) (off : Nat) : Word :=
  match off with
  | 0x00 => x.statWord
  | 0x04 => x.rpWord
  | 0x08 => halfWord x.family false
  | 0x0C => halfWord x.family true
  | _ => 0

/-- A word of a milestone block (Table 6.5). -/
def Milestones.word (m : Milestones) (off : Nat) : Word :=
  match off with
  | 0x0000 => m.wdMs.setWidth 32
  | 0x0008 => m.jobId
  | 0x000C => m.mismatchMod.setWidth 32
  | 0x1320 => m.missChild.setWidth 32
  | 0x1324 => m.missSum
  | _ =>
    if 0x10 ≤ off ∧ off < 0x28 then (m.node ((off - 0x10) / 4 + 1)).word
    else if 0x100 ≤ off ∧ off < 0x1100 then
      let o := m.obj ((off - 0x100) / 16)
      if off % 16 = 0 then o.defWord else if off % 16 = 4 then o.stateWord else if off % 16 = 8 then o.nodeWord else 0
    else if 0x1100 ≤ off ∧ off < 0x1300 then
      w32 ((m.group ((off - 0x1100) / 32)).toNat / 2 ^ (8 * ((off - 0x1100) % 32)))
    else if 0x1300 ≤ off ∧ off < 0x1320 then w32 (m.miss.toNat / 2 ^ (8 * (off - 0x1300)))
    else 0

/-- A word of the interleave-group block (Table 7.8): the groups in force. -/
def Memory.groupWord (m : Memory) (off : Nat) : Word :=
  let word (t : Tab Group) (g valid : Nat) : Word :=
    let x := tabGet ({} : Group) t g
    match off % 16 with
    | 0x0 => w32 (x.set + if t.any (fun e => e.1 == g) then 2 ^ valid else 0)
    | 0x4 => w32 x.base
    | 0x8 => w32 x.size
    | _ => w32 x.off
  if off < 0x100 then word m.hgrps (off / 16) 12
  else if off < 0x180 then word m.cgrps ((off - 0x100) / 16) 4
  else 0

/-- MEMP_USED_DEP (R201): the depot buffers of the partition's itinerary, in units of 256 bytes. -/
def State.usedDepot (s : State) (q : Nat) : Nat :=
  (s.dies.map (fun d => ((d.2.dbufs.filter (fun e => e.2.owner == q)).map (fun e => e.2.size / 256)).sum)).sum

/-- A word of a partition memory block (Table 7.9). -/
def State.memWord (s : State) (q off : Nat) : Word :=
  let x := s.part q
  let c := x.cfg.getD {}
  match off with
  | 0x100 => c.quotaHbm
  | 0x104 => c.quotaCis
  | 0x108 => c.quotaDep
  | 0x110 => w32 (s.usedBytes q .hbm / 4096)
  | 0x114 => w32 (s.usedBytes q .cistern / 4096)
  | 0x118 => w32 (s.usedDepot q)
  | _ =>
    if off < 0x100 then
      match c.windows.find? (fun w => w.idx == off / 16) with
      | some w =>
        if off % 16 = 0 then w32 w.base
        else if off % 16 = 4 then w32 (w.base / 2 ^ 32 + 4096 * b2n w.pool + 8192)
        else if off % 16 = 8 then w32 (w.size / 4096) else 0
      | none => 0
    else
      match off with
      | 0x200 => x.mem.plcWords.getD 0 0
      | 0x204 => x.mem.plcWords.getD 1 0
      | 0x208 => x.mem.plcWords.getD 2 0
      | 0x20C => x.mem.plcWords.getD 3 0
      | 0x210 => x.mem.plcWords.getD 4 0
      | 0x218 => x.mem.plcWords.getD 5 0
      | _ => 0

/-- A word of a convoy block (Table 10.9). -/
def State.convoyWord (s : State) (q off : Nat) : Word :=
  let c := s.convoy q
  let peek := c.peekWords c.peekIdx.toNat
  match off with
  | 0x00 => c.table.setWidth 32
  | 0x04 => w32 (c.table.toNat / 2 ^ 32)
  | 0x08 => w32 ((s.part q).cfg.getD {}).buckets
  | 0x0C => w32 (c.epoch.toNat + 16 * b2n c.armed + 32 * b2n c.held + 64 * c.openCount)
  | 0x10 => w32 (c.switchNew.toNat + 16 * c.switchMid.toNat)
  | 0x14 => c.switchGen.setWidth 32
  | 0x30 => peek.getD 0 0
  | 0x34 => peek.getD 1 0
  | 0x38 => peek.getD 2 0
  | 0x3C => peek.getD 3 0
  | 0x48 => peek.getD 6 0
  | _ => 0

/-- A word of a partition power page (Table 12.7): 0 W in open class, 0 MHz where the partition owns no core (R365). -/
def State.partPowerWord (s : State) (q off : Nat) : Word :=
  let c := (s.part q).cfg.getD {}
  match off with
  | 0x00 => w32 (b2n c.sealed)
  | 0x04 => if c.sealed then c.share.setWidth 32 else 0
  | _ =>
    let n := (off - 0x10) / 4
    if 0x10 ≤ off ∧ off < 0x40 ∧ s.ownsDie q n then w32 (s.dieFreq n) else 0

/-- The two words of LIFE_SVC[k] (Table 12.9). -/
def Svc.word (x : Svc) (ctl : Bool) : Word :=
  if ctl then w32 (x.kind.toNat + 256 * b2n x.valid + 512 * b2n x.dueNow) else x.due

/-- A word of the lifetime block (Table 12.9). LIFE_DATA shows the page that LIFE_PAGE selects of the newest committed
record (R367). -/
def Life.word (l : Life) (off : Nat) : Word :=
  match off with
  | 0x000 => l.committed.seq
  | 0x004 => w32 (b2n l.bank + 2 * b2n l.writeFail + 4 * b2n l.recovered)
  | 0x008 => l.page.setWidth 32
  | _ =>
    if 0x040 ≤ off ∧ off < 0x0C0 then
      (tabGet ({} : Svc) l.cur.svc ((off - 0x040) / 8)).word (decide (off % 8 = 4))
    else if 0x100 ≤ off ∧ off < 0x200 then bytesWord l.committed.bytes (256 * l.page.toNat + (off - 0x100))
    else 0

/-- A word of the Customs module block (Table 13.14). -/
def State.customsWord (s : State) (off : Nat) : Word :=
  let c := s.customs
  match off with
  | 0x000 => c.statWord
  | 0x004 => c.anchorSeq
  | 0x100 => halfWord c.argAddr false
  | 0x104 => halfWord c.argAddr true
  | 0x108 => c.argLen.setWidth 32
  | 0x110 => c.status.setWidth 32
  | _ =>
    if 0x040 ≤ off ∧ off < 0x070 then bytesWord (digestBytes (c.anchor.getD 0)) (off - 0x040)
    else if 0x080 ≤ off ∧ off < 0x0B0 then bytesWord (digestBytes deviceId) (off - 0x080)
    else if 0x200 ≤ off ∧ off < 0x300 then
      let i := (off - 0x200) / 4
      w32 ((s.keySlot i).kind.code + 4 * (s.keySlot i).part.toNat + 64 * b2n (s.slotRef i))
    else 0

/-- A word of a Customs page (Table 13.15). -/
def State.cusPageWord (s : State) (q off : Nat) : Word :=
  let x := s.cus q
  let c := (s.part q).cfg.getD {}
  match off with
  | 0x000 => x.statWord
  | 0x004 => w32 (c.keyBase + 64 * c.keyCount)
  | 0x00C => x.status.setWidth 32
  | _ =>
    if 0x040 ≤ off ∧ off < 0x070 then bytesWord (digestBytes (c.anchor.getD 0)) (off - 0x040)
    else if 0x100 ≤ off ∧ off < 0x780 then
      match x.record with
      | some r => bytesWord r.bytes (off - 0x100)
      | none => 0
    else 0

/-- A word of a queue's registers (Table 14.14). -/
def Queue.word (y : Queue) (off : Nat) : Word :=
  match off with
  | 0x00 => halfWord y.sqBase false
  | 0x04 => halfWord y.sqBase true
  | 0x08 => halfWord y.cqBase false
  | 0x0C => halfWord y.cqBase true
  | 0x10 => y.cfgWord
  | 0x14 => y.ctlWord
  | 0x18 => y.statWord
  | _ => 0

/-- A word of a function block (Table 14.14). -/
def State.fnWord (s : State) (f off : Nat) : Word :=
  let x := s.fn f
  match off with
  | 0x00 => x.statWord
  | 0x04 => x.evq.setWidth 32
  | 0x0C => s.fnLink
  | _ =>
    if 0x1000 ≤ off ∧ off < 0x3000 then (x.queue ((off - 0x1000) / 0x20)).word (off % 0x20)
    else if 0x4000 ≤ off ∧ off < 0x4480 then
      let m := tabGet ({} : NicMac) x.nic ((off - 0x4000) / 8)
      if off % 8 = 0 then m.addrLo else w32 (m.addrHi.toNat + 65536 * b2n m.valid + 131072 * b2n m.bcast)
    else 0

/-- Word `w` of LEDG_PEEK (Table 3.17): of the image of entry ENTRY, formed without changing the entry; zero while the core
has an itinerary running, and while its partition is PROTECTED (R389). A read in the cycle of the start is the read before
it (R93). Of an entry whose resolution faults the spec gives no image: a free value (log entry 87). -/
def State.peekWord (s : State) (p w : Nat) : Word :=
  let c := s.core p
  let hidden := match s.partOfPhys p with
    | some q => (s.cus q).protected_
    | none => false
  if decide (c.st = .running) || hidden then 0
  else
    match (tabGet ({} : LedgerEntry) c.ledger c.lreg.peekIdx.toNat).resolve with
    | .ok e => bytesWord e.image (4 * w)
    | _ => s.freeVal.setWidth 32

/-- A word of a core's window: its control engine (Table 5.14), conversion block (Table 2.8), array and ledger block (Table
3.11), write masks (Table 4.9), convoy block (Table 10.7), tallies (Table 15.8) and trace block (Table 15.10). -/
def State.coreWord (s : State) (p off : Nat) : Word :=
  let c := s.core p
  match off with
  | 0x0000 => s.ceStat p
  | 0x0004 => c.ceFault
  | 0x0008 => c.ceFaultPc
  | 0x000C => s.ceLogical p
  | 0x8000 => c.conv.word
  | 0x8008 => c.conv.seed
  | 0x800C => c.conv.step
  | 0x9000 => c.lreg.arrWord
  | 0x9004 => c.lreg.statWord
  | 0x900C => c.lreg.faultWord
  | 0x9014 => c.lreg.peekIdx.setWidth 32
  | 0xB000 => w32 (b2n c.cvOvf + 2 * b2n (c.ops.any (fun o => match o.act with
      | .convoy _ _ _ _ => true
      | _ => false)))
  | 0xB008 => w32 (c.cvLastTag.toNat + 65536 * c.cvLastStatus.toNat)
  | 0xC004 => c.tallySeq
  | 0xC008 => c.snap.seq
  | 0xC00C => c.snap.mark.setWidth 32
  | 0xD000 => w32 (b2n c.trcEn + 2 * c.trcMask.toNat + 65536 * c.trcPeriod.toNat)
  | 0xD004 => c.trcTmask
  | 0xD008 => w32 (traceFill c.trace)
  | _ =>
    if 0x10 ≤ off ∧ off < 0x30 then
      let r := tabGet ({} : StreamReg) c.streams ((off - 0x10) / 4)
      w32 (r.wbase.toNat + 1024 * r.sbase.toNat)
    else if 0x40 ≤ off ∧ off < 0x80 then c.x ((off - 0x40) / 4)
    else if 0x8400 ≤ off ∧ off < 0x8500 then (tabGet ({} : TensorRec) c.recs ((off - 0x8400) / 4)).amax
    else if 0x8500 ≤ off ∧ off < 0x8600 then (tabGet ({} : TensorRec) c.recs ((off - 0x8500) / 4)).flagWord
    else if 0x9040 ≤ off ∧ off < 0x90A0 then s.peekWord p ((off - 0x9040) / 4)
    else if 0xA000 ≤ off ∧ off < 0xA080 then
      (tabGet ({} : WMask) c.wmask ((off - 0xA000) / 16)).word (off % 16 / 4)
    else if 0xC100 ≤ off ∧ off < 0xC300 ∧ off % 16 = 8 then
      w32 ((tabGet 0 c.snap.vals ((off - 0xC100) / 16)).toNat / 2 ^ 64)
    else 0

/-- A word of a compute die's window: die control (Table 5.15), update engine (Table 4.10), HBM3E controller (Table 7.10),
counting house (Table 10.8) and die safety block (Table 15.12). -/
def State.dieBlockWord (s : State) (n off : Nat) : Word :=
  let d := s.die n
  match off with
  | 0x050 => d.quar.setWidth 32
  | 0x054 => d.retired.setWidth 32
  | 0x180000 => w32 (b2n d.upd.halt)
  | 0x180004 => d.upd.statWord
  | 0x18000C => d.upd.doneSeq
  | 0x180010 => d.upd.ucodeLen.setWidth 32
  | 0x180014 => d.upd.submitPart.setWidth 32
  | 0x190000 => d.hbm.statWord
  | 0x19000C => d.hbm.errLo
  | 0x190010 => d.hbm.errHi
  | 0x190014 => w32 (d.hbm.patrolHours.toNat + 256 * b2n d.hbm.patrolEn)
  | 0x190018 => d.hbm.patrolPos.setWidth 32
  | 0x1A0000 => (s.house n).statWord
  | 0x1B0000 => s.safeAge n
  | 0x1B0004 => d.fencedWord
  | _ =>
    if off < 0x50 then
      match d.coreMap.getD (off / 4) none with
      | some k => w32 (k + 2 ^ 31)
      | none => 0
    else if 0x180100 ≤ off ∧ off < 0x180200 then tabGet 0 d.upd.ucode ((off - 0x180100) / 4)
    else 0

/-- A word of a lantern block (Table 8.8). -/
def LanternCfg.word (x : LanternCfg) (off : Nat) : Word :=
  match off with
  | 0x00 => w32 (x.coord.toNat + 2 ^ 20 * x.extent.toNat)
  | 0x04 => w32 (b2n x.slotEn)
  | _ => if 0x40 ≤ off ∧ off < 0xC0 then (x.owners.getD ((off - 0x40) / 4) 31).setWidth 32 else 0

/-- A word of a link block (Table 8.9). -/
def Link.word (x : Link) (now : DWord) (off : Nat) : Word :=
  match off with
  | 0x000 => w32 (b2n x.adminUp)
  | 0x004 => w32 (x.speed.toNat + 4 * x.role.toNat + 16 * b2n x.dir)
  | 0x008 => x.statWord now
  | 0x00C => w32 (x.peerCoord.toNat + 2 ^ 20 * x.peerLink.toNat + 2 ^ 26 * b2n x.peerValid)
  | 0x010 => x.seenWord
  | 0x014 => x.bcnEpoch
  | 0x018 => x.graceMs.setWidth 32
  | 0x040 => x.addr.setWidth 32
  | 0x044 => w32 (x.addr.toNat / 2 ^ 32)
  | 0x048 => x.vid.setWidth 32
  | 0x050 => w32 (x.pfcRxEn.toNat + 256 * x.pfcTxEn.toNat)
  | 0x054 => w32 (x.limitMs.toNat + 65536 * x.recoverMs.toNat)
  | 0x058 => x.pfcWord
  | _ =>
    if 0x020 ≤ off ∧ off < 0x040 then w32 (bits x.bcnDigest.toNat (255 - 8 * (off - 0x020)) (224 - 8 * (off - 0x020)))
    else if 0x060 ≤ off ∧ off < 0x080 then w32 (min (tabGet [] x.queues ((off - 0x060) / 4)).length 65535)
    else 0

/-- A word of a Porter block (Table 9.9). -/
def State.porterWord (s : State) (m off : Nat) : Word :=
  let here (f : Qp → Bool) : Nat := (s.qps.filter (fun e => homeOf e.1 == m && f e.2)).length
  match off with
  | 0x80000 => w32 (here (·.cached) + 8192 * here (·.pinned))
  | 0x80004 => w32 (s.porter m).used
  | _ => 0

/-- A word of a queue-pair page (Table 9.10). -/
def State.pageWord (s : State) (m q off : Nat) : Word :=
  let x := s.page m q
  let c := (s.part q).cfg.getD {}
  match off with
  | 0x00 => w32 c.qpBase
  | 0x04 => w32 c.qpCount
  | 0x08 => w32 (s.pinMax m q + 4096 * s.pinnedOn m q)
  | 0x0C => w32 (c.regBase + 4096 * c.regCount)
  | 0x10 => x.pool.setWidth 32
  | 0x14 => w32 (x.pool.toNat / 2 ^ 32)
  | 0x20 => x.idx.setWidth 32
  | 0x24 => x.peer.setWidth 32
  | 0x28 => x.peerQp.setWidth 32
  | 0x2C => w32 (x.prio.toNat + 8 * x.mtu.toNat + 32 * x.owner.toNat + 1024 * x.keyslot.toNat
      + 65536 * x.retryLimit.toNat)
  | 0x30 => x.rxwin.setWidth 32
  | 0x34 => w32 (x.nbuf.toNat + 256 * x.ndie.toNat + 32768 * b2n x.nvalid)
  | 0x3C => w32 (x.status.toNat + 256 * b2n x.busy + 512 * x.qpstate.toNat + 2048 * b2n x.resPinned)
  | 0x40 => x.txseq.setWidth 32
  | 0x44 => w32 (x.txseq.toNat / 2 ^ 32)
  | _ => 0

/-- A word of a cistern block (Table 7.11). -/
def CisDie.word (c : CisDie) (off : Nat) : Word :=
  match off with
  | 0x00 => c.statWord
  | 0x54 => c.errLo
  | 0x58 => c.errHi
  | 0x5C => w32 (c.patrolHours.toNat + 256 * b2n c.patrolEn)
  | 0x60 => c.patrolPos.setWidth 32
  | _ => 0

/-- The word of a register that is neither RC nor 64 bits wide. -/
def State.plainWord (s : State) (fn : Nat) (b : RegBlock) (off : Nat) : Word :=
  match b with
  | .module => s.moduleWord off
  | .logbook => s.logWord fn off
  | .trace q => (s.part q).trp.word off
  | .part q => (s.part q).word off
  | .totals =>
    if 0x100 ≤ off ∧ off < 0x300 ∧ off % 16 = 8 then
      w32 ((tabGet 0 s.totSnap ((off - 0x100) / 16)).toNat / 2 ^ 64) else 0
  | .ms q => (s.part q).ms.word off
  | .mem q => s.memWord q off
  | .groups => s.mem.groupWord off
  | .causeway => if off = 0x180 then s.cwy.lastWord else 0
  | .convoy q => s.convoyWord q off
  | .power => s.powerWord off
  | .partPower q => s.partPowerWord q off
  | .time => s.timeWord off
  | .life => s.life.word off
  | .customs => s.customsWord off
  | .cusPage q => s.cusPageWord q off
  | .fn f => s.fnWord f off
  | .core p => s.coreWord p off
  | .die n => s.dieBlockWord n off
  | .lantern m => (s.lantern m).word off
  | .porter m => s.porterWord m off
  | .link l => (s.link l).word s.now off
  | .page m q => s.pageWord m q off
  | .cistern m => (s.cis m).word off
  | .other => 0

/-! Reads that clear (Table 0.2). -/

/-- A counter read and cleared. -/
abbrev Cleared := Option (Word × State)

/-- The RC registers of a core's window. -/
def State.clearCoreReg (s : State) (p off : Nat) : Cleared :=
  let c := s.core p
  if off = 0x9008 then some (c.lreg.corr, s.setCore p { c with lreg := { c.lreg with corr := 0 } })
  else if off = 0xB004 then some (c.cvSat, s.setCore p { c with cvSat := 0 })
  else if off = 0xD00C then some (c.trcLost, s.setCore p { c with trcLost := 0 })
  else none

/-- The RC registers of a compute die's window. -/
def State.clearDieReg (s : State) (n off : Nat) : Cleared :=
  let d := s.die n
  if off = 0x180008 then some (d.upd.nfCount, s.setDie n { d with upd := { d.upd with nfCount := 0 } })
  else if off = 0x190004 then some (d.hbm.corr, s.setDie n { d with hbm := { d.hbm with corr := 0 } })
  else if off = 0x190008 then some (d.hbm.uncorr, s.setDie n { d with hbm := { d.hbm with uncorr := 0 } })
  else if off = 0x1A0004 then some ((s.house n).uncorr, s.modHouse n (fun h => { h with uncorr := 0 }))
  else if off = 0x1B0008 then some (d.safeFails, s.setDie n { d with safeFails := 0 })
  else none

/-- The RC registers of a cistern die's window. -/
def State.clearCisReg (s : State) (m off : Nat) : Cleared :=
  let c := s.cis m
  if 0x10 ≤ off ∧ off < 0x50 then
    let i := (off - 0x10) / 4
    some (tabGet 0 c.corr i, s.modCis m (fun x => { x with corr := tabSet x.corr i 0 }))
  else if off = 0x50 then some (c.uncorr, s.modCis m (fun x => { x with uncorr := 0 }))
  else if off = 0x68 then some (c.failDrops, s.modCis m (fun x => { x with failDrops := 0 }))
  else none

/-- The causeway error block (Table 7.15). -/
def State.clearCwy (s : State) (off : Nat) : Cleared :=
  let d := off % 0x80 / 4
  let c := s.cwy
  if 25 ≤ d then none
  else if off < 0x080 then some (tabGet 0 c.corr d, { s with cwy := { c with corr := tabSet c.corr d 0 } })
  else if off < 0x100 then some (tabGet 0 c.uncorr d, { s with cwy := { c with uncorr := tabSet c.uncorr d 0 } })
  else if off < 0x180 then some (tabGet 0 c.retry d, { s with cwy := { c with retry := tabSet c.retry d 0 } })
  else none

/-- The RC registers of a convoy block. -/
def State.clearConvoyReg (s : State) (q off : Nat) : Cleared :=
  let c := s.convoy q
  if off = 0x20 then some (c.tagmis, s.modConvoy q (fun c => { c with tagmis := 0 }))
  else if off = 0x24 then some (c.stale, s.modConvoy q (fun c => { c with stale := 0 }))
  else if off = 0x28 then some (c.ovfBuckets, s.modConvoy q (fun c => { c with ovfBuckets := 0 }))
  else none

/-- The RC fields of the power block. -/
def State.clearPowerReg (s : State) (off : Nat) : Cleared :=
  if off = 0x008 then some (s.pwr.nowWord, { s with pwr := { s.pwr with peakW := 0 } })
  else if 0x080 ≤ off ∧ off < 0x0E4 then
    let d := (off - 0x080) / 4
    let x := s.sense d
    some (x.word, { s with pwr := { s.pwr with sense := tabSet s.pwr.sense d { x with maxTj := 0 } } })
  else none

/-- The value that a read of an RC register returns, and the state after it; none for any other register. -/
def State.readClear (s : State) (b : RegBlock) (off : Nat) : Cleared :=
  match b with
  | .core p => s.clearCoreReg p off
  | .die n => s.clearDieReg n off
  | .cistern m => s.clearCisReg m off
  | .causeway => s.clearCwy off
  | .convoy q => s.clearConvoyReg q off
  | .power => s.clearPowerReg off
  | .part q => if off = 0x10 then some ((s.part q).replays, s.modPart q (fun x => { x with replays := 0 })) else none
  | .ms q => if off = 4 then some ((s.part q).ms.statWord, s.modMs q (fun m => { m with stale := 0 })) else none
  | .page m q =>
    if off = 0x48 then some ((s.page m q).event, s.modPage m q (fun x => { x with event := 0 })) else none
  | .fn f => if off = 0x8 then some ((s.fn f).evtDrops, s.modFn f (fun x => { x with evtDrops := 0 })) else none
  | .logbook =>
    if off = 0x2C then some (s.log.archDrops, { s with log := { s.log with archDrops := 0 } }) else none
  | _ => none

/-! 64-bit registers (R10). -/

/-- The value of a 64-bit register with access RO, by its block and the offset of its low half. -/
def State.read64 (s : State) (fn : Nat) (b : RegBlock) (off : Nat) : Option DWord :=
  match b with
  | .module => if off = 0x048 then some s.manTact else none
  | .logbook =>
    let ring := s.viewRing fn
    if off = 0x08 then some (w64 (s.log.oldestOf ring))
    else if off = 0x10 then some (w64 (s.log.headOf ring)) else none
  | .totals =>
    if off = 0x008 then some s.totTime
    else if 0x100 ≤ off ∧ off < 0x300 ∧ off % 16 = 0 then
      some ((tabGet 0 s.totSnap ((off - 0x100) / 16)).setWidth 64) else none
  | .convoy q =>
    if off = 0x40 then
      some (w64 (tabGet ({} : Bkt) (s.convoy q).buckets (s.convoy q).peekIdx.toNat).count) else none
  | .power => if off = 0x100 then some s.pwr.energy else none
  | .time => if off = 0 then some s.now else none
  | .core p =>
    let x := (s.core p).snap
    if off = 0xC010 then some x.time
    else if off = 0xC018 then some x.gapStart
    else if off = 0xC020 then some x.gapNs
    else if 0xC100 ≤ off ∧ off < 0xC300 ∧ off % 16 = 0 then
      some ((tabGet 0 x.vals ((off - 0xC100) / 16)).setWidth 64) else none
  | .die n => if off = 0x1A0008 then some (s.house n).adds else none
  | .link l =>
    let x := s.link l
    match off with
    | 0x100 => some x.txFrames
    | 0x108 => some x.rxFrames
    | 0x110 => some x.rxErr
    | 0x118 => some x.fecCorr
    | 0x120 => some x.fecUncorr
    | 0x128 => some x.wdDrops
    | 0x130 => some x.nicDrops
    | 0x138 => some x.ctrlRetx
    | _ => none
  | .porter m =>
    let x := s.porter m
    match off with
    | 0x80010 => some x.hits
    | 0x80018 => some x.misses
    | 0x80020 => some x.busyNaks
    | 0x80028 => some x.parkDrops
    | 0x80030 => some x.authFail
    | 0x80038 => some x.retx
    | 0x80040 => some x.timeouts
    | 0x80048 => some x.viol
    | 0x80050 => some x.rxUnknown
    | _ => none
  | _ => none

/-! Reads. -/

/-- The live word of a register. -/
def State.word (s : State) (fn : Nat) (b : RegBlock) (off : Nat) : Word :=
  match s.read64 fn b off with
  | some v => halfWord v false
  | none =>
    match if 4 ≤ off then s.read64 fn b (off - 4) else none with
    | some v => halfWord v true
    | none =>
      match s.readClear b off with
      | some x => x.1
      | none => s.plainWord fn b off

/-- What a read of a word does to it: RC fields are cleared, the last window word of the logbook copies again under AUTO
(R450), and a word of LEDG_PEEK takes its free value. -/
def State.afterRead (s : State) (fn : Nat) (b : RegBlock) (off : Nat) : State :=
  match s.readClear b off with
  | some x => x.2
  | none =>
    match b with
    | .logbook => if off = 0x1FC then s.windowEnd fn else s
    | .core _ => if 0x9040 ≤ off ∧ off < 0x90A0 then s.useFree else s
    | _ => s

/-- A 32-bit read of BAR0 that the function sees (R10): a low half latches its high half, and a high half that is latched
is returned once. -/
def State.read32 (s : State) (fn off : Nat) : State × Word :=
  let r := locate off
  match s.read64 fn r.1 r.2 with
  | some v => (s.modFn fn (fun x => { x with latch := tabSet x.latch off (halfWord v true) }), halfWord v false)
  | none =>
    match if 4 ≤ off then (s.fn fn).latch.find? (fun e => e.1 + 4 == off) else none with
    | some e => (s.modFn fn (fun x => { x with latch := tabErase x.latch e.1 }), e.2)
    | none => (s.afterRead fn r.1 r.2, s.word fn r.1 r.2)

/-- A 32-bit read by a function: zero of what it does not see (R405). -/
def State.seenRead (s : State) (fn off : Nat) : State × Word :=
  let r := locate off
  if s.sees fn (r.1.bar r.2) then s.read32 fn off else (s, 0)

/-- An aligned read of BAR0, which answers while it is up. A 64-bit access to a 64-bit register is atomic; one to two
registers reads both. -/
def State.barRead (s : State) (fn off : Nat) (wide : Bool) : State :=
  if s.barUp ∧ fn ≤ 16 then
    let r := locate off
    if wide then
      match if s.sees fn (r.1.bar r.2) then s.read64 fn r.1 r.2 else none with
      | some v => s.readBack fn v
      | none =>
        let lo := s.seenRead fn off
        let hi := lo.1.seenRead fn (off + 4)
        hi.1.readBack fn (hi.2 ++ lo.2)
    else
      let x := s.seenRead fn off
      x.1.readBack fn (x.2.setWidth 64)
  else s

/-- REGISTER_READ_CLEAR (R11): an aligned read, which clears the RC fields that it returns. -/
def execRegisterReadClear (fn : Nat) (rd : BarRead) (s : State) : Host.Outcome State Fault Refusal :=
  .next (if rd.off % (if rd.wide then 8 else 4) = 0 then s.barRead fn rd.off rd.wide else s)

/-- REGISTER_LOW_HALF_READ (R10): an aligned 32-bit read, which latches the high half of a 64-bit register. -/
def execRegisterLowHalfRead (fn off : Nat) (s : State) : Host.Outcome State Fault Refusal :=
  .next (if off % 4 = 0 then s.barRead fn off false else s)

/-- BAR0_BAD_ACCESS (R9): a write is discarded, a read returns all ones, code 0x0301. -/
def execBar0BadAccess (fn off bytes : Nat) (write : Bool) (s : State) : Host.Outcome State Fault Refusal :=
  .next (if s.barUp ∧ fn ≤ 16 ∧ 0 < bytes ∧ ((bytes ≠ 4 ∧ bytes ≠ 8) ∨ off % bytes ≠ 0) then
      (if write then s else s.readBack fn (BitVec.allOnes 64)).logPcie 0x0301 scIllegal fn 0 [w32 off]
    else s)

end Sys2Proof.Machine
end

