-- ==== Sys2Proof/Machine/Sideband.lean ====
section
/-!
DEFINITION. Register access on the management sideband (R472, Table 16.6).
-/

namespace Sys2Proof.Machine

/-- A register that a request may reach (R472): its block and its offset there. -/
def sbReach (off : Nat) : Option (RegBlock × Nat) :=
  if off % 4 ≠ 0 then none
  else if off < 0x1000 then some (.module, off)
  else if 0xF0000 ≤ off ∧ off < 0xF0800 then some (.power, off - 0xF0000)
  else if 0xF1000 ≤ off ∧ off < 0xF2000 then some (.time, off - 0xF1000)
  else none

/-- A response (Table 16.6). -/
def sbResponse (op status : Nat) (seq offset value : Word) : List Byte :=
  leBytes 4 0x53424D43 ++ [BitVec.ofNat 8 op, st8 status, 0, 0] ++ leBytes 4 seq.toNat ++ leBytes 4 offset.toNat
    ++ leBytes 4 value.toNat ++ [0, 0, 0, 0]

/-- The module answers a request (log entry 7). -/
def State.sbAnswer (s : State) (bs : List Byte) : State := { s with host := { s.host with sideband := bs } }

/-- A free word of a response: the spec gives no VALUE for a request that reads or writes nothing. -/
def State.sbRefuse (s : State) (op status : Nat) (seq offset : Word) : State :=
  s.useFree.sbAnswer (sbResponse op status seq offset (s.freeVal.setWidth 32))

/-- The word that a read returns. -/
def State.sbWord (s : State) (b : RegBlock) (off : Nat) : Word :=
  match b with
  | .module => s.moduleWord off
  | .power => s.powerWord off
  | .time => s.timeWord off
  | _ => 0

/-- A read of a register, clearing an RC field (R11). -/
def State.sbRead (s : State) (seq offset : Word) : State :=
  match sbReach offset.toNat with
  | none => s.sbRefuse 1 scAccess seq offset
  | some r =>
    let v := s.sbWord r.1 r.2
    let s1 := match s.readClear r.1 r.2 with
      | some x => x.2
      | none => s
    s1.sbAnswer (sbResponse 1 scOk seq offset v)

/-- SIDEBAND_READ (R472). -/
def execSidebandRead (seq offset : Word) (s : State) : Host.Outcome State Fault Refusal :=
  .next (match s.mod.state with
    | .off => s
    | .standby =>
      if offset = 0 then s.sbAnswer (sbResponse 1 scOk seq offset s.modStat)
      else s.sbRefuse 1 scIllegal seq offset
    | _ => s.sbRead seq offset)

/-- A write of MOD_CTL (Table 14.13). -/
def State.writeModCtl (s : State) (v : Word) : State :=
  let s1 := if v.getLsbD 0 then s.shutdownOp else s
  if v.getLsbD 1 then s1.rebootOp else s1

/-- A write of a register by the sideband. FWU_CMD is the PF's alone (R427). -/
def State.sbWriteReg (s : State) (b : RegBlock) (off : Nat) (v : Word) : State :=
  match b, off with
  | .module, 0x004 => s.writeModCtl v
  | .module, 0x050 => if v.getLsbD 0 then s.manCancel else s
  | .power, 0x000 => s.writeBudget v
  | .time, 0x024 => s.timeStep v
  | _, _ => s.writeWord32 0 b off v

/-- SIDEBAND_WRITE (R472). -/
def execSidebandWrite (seq offset value : Word) (s : State) : Host.Outcome State Fault Refusal :=
  .next (match s.mod.state with
    | .off => s
    | .standby => s.sbAnswer (sbResponse 2 scIllegal seq offset value)
    | _ =>
      match sbReach offset.toNat with
      | none => s.sbAnswer (sbResponse 2 scAccess seq offset value)
      | some r => (s.sbWriteReg r.1 r.2 value).sbAnswer (sbResponse 2 scOk seq offset value))

/-- SIDEBAND_WAKE (R429, R472): in STANDBY to BOOT; its OFFSET and VALUE are not given, and neither is the status
outside STANDBY, which is one of the fourteen of Table 0.3 (R13). -/
def execSidebandWake (seq : Word) (s : State) : Host.Outcome State Fault Refusal :=
  .next (match s.mod.state with
    | .off => s
    | .standby =>
      let v := s.freeVal
      (s.useFree.boot false).sbAnswer (sbResponse 3 scOk seq (v.setWidth 32) ((v >>> 32).setWidth 32))
    | _ =>
      let v := s.freeVal
      let s1 := s.useFree
      s1.useFree.sbAnswer
        (sbResponse 3 (s1.freeVal.toNat % 14) seq (v.setWidth 32) ((v >>> 32).setWidth 32)))

end Sys2Proof.Machine
end

