-- ==== Sys2Proof/Machine/Spdm.lean ====
section
/-!
DEFINITION. Attestation: the SPDM responder of each function (R380 to R382).
-/

namespace Sys2Proof.Machine

/-- Does a function's DOE mailbox answer: every function of a module whose PCIe is up; in recovery mode the
PF alone (R380, R428, R429)? -/
def State.doeUp (s : State) (fn : Nat) : Bool :=
  s.barUp && decide (fn ≤ 16) && (fn == 0 || !s.mod.recovery)

/-- The response to a request of function `fn`. -/
def State.respond (s : State) (fn : Nat) (r : SpdmResp) : State :=
  if s.doeUp fn then { s with host := { s.host with doe := tabSet s.host.doe fn r } } else s

/-- SPDM_GET_VERSION (Table 13.6): 1.2 and 1.3. -/
def execSpdmGetVersion (fn : Nat) (s : State) : Host.Outcome State Fault Refusal :=
  .next (s.respond fn (.version [0x12, 0x13]))

/-- SPDM_GET_CAPABILITIES (Table 13.6). -/
def execSpdmGetCapabilities (fn : Nat) (s : State) : Host.Outcome State Fault Refusal :=
  .next (s.respond fn .capabilities)

/-- SPDM_NEGOTIATE_ALGORITHMS (Table 13.6): each algorithm is selected when the request offers it. -/
def execSpdmNegotiateAlgorithms (fn : Nat) (ed25519 sha384 : Bool) (s : State) :
    Host.Outcome State Fault Refusal :=
  .next (s.respond fn (.algorithms ed25519 sha384))

/-- SPDM_GET_DIGESTS: slot 0. -/
def execSpdmGetDigests (fn : Nat) (s : State) : Host.Outcome State Fault Refusal :=
  .next (s.respond fn (.digests (Config.sha384 s.customs.chain)))

/-- SPDM_GET_CERTIFICATE: a portion of the chain of slot 0; another slot is outside Table 13.6. -/
def execSpdmGetCertificate (fn slot off len : Nat) (s : State) : Host.Outcome State Fault Refusal :=
  .next (
    if slot = 0 then
      let p := (s.customs.chain.drop off).take len
      s.respond fn (.certificate p (s.customs.chain.length - (off + p.length)))
    else s.respond fn .unsupported)

/-- A signature with the Alias key (R380). The bytes that it covers are SPDM's transcript: here the requester's nonce,
a number of its own for each response, and what the response holds (log entry 6). -/
def State.sign (s : State) (nonce : BitVec 256) (content : List Byte) : List Byte :=
  edSign s.customs.aliasEd (leBytes 32 nonce.toNat ++ leBytes 8 s.free ++ content)

/-- SPDM_CHALLENGE: answered with the Alias key, for slot 0 (R380). -/
def execSpdmChallenge (fn slot : Nat) (nonce : BitVec 256) (s : State) :
    Host.Outcome State Fault Refusal :=
  .next (
    if slot = 0 then s.useFree.respond fn (.challengeAuth (Config.sha384 s.customs.chain)
      (s.sign nonce (digestBytes (Config.sha384 s.customs.chain))))
    else s.respond fn .unsupported)

/-- SPDM_UNSUPPORTED (R380): a request outside Table 13.6 receives ERROR with UnsupportedRequest. -/
def execSpdmUnsupported (fn : Nat) (_request : Byte) (s : State) : Host.Outcome State Fault Refusal :=
  .next (s.respond fn .unsupported)

/-! Measurement blocks (Table 13.7). -/

/-- The groups of a tier that a partition's windows meet. -/
def groupsOf (gs : Tab Group) (c : PartCfg) (base : Nat) : List Nat :=
  (gs.filter (fun g => c.windows.any (fun w =>
    let lo := base + g.2.base * 2 ^ 30
    decide (w.base < lo + g.2.size * 2 ^ 30) && decide (lo < w.base + w.size)))).map (fun g => g.2.set)

/-- The union of sets held as bit masks. -/
def unionSets (l : List Nat) : Nat := l.foldl (· ||| ·) 0

/-- The calendar slots of an owner on the lantern dies, as masks. -/
def State.calSlots (s : State) (owner : BitVec 5) : List Nat :=
  (List.range 6).map (fun m =>
    let o := (s.lantern m).owners
    ((List.range 32).map (fun i => if (o.getD i 31) = owner then 2 ^ i else 0)).foldl (· + ·) 0)

/-- The values of a partition descriptor (block 5): number, class, compute dies, HBM stacks, channel
positions, calendar owner and slots, causeway slots, sealed share, tenant anchor. -/
def State.descriptor (s : State) (c : PartCfg) : List Nat :=
  [c.num, b2n c.sealed,
   ((List.range 12).map (fun n => if tabGet 0 c.cores n = 0 then 0 else 2 ^ n)).foldl (· + ·) 0,
   unionSets (groupsOf s.mem.hgrps c 0), unionSets (groupsOf s.mem.cgrps c (2 ^ 40)), c.owner.toNat]
    ++ s.calSlots c.owner ++ [c.cwySlots.toNat, c.share.toNat, (c.anchor.getD 0).toNat]

/-- The partitions whose blocks 5 to 8 a function's report carries (R382). -/
def State.reportParts (s : State) (fn : Nat) : List Nat :=
  if fn = 0 then List.range 16 else if (s.fn fn).bound then [(s.fn fn).part.toNat] else []

/-- The values of block 8: slot kinds, PROTECTED, CLEAN. -/
def State.slotValues (s : State) (p : Nat) : List Nat :=
  (s.slotsOf p).map (fun i => (s.keySlot i).kind.code)
    ++ [b2n (s.cus p).protected_, b2n (s.cus p).clean]

/-- A measurement block (Table 13.7); blocks 5 to 8 hold one part for each partition in scope. In recovery
mode block 2 shows FWM as zeros and SVN 0 (R428). -/
def State.block (s : State) (fn idx : Nat) : List Byte :=
  let c := s.customs
  let ps := s.reportParts fn
  match idx with
  | 1 => digestBytes Config.romHash
  | 2 => if s.mod.recovery then List.replicate 49 0
         else digestBytes c.fwm ++ [c.fwSvn]
  | 3 => [BitVec.ofNat 8 c.fuseSvn, BitVec.ofNat 8 (b2n s.mod.recovery)]
           ++ digestBytes (c.anchor.getD 0)
  | 4 => leBytes 32 s.pair.1.toNat ++ leBytes 4 s.pair.2.toNat
  | 5 => Config.rawBlock 5 (ps.flatMap (fun p => match (s.part p).cfg with
           | some c => s.descriptor c
           | none => [p]))
  | 6 => ps.flatMap (fun p => digestBytes (s.part p).imageDigest ++ leBytes 8 (s.part p).family.toNat)
  | 7 => ps.flatMap (fun p => match (s.cus p).record with
           | some r => digestBytes r.hash
           | none => List.replicate 48 0)
  | 8 => Config.rawBlock 8 (ps.flatMap s.slotValues)
  | 0xFE => c.certTrailers
  | _ => []

/-- Is a block a raw bit stream: all but blocks 1 and 2, which are digests (Table 13.7)? -/
def rawForm (idx : Nat) : Bool := idx != 1 && idx != 2

/-- Blocks of a report by index. -/
def State.blocks (s : State) (fn : Nat) (l : List Nat) : List Measurement :=
  l.map (fun i => { index := BitVec.ofNat 8 i, raw := rawForm i, value := s.block fn i })

/-- A block in DMTF measurement format (R381): index, measurement specification 1, size; type with bit 7 for a raw bit
stream, size, value. The format is DSP0274's, PRESUMED (log entry 85). -/
def Measurement.bytes (m : Measurement) : List Byte :=
  [m.index, 1] ++ leBytes 2 (m.value.length + 3)
    ++ [BitVec.ofNat 8 (Config.measType m.index.toNat % 128 + 128 * b2n m.raw)] ++ leBytes 2 m.value.length ++ m.value

/-- Block 0xFD: the trailer of TYPE 3, under the Alias keys, over the nonce and the other blocks as returned. -/
def State.reportBlock (s : State) (nonce : BitVec 256) (all : List Measurement) : Measurement :=
  { index := 0xFD, raw := true,
    value := trailerBytes (signTrailer s.customs.aliasEd s.customs.aliasMldsa 3
      (leBytes 32 nonce.toNat ++ all.flatMap Measurement.bytes)) }

/-- The blocks that a request's index asks for (R381): 0xFF all, with 0xFD only when a signature is
requested. -/
def State.report (s : State) (fn : Nat) (index : Nat) (signed : Bool) (nonce : BitVec 256) : List Measurement :=
  let all := s.blocks fn [1, 2, 3, 4, 5, 6, 7, 8, 0xFE]
  if index = 0xFF then if signed then all ++ [s.reportBlock nonce all] else all
  else if [1, 2, 3, 4, 5, 6, 7, 8, 0xFE].contains index then s.blocks fn [index]
  else []

/-- GET_MEASUREMENTS (R381, R382). -/
def execGetMeasurements (fn : Nat) (index : Byte) (signed : Bool) (nonce : BitVec 256) (s : State) :
    Host.Outcome State Fault Refusal :=
  .next (
    let bs := s.report fn index.toNat signed nonce
    s.useFree.respond fn (.measurements bs
      (if signed then some (s.sign nonce (bs.flatMap Measurement.bytes)) else none)))

end Sys2Proof.Machine
end

