-- ==== Sys2Proof/Machine/Vector.lean ====
section
/-!
DEFINITION. The vector unit: VEC (R43, R109, R110, R142, Tables 4.3 and 5.6).
-/

namespace Sys2Proof.Machine

/-- The exact sum of values, rounded once to F32 under RNE; infinities of both signs give NaN (R109). The
sign of an exact zero is not stated (log entry 12). -/
def sumVals (op : Nat) (l : List FVal) : Nat :=
  if l.contains .nan then f32NaN
  else if l.contains (.inf false) then if l.contains (.inf true) then f32NaN else f32Inf false
  else if l.contains (.inf true) then f32Inf true
  else
    let d := (l.map FVal.dy).foldl Dy.add ⟨0, 0⟩
    f32OfDy (bitAt (Config.vecOpen op (l.map FVal.round32)) 0) d

/-- vrowmax (Table 4.3). -/
def vRowMax : List Nat → Nat
  | [] => f32NaN
  | x :: xs => f32Canon (xs.foldl f32Max x)

/-- vexpsub (Table 4.3): the difference is exact. -/
def vExpSub (x c : Nat) : Nat :=
  match f32Val x, f32Val c with
  | .nan, _ => f32NaN
  | _, .nan => f32NaN
  | .inf a, .inf b => if a = b then if a then 0 else f32NaN else if a then 0 else f32Inf false
  | .inf a, .fin _ _ _ => if a then 0 else f32Inf false
  | .fin _ _ _, .inf b => if b then f32Inf false else 0
  | .fin n m e, .fin n2 m2 e2 => f32ExpDy ((FVal.fin n m e).dy.add (FVal.fin (!n2) m2 e2).dy)

/-- m′ of vonline. -/
def vOnlineM (m b : Nat) : Nat := f32Canon (f32Max m b)

/-- a of vonline: 1 when m = m′, otherwise e^(m − m′). -/
def vOnlineA (m b : Nat) : Nat :=
  let x := f32Val m
  let y := f32Val (vOnlineM m b)
  if x = y ∨ (x.isZero ∧ y.isZero) then if x = .nan then f32NaN else 0x3F800000
  else vExpSub m (vOnlineM m b)

/-- A result that the spec does not state (log entry 12); a NaN is the canonical one (R32). -/
def vOpen (op x : Nat) : Nat := f32Canon (Config.vecOpen op [x] % 2 ^ 32)

/-- A result of which the spec says that it is infinite or NaN, and not which (R307, log entry 12). -/
def vOpenHuge (op x : Nat) : Nat :=
  match Config.vecOpen op [x] % 3 with
  | 0 => f32Inf false
  | 1 => f32Inf true
  | _ => f32NaN

/-- 1 ÷ x. What it is for ±0 is not stated (log entry 12). -/
def vRcp (x : Nat) : Nat := if (f32Val x).isZero then vOpen 0x08 x else f32Div 0x3F800000 x

/-- 1 ÷ √x. For ±0 it is infinite or NaN, so that a column whose norm is zero becomes NaN (R307); what it is for x
below zero is not stated (log entry 12). -/
def vRsqrt (x : Nat) : Nat :=
  match f32Val x with
  | .nan => f32NaN
  | .inf n => if n then vOpen 0x09 x else 0
  | .fin n m e =>
    if m = 0 then vOpenHuge 0x09 x
    else if n then vOpen 0x09 x
    else f32SqrtFrac (2 ^ (-e).toNat) (m * 2 ^ e.toNat) 128

/-- An operation on one element of X, Y and W (Table 5.6); IMM is an F32 pattern. -/
def vecElem (op imm x y w : Nat) : Nat :=
  match op with
  | 0x01 => f32Add x y
  | 0x02 => f32Sub x y
  | 0x03 => f32Mul x y
  | 0x04 => f32Fma x y w
  | 0x05 => f32Canon (f32Max x y)
  | 0x06 => f32Canon (f32Min x y)
  | 0x07 => f32ExpVal (f32Val x)
  | 0x08 => vRcp x
  | 0x09 => vRsqrt x
  | 0x0A => f32Mul x imm
  | 0x0B => f32Add x imm
  | 0x0C => f32Canon x
  | 0x13 => vExpSub x y
  | 0x14 => vOnlineM x y
  | _ => f32Fma x y w

/-- A reduction of one row of X, Y and W. -/
def vecRow (op : Nat) (x y w : List Nat) : Nat :=
  match op with
  | 0x10 => vRowMax x
  | 0x11 => sumVals op (x.map f32Val)
  | 0x12 => sumVals op ((x.zip y).map (fun e => (f32Val e.1).mul (f32Val e.2)))
  | _ => sumVals op ((f32Val (x.headD 0)).mul (f32Val (y.headD 0)) :: w.map f32Val)

/-- What an operation code uses (Table 5.6): whether it is defined, reads Y, reads W, reduces rows,
writes W, and is one of Table 4.3. -/
structure VecKind where
  ok : Bool := true
  y : Bool := false
  w : Bool := false
  reduces : Bool := false
  wOut : Bool := false
  t43 : Bool := false
  deriving DecidableEq, Repr

def vecKind (op : Nat) : VecKind :=
  match op with
  | 0x01 => { y := true }
  | 0x02 => { y := true }
  | 0x03 => { y := true }
  | 0x04 => { y := true, w := true }
  | 0x05 => { y := true }
  | 0x06 => { y := true }
  | 0x07 => {}
  | 0x08 => {}
  | 0x09 => {}
  | 0x0A => {}
  | 0x0B => {}
  | 0x0C => {}
  | 0x10 => { reduces := true, t43 := true }
  | 0x11 => { reduces := true, t43 := true }
  | 0x12 => { y := true, reduces := true, t43 := true }
  | 0x13 => { y := true, t43 := true }
  | 0x14 => { y := true, wOut := true, t43 := true }
  | 0x15 => { y := true, w := true, reduces := true, t43 := true }
  | 0x16 => { y := true, w := true, t43 := true }
  | _ => { ok := false }

/-- Is a format one of F32, BF16 and F16 (R142)? -/
def vecFmt (fmt : Nat) : Bool := decide (fmt ≤ 2)

/-- Same extents. -/
def sameExt (a b : Waybill) : Bool := a.piece == b.piece

/-- Same rows, with one value per row. -/
def rowExt (a b : Waybill) : Bool := a.piece.1 == b.piece.1 && a.piece.2.1 == b.piece.2.1 && b.ext 2 == 1

/-- The extents and formats of the operands (R109, R142). Y and W are `x` again where they are not
used. -/
def vecShape (op : Nat) (yrow : Bool) (x y z w : Waybill) : Bool :=
  let k := vecKind op
  vecFmt x.fmt && z.fmt == 0 && decide (x.ext 2 ≤ 4096)
    && (!k.y || (vecFmt y.fmt && (if yrow then rowExt x y else sameExt x y)))
    && (op != 0x13 || yrow)
    && (!k.w || (vecFmt w.fmt && (if op == 0x15 then
          x.ext 2 == 1 && x.piece.1 == w.piece.1 && x.piece.2.1 == w.piece.2.1 && decide (w.ext 2 ≤ 4096)
        else sameExt x w)))
    && (!k.wOut || (w.fmt == 0 && sameExt x w))
    && (if k.reduces then rowExt x z else sameExt x z)

/-- An operand element as an F32 pattern, after R43, and whether it was flushed. F32 subnormals are never
flushed in the operations of Table 4.3 (R110). -/
def widen (fmt : Nat) (flush : Byte) (t43 : Bool) (pat : Nat) : Nat × Bool :=
  let r := if t43 ∧ fmt = 0 then ((layoutOf 0).value pat, false) else flushIn fmt flush pat
  (r.1.round32, r.2)

/-- Read a vector operand: none when the core has faulted. -/
def State.readVec (s : State) (p q : Nat) (stm : BitVec 3) (t43 : Bool) (w : Waybill) :
    State × Option (List Nat) :=
  let r := s.readPiece p q stm w
  match r.2 with
  | none => (r.1, none)
  | some els =>
    let vs := els.map (widen w.fmt (s.core p).conv.flush t43)
    (r.1.modCore p (fun c => c.modRec w.trec (fun x => x.readFrom (vs.any Prod.snd))),
     some (vs.map Prod.fst))

/-- The same where the operand is used. -/
def State.readVecIf (s : State) (p q : Nat) (stm : BitVec 3) (t43 used : Bool) (w : Waybill) :
    State × Option (List Nat) :=
  if used then s.readVec p q stm t43 w else (s, some [])

/-- Read a waybill where it is used, or answer the one given. -/
def State.readWbIf (s : State) (p q : Nat) (stm : BitVec 3) (used : Bool) (ref : BitVec 14) (dst : Bool)
    (other : Waybill) : State × Option Waybill :=
  if used then s.readWb p q stm ref dst else (s, some other)

/-- Y with one value per row, applied to every element of the row (R142). -/
def spread (n : Nat) (l : List Nat) : List Nat := l.flatMap (fun v => List.replicate n v)

/-- The results of an operation: Z, and W of VONLINE. -/
def vecResults (op imm rows n nw : Nat) (x y w : List Nat) : List Nat × List Nat :=
  let k := vecKind op
  if k.reduces then
    (((chunksOf n x rows).zip ((chunksOf n y rows).zip (chunksOf nw w rows))).map
      (fun e => vecRow op e.1 e.2.1 e.2.2), [])
  else
    (x.zipIdx.map (fun e => vecElem op imm e.1 (y.getD e.2 0) (w.getD e.2 0)),
     if k.wOut then x.zipIdx.map (fun e => vOnlineA e.1 (y.getD e.2 0)) else [])

/-- Run VEC on operands that are read and checked. -/
def State.runVec (s : State) (p q : Nat) (stm : BitVec 3) (op : Nat) (yrow : Bool) (imm : Word)
    (xw yw zw ww : Waybill) : State :=
  let k := vecKind op
  let rx := s.readVec p q stm k.t43 xw
  match rx.2 with
  | none => rx.1
  | some x =>
    let ry := rx.1.readVecIf p q stm k.t43 k.y yw
    match ry.2 with
    | none => ry.1
    | some y =>
      let rw := ry.1.readVecIf p q stm k.t43 k.w ww
      match rw.2 with
      | none => rw.1
      | some w =>
        let rows := xw.ext 0 * xw.ext 1
        let ys := if yrow then spread (xw.ext 2) y else y
        let out := vecResults op imm.toNat rows (xw.ext 2) (ww.ext 2) x
          (if k.y then ys else List.replicate x.length 0)
          (if k.w then w else List.replicate (rows * ww.ext 2) 0)
        let segs := if k.wOut then zw.rows ++ ww.rows else zw.rows
        match rw.1.debitStore p segs with
        | none => rw.1.tollShort p stm [zw.tag]
        | some s1 =>
          let s2 := s1.tallyAdd p tlVEC (out.1.length + out.2.length)
          let e := s2.coreWrite p q
            (zw.storeAll out.1 ++ (if k.wOut then ww.storeAll out.2 else [])) stm [zw.tag]
          if e.2 then e.1.advance p stm else e.1

/-- VEC (R142). An operation code that Table 5.6 leaves undefined is refused at load and is a reference
fault at issue. -/
def execVec (i : Issue) (vop : Byte) (x y z w : BitVec 14) (yrow : Bool) (imm : Word) (s : State) :
    Host.Outcome State Fault Refusal :=
  .next (match s.issuing i.core (.vec i vop x y z w yrow imm) with
    | none => s
    | some p => s.issueWrite p i.stm (fun s0 =>
      let q := s0.partNo i.core
      let op := vop.toNat
      let k := vecKind op
      if !k.ok then s0.refFault p scIllegal i.stm
      else
        let r1 := s0.readWb p q i.stm x false
        match r1.2 with
        | none => r1.1
        | some xw =>
          let r2 := r1.1.readWbIf p q i.stm k.y y false xw
          match r2.2 with
          | none => r2.1
          | some yw =>
            let r3 := r2.1.readWb p q i.stm z true
            match r3.2 with
            | none => r3.1
            | some zw =>
              let r4 := r3.1.readWbIf p q i.stm (k.w || k.wOut) w k.wOut xw
              match r4.2 with
              | none => r4.1
              | some ww =>
                if vecShape op yrow xw yw zw ww then r4.1.runVec p q i.stm op yrow imm xw yw zw ww
                else r4.1.refFault p scIllegal i.stm [xw.tag, zw.tag]))

end Sys2Proof.Machine
end

