-- ==== Sys2Proof/Machine/Dispatch.lean ====
section
/-!
DEFINITION. One arm for each command: its effect on everything but the queue.
-/

namespace Sys2Proof.Machine

def exec (i : Instr) (s : State) : Host.Outcome State Fault Refusal :=
  match i with
  | .nop iss => Sys2Proof.Machine.execNop iss s
  | .loop iss xi step count => Sys2Proof.Machine.execLoop iss xi step count s
  | .loopm iss xi xa addr step max => Sys2Proof.Machine.execLoopm iss xi xa addr step max s
  | .endloop iss => Sys2Proof.Machine.execEndloop iss s
  | .jump iss target => Sys2Proof.Machine.execJump iss target s
  | .brflag iss trec mask sense target => Sys2Proof.Machine.execBrflag iss trec mask sense target s
  | .brmem iss xa addr sense target => Sys2Proof.Machine.execBrmem iss xa addr sense target s
  | .dlbr iss buf n dl target => Sys2Proof.Machine.execDlbr iss buf n dl target s
  | .dlbrTokenReached core => Sys2Proof.Machine.execDlbrTokenReached core s
  | .dlbrDeadlineExpiry core => Sys2Proof.Machine.execDlbrDeadlineExpiry core s
  | .halt iss => Sys2Proof.Machine.execHalt iss s
  | .itineraryDone part => Sys2Proof.Machine.execItineraryDone part s
  | .regwr iss offset xi imm => Sys2Proof.Machine.execRegwr iss offset xi imm s
  | .tokwait iss buf n consume => Sys2Proof.Machine.execTokwait iss buf n consume s
  | .tokwaitSatisfied core => Sys2Proof.Machine.execTokwaitSatisfied core s
  | .tokpost iss buf n => Sys2Proof.Machine.execTokpost iss buf n s
  | .release iss buf => Sys2Proof.Machine.execRelease iss buf s
  | .tollreq iss cls target amount => Sys2Proof.Machine.execTollreq iss cls target amount s
  | .tollGrant core => Sys2Proof.Machine.execTollGrant core s
  | .fence iss => Sys2Proof.Machine.execFence iss s
  | .fenceComplete core => Sys2Proof.Machine.execFenceComplete core s
  | .msarrive iss mid wait rp vr => Sys2Proof.Machine.execMsarrive iss mid wait rp vr s
  | .hostnote iss queue payload => Sys2Proof.Machine.execHostnote iss queue payload s
  | .copy iss src dst pbuf post add => Sys2Proof.Machine.execCopy iss src dst pbuf post add s
  | .copyComplete core op => Sys2Proof.Machine.execCopyComplete core op s
  | .remote iss loc qp rkey roff kind => Sys2Proof.Machine.execRemote iss loc qp rkey roff kind s
  | .remoteComplete core op => Sys2Proof.Machine.execRemoteComplete core op s
  | .convoy iss src tag qp contrib guard => Sys2Proof.Machine.execConvoy iss src tag qp contrib guard s
  | .convoyComplete core op => Sys2Proof.Machine.execConvoyComplete core op s
  | .array iss a b pmode acc lrow m1 n1 => Sys2Proof.Machine.execArray iss a b pmode acc lrow m1 n1 s
  | .arrayi iss dxA dxB dwA dwB dxAcc dwAcc dxM1 dwM1 dxN1 dwN1 => Sys2Proof.Machine.execArrayi iss dxA dxB dwA dwB dxAcc dwAcc dxM1 dwM1 dxN1 dwN1 s
  | .draw iss lrow m1 n1 dst rmode srbits keep wm image sa sb => Sys2Proof.Machine.execDraw iss lrow m1 n1 dst rmode srbits keep wm image sa sb s
  | .conv iss src dst rmode srbits clrrec => Sys2Proof.Machine.execConv iss src dst rmode srbits clrrec s
  | .vec iss vop x y z w yrow imm => Sys2Proof.Machine.execVec iss vop x y z w yrow imm s
  | .tally iss mask dst => Sys2Proof.Machine.execTally iss mask dst s
  | .trace iss mark payload => Sys2Proof.Machine.execTrace iss mark payload s
  | .coreFaultReport n k => Sys2Proof.Machine.execCoreFaultReport n k s
  | .cmdNop h => Sys2Proof.Machine.execCmdNop h s
  | .loadItinerary h image resume => Sys2Proof.Machine.execLoadItinerary h image resume s
  | .start h => Sys2Proof.Machine.execStart h s
  | .pause h => Sys2Proof.Machine.execPause h s
  | .resume h => Sys2Proof.Machine.execResume h s
  | .stop h => Sys2Proof.Machine.execStop h s
  | .contextSwitchDone part => Sys2Proof.Machine.execContextSwitchDone part s
  | .postToken h die buf n => Sys2Proof.Machine.execPostToken h die buf n s
  | .copyIn h host dev len protect slot stream data chunks => Sys2Proof.Machine.execCopyIn h host dev len protect slot stream data chunks s
  | .copyOut h host dev len protect slot => Sys2Proof.Machine.execCopyOut h host dev len protect slot s
  | .registerRegion h rkey base size rights slot => Sys2Proof.Machine.execRegisterRegion h rkey base size rights slot s
  | .revokeRegion h rkey => Sys2Proof.Machine.execRevokeRegion h rkey s
  | .regionDrained idx => Sys2Proof.Machine.execRegionDrained idx s
  | .installKey h blob => Sys2Proof.Machine.execInstallKey h blob s
  | .scrub h => Sys2Proof.Machine.execScrub h s
  | .applyManifest h len obj => Sys2Proof.Machine.execApplyManifest h len obj s
  | .manifestActivation => Sys2Proof.Machine.execManifestActivation s
  | .manifestSwitchTimeout part => Sys2Proof.Machine.execManifestSwitchTimeout part s
  | .manifestCancel fn => Sys2Proof.Machine.execManifestCancel fn s
  | .placementPlace fn part => Sys2Proof.Machine.execPlacementPlace fn part s
  | .placementRemove fn part => Sys2Proof.Machine.execPlacementRemove fn part s
  | .placementRemoveDone part => Sys2Proof.Machine.execPlacementRemoveDone part s
  | .placementReadBack fn part => Sys2Proof.Machine.execPlacementReadBack fn part s
  | .qpCreate fn m part => Sys2Proof.Machine.execQpCreate fn m part s
  | .qpDestroy fn m part => Sys2Proof.Machine.execQpDestroy fn m part s
  | .qpPin fn m part => Sys2Proof.Machine.execQpPin fn m part s
  | .qpUnpin fn m part => Sys2Proof.Machine.execQpUnpin fn m part s
  | .qpReset fn m part => Sys2Proof.Machine.execQpReset fn m part s
  | .qpReadBack fn m part => Sys2Proof.Machine.execQpReadBack fn m part s
  | .anchorEnrol fn obj => Sys2Proof.Machine.execAnchorEnrol fn obj s
  | .anchorRelease fn obj => Sys2Proof.Machine.execAnchorRelease fn obj s
  | .svnAdvance fn => Sys2Proof.Machine.execSvnAdvance fn s
  | .keygen fn part => Sys2Proof.Machine.execKeygen fn part s
  | .keySlotEmpty fn part slot => Sys2Proof.Machine.execKeySlotEmpty fn part slot s
  | .cvSwitchArm fn part => Sys2Proof.Machine.execCvSwitchArm fn part s
  | .cvSwitchDisarm fn part => Sys2Proof.Machine.execCvSwitchDisarm fn part s
  | .shutdown src => Sys2Proof.Machine.execShutdown src s
  | .reboot src => Sys2Proof.Machine.execReboot src s
  | .quiesceDone => Sys2Proof.Machine.execQuiesceDone s
  | .firmwareUpdate fn image => Sys2Proof.Machine.execFirmwareUpdate fn image s
  | .firmwareUpdateDone ok => Sys2Proof.Machine.execFirmwareUpdateDone ok s
  | .lifetimeCommitCmd fn => Sys2Proof.Machine.execLifetimeCommitCmd fn s
  | .lifetimeCommitTimer => Sys2Proof.Machine.execLifetimeCommitTimer s
  | .serviceDue k => Sys2Proof.Machine.execServiceDue k s
  | .tallySnap fn n k => Sys2Proof.Machine.execTallySnap fn n k s
  | .totalSnap fn => Sys2Proof.Machine.execTotalSnap fn s
  | .tallyTotalUpdate => Sys2Proof.Machine.execTallyTotalUpdate s
  | .traceTallyPeriod n k => Sys2Proof.Machine.execTraceTallyPeriod n k s
  | .traceDrain n k count => Sys2Proof.Machine.execTraceDrain n k count s
  | .linkAdminDown fn link => Sys2Proof.Machine.execLinkAdminDown fn link s
  | .linkAdminUp fn link => Sys2Proof.Machine.execLinkAdminUp fn link s
  | .retrain fn link => Sys2Proof.Machine.execRetrain fn link s
  | .quarInject fn n phys => Sys2Proof.Machine.execQuarInject fn n phys s
  | .resInject fn n k target => Sys2Proof.Machine.execResInject fn n k target s
  | .hbmInject fn n kind => Sys2Proof.Machine.execHbmInject fn n kind s
  | .cisInjectError fn m dbl chan => Sys2Proof.Machine.execCisInjectError fn m dbl chan s
  | .cisInjectFail fn m chan => Sys2Proof.Machine.execCisInjectFail fn m chan s
  | .porterInjectAuth fn m => Sys2Proof.Machine.execPorterInjectAuth fn m s
  | .porterInjectDrop fn m => Sys2Proof.Machine.execPorterInjectDrop fn m s
  | .updSubmit fn n word15 => Sys2Proof.Machine.execUpdSubmit fn n word15 s
  | .updHalt fn n v => Sys2Proof.Machine.execUpdHalt fn n v s
  | .updUcodeWrite fn n idx v => Sys2Proof.Machine.execUpdUcodeWrite fn n idx v s
  | .updateEngineTake n => Sys2Proof.Machine.execUpdateEngineTake n s
  | .updateEngineComplete n => Sys2Proof.Machine.execUpdateEngineComplete n s
  | .countingHouseAdd n => Sys2Proof.Machine.execCountingHouseAdd n s
  | .msDefWrite fn part off v => Sys2Proof.Machine.execMsDefWrite fn part off v s
  | .timeStep src hi => Sys2Proof.Machine.execTimeStep src hi s
  | .pwrBudgetWrite src v => Sys2Proof.Machine.execPwrBudgetWrite src v s
  | .logCursorWrite fn wide high v => Sys2Proof.Machine.execLogCursorWrite fn wide high v s
  | .logAutoAdvance fn => Sys2Proof.Machine.execLogAutoAdvance fn s
  | .queueEnable fn q v => Sys2Proof.Machine.execQueueEnable fn q v s
  | .queueDisable fn q v => Sys2Proof.Machine.execQueueDisable fn q v s
  | .queueHaltClear fn q => Sys2Proof.Machine.execQueueHaltClear fn q s
  | .doorbellSqTail fn q tail descs => Sys2Proof.Machine.execDoorbellSqTail fn q tail descs s
  | .doorbellCqHead fn q head => Sys2Proof.Machine.execDoorbellCqHead fn q head s
  | .queueRingError fn q => Sys2Proof.Machine.execQueueRingError fn q s
  | .msixCoalesceExpiry fn q => Sys2Proof.Machine.execMsixCoalesceExpiry fn q s
  | .eventDeliverDeferred fn => Sys2Proof.Machine.execEventDeliverDeferred fn s
  | .nicSendDescriptor fn q desc data => Sys2Proof.Machine.execNicSendDescriptor fn q desc data s
  | .nicRxBufferPost fn q desc => Sys2Proof.Machine.execNicRxBufferPost fn q desc s
  | .bar0BadAccess fn off bytes write => Sys2Proof.Machine.execBar0BadAccess fn off bytes write s
  | .registerLowHalfRead fn off => Sys2Proof.Machine.execRegisterLowHalfRead fn off s
  | .registerReadClear fn rd => Sys2Proof.Machine.execRegisterReadClear fn rd s
  | .registerWrite fn off wide v => Sys2Proof.Machine.execRegisterWrite fn off wide v s
  | .flrVf v => Sys2Proof.Machine.execFlrVf v s
  | .flrPf => Sys2Proof.Machine.execFlrPf s
  | .spdmGetVersion fn => Sys2Proof.Machine.execSpdmGetVersion fn s
  | .spdmGetCapabilities fn => Sys2Proof.Machine.execSpdmGetCapabilities fn s
  | .spdmNegotiateAlgorithms fn ed25519 sha384 => Sys2Proof.Machine.execSpdmNegotiateAlgorithms fn ed25519 sha384 s
  | .spdmGetDigests fn => Sys2Proof.Machine.execSpdmGetDigests fn s
  | .spdmGetCertificate fn slot off len => Sys2Proof.Machine.execSpdmGetCertificate fn slot off len s
  | .spdmChallenge fn slot nonce => Sys2Proof.Machine.execSpdmChallenge fn slot nonce s
  | .getMeasurements fn index signed nonce => Sys2Proof.Machine.execGetMeasurements fn index signed nonce s
  | .spdmUnsupported fn request => Sys2Proof.Machine.execSpdmUnsupported fn request s
  | .sidebandRead seq offset => Sys2Proof.Machine.execSidebandRead seq offset s
  | .sidebandWrite seq offset value => Sys2Proof.Machine.execSidebandWrite seq offset value s
  | .sidebandWake seq => Sys2Proof.Machine.execSidebandWake seq s
  | .ririsWrite f => Sys2Proof.Machine.execRirisWrite f s
  | .ririsWriteNotify f => Sys2Proof.Machine.execRirisWriteNotify f s
  | .ririsReadReq f => Sys2Proof.Machine.execRirisReadReq f s
  | .ririsReadResp f => Sys2Proof.Machine.execRirisReadResp f s
  | .ririsNotify f => Sys2Proof.Machine.execRirisNotify f s
  | .ririsAck f => Sys2Proof.Machine.execRirisAck f s
  | .ririsNak f => Sys2Proof.Machine.execRirisNak f s
  | .ririsUnknownFrame f => Sys2Proof.Machine.execRirisUnknownFrame f s
  | .convoyFrame f => Sys2Proof.Machine.execConvoyFrame f s
  | .contextMiss f => Sys2Proof.Machine.execContextMiss f s
  | .contextFetchDone qp uncorrectable => Sys2Proof.Machine.execContextFetchDone qp uncorrectable s
  | .parkedFrameTimeout qp => Sys2Proof.Machine.execParkedFrameTimeout qp s
  | .qpRetryTimeout qp => Sys2Proof.Machine.execQpRetryTimeout qp s
  | .ackDelayExpiry qp => Sys2Proof.Machine.execAckDelayExpiry qp s
  | .frameForward link laneB f => Sys2Proof.Machine.execFrameForward link laneB f s
  | .switchedFrameSend fromPlane f => Sys2Proof.Machine.execSwitchedFrameSend fromPlane f s
  | .beaconDue link => Sys2Proof.Machine.execBeaconDue link s
  | .beaconReceived link b => Sys2Proof.Machine.execBeaconReceived link b s
  | .beaconLossTimeout link => Sys2Proof.Machine.execBeaconLossTimeout link s
  | .beaconGraceExpiry link => Sys2Proof.Machine.execBeaconGraceExpiry link s
  | .linkRetryTimer link => Sys2Proof.Machine.execLinkRetryTimer link s
  | .opticsPowerOk link => Sys2Proof.Machine.execOpticsPowerOk link s
  | .opticsTimeout link => Sys2Proof.Machine.execOpticsTimeout link s
  | .alignDone link => Sys2Proof.Machine.execAlignDone link s
  | .alignTimeout link => Sys2Proof.Machine.execAlignTimeout link s
  | .beaconWaitTimeout link => Sys2Proof.Machine.execBeaconWaitTimeout link s
  | .pcsAlignmentLost link => Sys2Proof.Machine.execPcsAlignmentLost link s
  | .pcsHighSer link => Sys2Proof.Machine.execPcsHighSer link s
  | .controlAckReceived link ackseq => Sys2Proof.Machine.execControlAckReceived link ackseq s
  | .controlRetxTimeout link => Sys2Proof.Machine.execControlRetxTimeout link s
  | .creditFrameReceived link cred => Sys2Proof.Machine.execCreditFrameReceived link cred s
  | .creditFrameTimer link => Sys2Proof.Machine.execCreditFrameTimer link s
  | .pfcFrameReceived link enable times => Sys2Proof.Machine.execPfcFrameReceived link enable times s
  | .pfcPauseExpiry link prio => Sys2Proof.Machine.execPfcPauseExpiry link prio s
  | .pfcRepeatTimer link prio => Sys2Proof.Machine.execPfcRepeatTimer link prio s
  | .pfcWatchdogFire link prio => Sys2Proof.Machine.execPfcWatchdogFire link prio s
  | .pfcRecoveryEnd link prio => Sys2Proof.Machine.execPfcRecoveryEnd link prio s
  | .nicFrameReceived link bytes => Sys2Proof.Machine.execNicFrameReceived link bytes s
  | .arpNdFrame link head body => Sys2Proof.Machine.execArpNdFrame link head body s
  | .timeFrameDue link => Sys2Proof.Machine.execTimeFrameDue link s
  | .timeFrameReceived link t => Sys2Proof.Machine.execTimeFrameReceived link t s
  | .timeReferenceLoss => Sys2Proof.Machine.execTimeReferenceLoss s
  | .replicaCheck diffs => Sys2Proof.Machine.execReplicaCheck diffs s
  | .ptpLockChange locked => Sys2Proof.Machine.execPtpLockChange locked s
  | .msLocalArrival part obj core => Sys2Proof.Machine.execMsLocalArrival part obj core s
  | .msArrivalMsg m => Sys2Proof.Machine.execMsArrivalMsg m s
  | .msRelease r => Sys2Proof.Machine.execMsRelease r s
  | .msWatchdogFire part obj => Sys2Proof.Machine.execMsWatchdogFire part obj s
  | .msWatchdogNotice m => Sys2Proof.Machine.execMsWatchdogNotice m s
  | .msAbandon m => Sys2Proof.Machine.execMsAbandon m s
  | .msHold m => Sys2Proof.Machine.execMsHold m s
  | .msWithdrawal m => Sys2Proof.Machine.execMsWithdrawal m s
  | .msReplayRequest m => Sys2Proof.Machine.execMsReplayRequest m s
  | .spurFlitError rx tx failures => Sys2Proof.Machine.execSpurFlitError rx tx failures s
  | .meshFlitLoss die port t => Sys2Proof.Machine.execMeshFlitLoss die port t s
  | .correctedWriteback cistern word => Sys2Proof.Machine.execCorrectedWriteback cistern word s
  | .patrolRead cistern unit word passEnd => Sys2Proof.Machine.execPatrolRead cistern unit word passEnd s
  | .cisternReadTimeout m chan => Sys2Proof.Machine.execCisternReadTimeout m chan s
  | .hbmReadTimeout n => Sys2Proof.Machine.execHbmReadTimeout n s
  | .periodicCoreTest n k pass cycles => Sys2Proof.Machine.execPeriodicCoreTest n k pass cycles s
  | .periodicEngineTest n house pass => Sys2Proof.Machine.execPeriodicEngineTest n house pass s
  | .lockstepMismatch n k => Sys2Proof.Machine.execLockstepMismatch n k s
  | .clockMonitorFault c => Sys2Proof.Machine.execClockMonitorFault c s
  | .firmwareWatchdog => Sys2Proof.Machine.execFirmwareWatchdog s
  | .powerRecompute m => Sys2Proof.Machine.execPowerRecompute m s
  | .phaseLearn part dies => Sys2Proof.Machine.execPhaseLearn part dies s
  | .supplyVoltageChange mv => Sys2Proof.Machine.execSupplyVoltageChange mv s
  | .thermalSample d tj => Sys2Proof.Machine.execThermalSample d tj s
  | .droopCrossing d six => Sys2Proof.Machine.execDroopCrossing d six s
  | .droopStretchEnd d cycles => Sys2Proof.Machine.execDroopStretchEnd d cycles s
  | .logArchiveProgram => Sys2Proof.Machine.execLogArchiveProgram s
  | .powerPresent mv => Sys2Proof.Machine.execPowerPresent mv s
  | .powerLost => Sys2Proof.Machine.execPowerLost s
  | .overvoltage => Sys2Proof.Machine.execOvervoltage s
  | .wake recov => Sys2Proof.Machine.execWake recov s
  | .bootDone r => Sys2Proof.Machine.execBootDone r s
  | .perst => Sys2Proof.Machine.execPerst s
  | .mrst => Sys2Proof.Machine.execMrst s
  | .leakDetected => Sys2Proof.Machine.execLeakDetected s
  | .railFault r => Sys2Proof.Machine.execRailFault r s
  | .pcieLinkTrained speed width => Sys2Proof.Machine.execPcieLinkTrained speed width s
  | .recoveryRecallDone part => Sys2Proof.Machine.execRecoveryRecallDone part s
  | .reassignmentScrubDone => Sys2Proof.Machine.execReassignmentScrubDone s
  | .scrubDone part => Sys2Proof.Machine.execScrubDone part s
  | .frameDiscarded link fcsOk addrs tag body => Sys2Proof.Machine.execFrameDiscarded link fcsOk addrs tag body s
  | .leakCleared => Sys2Proof.Machine.execLeakCleared s
  | .lifetimeCommitDone ok => Sys2Proof.Machine.execLifetimeCommitDone ok s

end Sys2Proof.Machine
end

