-- ==== Sys2Proof/Machine/Tick.lean ====
section
/-!
DEFINITION. What happens when no command waits: one cycle of the clock that TIME_NOW counts (R350).
DESIGN CHOICE (log entry 3).
-/

namespace Sys2Proof.Machine

/-- By how many nanoseconds one cycle advances TIME_NOW: 1 on CK_TIME, 40 on CK_AON in STANDBY, none in
OFF (R350, Table 12.1). -/
def tickNs : ModSt → Nat
  | .off => 0
  | .standby => 40
  | _ => 1

/-- A day of the lifetime record's optical part ends (Table 12.5): every lane's mean transmit power of the day, which is
a free value, goes to the next place of its ring. A day is 86,400 s of POWERON_S (log entry 84). -/
def State.optDay (s : State) : State :=
  let d := (s.life.cur.optDay.toNat + 1) % 180
  let s1 := eachDo (List.range 144) (fun i t =>
    t.useFree.modLife (fun r => { r with opt := tabPut 0 r.opt (180 * i + d) (t.freeVal.setWidth 16) })) s
  s1.modLife (fun r => { r with optDay := BitVec.ofNat 16 d })

/-- One nanosecond of the lifetime record: POWERON_S counts seconds outside OFF and STANDBY (Table 12.5). -/
def State.tickLife (s : State) : State :=
  if s.seraiOn then
    if s.life.upNs + 1 < 1000000000 then { s with life := { s.life with upNs := s.life.upNs + 1 } }
    else
      let s1 := { s with life := { s.life with
        upNs := 0, cur := { s.life.cur with powerOnS := s.life.cur.powerOnS + 1 } } }
      if s1.life.cur.powerOnS.toNat % 86400 = 0 then s1.optDay else s1
  else s

/-- The PCS of an aligned link counts corrected and uncorrectable FEC codewords (Table 8.9): how many is no rule's
(log entry 77). -/
def State.fecTick (s : State) (l : Nat) : State :=
  if (s.link l).st = .align ∨ (s.link l).live = true then
    s.useFree.modLink l (fun x => { x with
      fecCorr := x.fecCorr + BitVec.ofNat 64 (b2n (s.freeVal.toNat % 3 == 1)),
      fecUncorr := x.fecUncorr + BitVec.ofNat 64 (b2n (s.freeVal.toNat % 3 == 2)) })
  else s

/-- One link over `ns` nanoseconds (R242, R244): what it sends comes nearer to its end, the next frame starts, and the
receive buffers of the host NIC are emptied. -/
def State.linkTick (s : State) (ns l : Nat) : State :=
  let s1 := ((s.modLink l (fun x => { x with busy := x.busy - ns })).fecTick l).drainLink l
  eachDo [0, 1, 2, 3] (fun p t => t.takeNic l p) s1

/-- One cycle of the clock of TIME_NOW: time passes, the links go on sending, and the next frame of the module to
itself crosses the causeway (R295). -/
def tick (s : State) : State :=
  let ns := tickNs s.mod.state
  let s1 := eachDo (s.links.map Prod.fst) (fun l t => t.linkTick ns l)
    { s with now := s.now + BitVec.ofNat 64 ns }.tickLife
  if s1.clocked then s1.rxSelf else s1

end Sys2Proof.Machine
end

