-- ==== Sys2Proof/Safety.lean ====
section
/-!
DEFINITION. What holds of a T25 module between any two commands, whatever the commands are, and the conditions under
which commands act: the terms in which the statements are written.
-/

namespace Sys2Proof.Machine

/-- No ring of the logbook holds more entries than it has (R446), and the archive's staging buffer at most
1,024 (R451). -/
def Logbook.fits (l : Logbook) : Bool :=
  l.rings.all (fun e => decide (e.2.entries.length ≤ ringCap e.1)) && decide (l.staging.length ≤ 1024)

/-- The memories are in canonical form, at most 64 SVN fuses are blown (R376), and the logbook holds no more
than it has room for. -/
def State.Safe (s : State) : Prop :=
  s.mem.wf = true ∧ s.customs.fuseSvn ≤ 64 ∧ s.log.fits = true

/-- The stalls and depots are in canonical form: addresses rising, and no byte listed that is zero. -/
def State.localWf (s : State) : Bool :=
  s.cores.all (fun e => tabWf 0 e.2.stall) && s.dies.all (fun e => tabWf 0 e.2.depot)

/-- A physical byte: of an HBM3E stack or a cistern channel by its key, of a core's stall, of a die's depot. -/
inductive Cell
  | hbm (key : Nat)
  | cistern (key : Nat)
  | stall (core off : Nat)
  | depot (die off : Nat)
  deriving DecidableEq, Repr

/-- The physical byte that core `p` names by an internal address (R189 to R192); none where no group maps the
address, at an update port and in a reserved row of Table 7.1. -/
def State.cell (s : State) (p a : Nat) : Option Cell :=
  match tierOf a with
  | .hbm => (s.mem.hbmKey a).map .hbm
  | .cistern => (s.mem.cisKey a).map .cistern
  | .stall => some (.stall p (a - stallBase))
  | .depot => some (.depot ((a - depotBase) / 0x2000000) ((a - depotBase) % 0x2000000))
  | .port => none
  | .reserved => none

/-! Conditions. -/

/-- A core after an instruction of it has issued and been counted (tally 27), with the next one at `pc`. -/
def Core.issuedTo (c : Core) (pc : Nat) : Core :=
  { c with pc := pc, tally := tabSet c.tally tlINSNS (tabGet 0 c.tally tlINSNS + 1) }

/-- Logical core `l` may issue instruction `i`, which its itinerary has at the pc, and is carried by physical core
`p`; tally 27 does not pass its 64 bits with it, and `pc` is an instruction of its itinerary (R139). -/
abbrev State.Issues (s : State) (l : Nat) (i : Instr) (p pc : Nat) : Prop :=
  s.issuing l i = some p ∧ (tabGet 0 (s.core p).tally tlINSNS).toNat % 2 ^ 64 + 1 < 2 ^ 64
    ∧ pc < (s.core p).insns.length

/-- A read of `n` bytes at `a` by core `p` of partition `q` is admitted (R198), touches no FAILED channel or stack
(R207, R209), and meets no word in error (R211). -/
abbrev State.ReadsClean (s : State) (p q a n : Nat) : Prop :=
  s.admitted q true false a n = true ∧ s.failedChan a n = none ∧ s.failedStack a n = false
    ∧ ∀ w ∈ wordsOf a n, s.markAt p w = 0

/-- The command of header `h` with these fields is at the front of its queue, may be taken now, and is legal: its
function may command its partition, the partition exists and its state allows the command (R148, R149, R405, R412,
R428). -/
abbrev State.Accepts (s : State) (h : CmdHdr) (code flags args : Nat) : Prop :=
  s.takes h (descOf h code flags args) = true ∧ s.mod.recovery = false ∧ s.unbound h.fn = false
    ∧ s.exists_ h.part = true ∧ (h.fn = 0 ∨ (s.fn h.fn).part.toNat = h.part)
    ∧ (s.part h.part).legal code (bitAt flags 1) = true

/-- Core `p` after its instruction has issued, before the instruction's effect. -/
def State.counted (s : State) (p : Nat) : State := s.setCore p ((s.core p).issuedTo (s.core p).pc)

/-- An object at the start of the generation that follows a release with OK (R173). -/
def MsObj.released (y : MsObj) : MsObj :=
  { y with gen := y.gen + 1, arrived := [], coming := [], nodes := [], since := none, fired := false, phase := 0,
           lastOk := true, due := none }

end Sys2Proof.Machine
end

