-- ==== Sys2Proof/Certificates/Slice0/Obligations.lean ====
section
/-!
DEFINITION. The statements about the T25 that are to be proved.
-/

open Sys2Proof Sys2Proof.Machine

/-! Control instructions. -/

/-- R137, R139 (INSN_COUNT), R140: NOP, JUMP and BRFLAG count as issued and go to the next instruction, to TARGET,
or to TARGET when the flags that MASK selects match SENSE; nothing else changes. R141: REGWR writes IMM + XREG[XI]
to the register at OFFSET, one of those the rule names, and counts as issued; nothing else changes. -/
def Obligations.NopJumpBrflagRegwrComplete : Prop :=
  (∀ (s : State) (i : Issue) (p : Nat) (target : BitVec 14) (trec : BitVec 6) (mask : BitVec 3) (sense : Bool),
     (s.Issues i.core (.nop i) p ((s.core p).pc + 1) →
       exec (.nop i) s = .next (s.setCore p ((s.core p).issuedTo ((s.core p).pc + 1))))
     ∧ (s.Issues i.core (.jump i target) p target.toNat →
       exec (.jump i target) s = .next (s.setCore p ((s.core p).issuedTo target.toNat)))
     ∧ (s.Issues i.core (.brflag i trec mask sense target) p target.toNat →
        (((s.core p).recd trec.toNat).any mask == sense) = true →
       exec (.brflag i trec mask sense target) s = .next (s.setCore p ((s.core p).issuedTo target.toNat)))
     ∧ (s.Issues i.core (.brflag i trec mask sense target) p ((s.core p).pc + 1) →
        (((s.core p).recd trec.toNat).any mask == sense) = false →
       exec (.brflag i trec mask sense target) s
         = .next (s.setCore p ((s.core p).issuedTo ((s.core p).pc + 1)))))
  ∧ (∀ (s : State) (i : Issue) (p : Nat) (offset : BitVec 16) (xi : BitVec 4) (imm : Word),
       let c := s.core p
       s.Issues i.core (.regwr i offset xi imm) p (c.pc + 1) → regwrOk offset.toNat = true →
         exec (.regwr i offset xi imm) s
           = .next (s.setCore p ((c.regWrite offset.toNat (imm + c.x xi.toNat)).issuedTo (c.pc + 1))))

/-- R139: LOOP pushes a loop of COUNT iterations, or skips past its ENDLOOP when COUNT is 0. ENDLOOP adds STEP to
XREG[XI] and returns to the body's first instruction while iterations are left, and pops the entry after the last.
Nothing else changes. R139, R140: LOOPM takes its count from the word at ADDR + 4 × XREG[XA], and BRMEM branches on
whether that word is nonzero as SENSE says, where the word is readable; nothing else changes. -/
def Obligations.LoopsComplete : Prop :=
  (∀ (s : State) (i : Issue) (p : Nat) (xi : BitVec 4) (step count : Word) (e : LoopEntry) (rest : List LoopEntry),
     let c := s.core p
     let c1 := c.setX e.xi.toNat (c.x e.xi.toNat + e.step)
     (s.Issues i.core (.loop i xi step count) p (c.pc + 1) → count ≠ 0 → c.loops.length < 4 →
       exec (.loop i xi step count) s = .next (s.setCore p { c.issuedTo (c.pc + 1) with
         loops := { start := c.pc + 1, xi := xi, step := step, left := count.toNat } :: c.loops }))
     ∧ (s.Issues i.core (.loop i xi step 0) p c.skipLoop →
       exec (.loop i xi step 0) s = .next (s.setCore p (c.issuedTo c.skipLoop)))
     ∧ (s.Issues i.core (.endloop i) p e.start → c.loops = e :: rest → 1 < e.left →
       exec (.endloop i) s = .next (s.setCore p { c1.issuedTo e.start with
         loops := { e with left := e.left - 1 } :: rest }))
     ∧ (s.Issues i.core (.endloop i) p (c.pc + 1) → c.loops = e :: rest → e.left ≤ 1 →
       exec (.endloop i) s = .next (s.setCore p { c1.issuedTo (c.pc + 1) with loops := rest })))
  ∧ (∀ (s : State) (i : Issue) (p : Nat) (xi xa : BitVec 4) (addr : BitVec 44) (step : BitVec 16) (max : Word)
       (sense : Bool) (target : BitVec 14),
       let c := s.core p
       let a := addr.toNat + 4 * (c.x xa.toNat).toNat
       let n := s.wordAt p a
       s.ReadsClean p (s.partNo i.core) a 4 →
       (s.Issues i.core (.loopm i xi xa addr step max) p (c.pc + 1) → n ≠ 0 → n ≤ max.toNat → c.loops.length < 4 →
         exec (.loopm i xi xa addr step max) s = .next (s.setCore p { c.issuedTo (c.pc + 1) with
           loops := { start := c.pc + 1, xi := xi, step := step.signExtend 32, left := n } :: c.loops }))
       ∧ (s.Issues i.core (.loopm i xi xa addr step max) p c.skipLoop → n = 0 →
         exec (.loopm i xi xa addr step max) s = .next (s.setCore p (c.issuedTo c.skipLoop)))
       ∧ (s.Issues i.core (.brmem i xa addr sense target) p target.toNat → (n != 0) = sense →
         exec (.brmem i xa addr sense target) s = .next (s.setCore p (c.issuedTo target.toNat)))
       ∧ (s.Issues i.core (.brmem i xa addr sense target) p (c.pc + 1) → (n != 0) ≠ sense →
         exec (.brmem i xa addr sense target) s = .next (s.setCore p (c.issuedTo (c.pc + 1)))))

/-! Tokens, deadlines, tolls, fences. -/

/-- R143: TOKWAIT with N tokens there goes on, taking them when CONSUME is set; with fewer the core waits, and
TOKWAIT_SATISFIED ends the wait once they are there, taking them likewise. TOKPOST adds N where the count stays at
most 255, and tally 29 counts it. The wait records of R442 are off here; nothing else changes. R140, R205: DLBR with
N tokens there goes on in line, and with fewer waits till the deadline; DLBR_TOKEN_REACHED ends the wait in line. At
DLBR_DEADLINE_EXPIRY with too few tokens, and no COPY outstanding to the buffer, code 0x100B is written with status
DEADLINE_EXPIRED and the core goes to TARGET. The wait records of R442 are off here. -/
def Obligations.TokenWaitsComplete : Prop :=
  (∀ (s : State) (i : Issue) (core p : Nat) (buf : BitVec 14) (n : BitVec 8) (consume : Bool) (b : Buf) (m : Nat),
     let c := s.core p
     (s.Issues i.core (.tokwait i buf n consume) p (c.pc + 1) → s.bufRef p (s.partNo i.core) i.stm buf = some b →
       s.missing p b = false →
       n.toNat ≤ s.tok p b →
       exec (.tokwait i buf n consume) s
         = .next ((if consume then s.setTok p b (s.tok p b - n.toNat) else s).modCore p
             (fun c => c.issuedTo (c.pc + 1))))
     ∧ (s.Issues i.core (.tokwait i buf n consume) p (c.pc + 1) → s.bufRef p (s.partNo i.core) i.stm buf = some b →
        s.missing p b = false →
       s.tok p b < n.toNat → c.traces 1 = false →
       exec (.tokwait i buf n consume) s
         = .next (s.setCore p { c.issuedTo c.pc with
             wait := .token b n.toNat consume, waitSince := s.dieNow (p / 22), waitStm := i.stm }))
     ∧ (s.waiting core = some p → c.wait = .token b m consume → m ≤ s.tok p b → c.traces 1 = false →
       c.pc + 1 < c.insns.length →
       exec (.tokwaitSatisfied core) s
         = .next ((if consume then s.setTok p b (s.tok p b - m) else s).modCore p
             (fun c => { c with wait := .none, pc := c.pc + 1 })))
     ∧ (s.Issues i.core (.tokpost i buf n) p (c.pc + 1) → s.bufRef p (s.partNo i.core) i.stm buf = some b →
        c.fence = none →
       s.tok p b + n.toNat ≤ 255 → (tabGet 0 c.tally tlTOKPOSTS).toNat % 2 ^ 64 + 1 < 2 ^ 64 →
       exec (.tokpost i buf n) s
         = .next ((s.setTok p b (s.tok p b + n.toNat)).modCore p (fun c => { c.issuedTo (c.pc + 1) with
             tally := tabSet (c.issuedTo c.pc).tally tlTOKPOSTS (tabGet 0 c.tally tlTOKPOSTS + 1) }))))
  ∧ (∀ (s : State) (i : Issue) (core p : Nat) (buf : BitVec 14) (n : BitVec 8) (dl : BitVec 24) (target : BitVec 14)
       (b : Buf) (m : Nat) (till : DWord) (tgt : Nat),
       let c := s.core p
       (c.traces 1 = false → s.bufRef p (s.partNo i.core) i.stm buf = some b → s.missing p b = false →
         s.Issues i.core (.dlbr i buf n dl target) p (c.pc + 1) →
         (n.toNat ≤ s.tok p b →
           exec (.dlbr i buf n dl target) s = .next (s.setCore p (c.issuedTo (c.pc + 1))))
         ∧ (s.tok p b < n.toNat → dl ≠ 0 →
           exec (.dlbr i buf n dl target) s
             = .next (s.setCore p { c.issuedTo c.pc with
                 wait := .deadline b n.toNat (s.now + dl.setWidth 64) target.toNat,
                 waitSince := s.dieNow (p / 22), waitStm := i.stm })))
       ∧ (c.traces 1 = false → s.waiting core = some p → c.wait = .deadline b m till tgt →
         (m ≤ s.tok p b → c.pc + 1 < c.insns.length →
           exec (.dlbrTokenReached core) s = .next (s.setCore p { c with wait := .none, pc := c.pc + 1 }))
         ∧ (s.tok p b < m → tgt < c.insns.length → (∀ e ∈ s.cores, ∀ o ∈ e.2.ops, o.post ≠ some b) →
           exec (.dlbrDeadlineExpiry core) s
             = .next (((s.setCore p { c with wait := .none }).logCore p 0x100B scDeadline []).modCore p
                 (fun c => { c with pc := tgt })))))

/-- R144, R145, Table 5.7: RELEASE gives a depot buffer its whole space back. TOLLREQ that the receiver could ever
serve waits in order of arrival. TOLL_GRANT, for the first that waits for its receiver and where there is room,
takes the units from the receiver and adds them to the core's balance. -/
def Obligations.TollsComplete : Prop :=
  ∀ (s : State) (i : Issue) (core p d k : Nat) (buf : BitVec 14) (cls : BitVec 4) (target : BitVec 20)
    (amount : BitVec 24) (cl tgt amt : Nat),
    let c := s.core p
    (s.Issues i.core (.release i buf) p (c.pc + 1) → s.bufRef p (s.partNo i.core) i.stm buf = some (.depot d k) →
      exec (.release i buf) s
        = .next ((s.modDie d (fun x => x.modBuf k (fun y => { y with free := y.size / 256 }))).modCore p
            (fun c => c.issuedTo (c.pc + 1))))
    ∧ (s.Issues i.core (.tollreq i cls target amount) p (c.pc + 1) →
       s.tollCheck p (s.partNo i.core) cls.toNat target.toNat amount.toNat = 0 →
      (cls = 3 → (s.qp target.toNat).cached = true) → c.traces 1 = false →
      exec (.tollreq i cls target amount) s
        = .next { s.setCore p { c.issuedTo c.pc with
              wait := .toll cls.toNat target.toNat amount.toNat, waitSince := s.dieNow (p / 22), waitStm := i.stm } with
            tollWait := s.tollWait ++ [p] })
    ∧ (s.waiting core = some p → c.wait = .toll cl tgt amt → s.firstFor p = true → s.tollRoom cl tgt amt = true →
      c.traces 1 = false → c.pc + 1 < c.insns.length →
      exec (.tollGrant core) s
        = .next ({ s.tollTake cl tgt amt with tollWait := s.tollWait.filter (· != p) }.modCore p (fun c => { c with
            tolls := tabSet c.tolls (tollKey cl tgt) (tabGet 0 c.tolls (tollKey cl tgt) + amt),
            wait := .none, pc := c.pc + 1 })))

/-- R168, R170, R147: FENCE covers the operations outstanding at its issue, and the core goes on; FENCE_COMPLETE,
once none of them is outstanding, ends the fence and a wait on it. HALT makes the core DONE. -/
def Obligations.FenceHaltComplete : Prop :=
  ∀ (s : State) (i : Issue) (core p : Nat) (l : List Nat),
    let c := s.core p
    (s.Issues i.core (.fence i) p (c.pc + 1) →
      exec (.fence i) s
        = .next (s.setCore p { c.issuedTo (c.pc + 1) with fence := some (c.ops.map (fun o => o.id)) }))
    ∧ (s.waiting core = some p → c.fence = some l → (∀ o ∈ c.ops, o.id ∉ l) → c.traces 1 = false →
      (c.wait = .fence →
        exec (.fenceComplete core) s = .next (s.setCore p { c with fence := none, wait := .none }))
      ∧ (c.wait ≠ .fence → exec (.fenceComplete core) s = .next (s.setCore p { c with fence := none })))
    ∧ (s.Issues i.core (.halt i) p c.pc → exec (.halt i) s = .next (s.setCore p { c.issuedTo c.pc with st := .done }))

/-! The end of an itinerary, notes and faults. -/

/-- R147, R151, R411: once every used core of a RUNNING partition has halted with its porter operations complete,
the partition is LOADED and its START is done: where its queue is enabled and not in ERROR, an entry with OK and
PART_RP is written to the completion ring. Of the cores only the clocks' gaps change; memory, the dies, the other
partitions and the other queues are as they were. R415: HOSTNOTE without a FENCE in progress makes its note (KIND 1,
CID 0xFFFF, the payload, the logical core and the partition in RESULT0, the instruction's index in RESULT1), which
is written at once where the queue takes notes, none waits and a slot is free; held where it must wait and fewer
than 64 are held; and else dropped, counted and logged with code 0x0304. With a FENCE in progress it waits for it
(R168). -/
def Obligations.EndAndNotesComplete : Prop :=
  (∀ (s : State) (part : Nat) (c : CmdRef),
     let y := s.queue c.fn c.q
     let x := s.part part
     let e : Cqe := { cid := c.cid, status := 0, kind := 0, queue := c.q, result0 := x.rpWord.setWidth 64, result1 := 0 }
     s.clocked = true → x.st = .running → x.switching = none → s.allDone part = true → x.start = some c →
     ∃ t, exec (.itineraryDone part) s = .next t
       ∧ t.part part = { x with st := .loaded, reason := 0, status := 0, start := none }
       ∧ (y.en = true → y.error = false →
         t.host.mem = tabPutList 0 s.host.mem (y.cqBase.toNat + 32 * y.cqTail) (e.bytes y.phase y.sqHead s.now))
       ∧ (∀ r, r ≠ part → t.part r = s.part r)
       ∧ (∀ p, ∃ g, t.core p = (s.core p).modGaps g)
       ∧ (∀ f q, f ≠ c.fn ∨ q ≠ c.q → t.queue f q = s.queue f q)
       ∧ t = { s with cores := t.cores, parts := t.parts, host := t.host, fns := t.fns })
  ∧ (∀ (s : State) (i : Issue) (p : Nat) (queue : BitVec 8) (payload : Word),
       let q := s.partNo i.core
       let f := s.fnOfPart q
       let y := s.queue f queue.toNat
       let full := (s.fn f).held ≠ [] ∨ y.freeSlots = 0
       let e : Cqe :=
         { cid := 0xFFFF, status := 0, kind := 1, queue := queue.toNat,
           result0 := w64 (payload.toNat + 2 ^ 32 * i.core + 2 ^ 40 * q), result1 := w64 (s.core p).pc }
       let next := fun (t : State) =>
         exec (.hostnote i queue payload) s = .next (t.setCore p ((s.core p).issuedTo ((s.core p).pc + 1)))
       s.Issues i.core (.hostnote i queue payload) p ((s.core p).pc + 1) →
       ((s.core p).fence = none →
         (y.takesNotes = true → (s.fn f).held = [] → 0 < y.freeSlots →
           next (s.cqWrite f queue.toNat e)
           ∧ (s.cqWrite f queue.toNat e).host.mem
               = tabPutList 0 s.host.mem (y.cqBase.toNat + 32 * y.cqTail) (e.bytes y.phase y.sqHead s.now))
         ∧ (y.takesNotes = true → full → (s.fn f).held.length < 64 →
           next (s.modFn f (fun x => { x with held := x.held ++ [e] })))
         ∧ (y.takesNotes = false ∨ (full ∧ 64 ≤ (s.fn f).held.length) →
           next ((s.modFn f (fun x => { x with evtDrops := satAdd x.evtDrops 1 })).logPcie 0x0304 scOk f queue.toNat [])))
       ∧ ((s.core p).fence ≠ none → (s.core p).traces 1 = false →
         exec (.hostnote i queue payload) s
           = .next (s.setCore p { s.core p with
               wait := .fence, waitSince := s.dieNow (p / 22), waitStm := i.stm })))

/-- R146, Table 5.8: Serai takes a core's fault: a core of no partition whose own arithmetic or storage did not fail
only loses its pending fault; a status other than UNCORRECTABLE halts a RUNNING partition with that status; an
UNCORRECTABLE one starts a recovery, with the core in the quarantine list exactly where its own check failed; and
the faults that come before its recall ends add to that recovery. -/
def Obligations.CoreFaultReportComplete : Prop :=
  ∀ (s : State) (n k q : Nat) (r : Recovery),
    let p := 22 * n + k
    let c := s.core p
    let own := c.faultOwn && decide (c.faultStatus = st8 scUncorr)
    let s1 := s.setCore p { c with faultPending := false }
    s.clocked = true → k < 22 → n < 12 → c.faultPending = true →
    (s.partOfPhys p = none → c.faultOwn = false → exec (.coreFaultReport n k) s = .next s1)
    ∧ (s.partOfPhys p = some q → (s.part q).st = .running → (s.part q).switching = none →
        (c.faultStatus ≠ st8 scUncorr →
          exec (.coreFaultReport n k) s = .next (s1.enterHalted q c.faultStatus.toNat))
        ∧ (c.faultStatus = st8 scUncorr → (s.part q).recovery = none →
          exec (.coreFaultReport n k) s = .next (s1.beginRecovery q p scUncorr (if own then [p] else []))))
    ∧ (s.partOfPhys p = some q → (s.part q).st = .recovering → (s.part q).switching = none →
        c.faultStatus = st8 scUncorr → (s.part q).recovery = some r → r.recalled = false →
        exec (.coreFaultReport n k) s
          = .next (s1.modPart q (fun x => { x with
              recovery := some { r with quarantine := r.quarantine ++ (if own then [p] else []) } })))

/-! Milestones. -/

/-- R172, R173: MSARRIVE of a core of the object's group that has not arrived sends its arrival to Serai; without
WAIT the core goes on, with WAIT it waits for the release. At a replay point, marked VR or not, its snapshot is
taken first (R154). The trace records of kinds 1 and 5 are off here. -/
def Obligations.MsarriveComplete : Prop :=
  ∀ (s : State) (i : Issue) (p o : Nat) (mid : BitVec 16) (rp vr : Bool),
    let q := s.partNo i.core
    let c := s.core p
    let arr := fun (t : State) => t.modObj q o (fun y => { y with coming := y.coming ++ [i.core] })
    let snap := if rp then
        s.modPart q (fun y => y.takeSnap o i.core vr c.snapshot)
      else s
    c.fence = none → c.traces 1 = false → c.traces 5 = false →
    (vr = true → rp = true ∧ c.loops = []) →
    (s.ms q).find mid = some o → i.core ∈ (s.ms q).coresOf o → (s.ms q).abandoned = false →
    i.core ∉ (s.obj q o).arrived → i.core ∉ (s.obj q o).coming →
    (s.Issues i.core (.msarrive i mid false rp vr) p (c.pc + 1) →
      exec (.msarrive i mid false rp vr) s = .next ((arr snap).setCore p (c.issuedTo (c.pc + 1))))
    ∧ (s.Issues i.core (.msarrive i mid true rp vr) p c.pc → exec (.msarrive i mid true rp vr) s
        = .next ((arr snap).setCore p { c.issuedTo c.pc with
            wait := .milestone q o none, waitSince := s.dieNow (p / 22), waitStm := i.stm }))

/-- R173: MS_LOCAL_ARRIVAL counts the core's arrival, which starts the watchdog if it is the generation's first; the
last one of a module-local object makes its release due. MS_RELEASE of a module-local object takes it to the next
generation with no arrivals, then releases every core that waits on it. Trace records of kinds 1 and 5 are off, and
no convoy switch, replay point, PAUSE or manifest acts at this release. -/
def Obligations.LocalMilestonesComplete : Prop :=
  ∀ (s : State) (q o l : Nat) (f : Fold),
    let x := s.obj q o
    let s1 := s.modObj q o (fun y => { (y.started s.now) with
      coming := y.coming.filter (· != l), arrived := y.arrived ++ [l], phase := if y.phase = 0 then 1 else y.phase })
    s.clocked = true →
    (x.coming.contains l = true → s1.localFull q o = false → exec (.msLocalArrival q o l) s = .next s1)
    ∧ (x.coming.contains l = true → s1.localFull q o = true → x.jobwide = false →
      exec (.msLocalArrival q o l) s = .next (s1.modObj q o (fun y => { y with due := some (s.ownFold q) })))
    ∧ (x.due = some f → f.mismatch = false → x.jobwide = false → (s.ms q).abandoned = false →
      (s.convoy q).armed = false → (∀ e ∈ (s.part q).pendSnaps, e.1 ≠ o) → (s.part q).pause = none →
      (s.part q).switching = none → (s.part q).st = .running → s.mod.inForce = none → s.mod.staged = none →
      (s.msWaiters q o).Nodup →
      (∀ p ∈ s.msWaiters q o, (s.core p).wait = .milestone q o none ∧ (s.core p).traces 1 = false
        ∧ (s.core p).traces 5 = false ∧ (s.core p).pc + 1 < (s.core p).insns.length) →
      exec (.msRelease (.own q o)) s
        = .next (eachDo (s.msWaiters q o)
            (fun p t => t.modCore p (fun c => { c with wait := .none, pc := c.pc + 1 }))
            ((s.modObj q o MsObj.released).startPhase q x.mid)))

/-- R173 to R175, R235: of messages that their link brings in order, for the one partition here of their job, an
arrival in the object's generation is counted at the node of its child's level, and a release of that generation
takes the object to the next one. No core waits, and no convoy switch, replay point, PAUSE or manifest acts at this
release. A message out of the order of its link is only acknowledged. -/
def Obligations.MilestoneMessagesComplete : Prop :=
  ∀ (s : State) (m : MsMsg) (q o : Nat),
    let s1 := (s.msIn m).1
    let l := s1.childLevel m.src.toNat
    let cs := tabGet [] (s1.obj q o).nodes l
    let c : ChildArrival :=
      { src := m.src, fold := ⟨m.foldDigest, m.foldEpoch, m.foldMod, m.mismatch⟩ }
    s.clocked = true → m.dst.toNat = s.coord →
    ((s.msIn m).2 = false →
      (m.kind = .arrival → exec (.msArrivalMsg m) s = .next s1)
      ∧ (m.kind = .release → exec (.msRelease (.message m)) s = .next s1))
    ∧ ((s.msIn m).2 = true → s1.jobOf m.job = [q] → (s1.ms q).find m.mid = some o →
    m.gen = (s1.obj q o).gen → m.ctx = (s1.obj q o).ctx → m.rcount = (s1.ms q).rcount →
    (m.kind = .arrival → (s1.ms q).hosted ≠ [] → ((s1.ms q).node l).host = true →
      (∀ e ∈ cs, e.src ≠ m.src) → cs.length + 1 < ((s1.ms q).node l).children.toNat →
      exec (.msArrivalMsg m) s = .next (s1.modObj q o (fun y => { (y.started s1.now) with
        nodes := tabSet y.nodes l (cs ++ [c]), phase := if y.phase = 0 then 1 else y.phase })))
    ∧ (m.kind = .release → m.status = 0 → m.mismatch = false → (s1.ms q).hosted = [] →
      (s1.ms q).abandoned = false → (s1.convoy q).armed = false → (∀ e ∈ (s1.part q).pendSnaps, e.1 ≠ o) →
      (s1.part q).pause = none → (s1.part q).switching = none → (s1.part q).st = .running →
      s1.mod.inForce = none → s1.mod.staged = none → s1.msWaiters q o = [] →
      exec (.msRelease (.message m)) s
        = .next ((s1.modObj q o MsObj.released).startPhase q (s1.obj q o).mid)))

/-- R179, R180: a watchdog whose generation has an arrival, no release due, no hold and no replay request standing
records who has not arrived, writes code 0x0130 and stops the waiting cores with WATCHDOG; of a module-local object
nothing else changes, and of a job-wide one the notice goes to the root. A notice that reaches the root of the job
in order, of the object's generation, releases that generation with WATCHDOG. -/
def Obligations.WatchdogComplete : Prop :=
  ∀ (s : State) (m : MsMsg) (q o : Nat),
    let x := s.obj q o
    let u := (((s.recordMiss q o).modObj q o (fun y => { y with fired := true })).logMs q 0x0130 scWatchdog
        (some o) []).stopWaiters q o x.gen scWatchdog
    let s1 := (s.msIn m).1
    (s.clocked = true → x.valid = true → x.since.isSome = true → x.fired = false → x.due = none →
      (s.ms q).hold = 0 → (s.ms q).replayReq = false →
      exec (.msWatchdogFire q o) s = .next (if x.jobwide then u.noticeRoot q o else u))
    ∧ (s.clocked = true → m.dst.toNat = s.coord → m.kind = .watchdogNotice → (s.msIn m).2 = true → s1.jobOf m.job = [q] →
      (s1.ms q).rootHere = true → (s1.ms q).find m.mid = some o → m.ctx = (s1.obj q o).ctx →
      m.rcount = (s1.ms q).rcount → m.gen = (s1.obj q o).gen → (s1.obj q o).due = none →
      exec (.msWatchdogNotice m) s = .next (s1.rootRelease q o scWatchdog (s1.ownFold q)))

/-- R181, R183: the root's abandon, hold or withdrawal that comes in order acts on the one partition of the job
here: JOB_ABANDONED is set, every hold ends and no wait is left (no core waits here); one hold more stands; or one
less, and when none is left the watchdogs that run start again from zero. Nothing else changes. R159, R175, R182: a
replay request that carries the recovery count plus one puts a RUNNING partition of its job into RECOVERING, counted
at its replay point, with the job's recovery count one higher, its objects at the generations of the replay point
and their arrivals dropped; the replay point is the one that the request names where the snapshots of that one are
held. -/
def Obligations.JobComplete : Prop :=
  (∀ (s : State) (m : MsMsg) (q : Nat),
     let s1 := (s.msIn m).1
     s.clocked = true → m.dst.toNat = s.coord → (s.msIn m).2 = true → s1.jobOf m.job = [q] → m.ctx = (s1.ms q).ctx →
     m.rcount = (s1.ms q).rcount → s1.fromParent q m = true → (s1.ms q).hosted = [] →
     (m.kind = .abandon → (∀ p ∈ s1.physOfPart q, (s1.core p).waitsAny q = false) →
       exec (.msAbandon m) s = .next (s1.modPart q (fun x => { x with
         ms := { x.ms with abandoned := true, hold := 0, replayReq := false }, heldCores := [] })))
     ∧ (m.kind = .hold → exec (.msHold m) s = .next (s1.modMs q (fun x => { x with hold := x.hold + 1 })))
     ∧ (m.kind = .withdrawal →
       exec (.msWithdrawal m) s = .next (s1.modMs q (fun x => { x with
         hold := x.hold - 1,
         objs := if 1 < x.hold then x.objs
           else x.objs.map (fun e => (e.1, { e.2 with since := e.2.since.map (fun _ => s1.now) })) }))))
  ∧ (∀ (s : State) (m : MsMsg) (q : Nat),
       let s1 := (s.msIn m).1
       let a := s1.adoptPoint q m.mid m.gen
       s.clocked = true → m.dst.toNat = s.coord → (s.msIn m).2 = true → m.kind = .replayRequest →
       s1.jobOf m.job = [q] → s1.fromParent q m = true → (s1.ms q).hosted = [] →
       m.rcount = (s1.ms q).rcount + 1 → (s1.part q).st = .running → (s1.part q).switching = none →
       (s1.part q).recovery = none → (s1.part q).holding = false → (a.part q).rpTries ≠ 3 →
       ∃ t, exec (.msReplayRequest m) s = .next t ∧ (t.part q).st = .recovering
         ∧ (t.part q).rpTries = (a.part q).rpTries + 1 ∧ (t.ms q).rcount = (s1.ms q).rcount + 1
         ∧ (t.ms q).replayReq = true
         ∧ (∀ e ∈ (t.ms q).objs, e.2.gen = tabGet 0 (a.part q).rpGens e.1 ∧ e.2.arrived = [] ∧ e.2.coming = []))

/-! The core porter. -/

/-- R137, R113, R117: a COPY whose waybills are read, whose pieces fit and whose source can be read starts one
operation and the core goes on. Between stall, depots, HBM and cistern it holds the source's bytes as they are now,
with the buffer that POST names, and what the destination's depot buffers need is taken from the core's tolls
(R144); memory is not written yet. To an update port it holds the descriptor, against the toll of that engine. With
ADD its elements go to the counting houses. R137, R143: at COPY_COMPLETE the operation's bytes are stored and its
token is posted; an update descriptor sits in its engine's queue instead (R117); a COPY with ADD completes when
every add has been applied (R113). Records of kind PORTER are off. -/
def Obligations.CopyComplete : Prop :=
  (∀ (s v : State) (i : Issue) (p : Nat) (src dst pbuf : BitVec 14) (post add : Bool) (ws wd : Waybill) (b : Buf),
     let c := s.core p
     let q := s.partNo i.core
     let u := s.counted p
     let r := u.tallyTier p (rdTally (tierOf ws.base)) ws.bytes
     let bs := s.pieceBytes p ws
     let n := (wd.base - portBase) / 0x10000
     let l := addList wd.rows bs
     let ops := fun (act : PorterDo) (bytes : Nat) => c.ops ++
       [({ id := c.nextOp, act := act, pc := c.pc, stm := i.stm, post := if post then some b else none,
           bytes := bytes, tag := wd.tag, reads := ws.rows } : PorterOp)]
     s.Issues i.core (.copy i src dst pbuf post add) p (c.pc + 1) → c.fence = none →
     u.readWb p q i.stm src false = (u, some ws) → u.readWb p q i.stm dst true = (u, some wd) →
     (post = true → u.bufRef p q i.stm pbuf = some b) → copyShape ws wd add = true →
     u.failedIn ws.rows = none → u.coreRead p q ws.rows i.stm [ws.tag] = (u, true) →
     (add = false → tierOf wd.base ≠ .port → r.debit p (r.depotDebits wd.rows) = some v →
       ∃ t, exec (.copy i src dst pbuf post add) s = .next t
         ∧ (t.core p).pc = c.pc + 1 ∧ (t.core p).st = .running
         ∧ (t.core p).ops = ops (.copy (fillSegs wd.rows bs)) wd.bytes
         ∧ (t.core p).tolls = (v.core p).tolls ∧ (t.core p).stall = c.stall ∧ (t.core p).ledger = c.ledger
         ∧ (∀ k, k ≠ p → t.core k = s.core k) ∧ t = { s with cores := t.cores, log := t.log })
     ∧ (add = false → tierOf wd.base = .port → r.debit p [(tollKey 1 n, 1)] = some v →
       ∃ t, exec (.copy i src dst pbuf post add) s = .next t
         ∧ (t.core p).pc = c.pc + 1 ∧ (t.core p).st = .running
         ∧ (t.core p).ops = ops (.descriptor n (descWords bs)) 64
         ∧ (t.core p).tolls = (v.core p).tolls ∧ (t.core p).stall = c.stall ∧ (t.core p).ledger = c.ledger
         ∧ (∀ k, k ≠ p → t.core k = s.core k) ∧ t = { s with cores := t.cores, log := t.log })
     ∧ (add = true → r.debit p (r.houseDebits l) = some v →
       ∃ t, exec (.copy i src dst pbuf post add) s = .next t
         ∧ (t.core p).pc = c.pc + 1 ∧ (t.core p).st = .running
         ∧ (t.core p).ops = ops (.add l.length) wd.bytes
         ∧ (t.core p).tolls = (v.core p).tolls ∧ (t.core p).stall = c.stall ∧ (t.core p).ledger = c.ledger
         ∧ (∀ k, k ≠ p → t.core k = s.core k)
         ∧ t = { s with cores := t.cores, houses := t.houses, log := t.log }))
  ∧ (∀ (s : State) (core p op n : Nat) (o : PorterOp) (wr : List (Nat × List Byte)) (words : List Word) (b : Buf),
       let r := s.stores p (s.partOf core) wr
       s.clockedPhys core = some p → (s.core p).op op = some o → (s.core p).traces 4 = false → o.status = 0 →
       (o.act = .copy wr → r.2 = false → (r.1.core p).traces 4 = false → o.post = none →
         exec (.copyComplete core op) s = .next (r.1.endOp p op))
       ∧ (o.act = .copy wr → r.2 = false → (r.1.core p).traces 4 = false → o.post = some b → r.1.tok p b < 255 →
         exec (.copyComplete core op) s
           = .next (((r.1.endOp p op).setTok p b (r.1.tok p b + 1)).tallyAdd p tlTOKPOSTS 1))
       ∧ (o.act = .add 0 → o.post = none → exec (.copyComplete core op) s = .next (s.endOp p op))
       ∧ (o.act = .descriptor n words → o.post = none →
         exec (.copyComplete core op) s
           = .next ((s.modDie n (fun d => { d with upd := { d.upd with
               queue := d.upd.queue ++ [{ words := words, part := (s.partOfPhys p).getD 16, core := some p }],
               committed := d.upd.committed - 1 } })).endOp p op)))

/-- R256, R258: a NOTIFY on a queue pair of the partition that is ACTIVE and cached starts one operation and queues
its frame; WRITE and WRITE_NOTIFY do so with the frames of the piece, against the core's toll balance; a READ awaits
the bytes of the piece. REMOTE_COMPLETE ends an operation whose last frame is acknowledged (R260). Records of kind
PORTER are off. -/
def Obligations.RemoteComplete : Prop :=
  ∀ (s v : State) (i : Issue) (p core op : Nat) (loc : BitVec 14) (qp : BitVec 20) (rkey : Word) (roff : BitVec 44)
    (kind : BitVec 2) (w : Waybill) (o : PorterOp) (q : Nat),
    let c := s.core p
    let part := s.partNo i.core
    let x := qp.toNat
    let u := s.counted p
    let frame := fun (cls : Nat) => { u.mkFrame x cls with rkey := rkey, roff := roff.setWidth 48 }
    (c.fence = none → s.checkQp part x = .ok →
      (s.Issues i.core (.remote i loc qp rkey roff 3) p (c.pc + 1) →
        exec (.remote i loc qp rkey roff 3) s = .next (u.sendOp p x (.remote x 3 1) i.stm [] 0 0 [frame 5]))
      ∧ (s.Issues i.core (.remote i loc qp rkey roff 2) p (c.pc + 1) → u.readWb p part i.stm loc true = (u, some w) →
         w.bytes ≠ 0 → w.bytes < 2 ^ 32 →
        exec (.remote i loc qp rkey roff 2) s
          = .next (((u.modQp x (fun y => { y with
              reads := y.reads ++ [{ core := p, op := c.nextOp, addrs := w.rows, got := 0, need := w.bytes }] })).tallyTier
                p (wrTally (tierOf w.base)) w.bytes).sendOp p x (.remote x 2 1) i.stm [] w.bytes w.tag
                [{ frame 3 with oplen := w32 w.bytes }]))
      ∧ (kind.toNat ≤ 1 → s.Issues i.core (.remote i loc qp rkey roff kind) p (c.pc + 1) →
         u.readWb p part i.stm loc false = (u, some w) → w.bytes ≠ 0 → w.bytes < 2 ^ 32 →
        u.coreRead p part w.rows i.stm [w.tag] = (u, true) →
        (u.tallyTier p (rdTally (tierOf w.base)) w.bytes).debit p [(tollKey 3 x, units w.bytes)] = some v →
        let fs := dataFrames { frame (kind.toNat + 1) with oplen := w32 w.bytes } (v.qp x).mtuBytes (u.pieceBytes p w)
        exec (.remote i loc qp rkey roff kind) s
          = .next (v.sendOp p x (.remote x kind.toNat fs.length) i.stm w.rows w.bytes w.tag fs)))
    ∧ (s.clockedPhys core = some p → c.op op = some o → o.act = .remote q kind.toNat 0 → o.status = 0 →
      c.traces 4 = false →
      exec (.remoteComplete core op) s = .next (s.setCore p { c with ops := c.ops.filter (fun o => o.id != op) }))

/-- R284, R285: a CONVOY on a pinned, ACTIVE, cached queue pair whose piece, scale word, tag, contributors and guard
are as R284 asks is sent; it does not issue yet while a write of the core into its source in the core's own stall is
outstanding (the model's choice: log entry 79). CONVOY_COMPLETE, once its last frame is acknowledged, ends the
operation and sets the last tag and status, OVF_SATURATED where an element was clamped (R286). Records of kind
PORTER are off. -/
def Obligations.ConvoyComplete : Prop :=
  ∀ (s : State) (i : Issue) (p core op : Nat) (src : BitVec 14) (tag : BitVec 16) (qp : BitVec 20)
    (contrib : BitVec 24) (guard : BitVec 7) (w : Waybill) (e : Nat) (o : PorterOp) (q : Nat) (clamped : Bool),
    let c := s.core p
    let part := s.partNo i.core
    let x := qp.toNat
    let u := s.counted p
    (s.Issues i.core (.convoy i src tag qp contrib guard) p (c.pc + 1) → c.fence = none → s.checkQp part x = .ok →
      (s.qp x).pinned = true →
      u.readWb p part i.stm src false = (u, some w) → u.readScale p part i.stm w = (u, some e) →
      u.convoyOk part w tag contrib guard e = true →
      exec (.convoy i src tag qp contrib guard) s
        = .next (if s.stallWriting p w.rows then s else u.convoyGo p part x i.stm w tag contrib guard e))
    ∧ (s.clockedPhys core = some p → c.op op = some o → o.act = .convoy q tag clamped 0 → o.status = 0 →
      c.traces 4 = false →
      exec (.convoyComplete core op) s
        = .next (s.setCore p { c with
            ops := c.ops.filter (fun o => o.id != op), cvLastTag := tag,
            cvLastStatus := if clamped then st8 scOvf else 0 }))

/-- R285: an element above 2^(71 − G) − 1 in magnitude is sent as that bound with its sign, and any other as it is;
so what is sent is never above the bound, and only a clamped element is marked. -/
def Obligations.ConvoyClamp : Prop :=
  ∀ (g : Nat) (v : BitVec 72), g ≤ 70 →
    let b : Int := 2 ^ (71 - g) - 1
    let r := clampT72 g v
    (-b ≤ v.toInt ∧ v.toInt ≤ b → r = (v, false))
    ∧ (b < v.toInt → r.1.toInt = b ∧ r.2 = true) ∧ (v.toInt < -b → r.1.toInt = -b ∧ r.2 = true)
    ∧ -b ≤ r.1.toInt ∧ r.1.toInt ≤ b

/-! Arithmetic. -/

/-- R58, R61, R70, R74: an ARRAY whose operands are read and checked, in the state `v` after those reads, sets Z on
its tile's entries unless ACC is set, adds every chunk value to its entry, and goes on, where no entry's range is
left and no check fails; an IMAGE_ADD (R77) adds the images of its piece likewise. R99, R100: an ARRAYI does so for
its DX tile on rows 0 to 31 and its DW tile on rows 32 to 63, their chunks in turn. Records of kind 2 are off.
Memory and the rest of the module are as the reads left them. -/
def Obligations.ArrayComplete : Prop :=
  (∀ (s v : State) (i : Issue) (p : Nat) (a b : BitVec 14) (pmode : BitVec 3) (acc : Bool) (lrow m1 n1 : BitVec 6)
      (o : Operand × Operand) (w : Waybill),
      let q := s.partNo i.core
      let u := s.counted p
      let t : Tile := { pmode := pmode.toNat, lrow := lrow.toNat, m := m1.toNat + 1, n := n1.toNat + 1, acc := acc }
      let r0 := fun (x : State) => if acc then (x.core p).ledgRun else (x.core p).ledgRun.fresh t.lrow t.m t.n
      let r := (r0 v).addOrder (chunkJobs t o)
      let ims := (chunksOf 96 (u.pieceBytes p w) (t.m * t.n)).map parseImage
      let ri := ((tileIdx t.lrow t.m t.n).zip ims).foldl (fun x e => x.addImage e.1 e.2) (r0 u)
      s.Issues i.core (.array i a b pmode acc lrow m1 n1) p ((s.core p).pc + 1) → (s.core p).traces 2 = false →
      (pmode.toNat < 3 → u.tileOperands p q i.stm t a b = (v, some o) → (v.core p).lreg.injChunk = false →
        (v.core p).traces 2 = false → (v.core p).pc + 1 < (v.core p).insns.length → r.stop = none →
        ∃ z, exec (.array i a b pmode acc lrow m1 n1) s = .next z ∧ (z.core p).ledger = r.tab
          ∧ (z.core p).pc = (v.core p).pc + 1 ∧ (z.core p).st = (v.core p).st ∧ (z.core p).stall = (v.core p).stall
          ∧ (∀ k, k ≠ p → z.core k = v.core k) ∧ z = { v with cores := z.cores, log := z.log })
      ∧ (pmode = 3 → b = 0 → u.readWb p q i.stm a false = (u, some w) → imageShape w t.m t.n = true → t.lrow + t.m ≤ 64 →
        u.coreRead p q w.rows i.stm [w.tag] = (u, true) → ri.stop = none →
        ∃ z, exec (.array i a b pmode acc lrow m1 n1) s = .next z ∧ (z.core p).ledger = ri.tab
          ∧ (z.core p).pc = (s.core p).pc + 1 ∧ (z.core p).st = (s.core p).st ∧ (z.core p).stall = (s.core p).stall
          ∧ (∀ k, k ≠ p → z.core k = s.core k) ∧ z = { s with cores := z.cores, log := z.log }))
  ∧ (∀ (s v v2 : State) (i : Issue) (p : Nat) (dxA dxB dwA dwB : BitVec 14) (dxAcc dwAcc : Bool) (dxM1 dwM1 : BitVec 5)
      (dxN1 dwN1 : BitVec 6) (ox ow : Operand × Operand),
      let q := s.partNo i.core
      let tx : Tile := { pmode := 1, lrow := 0, m := dxM1.toNat + 1, n := dxN1.toNat + 1, acc := dxAcc }
      let tw : Tile := { pmode := 2, lrow := 32, m := dwM1.toNat + 1, n := dwN1.toNat + 1, acc := dwAcc }
      let rx := if dxAcc then (v2.core p).ledgRun else (v2.core p).ledgRun.fresh 0 tx.m tx.n
      let rw := if dwAcc then rx else rx.fresh 32 tw.m tw.n
      let r := rw.addOrder (alternate (chunkJobs tx ox) (chunkJobs tw ow))
      s.Issues i.core (.arrayi i dxA dxB dwA dwB dxAcc dwAcc dxM1 dwM1 dxN1 dwN1) p ((s.core p).pc + 1) →
      (s.counted p).tileOperands p q i.stm tx dxA dxB = (v, some ox) →
      v.tileOperands p q i.stm tw dwA dwB = (v2, some ow) →
      (v2.core p).lreg.injChunk = false → (v2.core p).traces 2 = false →
      (v2.core p).pc + 1 < (v2.core p).insns.length → r.stop = none →
      ∃ z, exec (.arrayi i dxA dxB dwA dwB dxAcc dwAcc dxM1 dwM1 dxN1 dwN1) s = .next z ∧ (z.core p).ledger = r.tab
        ∧ (z.core p).pc = (v2.core p).pc + 1 ∧ (z.core p).st = (v2.core p).st ∧ (z.core p).stall = (v2.core p).stall
        ∧ (∀ k, k ≠ p → z.core k = v2.core k) ∧ z = { v2 with cores := z.cores, log := z.log })

/-- R31: every format of Table 2.2 has both zeros, and a conversion whose exact result is zero, in any rounding mode
and at any valid scale, returns the zero of its source's sign. -/
def Obligations.ZerosKeepTheirSign : Prop :=
  ∀ (fmt : Nat) (flush : Byte) (r : RMode) (scale : Nat) (neg : Bool) (e : Int), fmt < 8 → scaleOk false scale = true →
    let l := layoutOf fmt
    let z := fun (b : Bool) => if b then l.signBit else 0
    (convertTo fmt flush r (scaleDy scale) (.fin neg 0 e)).pat = z neg
    ∧ (convertTo fmt flush r (scaleDy scale) (.fin neg 0 e)).flushed = false
    ∧ ∀ b, ∃ k, l.value (z b) = .fin b 0 k

/-- R71, R72, R73: where an add to an entry with its Z clear succeeds, the entry's exact value, its limbs with their
pending carries, grows by exactly C × 2^(q + 384), in whichever order the windows and carries are handled; and a
resolution leaves the value and takes every carry into the limbs. -/
def Obligations.LedgerAddExact : Prop :=
  ∀ (e r : LedgerEntry) (v : ChunkVal), e.z = false → e.pend.length ≤ 10 → -384 ≤ v.q → windowHi v.q ≤ 10 →
    -(2 ^ 72) < v.c → v.c < 2 ^ 72 →
    ((e.addChunk v).1 = .ok r → r.value = e.value + v.c * 2 ^ (v.q + 384).toNat ∧ r.z = false)
    ∧ (e.resolve = .ok r → r.value = e.value ∧ r.l.toInt = e.value ∧ r.pend = [])

/-- R74, R78, R82, R37: a DRAW of one row into a tensor whose waybills and scales are read, whose toll is paid and
whose store succeeds resolves the row's entries, sets their Z unless KEEP is set, converts each entry's value times
both scales into the destination's format, and stores the row; with WM it stores the elements the mask selects.
Tally 28 counts a stochastic conversion. A draw of several rows does this row by row. R76, R77: with IMAGE it writes
the 96-byte image of each resolved entry of the row. The busy bits of ARR_STAT stand only while it runs (log entry
58). Records of kind 3 are off. -/
def Obligations.DrawComplete : Prop :=
  (∀ (s v z : State) (i : Issue) (p : Nat) (lrow m1 n1 : BitVec 6) (dst sa sb : BitVec 14) (rmode : BitVec 3)
      (srbits : BitVec 2) (keep : Bool) (wm : BitVec 4) (w wa wb : Waybill) (da db dd : Dy),
      let q := s.partNo i.core
      let c := s.core p
      let u := s.counted p
      let rnd : Rounding := { rmode := rmode.toNat, srb := srbits.toNat, conv := c.conv }
      let j : DrawJob :=
        { lrow := lrow.toNat, m := m1.toNat + 1, n := n1.toNat + 1, keep := keep, dst := w, rnd := rnd,
          mask := c.maskOf wm.toNat, sa := da, sb := db, sd := dd }
      let d := v.arrBusy p false true
      let rr := (d.core p).ledgRun.readRow j.lrow 0 j.n keep
      let x := (d.talliesAdd p ((tlDRAW, j.n) :: (if rnd.isSr then [(tlSR, j.n)] else []))).setLedger p rr.1
      let outs := rr.2.zipIdx.map (fun e => j.convert (d.core p).conv.flush 0 e.2 e.1)
      let y := (x.drawFlags p j 0 outs).storeRow p q j 0 outs
      s.Issues i.core (.draw i lrow m1 n1 dst rmode srbits keep wm false sa sb) p (c.pc + 1) → c.fence = none →
        j.lrow + j.m ≤ 64 → wm.toNat ≤ 8 →
      rmodeOk rmode.toNat srbits.toNat = true →
      u.readWb p q i.stm dst true = (u, some w) → u.readWb p q i.stm sa false = (u, some wa) →
      u.readWb p q i.stm sb false = (u, some wb) → w.ext 2 = j.n → w.ext 0 * w.ext 1 = j.m →
      u.scaleOf p q i.stm wa = (u, some da) → u.scaleOf p q i.stm wb = (u, some db) →
      u.scaleOf p q i.stm w = (u, some dd) → u.debitStore p w.rows = some v → (v.core p).traces 3 = false →
      (d.drawRows p q i.stm j = (z, true) → (z.core p).pc + 1 < (z.core p).insns.length →
        exec (.draw i lrow m1 n1 dst rmode srbits keep wm false sa sb) s
          = .next ((z.modCore p (fun c => { c with pc := c.pc + 1 })).arrBusy p false false))
      ∧ (m1 = 0 → (v.core p).lreg.injDraw = false → rr.1.stop = none → y.2 = false →
        (y.1.core p).pc + 1 < (y.1.core p).insns.length →
        exec (.draw i lrow m1 n1 dst rmode srbits keep wm false sa sb) s
          = .next ((y.1.modCore p (fun c => { c with pc := c.pc + 1 })).arrBusy p false false)))
  ∧ (∀ (s v y : State) (i : Issue) (p : Nat) (lrow n1 : BitVec 6) (dst : BitVec 14) (keep : Bool) (w : Waybill),
      let q := s.partNo i.core
      let c := s.core p
      let u := s.counted p
      let n := n1.toNat + 1
      let d := v.arrBusy p false true
      let rr := (d.core p).ledgRun.readRow lrow.toNat 0 n keep
      let x := (d.talliesAdd p [(tlDRAW, n), (tlIMG, n)]).setLedger p rr.1
      s.Issues i.core (.draw i lrow 0 n1 dst 0 0 keep 0 true 0 0) p (c.pc + 1) → c.fence = none → lrow.toNat + 1 ≤ 64 →
      u.readWb p q i.stm dst true = (u, some w) → imageShape w 1 n = true → u.debitStore p w.rows = some v →
      (v.core p).traces 3 = false → (v.core p).lreg.injDraw = false → rr.1.stop = none →
      x.coreWrite p q [(w.base, rr.2.flatMap LedgerEntry.image)] i.stm [w.tag] = (y, true) →
      (y.core p).pc + 1 < (y.core p).insns.length →
      exec (.draw i lrow 0 n1 dst 0 0 keep 0 true 0 0) s
        = .next ((y.modCore p (fun c => { c with pc := c.pc + 1 })).arrBusy p false false))

/-- R38 to R48: a CONV whose waybills describe pieces of one shape, whose scales and piece are read and whose toll
is paid converts every element and stores the results, updates both tensor records, from zero with CLRREC, and goes
on. R142, Table 5.6: a VEC whose operands have the shapes its operation asks for and are read, in the state `v`
after those reads, computes the operation on them, stores Z, and W of VONLINE, and goes on. -/
def Obligations.ConvVecComplete : Prop :=
  (∀ (s v y : State) (i : Issue) (p : Nat) (src dst : BitVec 14) (rmode : BitVec 3) (srbits : BitVec 2) (clr : Bool)
     (a b : Waybill) (ss sd : Dy) (els : List Nat),
     let q := s.partNo i.core
     let u := s.counted p
     let rnd : Rounding := { rmode := rmode.toNat, srb := srbits.toNat, conv := (s.core p).conv }
     let flush := (v.core p).conv.flush
     let outs := convAll a b flush rnd ss sd els
     let fl := els.any (fun e => (sourceElem a.fmt flush e).2)
     let v0 := if clr then
         v.modCore p (fun c => (c.modRec a.trec (fun _ => {})).modRec b.trec (fun _ => {}))
       else v
     let v1 := v0.modCore p (fun c =>
       (c.modRec a.trec (fun r => r.readFrom fl)).modRec b.trec (fun r => r.writtenAll outs))
     s.Issues i.core (.conv i src dst rmode srbits clr) p ((s.core p).pc + 1) → (s.core p).fence = none →
       rmodeOk rmode.toNat srbits.toNat = true →
     u.readWb p q i.stm src false = (u, some a) → u.readWb p q i.stm dst true = (u, some b) → a.piece = b.piece →
     u.scaleOf p q i.stm a = (u, some ss) → u.scaleOf p q i.stm b = (u, some sd) →
     u.readPiece p q i.stm a = (u, some els) → u.debitStore p b.rows = some v →
     (v1.talliesAdd p ((tlCONV, outs.length) :: (if rnd.isSr then [(tlSR, outs.length)] else []))).coreWrite p q
       (b.storeAll (outs.map (fun o => o.2.pat))) i.stm [b.tag] = (y, true) →
     (y.core p).pc + 1 < (y.core p).insns.length →
     exec (.conv i src dst rmode srbits clr) s = .next (y.modCore p (fun c => { c with pc := c.pc + 1 })))
  ∧ (∀ (s v1 v2 v v3 y : State) (i : Issue) (p : Nat) (vop : Byte) (rx ry rz rw : BitVec 14) (yrow : Bool) (imm : Word)
       (xw yw zw ww : Waybill) (xs ys ws : List Nat),
       let q := s.partNo i.core
       let u := s.counted p
       let k := vecKind vop.toNat
       let rows := xw.ext 0 * xw.ext 1
       let out := vecResults vop.toNat imm.toNat rows (xw.ext 2) (ww.ext 2) xs
         (if k.y then (if yrow then spread (xw.ext 2) ys else ys) else List.replicate xs.length 0)
         (if k.w then ws else List.replicate (rows * ww.ext 2) 0)
       s.Issues i.core (.vec i vop rx ry rz rw yrow imm) p ((s.core p).pc + 1) → (s.core p).fence = none → k.ok = true →
       u.readWb p q i.stm rx false = (u, some xw) → u.readWbIf p q i.stm k.y ry false xw = (u, some yw) →
       u.readWb p q i.stm rz true = (u, some zw) → u.readWbIf p q i.stm (k.w || k.wOut) rw k.wOut xw = (u, some ww) →
       vecShape vop.toNat yrow xw yw zw ww = true →
       u.readVec p q i.stm k.t43 xw = (v1, some xs) → v1.readVecIf p q i.stm k.t43 k.y yw = (v2, some ys) →
       v2.readVecIf p q i.stm k.t43 k.w ww = (v, some ws) →
       v.debitStore p (if k.wOut then zw.rows ++ ww.rows else zw.rows) = some v3 →
       (v3.tallyAdd p tlVEC (out.1.length + out.2.length)).coreWrite p q
         (zw.storeAll out.1 ++ (if k.wOut then ww.storeAll out.2 else [])) i.stm [zw.tag] = (y, true) →
       (y.core p).pc + 1 < (y.core p).insns.length →
       exec (.vec i vop rx ry rz rw yrow imm) s = .next (y.modCore p (fun c => { c with pc := c.pc + 1 })))

/-! Observation. -/

/-- R439, R440, R442: TALLY writes a sample of the tallies of MASK to the start of a buffer that has room, which
ends the marks and the gap that the sample reported. TRACE puts a MARK record into the core's buffer where it has
room. -/
def Obligations.TallyTraceComplete : Prop :=
  ∀ (s v y : State) (i : Issue) (p : Nat) (mask : Word) (dst : BitVec 14) (b : Buf) (mark : BitVec 16)
    (payload : Word),
    let q := s.partNo i.core
    let u := s.counted p
    let c := u.core p
    let r := u.bufRange p b
    let n := 64 + 16 * (selected mask).length
    let x := v.modCore p (fun c => { c with
      gapTally := c.gapTally.taken, stretchTally := v.afterSample p c.stretchTally mask })
    (s.Issues i.core (.tally i mask dst) p ((s.core p).pc + 1) → (s.core p).fence = none →
      u.bufRef p q i.stm dst = some b → n ≤ r.2 → u.debitStore p [(r.1, n)] = some v →
      x.coreWrite p q [(r.1, v.tallyRecord p i.core mask)] i.stm = (y, true) →
      (y.core p).pc + 1 < (y.core p).insns.length →
      exec (.tally i mask dst) s = .next (y.modCore p (fun c => { c with pc := c.pc + 1 })))
    ∧ (s.Issues i.core (.trace i mark payload) p ((s.core p).pc + 1) → c.trcEn = false →
      exec (.trace i mark payload) s = .next (s.setCore p ((s.core p).issuedTo ((s.core p).pc + 1))))
    ∧ (s.Issues i.core (.trace i mark payload) p ((s.core p).pc + 1) → c.trcEn = true → c.trcDropped = 0 →
      traceFill (c.trace ++ [u.traceRec p 0 mark c.pc i.stm (payload.setWidth 64) 0]) ≤ 2048 →
      exec (.trace i mark payload) s
        = .next (s.setCore p { c with
            pc := (s.core p).pc + 1, gapTrace := c.gapTrace.taken,
            trace := c.trace ++ [u.traceRec p 0 mark c.pc i.stm (payload.setWidth 64) 0] }))

/-- R439, R441, Tables 15.8 and 15.9: TALLY_SNAP copies a core's tallies with the die's time, the mark and the gap,
which then end; TOTAL_SNAP copies the module totals; TALLY_TOTAL_UPDATE adds to every total what each core's tally
has grown by since the last time, and changes nothing else but the logbook's. R442, R443: TRACE_TALLY_PERIOD puts
one record for each tally of TRC_TMASK into the core's buffer, where it has room. TRACE_DRAIN moves a core's oldest
record to its partition's destination: to the module's own memory at its die's segment, or as frames of the
partition's queue pair; the segment's write offset goes on. -/
def Obligations.SamplesAndTraceComplete : Prop :=
  (∀ (s : State) (fn n k i : Nat),
     let p := 22 * n + k
     let c := s.core p
     let g := c.gapSnap.mark.getD (0, 0)
     (n < 12 → k < 22 → s.sees fn (.core n k) = true →
       exec (.tallySnap fn n k) s = .next (s.setCore p { c with
         snap := { seq := c.tallySeq, time := s.dieNow n, gapStart := g.1, gapNs := g.2, vals := c.tally,
                   mark := s.sampleMark p c.stretchSnap 0xFFFFFFFF c.gapSnap.mark.isSome },
         gapSnap := c.gapSnap.taken, stretchSnap := s.afterSample p c.stretchSnap 0xFFFFFFFF }))
     ∧ (s.sees fn .pf = true →
       exec (.totalSnap fn) s = .next { s with totSnap := s.totals, totTime := s.now })
     ∧ ((s.cores.map Prod.fst).Nodup → tabRising 0 s.totals = true → i < 32 →
       ∃ t, exec .tallyTotalUpdate s = .next t
         ∧ tabGet 0 t.totals i = (s.cores.map Prod.fst).foldl
             (fun a p => a + (tabGet 0 (s.core p).tally i - tabGet 0 (s.core p).tallyAdded i)) (tabGet 0 s.totals i)
         ∧ (∀ p, (t.core p).tally = (s.core p).tally)
         ∧ (∀ p, p ∈ s.cores.map Prod.fst → (t.core p).tallyAdded = (s.core p).tally)
         ∧ t = { s with totals := t.totals, cores := t.cores, log := t.log, gapSerai := t.gapSerai }))
  ∧ (∀ (s : State) (n k q i : Nat) (r : TraceRec) (rest : List TraceRec) (segs : List (Nat × Nat)),
       let p := 22 * n + k
       let c := s.core p
       let m := s.sampleMark p c.stretchTrace c.trcTmask false
       let v := tabGet 0 c.tally i
       let r6 := s.traceRec p 6 0 c.pc 0 (v.setWidth 64) (w64 (v.toNat / 2 ^ 64 + 65536 * i + 2 ^ 24 * c.tallySeq.toNat))
       let t := (s.part q).trp
       let s1 := s.setCore p { c with trace := rest }
       let pieces := sliceAt segs r.bytes
       let at_ := pieces.map (fun e => (t.base.toNat + e.1, e.2))
       let step := fun (x : Part) => { x with trp := x.trp.step n r.bytes.length }
       s.clocked = true → n < 12 → k < 22 →
       (c.traces 6 = true → selected c.trcTmask = [i] → c.trcDropped = 0 → traceFill (c.trace ++ [r6]) ≤ 2048 →
         exec (.traceTallyPeriod n k) s = .next (s.setCore p { c with
           trace := c.trace ++ [{ r6 with tmark := m ||| (if r6.gap.isSome then 2 else 0) }],
           gapTrace := c.gapTrace.taken, stretchTrace := s.afterSample p c.stretchTrace c.trcTmask }))
       ∧ (s.partOfPhys p = some q → c.trace = r :: rest → t.en = true → t.seg ≠ 0 → t.place n r.bytes.length = some segs →
         (t.remote = false → (∀ e ∈ at_, s.admitted q false true e.1 e.2.length = true) →
           exec (.traceDrain n k 1) s = .next ((s1.stores p (some q) at_).1.modPart q step))
         ∧ (t.remote = true → s.traceQpOk q = true →
           exec (.traceDrain n k 1) s = .next ((s1.traceSend q n pieces).modPart q step))))

/-! The logbook. -/

/-- R450, R451: a write of the cursor copies up to four entries of the function's ring, from the cursor on, into its
window; the low half of one is only held. A read of the window's last word returns it, and with AUTO moves the
cursor on by VALID. LOG_ARCHIVE_PROGRAM programs the three oldest staged entries as the newest unit; the units of
the sector that its write point enters are gone (log entry 88). -/
def Obligations.LogbookComplete : Prop :=
  ∀ (s : State) (fn : Nat) (v : DWord) (high : Bool),
    let x := (s.fn fn).view
    let ring := s.viewRing fn
    (s.sees fn .logbook = true →
      exec (.logCursorWrite fn true high v) s = .next (s.modView fn (fun y => y.copy s.log ring v.toNat))
      ∧ exec (.logCursorWrite fn false false v) s
          = .next (s.modView fn (fun y => { y with heldLow := some (v.setWidth 32) }))
      ∧ exec (.logCursorWrite fn false true v) s
          = .next (s.modView fn (fun y => y.copy s.log ring
              ((v.setWidth 32).toNat * 2 ^ 32 + (x.heldLow.getD (x.cursor.setWidth 32)).toNat)))
      ∧ (x.auto = false → exec (.logAutoAdvance fn) s = .next (s.readBack fn (x.lastWord.setWidth 64)))
      ∧ (x.auto = true →
        exec (.logAutoAdvance fn) s = .next ((s.readBack fn (x.lastWord.setWidth 64)).modView fn
          (fun y => y.copy s.log ring (x.cursor.toNat + x.valid.toNat)))))
    ∧ (3 ≤ s.log.staging.length →
      exec .logArchiveProgram s = .next { s with log := { s.log with
        staging := s.log.staging.drop 3, archSeq := s.log.archSeq + 3, archPos := s.log.archPos + 1,
        units := (s.log.archSeq, s.log.staging.take 3)
          :: s.log.units.take (archiveUnits - sectorUnits + s.log.archPos % sectorUnits) } })

/-! Host commands. -/

/-- R148, R151, R152, R412: a host command at the front of its queue that its partition's state allows is taken. NOP
completes with OK; PAUSE is kept until the next milestone release; START makes every used core issue from its first
instruction, with START as the replay point; RESUME makes the partition RUNNING, withdraws its hold and completes;
STOP begins a context switch, which completes it at its end. Malformed descriptors that then stand at the front are
rejected. -/
def Obligations.ControlCommandsComplete : Prop :=
  ∀ (s : State) (h : CmdHdr) (image : BitVec 48) (resume : Bool) (die : BitVec 4) (buf n : BitVec 8) (l p : Nat)
    (e : Nat × DepotBuf),
    let q := h.part
    let t := s.takeDesc h.fn h.q
    let done := fun (x : State) => (.next (x.settleQueue h.fn h.q) : Host.Outcome State Fault Refusal)
    let ref := CmdHdr.ref h
    let img := (t.unclean q).load image.toNat q resume
    (s.Accepts h 0x00 0 0 → exec (.cmdNop h) s = done (t.complete (ref 0) scOk 0 0))
    ∧ (s.Accepts h 0x01 (2 * b2n resume) image.toNat → img.2 = scOk →
      exec (.loadItinerary h image resume) s = done (img.1.complete (ref 1) scOk (t.imgFamily image.toNat) 0))
    ∧ (s.Accepts h 0x02 0 0 →
      exec (.start h) s = done (t.startPart q (ref 2))
      ∧ ((t.startPart q (ref 2)).part q).st = .running ∧ ((t.startPart q (ref 2)).part q).start = some (ref 2)
      ∧ ((t.startPart q (ref 2)).part q).rpStart = true
      ∧ (l ∈ (t.part q).usedCores → t.physOf l = some p →
        ((t.startPart q (ref 2)).core p).st = .running ∧ ((t.startPart q (ref 2)).core p).pc = 0))
    ∧ (s.Accepts h 0x03 0 0 →
      exec (.pause h) s = done (t.modPart q (fun x => { x with pause := some (ref 3) })))
    ∧ (s.Accepts h 0x04 0 0 →
      exec (.resume h) s
        = done (((((t.setPartSt q .running 0 0).runLoaded q).msHold q false).wakeHeld q).complete (ref 4) scOk 0 0))
    ∧ (s.Accepts h 0x05 0 0 → exec (.stop h) s = done (t.beginSwitch q (.stop (ref 5))))
    ∧ (s.Accepts h 0x06 0 (die.toNat + 256 * buf.toNat + 65536 * n.toNat) →
      (t.die die.toNat).dbufs.find? (fun e => e.1 == buf.toNat && e.2.owner == q) = some e →
      t.tok 0 (.depot die.toNat buf.toNat) + n.toNat ≤ 255 →
      exec (.postToken h die buf n) s
        = done ((t.setTok 0 (.depot die.toNat buf.toNat) (t.tok 0 (.depot die.toNat buf.toNat) + n.toNat)).complete
            (ref 6) scOk 0 0))

/-- R149: a host command at the front of its queue, from a function that may command the partition, that its
partition's state does not allow, has no side effect: it completes with STATE_ILLEGAL, one entry of code 0x0110
carries its code, its queue and the partition's state, and the queue goes on unless HALT_ON_REJECT is set. So does a
POST_TOKEN to no buffer of the partition, a REGISTER_REGION of an entry that is not INVALID and a REVOKE_REGION of
one that is not VALID. Malformed descriptors that then stand at the front are rejected too. -/
def Obligations.RejectedCommandsOnlyComplete : Prop :=
  ∀ (s : State) (h : CmdHdr) (image base size : BitVec 48) (re : Bool) (die : BitVec 4) (buf n : BitVec 8)
    (rkey : Word) (rights : BitVec 3) (slot : BitVec 6) (blob : KeyBlob),
    let taken := fun (code flags args : Nat) =>
      s.takes h (descOf h code flags args) = true ∧ s.mod.recovery = false ∧ s.unbound h.fn = false
        ∧ s.exists_ h.part = true ∧ (h.fn = 0 ∨ (s.fn h.fn).part.toNat = h.part)
    let legal := fun (code flags : Nat) => (s.part h.part).legal code (bitAt flags 1)
    let t := s.takeDesc h.fn h.q
    let u := fun (code : Nat) => (t.logAt .serai 0x0110 scIllegal (if h.part < 16 then some h.part else none)
        [w32 code, w32 h.q, w32 (s.part h.part).st.code] [(s.part h.part).statWord, (s.part h.part).rpWord]).complete
          (CmdHdr.ref h code) scIllegal 0 0
    let v := fun (code : Nat) =>
      if (s.queue h.fn h.q).haltOnReject then
        ((u code).modQueue h.fn h.q (fun y => { y with halted := true })).msix0 h.fn
      else u code
    let done := fun (code : Nat) =>
      (.next ((v code).settleQueue h.fn h.q) : Host.Outcome State Fault Refusal)
    let token := die.toNat + 256 * buf.toNat + 65536 * n.toNat
    let reg := rkey.toNat + 2 ^ 64 * base.toNat + 2 ^ 128 * size.toNat + 2 ^ 192 * rights.toNat + 2 ^ 200 * slot.toNat
    let i := rkey.toNat % 4096
    (taken 0x01 (2 * b2n re) image.toNat → legal 0x01 (2 * b2n re) = false →
      exec (.loadItinerary h image re) s = done 0x01)
    ∧ (taken 0x02 0 0 → legal 0x02 0 = false → exec (.start h) s = done 0x02)
    ∧ (taken 0x03 0 0 → legal 0x03 0 = false → exec (.pause h) s = done 0x03)
    ∧ (taken 0x04 0 0 → legal 0x04 0 = false → exec (.resume h) s = done 0x04)
    ∧ (taken 0x05 0 0 → legal 0x05 0 = false → exec (.stop h) s = done 0x05)
    ∧ (taken 0x06 0 token →
      legal 0x06 0 = false ∨ (t.die die.toNat).dbufs.find? (fun e => e.1 == buf.toNat && e.2.owner == h.part) = none →
      exec (.postToken h die buf n) s = done 0x06)
    ∧ (taken 0x09 0 reg → legal 0x09 0 = false ∨ (t.regionOwned h.part i = true ∧ (t.region i).st ≠ .invalid) →
      exec (.registerRegion h rkey base size rights slot) s = done 0x09)
    ∧ (taken 0x0A 0 rkey.toNat → t.regionOwned h.part i = true → (t.region i).st ≠ .valid →
      exec (.revokeRegion h rkey) s = done 0x0A)
    ∧ (taken 0x0B 0 (2 ^ 64 * (blob.len % 2 ^ 32)) → legal 0x0B 0 = false → exec (.installKey h blob) s = done 0x0B)
    ∧ (taken 0x0C 0 0 → legal 0x0C 0 = false → exec (.scrub h) s = done 0x0C)
    ∧ ∀ code, (v code).mem = s.mem ∧ (v code).cores = s.cores ∧ (v code).parts = s.parts ∧ (v code).regions = s.regions
      ∧ (v code).cusParts = s.cusParts ∧ (v code).mod = s.mod

/-- R152, R151: CONTEXT_SWITCH_DONE of a switch that STOP began, once the recall has ended: the partition's cores
are idle, with instructions, stalls, registers, ledgers, tolls and tallies cleared; its depot buffers are gone; the
partition is IDLE with no image, no snapshots and no recovery, no START and no PAUSE left, and its milestone block
is at its initial values in the next context; the STOP completes with OK. No other partition changes, and no byte of
HBM or the cistern. R157, R156, R160: RECOVERY_RECALL_DONE, once the cores' local operations are done, quarantines
the cores that the recovery lists. Where it lists none: tokens, MISSING marks and tolls of the partition's cores are
zero and Z is set on their ledgers; every core of a snapshot issues again with the snapshot's pc, loops and
registers; and the partition pauses with reason 1 where a used core has no healthy physical core, is RUNNING where
START is the replay point, and else stays RECOVERING until the replay point's release. -/
def Obligations.SwitchesComplete : Prop :=
  ∀ (s : State) (q : Nat) (c : CmdRef) (r : Recovery),
    let old := s.part q
    s.clocked = true →
    (q < 16 → s.recalled q = true → old.switching = some (.stop c) → s.mod.taking.contains q = false →
      ∃ t, exec (.contextSwitchDone q) s = .next t
        ∧ t = (s.finishSwitch q).complete c scOk 0 0
        ∧ (t.part q).st = .idle ∧ (t.part q).reason = 0 ∧ (t.part q).status = 0 ∧ (t.part q).switching = none
        ∧ (t.part q).recovery = none ∧ (t.part q).start = none ∧ (t.part q).pause = none
        ∧ (t.part q).ncore = [] ∧ (t.part q).family = 0 ∧ (t.part q).imageDigest = 0
        ∧ (t.part q).snapshots = [] ∧ (t.part q).pendSnaps = [] ∧ (t.part q).rpStart = true
        ∧ (t.part q).jobPair = none ∧ (t.part q).ms = { ctx := old.ms.ctx + 1 }
        ∧ (∀ p ∈ s.physOfPart q, (t.core p).st = .idle ∧ (t.core p).insns = [] ∧ (t.core p).stall = []
            ∧ (t.core p).sbufs = [] ∧ (t.core p).xreg = [] ∧ (t.core p).loops = [] ∧ (t.core p).tolls = []
            ∧ (t.core p).ops = [] ∧ (t.core p).ledger = [] ∧ (t.core p).tally = [])
        ∧ (∀ n, n < 12 → ∀ e ∈ (t.die n).dbufs, e.2.owner ≠ q)
        ∧ (∀ k, k ≠ q → t.part k = s.part k) ∧ t.mem = s.mem)
    ∧ (old.recovery = some r → r.recalled = false → s.localsDone q = true →
      ∃ t, exec (.recoveryRecallDone q) s = .next t
        ∧ (∀ p ∈ r.quarantine, (t.die (p / 22)).quar.getLsbD (p % 22) = true)
        ∧ (r.quarantine = [] →
          (∀ p ∈ s.physOfPart q, (t.core p).tolls = []
            ∧ (∀ e ∈ (t.core p).sbufs, e.2.tok = 0 ∧ e.2.missing = false) ∧ ∀ e ∈ (t.core p).ledger, e.2.z = true)
          ∧ (∀ (l p : Nat) (n : Snapshot), (l, n) ∈ old.snapshots → s.physOf l = some p →
            (∀ e ∈ old.snapshots, s.physOf e.1 = some p → e = (l, n)) →
            (t.core p).st = .running ∧ (t.core p).wait = .none ∧ (t.core p).pc = n.pc ∧ (t.core p).loops = n.loops
            ∧ (t.core p).xreg = n.xreg ∧ (t.core p).streams = n.streams ∧ (t.core p).conv = n.conv
            ∧ (t.core p).recs = n.recs ∧ (t.core p).wmask = n.wmask)
          ∧ (s.sparesExhausted q = true → (t.part q).st = .paused ∧ (t.part q).reason = 1)
          ∧ (s.sparesExhausted q = false → old.rpStart = true →
            (t.part q).st = .running ∧ (t.part q).recovery = none ∧ (t.ms q).replayReq = false)
          ∧ (s.sparesExhausted q = false → old.rpStart = false →
            (t.part q).st = old.st ∧ (t.part q).recovery = some { r with recalled := true })))

/-- R198, R207, R386, R388, R395, R412: COPY_IN of an admitted range takes CLEAN from the partition, writes the
host's bytes, and with PROTECT the plaintext of its chunks, each once its tag has verified under the slot's key;
where every byte was written it completes with OK and the bytes moved. COPY_OUT puts a range's bytes into host
memory, and with PROTECT seals them under the slot's key and the slot's next stream number, which it returns;
INSTALL_KEY that passes the checks of Table 13.10 puts every entry into its slot, with PROTECTED where the blob's
flag asks for it, and code 0x0207; SCRUB begins, and at SCRUB_DONE its ranges are scrubbed, the cistern keys are
new, CLEAN is set, code 0x020B is written and it completes. Malformed descriptors that then stand at the front are
rejected. -/
def Obligations.DataCommandsComplete : Prop :=
  ∀ (s u : State) (h : CmdHdr) (host : DWord) (dev : BitVec 48) (len stream : Word) (slot : BitVec 6)
    (data : List Byte) (chunks : List Chunk) (blob : KeyBlob) (es : List KeyEntry) (c : CmdRef) (part : Nat),
    let q := h.part
    let n := len.toNat
    let t := s.takeDesc h.fn h.q
    let done := fun (x : State) => (.next (x.settleQueue h.fn h.q) : Host.Outcome State Fault Refusal)
    let ref := CmdHdr.ref h
    let segs := State.lines dev.toNat n
    let bs := t.bytesAt 0 dev.toNat n
    let k := t.keySlot slot.toNat
    let v := t.setKeySlot slot.toNat { k with stream := k.stream + 1 }
    (s.Accepts h 0x07 0 (copyArgs host dev len slot stream.toNat) → data.length = n → (t.cus q).protected_ = false →
      t.admitted q false true dev.toNat n = true → t.copyLost (ref 7) = false →
      (t.unclean q).copyWrite dev.toNat data = (u, { moved := n }) →
      exec (.copyIn h host dev len false slot stream data chunks) s
        = done ((u.dropLost (ref 7)).complete (ref 7) scOk (w64 n) 0))
    ∧ (s.Accepts h 0x07 1 (copyArgs host dev len slot stream.toNat) → chunksFit n chunks = true →
      t.slotIn q slot.toNat = true → t.admitted q false true dev.toNat n = true →
      (t.unclean q).copyChunks (ref 7) (t.keySlot slot.toNat).keyA stream.toNat dev.toNat 0 chunks {}
          = (u, { moved := n }, true) →
      exec (.copyIn h host dev len true slot stream data chunks) s
        = done ((u.dropLost (ref 7)).complete (ref 7) scOk (w64 n) 0))
    ∧ (s.Accepts h 0x08 0 (copyArgs host dev len slot 0) → (t.cus q).protected_ = false →
      t.admitted q false false dev.toNat n = true → t.copyLost (ref 8) = false → t.uncorrIn 0 segs = false →
      (∀ r ∈ segs, t.lineFailed r = false) →
      exec (.copyOut h host dev len false slot) s
        = done (((t.touchRead 0 segs).hostWrite host.toNat bs).complete (ref 8) scOk (w64 n) 0))
    ∧ (s.Accepts h 0x08 1 (copyArgs host dev len slot 0) → (t.slotsOf q).contains slot.toNat = true →
      k.kind = .host → k.stream ≤ 0xFFFFFFFF → t.admitted q false false dev.toNat n = true →
      v.copyLost (ref 8) = false → v.uncorrIn 0 segs = false → (∀ r ∈ segs, v.lineFailed r = false) →
      exec (.copyOut h host dev len true slot) s
        = done (((v.touchRead 0 segs).hostWrite host.toNat (sealAll k.keyA k.stream (chunkCount n) bs 0)).complete (ref 8)
            scOk (w64 n) (w64 k.stream)))
    ∧ (s.Accepts h 0x0B 0 (2 ^ 64 * (blob.len % 2 ^ 32)) → t.blobCheck q blob = .ok es →
      let put := eachDo es (fun e x => x.setKeySlot e.slot
        { kind := kindOf e.kind, part := BitVec.ofNat 4 q, keyA := e.keyA, keyB := e.keyB }) t
      let held := if blob.flags.getLsbD 0 then put.modCus q (fun x => { x with protected_ := true }) else put
      exec (.installKey h blob) s
        = done ((held.logCus 0x0207 scOk (some q) []).complete (ref 0x0B) scOk 0 0))
    ∧ (s.Accepts h 0x0C 0 0 →
      exec (.scrub h) s = done ((t.modCus q (fun x => { x with scrub := some (ref 0x0C) })).refreshScrubbing))
    ∧ (s.clocked = true → part < 16 → (s.cus part).scrub = some c →
      let x := eachDo (s.scrubRanges part) (fun r t => t.scrubRange r.1 r.2) s
      let y := (x.freshCisKeys part).modCus part (fun x => { x with scrub := none, clean := true })
      exec (.scrubDone part) s
        = .next ((y.refreshScrubbing.logCus 0x020B scOk (some part) []).complete c scOk 0 0))

/-- R270, R271, R273, R274: REGISTER_REGION of an entry of the partition that is INVALID, with a tag, an aligned
range inside one window, rights and a LINK slot, makes it VALID and completes with code 0x2107; REVOKE_REGION of a
VALID one whose tag is named makes it DRAINING; at REGION_DRAINED, once nothing of it is in flight, it is INVALID
and the revoke completes, with code 0x2108. -/
def Obligations.RegionsComplete : Prop :=
  ∀ (s : State) (h : CmdHdr) (rkey : Word) (base size : BitVec 48) (rights : BitVec 3) (slot : BitVec 6) (i : Nat)
    (c : CmdRef),
    let q := h.part
    let t := s.takeDesc h.fn h.q
    let done := fun (x : State) => (.next (x.settleQueue h.fn h.q) : Host.Outcome State Fault Refusal)
    let k := rkey.toNat % 4096
    let x := s.region i
    let s1 := s.modRegion i (fun r => { r with st := .invalid, revoke := none })
    (s.Accepts h 0x09 0 (rkey.toNat + 2 ^ 64 * base.toNat + 2 ^ 128 * size.toNat + 2 ^ 192 * rights.toNat
        + 2 ^ 200 * slot.toNat) →
      t.regionOwned q k = true → (t.region k).st = .invalid → rkey.toNat / 4096 ≠ 0 → base.toNat % 4096 = 0 →
      size.toNat % 4096 = 0 → size ≠ 0 → rights ≠ 0 → t.linkSlot q slot.toNat = true →
      t.oneWindow q base.toNat size.toNat = true →
      exec (.registerRegion h rkey base size rights slot) s
        = done (((t.modRegion k (fun _ =>
            { st := .valid, tag := (rkey >>> 12).setWidth 20, part := BitVec.ofNat 4 q, base := base.toNat,
              size := size.toNat, rights := rights, keyslot := slot })).complete (CmdHdr.ref h 9) scOk 0 0).logRegion q 0x2107
            rkey))
    ∧ (s.Accepts h 0x0A 0 rkey.toNat → t.regionOwned q k = true → (t.region k).st = .valid →
      (t.region k).tag.toNat = rkey.toNat / 4096 →
      exec (.revokeRegion h rkey) s
        = done ((t.modRegion k (fun r => { r with st := .draining, revoke := some (CmdHdr.ref h 0x0A) })).skipResponses
            k))
    ∧ (s.clocked = true → x.st = .draining → x.inflight = 0 → x.revoke = some c →
      exec (.regionDrained i) s
        = .next ((s1.complete c scOk 0 0).logRegion x.part.toNat 0x2108 (w32 (x.tag.toNat * 4096 + i))))
    ∧ (s.clocked = true → x.st = .draining → x.inflight = 0 → x.revoke = none →
      exec (.regionDrained i) s = .next (s1.logRegion x.part.toNat 0x2108 (w32 (x.tag.toNat * 4096 + i))))

/-! Manifests. -/

/-- R420, R422: APPLY_MANIFEST from the PF, with no manifest staged, whose checks pass, is staged with code 0x0120,
and its completion gives its epoch and T_ACT; one with T_ACT other than 0 stays staged, one with T_ACT 0 is
activated at once. R424: MANIFEST_ACTIVATION of a staged manifest, in READY or RUN, first adopts it: it is in force,
none is staged, the pair is its digest and epoch, MAN_HIGH rises to its epoch and a reassignment begins, in the same
module state. Then code 0x0122 is logged and READY becomes RUN, the job pair of every existing partition is settled,
and each affected partition joins those that the reassignment takes and is taken at once, unless its job's switch
release has still to come; with none to take the reassignment ends at once. R422: MANIFEST_CANCEL up to 1 ms before
T_ACT discards the staged manifest, with code 0x0125. R424: MANIFEST_SWITCH_TIMEOUT of a partition that has not been
switched begins its context switch for the manifest, and it is listed as stopped. R394: REASSIGNMENT_SCRUB_DONE,
with every partition taken held, ends the reassignment: none is taken or stopped any more, each one taken has the
configuration that the manifest in force gives it, and its switch is over. -/
def Obligations.ManifestsComplete : Prop :=
  ∀ (s : State) (h : CmdHdr) (len : Nat) (obj : ManifestObj) (m : Manifest) (fn q : Nat),
    let t := s.takeDesc h.fn h.q
    let s1 := { t with mod := { t.mod with staged := some m, affected := t.affectedBy m } }
    let s2 := (s1.logSerai 0x0120 scOk none []).complete (CmdHdr.ref h 0x0D) scOk (m.epoch.setWidth 64) m.tAct
    (s.takes h (descOf h 0x0D 0 (2 ^ 64 * len)) = true → s.mod.recovery = false → s.unbound h.fn = false → h.fn = 0 →
      s.mod.staged = none → t.checkManifest len obj = .accepted m →
      (m.tAct ≠ 0 → exec (.applyManifest h len obj) s = .next (s2.settleQueue h.fn h.q) ∧ s2.mod.staged = some m)
      ∧ (m.tAct = 0 → exec (.applyManifest h len obj) s = .next ((s2.activate m).settleQueue h.fn h.q)))
    ∧ (s.mod.state = .ready ∨ s.mod.state = .run → s.mod.staged = some m →
      let a := s.adopt m
      let b := a.logSerai 0x0122 scOk none []
      let c := if s.mod.state = .ready then b.setMod .run else b
      let d := eachDo (List.range 16) (fun q t => if (t.part q).cfg.isSome then t.jobAtTact m s.pair q else t) c
      let e := { d with mod := { d.mod with
        taking := d.mod.taking ++ s.mod.affected.filter (fun q => !d.mod.taking.contains q) } }
      let f := (eachDo s.mod.affected (fun q t => t.affectedAtTact q) e).refreshScrubbing
      exec .manifestActivation s
        = .next (if f.mod.taking.isEmpty then f.endReassign m else f.applyLimit false)
      ∧ a.mod.inForce = some m ∧ a.mod.staged = none ∧ a.pair = (m.digest, m.epoch) ∧ a.mod.reassigning = true
      ∧ a.mod.manHigh.toNat = max s.mod.manHigh.toNat m.epoch.toNat ∧ a.mod.state = s.mod.state
      ∧ (s.mod.state = .ready → c.mod.state = .run))
    ∧ (s.sees fn .module = true → s.mod.staged = some m → s.now.toNat + 1000000 ≤ m.tAct.toNat →
      exec (.manifestCancel fn) s
        = .next (({ s with mod := { s.mod with staged := none, affected := [] } }).logSerai 0x0125 scOk none []))
    ∧ (s.clocked = true → q < 16 → s.mod.reassigning = true → s.mod.taking.contains q = true →
      (s.part q).switching = none → (s.part q).st ≠ .idle →
      ∃ u, exec (.manifestSwitchTimeout q) s = .next u
        ∧ u = ({ s with mod := { s.mod with stopped := q :: s.mod.stopped } }).beginSwitch q .manifest
        ∧ (u.part q).switching = some .manifest ∧ (u.part q).recovery = none)
    ∧ (s.clocked = true → s.mod.reassigning = true → s.allHeld = true → s.mod.inForce = some m →
      ∃ u, exec .reassignmentScrubDone s = .next u ∧ u = s.endReassign m
        ∧ u.mod.reassigning = false ∧ u.mod.taking = [] ∧ u.mod.stopped = []
        ∧ ∀ r ∈ s.mod.taking, (u.part r).cfg = m.part r ∧ (u.part r).switching = none)

/-! Placements and queue pairs. -/

/-- R199, R200, Table 7.3: PLACE of a range that passes the checks enters the placement, completes with OK and takes
CLEAN from the partition; REMOVE of a placement marks it as being removed, with BUSY, and completes at
PLACEMENT_REMOVE_DONE, once no access is in progress there: the range is scrubbed, the placement gone, the status OK
and code 0x0141 logged; READ_BACK shows the placement of the index, with the status OK. -/
def Obligations.PlacementsComplete : Prop :=
  ∀ (s : State) (fn q i : Nat) (e : Placement),
    let m := (s.part q).mem
    let size := 4096 * m.plcSize.toNat
    (s.sees fn (.part q) = true → m.plcBusy = false →
      (s.placeCheck q m.plcIdx.toNat m.plcBase.toNat size m.plcClass.toNat = scOk →
        exec (.placementPlace fn q) s
          = .next (((s.placeResult q scOk).modPartMem q (fun x => { x with
              placements := tabSet x.placements m.plcIdx.toNat
                { base := m.plcBase.toNat, size := size, cls := m.plcClass } })).unclean q))
      ∧ (m.placements.any (fun e => e.1 == m.plcIdx.toNat) = true →
        exec (.placementRemove fn q) s
          = .next (s.modPartMem q (fun x => { x with removing := some m.plcIdx.toNat, plcBusy := true })))
      ∧ (m.placements.find? (fun e => e.1 == m.plcIdx.toNat) = some (i, e) →
        exec (.placementReadBack fn q) s
          = .next ((s.modPartMem q (fun x => { x with
              plcBase := BitVec.ofNat 44 e.base, plcSize := w32 (e.size / 4096), plcClass := e.cls,
              plcValid := true })).placeResult q scOk)))
    ∧ (s.clocked = true → m.removing = some i → m.placements.find? (fun e => e.1 == i) = some (i, e) →
      s.rangeBusy e.base e.size = false →
      exec (.placementRemoveDone q) s
        = .next ((((s.scrubRange e.base e.size).modPartMem q (fun x => { x with
            placements := tabErase x.placements i, removing := none })).placeResult q scOk).logPlace q 0x0141 scOk))

/-- R253, Table 9.2: an operation through a partition's page on a queue pair of its range, homed at that lantern, in
a state the operation allows and not being fetched, has its effect and completes with OK: CREATE makes the context
that staging describes, ACTIVE, with the pool's TXSEQ; DESTROY frees it; PIN pins a cached one within the quota;
UNPIN unpins it; RESET starts it again from sequence number 0; READ_BACK copies it to staging. -/
def Obligations.QueuePairsComplete : Prop :=
  ∀ (s : State) (fn m p : Nat),
    let q := (s.page m p).idx.toNat
    let x := s.qp q
    let new := (s.page m p).create p (s.poolTxseq p q) s.now
    s.sees fn (.part p) = true → s.clocked = true → m < 6 → p < 16 → (s.page m p).busy = false →
    s.ownsQp p q = true → homeOf q = m → (s.porter m).fetching.contains q = false →
    (x.st = .free → s.createCheck m p q = scOk →
      exec (.qpCreate fn m p) s = .next (((s.setQp q new).writeContext q).pageEnd m p q scOk)
      ∧ new.st = .active ∧ new.spsn = 0 ∧ new.epsn = 0 ∧ new.txseq = s.poolTxseq p q ∧ new.cached = false)
    ∧ (x.st ≠ .free →
      (∃ t, exec (.qpDestroy fn m p) s = .next t ∧ t = (s.qpDestroy q).pageEnd m p q scOk ∧ (t.qp q).st = .free
        ∧ (t.qp q).pinned = false ∧ (t.qp q).cached = false)
      ∧ (x.cached = true → s.pinnedOn m p < s.pinMax m p →
        exec (.qpPin fn m p) s = .next ((s.modQp q (fun y => { y with pinned := true })).pageEnd m p q scOk))
      ∧ (x.pinned = true →
        exec (.qpUnpin fn m p) s = .next ((s.modQp q (fun y => { y with pinned := false })).pageEnd m p q scOk)))
    ∧ (x.st = .error →
      exec (.qpReset fn m p) s = .next (((s.modQp q Qp.resetOp).putContext q).pageEnd m p q scOk)
      ∧ x.resetOp.st = .active ∧ x.resetOp.spsn = 0 ∧ x.resetOp.epsn = 0 ∧ x.resetOp.txseq = x.txseq)
    ∧ exec (.qpReadBack fn m p) s = .next ((s.modPage m p (fun y => y.readBack x)).pageEnd m p q scOk)

/-! Customs. -/

/-- R376, R378, R383, R387, R309, R315: ANCHOR_ENROL whose object passes enrols its key's hash; ANCHOR_RELEASE that
passes removes the anchor, advances the sequence number and returns MAN_HIGH to zero, each with status OK and code
0x0204; SVN_ADVANCE raises the fused SVN to the running image's and never lowers it; KEYGEN makes a new record of
the partition's number, context and pair, whose random bytes and private halves are free values; KEY_SLOT_EMPTY
empties a slot that nothing names, with code 0x0208; CV_SWITCH arms and disarms an epoch switch. -/
def Obligations.CustomsComplete : Prop :=
  ∀ (s : State) (fn p : Nat) (o : AnchorObj) (slot : BitVec 6),
    let c := s.customs
    let a := trailerKey o.trailer
    (s.sees fn .customs = true → s.mod.recovery = false →
      (s.enrolStatus o = scOk →
        exec (.anchorEnrol fn o) s
          = .next ((({ s with customs := { c with anchor := some a, anchorFlash := some (a,
            anchorMac a) } }).cusStatus scOk).logCus 0x0204 scOk
              none []))
      ∧ (s.releaseStatus o = scOk →
        exec (.anchorRelease fn o) s
          = .next ((({ s with
              customs := { c with anchor := none, anchorFlash := none, anchorSeq := c.anchorSeq + 1 },
              mod := { s.mod with manHigh := 0 } }).cusStatus scOk).logCus 0x0204 scOk none []))
      ∧ (c.fuseSvn ≤ 64 →
        ∃ t, exec (.svnAdvance fn) s = .next t
          ∧ t.customs.fuseSvn = max c.fuseSvn (min c.fwSvn.toNat 64) ∧ c.fuseSvn ≤ t.customs.fuseSvn
          ∧ t.customs.fuseSvn ≤ 64
          ∧ t = { s with customs := t.customs, log := t.log, gapSerai := t.gapSerai }))
    ∧ (s.sees fn (.part p) = true → p < 16 →
      (s.exists_ p = true →
        ∃ r : KeyRecord, exec (.keygen fn p) s
            = .next ((({ s with free := s.free + 14 }).modCus p (fun x => { x with record := some r })).cuspStatus p scOk)
          ∧ r.part.toNat = p ∧ r.ctx = (s.part p).ms.ctx ∧ r.epoch = s.pair.2 ∧ r.digest = s.pair.1
          ∧ r.random = BitVec.ofNat 128 (s.random 2).2)
      ∧ ((s.slotsOf p).contains slot.toNat = true → s.slotRef slot.toNat = false →
        (s.keySlot slot.toNat).kind ≠ .empty →
        exec (.keySlotEmpty fn p slot) s = .next (((s.setKeySlot slot.toNat {}).logCus 0x0208 scOk (some p)
          [w32 slot.toNat]).cuspStatus p scOk))
      ∧ (s.armOk p = true →
        exec (.cvSwitchArm fn p) s = .next (s.modConvoy p (fun x => { x with armed := true, sentUp := false })))
      ∧ ((s.convoy p).held = false →
        exec (.cvSwitchDisarm fn p) s = .next (s.modConvoy p (fun x => { x with armed := false }))))

/-! The module's life. -/

/-- R431, R361, Table 14.11: SHUTDOWN and REBOOT from READY or RUN enter QUIESCE with code 0x0101: a staged manifest
is cancelled, commands in flight are abandoned, every partition is stopped and a commit of the lifetime ledger
begins; after it the module goes to STANDBY, or boots. REBOOT from FAULT boots at once: BOOT, step 1, no manifest,
core, partition or link; TIME_NOW, the fuses and the anchor in flash stay. QUIESCE_DONE, once partitions are
stopped, the ledger is committed and the logbook flushed, goes to STANDBY after a SHUTDOWN: the main rails are off,
no core, partition, link or ring is left, and TIME_NOW, PWR_BUDGET, the logbook's archive and the fuses stay; after
a REBOOT it boots. A failing firmware watchdog sends a running module to FAULT with cause 4 and FAULT# low. -/
def Obligations.LifecycleComplete : Prop :=
  ∀ (s : State) (src : Source),
    (s.mayWrite src .module = true →
      let entered := fun (after : AfterQuiesce) =>
        ({ s with mod := { s.mod with after := after } }.setMod .quiesce).cancelStaged.abandonCommands
      let quiet := fun (after : AfterQuiesce) =>
        (eachDo (List.range 16) (fun q t => t.stopPart q .quiesce) (entered after)).lifeBegin
      (s.mod.state = .ready ∨ s.mod.state = .run →
        exec (.shutdown src) s = .next (quiet .shutdown) ∧ exec (.reboot src) s = .next (quiet .reboot)
        ∧ ∀ after, (entered after).mod.state = .quiesce ∧ (entered after).mod.after = after
          ∧ (entered after).mod.staged = none)
      ∧ (s.mod.state = .fault →
        ∃ t, exec (.reboot src) s = .next t ∧ t.mod.state = .boot ∧ t.mod.bootStep = 1 ∧ t.now = s.now
          ∧ t.mod.inForce = none ∧ t.mod.recovery = false ∧ t.cores = [] ∧ t.parts = [] ∧ t.links = []
          ∧ t.customs.fuseSvn = s.customs.fuseSvn ∧ t.customs.anchorFlash = s.customs.anchorFlash
            ∧ t.pending = s.pending))
    ∧ (s.mod.state = .quiesce → s.quiesced = true →
      (s.mod.after = .shutdown →
        ∃ t, exec .quiesceDone s = .next t ∧ t.mod.state = .standby ∧ t.now = s.now ∧ t.cores = [] ∧ t.parts = []
          ∧ t.links = [] ∧ t.phys.mainRails = false ∧ t.pwr.budget = s.pwr.budget ∧ t.log.units = s.log.units
          ∧ t.log.rings = [] ∧ t.customs.fuseSvn = s.customs.fuseSvn ∧ t.pending = s.pending)
      ∧ (s.mod.after = .reboot → exec .quiesceDone s = .next (s.boot false) ∧ (s.boot false).mod.state = .boot))
    ∧ (s.clocked = true →
      ∃ t, exec .firmwareWatchdog s = .next t ∧ t.mod.state = .fault ∧ t.mod.fault = 4 ∧ t.phys.faultN = true
        ∧ t = { s with mod := t.mod, phys := t.phys, log := t.log, gapSerai := t.gapSerai })

/-- R361, R363, R427: FIRMWARE_UPDATE of an image that passes every check begins, and its end sets the status and
code 0x0104 and leaves the image in flash, valid exactly where it read back. A commit of the lifetime ledger begins
on the command or the timer when none runs; one that reads back is the newest record, in the slot of its number; one
that does not leaves that slot not valid and is tried once more, and then sets WRITE_FAIL. SERVICE_DUE sets DUE_NOW
with code 0x4009. -/
def Obligations.LedgerAndFirmwareComplete : Prop :=
  ∀ (s : State) (fn k : Nat) (image : FwImage) (ok : Bool) (r : LifeRec) (retry : Bool),
    let at_ := 64 * (r.seq.toNat % 2) + (r.seq.toNat / 2 + b2n retry) % 64
    let m := s.mod
    let v := tabGet ({} : Svc) s.life.cur.svc k
    (s.sees fn .module = true → m.fwuBusy = false → s.imageCheck image = scOk →
      exec (.firmwareUpdate fn image) s
        = .next { s with mod := { m with fwuBusy := true, fwuProgress := 0, fwuImage := some image } })
    ∧ (s.seraiOn = true →
      (m.fwuBusy = true →
        ∃ t, exec (.firmwareUpdateDone ok) s = .next t ∧ t.mod.fwuBusy = false ∧ t.mod.flashValid = ok
          ∧ t.mod.fwuProgress = 100 ∧ t.mod.fwuStatus = (if ok then st8 scOk else st8 scUncorr)
          ∧ t.mod.flash = m.fwuImage.getD m.flash
          ∧ t = { s with mod := t.mod, log := t.log, gapSerai := t.gapSerai })
      ∧ exec .lifetimeCommitTimer s = .next s.lifeBegin
      ∧ (s.life.committing = some (r, retry) →
        (s.life.again = false →
          exec (.lifetimeCommitDone true) s = .next { s with life := { s.life with
            committing := none, committed := r, bank := r.seq.toNat % 2 == 1,
            slots := tabSet s.life.slots at_ (.valid r) } })
        ∧ (retry = false →
          ∃ t, exec (.lifetimeCommitDone false) s = .next t ∧ t.life.committing = some (r, true)
            ∧ (∃ q, tabGet (.torn none) t.life.slots at_ = .torn q) ∧ t.mem = s.mem)
        ∧ (retry = true → s.life.again = false →
          ∃ t, exec (.lifetimeCommitDone false) s = .next t ∧ t.life.committing = none ∧ t.life.writeFail = true
            ∧ t.life.committed = s.life.committed))
      ∧ (k < 16 → v.valid = true → v.dueNow = false → v.due.toNat * 3600 ≤ s.life.cur.powerOnS.toNat →
        exec (.serviceDue k) s
          = .next ((s.modLife (fun x => { x with svc := tabSet x.svc k { v with dueNow := true } })).logPower 24 0x4009
              scOk [w32 k])))
    ∧ (s.sees fn .pf = true → exec (.lifetimeCommitCmd fn) s = .next s.lifeBegin)
    ∧ (s.life.committing = none → ∃ t, s.lifeBegin.life.committing = some (t, false))

/-! Injections, tests and errors. -/

/-- R92, R156, R206, R219, R220, R281: the PF's injections arm: the next chunk comparison or drawdown row of a core,
the next word of a stack or channel, the next frame of a lantern; CIS_INJECT with KIND 3 fails a channel that has
not failed, whose READY bit goes; QUAR_INJECT gives a core that is not quarantined a fault of its own with code
0x1002, which Serai takes at once. -/
def Obligations.InjectionsComplete : Prop :=
  ∀ (s : State) (n k : Nat) (target kind : BitVec 2) (dbl : Bool) (chan : BitVec 4) (phys : BitVec 5) (fn : Nat),
    (s.sees 0 (.core n k) = true → n < 12 → k < 22 →
      exec (.resInject 0 n k target) s
        = .next (s.modCore (22 * n + k) (fun c => { c with lreg := { c.lreg with
            injChunk := c.lreg.injChunk || decide (target = 1), injDraw := c.lreg.injDraw || decide (target = 2) } })))
    ∧ (s.sees 0 (.die n) = true → n < 12 → phys.toNat < 22 → s.clocked = true →
      s.quarantined (22 * n + phys.toNat) = false →
      let t := s.coreFaultSeen (22 * n + phys.toNat) scUncorr 0x1002 true 0
      exec (.quarInject 0 n phys) s = .next (t.takeFault (22 * n + phys.toNat))
      ∧ (t.core (22 * n + phys.toNat)).faultPending = true ∧ (t.core (22 * n + phys.toNat)).faultOwn = true
      ∧ (t.core (22 * n + phys.toNat)).faultCode = 0x1002)
    ∧ (s.sees fn .pf = true →
      (n < 12 → kind = 1 ∨ kind = 2 →
        exec (.hbmInject fn n kind) s = .next (s.modDie n (fun d => { d with hbm := { d.hbm with inject := kind } })))
      ∧ (n < 6 →
        exec (.cisInjectError fn n dbl chan) s
          = .next (s.modCis n (fun x => { x with inject := tabSet x.inject chan.toNat (if dbl then 2 else 1) }))
        ∧ (bitAt (s.cis n).failed.toNat chan.toNat = false →
          ∃ t, exec (.cisInjectFail fn n chan) s = .next t ∧ t = s.failChannel n chan.toNat
            ∧ bitAt (t.cis n).failed.toNat chan.toNat = true ∧ bitAt (t.cis n).ready.toNat chan.toNat = false)
        ∧ exec (.porterInjectAuth fn n) s = .next (s.modPorter n (fun p => { p with injAuth := true }))
        ∧ exec (.porterInjectDrop fn n) s = .next (s.modPorter n (fun p => { p with injDrop := true }))))

/-- R452 to R456: a core's test, for which its clock runs, counts its cycles in tally 31, with a trace record; one
that passes sets the time of the core's last pass; one that fails is counted, and it, a lockstep mismatch and a
stopped core clock are core faults of status UNCORRECTABLE that Serai takes at once, with code 0x1042, 0x1043 or
0x1045. An engine's test that passes sets its time, and one that fails fences the engine, with code 0x1106 or
0x1202, the time of its last pass and the replay point. A stopped clock of a die writes code 0x4010, and where no
partition is there nothing more; where one core of a partition runs there it faults. -/
def Obligations.DetectionComplete : Prop :=
  ∀ (s : State) (n k cycles d : Nat) (house : Bool),
    let p := 22 * n + k
    let tested := fun (x : State) (fails : Bool) =>
      (x.tallyAdd p tlTEST cycles).traceAt p 9 0 0 (w64 (b2n fails)) (w64 cycles)
    let stopped := s.logAt (.die d) 0x4010 scUncorr none [] []
    let qs := (List.range 16).filter (fun q => s.partOnDie q d)
    s.clocked = true →
    (n < 12 → k < 22 → s.testable p = true →
      (∃ t, exec (.periodicCoreTest n k true cycles) s = .next t
        ∧ t = s.withClock p (fun x => (tested x false).modCore p (fun c => { c with lastTest := x.dieNow n }))
        ∧ (t.core p).lastTest = s.dieNow n)
      ∧ exec (.periodicCoreTest n k false cycles) s
          = .next (s.withClock p (fun x =>
              ((tested x true).modDie n (fun d => { d with safeFails := satAdd d.safeFails 1 })).checkFailed p 0x1042
                ((tested x true).testArgs p))))
    ∧ (n < 12 → k < 22 → s.quarantined p = false →
      exec (.lockstepMismatch n k) s = .next (s.checkFailed p 0x1043 [])
      ∧ exec (.clockMonitorFault (.coreArith n k)) s = .next (s.checkFailed p 0x1045 []))
    ∧ (n < 12 → house = true ∨ s.pllOn n = true →
      exec (.periodicEngineTest n house true) s
        = .next (s.modDie n (fun d =>
            if house then { d with lastChTest := s.dieNow n } else { d with lastUpdTest := s.dieNow n }))
      ∧ exec (.periodicEngineTest n house false) s
        = .next ((s.modDie n (fun d => { d with
            safeFails := satAdd d.safeFails 1, chFenced := d.chFenced || house,
            upd := { d.upd with fenced := d.upd.fenced || !house } })).logEngine n house (if house then 0x1202 else 0x1106)
            scUncorr (w64words (if house then (s.die n).lastChTest else (s.die n).lastUpdTest)
              ++ w64words (s.engineReplay n))))
    ∧ (d < 24 → qs = [] → exec (.clockMonitorFault (.die d)) s = .next stopped)
    ∧ (d < 24 → qs.flatMap s.physOfPart = [k] →
      (s.core k).st = .running ∨ (s.core k).st = .done →
      exec (.clockMonitorFault (.die d)) s
        = .next (stopped.coreFaultSeen k scUncorr 0x4010 false (stopped.core k).waitStm))

/-- R206, R209, R211, R214, R215: a read that times out fails its channel or stack, unless it has failed; a
corrected word that waits is written back and its mark ends; a patrol read of a word without an error only moves the
patrol's place on, and the last of a pass writes its code. R18, R19, R222: on a spur between Serai and another die,
an error of one bit is counted in CWY_CORR; the first three failures of a flit are counted in CWY_UNCORR and
CWY_RETRY, with CWY_LAST; the fourth sends the module to FAULT with cause 2. R20, R222: on a mesh port that the
transfer crosses, an error of one bit is counted in CWY_CORR; a flit lost is counted in CWY_UNCORR with CWY_LAST and
code 0x0161, and its transfer is lost: the host's copy then fails, trace records are counted as lost, and a link
frame or a scrub's write has no further effect here. -/
def Obligations.MemoryEventsComplete : Prop :=
  ∀ (s : State) (m n word rx tx port fails : Nat) (chan : BitVec 4) (passEnd : Bool) (x : Transfer),
    let corrected : State := { s with cwy := { s.cwy with corr := tabMod 0 s.cwy.corr rx (satAdd · 1) } }
    let bad := fun (port : Nat) (spur : Bool) =>
      { s.cwy with uncorr := tabMod 0 s.cwy.uncorr rx (satAdd · 1), lastDie := BitVec.ofNat 5 rx,
                   lastPort := BitVec.ofNat 3 port, lastSpurRetry := spur }
    let lost := ({ s with cwy := bad port false }).logAt (.die rx) 0x0161 scUncorr none []
      [(bad port false).lastWord, tabGet 0 (bad port false).uncorr rx]
    s.clocked = true →
    (m < 6 → bitAt (s.cis m).failed.toNat chan.toNat = false →
      ∃ t, exec (.cisternReadTimeout m chan) s = .next t ∧ t = s.failChannel m chan.toNat
        ∧ bitAt (t.cis m).failed.toNat chan.toNat = true ∧ bitAt (t.cis m).ready.toNat chan.toNat = false)
    ∧ (n < 12 → (s.die n).hbm.failed = false →
       ∃ t, exec (.hbmReadTimeout n) s = .next t ∧ t = s.failStack n ∧ (t.die n).hbm.failed = true
        ∧ (t.die n).hbm.ready = false)
    ∧ (s.mem.cisWb.contains word = true →
      exec (.correctedWriteback true word) s = .next { s with mem := { s.mem with
        cisErr := tabPut 0 s.mem.cisErr word 0, cisWb := s.mem.cisWb.filter (· != word) } })
    ∧ (s.mem.hbmWb.contains word = true →
      exec (.correctedWriteback false word) s = .next { s with mem := { s.mem with
        hbmErr := tabPut 0 s.mem.hbmErr word 0, hbmWb := s.mem.hbmWb.filter (· != word) } })
    ∧ (n < 12 → (s.die n).hbm.patrolEn = true → (s.die n).hbm.failed = false → word < stackWords →
      tabGet 0 s.mem.hbmErr (n * 2 ^ 34 + word) = 0 →
      let s1 := s.modDie n (fun d => { d with hbm := { d.hbm with
        patrolPos := if passEnd then 0 else BitVec.ofNat 16 (word * 65536 / stackWords), patrolActive := true } })
      exec (.patrolRead false n word passEnd) s = .next (if passEnd then s1.logHbm n 0x3005 scOk none [] else s1))
    ∧ (m < 6 → (s.cis m).patrolEn = true → word < cisDieWords → tabGet 0 s.mem.cisErr (m * cisDieWords + word) = 0 →
      let s1 := s.modCis m (fun x => { x with
        patrolPos := if passEnd then 0 else BitVec.ofNat 16 (word * 65536 / cisDieWords) })
      exec (.patrolRead true m word passEnd) s = .next (if passEnd then s1.logCis m 0x3105 scOk none [] else s1))
    ∧ (spurEdge rx tx = true →
      exec (.spurFlitError rx tx 0) s = .next corrected
      ∧ (1 ≤ fails → fails ≤ 3 →
        exec (.spurFlitError rx tx fails) s
          = .next { s with cwy := { bad 4 true with retry := tabMod 0 s.cwy.retry tx (satAdd · 1) } })
      ∧ ∃ t, exec (.spurFlitError rx tx 4) s = .next t ∧ t.mod.state = .fault ∧ t.mod.fault = 2)
    ∧ ((meshPeer rx port).isSome = true → s.crosses x rx port = true →
      (x = .corrected → exec (.meshFlitLoss rx port x) s = .next corrected)
      ∧ (x ≠ .corrected → exec (.meshFlitLoss rx port x) s = .next (lost.transferLoss x))
      ∧ (∀ h, x = .hostCopy h →
        lost.transferLoss x = { lost with lostCopies := lost.lostCopies ++ [(h.fn, h.q, h.cid)] })
      ∧ (∀ a b r, x = .traceData a b r →
        (lost.transferLoss x).core (22 * a + b)
          = { lost.core (22 * a + b) with trcLost := satAdd (lost.core (22 * a + b)).trcLost r })
      ∧ (x = .linkFrame ∨ x = .scrubWrites → lost.transferLoss x = lost))

/-! Update engines and counting houses. -/

/-- R117 to R126, R129, R302: word 15 of UPD_SUBMIT from the PF queues a descriptor while there is room; HALT and,
while the engine is empty, its micro-program are written; the engine takes its oldest descriptor and reads its
parameter block once its fields and windows pass; its completion runs the recipe on every element in order and
finishes with status OK, and one taken with status ILLEGAL finishes so without running an element; each leaves the
engine free with UPD_DONE_SEQ at the descriptor's SEQ. The engine takes and completes while its clock runs (R333). A
counting house applies the add at the head of its queue and gives its slot back. -/
def Obligations.UpdatesComplete : Prop :=
  ∀ (s v : State) (fn n idx : Nat) (w word15 : Word) (halt : Bool) (d : UpdDesc) (rest : List UpdDesc) (a : Add)
    (queue : List Add) (bad : Bool),
    let u := (s.die n).upd
    let ws := (List.range 15).map (tabGet 0 u.submit) ++ [word15]
    let r := UpdRun.all s n d (s.usesV d)
    n < 12 →
    (s.sees 0 (.die n) = true → u.queue.length + u.committed < 32 → s.ownsDie u.submitPart.toNat n = true →
      exec (.updSubmit 0 n word15) s
        = .next (s.modUpd n (fun u => { u with
            submit := tabSet u.submit 15 word15,
            queue := u.queue ++ [{ words := ws, part := u.submitPart.toNat, core := none }] })))
    ∧ (s.sees fn (.die n) = true → s.ownsWholeDie fn n = true →
      exec (.updHalt fn n halt) s = .next (s.modUpd n (fun u => { u with halt := halt }))
      ∧ (u.current = none → u.queue = [] →
        (idx < 64 →
          exec (.updUcodeWrite fn n idx w) s = .next (s.modUpd n (fun u => { u with ucode := tabSet u.ucode idx w })))
        ∧ (w.toNat % 128 ≤ 64 →
          exec (.updUcodeWrite fn n 64 w) s = .next (s.modUpd n (fun u => { u with ucodeLen := w.setWidth 7 })))))
    ∧ (s.pllOn n = true →
      (u.halt = false → u.current = none → u.queue = d :: rest → u.fenced = false → s.updFields n d = true →
        s.updWindows n d = true → s.updRead n [(d.param, 64)] = (v, false) →
        exec (.updateEngineTake n) s
          = .next (v.modUpd n (fun u => { u with
              queue := rest, current := some d, curStatus := st8 scOk,
              params := (List.range 16).map (fun k => s.updVal n (d.param + 4 * k) 4) })))
      ∧ (u.current = some d → u.fenced = false →
        (u.curStatus = 0 → u.flitLost = false → r.stop = none →
          ∃ t, exec (.updateEngineComplete n) s = .next t ∧ t = r.s.updFinish n d scOk r.nf
            ∧ (t.die n).upd.current = none ∧ (t.die n).upd.doneSeq = d.seq
            ∧ (t.die n).upd.nfCount = satAdd (r.s.die n).upd.nfCount r.nf)
        ∧ (u.curStatus = st8 scIllegal →
          ∃ t, exec (.updateEngineComplete n) s = .next t ∧ t = s.updFinish n d scIllegal 0
            ∧ (t.die n).upd.current = none ∧ (t.die n).upd.doneSeq = d.seq)))
    ∧ (s.clocked = true → (s.house n).queue = a :: queue →
       (s.modHouse n (fun h => { h with queue := queue })).houseAdd n a = (v, bad) →
      exec (.countingHouseAdd n) s
        = .next (((v.modHouse n (fun h => h.giveBack a.src)).addSource bad a.src).framesDone.issueWaiting))

/-! Registers. -/

/-- R9: an access to BAR0 that is not an aligned one of 4 or 8 bytes: a read is answered with all ones, a write is
discarded, and one entry of the PCIe block is written, code 0x0301; nothing else changes. -/
def Obligations.BadBarAccessDiscarded : Prop :=
  ∀ (s : State) (fn off n : Nat), s.barUp = true → fn ≤ 16 → 0 < n → (n ≠ 4 ∧ n ≠ 8) ∨ off % n ≠ 0 →
    exec (.bar0BadAccess fn off n false) s
      = .next ((s.readBack fn (BitVec.allOnes 64)).logPcie 0x0301 scIllegal fn 0 [w32 off])
    ∧ exec (.bar0BadAccess fn off n true) s = .next (s.logPcie 0x0301 scIllegal fn 0 [w32 off])

/-- R10 to R12, R171, R336, R356, R405: a 32-bit write of a register that the function sees is applied to its block,
and one that it does not see changes nothing; a 64-bit write is the two halves, low first; a write of ones to
THERMAL and DROOP of PWR_STAT clears them. A 32-bit read of the low half of a 64-bit register returns it and latches
the high half, which the next read of the high half returns, once; a 64-bit read returns both. A read of an RC
register returns its value and clears it; one of any other register, of a block other than the logbook and the
cores, returns its word and changes nothing; one of a register that the function does not see returns zero.
Milestone definitions are written only while the partition is IDLE or LOADED; TB_STEP_HI steps TIME_NOW only while
no partition is active; a budget of 600 to 3,000 W is taken, and then bounds the limit in force. -/
def Obligations.RegistersComplete : Prop :=
  ∀ (s u : State) (fn off lo : Nat) (v : DWord) (w x : Word) (src : Source) (q : Nat) (m : Milestones),
    let r := locate off
    let o := if 0x100 ≤ off ∧ off < 0x1100 then some ((off - 0x100) / 16) else none
    let step : DWord := w ++ s.time.stepLo
    (s.sees fn (r.1.bar r.2) = true → s.mod.recovery = false →
      (off % 4 = 0 → exec (.registerWrite fn off false v) s = .next (s.writeWord32 fn r.1 r.2 (v.setWidth 32)))
      ∧ (off % 4 = 0 → s.read64 fn r.1 r.2 = some v →
        exec (.registerLowHalfRead fn off) s
          = .next ((s.modFn fn (fun y => { y with latch := tabSet y.latch off ((v >>> 32).setWidth 32) })).readBack fn
              ((v.setWidth 32).setWidth 64)))
      ∧ (off % 8 = 0 → s.read64 fn r.1 r.2 = some v →
        exec (.registerReadClear fn { off := off, wide := true }) s = .next (s.readBack fn v))
      ∧ (off % 4 = 0 → 4 ≤ off → s.read64 fn r.1 r.2 = none →
        (s.fn fn).latch.find? (fun e => e.1 + 4 == off) = some (lo, x) →
        exec (.registerReadClear fn { off := off, wide := false }) s
          = .next ((s.modFn fn (fun y => { y with latch := tabErase y.latch lo })).readBack fn (x.setWidth 64)))
      ∧ (off % 4 = 0 → s.read64 fn r.1 r.2 = none → (4 ≤ r.2 → s.read64 fn r.1 (r.2 - 4) = none) →
        (s.fn fn).latch.find? (fun e => e.1 + 4 == off) = none →
        (s.readClear r.1 r.2 = some (x, u) →
          exec (.registerReadClear fn { off := off, wide := false }) s = .next (u.readBack fn (x.setWidth 64)))
        ∧ (s.readClear r.1 r.2 = none → r.1 ≠ .logbook → (∀ p, r.1 ≠ .core p) →
          exec (.registerReadClear fn { off := off, wide := false }) s
            = .next (s.readBack fn ((s.plainWord fn r.1 r.2).setWidth 64)))))
    ∧ (s.sees fn (r.1.bar r.2) = false → off % 4 = 0 →
      exec (.registerWrite fn off false v) s = .next s
      ∧ (s.barUp = true → fn ≤ 16 →
        exec (.registerReadClear fn { off := off, wide := false }) s = .next (s.readBack fn 0)
        ∧ exec (.registerLowHalfRead fn off) s = .next (s.readBack fn 0)))
    ∧ (s.sees fn .pf = true → s.mod.recovery = false →
      exec (.registerWrite fn 0xF0010 false v) s = .next { s with pwr := { s.pwr with
        thermal := s.pwr.thermal && !v.getLsbD 2, droop := s.pwr.droop && !v.getLsbD 3 } })
    ∧ (off % 8 = 0 →
      exec (.registerWrite fn off true v) s
        = .next ((s.barWrite fn off (v.setWidth 32)).barWrite fn (off + 4) ((v >>> 32).setWidth 32)))
    ∧ (s.sees fn (.part q) = true → q < 16 → msDefOff off = true →
      ((s.part q).st = .idle ∨ (s.part q).st = .loaded → (s.part q).switching = none →
        (s.part q).ms.write off w = some m → exec (.msDefWrite fn q off w) s = .next (s.modMs q (fun _ => m)))
      ∧ ((s.part q).st ≠ .idle → (s.part q).st ≠ .loaded →
        exec (.msDefWrite fn q off w) s = .next (s.logMs q 0x0131 scIllegal o [])))
    ∧ (s.mayWrite src .pf = true →
      (s.noneActive = true →
        exec (.timeStep src w) s = .next ({ s with now := s.now + step }.logTime 0x4107 scOk (w64words step)))
      ∧ (s.noneActive = false → exec (.timeStep src w) s = .next (s.logTime 0x4107 scIllegal (w64words step)))
      ∧ (600 ≤ w.toNat % 65536 → w.toNat % 65536 ≤ 3000 →
        ∃ t, exec (.pwrBudgetWrite src w) s = .next t ∧ t.pwr.budget.toNat = w.toNat % 65536
          ∧ t.pwr.eff.toNat ≤ w.toNat % 65536 ∧ t.pwr.eff.toNat ≤ 3000
          ∧ t = { s with pwr := t.pwr, log := t.log, gapSerai := t.gapSerai }))

/-! Queues. -/

/-- R408 to R415: QUEUE_ENABLE of a queue within QMAX whose ring size is legal starts it empty; QUEUE_DISABLE stops
it; clearing HALTED lets it take descriptors again; a doorbell gives the ring its descriptors or moves the
completion head; a head or tail outside the ring, or a ring that cannot be read or written, puts the queue into
ERROR with code 0x0303 and a message of vector 0; a message that waits for its spacing goes out; a held note is
written once a slot is free. Malformed descriptors that then stand at the front are rejected. -/
def Obligations.QueuesComplete : Prop :=
  ∀ (s : State) (fn q : Nat) (v tail head : Word) (descs : List (BitVec 512)) (e : Cqe) (rest : List Cqe),
    let y := s.queue fn q
    let s1 := s.setQueue fn q (y.ctl v).enable
    let s2 := s.modQueue fn q (fun y => { y with cqHead := head.toNat })
    let up := s.bar2 fn q = true ∧ y.en = true ∧ y.error = false
    (s.sees fn (.fnBlock fn) = true → q < 256 →
      (v.getLsbD 0 = true → y.en = false → q < (s.fn fn).qmax.toNat → 4 ≤ y.log2.toNat → y.log2.toNat ≤ 16 →
        exec (.queueEnable fn q v) s = .next (if y.error then s1.msix0 fn else s1)
        ∧ (s1.queue fn q).en = true ∧ (s1.queue fn q).error = false ∧ (s1.queue fn q).unread = 0
        ∧ (s1.queue fn q).ring = [] ∧ (s1.queue fn q).phase = true)
      ∧ (v.getLsbD 0 = false →
        exec (.queueDisable fn q v) s
          = .next (s.modQueue fn q (fun y => ({ y.ctl v with en := false }).refresh)))
      ∧ (y.halted = true →
        exec (.queueHaltClear fn q) s
          = .next (((s.modQueue fn q (fun y => { y with halted := false })).msix0 fn).settleQueue fn q)))
    ∧ (up → tail.toNat < y.size → descs.length = (tail.toNat + y.size - y.sqHead) % y.size →
      exec (.doorbellSqTail fn q tail descs) s
        = .next ((s.modQueue fn q (fun y => { y with sqTail := tail.toNat, ring := descs })).settleQueue fn q))
    ∧ (up → y.size ≤ tail.toNat → exec (.doorbellSqTail fn q tail descs) s = .next (s.queueError fn q))
    ∧ (up → head.toNat < y.size → (head.toNat + y.size - y.cqHead) % y.size ≤ y.unread →
      exec (.doorbellCqHead fn q head) s
        = .next ((if 0 < (s2.queue fn q).unread then s2.cqInterrupt fn q else s2).settleQueue fn q))
    ∧ (up → y.size ≤ head.toNat ∨ y.unread < (head.toNat + y.size - y.cqHead) % y.size →
      exec (.doorbellCqHead fn q head) s = .next (s.queueError fn q))
    ∧ (up → exec (.queueRingError fn q) s = .next (s.queueError fn q) ∧ ((s.queueError fn q).queue fn q).error = true
      ∧ s.queueError fn q = ((s.modQueue fn q (fun y => ({ y with error := true }).refresh)).logPcie 0x0303 scUncorr fn q
        [w32 q]).msix0 fn)
    ∧ (s.barUp = true → y.msiPending = true →
      exec (.msixCoalesceExpiry fn q) s
        = .next ((s.setQueue fn q { y with lastMsi := some s.now, msiPending := false }).msix fn (q + 1)))
    ∧ (s.barUp = true → (s.fn fn).held = e :: rest → (s.queue fn e.queue).takesNotes = true →
      0 < (s.queue fn e.queue).freeSlots →
      exec (.eventDeliverDeferred fn) s = .next ((s.modFn fn (fun x => { x with held := rest })).cqWrite fn e.queue e))

/-- R247, R416, R417, R407: a NIC send of a legal length and tag on a usable link is queued there as one frame, or
with MSS as the segments of its TCP payload in order, each tagged with the ring's class; a buffer of at least 9,216
bytes is posted. A function-level reset of a VF stops its partition as STOP does, disables its queues and discards
its held notes; one of the PF does so for every partition and function; each with code 0x0305. -/
def Obligations.NicAndResetComplete : Prop :=
  ∀ (s : State) (fn q : Nat) (desc : BitVec 512) (data : List Byte) (h : TcpHdr),
    let d := nicDesc desc
    let tc := (s.queue fn q).tc.toNat
    let vid := (s.link d.link).vid.toNat
    let s1 := s.takeDesc fn q
    let b : RxBuf :=
      { addr := w64 (bits desc.toNat 63 0), size := bits desc.toNat 95 64, cid := BitVec.ofNat 16 (bits desc.toNat 111 96) }
    let fs := (tcpSegments h d data).map (fun f => tagFrame f d.insertTag tc vid)
    let x := s.fn fn
    (s.nicTakes fn q 1 desc = true → data.length = d.len → s1.nicLink d.link = true →
      (d.mss = 0 → d.lenOk = true → d.tagOk data = true →
        exec (.nicSendDescriptor fn q desc data) s
          = .next (s1.nicFrames d.link tc (fn, q, d.cid) [tagFrame data d.insertTag tc vid]))
      ∧ (d.mss ≠ 0 → d.segment data = some h → fs ≠ [] →
        exec (.nicSendDescriptor fn q desc data) s = .next (s1.nicFrames d.link tc (fn, q, d.cid) fs)))
    ∧ (s.nicTakes fn q 2 desc = true → 9216 ≤ b.size →
      exec (.nicRxBufferPost fn q desc) s
        = .next (s1.modQueue fn q (fun y => { y with rxBufs := y.rxBufs ++ [b] })))
    ∧ (s.barUp = true → 1 ≤ fn → fn ≤ 16 →
      exec (.flrVf fn) s
        = .next (((if x.bound ∧ s.clocked then s.stopPart x.part.toNat .flr else s).modFn fn Fn.reset).logPcie 0x0305 scOk
            fn 0 [])
      ∧ x.reset.held = [] ∧ ∀ e ∈ x.reset.queues, e.2.en = false)
    ∧ (s.barUp = true →
      let stopped := if s.clocked then eachDo (List.range 16) (fun p t => t.stopPart p .flr) s else s
      ∃ t, exec .flrPf s = .next t
        ∧ t = (eachDo (List.range 17) (fun f t => t.modFn f Fn.reset) stopped).logPcie 0x0305 scOk 0 0 []
        ∧ ∀ f, f < 17 → (t.fn f).held = [] ∧ ∀ e ∈ (t.fn f).queues, e.2.en = false)

/-! Attestation and the sideband. -/

/-- R380 to R382, Tables 13.6 and 13.7: a function whose mailbox answers receives the versions, capabilities,
algorithms, digest of slot 0, a portion of its chain, a challenge's answer signed by the Alias key, and the
measurement blocks that it asks for; any other request receives UnsupportedRequest. Nothing else changes, but for
the number that a signature takes. R429, R472, Table 16.6: while Serai runs the sideband reads the registers it
reaches that no read clears, and writes those it reaches, and answers with the magic, the operation, the status, the
sequence number, the offset and the value; in STANDBY it reads MOD_STAT, refuses writes with STATE_ILLEGAL, and a
wake boots the module. -/
def Obligations.AttestationSidebandComplete : Prop :=
  (∀ (s : State) (fn off len : Nat) (a b signed : Bool) (nonce : BitVec 256) (index req : Byte),
     let say := fun (t : State) (r : SpdmResp) =>
       (.next { t with host := { t.host with doe := tabSet t.host.doe fn r } } : Host.Outcome State Fault Refusal)
     let p := (s.customs.chain.drop off).take len
     let d := Config.sha384 s.customs.chain
     let bs := s.report fn index.toNat signed nonce
     s.doeUp fn = true →
     exec (.spdmGetVersion fn) s = say s (.version [0x12, 0x13])
     ∧ exec (.spdmGetCapabilities fn) s = say s .capabilities
     ∧ exec (.spdmNegotiateAlgorithms fn a b) s = say s (.algorithms a b)
     ∧ exec (.spdmGetDigests fn) s = say s (.digests d)
     ∧ exec (.spdmGetCertificate fn 0 off len) s = say s (.certificate p (s.customs.chain.length - (off + p.length)))
     ∧ exec (.spdmChallenge fn 0 nonce) s = say s.useFree (.challengeAuth d (s.sign nonce (digestBytes d)))
     ∧ exec (.getMeasurements fn index signed nonce) s
         = say s.useFree (.measurements bs (if signed then some (s.sign nonce (bs.flatMap Measurement.bytes)) else none))
     ∧ exec (.spdmUnsupported fn req) s = say s .unsupported)
  ∧ (∀ (s : State) (seq offset value : Word) (r : RegBlock × Nat),
       (s.seraiOn = true → sbReach offset.toNat = some r →
         (s.readClear r.1 r.2 = none →
           exec (.sidebandRead seq offset) s = .next (s.sbAnswer (sbResponse 1 scOk seq offset (s.sbWord r.1 r.2))))
         ∧ exec (.sidebandWrite seq offset value) s
             = .next ((s.sbWriteReg r.1 r.2 value).sbAnswer (sbResponse 2 scOk seq offset value)))
       ∧ (s.mod.state = .standby →
         exec (.sidebandRead seq 0) s = .next (s.sbAnswer (sbResponse 1 scOk seq 0 s.modStat))
         ∧ exec (.sidebandWrite seq offset value) s = .next (s.sbAnswer (sbResponse 2 scIllegal seq offset value))
         ∧ ∃ t, exec (.sidebandWake seq) s = .next t ∧ t.mod.state = .boot ∧ t.mod.bootStep = 1 ∧ t.now = s.now
             ∧ t.host.mem = s.host.mem))

/-! Links. -/

/-- R236, R239, Table 8.4: the PF's ADMIN_UP 0 disables a link at once, and 1 sends a DISABLED link with a role to
DOWN; RETRAIN sends it to DOWN. Bring-up goes from DOWN to OPTICS, ALIGN and BEACON, or UP where no beacons are
exchanged; a step that takes too long, and a loss of the PCS, send it to DOWN with the reason. After each the
upstream link is chosen anew. -/
def Obligations.BringUpComplete : Prop :=
  ∀ (s : State) (fn l : Nat),
    let x := s.link l
    let adm := fun (b : Bool) => s.modLink l (fun y => { y with adminUp := b })
    let next := fun (t : State) => (.next t.refreshUplink : Host.Outcome State Fault Refusal)
    (∀ r : Nat, ((s.linkDown l r).link l).st = .down ∧ ((s.linkDown l r).link l).reason = BitVec.ofNat 3 r
      ∧ ((s.attemptFailed l r).link l).st = .down ∧ ((s.attemptFailed l r).link l).reason = BitVec.ofNat 3 r
      ∧ ((s.linkDisable l).link l).st = .disabled ∧ ((s.linkUp l).link l).st = .up)
    ∧ (s.clocked = true → l < 36 →
    (s.sees fn .pf = true →
      exec (.linkAdminDown fn l) s = next ((adm false).linkDisable l)
      ∧ (x.st = .disabled → (x.torus || x.switched) = true →
        exec (.linkAdminUp fn l) s = next ((adm true).modLink l (fun y => { y with st := .down })))
      ∧ (x.st ≠ .disabled → exec (.retrain fn l) s = next (s.linkDown l 0)))
    ∧ (x.st = .down →
      exec (.linkRetryTimer l) s = next (s.modLink l (fun y => { y with st := .optics, lasers := true })))
    ∧ (x.st = .optics →
      exec (.opticsPowerOk l) s = next (s.modLink l (fun y => { y with st := .align, lasers := true }))
      ∧ exec (.opticsTimeout l) s = next (s.attemptFailed l 7))
    ∧ (x.st = .align →
      (x.beacons = true →
        exec (.alignDone l) s
          = next (s.modLink l (fun y => { y with st := .beacon, lasers := true, seenValid := false })))
      ∧ (x.beacons = false → exec (.alignDone l) s = next (s.linkUp l))
      ∧ exec (.alignTimeout l) s = next (s.attemptFailed l 7))
    ∧ (x.st = .beacon → x.seenValid = false → exec (.beaconWaitTimeout l) s = next (s.attemptFailed l 7))
    ∧ (x.st = .up ∨ x.st = .fenced ∨ x.st = .down →
      exec (.pcsAlignmentLost l) s = next (s.linkDown l 4) ∧ exec (.pcsHighSer l) s = next (s.linkDown l 5))
    ∧ (x.st = .optics ∨ x.st = .align ∨ x.st = .beacon →
      exec (.pcsAlignmentLost l) s = next (s.attemptFailed l 4) ∧ exec (.pcsHighSer l) s = next (s.attemptFailed l 5)))

/-- R237, R238: a link in BEACON, UP or FENCED that exchanges beacons is given one with the module's pair,
coordinate and link to send; a received one is counted and kept, one that matches ends a grace and, with PEER_OK,
takes a link in BEACON or FENCED to UP; on a link in UP a pair more than one epoch away fences it with code 0x2003,
a wrong neighbour with code 0x2004, and a pair one epoch away begins a grace, at whose end it fences; the loss of
beacons fences it with code 0x2005. A fence leaves the link FENCED with its reason. After each the upstream link is
chosen anew. -/
def Obligations.BeaconsComplete : Prop :=
  ∀ (s : State) (l : Nat) (b : Beacon),
    let x := s.link l
    let s1 := (s.countRx l).modLink l (fun y => y.see b)
    let s2 := s1.modLink l (fun y => { y with peerOkAt := some s.now, graceFrom := none })
    let ok := s.pairMatches b.epoch b.digest = true ∧ s.wiringMatches l b = true
    let next := fun (t : State) => (.next t.refreshUplink : Host.Outcome State Fault Refusal)
    (∀ r c st : Nat, ((s.linkFence l r c st).link l).st = .fenced
      ∧ ((s.linkFence l r c st).link l).reason = BitVec.ofNat 3 r)
    ∧ (s.clocked = true → l < 36 → x.beacons = true →
    (x.live = true →
      exec (.beaconDue l) s = next (s.emitNow l (.beacon (s.beacon l)))
      ∧ (ok → b.peerOk = true → x.st = .beacon ∨ x.st = .fenced → exec (.beaconReceived l b) s = next (s2.linkUp l))
      ∧ (ok → b.peerOk = false ∨ x.st = .up → exec (.beaconReceived l b) s = next s2))
    ∧ (x.st = .up →
      (s.pairMatches b.epoch b.digest = false → oneApart b.epoch s.pair.2 = false →
        exec (.beaconReceived l b) s = next (s1.linkFence l 1 0x2003 scManifest))
      ∧ (s.pairMatches b.epoch b.digest = true → s.wiringMatches l b = false →
        exec (.beaconReceived l b) s = next (s1.linkFence l 2 0x2004 scManifest))
      ∧ (s.pairMatches b.epoch b.digest = false → oneApart b.epoch s.pair.2 = true → s.wiringMatches l b = true →
        x.graceFrom = none →
        exec (.beaconReceived l b) s = next (s1.modLink l (fun y => { y with graceFrom := some s.now })))
      ∧ (x.graceFrom ≠ none → s.pairMatches x.bcnEpoch x.bcnDigest = false →
        exec (.beaconGraceExpiry l) s = next (s.linkFence l 1 0x2003 scManifest))
      ∧ (x.graceFrom ≠ none → s.pairMatches x.bcnEpoch x.bcnDigest = true →
        exec (.beaconGraceExpiry l) s = next (s.modLink l (fun y => { y with graceFrom := none }))))
    ∧ (x.st = .up ∨ x.st = .fenced →
      exec (.beaconLossTimeout l) s = next (s.linkFence l 3 0x2005 scWatchdog)))

/-- R235, R243 to R245: an ACKSEQ takes the milestone frames it acknowledges out of the replay buffer, and without
progress they are sent again, up to eight times, then the link goes DOWN with reason 6. Credit frames give and
return the credits of each class and lane. PFC on a SWITCHED link pauses and resumes its priorities, is sent again
while the pause that it asked for lasts, and a queue paused too long is emptied, with STORM set, code 0x2007, and
PFC ignored until the recovery ends. What may then leave a link does. -/
def Obligations.FlowControlComplete : Prop :=
  ∀ (s : State) (l prio : Nat) (ackseq : BitVec 16) (cred times : List (BitVec 16)) (enable : Byte),
    let x := s.link l
    let fs := tabGet [] x.queues prio
    let next := fun (t : State) => (.next t.refreshUplink : Host.Outcome State Fault Refusal)
    s.clocked = true → l < 36 →
    (x.st = .up →
      exec (.controlAckReceived l ackseq) s
        = next (((s.countRx l).modLink l (fun y => y.ackedTo ackseq)).drainLink l)
      ∧ (x.ackedTo ackseq).replay = x.replay.filter (fun r => decide (32768 ≤ (ackseq - r.msg.lseq).toNat))
      ∧ (x.replay ≠ [] → (∀ r ∈ x.replay, r.resent < 8) →
        exec (.controlRetxTimeout l) s = next ((s.modLink l Link.retransmit).drainLink l)
        ∧ ∀ r ∈ x.retransmit.replay, ∃ r0 ∈ x.replay, r = { r0 with resent := r0.resent + 1 })
      ∧ ((∃ r ∈ x.replay, 8 ≤ r.resent) →
        exec (.controlRetxTimeout l) s = next ((s.logLink l 0x2008 scTimeout).linkDown l 6)))
    ∧ (x.live = true → x.torus = true →
      exec (.creditFrameTimer l) s = next (s.sendCredit l)
      ∧ (cred.length = 8 →
        exec (.creditFrameReceived l cred) s
          = next ((s.modLink l (fun y => (List.range 8).foldl (fun y i => y.credited cred i)
              { y with rxFrames := y.rxFrames + 1 })).drainLink l)))
    ∧ (x.live = true → x.torus = false → times.length = 8 →
      exec (.pfcFrameReceived l enable times) s
        = next ((s.modLink l (fun y => (List.range 8).foldl (fun y p => y.pfc enable times p)
            { y with rxFrames := y.rxFrames + 1 })).drainLink l))
    ∧ (prio < 8 → bitAt x.paused.toNat prio = true →
      exec (.pfcPauseExpiry l prio) s
        = next ((s.modLink l (fun y => { y with paused := setB y.paused prio false })).drainLink l)
      ∧ (x.switched = true → (∀ f ∈ fs, f.nic = none) →
        exec (.pfcWatchdogFire l prio) s
          = next ((s.modLink l (fun y => { y with
              queues := tabSet y.queues prio [], wdDrops := y.wdDrops + BitVec.ofNat 64 fs.length,
              paused := setB y.paused prio false, storm := setB y.storm prio true,
              recovering := setB y.recovering prio true })).logLink l 0x2007 scWatchdog)))
    ∧ (x.st = .up → x.switched = true → prio < 4 → bitAt x.pfcTxEn.toNat prio = true →
      bitAt x.pfcSent.toNat prio = true →
      exec (.pfcRepeatTimer l prio) s
        = next ((s.modLink l (fun y => { y with pfcSent := setB y.pfcSent prio true })).emitNow l (.pfc prio 0xFFFF)))
    ∧ (prio < 8 → bitAt x.recovering.toNat prio = true →
      exec (.pfcRecoveryEnd l prio) s
        = next (s.modLink l (fun y => { y with recovering := setB y.recovering prio false })))

/-- R231, R232, R235, R243: a Riris frame for another module on a TORUS link in UP is counted and sent on along the
route, and keeps its place in its class's receive buffer; so is a milestone frame that is next in order, which is
also acknowledged; one that is not is acknowledged and leaves the buffer. R320: in a switched installation a frame
of this module is sent by the rules of R320. R244, R246: an Ethernet frame for the NIC function is counted, buffered
by its priority and goes to the filters that take it. R230: an ARP request or neighbour solicitation for the link's
own address is answered. R227, R234, R246: a frame that cannot be accepted is counted in MAC_RX_FCS_ERR, and one
that a TORUS link does not carry in MAC_NIC_RX_DROPS. -/
def Obligations.FramesComplete : Prop :=
  ∀ (s : State) (l : Nat) (laneB fcsOk : Bool) (g : RirisFrame) (m : MsMsg) (f reply : Frame)
    (bytes head body addrs tag : List Byte),
    let x := s.link l
    let next := fun (t : State) => (.next t.refreshUplink : Host.Outcome State Fault Refusal)
    let lane := b2n laneB
    let acked := ((s.countRx l).modLink l (fun y => { y with expectLseq := y.expectLseq + 1 })).emitNow l
      (.ctlAck m.lseq)
    let all := addrs ++ tag ++ body
    s.clocked = true →
    (l < 36 → x.st = .up → x.torus = true →
      (g.dst.toNat ≠ s.coord →
        let held := if 4 ≤ g.prio.toNat then
          some (l, 2 * (g.prio.toNat - 4) + lane, frameUnits (s.qframe l (.riris g)).len) else none
        exec (.frameForward l laneB (.riris g)) s
          = next ((s.countRx l).sendFrame (some l) laneB false held (.riris g)))
      ∧ (m.dst.toNat ≠ s.coord →
        (m.lseq = x.expectLseq →
          exec (.frameForward l laneB (.milestone m)) s
            = next (acked.sendFrame (some l) laneB false (some (l, 6 + lane, frameUnits msLen)) (.milestone m)))
        ∧ (m.lseq ≠ x.expectLseq →
          exec (.frameForward l laneB (.milestone m)) s
            = next ((((s.countRx l).emitNow l (.ctlAck (x.expectLseq - 1))).freeUnits l (6 + lane)
                (frameUnits msLen)).drainLink l))))
    ∧ (s.switchedInst = true → s.passes f = true →
      exec (.switchedFrameSend none f) s = .next (s.sendFrame none false false none f))
    ∧ (l < 36 → x.st = .up ∨ x.st = .fenced → x.switched = true → 60 ≤ bytes.length → bytes.length ≤ 9212 →
      isTagged bytes = true → s.isNicFrame l bytes = true →
      let p := netNat bytes 14 1 / 32
      exec (.nicFrameReceived l bytes) s
        = next ((if p < 4 then (s.countRx l).bufferNic l p (bytes.length + 4) else s.countRx l).nicReceive l bytes))
    ∧ (l < 36 → x.st = .up → x.switched = true → isTagged (head ++ body) = true →
      s.neighbourReply l (head ++ body) = some reply →
      exec (.arpNdFrame l head body) s = next ((s.countRx l).emitNow l reply))
    ∧ (l < 36 → x.live = true →
      let s1 := if fcsOk then s.countRx l else s
      (fcsOk = false ∨ all.length < 60 ∨ 9212 < all.length
          ∨ (isTagged all = true ∧ netNat all 16 2 = 0x88B5 ∧ 0xF5 ≤ netNat all 18 1) →
        exec (.frameDiscarded l fcsOk addrs tag body) s
          = next (s1.modLink l (fun y => { y with rxErr := y.rxErr + 1 })))
      ∧ (macBad fcsOk all = false → isTagged all = true → netNat all 16 2 ≠ 0x88B5 → x.torus = true →
        exec (.frameDiscarded l fcsOk addrs tag body) s
          = next (s1.modLink l (fun y => { y with nicDrops := y.nicDrops + 1 }))))

/-! Queue pairs' frames. -/

/-- R268, R277, R279, R281, R295: a frame that can come in for a cached queue pair, whose tag verifies and which no
injection spoils, is taken from its link, counted as a hit and opened. R259 to R264, R297: on an ACTIVE pair the
next in sequence of each class, once its header's toll and acknowledgement are taken, is processed as its class
says; an ACK only gives those, and a NAK is acted on. `t` is the state once the frame has been received and counted,
and `g` the frame in the clear. R261, R270, R272: a WRITE within a VALID region with the right, to memory that takes
it, stores its payload at the region's base plus its offset and is consumed: EPSN goes on by one and it is
acknowledged; one that the region does not admit stores nothing, is a violation, and is consumed with NAK code 3.
The last frame of a WRITE_NOTIFY, and a NOTIFY, post a token to the pair's depot buffer where it takes one. A
READ_REQ within a VALID region is consumed, counts in the region and queues its response; one that is not admitted
is a violation, with NAK code 3. A READ_RESP that does not end its READ stores its payload in the READ's local
ranges and counts it. A NAK outside [UNA, SPSN) that reports no run of PSNs has no effect, and NAK STATE fails the
operations of the pair, which stops in ERROR. A convoy frame that the checks of Table 10.5 refuse is consumed with
their NAK code, and a stale one with an acknowledgement. -/
def Obligations.RirisFramesComplete : Prop :=
  (∀ (s : State) (f : RirisFrame),
     let q := f.dqp.toNat
     let a := (s.takeIn f).modPorter (homeOf q) (fun p => { p with hits := p.hits + 1 })
     let t := a.modPorter (homeOf q) (fun p => { p with injAuth := false })
     let g := openFrame f (a.rxKey q)
     let u := t.takeHeader q g
     s.comesIn f = true → s.rxKnown f = true → (s.qp q).cached = true → a.tagOk f = true →
     (a.porter (homeOf q)).injAuth = false → (t.qp q).st = .active →
     (f.cls = 6 → exec (.ririsAck f) s = .next u)
     ∧ (f.cls = 7 → exec (.ririsNak f) s = .next (t.rxNak q g))
     ∧ ((u.qp q).st = .active → u.pendingOn q = false → (u.qp q).behind = [] → f.psn = (u.qp q).epsn →
       (f.cls = 1 → exec (.ririsWrite f) s = .next (u.rxWrite q g))
       ∧ (f.cls = 2 → exec (.ririsWriteNotify f) s = .next (u.rxWrite q g))
       ∧ (f.cls = 3 → exec (.ririsReadReq f) s = .next (u.rxReadReq q g))
       ∧ (f.cls = 4 → exec (.ririsReadResp f) s = .next (u.rxReadResp q g))
       ∧ (f.cls = 5 → exec (.ririsNotify f) s = .next (u.notifyEnd q g))
       ∧ (f.cls = 0x20 → exec (.convoyFrame f) s = .next (u.rxConvoy q g))))
  ∧ (∀ (s v : State) (q code : Nat) (f : RirisFrame) (r : Reading) (rest : List Reading) (e : Nat × DepotBuf),
       let x := s.qp q
       let p := x.part.toNat
       let i := f.rkey.toNat % 4096
       let n := f.payload.length
       let a := (s.region i).base + f.roff.toNat
       let w := (s.unclean p).store 0 (some p) a f.payload
       let done := fun (y : State) (c : Nat) => (y.modQp q (fun z => z.consume f)).answer q f c
       let b := s.stores r.core (some p) (fillSegs (sliceSegs r.addrs r.got n) f.payload)
       let m := f.oplen.toNat
       (x.consume f).epsn = x.epsn + 1
       ∧ (s.regionAdmits q 1 f.rkey f.roff.toNat n = true → w.2 = false →
         (f.cls = 1 ∨ f.last = false → s.rxWrite q f = done w.1 0)
         ∧ (f.cls = 2 → f.last = true → s.rxWrite q f = w.1.notifyEnd q f))
       ∧ (s.regionAdmits q 1 f.rkey f.roff.toNat n = false →
         s.rxWrite q f = done (s.reportViolation q f) 3 ∧ (s.reportViolation q f).mem = s.mem)
       ∧ (x.nvalid = true → e.2.tok.toNat < 255 →
         (s.die x.ndie.toNat).dbufs.find? (fun d => d.1 == x.nbuf.toNat && d.2.owner == p) = some e →
         s.notifyEnd q f
           = done (s.modDie x.ndie.toNat (fun d => d.modBuf x.nbuf.toNat (fun y => { y with tok := y.tok + 1 }))) 0)
       ∧ (s.regionAdmits q 3 f.rkey f.roff.toNat m = true → 0 < m →
         s.rxReadReq q f = (done (s.modRegion i (fun y => { y with inflight := y.inflight + 1 })) 0).queueSend q
           (respFrames i p f.roff.toNat x.mtuBytes m f.rkey 0 (m / x.mtuBytes + 1)))
       ∧ (s.regionAdmits q 3 f.rkey f.roff.toNat m = false → s.rxReadReq q f = done (s.reportViolation q f) 3)
       ∧ (x.reads = r :: rest → r.ended = false → r.got + n < r.need → b.2 = false →
         s.rxReadResp q f
           = done ((b.1.tallyAdd r.core tlRXREMOTE n).modQp q (fun z => { z with
               reads := { r with got := r.got + n } :: rest })) 0)
       ∧ (x.owns f.psn = false → f.oplen = 0 → s.rxNak q f = s)
       ∧ (x.owns f.psn = true → f.code = 5 →
         s.rxNak q f = ((s.setQp q { x with lastNak := 5 }).failAll q scAbandoned).qpStop q .error)
       ∧ (s.convoyCheck q f = (v, .refuse code) → s.rxConvoy q f = done v code)
       ∧ (s.convoyCheck q f = (v, .stale) → s.rxConvoy q f = done v 0))

/-- R255, R262, R263, R268, R269: an unknown frame is counted and discarded; a frame whose context is not cached is
parked and the context fetched while the miss buffer has room, and answered with NAK CONTEXT_BUSY otherwise; a fetch
that ends installs the context, runs an operation that waits for it and processes the parked frames; a parked frame
that waited too long is discarded with code 0x2102; a retry timer that runs out sends every unacknowledged frame
again and counts them, while its limit is not reached; an acknowledgement delay that runs out sends an ACK. -/
def Obligations.ContextsComplete : Prop :=
  ∀ (s s1 : State) (f : RirisFrame) (qp : BitVec 20) (e : Parked),
    let q := f.dqp.toNat
    let m := homeOf q
    let t := s.takeIn f
    let k := qp.toNat
    let n := homeOf k
    let s0 := s.modPorter n (fun p => { p with fetching := p.fetching.filter (· != k) })
    s.clocked = true →
    (s.comesIn f = true → s.rxKnown f = false →
      exec (.ririsUnknownFrame f) s = .next (t.modPorter m (fun p => { p with rxUnknown := p.rxUnknown + 1 })))
    ∧ (s.comesIn f = true → s.rxKnown f = true → (s.qp q).cached = false →
      ((t.porter m).used + units (frameLen f) ≤ 1024 →
        exec (.contextMiss f) s
          = .next ((t.modPorter m (fun p => { p with
              parked := p.parked ++ [{ qp := q, frame := f, since := t.now }] })).startFetch q))
      ∧ (1024 < (t.porter m).used + units (frameLen f) →
        exec (.contextMiss f) s
          = .next (((t.modPorter m (fun p => { p with busyNaks := p.busyNaks + 1 })).logQp q 0x2101 scBusy
              [f.src.setWidth 32, f.sqp.setWidth 32, f.psn, f.rkey]).busyReply f)))
    ∧ ((s.porter n).fetching.contains k = true → s.uncorrIn 0 [(s.poolAddr k, 128)] = false → s0.makeRoom k = some s1 →
      exec (.contextFetchDone qp false) s
        = .next ((((((s1.touchRead 0 [(s1.poolAddr k, 128)]).modQp k (fun x => { x with
            cached := true, used := s.now })).pageResume k false).rxParked k).wakeContext k)))
    ∧ ((s.porter n).fetching.contains k = true →
      exec (.contextFetchDone qp true) s = .next (((s0.fetchBad k).pageResume k true).wakeContext k))
    ∧ ((s.porter n).parked.find? (fun e => e.qp == k) = some e →
      exec (.parkedFrameTimeout qp) s
        = .next ((s.modPorter n (fun p => { p with
            parked := takeParked k p.parked, parkDrops := p.parkDrops + 1 })).logQp k 0x2102 scOk
              [e.frame.src.setWidth 32, e.frame.sqp.setWidth 32, e.frame.psn, e.frame.rkey]))
    ∧ ((s.qp k).st = .active → (s.qp k).unacked ≠ [] ∨ (s.qp k).busy = true →
      exec (.qpRetryTimeout qp) s = .next (s.qpExpire k)
      ∧ ((s.qp k).busy = false → (s.qp k).retries < (s.qp k).retryLimit.toNat →
        s.qpExpire k = ((eachDo (s.qp k).unacked (fun u t => t.shipOf k u.frame) (s.setQp k { s.qp k with
            retries := (s.qp k).retries + 1 })).modPorter n (fun p => { p with
              retx := p.retx + w64 (s.qp k).unacked.length }))))
    ∧ ((s.qp k).st = .active → (s.qp k).ackDue = true → exec (.ackDelayExpiry qp) s = .next (s.sendAck k))

/-! Time and power. -/

/-- R351 to R356: a link that carries time queues a time frame on queue 7; every received one is kept for the echo,
and one of the upstream link that echoes a frame sent within 1 ms gives a measurement; the loss of the reference is
HOLDOVER with code 0x4102; a replica more than 4 ns away is realigned, the others only record their difference;
PTP's lock is recorded, and its loss at a root that uses it writes code 0x4106. -/
def Obligations.TimeComplete : Prop :=
  ∀ (s : State) (l : Nat) (f : TimeFrame) (diffs : List Int) (locked : Bool),
    let e := tabGet ({} : LinkTime) s.time.links l
    let lane := s.laneOut none false l
    let s1 := (s.gotFrame l 7 lane timeLen).modTime (fun x => { x with
      links := tabSet x.links l { e with echoTx := f.tTx, echoRx := s.now } })
    let echo := e.sentTx.any (fun x => x == f.echoTx && decide ((s.now - x).toNat ≤ 1000000))
    let s2 := (s.modTime (fun t => { t with ptpLocked := locked })).rootReference
    s.clocked = true →
    (l < 36 → carriesTime (s.link l).st = true →
      exec (.timeFrameDue l) s
        = .next (s.enqueue l 7 { s.qframe l (.time (s.timeFrame l)) with laneB := lane })
      ∧ (s.time.uplink.toNat = l → echo = true → exec (.timeFrameReceived l f) s = .next (s1.measure f s.now))
      ∧ (s.time.uplink.toNat ≠ l ∨ echo = false → exec (.timeFrameReceived l f) s = .next s1))
    ∧ (s.time.st = .locked → s.time.root = false →
      exec .timeReferenceLoss s
        = .next ((s.modTime (fun t => { t with st := .holdover, good := 0 })).logTime 0x4102 scWatchdog []))
    ∧ (diffs.length = 25 → (∀ x ∈ diffs, -4 ≤ x ∧ x ≤ 4) →
      ∃ t, exec (.replicaCheck diffs) s = .next t ∧ (∀ d, d < 25 → (t.sense d).replicaDiff = diffs.getD d 0)
        ∧ t = { s with pwr := { s.pwr with sense := t.pwr.sense } })
    ∧ (diffs.length = 25 →
      exec (.replicaCheck diffs) s = .next (eachDo diffs.zipIdx (fun (e : Int × Nat) t =>
        if e.1 < -4 ∨ 4 < e.1 then t.realign e.2
        else { t with pwr := { t.pwr with
          sense := tabMod {} t.pwr.sense e.2 (fun x => { x with replicaDiff := e.1 }) } }) s))
    ∧ (exec (.ptpLockChange locked) s
        = .next (if s.time.usesPtp && !locked then s2.logTime 0x4106 scWatchdog [] else s2))

/-- R337 to R349: while Serai runs, a measurement sets the figures of the power block and adds its energy, and each
die with a running PLL takes a frequency of its class; at the end of an interval the entry of its MID learns, the
interval is over, and PWR_DIE of each die of the partition shows the class; the supply voltage bounds the limit; a
droop stretches the die and marks the samples of a compute die to come, until it ends and its cycles are counted; a
temperature is kept, in FAULT too, and outside it throttles a compute die above 100 °C with code 0x4004, and above
110 °C sends the module to FAULT with cause 1. -/
def Obligations.PowerComplete : Prop :=
  ∀ (s : State) (m : PowerMeasure) (p mv d cycles : Nat) (i : Interval) (dies : List PhaseShare) (six : Bool) (tj : Byte),
    let classes := dies.zipIdx.map (fun (x : PhaseShare × Nat) =>
      shareClass x.1 ((s.dieTally x.2).since (i.base.getD x.2 {})) (s.freeVal.setWidth 3))
    let sb := (s.takeMeasure m).checkBreach
    let plls := (List.range 12).filter sb.pllOn
    let opens := plls.filter (fun n => !sb.dieSealed n)
    let total := (opens.map (sb.weight sb.maxScale)).foldl (· + ·) 0
    let short := decide (sb.pwr.eff.toNat < m.inputW) && opens.all (fun n => sb.freqHeld n == 1200)
    let v := { s with phys := { s.phys with vin := mv } }
    let s2 := { s with pwr := { s.pwr with droop := true, sense := tabMod {} s.pwr.sense d (fun x =>
      { x with stretch3 := true, stretch6 := x.stretch6 || six }) } }
    let s3 := { s with pwr := { s.pwr with sense := tabMod {} s.pwr.sense d (fun x =>
      { x with stretch3 := false, stretch6 := false }) } }
    (s.seraiOn = true →
      exec (.powerRecompute m) s
          = .next (eachDo plls (fun n t =>
              if sb.dieSealed n then t.sealedFreq short n
              else t.openFreq sb.openPool total sb.maxScale n) sb)
      ∧ (s.takeMeasure m).pwr.energy = s.pwr.energy + w64 m.energyJ
      ∧ (s.takeMeasure m).life.cur.energyJ = s.life.cur.energyJ + w64 m.energyJ)
    ∧ (s.clocked = true → p < 16 → dies.length = 12 → s.pwr.curPhase.find? (fun e => e.1 == p) = some (p, i) →
      ∃ t, exec (.phaseLearn p dies) s = .next t
        ∧ tabGet [] t.pwr.phases p
            = (tabGet [] s.pwr.phases p).map (fun e => if e.mid = i.mid then e.learned dies classes else e)
        ∧ t.pwr.curPhase = tabErase s.pwr.curPhase p ∧ t.free = s.free + 1
        ∧ ∀ n, n < 12 → s.ownsDie p n = true →
          (tabGet ({} : DiePower) t.pwr.dies n).phase = classes.getD n 0)
    ∧ (s.mayDroop d = true →
      exec (.droopCrossing d six) s
          = .next ((if d < 12 then eachDo (List.range 22) (fun k t => t.modCore (22 * d + k) Core.markStretch) s2
              else s2).logDroop d)
      ∧ (s.stretched d = true →
        exec (.droopStretchEnd d cycles) s
          = .next (if d < 12 then
              eachDo (s3.clockedCores d) (fun p t => t.talliesAdd p [(0, cycles), (1, cycles)]) s3
            else s3)))
    ∧ (d < 25 →
      (s.mod.state = .fault → exec (.thermalSample d tj) s = .next (s.takeTj d tj))
      ∧ (s.clocked = true →
        (tj.toNat ≤ 110 →
          exec (.thermalSample d tj) s = .next (if d < 12 then (s.takeTj d tj).throttle d tj else s.takeTj d tj))
        ∧ (110 < tj.toNat → ∃ t, exec (.thermalSample d tj) s = .next t ∧ t.mod.state = .fault ∧ t.mod.fault = 1)))
    ∧ (s.mod.state = .off ∨ s.mod.state = .standby → exec (.supplyVoltageChange mv) s = .next v)
    ∧ (s.seraiOn = true →
      ∃ t, exec (.supplyVoltageChange mv) s = .next t ∧ t.phys.vin = mv
        ∧ t.pwr.eff = BitVec.ofNat 16 (min s.pwr.budget.toNat (min (mv * 62 / 1000) 3000))
        ∧ t = { s with phys := t.phys, pwr := t.pwr, log := t.log, gapSerai := t.gapSerai })

/-! Boot and pins. -/

/-- R407, R457, R464 to R470, R475: 54 V present takes OFF to STANDBY; its loss and overvoltage take every other
state to OFF, where TIME_NOW is not kept; a wake takes STANDBY to BOOT; MRST# takes every state but OFF to STANDBY,
keeping TIME_NOW; PERST# resets the PF in RUN, and elsewhere the PCIe controller; a fault of a vital rail switches
the main rails off; one of any other rail is FAULT with cause 3; a leak asserts LEAK# with code 0x4012 until it is
cleared; a trained PCIe link sets FN_LINK. -/
def Obligations.PinsComplete : Prop :=
  ∀ (s : State) (mv : Nat) (recov : Bool) (r : Rail) (speed : BitVec 3) (width : BitVec 2),
    (s.mod.state = .off → 47000 ≤ mv → mv ≤ 58000 →
      exec (.powerPresent mv) s = .next { s with
        mod := { s.mod with state := .standby },
        phys := { s.phys with vin := mv, seat := true, inputOn := true, stbyOk := true } })
    ∧ (s.mod.state ≠ .off →
      exec .powerLost s = .next s.goOff ∧ exec .overvoltage s = .next s.goOff
      ∧ s.goOff.mod.state = .off ∧ s.goOff.now = 0 ∧ s.goOff.cores = [] ∧ s.goOff.phys.mainRails = false
      ∧ s.goOff.customs.fuseSvn = s.customs.fuseSvn ∧ s.goOff.log.units = s.log.units
      ∧ exec .mrst s = .next (s.powerCut true .standby)
      ∧ (s.powerCut true .standby).mod.state = .standby ∧ (s.powerCut true .standby).now = s.now
      ∧ (s.powerCut true .standby).cores = [] ∧ (s.powerCut true .standby).customs.fuseSvn = s.customs.fuseSvn)
    ∧ (s.mod.state = .standby →
      ∃ t, exec (.wake recov) s = .next t ∧ t.mod.state = .boot ∧ t.mod.bootStep = 1 ∧ t.now = s.now
        ∧ t.phys.mainRails = true ∧ t.cores = [] ∧ t.mod.recovStrap = recov)
    ∧ (s.mod.state = .run → s.barUp = true → exec .perst s = .next s.resetPf)
    ∧ (s.mod.state = .ready ∨ s.mod.state = .boot ∨ s.mod.state = .quiesce ∨ s.mod.state = .fault →
      exec .perst s = .next { s with mod := { s.mod with pcieDown := true } })
    ∧ (s.seraiOn = true →
      (railVital r = true →
        ∃ t, exec (.railFault r) s = .next t ∧ t.mod.state = .standby ∧ t.phys.mainRails = false ∧ t.cores = []
          ∧ t.phys.stbyOk = decide (r ≠ .vstby))
      ∧ (railVital r = false → s.clocked = true →
        ∃ t, exec (.railFault r) s = .next t ∧ t.mod.state = .fault ∧ t.mod.fault = 3
          ∧ t.phys.railsOff = railNumber r :: s.phys.railsOff ∧ t.cores = s.cores)
      ∧ (s.phys.leakN = false →
        exec .leakDetected s = .next (({ s with phys := { s.phys with leakN := true } }).logPhys 0x4012 scOk []))
      ∧ (speed.toNat ≤ 3 → width.toNat ≤ 2 →
        ∃ t, exec (.pcieLinkTrained speed width) s = .next t ∧ t.mod.pcieSpeed = speed ∧ t.mod.pcieWidth = width
          ∧ t.mod.pcieDown = false ∧ (s.mod.state = .boot → 3 ≤ t.mod.bootStep.toNat)
          ∧ t.mod.state = s.mod.state ∧ t.cores = s.cores ∧ t.host = s.host))
    ∧ (s.mod.state = .standby → s.phys.leakN = false →
      exec .leakDetected s = .next { s with phys := { s.phys with leakN := true } })
    ∧ exec .leakCleared s = .next { s with phys := { s.phys with leakN := false } }

/-- R373, R375 to R378, R428 to R430: BOOT_DONE locks UDS and takes the anchor whose HMAC verifies. With a strap, an
operator's release or an unreadable flash, or an image whose signature or SVN fails, the module is READY in recovery
mode, with code 0x0201 or 0x0202 for the image. An image that passes boots: a causeway that failed is FAULT with
cause 2; otherwise every stack that the report does not fail is READY, all of HBM3E reads zero, and the module is
READY outside recovery mode, with the image's SVN and its measurement in FWM. -/
def Obligations.BootComplete : Prop :=
  ∀ (s : State) (r : BootReport),
    let s1 := { s with
      mod := { s.mod with bootStep := 3 },
      customs := { s.customs with udsLocked := true, anchor := anchorOf s.customs.anchorFlash } }
    let image := s.mod.flash
    let sig := trailerOk image.trailer 1 fwAnchor image.body
    let good := s.mod.recovStrap = false ∧ r.recov = false ∧ r.flashOk = true
    s.mod.state = .boot → s.mod.recovery = false →
    (s.mod.recovStrap = true ∨ r.recov = true ∨ r.flashOk = false →
      ∃ t, exec (.bootDone r) s = .next t ∧ t.mod.state = .ready ∧ t.mod.recovery = true ∧ t.customs.recovery = true
        ∧ t.customs.udsLocked = true ∧ t.customs.anchor = anchorOf s.customs.anchorFlash
        ∧ t.free = s.free + 1 ∧ t.cores = s.cores ∧ t.mem = s.mem)
    ∧ (good → s.mod.flashValid = false ∨ sig = false →
      exec (.bootDone r) s = .next ((s1.logCus 0x0201 scSignature none []).enterRecovery scSignature))
    ∧ (good → s.mod.flashValid = true → sig = true → (imageSvn image).toNat < s.customs.fuseSvn →
      exec (.bootDone r) s = .next ((s1.logCus 0x0202 scIllegal none []).enterRecovery scIllegal))
    ∧ (good → s.mod.flashValid = true → sig = true → s.customs.fuseSvn ≤ (imageSvn image).toNat →
      ∃ t, exec (.bootDone r) s = .next t
        ∧ t.customs.fwSvn = imageSvn image ∧ t.customs.fwm = Config.sha384 image.body ∧ t.customs.udsLocked = true
        ∧ t.customs.anchor = anchorOf s.customs.anchorFlash ∧ t.mod.recovery = false
        ∧ (r.causewayOk = false → t.mod.state = .fault ∧ t.mod.fault = 2)
        ∧ (r.causewayOk = true → t.mod.state = .ready ∧ t.mod.bootStep = 8 ∧ t.mem.hbm = []
          ∧ ∀ n, n < 12 → n ∉ r.failedStacks → (t.die n).hbm.ready = true))

/-! The machine. -/

/-- The queue is first in, first out: a step of a state with a command in front is that command's effect with the
rest waiting; a step of an empty queue is one cycle of TIME_NOW's clock (the model's choice: log entry 3). -/
def Obligations.StepRunsFront : Prop :=
  ∀ (s : State) (c : Instr) (cs : List Instr),
    step { s with pending := c :: cs } = exec c { s with pending := cs }
    ∧ step { s with pending := [] } = .next (tick { s with pending := [] })

/-- Every command has an effect, whatever the state: none ends in a fault or a refusal, and none touches the queue,
takes a free value back or leaves the memories out of canonical form. -/
def Obligations.EveryCommandCompletes : Prop :=
  ∀ (c : Instr) (s : State), ∃ t, exec c s = .next t ∧ t.pending = s.pending ∧ s.free ≤ t.free
    ∧ (s.mem.wf = true → t.mem.wf = true)

/-- Right after reset the memories are in canonical form, the SVN fuses within their 64, and the logbook within its
room. The queue is empty (the model's choice: log entry 3). Table 8.9: every link has a grace of 10 ms, honours PFC
on all priorities, generates it on 0 to 3, and has a watchdog limit of 100 ms and a recovery time of 10 ms. Tables
12.6 and 12.8: the budget and the limit in force are 1,200 W, no link is upstream, and PTP is taken. R193: all
twelve stacks, and all four positions, are in group 0, and every other group is invalid. Table 14.14: the PF has 64
queues and a VF none, and a queue's interrupts are enabled. -/
def Obligations.ResetIsSafe : Prop :=
  let s := State.reset
  s.Safe ∧ s.pending = []
  ∧ (∀ l, let x := s.link l
      x.graceMs = 10 ∧ x.pfcRxEn = 0xFF ∧ x.pfcTxEn = 0xF ∧ x.limitMs = 100 ∧ x.recoverMs = 10)
  ∧ s.pwr.budget = 1200 ∧ s.pwr.eff = 1200 ∧ s.time.uplink = 63 ∧ s.time.hops = 63 ∧ s.time.ptpEn = true
  ∧ s.mem.hgrps = [(0, { set := 0xFFF, base := 0, size := 36, off := 0 })]
  ∧ s.mem.cgrps = [(0, { set := 0xF, base := 0, size := 16, off := 0 })]
  ∧ (s.fn 0).qmax = 64 ∧ (∀ f, 1 ≤ f → (s.fn f).qmax = 0) ∧ ∀ f q, (s.queue f q).ien = true

/-- Every step of a safe state, whatever command is in front, answers a safe state (R376, R446, R451; the canonical
form of memory is the model's own). -/
def Obligations.StepKeepsSafe : Prop := ∀ (s t : State), s.Safe → step s = .next t → t.Safe

/-- R376: fusing can never be undone: no step, whatever command is in front, lowers the fused SVN. -/
def Obligations.FusesNeverUndone : Prop :=
  ∀ (s t : State), step s = .next t → s.customs.fuseSvn ≤ t.customs.fuseSvn

/-- R189 to R192, R199: a byte stored reads back as it was stored, and every other byte of every memory reads as
before, for whichever core it is read. The canonical form of the memories is the model's own, and a stored byte
keeps it. R190, R207, R209, R212: stores of core `p` for a partition leave every byte of every memory but those that
they name as it was, for whichever core it is read; and a store that meets no FAILED channel or stack and no word in
error puts each of its bytes where it names it. -/
def Obligations.BytesReadBack : Prop :=
  (∀ (s : State) (p k a b : Nat) (v : Byte),
     s.mem.wf = true → s.localWf = true →
     ((s.cell p a).isSome = true → (s.setByte p a v).byteAt p a = v)
     ∧ (s.cell p a = none ∨ s.cell k b ≠ s.cell p a → (s.setByte p a v).byteAt k b = s.byteAt k b)
     ∧ (s.setByte p a v).mem.wf = true ∧ (s.setByte p a v).localWf = true)
  ∧ (∀ (s : State) (p : Nat) (part : Option Nat),
       (∀ (ws : List (Nat × List Byte)) (k b : Nat),
         (∀ e ∈ ws, ∀ i, i < e.2.length → s.cell p (e.1 + i) = none ∨ s.cell p (e.1 + i) ≠ s.cell k b) →
         (s.stores p part ws).1.byteAt k b = s.byteAt k b)
       ∧ (∀ (a : Nat) (d : List Byte), s.mem.wf = true → s.localWf = true →
         s.failedChan a d.length = none → s.failedStack a d.length = false →
         (∀ u ∈ unitsOf a d.length, ∀ i, i < 8 → s.markAt p (u + 4 * i) = 0) →
         (∀ i, i < d.length → (s.cell p (a + i)).isSome = true) →
         (∀ i j, i < j → j < d.length → s.cell p (a + i) ≠ s.cell p (a + j)) →
         (s.store p part a d).2 = false
         ∧ ∀ i, i < d.length → (s.store p part a d).1.byteAt p (a + i) = d.getD i 0))
end

