-- ==== Sys2Proof/Laws/Keeps.lean ====
section
/-!
SUPPORT. What no operation of the model ever does to the queue, the free values, the fused SVN and the
canonical form of the memories (`Keeps`), and that the memories' own operations keep it.
-/

namespace Sys2Proof.Machine

set_option Elab.async false
set_option linter.unusedTactic false
set_option linter.unusedSimpArgs false
set_option linter.unreachableTactic false

/-! Tables. -/

theorem tabRising_mono {α : Type} (t : Tab α) (a b : Nat) (h : a ≤ b) (hb : tabRising b t = true) :
    tabRising a t = true := by
  cases t with
  | nil => rfl
  | cons e t =>
    simp only [tabRising, Bool.and_eq_true, decide_eq_true_eq] at hb ⊢
    exact ⟨Nat.le_trans h hb.1, hb.2⟩

theorem tabPut_rising {α : Type} [DecidableEq α] (d : α) (t : Tab α) (k : Nat) (v : α) (lo : Nat)
    (hk : lo ≤ k) (h : tabRising lo t = true) : tabRising lo (tabPut d t k v) = true := by
  induction t generalizing lo with
  | nil => by_cases hv : v = d <;> simp [tabPut, tabRising, hv, hk]
  | cons e t ih =>
    obtain ⟨j, w⟩ := e
    simp only [tabRising, Bool.and_eq_true, decide_eq_true_eq] at h
    unfold tabPut
    by_cases h1 : k < j
    · by_cases hv : v = d
      · simp [h1, hv, tabRising, h.1, h.2]
      · have : k + 1 ≤ j := h1
        simp [h1, hv, tabRising, hk, h.2, this]
    · by_cases h2 : k = j
      · subst h2
        by_cases hv : v = d
        · simp only [hv, Nat.lt_irrefl, if_false, if_true]
          exact tabRising_mono t lo (k + 1) (by omega) h.2
        · simp [hv, tabRising, hk, h.2]
      · simp only [h1, h2, if_false, tabRising, Bool.and_eq_true, decide_eq_true_eq]
        exact ⟨h.1, ih (j + 1) (by omega) h.2⟩

theorem tabPut_all {α : Type} [DecidableEq α] (d : α) (p : Nat × α → Bool) (t : Tab α) (k : Nat) (v : α)
    (hv : v ≠ d → p (k, v) = true) (h : t.all p = true) : (tabPut d t k v).all p = true := by
  induction t with
  | nil =>
    by_cases e : v = d
    · simp [tabPut, e]
    · simp [tabPut, e, hv e]
  | cons e t ih =>
    obtain ⟨j, w⟩ := e
    simp only [List.all_cons, Bool.and_eq_true] at h
    unfold tabPut
    by_cases h1 : k < j
    · by_cases e : v = d
      · simpa [h1, e] using h
      · have h3 := hv e
        simp only [h1, e, if_true, if_false, List.all_cons, Bool.and_eq_true]
        exact ⟨h3, h.1, h.2⟩
    · by_cases h2 : k = j
      · by_cases e : v = d
        · subst h2
          simpa [e] using h.2
        · have h3 := hv e
          subst h2
          simp only [Nat.lt_irrefl, e, if_true, if_false, List.all_cons, Bool.and_eq_true]
          exact ⟨h3, h.2⟩
      · simp only [h1, h2, if_false, List.all_cons, Bool.and_eq_true]
        exact ⟨h.1, ih h.2⟩

/-- A write keeps a table's canonical form. -/
theorem tabPut_wf {α : Type} [DecidableEq α] (d : α) (t : Tab α) (k : Nat) (v : α) (h : tabWf d t = true) :
    tabWf d (tabPut d t k v) = true := by
  simp only [tabWf, Bool.and_eq_true] at h ⊢
  exact ⟨tabPut_rising d t k v 0 (Nat.zero_le k) h.1,
    tabPut_all d _ t k v (fun hv => by simpa using hv) h.2⟩

theorem tabFilter_rising {α : Type} (p : Nat × α → Bool) (t : Tab α) (lo : Nat) (h : tabRising lo t = true) :
    tabRising lo (t.filter p) = true := by
  induction t generalizing lo with
  | nil => rfl
  | cons e t ih =>
    obtain ⟨j, w⟩ := e
    simp only [tabRising, Bool.and_eq_true, decide_eq_true_eq] at h
    by_cases hp : p (j, w) = true
    · simp only [List.filter, hp, tabRising, Bool.and_eq_true, decide_eq_true_eq]
      exact ⟨h.1, ih (j + 1) h.2⟩
    · simp only [List.filter, hp]
      exact ih lo (tabRising_mono t lo (j + 1) (by omega) h.2)

/-- Entries taken out leave a table in canonical form. -/
theorem tabDrop_wf {α : Type} [DecidableEq α] (d : α) (t : Tab α) (f : Nat → Bool) (h : tabWf d t = true) :
    tabWf d (tabDrop t f) = true := by
  simp only [tabWf, Bool.and_eq_true] at h ⊢
  refine ⟨tabFilter_rising _ t 0 h.1, ?_⟩
  have h2 := h.2
  simp only [List.all_eq_true, tabDrop, List.mem_filter] at h2 ⊢
  exact fun e he => h2 e he.1

/-- A write of one table entry reads back; the default when it is not listed. -/
theorem tabGet_tabPut {α : Type} [DecidableEq α] (d : α) (t : Tab α) (k : Nat) (v : α) (i lo : Nat)
    (h : tabRising lo t = true) (hk : lo ≤ k) :
    tabGet d (tabPut d t k v) i = if i = k then v else tabGet d t i := by
  have low : ∀ (u : Tab α) (m : Nat), tabRising m u = true → ∀ i, i < m → tabGet d u i = d := by
    intro u
    induction u with
    | nil => intros; rfl
    | cons e u ih =>
      obtain ⟨j, w⟩ := e
      intro m hm i hi
      simp only [tabRising, Bool.and_eq_true, decide_eq_true_eq] at hm
      have : i ≠ j := by omega
      simp only [tabGet, this, if_false]
      exact ih (j + 1) hm.2 i (by omega)
  induction t generalizing lo with
  | nil =>
    by_cases e : v = d <;> by_cases ei : i = k <;> simp [tabPut, tabGet, e, ei]
  | cons e t ih =>
    obtain ⟨j, w⟩ := e
    simp only [tabRising, Bool.and_eq_true, decide_eq_true_eq] at h
    unfold tabPut
    by_cases h1 : k < j
    · by_cases e : v = d
      · by_cases ei : i = k
        · subst ei
          have hne : i ≠ j := by omega
          simp only [h1, e, if_true, tabGet, hne, if_false]
          exact low t (j + 1) h.2 i (by omega)
        · simp [h1, e, ei]
      · by_cases ei : i = k
        · simp [h1, e, ei, tabGet]
        · simp [h1, e, ei, tabGet]
    · by_cases h2 : k = j
      · subst h2
        by_cases e : v = d
        · by_cases ei : i = k
          · subst ei
            simp only [Nat.lt_irrefl, e, if_true, if_false]
            exact low t (i + 1) h.2 i (by omega)
          · simp [e, ei, tabGet]
        · by_cases ei : i = k <;> simp [e, ei, tabGet]
      · simp only [h1, h2, if_false, tabGet]
        by_cases ej : i = j
        · subst ej
          have : i ≠ k := fun h => h2 h.symm
          simp [this]
        · simp only [ej, if_false]
          exact ih (j + 1) h.2 (by omega)

/-! Memories. -/

/-- Unfolded canonical form. -/
theorem Memory.wf_iff (m : Memory) : m.wf = true ↔
    tabWf 0 m.hbm = true ∧ tabWf 0 m.hbmErr = true ∧ tabRising 0 m.cis = true
      ∧ m.cis.all (fun e => decide (e.2 ≠ m.cisDefault e.1)) = true ∧ tabWf 0 m.cisErr = true := by
  simp only [Memory.wf, Bool.and_eq_true, and_assoc]

theorem Memory.wf_congr {m m' : Memory} (h1 : m.hbm = m'.hbm) (h2 : m.hbmErr = m'.hbmErr)
    (h3 : m.cis = m'.cis) (h4 : m.cisErr = m'.cisErr) (h5 : m.cisScrubs = m'.cisScrubs) : m.wf = m'.wf := by
  have hd : m.cisDefault = m'.cisDefault := by
    funext k
    simp [Memory.cisDefault, h5]
  simp [Memory.wf, h1, h2, h3, h4, hd]

theorem Memory.setHbm_wf (m : Memory) (k : Nat) (v : Byte) (h : m.wf = true) : (m.setHbm k v).wf = true := by
  rw [Memory.wf_iff] at h ⊢
  exact ⟨tabPut_wf 0 _ _ _ h.1, h.2.1, h.2.2.1, h.2.2.2.1, h.2.2.2.2⟩

theorem Memory.setCis_wf (m : Memory) (k : Nat) (v : Byte) (h : m.wf = true) : (m.setCis k v).wf = true := by
  rw [Memory.wf_iff] at h ⊢
  refine ⟨h.1, h.2.1, tabPut_rising _ _ _ _ 0 (Nat.zero_le k) h.2.2.1, ?_, h.2.2.2.2⟩
  exact tabPut_all (m.cisDefault k) (fun e => decide (e.2 ≠ m.cisDefault e.1)) _ _ _
    (fun hv => decide_eq_true hv) h.2.2.2.1

theorem Memory.cisDefault_cons (m : Memory) (c : CisScrub) (k : Nat) (m' : Memory)
    (hm : m'.cisScrubs = c :: m.cisScrubs) (hc : c.covers k = false) : m'.cisDefault k = m.cisDefault k := by
  simp [Memory.cisDefault, hm, hc]

/-- The cistern after a scrub, without the entries that it covers. -/
theorem cis_scrub_all (m m' : Memory) (c : CisScrub) (hm : m'.cisScrubs = c :: m.cisScrubs)
    (h : m.cis.all (fun e => decide (e.2 ≠ m.cisDefault e.1)) = true) :
    (tabDrop m.cis c.covers).all (fun e => decide (e.2 ≠ m'.cisDefault e.1)) = true := by
  simp only [List.all_eq_true, tabDrop, List.mem_filter, decide_eq_true_eq] at h ⊢
  intro e he
  have hc : c.covers e.1 = false := by simpa using he.2
  rw [Memory.cisDefault_cons m c e.1 m' hm hc]
  exact h e he.1

theorem Memory.reassign_wf (m : Memory) (hg cg : Tab Group) (was will : List (Nat × Nat × Nat)) (h : m.wf = true) :
    (m.reassign hg cg was will).wf = true := by
  rw [Memory.wf_iff] at h ⊢
  refine ⟨?_, ?_, tabFilter_rising _ _ 0 h.2.2.1, cis_scrub_all m _ _ rfl h.2.2.2.1, ?_⟩
  · simp only [Memory.reassign]
    exact tabDrop_wf 0 m.hbm _ h.1
  · simp only [Memory.reassign]
    exact tabDrop_wf 0 m.hbmErr _ h.2.1
  · simp only [Memory.reassign]
    exact tabDrop_wf 0 m.cisErr _ h.2.2.2.2

/-! Logbook. -/

theorem tabSet_all {α : Type} (p : Nat × α → Bool) (t : Tab α) (k : Nat) (v : α) (hv : p (k, v) = true)
    (h : t.all p = true) : (tabSet t k v).all p = true := by
  induction t with
  | nil => simpa [tabSet] using hv
  | cons e t ih =>
    obtain ⟨j, w⟩ := e
    simp only [List.all_cons, Bool.and_eq_true] at h
    unfold tabSet
    split
    · simp only [List.all_cons, Bool.and_eq_true]
      exact ⟨hv, h.1, h.2⟩
    · split
      · simp only [List.all_cons, Bool.and_eq_true]
        exact ⟨hv, h.2⟩
      · simp only [List.all_cons, Bool.and_eq_true]
        exact ⟨h.1, ih h.2⟩

theorem Logbook.commit_fits (l : Logbook) (ring : Nat) (e : LogEntry) (h : l.fits = true) :
    (l.commit ring e).fits = true := by
  simp only [Logbook.fits, Bool.and_eq_true, decide_eq_true_eq] at h
  have hr : (tabMod {} l.rings ring (fun r => r.commit (ringCap ring) e)).all
      (fun e => decide (e.2.entries.length ≤ ringCap e.1)) = true := by
    refine tabSet_all _ _ _ _ ?_ h.1
    simp only [LogRing.commit, List.length_take, decide_eq_true_eq]
    exact Nat.min_le_left _ _
  unfold Logbook.commit
  dsimp only
  split
  · rename_i hlt
    simp only [Logbook.fits, hr, Bool.true_and, decide_eq_true_eq, List.length_append, List.length_cons,
      List.length_nil]
    exact hlt
  · simp only [Logbook.fits, hr, Bool.true_and, decide_eq_true_eq]
    exact h.2

theorem Logbook.write_fits (l : Logbook) (ring : Nat) (e : LogEntry) (args : List Word) (h : l.fits = true) :
    (l.write ring e args).fits = true := by
  unfold Logbook.write
  split
  · exact Logbook.commit_fits _ _ _ h
  · split
    · exact Logbook.commit_fits _ _ _ h
    · exact Logbook.commit_fits _ _ _ (Logbook.commit_fits _ _ _ h)

theorem Logbook.fits_congr {l m : Logbook} (hr : l.rings = m.rings) (hs : l.staging = m.staging)
    (h : m.fits = true) : l.fits = true := by
  simpa only [Logbook.fits, hr, hs] using h

/-! Keeps. -/

/-- What every operation keeps from `s` to `t`: the queue is untouched, free values are only used up, the fused
SVN never falls and stays at most 64 (R376), the memories keep their canonical form, and the logbook holds no
more than it has room for (R446, R451). -/
structure Keeps (s t : State) : Prop where
  pending : t.pending = s.pending
  free : s.free ≤ t.free
  fuse : s.customs.fuseSvn ≤ t.customs.fuseSvn
  fuseMax : s.customs.fuseSvn ≤ 64 → t.customs.fuseSvn ≤ 64
  mem : s.mem.wf = true → t.mem.wf = true
  log : s.log.fits = true → t.log.fits = true

theorem Keeps.refl (s : State) : Keeps s s := ⟨rfl, Nat.le_refl _, Nat.le_refl _, id, id, id⟩

theorem Keeps.trans {s t u : State} (h : Keeps s t) (g : Keeps t u) : Keeps s u :=
  ⟨g.pending.trans h.pending, Nat.le_trans h.free g.free, Nat.le_trans h.fuse g.fuse,
    fun x => g.fuseMax (h.fuseMax x), fun x => g.mem (h.mem x), fun x => g.log (h.log x)⟩

theorem Keeps.ite {s a b : State} {c : Prop} [Decidable c] (ha : Keeps s a) (hb : Keeps s b) :
    Keeps s (if c then a else b) := by
  split
  · exact ha
  · exact hb

theorem Keeps.fstIte {α : Type} {s : State} {a b : State × α} {c : Prop} [Decidable c] (ha : Keeps s a.1)
    (hb : Keeps s b.1) : Keeps s (if c then a else b).1 := by
  split
  · exact ha
  · exact hb

/-- An update of fields that `Keeps` does not speak of. -/
theorem Keeps.mk_eq {s : State} (t : State) {x2 x3 x4 x5 x6 x7 x8 x9 x10 x11 x12 x13 x14 x15 x16 x17 x18 x19
    x20 x21 x22 x23 x24 x25 x26 x27 x28 x29 x30 x31 x32 x33 x34 x35}
    (hr : x5.rings = t.log.rings) (hg : x5.staging = t.log.staging)
    (hs : x27.fuseSvn = t.customs.fuseSvn) (h1 : x8.hbm = t.mem.hbm) (h2 : x8.hbmErr = t.mem.hbmErr)
    (h3 : x8.cis = t.mem.cis) (h4 : x8.cisErr = t.mem.cisErr) (h5 : x8.cisScrubs = t.mem.cisScrubs) :
    Keeps s (State.mk t.pending t.free x2 x3 x4 x5 x6 x7 x8 x9 x10 x11 x12 x13 x14 x15 x16 x17 x18 x19 x20
    x21 x22 x23 x24 x25 x26 x27 x28 x29 x30 x31 x32 x33 x34 x35) = Keeps s t := by
  have hw : x8.wf = t.mem.wf := Memory.wf_congr h1 h2 h3 h4 h5
  have hl : x5.fits = t.log.fits := by simp only [Logbook.fits, hr, hg]
  apply propext
  constructor
  · intro h
    exact ⟨h.pending, h.free, hs ▸ h.fuse, fun x => hs ▸ h.fuseMax x, fun x => hw.symm.trans (h.mem x),
      fun x => hl.symm.trans (h.log x)⟩
  · intro h
    exact ⟨h.pending, h.free, hs ▸ h.fuse, fun x => hs ▸ h.fuseMax x, fun x => hw.trans (h.mem x),
      fun x => hl.trans (h.log x)⟩

theorem Keeps.foldPair {α β : Type} {s : State} (l : List α) (g : State × β → α → State × β) (a : State × β)
    (h : Keeps s a.1) (hg : ∀ p x, Keeps s p.1 → Keeps s (g p x).1) : Keeps s (l.foldl g a).1 := by
  induction l generalizing a with
  | nil => exact h
  | cons x l ih => exact ih (g a x) (hg a x h)

theorem Keeps.fold {α : Type} {s : State} (l : List α) (g : State → α → State) (a : State)
    (h : Keeps s a) (hg : ∀ p x, Keeps s p → Keeps s (g p x)) : Keeps s (l.foldl g a) := by
  induction l generalizing a with
  | nil => exact h
  | cons x l ih => exact ih (g a x) (hg a x h)

theorem Keeps.setLog {s₀ s : State} (h : Keeps s₀ s) (l : Logbook) (hl : s.log.fits = true → l.fits = true) :
    Keeps s₀ { s with log := l } :=
  h.trans ⟨rfl, Nat.le_refl _, Nat.le_refl _, id, id, hl⟩

theorem Keeps.setMem {s₀ s : State} (h : Keeps s₀ s) (m : Memory) (hm : s.mem.wf = true → m.wf = true) :
    Keeps s₀ { s with mem := m } :=
  h.trans ⟨rfl, Nat.le_refl _, Nat.le_refl _, id, hm, id⟩

end Sys2Proof.Machine
end

