-- ==== Sys2Proof/Laws/KeepsBase.lean ====
section
/-!
SUPPORT. `Keeps` for the operations of the accessors, the logbooks, completions, the memories, cores and partitions.
-/

namespace Sys2Proof.Machine

set_option Elab.async false
set_option linter.unusedTactic false
set_option linter.unusedSimpArgs false
set_option linter.unreachableTactic false

theorem State.setFn_keeps {s₀ s : State} (f : Nat) (x2 : Fn) (h : Keeps s₀ s) :
    Keeps s₀ (State.setFn s f x2) := by
  unfold State.setFn
  repeat' first
    | with_reducible assumption | intro _ | extract_lets | with_reducible apply Keeps.ite
    | with_reducible apply Keeps.fstIte | with_reducible apply Keeps.foldPair | with_reducible apply Keeps.fold
    | simp only [Keeps.mk_eq] | split | simp +zetaDelta only [Keeps.mk_eq]

theorem State.modFn_keeps {s₀ s : State} (f : Nat) (g : Fn → Fn) (h : Keeps s₀ s) :
    Keeps s₀ (State.modFn s f g) := by
  unfold State.modFn
  repeat' first
    | with_reducible assumption | intro _ | extract_lets | with_reducible apply State.setFn_keeps
    | with_reducible apply Keeps.ite | with_reducible apply Keeps.fstIte | with_reducible apply Keeps.foldPair
    | with_reducible apply Keeps.fold | simp only [Keeps.mk_eq] | split | simp +zetaDelta only [Keeps.mk_eq]

theorem State.setQueue_keeps {s₀ s : State} (f : Nat) (q : Nat) (y : Queue) (h : Keeps s₀ s) :
    Keeps s₀ (State.setQueue s f q y) := by
  unfold State.setQueue
  repeat' first
    | with_reducible assumption | intro _ | extract_lets | with_reducible apply State.modFn_keeps
    | with_reducible apply Keeps.ite | with_reducible apply Keeps.fstIte | with_reducible apply Keeps.foldPair
    | with_reducible apply Keeps.fold | simp only [Keeps.mk_eq] | split | simp +zetaDelta only [Keeps.mk_eq]

theorem State.modQueue_keeps {s₀ s : State} (f : Nat) (q : Nat) (g : Queue → Queue) (h : Keeps s₀ s) :
    Keeps s₀ (State.modQueue s f q g) := by
  unfold State.modQueue
  repeat' first
    | with_reducible assumption | intro _ | extract_lets | with_reducible apply State.setQueue_keeps
    | with_reducible apply Keeps.ite | with_reducible apply Keeps.fstIte | with_reducible apply Keeps.foldPair
    | with_reducible apply Keeps.fold | simp only [Keeps.mk_eq] | split | simp +zetaDelta only [Keeps.mk_eq]

theorem State.setCore_keeps {s₀ s : State} (p : Nat) (c : Core) (h : Keeps s₀ s) :
    Keeps s₀ (State.setCore s p c) := by
  unfold State.setCore
  repeat' first
    | with_reducible assumption | intro _ | extract_lets | with_reducible apply Keeps.ite
    | with_reducible apply Keeps.fstIte | with_reducible apply Keeps.foldPair | with_reducible apply Keeps.fold
    | simp only [Keeps.mk_eq] | split | simp +zetaDelta only [Keeps.mk_eq]

theorem State.modCore_keeps {s₀ s : State} (p : Nat) (g : Core → Core) (h : Keeps s₀ s) :
    Keeps s₀ (State.modCore s p g) := by
  unfold State.modCore
  repeat' first
    | with_reducible assumption | intro _ | extract_lets | with_reducible apply State.setCore_keeps
    | with_reducible apply Keeps.ite | with_reducible apply Keeps.fstIte | with_reducible apply Keeps.foldPair
    | with_reducible apply Keeps.fold | simp only [Keeps.mk_eq] | split | simp +zetaDelta only [Keeps.mk_eq]

theorem State.setDie_keeps {s₀ s : State} (n : Nat) (d : Die) (h : Keeps s₀ s) :
    Keeps s₀ (State.setDie s n d) := by
  unfold State.setDie
  repeat' first
    | with_reducible assumption | intro _ | extract_lets | with_reducible apply Keeps.ite
    | with_reducible apply Keeps.fstIte | with_reducible apply Keeps.foldPair | with_reducible apply Keeps.fold
    | simp only [Keeps.mk_eq] | split | simp +zetaDelta only [Keeps.mk_eq]

theorem State.modDie_keeps {s₀ s : State} (n : Nat) (g : Die → Die) (h : Keeps s₀ s) :
    Keeps s₀ (State.modDie s n g) := by
  unfold State.modDie
  repeat' first
    | with_reducible assumption | intro _ | extract_lets | with_reducible apply State.setDie_keeps
    | with_reducible apply Keeps.ite | with_reducible apply Keeps.fstIte | with_reducible apply Keeps.foldPair
    | with_reducible apply Keeps.fold | simp only [Keeps.mk_eq] | split | simp +zetaDelta only [Keeps.mk_eq]

theorem State.setPart_keeps {s₀ s : State} (p : Nat) (x2 : Part) (h : Keeps s₀ s) :
    Keeps s₀ (State.setPart s p x2) := by
  unfold State.setPart
  repeat' first
    | with_reducible assumption | intro _ | extract_lets | with_reducible apply Keeps.ite
    | with_reducible apply Keeps.fstIte | with_reducible apply Keeps.foldPair | with_reducible apply Keeps.fold
    | simp only [Keeps.mk_eq] | split | simp +zetaDelta only [Keeps.mk_eq]

theorem State.modPart_keeps {s₀ s : State} (p : Nat) (g : Part → Part) (h : Keeps s₀ s) :
    Keeps s₀ (State.modPart s p g) := by
  unfold State.modPart
  repeat' first
    | with_reducible assumption | intro _ | extract_lets | with_reducible apply State.setPart_keeps
    | with_reducible apply Keeps.ite | with_reducible apply Keeps.fstIte | with_reducible apply Keeps.foldPair
    | with_reducible apply Keeps.fold | simp only [Keeps.mk_eq] | split | simp +zetaDelta only [Keeps.mk_eq]

theorem State.modMs_keeps {s₀ s : State} (p : Nat) (g : Milestones → Milestones) (h : Keeps s₀ s) :
    Keeps s₀ (State.modMs s p g) := by
  unfold State.modMs
  repeat' first
    | with_reducible assumption | intro _ | extract_lets | with_reducible apply State.modPart_keeps
    | with_reducible apply Keeps.ite | with_reducible apply Keeps.fstIte | with_reducible apply Keeps.foldPair
    | with_reducible apply Keeps.fold | simp only [Keeps.mk_eq] | split | simp +zetaDelta only [Keeps.mk_eq]

theorem State.modCis_keeps {s₀ s : State} (m : Nat) (g : CisDie → CisDie) (h : Keeps s₀ s) :
    Keeps s₀ (State.modCis s m g) := by
  unfold State.modCis
  repeat' first
    | with_reducible assumption | intro _ | extract_lets | with_reducible apply Keeps.ite
    | with_reducible apply Keeps.fstIte | with_reducible apply Keeps.foldPair | with_reducible apply Keeps.fold
    | simp only [Keeps.mk_eq] | split | simp +zetaDelta only [Keeps.mk_eq]

theorem eachDo_keeps {α : Type} {s₀ s : State} (l : List α) (g : α → State → State)
    (hg : ∀ a t, Keeps s₀ t → Keeps s₀ (g a t)) (h : Keeps s₀ s) : Keeps s₀ (eachDo l g s) :=
  Keeps.fold l _ s h (fun t a ht => hg a t ht)

theorem State.useFree_keeps {s₀ s : State} (h : Keeps s₀ s) : Keeps s₀ s.useFree :=
  h.trans ⟨rfl, Nat.le_succ _, Nat.le_refl _, id, id, id⟩

theorem State.takeGap_keeps {s₀ s : State} (x1 : LogSrc) (h : Keeps s₀ s) :
    Keeps s₀ (State.takeGap s x1) := by
  unfold State.takeGap
  repeat' first
    | with_reducible assumption | intro _ | extract_lets | with_reducible apply State.modCore_keeps
    | with_reducible apply State.modDie_keeps | with_reducible apply Keeps.ite
    | with_reducible apply Keeps.fstIte | with_reducible apply Keeps.foldPair | with_reducible apply Keeps.fold
    | simp only [Keeps.mk_eq] | split | simp +zetaDelta only [Keeps.mk_eq]

theorem State.logAt_keeps {s₀ s : State} (src : LogSrc) (code : Nat) (status : Nat) (part : Option Nat)
    (args : List Word) (snaps : List Word) (h : Keeps s₀ s) : Keeps s₀ (s.logAt src code status part args snaps)
    := by
  unfold State.logAt
  dsimp only
  split
  · refine State.takeGap_keeps _ (h.setLog _ (fun hl => ?_))
    exact Logbook.write_fits _ _ _ _ hl
  · exact h.setLog _ (fun hl => hl)

theorem State.logSerai_keeps {s₀ s : State} (code : Nat) (status : Nat) (part : Option Nat) (args : List Word)
    (h : Keeps s₀ s) :
    Keeps s₀ (State.logSerai s code status part args) := by
  unfold State.logSerai
  repeat' first
    | with_reducible assumption | intro _ | extract_lets | with_reducible apply State.logAt_keeps
    | with_reducible apply Keeps.ite | with_reducible apply Keeps.fstIte | with_reducible apply Keeps.foldPair
    | with_reducible apply Keeps.fold | simp only [Keeps.mk_eq] | split | simp +zetaDelta only [Keeps.mk_eq]

theorem State.logPcie_keeps {s₀ s : State} (code : Nat) (status : Nat) (f : Nat) (q : Nat) (args : List Word)
    (h : Keeps s₀ s) :
    Keeps s₀ (State.logPcie s code status f q args) := by
  unfold State.logPcie
  repeat' first
    | with_reducible assumption | intro _ | extract_lets | with_reducible apply State.logAt_keeps
    | with_reducible apply Keeps.ite | with_reducible apply Keeps.fstIte | with_reducible apply Keeps.foldPair
    | with_reducible apply Keeps.fold | simp only [Keeps.mk_eq] | split | simp +zetaDelta only [Keeps.mk_eq]

theorem State.logCore_keeps {s₀ s : State} (p : Nat) (code : Nat) (status : Nat) (args : List Word)
    (h : Keeps s₀ s) :
    Keeps s₀ (State.logCore s p code status args) := by
  unfold State.logCore
  repeat' first
    | with_reducible assumption | intro _ | extract_lets | with_reducible apply State.logAt_keeps
    | with_reducible apply Keeps.ite | with_reducible apply Keeps.fstIte | with_reducible apply Keeps.foldPair
    | with_reducible apply Keeps.fold | simp only [Keeps.mk_eq] | split | simp +zetaDelta only [Keeps.mk_eq]

theorem State.logPart_keeps {s₀ s : State} (q : Nat) (code : Nat) (status : Nat) (who : Option Nat)
    (h : Keeps s₀ s) :
    Keeps s₀ (State.logPart s q code status who) := by
  unfold State.logPart
  repeat' first
    | with_reducible assumption | intro _ | extract_lets | with_reducible apply State.logAt_keeps
    | with_reducible apply Keeps.ite | with_reducible apply Keeps.fstIte | with_reducible apply Keeps.foldPair
    | with_reducible apply Keeps.fold | simp only [Keeps.mk_eq] | split | simp +zetaDelta only [Keeps.mk_eq]

theorem State.logMs_keeps {s₀ s : State} (q : Nat) (code : Nat) (status : Nat) (o : Option Nat) (args : List Word)
    (h : Keeps s₀ s) :
    Keeps s₀ (State.logMs s q code status o args) := by
  unfold State.logMs
  repeat' first
    | with_reducible assumption | intro _ | extract_lets | with_reducible apply State.logAt_keeps
    | with_reducible apply Keeps.ite | with_reducible apply Keeps.fstIte | with_reducible apply Keeps.foldPair
    | with_reducible apply Keeps.fold | simp only [Keeps.mk_eq] | split | simp +zetaDelta only [Keeps.mk_eq]

theorem State.logHbm_keeps {s₀ s : State} (n : Nat) (code : Nat) (status : Nat) (part : Option Nat)
    (args : List Word) (h : Keeps s₀ s) :
    Keeps s₀ (State.logHbm s n code status part args) := by
  unfold State.logHbm
  repeat' first
    | with_reducible assumption | intro _ | extract_lets | with_reducible apply State.logAt_keeps
    | with_reducible apply Keeps.ite | with_reducible apply Keeps.fstIte | with_reducible apply Keeps.foldPair
    | with_reducible apply Keeps.fold | simp only [Keeps.mk_eq] | split | simp +zetaDelta only [Keeps.mk_eq]

theorem State.logCis_keeps {s₀ s : State} (m : Nat) (code : Nat) (status : Nat) (part : Option Nat)
    (args : List Word) (h : Keeps s₀ s) :
    Keeps s₀ (State.logCis s m code status part args) := by
  unfold State.logCis
  repeat' first
    | with_reducible assumption | intro _ | extract_lets | with_reducible apply State.logAt_keeps
    | with_reducible apply Keeps.ite | with_reducible apply Keeps.fstIte | with_reducible apply Keeps.foldPair
    | with_reducible apply Keeps.fold | simp only [Keeps.mk_eq] | split | simp +zetaDelta only [Keeps.mk_eq]

theorem State.logPower_keeps {s₀ s : State} (d : Nat) (code : Nat) (status : Nat) (args : List Word)
    (h : Keeps s₀ s) :
    Keeps s₀ (State.logPower s d code status args) := by
  unfold State.logPower
  repeat' first
    | with_reducible assumption | intro _ | extract_lets | with_reducible apply State.logAt_keeps
    | with_reducible apply Keeps.ite | with_reducible apply Keeps.fstIte | with_reducible apply Keeps.foldPair
    | with_reducible apply Keeps.fold | simp only [Keeps.mk_eq] | split | simp +zetaDelta only [Keeps.mk_eq]

theorem State.logTime_keeps {s₀ s : State} (code : Nat) (status : Nat) (args : List Word) (h : Keeps s₀ s) :
    Keeps s₀ (State.logTime s code status args) := by
  unfold State.logTime
  repeat' first
    | with_reducible assumption | intro _ | extract_lets | with_reducible apply State.logAt_keeps
    | with_reducible apply Keeps.ite | with_reducible apply Keeps.fstIte | with_reducible apply Keeps.foldPair
    | with_reducible apply Keeps.fold | simp only [Keeps.mk_eq] | split | simp +zetaDelta only [Keeps.mk_eq]

theorem State.logPhys_keeps {s₀ s : State} (code : Nat) (status : Nat) (args : List Word) (h : Keeps s₀ s) :
    Keeps s₀ (State.logPhys s code status args) := by
  unfold State.logPhys
  repeat' first
    | with_reducible assumption | intro _ | extract_lets | with_reducible apply State.logAt_keeps
    | with_reducible apply Keeps.ite | with_reducible apply Keeps.fstIte | with_reducible apply Keeps.foldPair
    | with_reducible apply Keeps.fold | simp only [Keeps.mk_eq] | split | simp +zetaDelta only [Keeps.mk_eq]

theorem State.logEngine_keeps {s₀ s : State} (n : Nat) (house : Bool) (code : Nat) (status : Nat)
    (args : List Word) (h : Keeps s₀ s) :
    Keeps s₀ (State.logEngine s n house code status args) := by
  unfold State.logEngine
  repeat' first
    | with_reducible assumption | intro _ | extract_lets | with_reducible apply State.logAt_keeps
    | with_reducible apply Keeps.ite | with_reducible apply Keeps.fstIte | with_reducible apply Keeps.foldPair
    | with_reducible apply Keeps.fold | simp only [Keeps.mk_eq] | split | simp +zetaDelta only [Keeps.mk_eq]

theorem State.hostWrite_keeps {s₀ s : State} (a : Nat) (bs : List Byte) (h : Keeps s₀ s) :
    Keeps s₀ (State.hostWrite s a bs) := by
  unfold State.hostWrite
  repeat' first
    | with_reducible assumption | intro _ | extract_lets | with_reducible apply Keeps.ite
    | with_reducible apply Keeps.fstIte | with_reducible apply Keeps.foldPair | with_reducible apply Keeps.fold
    | simp only [Keeps.mk_eq] | split | simp +zetaDelta only [Keeps.mk_eq]

theorem State.msix_keeps {s₀ s : State} (f : Nat) (v : Nat) (h : Keeps s₀ s) :
    Keeps s₀ (State.msix s f v) := by
  unfold State.msix
  repeat' first
    | with_reducible assumption | intro _ | extract_lets | with_reducible apply Keeps.ite
    | with_reducible apply Keeps.fstIte | with_reducible apply Keeps.foldPair | with_reducible apply Keeps.fold
    | simp only [Keeps.mk_eq] | split | simp +zetaDelta only [Keeps.mk_eq]

theorem State.msix0_keeps {s₀ s : State} (f : Nat) (h : Keeps s₀ s) : Keeps s₀ (State.msix0 s f) := by
  unfold State.msix0
  repeat' first
    | with_reducible assumption | intro _ | extract_lets | with_reducible apply State.msix_keeps
    | with_reducible apply Keeps.ite | with_reducible apply Keeps.fstIte | with_reducible apply Keeps.foldPair
    | with_reducible apply Keeps.fold | simp only [Keeps.mk_eq] | split | simp +zetaDelta only [Keeps.mk_eq]

theorem State.partChanged_keeps {s₀ s : State} (p : Nat) (h : Keeps s₀ s) :
    Keeps s₀ (State.partChanged s p) := by
  unfold State.partChanged
  repeat' first
    | with_reducible assumption | intro _ | extract_lets | with_reducible apply State.msix0_keeps
    | with_reducible apply Keeps.ite | with_reducible apply Keeps.fstIte | with_reducible apply Keeps.foldPair
    | with_reducible apply Keeps.fold | simp only [Keeps.mk_eq] | split | simp +zetaDelta only [Keeps.mk_eq]

theorem State.cqInterrupt_keeps {s₀ s : State} (f : Nat) (q : Nat) (h : Keeps s₀ s) :
    Keeps s₀ (State.cqInterrupt s f q) := by
  unfold State.cqInterrupt
  repeat' first
    | with_reducible assumption | intro _ | extract_lets | with_reducible apply State.msix_keeps
    | with_reducible apply State.setQueue_keeps | with_reducible apply Keeps.ite
    | with_reducible apply Keeps.fstIte | with_reducible apply Keeps.foldPair | with_reducible apply Keeps.fold
    | simp only [Keeps.mk_eq] | split | simp +zetaDelta only [Keeps.mk_eq]

theorem State.cqWrite_keeps {s₀ s : State} (f : Nat) (q : Nat) (e : Cqe) (h : Keeps s₀ s) :
    Keeps s₀ (State.cqWrite s f q e) := by
  unfold State.cqWrite
  repeat' first
    | with_reducible assumption | intro _ | extract_lets | with_reducible apply State.hostWrite_keeps
    | with_reducible apply State.cqInterrupt_keeps | with_reducible apply State.setQueue_keeps
    | with_reducible apply Keeps.ite | with_reducible apply Keeps.fstIte | with_reducible apply Keeps.foldPair
    | with_reducible apply Keeps.fold | simp only [Keeps.mk_eq] | split | simp +zetaDelta only [Keeps.mk_eq]

theorem State.completeKind_keeps {s₀ s : State} (f : Nat) (q : Nat) (cid : BitVec 16) (kind : BitVec 3)
    (status : Nat) (r0 : DWord) (r1 : DWord) (h : Keeps s₀ s) :
    Keeps s₀ (State.completeKind s f q cid kind status r0 r1) := by
  unfold State.completeKind
  repeat' first
    | with_reducible assumption | intro _ | extract_lets | with_reducible apply State.setQueue_keeps
    | with_reducible apply State.cqWrite_keeps | with_reducible apply Keeps.ite
    | with_reducible apply Keeps.fstIte | with_reducible apply Keeps.foldPair | with_reducible apply Keeps.fold
    | simp only [Keeps.mk_eq] | split | simp +zetaDelta only [Keeps.mk_eq]

theorem State.complete_keeps {s₀ s : State} (c : CmdRef) (status : Nat) (r0 : DWord) (r1 : DWord) (h : Keeps s₀ s) :
    Keeps s₀ (State.complete s c status r0 r1) := by
  unfold State.complete
  repeat' first
    | with_reducible assumption | intro _ | extract_lets | with_reducible apply State.completeKind_keeps
    | with_reducible apply Keeps.ite | with_reducible apply Keeps.fstIte | with_reducible apply Keeps.foldPair
    | with_reducible apply Keeps.fold | simp only [Keeps.mk_eq] | split | simp +zetaDelta only [Keeps.mk_eq]

theorem State.nicSent_keeps {s₀ s : State} (x1 : Option (Nat × Nat × BitVec 16)) (h : Keeps s₀ s) :
    Keeps s₀ (State.nicSent s x1) := by
  unfold State.nicSent
  repeat' first
    | with_reducible assumption | intro _ | extract_lets | with_reducible apply State.completeKind_keeps
    | with_reducible apply Keeps.ite | with_reducible apply Keeps.fstIte | with_reducible apply Keeps.foldPair
    | with_reducible apply Keeps.fold | simp only [Keeps.mk_eq] | split | simp +zetaDelta only [Keeps.mk_eq]

theorem State.reject_keeps {s₀ s : State} (c : CmdRef) (p : Nat) (h : Keeps s₀ s) :
    Keeps s₀ (State.reject s c p) := by
  unfold State.reject
  repeat' first
    | with_reducible assumption | intro _ | extract_lets | with_reducible apply State.logAt_keeps
    | with_reducible apply State.complete_keeps | with_reducible apply State.msix0_keeps
    | with_reducible apply State.modQueue_keeps | with_reducible apply Keeps.ite
    | with_reducible apply Keeps.fstIte | with_reducible apply Keeps.foldPair | with_reducible apply Keeps.fold
    | simp only [Keeps.mk_eq] | split | simp +zetaDelta only [Keeps.mk_eq]

theorem State.dropNote_keeps {s₀ s : State} (f : Nat) (q : Nat) (h : Keeps s₀ s) :
    Keeps s₀ (State.dropNote s f q) := by
  unfold State.dropNote
  repeat' first
    | with_reducible assumption | intro _ | extract_lets | with_reducible apply State.logPcie_keeps
    | with_reducible apply State.modFn_keeps | with_reducible apply Keeps.ite
    | with_reducible apply Keeps.fstIte | with_reducible apply Keeps.foldPair | with_reducible apply Keeps.fold
    | simp only [Keeps.mk_eq] | split | simp +zetaDelta only [Keeps.mk_eq]

theorem State.deliver_keeps {s₀ s : State} (f : Nat) (e : Cqe) (h : Keeps s₀ s) :
    Keeps s₀ (State.deliver s f e) := by
  unfold State.deliver
  repeat' first
    | with_reducible assumption | intro _ | extract_lets | with_reducible apply State.dropNote_keeps
    | with_reducible apply State.cqWrite_keeps | with_reducible apply State.modFn_keeps
    | with_reducible apply Keeps.ite | with_reducible apply Keeps.fstIte | with_reducible apply Keeps.foldPair
    | with_reducible apply Keeps.fold | simp only [Keeps.mk_eq] | split | simp +zetaDelta only [Keeps.mk_eq]

theorem State.eventTo_keeps {s₀ s : State} (f : Nat) (code : Nat) (status : Nat) (part : Option Nat) (addr : Nat)
    (h : Keeps s₀ s) :
    Keeps s₀ (State.eventTo s f code status part addr) := by
  unfold State.eventTo
  repeat' first
    | with_reducible assumption | intro _ | extract_lets | with_reducible apply State.deliver_keeps
    | with_reducible apply Keeps.ite | with_reducible apply Keeps.fstIte | with_reducible apply Keeps.foldPair
    | with_reducible apply Keeps.fold | simp only [Keeps.mk_eq] | split | simp +zetaDelta only [Keeps.mk_eq]

theorem State.event_keeps {s₀ s : State} (code : Nat) (status : Nat) (part : Option Nat) (addr : Nat)
    (h : Keeps s₀ s) :
    Keeps s₀ (State.event s code status part addr) := by
  unfold State.event
  repeat' first
    | with_reducible assumption | intro _ | extract_lets | with_reducible apply State.eventTo_keeps
    | with_reducible apply Keeps.ite | with_reducible apply Keeps.fstIte | with_reducible apply Keeps.foldPair
    | with_reducible apply Keeps.fold | simp only [Keeps.mk_eq] | split | simp +zetaDelta only [Keeps.mk_eq]

theorem State.queueError_keeps {s₀ s : State} (f : Nat) (q : Nat) (h : Keeps s₀ s) :
    Keeps s₀ (State.queueError s f q) := by
  unfold State.queueError
  repeat' first
    | with_reducible assumption | intro _ | extract_lets | with_reducible apply State.modQueue_keeps
    | with_reducible apply State.msix0_keeps | with_reducible apply State.logPcie_keeps
    | with_reducible apply Keeps.ite | with_reducible apply Keeps.fstIte | with_reducible apply Keeps.foldPair
    | with_reducible apply Keeps.fold | simp only [Keeps.mk_eq] | split | simp +zetaDelta only [Keeps.mk_eq]

theorem State.modLife_keeps {s₀ s : State} (g : LifeRec → LifeRec) (h : Keeps s₀ s) :
    Keeps s₀ (State.modLife s g) := by
  unfold State.modLife
  repeat' first
    | with_reducible assumption | intro _ | extract_lets | with_reducible apply Keeps.ite
    | with_reducible apply Keeps.fstIte | with_reducible apply Keeps.foldPair | with_reducible apply Keeps.fold
    | simp only [Keeps.mk_eq] | split | simp +zetaDelta only [Keeps.mk_eq]

theorem State.lifeBegin_keeps {s₀ s : State} (h : Keeps s₀ s) : Keeps s₀ (State.lifeBegin s) := by
  unfold State.lifeBegin
  repeat' first
    | with_reducible assumption | intro _ | extract_lets | with_reducible apply Keeps.ite
    | with_reducible apply Keeps.fstIte | with_reducible apply Keeps.foldPair | with_reducible apply Keeps.fold
    | simp only [Keeps.mk_eq] | split | simp +zetaDelta only [Keeps.mk_eq]

theorem State.setByte_keeps {s₀ s : State} (p a : Nat) (v : Byte) (h : Keeps s₀ s) :
    Keeps s₀ (s.setByte p a v) := by
  unfold State.setByte
  repeat' first
    | assumption | with_reducible apply State.modCore_keeps | with_reducible apply State.modDie_keeps
    | exact h.setMem _ (Memory.setHbm_wf _ _ _) | exact h.setMem _ (Memory.setCis_wf _ _ _) | split

theorem State.setBytes_keeps {s₀ s : State} (p a : Nat) (d : List Byte) (h : Keeps s₀ s) :
    Keeps s₀ (s.setBytes p a d) := by
  induction d generalizing s a with
  | nil => exact h
  | cons v vs ih => exact ih (a + 1) (State.setByte_keeps p a v h)

theorem Memory.setHbmErr_wf (m : Memory) (k : Nat) (v : BitVec 2) (h : m.wf = true) :
    Memory.wf { m with hbmErr := tabPut 0 m.hbmErr k v } = true := by
  rw [Memory.wf_iff] at h ⊢
  exact ⟨h.1, tabPut_wf 0 _ _ _ h.2.1, h.2.2.1, h.2.2.2.1, h.2.2.2.2⟩

theorem Memory.setCisErr_wf (m : Memory) (k : Nat) (v : BitVec 2) (h : m.wf = true) :
    Memory.wf { m with cisErr := tabPut 0 m.cisErr k v } = true := by
  rw [Memory.wf_iff] at h ⊢
  exact ⟨h.1, h.2.1, h.2.2.1, h.2.2.2.1, tabPut_wf 0 _ _ _ h.2.2.2.2⟩

theorem State.setMark_keeps {s₀ s : State} (p a : Nat) (v : BitVec 2) (h : Keeps s₀ s) :
    Keeps s₀ (s.setMark p a v) := by
  unfold State.setMark
  repeat' first
    | assumption | with_reducible apply State.modCore_keeps | with_reducible apply State.modDie_keeps
    | exact h.setMem _ (Memory.setHbmErr_wf _ _ _) | exact h.setMem _ (Memory.setCisErr_wf _ _ _) | split

theorem State.failChannel_keeps {s₀ s : State} (m : Nat) (c : Nat) (h : Keeps s₀ s) :
    Keeps s₀ (State.failChannel s m c) := by
  unfold State.failChannel
  repeat' first
    | with_reducible assumption | intro _ | extract_lets | with_reducible apply State.modCis_keeps
    | with_reducible apply State.logCis_keeps | with_reducible apply State.lifeBegin_keeps
    | with_reducible apply State.modLife_keeps | with_reducible apply Keeps.ite
    | with_reducible apply Keeps.fstIte | with_reducible apply Keeps.foldPair | with_reducible apply Keeps.fold
    | simp only [Keeps.mk_eq] | split | simp +zetaDelta only [Keeps.mk_eq]

theorem State.failStack_keeps {s₀ s : State} (n : Nat) (h : Keeps s₀ s) :
    Keeps s₀ (State.failStack s n) := by
  unfold State.failStack
  repeat' first
    | with_reducible assumption | intro _ | extract_lets | with_reducible apply State.modDie_keeps
    | with_reducible apply State.logHbm_keeps | with_reducible apply State.lifeBegin_keeps
    | with_reducible apply State.modLife_keeps | with_reducible apply Keeps.ite
    | with_reducible apply Keeps.fstIte | with_reducible apply Keeps.foldPair | with_reducible apply Keeps.fold
    | simp only [Keeps.mk_eq] | split | simp +zetaDelta only [Keeps.mk_eq]

theorem State.correctHbm_keeps {s₀ s : State} (word : Nat) (h : Keeps s₀ s) :
    Keeps s₀ (State.correctHbm s word) := by
  unfold State.correctHbm
  repeat' first
    | with_reducible assumption | intro _ | extract_lets | with_reducible apply State.modDie_keeps
    | with_reducible apply State.modLife_keeps | with_reducible apply State.logHbm_keeps
    | with_reducible apply Keeps.ite | with_reducible apply Keeps.fstIte | with_reducible apply Keeps.foldPair
    | with_reducible apply Keeps.fold | simp only [Keeps.mk_eq] | split | simp +zetaDelta only [Keeps.mk_eq]

theorem State.correctCis_keeps {s₀ s : State} (word : Nat) (h : Keeps s₀ s) :
    Keeps s₀ (State.correctCis s word) := by
  unfold State.correctCis
  repeat' first
    | with_reducible assumption | intro _ | extract_lets | with_reducible apply State.modCis_keeps
    | with_reducible apply State.modLife_keeps | with_reducible apply State.logCis_keeps
    | with_reducible apply Keeps.ite | with_reducible apply Keeps.fstIte | with_reducible apply Keeps.foldPair
    | with_reducible apply Keeps.fold | simp only [Keeps.mk_eq] | split | simp +zetaDelta only [Keeps.mk_eq]

theorem State.uncorrHbm_keeps {s₀ s : State} (word : Nat) (kind : Nat) (h : Keeps s₀ s) :
    Keeps s₀ (State.uncorrHbm s word kind) := by
  unfold State.uncorrHbm
  repeat' first
    | with_reducible assumption | intro _ | extract_lets | with_reducible apply State.modDie_keeps
    | with_reducible apply State.modLife_keeps | with_reducible apply State.event_keeps
    | with_reducible apply State.logHbm_keeps | with_reducible apply Keeps.ite
    | with_reducible apply Keeps.fstIte | with_reducible apply Keeps.foldPair | with_reducible apply Keeps.fold
    | simp only [Keeps.mk_eq] | split | simp +zetaDelta only [Keeps.mk_eq]

theorem State.uncorrCis_keeps {s₀ s : State} (word : Nat) (kind : Nat) (h : Keeps s₀ s) :
    Keeps s₀ (State.uncorrCis s word kind) := by
  unfold State.uncorrCis
  repeat' first
    | with_reducible assumption | intro _ | extract_lets | with_reducible apply State.modCis_keeps
    | with_reducible apply State.modLife_keeps | with_reducible apply State.event_keeps
    | with_reducible apply State.logCis_keeps | with_reducible apply State.failChannel_keeps
    | with_reducible apply Keeps.ite | with_reducible apply Keeps.fstIte | with_reducible apply Keeps.foldPair
    | with_reducible apply Keeps.fold | simp only [Keeps.mk_eq] | split | simp +zetaDelta only [Keeps.mk_eq]

theorem State.readWord1_keeps {s₀ s : State} (p : Nat) (a : Nat) (h : Keeps s₀ s) :
    Keeps s₀ (State.readWord1 s p a) := by
  unfold State.readWord1
  repeat' first
    | with_reducible assumption | intro _ | extract_lets | with_reducible apply State.correctHbm_keeps
    | with_reducible apply State.uncorrHbm_keeps | with_reducible apply State.correctCis_keeps
    | with_reducible apply State.uncorrCis_keeps | with_reducible apply State.logCore_keeps
    | with_reducible apply State.event_keeps | with_reducible apply Keeps.ite
    | with_reducible apply Keeps.fstIte | with_reducible apply Keeps.foldPair | with_reducible apply Keeps.fold
    | simp only [Keeps.mk_eq] | split | simp +zetaDelta only [Keeps.mk_eq]

theorem State.touchRead_keeps {s₀ s : State} (p : Nat) (segs : List (Nat × Nat)) (h : Keeps s₀ s) :
    Keeps s₀ (State.touchRead s p segs) := by
  unfold State.touchRead
  repeat' first
    | with_reducible assumption | intro _ | extract_lets | with_reducible apply eachDo_keeps
    | with_reducible apply State.readWord1_keeps | with_reducible apply Keeps.ite
    | with_reducible apply Keeps.fstIte | with_reducible apply Keeps.foldPair | with_reducible apply Keeps.fold
    | simp only [Keeps.mk_eq] | split | simp +zetaDelta only [Keeps.mk_eq]

theorem State.inject_keeps {s₀ s : State} (p : Nat) (w : Nat) (h : Keeps s₀ s) :
    Keeps s₀ (State.inject s p w) := by
  unfold State.inject
  repeat' first
    | with_reducible assumption | intro _ | extract_lets | with_reducible apply State.setMark_keeps
    | with_reducible apply State.modDie_keeps | with_reducible apply State.modCis_keeps
    | with_reducible apply Keeps.ite | with_reducible apply Keeps.fstIte | with_reducible apply Keeps.foldPair
    | with_reducible apply Keeps.fold | simp only [Keeps.mk_eq] | split | simp +zetaDelta only [Keeps.mk_eq]

theorem State.dropWb_keeps {s₀ s : State} (w : Nat) (h : Keeps s₀ s) : Keeps s₀ (State.dropWb s w) := by
  unfold State.dropWb
  repeat' first
    | with_reducible assumption | intro _ | extract_lets | with_reducible apply Keeps.ite
    | with_reducible apply Keeps.fstIte | with_reducible apply Keeps.foldPair | with_reducible apply Keeps.fold
    | simp only [Keeps.mk_eq] | split | simp +zetaDelta only [Keeps.mk_eq]

theorem State.writeWord_keeps {s₀ s : State} (p : Nat) (a : Nat) (data : List Byte) (w : Nat) (h : Keeps s₀ s) :
    Keeps s₀ (State.writeWord s p a data w).1 := by
  unfold State.writeWord
  repeat' first
    | with_reducible assumption | intro _ | extract_lets | with_reducible apply eachDo_keeps
    | with_reducible apply State.setByte_keeps | with_reducible apply State.inject_keeps
    | with_reducible apply State.setMark_keeps | with_reducible apply State.dropWb_keeps
    | with_reducible apply State.readWord1_keeps | with_reducible apply Keeps.ite
    | with_reducible apply Keeps.fstIte | with_reducible apply Keeps.foldPair | with_reducible apply Keeps.fold
    | simp only [Keeps.mk_eq] | split | simp +zetaDelta only [Keeps.mk_eq]

theorem State.writeList_keeps {s₀ s : State} (p : Nat) (a : Nat) (data : List Byte) (ws : List Nat)
    (h : Keeps s₀ s) :
    Keeps s₀ (State.writeList s p a data ws).1 := by
  unfold State.writeList
  repeat' first
    | with_reducible assumption | intro _ | extract_lets | with_reducible apply State.writeWord_keeps
    | with_reducible apply Keeps.ite | with_reducible apply Keeps.fstIte | with_reducible apply Keeps.foldPair
    | with_reducible apply Keeps.fold | simp only [Keeps.mk_eq] | split | simp +zetaDelta only [Keeps.mk_eq]

theorem State.writeUnit_keeps {s₀ s : State} (p : Nat) (a : Nat) (data : List Byte) (u : Nat) (h : Keeps s₀ s) :
    Keeps s₀ (State.writeUnit s p a data u).1 := by
  unfold State.writeUnit
  repeat' first
    | with_reducible assumption | intro _ | extract_lets | with_reducible apply State.writeList_keeps
    | with_reducible apply eachDo_keeps | with_reducible apply State.readWord1_keeps
    | with_reducible apply State.setMark_keeps | with_reducible apply State.dropWb_keeps
    | with_reducible apply State.setByte_keeps | with_reducible apply State.inject_keeps
    | with_reducible apply Keeps.ite | with_reducible apply Keeps.fstIte | with_reducible apply Keeps.foldPair
    | with_reducible apply Keeps.fold | simp only [Keeps.mk_eq] | split | simp +zetaDelta only [Keeps.mk_eq]

theorem State.writeWords_keeps {s₀ s : State} (p : Nat) (a : Nat) (data : List Byte) (h : Keeps s₀ s) :
    Keeps s₀ (State.writeWords s p a data).1 := by
  unfold State.writeWords
  repeat' first
    | with_reducible assumption | intro _ | extract_lets | with_reducible apply State.writeUnit_keeps
    | with_reducible apply State.writeList_keeps | with_reducible apply Keeps.ite
    | with_reducible apply Keeps.fstIte | with_reducible apply Keeps.foldPair | with_reducible apply Keeps.fold
    | simp only [Keeps.mk_eq] | split | simp +zetaDelta only [Keeps.mk_eq]

theorem State.dropWrite_keeps {s₀ s : State} (ch : Nat) (part : Option Nat) (a : Nat) (h : Keeps s₀ s) :
    Keeps s₀ (State.dropWrite s ch part a) := by
  unfold State.dropWrite
  repeat' first
    | with_reducible assumption | intro _ | extract_lets | with_reducible apply State.logCis_keeps
    | with_reducible apply State.modCis_keeps | with_reducible apply Keeps.ite
    | with_reducible apply Keeps.fstIte | with_reducible apply Keeps.foldPair | with_reducible apply Keeps.fold
    | simp only [Keeps.mk_eq] | split | simp +zetaDelta only [Keeps.mk_eq]

theorem State.dropRead_keeps {s₀ s : State} (ch : Nat) (part : Option Nat) (a : Nat) (h : Keeps s₀ s) :
    Keeps s₀ (State.dropRead s ch part a) := by
  unfold State.dropRead
  repeat' first
    | with_reducible assumption | intro _ | extract_lets | with_reducible apply State.logCis_keeps
    | with_reducible apply State.modCis_keeps | with_reducible apply Keeps.ite
    | with_reducible apply Keeps.fstIte | with_reducible apply Keeps.foldPair | with_reducible apply Keeps.fold
    | simp only [Keeps.mk_eq] | split | simp +zetaDelta only [Keeps.mk_eq]

theorem State.store_keeps {s₀ s : State} (p : Nat) (part : Option Nat) (a : Nat) (data : List Byte)
    (h : Keeps s₀ s) :
    Keeps s₀ (State.store s p part a data).1 := by
  unfold State.store
  repeat' first
    | with_reducible assumption | intro _ | extract_lets | with_reducible apply State.dropWrite_keeps
    | with_reducible apply State.writeWords_keeps | with_reducible apply Keeps.ite
    | with_reducible apply Keeps.fstIte | with_reducible apply Keeps.foldPair | with_reducible apply Keeps.fold
    | simp only [Keeps.mk_eq] | split | simp +zetaDelta only [Keeps.mk_eq]

theorem State.stores_keeps {s₀ s : State} (p : Nat) (part : Option Nat) (ws : List (Nat × List Byte))
    (h : Keeps s₀ s) :
    Keeps s₀ (State.stores s p part ws).1 := by
  unfold State.stores
  repeat' first
    | with_reducible assumption | intro _ | extract_lets | with_reducible apply State.store_keeps
    | with_reducible apply Keeps.ite | with_reducible apply Keeps.fstIte | with_reducible apply Keeps.foldPair
    | with_reducible apply Keeps.fold | simp only [Keeps.mk_eq] | split | simp +zetaDelta only [Keeps.mk_eq]

theorem State.scrubRange_keeps {s₀ s : State} (base size : Nat) (h : Keeps s₀ s) :
    Keeps s₀ (s.scrubRange base size) := by
  unfold State.scrubRange
  refine h.setMem _ (fun hw => ?_)
  rw [Memory.wf_iff] at hw ⊢
  dsimp only
  refine ⟨tabDrop_wf 0 s.mem.hbm _ hw.1, tabDrop_wf 0 s.mem.hbmErr _ hw.2.1, tabFilter_rising _ _ 0 hw.2.2.1, ?_,
    tabDrop_wf 0 s.mem.cisErr _ hw.2.2.2.2⟩
  by_cases ht : tierOf base = .cistern
  · simp only [ht, if_true]
    exact cis_scrub_all s.mem _ (.range s.mem.cgrps base size) rfl hw.2.2.2.1
  · simp only [ht, if_false]
    have hall := hw.2.2.2.1
    simp only [List.all_eq_true, tabDrop, List.mem_filter] at hall ⊢
    exact fun e he => hall e he.1

theorem State.tallyAdd_keeps {s₀ s : State} (p : Nat) (idx : Nat) (n : Nat) (h : Keeps s₀ s) :
    Keeps s₀ (State.tallyAdd s p idx n) := by
  unfold State.tallyAdd
  repeat' first
    | with_reducible assumption | intro _ | extract_lets | with_reducible apply State.modCore_keeps
    | with_reducible apply State.logCore_keeps | with_reducible apply Keeps.ite
    | with_reducible apply Keeps.fstIte | with_reducible apply Keeps.foldPair | with_reducible apply Keeps.fold
    | simp only [Keeps.mk_eq] | split | simp +zetaDelta only [Keeps.mk_eq]

theorem State.talliesAdd_keeps {s₀ s : State} (p : Nat) (l : List (Nat × Nat)) (h : Keeps s₀ s) :
    Keeps s₀ (State.talliesAdd s p l) := by
  unfold State.talliesAdd
  repeat' first
    | with_reducible assumption | intro _ | extract_lets | with_reducible apply eachDo_keeps
    | with_reducible apply State.tallyAdd_keeps | with_reducible apply Keeps.ite
    | with_reducible apply Keeps.fstIte | with_reducible apply Keeps.foldPair | with_reducible apply Keeps.fold
    | simp only [Keeps.mk_eq] | split | simp +zetaDelta only [Keeps.mk_eq]

theorem State.tracePut_keeps {s₀ s : State} (p : Nat) (r : TraceRec) (h : Keeps s₀ s) :
    Keeps s₀ (State.tracePut s p r) := by
  unfold State.tracePut
  repeat' first
    | with_reducible assumption | intro _ | extract_lets | with_reducible apply State.setCore_keeps
    | with_reducible apply State.logCore_keeps | with_reducible apply Keeps.ite
    | with_reducible apply Keeps.fstIte | with_reducible apply Keeps.foldPair | with_reducible apply Keeps.fold
    | simp only [Keeps.mk_eq] | split | simp +zetaDelta only [Keeps.mk_eq]

theorem State.traceLost_keeps {s₀ s : State} (p : Nat) (h : Keeps s₀ s) :
    Keeps s₀ (State.traceLost s p) := by
  unfold State.traceLost
  repeat' first
    | with_reducible assumption | intro _ | extract_lets | with_reducible apply State.tracePut_keeps
    | with_reducible apply State.setCore_keeps | with_reducible apply Keeps.ite
    | with_reducible apply Keeps.fstIte | with_reducible apply Keeps.foldPair | with_reducible apply Keeps.fold
    | simp only [Keeps.mk_eq] | split | simp +zetaDelta only [Keeps.mk_eq]

theorem State.traceAt_keeps {s₀ s : State} (p : Nat) (k : Nat) (tag : BitVec 16) (stm : BitVec 3) (a : DWord)
    (b : DWord) (h : Keeps s₀ s) :
    Keeps s₀ (State.traceAt s p k tag stm a b) := by
  unfold State.traceAt
  repeat' first
    | with_reducible assumption | intro _ | extract_lets | with_reducible apply State.traceLost_keeps
    | with_reducible apply State.tracePut_keeps | with_reducible apply Keeps.ite
    | with_reducible apply Keeps.fstIte | with_reducible apply Keeps.foldPair | with_reducible apply Keeps.fold
    | simp only [Keeps.mk_eq] | split | simp +zetaDelta only [Keeps.mk_eq]

theorem State.coreFaultWith_keeps {s₀ s : State} (p : Nat) (status : Nat) (code : Nat) (own : Bool)
    (stm : BitVec 3) (log : State → State) (tags : optParam (List (BitVec 16)) []) (h : Keeps s₀ s)
    (hlog : ∀ t, Keeps s₀ t → Keeps s₀ (log t)) :
    Keeps s₀ (State.coreFaultWith s p status code own stm log tags) := by
  unfold State.coreFaultWith
  repeat' first
    | with_reducible assumption | intro _ | extract_lets | with_reducible apply hlog
    | with_reducible apply State.modCore_keeps | with_reducible apply State.logCore_keeps
    | with_reducible apply State.traceAt_keeps | with_reducible apply Keeps.ite
    | with_reducible apply Keeps.fstIte | with_reducible apply Keeps.foldPair | with_reducible apply Keeps.fold
    | simp only [Keeps.mk_eq] | split | simp +zetaDelta only [Keeps.mk_eq]

theorem State.coreFault_keeps {s₀ s : State} (p : Nat) (status : Nat) (code : Nat) (own : Bool) (stm : BitVec 3)
    (args : List Word) (tags : optParam (List (BitVec 16)) []) (h : Keeps s₀ s) :
    Keeps s₀ (State.coreFault s p status code own stm args tags) := by
  unfold State.coreFault
  repeat' first
    | with_reducible assumption | intro _ | extract_lets | with_reducible apply State.coreFaultWith_keeps
    | with_reducible apply State.logCore_keeps | with_reducible apply Keeps.ite
    | with_reducible apply Keeps.fstIte | with_reducible apply Keeps.foldPair | with_reducible apply Keeps.fold
    | simp only [Keeps.mk_eq] | split | simp +zetaDelta only [Keeps.mk_eq]

theorem State.coreFaultSeen_keeps {s₀ s : State} (p : Nat) (status : Nat) (code : Nat) (own : Bool)
    (stm : BitVec 3) (tags : optParam (List (BitVec 16)) []) (h : Keeps s₀ s) :
    Keeps s₀ (State.coreFaultSeen s p status code own stm tags) := by
  unfold State.coreFaultSeen
  repeat' first
    | with_reducible assumption | intro _ | extract_lets | with_reducible apply State.coreFaultWith_keeps
    | with_reducible apply Keeps.ite | with_reducible apply Keeps.fstIte | with_reducible apply Keeps.foldPair
    | with_reducible apply Keeps.fold | simp only [Keeps.mk_eq] | split | simp +zetaDelta only [Keeps.mk_eq]

theorem State.refFault_keeps {s₀ s : State} (p : Nat) (status : Nat) (stm : BitVec 3)
    (tags : optParam (List (BitVec 16)) []) (h : Keeps s₀ s) :
    Keeps s₀ (State.refFault s p status stm tags) := by
  unfold State.refFault
  repeat' first
    | with_reducible assumption | intro _ | extract_lets | with_reducible apply State.coreFault_keeps
    | with_reducible apply Keeps.ite | with_reducible apply Keeps.fstIte | with_reducible apply Keeps.foldPair
    | with_reducible apply Keeps.fold | simp only [Keeps.mk_eq] | split | simp +zetaDelta only [Keeps.mk_eq]

theorem State.coreRead_keeps {s₀ s : State} (p : Nat) (q : Nat) (segs : List (Nat × Nat)) (stm : BitVec 3)
    (tags : optParam (List (BitVec 16)) []) (h : Keeps s₀ s) :
    Keeps s₀ (State.coreRead s p q segs stm tags).1 := by
  unfold State.coreRead
  repeat' first
    | with_reducible assumption | intro _ | extract_lets | with_reducible apply State.refFault_keeps
    | with_reducible apply State.coreFault_keeps | with_reducible apply State.coreFaultSeen_keeps
    | with_reducible apply State.touchRead_keeps | with_reducible apply Keeps.ite
    | with_reducible apply Keeps.fstIte | with_reducible apply Keeps.foldPair | with_reducible apply Keeps.fold
    | simp only [Keeps.mk_eq] | split | simp +zetaDelta only [Keeps.mk_eq]

theorem State.coreWrite_keeps {s₀ s : State} (p : Nat) (q : Nat) (ws : List (Nat × List Byte)) (stm : BitVec 3)
    (tags : optParam (List (BitVec 16)) []) (h : Keeps s₀ s) :
    Keeps s₀ (State.coreWrite s p q ws stm tags).1 := by
  unfold State.coreWrite
  repeat' first
    | with_reducible assumption | intro _ | extract_lets | with_reducible apply State.refFault_keeps
    | with_reducible apply State.stores_keeps | with_reducible apply State.coreFaultSeen_keeps
    | with_reducible apply Keeps.ite | with_reducible apply Keeps.fstIte | with_reducible apply Keeps.foldPair
    | with_reducible apply Keeps.fold | simp only [Keeps.mk_eq] | split | simp +zetaDelta only [Keeps.mk_eq]

theorem State.goto_keeps {s₀ s : State} (p : Nat) (pc : Nat) (stm : BitVec 3) (h : Keeps s₀ s) :
    Keeps s₀ (State.goto s p pc stm) := by
  unfold State.goto
  repeat' first
    | with_reducible assumption | intro _ | extract_lets | with_reducible apply State.modCore_keeps
    | with_reducible apply State.coreFault_keeps | with_reducible apply Keeps.ite
    | with_reducible apply Keeps.fstIte | with_reducible apply Keeps.foldPair | with_reducible apply Keeps.fold
    | simp only [Keeps.mk_eq] | split | simp +zetaDelta only [Keeps.mk_eq]

theorem State.advance_keeps {s₀ s : State} (p : Nat) (stm : BitVec 3) (h : Keeps s₀ s) :
    Keeps s₀ (State.advance s p stm) := by
  unfold State.advance
  repeat' first
    | with_reducible assumption | intro _ | extract_lets | with_reducible apply State.goto_keeps
    | with_reducible apply Keeps.ite | with_reducible apply Keeps.fstIte | with_reducible apply Keeps.foldPair
    | with_reducible apply Keeps.fold | simp only [Keeps.mk_eq] | split | simp +zetaDelta only [Keeps.mk_eq]

theorem State.issued_keeps {s₀ s : State} (p : Nat) (h : Keeps s₀ s) : Keeps s₀ (State.issued s p) := by
  unfold State.issued
  repeat' first
    | with_reducible assumption | intro _ | extract_lets | with_reducible apply State.tallyAdd_keeps
    | with_reducible apply Keeps.ite | with_reducible apply Keeps.fstIte | with_reducible apply Keeps.foldPair
    | with_reducible apply Keeps.fold | simp only [Keeps.mk_eq] | split | simp +zetaDelta only [Keeps.mk_eq]

theorem State.setTok_keeps {s₀ s : State} (p : Nat) (b : Buf) (n : Nat) (h : Keeps s₀ s) :
    Keeps s₀ (State.setTok s p b n) := by
  unfold State.setTok
  repeat' first
    | with_reducible assumption | intro _ | extract_lets | with_reducible apply State.modCore_keeps
    | with_reducible apply State.modDie_keeps | with_reducible apply Keeps.ite
    | with_reducible apply Keeps.fstIte | with_reducible apply Keeps.foldPair | with_reducible apply Keeps.fold
    | simp only [Keeps.mk_eq] | split | simp +zetaDelta only [Keeps.mk_eq]

theorem State.setMissing_keeps {s₀ s : State} (p : Nat) (b : Buf) (v : Bool) (h : Keeps s₀ s) :
    Keeps s₀ (State.setMissing s p b v) := by
  unfold State.setMissing
  repeat' first
    | with_reducible assumption | intro _ | extract_lets | with_reducible apply State.modCore_keeps
    | with_reducible apply State.modDie_keeps | with_reducible apply Keeps.ite
    | with_reducible apply Keeps.fstIte | with_reducible apply Keeps.foldPair | with_reducible apply Keeps.fold
    | simp only [Keeps.mk_eq] | split | simp +zetaDelta only [Keeps.mk_eq]

theorem State.post_keeps {s₀ s t : State} {p : Nat} {b : Buf} {n : Nat} (e : s.post p b n = some t)
    (h : Keeps s₀ s) : Keeps s₀ t := by
  unfold State.post at e
  split at e
  · cases e
    exact State.setTok_keeps _ _ _ h
  · cases e

theorem State.traceWait_keeps {s₀ s : State} (p : Nat) (stm : BitVec 3) (h : Keeps s₀ s) :
    Keeps s₀ (State.traceWait s p stm) := by
  unfold State.traceWait
  repeat' first
    | with_reducible assumption | intro _ | extract_lets | with_reducible apply State.traceAt_keeps
    | with_reducible apply Keeps.ite | with_reducible apply Keeps.fstIte | with_reducible apply Keeps.foldPair
    | with_reducible apply Keeps.fold | simp only [Keeps.mk_eq] | split | simp +zetaDelta only [Keeps.mk_eq]

theorem State.beginWait_keeps {s₀ s : State} (p : Nat) (w : WaitOn) (stm : BitVec 3) (h : Keeps s₀ s) :
    Keeps s₀ (State.beginWait s p w stm) := by
  unfold State.beginWait
  repeat' first
    | with_reducible assumption | intro _ | extract_lets | with_reducible apply State.traceWait_keeps
    | with_reducible apply State.modCore_keeps | with_reducible apply Keeps.ite
    | with_reducible apply Keeps.fstIte | with_reducible apply Keeps.foldPair | with_reducible apply Keeps.fold
    | simp only [Keeps.mk_eq] | split | simp +zetaDelta only [Keeps.mk_eq]

theorem State.endWait_keeps {s₀ s : State} (p : Nat) (h : Keeps s₀ s) : Keeps s₀ (State.endWait s p) := by
  unfold State.endWait
  repeat' first
    | with_reducible assumption | intro _ | extract_lets | with_reducible apply State.traceAt_keeps
    | with_reducible apply State.modCore_keeps | with_reducible apply Keeps.ite
    | with_reducible apply Keeps.fstIte | with_reducible apply Keeps.foldPair | with_reducible apply Keeps.fold
    | simp only [Keeps.mk_eq] | split | simp +zetaDelta only [Keeps.mk_eq]

theorem State.withClock_keeps {s₀ s : State} (p : Nat) (g : State → State) (h : Keeps s₀ s)
    (hg : ∀ t, Keeps s₀ t → Keeps s₀ (g t)) :
    Keeps s₀ (State.withClock s p g) := by
  unfold State.withClock
  repeat' first
    | with_reducible assumption | intro _ | extract_lets | with_reducible apply hg
    | with_reducible apply State.modCore_keeps | with_reducible apply Keeps.ite
    | with_reducible apply Keeps.fstIte | with_reducible apply Keeps.foldPair | with_reducible apply Keeps.fold
    | simp only [Keeps.mk_eq] | split | simp +zetaDelta only [Keeps.mk_eq]

theorem State.gateCores_keeps {s₀ s : State} (q : Nat) (on : Bool) (h : Keeps s₀ s) :
    Keeps s₀ (State.gateCores s q on) := by
  unfold State.gateCores
  repeat' first
    | with_reducible assumption | intro _ | extract_lets | with_reducible apply eachDo_keeps
    | with_reducible apply State.modCore_keeps | with_reducible apply Keeps.ite
    | with_reducible apply Keeps.fstIte | with_reducible apply Keeps.foldPair | with_reducible apply Keeps.fold
    | simp only [Keeps.mk_eq] | split | simp +zetaDelta only [Keeps.mk_eq]

theorem State.gateUpd_keeps {s₀ s : State} {old : State} (h : Keeps s₀ s) :
    Keeps s₀ (State.gateUpd s old) := by
  unfold State.gateUpd
  repeat' first
    | with_reducible assumption | intro _ | extract_lets | with_reducible apply eachDo_keeps
    | with_reducible apply State.modDie_keeps | with_reducible apply Keeps.ite
    | with_reducible apply Keeps.fstIte | with_reducible apply Keeps.foldPair | with_reducible apply Keeps.fold
    | simp only [Keeps.mk_eq] | split | simp +zetaDelta only [Keeps.mk_eq]

theorem State.setPartSt_keeps {s₀ s : State} (q : Nat) (st : PartSt) (reason : Nat) (status : Nat)
    (h : Keeps s₀ s) :
    Keeps s₀ (State.setPartSt s q st reason status) := by
  unfold State.setPartSt
  repeat' first
    | with_reducible assumption | intro _ | extract_lets | with_reducible apply State.modPart_keeps
    | with_reducible apply State.gateUpd_keeps | with_reducible apply State.gateCores_keeps
    | with_reducible apply State.partChanged_keeps | with_reducible apply Keeps.ite
    | with_reducible apply Keeps.fstIte | with_reducible apply Keeps.foldPair | with_reducible apply Keeps.fold
    | simp only [Keeps.mk_eq] | split | simp +zetaDelta only [Keeps.mk_eq]

theorem State.finishStart_keeps {s₀ s : State} (q : Nat) (status : Nat) (h : Keeps s₀ s) :
    Keeps s₀ (State.finishStart s q status) := by
  unfold State.finishStart
  repeat' first
    | with_reducible assumption | intro _ | extract_lets | with_reducible apply State.complete_keeps
    | with_reducible apply State.modPart_keeps | with_reducible apply Keeps.ite
    | with_reducible apply Keeps.fstIte | with_reducible apply Keeps.foldPair | with_reducible apply Keeps.fold
    | simp only [Keeps.mk_eq] | split | simp +zetaDelta only [Keeps.mk_eq]

theorem State.finishPause_keeps {s₀ s : State} (q : Nat) (status : Nat) (h : Keeps s₀ s) :
    Keeps s₀ (State.finishPause s q status) := by
  unfold State.finishPause
  repeat' first
    | with_reducible assumption | intro _ | extract_lets | with_reducible apply State.complete_keeps
    | with_reducible apply State.modPart_keeps | with_reducible apply Keeps.ite
    | with_reducible apply Keeps.fstIte | with_reducible apply Keeps.foldPair | with_reducible apply Keeps.fold
    | simp only [Keeps.mk_eq] | split | simp +zetaDelta only [Keeps.mk_eq]

theorem State.itineraryDone_keeps {s₀ s : State} (q : Nat) (h : Keeps s₀ s) :
    Keeps s₀ (State.itineraryDone s q) := by
  unfold State.itineraryDone
  repeat' first
    | with_reducible assumption | intro _ | extract_lets | with_reducible apply State.finishStart_keeps
    | with_reducible apply State.setPartSt_keeps | with_reducible apply Keeps.ite
    | with_reducible apply Keeps.fstIte | with_reducible apply Keeps.foldPair | with_reducible apply Keeps.fold
    | simp only [Keeps.mk_eq] | split | simp +zetaDelta only [Keeps.mk_eq]

theorem State.recallCores_keeps {s₀ s : State} (q : Nat) (h : Keeps s₀ s) :
    Keeps s₀ (State.recallCores s q) := by
  unfold State.recallCores
  repeat' first
    | with_reducible assumption | intro _ | extract_lets | with_reducible apply eachDo_keeps
    | with_reducible apply State.modCore_keeps | with_reducible apply Keeps.ite
    | with_reducible apply Keeps.fstIte | with_reducible apply Keeps.foldPair | with_reducible apply Keeps.fold
    | simp only [Keeps.mk_eq] | split | simp +zetaDelta only [Keeps.mk_eq]

theorem State.missBranch_keeps {s₀ s : State} (p : Nat) (b : Buf) (stm : BitVec 3) (target : Nat) (h : Keeps s₀ s) :
    Keeps s₀ (State.missBranch s p b stm target) := by
  unfold State.missBranch
  repeat' first
    | with_reducible assumption | intro _ | extract_lets | with_reducible apply State.goto_keeps
    | with_reducible apply State.logCore_keeps | with_reducible apply State.setMissing_keeps
    | with_reducible apply Keeps.ite | with_reducible apply Keeps.fstIte | with_reducible apply Keeps.foldPair
    | with_reducible apply Keeps.fold | simp only [Keeps.mk_eq] | split | simp +zetaDelta only [Keeps.mk_eq]

theorem State.landSome_keeps {s₀ s : State} (p : Nat) (l : List (Nat × List Byte)) (h : Keeps s₀ s) :
    Keeps s₀ (s.landSome p l) := by
  induction l generalizing s with
  | nil =>
    exact h
  | cons e rest ih =>
    obtain ⟨a, _ | ⟨v, vs⟩⟩ := e
    · exact ih h
    · unfold State.landSome
      repeat' first
        | with_reducible assumption | intro _ | extract_lets | with_reducible apply ih
        | with_reducible apply eachDo_keeps | with_reducible apply State.setByte_keeps
        | with_reducible apply State.useFree_keeps | with_reducible apply Keeps.ite

theorem State.modHouse_keeps {s₀ s : State} (n : Nat) (g : House → House) (h : Keeps s₀ s) :
    Keeps s₀ (State.modHouse s n g) := by
  unfold State.modHouse
  repeat' first
    | with_reducible assumption | intro _ | extract_lets | with_reducible apply Keeps.ite
    | with_reducible apply Keeps.fstIte | with_reducible apply Keeps.foldPair | with_reducible apply Keeps.fold
    | simp only [Keeps.mk_eq] | split | simp +zetaDelta only [Keeps.mk_eq]

theorem State.loseAdds_keeps {s₀ s : State} (src : AddSrc) (h : Keeps s₀ s) :
    Keeps s₀ (State.loseAdds s src) := by
  unfold State.loseAdds
  repeat' first
    | with_reducible assumption | intro _ | extract_lets | with_reducible apply eachDo_keeps
    | with_reducible apply State.useFree_keeps | with_reducible apply State.modHouse_keeps
    | with_reducible apply Keeps.ite | with_reducible apply Keeps.fstIte | with_reducible apply Keeps.foldPair
    | with_reducible apply Keeps.fold | simp only [Keeps.mk_eq] | split | simp +zetaDelta only [Keeps.mk_eq]

theorem State.postDescriptor_keeps {s₀ s : State} (p : Nat) (n : Nat) (words : List Word) (h : Keeps s₀ s) :
    Keeps s₀ (State.postDescriptor s p n words) := by
  unfold State.postDescriptor
  repeat' first
    | with_reducible assumption | intro _ | extract_lets | with_reducible apply State.modDie_keeps
    | with_reducible apply Keeps.ite | with_reducible apply Keeps.fstIte | with_reducible apply Keeps.foldPair
    | with_reducible apply Keeps.fold | simp only [Keeps.mk_eq] | split | simp +zetaDelta only [Keeps.mk_eq]

theorem State.landPartly_keeps {s₀ s : State} (p : Nat) (o : PorterOp) (h : Keeps s₀ s) :
    Keeps s₀ (State.landPartly s p o) := by
  unfold State.landPartly
  repeat' first
    | with_reducible assumption | intro _ | extract_lets | with_reducible apply State.landSome_keeps
    | with_reducible apply State.loseAdds_keeps | with_reducible apply State.postDescriptor_keeps
    | with_reducible apply State.useFree_keeps | with_reducible apply State.modDie_keeps
    | with_reducible apply Keeps.ite | with_reducible apply Keeps.fstIte | with_reducible apply Keeps.foldPair
    | with_reducible apply Keeps.fold | simp only [Keeps.mk_eq] | split | simp +zetaDelta only [Keeps.mk_eq]

theorem State.cancelCopies_keeps {s₀ s : State} (p : Nat) (b : Buf) (h : Keeps s₀ s) :
    Keeps s₀ (State.cancelCopies s p b) := by
  unfold State.cancelCopies
  repeat' first
    | with_reducible assumption | intro _ | extract_lets | with_reducible apply eachDo_keeps
    | with_reducible apply State.landPartly_keeps | with_reducible apply State.setCore_keeps
    | with_reducible apply Keeps.ite | with_reducible apply Keeps.fstIte | with_reducible apply Keeps.foldPair
    | with_reducible apply Keeps.fold | simp only [Keeps.mk_eq] | split | simp +zetaDelta only [Keeps.mk_eq]

theorem State.deadlineBranch_keeps {s₀ s : State} (p : Nat) (b : Buf) (stm : BitVec 3) (target : Nat)
    (h : Keeps s₀ s) :
    Keeps s₀ (State.deadlineBranch s p b stm target) := by
  unfold State.deadlineBranch
  repeat' first
    | with_reducible assumption | intro _ | extract_lets | with_reducible apply State.cancelCopies_keeps
    | with_reducible apply eachDo_keeps | with_reducible apply State.goto_keeps
    | with_reducible apply State.logCore_keeps | with_reducible apply Keeps.ite
    | with_reducible apply Keeps.fstIte | with_reducible apply Keeps.foldPair | with_reducible apply Keeps.fold
    | simp only [Keeps.mk_eq] | split | simp +zetaDelta only [Keeps.mk_eq]

theorem State.missWaiter_keeps {s₀ s : State} (p : Nat) (b : Buf) (h : Keeps s₀ s) :
    Keeps s₀ (State.missWaiter s p b) := by
  unfold State.missWaiter
  repeat' first
    | with_reducible assumption | intro _ | extract_lets | with_reducible apply State.coreFault_keeps
    | with_reducible apply State.missBranch_keeps | with_reducible apply State.endWait_keeps
    | with_reducible apply Keeps.ite | with_reducible apply Keeps.fstIte | with_reducible apply Keeps.foldPair
    | with_reducible apply Keeps.fold | simp only [Keeps.mk_eq] | split | simp +zetaDelta only [Keeps.mk_eq]

theorem State.markMissing_keeps {s₀ s : State} (p : Nat) (b : Buf) (h : Keeps s₀ s) :
    Keeps s₀ (State.markMissing s p b) := by
  unfold State.markMissing
  repeat' first
    | with_reducible assumption | intro _ | extract_lets | with_reducible apply eachDo_keeps
    | with_reducible apply State.missWaiter_keeps | with_reducible apply State.setMissing_keeps
    | with_reducible apply Keeps.ite | with_reducible apply Keeps.fstIte | with_reducible apply Keeps.foldPair
    | with_reducible apply Keeps.fold | simp only [Keeps.mk_eq] | split | simp +zetaDelta only [Keeps.mk_eq]

theorem State.openLoop_keeps {s₀ s : State} (p : Nat) (stm : BitVec 3) (xi : BitVec 4) (step : Word) (count : Nat)
    (h : Keeps s₀ s) :
    Keeps s₀ (State.openLoop s p stm xi step count) := by
  unfold State.openLoop
  repeat' first
    | with_reducible assumption | intro _ | extract_lets | with_reducible apply State.goto_keeps
    | with_reducible apply State.coreFault_keeps | with_reducible apply State.advance_keeps
    | with_reducible apply State.setCore_keeps | with_reducible apply Keeps.ite
    | with_reducible apply Keeps.fstIte | with_reducible apply Keeps.foldPair | with_reducible apply Keeps.fold
    | simp only [Keeps.mk_eq] | split | simp +zetaDelta only [Keeps.mk_eq]

theorem State.endLoop_keeps {s₀ s : State} (p : Nat) (stm : BitVec 3) (h : Keeps s₀ s) :
    Keeps s₀ (State.endLoop s p stm) := by
  unfold State.endLoop
  repeat' first
    | with_reducible assumption | intro _ | extract_lets | with_reducible apply State.coreFault_keeps
    | with_reducible apply State.goto_keeps | with_reducible apply State.setCore_keeps
    | with_reducible apply State.advance_keeps | with_reducible apply Keeps.ite
    | with_reducible apply Keeps.fstIte | with_reducible apply Keeps.foldPair | with_reducible apply Keeps.fold
    | simp only [Keeps.mk_eq] | split | simp +zetaDelta only [Keeps.mk_eq]

theorem State.branch_keeps {s₀ s : State} (p : Nat) (stm : BitVec 3) (b : Bool) (target : BitVec 14)
    (h : Keeps s₀ s) :
    Keeps s₀ (State.branch s p stm b target) := by
  unfold State.branch
  repeat' first
    | with_reducible assumption | intro _ | extract_lets | with_reducible apply State.goto_keeps
    | with_reducible apply State.advance_keeps | with_reducible apply Keeps.ite
    | with_reducible apply Keeps.fstIte | with_reducible apply Keeps.foldPair | with_reducible apply Keeps.fold
    | simp only [Keeps.mk_eq] | split | simp +zetaDelta only [Keeps.mk_eq]

end Sys2Proof.Machine
end

