-- ==== Sys2Proof/Laws/KeepsWire.lean ====
section
/-!
SUPPORT. `Keeps` for the operations of the links, the Porters, the convoys, the Customs House and the tallies.
-/

namespace Sys2Proof.Machine

set_option Elab.async false
set_option linter.unusedTactic false
set_option linter.unusedSimpArgs false
set_option linter.unreachableTactic false

theorem State.setLink_keeps {s₀ s : State} (l : Nat) (x2 : Link) (h : Keeps s₀ s) :
    Keeps s₀ (State.setLink s l x2) := by
  unfold State.setLink
  repeat' first
    | with_reducible assumption | intro _ | extract_lets | with_reducible apply Keeps.ite
    | with_reducible apply Keeps.fstIte | with_reducible apply Keeps.foldPair | with_reducible apply Keeps.fold
    | simp only [Keeps.mk_eq] | split | simp +zetaDelta only [Keeps.mk_eq]

theorem State.modLink_keeps {s₀ s : State} (l : Nat) (g : Link → Link) (h : Keeps s₀ s) :
    Keeps s₀ (State.modLink s l g) := by
  unfold State.modLink
  repeat' first
    | with_reducible assumption | intro _ | extract_lets | with_reducible apply State.setLink_keeps
    | with_reducible apply Keeps.ite | with_reducible apply Keeps.fstIte | with_reducible apply Keeps.foldPair
    | with_reducible apply Keeps.fold | simp only [Keeps.mk_eq] | split | simp +zetaDelta only [Keeps.mk_eq]

theorem State.logLink_keeps {s₀ s : State} (l : Nat) (code : Nat) (status : Nat) (h : Keeps s₀ s) :
    Keeps s₀ (State.logLink s l code status) := by
  unfold State.logLink
  repeat' first
    | with_reducible assumption | intro _ | extract_lets | with_reducible apply State.logAt_keeps
    | with_reducible apply Keeps.ite | with_reducible apply Keeps.fstIte | with_reducible apply Keeps.foldPair
    | with_reducible apply Keeps.fold | simp only [Keeps.mk_eq] | split | simp +zetaDelta only [Keeps.mk_eq]

theorem State.putOut_keeps {s₀ s : State} (l : Nat) (q : Nat) (laneB : Bool) (f : Frame) (h : Keeps s₀ s) :
    Keeps s₀ (State.putOut s l q laneB f) := by
  unfold State.putOut
  repeat' first
    | with_reducible assumption | intro _ | extract_lets | with_reducible apply State.modLink_keeps
    | with_reducible apply Keeps.ite | with_reducible apply Keeps.fstIte | with_reducible apply Keeps.foldPair
    | with_reducible apply Keeps.fold | simp only [Keeps.mk_eq] | split | simp +zetaDelta only [Keeps.mk_eq]

theorem State.noteSent_keeps {s₀ s : State} (l : Nat) (f : Frame) (h : Keeps s₀ s) :
    Keeps s₀ (State.noteSent s l f) := by
  unfold State.noteSent
  repeat' first
    | with_reducible assumption | intro _ | extract_lets | with_reducible apply Keeps.ite
    | with_reducible apply Keeps.fstIte | with_reducible apply Keeps.foldPair | with_reducible apply Keeps.fold
    | simp only [Keeps.mk_eq] | split | simp +zetaDelta only [Keeps.mk_eq]

theorem State.emit_keeps {s₀ s : State} (l : Nat) (q : Nat) (f : QFrame) (h : Keeps s₀ s) :
    Keeps s₀ (State.emit s l q f) := by
  unfold State.emit
  repeat' first
    | with_reducible assumption | intro _ | extract_lets | with_reducible apply State.noteSent_keeps
    | with_reducible apply State.modLink_keeps | with_reducible apply State.putOut_keeps
    | with_reducible apply Keeps.ite | with_reducible apply Keeps.fstIte | with_reducible apply Keeps.foldPair
    | with_reducible apply Keeps.fold | simp only [Keeps.mk_eq] | split | simp +zetaDelta only [Keeps.mk_eq]

theorem State.outside_keeps {s₀ s : State} (l : Nat) (f : Frame) (h : Keeps s₀ s) :
    Keeps s₀ (State.outside s l f) := by
  unfold State.outside
  repeat' first
    | with_reducible assumption | intro _ | extract_lets | with_reducible apply State.modLink_keeps
    | with_reducible apply Keeps.ite | with_reducible apply Keeps.fstIte | with_reducible apply Keeps.foldPair
    | with_reducible apply Keeps.fold | simp only [Keeps.mk_eq] | split | simp +zetaDelta only [Keeps.mk_eq]

theorem State.freeUnits_keeps {s₀ s : State} (l : Nat) (i : Nat) (n : Nat) (h : Keeps s₀ s) :
    Keeps s₀ (State.freeUnits s l i n) := by
  unfold State.freeUnits
  repeat' first
    | with_reducible assumption | intro _ | extract_lets | with_reducible apply State.modLink_keeps
    | with_reducible apply State.outside_keeps | with_reducible apply Keeps.ite
    | with_reducible apply Keeps.fstIte | with_reducible apply Keeps.foldPair | with_reducible apply Keeps.fold
    | simp only [Keeps.mk_eq] | split | simp +zetaDelta only [Keeps.mk_eq]

theorem State.unhold_keeps {s₀ s : State} (x1 : Option (Nat × Nat × Nat)) (h : Keeps s₀ s) :
    Keeps s₀ (State.unhold s x1) := by
  unfold State.unhold
  repeat' first
    | with_reducible assumption | intro _ | extract_lets | with_reducible apply State.freeUnits_keeps
    | with_reducible apply Keeps.ite | with_reducible apply Keeps.fstIte | with_reducible apply Keeps.foldPair
    | with_reducible apply Keeps.fold | simp only [Keeps.mk_eq] | split | simp +zetaDelta only [Keeps.mk_eq]

theorem State.drainLink_keeps {s₀ s : State} (l : Nat) (h : Keeps s₀ s) :
    Keeps s₀ (State.drainLink s l) := by
  unfold State.drainLink
  repeat' first
    | with_reducible assumption | intro _ | extract_lets | with_reducible apply State.modLink_keeps
    | with_reducible apply State.nicSent_keeps | with_reducible apply State.unhold_keeps
    | with_reducible apply State.emit_keeps | with_reducible apply State.putOut_keeps
    | with_reducible apply Keeps.ite | with_reducible apply Keeps.fstIte | with_reducible apply Keeps.foldPair
    | with_reducible apply Keeps.fold | simp only [Keeps.mk_eq] | split | simp +zetaDelta only [Keeps.mk_eq]

theorem State.enqueue_keeps {s₀ s : State} (l : Nat) (q : Nat) (f : QFrame) (h : Keeps s₀ s) :
    Keeps s₀ (State.enqueue s l q f) := by
  unfold State.enqueue
  repeat' first
    | with_reducible assumption | intro _ | extract_lets | with_reducible apply State.drainLink_keeps
    | with_reducible apply State.modLink_keeps | with_reducible apply Keeps.ite
    | with_reducible apply Keeps.fstIte | with_reducible apply Keeps.foldPair | with_reducible apply Keeps.fold
    | simp only [Keeps.mk_eq] | split | simp +zetaDelta only [Keeps.mk_eq]

theorem State.emitNow_keeps {s₀ s : State} (l : Nat) (f : Frame) (h : Keeps s₀ s) :
    Keeps s₀ (State.emitNow s l f) := by
  unfold State.emitNow
  repeat' first
    | with_reducible assumption | intro _ | extract_lets | with_reducible apply State.drainLink_keeps
    | with_reducible apply State.outside_keeps | with_reducible apply Keeps.ite
    | with_reducible apply Keeps.fstIte | with_reducible apply Keeps.foldPair | with_reducible apply Keeps.fold
    | simp only [Keeps.mk_eq] | split | simp +zetaDelta only [Keeps.mk_eq]

theorem State.sendCredit_keeps {s₀ s : State} (l : Nat) (h : Keeps s₀ s) :
    Keeps s₀ (State.sendCredit s l) := by
  unfold State.sendCredit
  repeat' first
    | with_reducible assumption | intro _ | extract_lets | with_reducible apply State.emitNow_keeps
    | with_reducible apply State.modLink_keeps | with_reducible apply Keeps.ite
    | with_reducible apply Keeps.fstIte | with_reducible apply Keeps.foldPair | with_reducible apply Keeps.fold
    | simp only [Keeps.mk_eq] | split | simp +zetaDelta only [Keeps.mk_eq]

theorem State.countRx_keeps {s₀ s : State} (l : Nat) (h : Keeps s₀ s) : Keeps s₀ (State.countRx s l) := by
  unfold State.countRx
  repeat' first
    | with_reducible assumption | intro _ | extract_lets | with_reducible apply State.modLink_keeps
    | with_reducible apply Keeps.ite | with_reducible apply Keeps.fstIte | with_reducible apply Keeps.foldPair
    | with_reducible apply Keeps.fold | simp only [Keeps.mk_eq] | split | simp +zetaDelta only [Keeps.mk_eq]

theorem State.gotFrame_keeps {s₀ s : State} (l : Nat) (q : Nat) (laneB : Bool) (len : Nat) (h : Keeps s₀ s) :
    Keeps s₀ (State.gotFrame s l q laneB len) := by
  unfold State.gotFrame
  repeat' first
    | with_reducible assumption | intro _ | extract_lets | with_reducible apply State.drainLink_keeps
    | with_reducible apply State.unhold_keeps | with_reducible apply State.countRx_keeps
    | with_reducible apply Keeps.ite | with_reducible apply Keeps.fstIte | with_reducible apply Keeps.foldPair
    | with_reducible apply Keeps.fold | simp only [Keeps.mk_eq] | split | simp +zetaDelta only [Keeps.mk_eq]

theorem State.inLink_keeps {s₀ s : State} (src : Nat) (dst : Nat) (f : Nat) (h : Keeps s₀ s) :
    Keeps s₀ (State.inLink s src dst f).1 := by
  unfold State.inLink
  repeat' first
    | with_reducible assumption | intro _ | extract_lets | with_reducible apply State.useFree_keeps
    | with_reducible apply Keeps.ite | with_reducible apply Keeps.fstIte | with_reducible apply Keeps.foldPair
    | with_reducible apply Keeps.fold | simp only [Keeps.mk_eq] | split | simp +zetaDelta only [Keeps.mk_eq]

theorem State.frameIn_keeps {s₀ s : State} (src : Nat) (dst : Nat) (f : Nat) (q : Nat) (len : Nat)
    (h : Keeps s₀ s) :
    Keeps s₀ (State.frameIn s src dst f q len) := by
  unfold State.frameIn
  repeat' first
    | with_reducible assumption | intro _ | extract_lets | with_reducible apply State.inLink_keeps
    | with_reducible apply State.gotFrame_keeps | with_reducible apply Keeps.ite
    | with_reducible apply Keeps.fstIte | with_reducible apply Keeps.foldPair | with_reducible apply Keeps.fold
    | simp only [Keeps.mk_eq] | split | simp +zetaDelta only [Keeps.mk_eq]

theorem State.sendCtlAck_keeps {s₀ s : State} (l : Nat) (h : Keeps s₀ s) :
    Keeps s₀ (State.sendCtlAck s l) := by
  unfold State.sendCtlAck
  repeat' first
    | with_reducible assumption | intro _ | extract_lets | with_reducible apply State.emitNow_keeps
    | with_reducible apply Keeps.ite | with_reducible apply Keeps.fstIte | with_reducible apply Keeps.foldPair
    | with_reducible apply Keeps.fold | simp only [Keeps.mk_eq] | split | simp +zetaDelta only [Keeps.mk_eq]

theorem State.noLink_keeps {s₀ s : State} (l : Nat) (held : Option (Nat × Nat × Nat)) (h : Keeps s₀ s) :
    Keeps s₀ (State.noLink s l held) := by
  unfold State.noLink
  repeat' first
    | with_reducible assumption | intro _ | extract_lets | with_reducible apply State.unhold_keeps
    | with_reducible apply State.logLink_keeps | with_reducible apply State.modLink_keeps
    | with_reducible apply Keeps.ite | with_reducible apply Keeps.fstIte | with_reducible apply Keeps.foldPair
    | with_reducible apply Keeps.fold | simp only [Keeps.mk_eq] | split | simp +zetaDelta only [Keeps.mk_eq]

theorem State.sendFrame_keeps {s₀ s : State} (inLink : Option Nat) (laneB : Bool) (plane : Bool)
    (held : Option (Nat × Nat × Nat)) (f : Frame) (h : Keeps s₀ s) :
    Keeps s₀ (State.sendFrame s inLink laneB plane held f) := by
  unfold State.sendFrame
  repeat' first
    | with_reducible assumption | intro _ | extract_lets | with_reducible apply State.enqueue_keeps
    | with_reducible apply State.noLink_keeps | with_reducible apply Keeps.ite
    | with_reducible apply Keeps.fstIte | with_reducible apply Keeps.foldPair | with_reducible apply Keeps.fold
    | simp only [Keeps.mk_eq] | split | simp +zetaDelta only [Keeps.mk_eq]

theorem State.sendMsg_keeps {s₀ s : State} (m : MsMsg) (h : Keeps s₀ s) :
    Keeps s₀ (State.sendMsg s m) := by
  unfold State.sendMsg
  repeat' first
    | with_reducible assumption | intro _ | extract_lets | with_reducible apply State.sendFrame_keeps
    | with_reducible apply Keeps.ite | with_reducible apply Keeps.fstIte | with_reducible apply Keeps.foldPair
    | with_reducible apply Keeps.fold | simp only [Keeps.mk_eq] | split | simp +zetaDelta only [Keeps.mk_eq]

theorem State.msAccept_keeps {s₀ s : State} (l : Nat) (m : MsMsg) (h : Keeps s₀ s) :
    Keeps s₀ (State.msAccept s l m) := by
  unfold State.msAccept
  repeat' first
    | with_reducible assumption | intro _ | extract_lets | with_reducible apply State.sendCtlAck_keeps
    | with_reducible apply State.modLink_keeps | with_reducible apply Keeps.ite
    | with_reducible apply Keeps.fstIte | with_reducible apply Keeps.foldPair | with_reducible apply Keeps.fold
    | simp only [Keeps.mk_eq] | split | simp +zetaDelta only [Keeps.mk_eq]

theorem State.msIn_keeps {s₀ s : State} (m : MsMsg) (h : Keeps s₀ s) : Keeps s₀ (State.msIn s m).1 := by
  unfold State.msIn
  repeat' first
    | with_reducible assumption | intro _ | extract_lets | with_reducible apply State.inLink_keeps
    | with_reducible apply State.msAccept_keeps | with_reducible apply State.gotFrame_keeps
    | with_reducible apply Keeps.ite | with_reducible apply Keeps.fstIte | with_reducible apply Keeps.foldPair
    | with_reducible apply Keeps.fold | simp only [Keeps.mk_eq] | split | simp +zetaDelta only [Keeps.mk_eq]

theorem State.moveFrames_keeps {s₀ s : State} (l : Nat) (h : Keeps s₀ s) :
    Keeps s₀ (State.moveFrames s l) := by
  unfold State.moveFrames
  repeat' first
    | with_reducible assumption | intro _ | extract_lets | with_reducible apply State.modLink_keeps
    | with_reducible apply eachDo_keeps | with_reducible apply State.enqueue_keeps
    | with_reducible apply State.noLink_keeps | with_reducible apply Keeps.ite
    | with_reducible apply Keeps.fstIte | with_reducible apply Keeps.foldPair | with_reducible apply Keeps.fold
    | simp only [Keeps.mk_eq] | split | simp +zetaDelta only [Keeps.mk_eq]

theorem State.forgetHeld_keeps {s₀ s : State} (l : Nat) (h : Keeps s₀ s) :
    Keeps s₀ (State.forgetHeld s l) := by
  unfold State.forgetHeld
  repeat' first
    | with_reducible assumption | intro _ | extract_lets | with_reducible apply Keeps.ite
    | with_reducible apply Keeps.fstIte | with_reducible apply Keeps.foldPair | with_reducible apply Keeps.fold
    | simp only [Keeps.mk_eq] | split | simp +zetaDelta only [Keeps.mk_eq]

theorem State.linkDown_keeps {s₀ s : State} (l : Nat) (reason : Nat) (h : Keeps s₀ s) :
    Keeps s₀ (State.linkDown s l reason) := by
  unfold State.linkDown
  repeat' first
    | with_reducible assumption | intro _ | extract_lets | with_reducible apply State.modLink_keeps
    | with_reducible apply State.logLink_keeps | with_reducible apply State.moveFrames_keeps
    | with_reducible apply Keeps.ite | with_reducible apply Keeps.fstIte | with_reducible apply Keeps.foldPair
    | with_reducible apply Keeps.fold | simp only [Keeps.mk_eq] | split | simp +zetaDelta only [Keeps.mk_eq]

theorem State.attemptFailed_keeps {s₀ s : State} (l : Nat) (reason : Nat) (h : Keeps s₀ s) :
    Keeps s₀ (State.attemptFailed s l reason) := by
  unfold State.attemptFailed
  repeat' first
    | with_reducible assumption | intro _ | extract_lets | with_reducible apply State.linkDown_keeps
    | with_reducible apply State.logLink_keeps | with_reducible apply State.modLink_keeps
    | with_reducible apply Keeps.ite | with_reducible apply Keeps.fstIte | with_reducible apply Keeps.foldPair
    | with_reducible apply Keeps.fold | simp only [Keeps.mk_eq] | split | simp +zetaDelta only [Keeps.mk_eq]

theorem State.linkDisable_keeps {s₀ s : State} (l : Nat) (h : Keeps s₀ s) :
    Keeps s₀ (State.linkDisable s l) := by
  unfold State.linkDisable
  repeat' first
    | with_reducible assumption | intro _ | extract_lets | with_reducible apply State.modLink_keeps
    | with_reducible apply State.moveFrames_keeps | with_reducible apply Keeps.ite
    | with_reducible apply Keeps.fstIte | with_reducible apply Keeps.foldPair | with_reducible apply Keeps.fold
    | simp only [Keeps.mk_eq] | split | simp +zetaDelta only [Keeps.mk_eq]

theorem State.linkUp_keeps {s₀ s : State} (l : Nat) (h : Keeps s₀ s) : Keeps s₀ (State.linkUp s l) := by
  unfold State.linkUp
  repeat' first
    | with_reducible assumption | intro _ | extract_lets | with_reducible apply State.modLink_keeps
    | with_reducible apply State.forgetHeld_keeps | with_reducible apply State.logLink_keeps
    | with_reducible apply State.drainLink_keeps | with_reducible apply Keeps.ite
    | with_reducible apply Keeps.fstIte | with_reducible apply Keeps.foldPair | with_reducible apply Keeps.fold
    | simp only [Keeps.mk_eq] | split | simp +zetaDelta only [Keeps.mk_eq]

theorem State.linkFence_keeps {s₀ s : State} (l : Nat) (reason : Nat) (code : Nat) (status : Nat) (h : Keeps s₀ s) :
    Keeps s₀ (State.linkFence s l reason code status) := by
  unfold State.linkFence
  repeat' first
    | with_reducible assumption | intro _ | extract_lets | with_reducible apply State.logLink_keeps
    | with_reducible apply State.modLink_keeps | with_reducible apply State.moveFrames_keeps
    | with_reducible apply Keeps.ite | with_reducible apply Keeps.fstIte | with_reducible apply Keeps.foldPair
    | with_reducible apply Keeps.fold | simp only [Keeps.mk_eq] | split | simp +zetaDelta only [Keeps.mk_eq]

theorem State.setQp_keeps {s₀ s : State} (q : Nat) (x2 : Qp) (h : Keeps s₀ s) :
    Keeps s₀ (State.setQp s q x2) := by
  unfold State.setQp
  repeat' first
    | with_reducible assumption | intro _ | extract_lets | with_reducible apply Keeps.ite
    | with_reducible apply Keeps.fstIte | with_reducible apply Keeps.foldPair | with_reducible apply Keeps.fold
    | simp only [Keeps.mk_eq] | split | simp +zetaDelta only [Keeps.mk_eq]

theorem State.modQp_keeps {s₀ s : State} (q : Nat) (g : Qp → Qp) (h : Keeps s₀ s) :
    Keeps s₀ (State.modQp s q g) := by
  unfold State.modQp
  repeat' first
    | with_reducible assumption | intro _ | extract_lets | with_reducible apply State.setQp_keeps
    | with_reducible apply Keeps.ite | with_reducible apply Keeps.fstIte | with_reducible apply Keeps.foldPair
    | with_reducible apply Keeps.fold | simp only [Keeps.mk_eq] | split | simp +zetaDelta only [Keeps.mk_eq]

theorem State.modPorter_keeps {s₀ s : State} (m : Nat) (g : Porter → Porter) (h : Keeps s₀ s) :
    Keeps s₀ (State.modPorter s m g) := by
  unfold State.modPorter
  repeat' first
    | with_reducible assumption | intro _ | extract_lets | with_reducible apply Keeps.ite
    | with_reducible apply Keeps.fstIte | with_reducible apply Keeps.foldPair | with_reducible apply Keeps.fold
    | simp only [Keeps.mk_eq] | split | simp +zetaDelta only [Keeps.mk_eq]

theorem State.modPage_keeps {s₀ s : State} (m : Nat) (p : Nat) (g : PqPage → PqPage) (h : Keeps s₀ s) :
    Keeps s₀ (State.modPage s m p g) := by
  unfold State.modPage
  repeat' first
    | with_reducible assumption | intro _ | extract_lets | with_reducible apply Keeps.ite
    | with_reducible apply Keeps.fstIte | with_reducible apply Keeps.foldPair | with_reducible apply Keeps.fold
    | simp only [Keeps.mk_eq] | split | simp +zetaDelta only [Keeps.mk_eq]

theorem State.modRegion_keeps {s₀ s : State} (i : Nat) (g : Region → Region) (h : Keeps s₀ s) :
    Keeps s₀ (State.modRegion s i g) := by
  unfold State.modRegion
  repeat' first
    | with_reducible assumption | intro _ | extract_lets | with_reducible apply Keeps.ite
    | with_reducible apply Keeps.fstIte | with_reducible apply Keeps.foldPair | with_reducible apply Keeps.fold
    | simp only [Keeps.mk_eq] | split | simp +zetaDelta only [Keeps.mk_eq]

theorem State.logQp_keeps {s₀ s : State} (q : Nat) (code : Nat) (status : Nat) (args : List Word) (h : Keeps s₀ s) :
    Keeps s₀ (State.logQp s q code status args) := by
  unfold State.logQp
  repeat' first
    | with_reducible assumption | intro _ | extract_lets | with_reducible apply State.logAt_keeps
    | with_reducible apply Keeps.ite | with_reducible apply Keeps.fstIte | with_reducible apply Keeps.foldPair
    | with_reducible apply Keeps.fold | simp only [Keeps.mk_eq] | split | simp +zetaDelta only [Keeps.mk_eq]

theorem State.modOp_keeps {s₀ s : State} (p : Nat) (id : Nat) (g : PorterOp → PorterOp) (h : Keeps s₀ s) :
    Keeps s₀ (State.modOp s p id g) := by
  unfold State.modOp
  repeat' first
    | with_reducible assumption | intro _ | extract_lets | with_reducible apply State.modCore_keeps
    | with_reducible apply Keeps.ite | with_reducible apply Keeps.fstIte | with_reducible apply Keeps.foldPair
    | with_reducible apply Keeps.fold | simp only [Keeps.mk_eq] | split | simp +zetaDelta only [Keeps.mk_eq]

theorem State.failOp_keeps {s₀ s : State} (status : Nat) (x2 : OpRef) (h : Keeps s₀ s) :
    Keeps s₀ (State.failOp s status x2) := by
  unfold State.failOp
  repeat' first
    | with_reducible assumption | intro _ | extract_lets | with_reducible apply State.modOp_keeps
    | with_reducible apply Keeps.ite | with_reducible apply Keeps.fstIte | with_reducible apply Keeps.foldPair
    | with_reducible apply Keeps.fold | simp only [Keeps.mk_eq] | split | simp +zetaDelta only [Keeps.mk_eq]

theorem State.ackOp_keeps {s₀ s : State} (x1 : OpRef) (h : Keeps s₀ s) : Keeps s₀ (State.ackOp s x1) := by
  unfold State.ackOp
  repeat' first
    | with_reducible assumption | intro _ | extract_lets | with_reducible apply State.modOp_keeps
    | with_reducible apply Keeps.ite | with_reducible apply Keeps.fstIte | with_reducible apply Keeps.foldPair
    | with_reducible apply Keeps.fold | simp only [Keeps.mk_eq] | split | simp +zetaDelta only [Keeps.mk_eq]

theorem State.failAll_keeps {s₀ s : State} (q : Nat) (status : Nat) (h : Keeps s₀ s) :
    Keeps s₀ (State.failAll s q status) := by
  unfold State.failAll
  repeat' first
    | with_reducible assumption | intro _ | extract_lets | with_reducible apply eachDo_keeps
    | with_reducible apply State.failOp_keeps | with_reducible apply Keeps.ite
    | with_reducible apply Keeps.fstIte | with_reducible apply Keeps.foldPair | with_reducible apply Keeps.fold
    | simp only [Keeps.mk_eq] | split | simp +zetaDelta only [Keeps.mk_eq]

theorem State.dropResp_keeps {s₀ s : State} (q : Nat) (h : Keeps s₀ s) :
    Keeps s₀ (State.dropResp s q) := by
  unfold State.dropResp
  repeat' first
    | with_reducible assumption | intro _ | extract_lets | with_reducible apply eachDo_keeps
    | with_reducible apply State.modRegion_keeps | with_reducible apply Keeps.ite
    | with_reducible apply Keeps.fstIte | with_reducible apply Keeps.foldPair | with_reducible apply Keeps.fold
    | simp only [Keeps.mk_eq] | split | simp +zetaDelta only [Keeps.mk_eq]

theorem State.qpStop_keeps {s₀ s : State} (q : Nat) (st : QpSt) (h : Keeps s₀ s) :
    Keeps s₀ (State.qpStop s q st) := by
  unfold State.qpStop
  repeat' first
    | with_reducible assumption | intro _ | extract_lets | with_reducible apply State.modQp_keeps
    | with_reducible apply State.dropResp_keeps | with_reducible apply Keeps.ite
    | with_reducible apply Keeps.fstIte | with_reducible apply Keeps.foldPair | with_reducible apply Keeps.fold
    | simp only [Keeps.mk_eq] | split | simp +zetaDelta only [Keeps.mk_eq]

theorem State.qpError_keeps {s₀ s : State} (q : Nat) (status : Nat) (h : Keeps s₀ s) :
    Keeps s₀ (State.qpError s q status) := by
  unfold State.qpError
  repeat' first
    | with_reducible assumption | intro _ | extract_lets | with_reducible apply State.logQp_keeps
    | with_reducible apply State.qpStop_keeps | with_reducible apply State.failAll_keeps
    | with_reducible apply Keeps.ite | with_reducible apply Keeps.fstIte | with_reducible apply Keeps.foldPair
    | with_reducible apply Keeps.fold | simp only [Keeps.mk_eq] | split | simp +zetaDelta only [Keeps.mk_eq]

theorem State.ship_keeps {s₀ s : State} (f : RirisFrame) (h : Keeps s₀ s) :
    Keeps s₀ (State.ship s f) := by
  unfold State.ship
  repeat' first
    | with_reducible assumption | intro _ | extract_lets | with_reducible apply State.sendFrame_keeps
    | with_reducible apply Keeps.ite | with_reducible apply Keeps.fstIte | with_reducible apply Keeps.foldPair
    | with_reducible apply Keeps.fold | simp only [Keeps.mk_eq] | split | simp +zetaDelta only [Keeps.mk_eq]

theorem State.shipOf_keeps {s₀ s : State} (q : Nat) (f : RirisFrame) (h : Keeps s₀ s) :
    Keeps s₀ (State.shipOf s q f) := by
  unfold State.shipOf
  repeat' first
    | with_reducible assumption | intro _ | extract_lets | with_reducible apply State.modPorter_keeps
    | with_reducible apply State.ship_keeps | with_reducible apply Keeps.ite | with_reducible apply Keeps.fstIte
    | with_reducible apply Keeps.foldPair | with_reducible apply Keeps.fold | simp only [Keeps.mk_eq] | split
    | simp +zetaDelta only [Keeps.mk_eq]

theorem State.checkTxseq_keeps {s₀ s : State} (q : Nat) (h : Keeps s₀ s) :
    Keeps s₀ (State.checkTxseq s q) := by
  unfold State.checkTxseq
  repeat' first
    | with_reducible assumption | intro _ | extract_lets | with_reducible apply State.qpError_keeps
    | with_reducible apply State.logQp_keeps | with_reducible apply Keeps.ite
    | with_reducible apply Keeps.fstIte | with_reducible apply Keeps.foldPair | with_reducible apply Keeps.fold
    | simp only [Keeps.mk_eq] | split | simp +zetaDelta only [Keeps.mk_eq]

theorem State.sendUnseq_keeps {s₀ s : State} (q : Nat) (f : RirisFrame) (h : Keeps s₀ s) :
    Keeps s₀ (State.sendUnseq s q f) := by
  unfold State.sendUnseq
  repeat' first
    | with_reducible assumption | intro _ | extract_lets | with_reducible apply State.checkTxseq_keeps
    | with_reducible apply State.shipOf_keeps | with_reducible apply State.setQp_keeps
    | with_reducible apply Keeps.ite | with_reducible apply Keeps.fstIte | with_reducible apply Keeps.foldPair
    | with_reducible apply Keeps.fold | simp only [Keeps.mk_eq] | split | simp +zetaDelta only [Keeps.mk_eq]

theorem State.sendAck_keeps {s₀ s : State} (q : Nat) (h : Keeps s₀ s) : Keeps s₀ (State.sendAck s q) := by
  unfold State.sendAck
  repeat' first
    | with_reducible assumption | intro _ | extract_lets | with_reducible apply State.sendUnseq_keeps
    | with_reducible apply State.modQp_keeps | with_reducible apply Keeps.ite
    | with_reducible apply Keeps.fstIte | with_reducible apply Keeps.foldPair | with_reducible apply Keeps.fold
    | simp only [Keeps.mk_eq] | split | simp +zetaDelta only [Keeps.mk_eq]

theorem State.sendNak_keeps {s₀ s : State} (q : Nat) (code : Nat) (psn : Word) (oplen : Nat) (h : Keeps s₀ s) :
    Keeps s₀ (State.sendNak s q code psn oplen) := by
  unfold State.sendNak
  repeat' first
    | with_reducible assumption | intro _ | extract_lets | with_reducible apply State.sendUnseq_keeps
    | with_reducible apply Keeps.ite | with_reducible apply Keeps.fstIte | with_reducible apply Keeps.foldPair
    | with_reducible apply Keeps.fold | simp only [Keeps.mk_eq] | split | simp +zetaDelta only [Keeps.mk_eq]

theorem State.sendSeq_keeps {s₀ s : State} (q : Nat) (f : RirisFrame) (op : OpRef) (h : Keeps s₀ s) :
    Keeps s₀ (State.sendSeq s q f op) := by
  unfold State.sendSeq
  repeat' first
    | with_reducible assumption | intro _ | extract_lets | with_reducible apply State.setQp_keeps
    | with_reducible apply State.tallyAdd_keeps | with_reducible apply State.checkTxseq_keeps
    | with_reducible apply State.shipOf_keeps | with_reducible apply Keeps.ite
    | with_reducible apply Keeps.fstIte | with_reducible apply Keeps.foldPair | with_reducible apply Keeps.fold
    | simp only [Keeps.mk_eq] | split | simp +zetaDelta only [Keeps.mk_eq]

theorem State.sendHead_keeps {s₀ s : State} (q : Nat) (e : ToSend) (rest : List ToSend) (h : Keeps s₀ s) :
    Keeps s₀ (State.sendHead s q e rest) := by
  unfold State.sendHead
  repeat' first
    | with_reducible assumption | intro _ | extract_lets | with_reducible apply State.modQp_keeps
    | with_reducible apply State.sendSeq_keeps | with_reducible apply State.modRegion_keeps
    | with_reducible apply State.touchRead_keeps | with_reducible apply State.sendNak_keeps
    | with_reducible apply Keeps.ite | with_reducible apply Keeps.fstIte | with_reducible apply Keeps.foldPair
    | with_reducible apply Keeps.fold | simp only [Keeps.mk_eq] | split | simp +zetaDelta only [Keeps.mk_eq]

theorem State.pump_keeps {s₀ s : State} (q n : Nat) (h : Keeps s₀ s) :
    Keeps s₀ (s.pump q n) := by
  induction n generalizing s with
  | zero =>
    exact h
  | succ n ih =>
    unfold State.pump
    repeat' first
      | with_reducible assumption | intro _ | extract_lets | with_reducible apply ih | with_reducible apply ih
      | with_reducible apply State.sendHead_keeps | with_reducible apply Keeps.ite
      | with_reducible apply Keeps.fstIte | with_reducible apply Keeps.foldPair
      | with_reducible apply Keeps.fold | simp only [Keeps.mk_eq] | split | simp +zetaDelta only [Keeps.mk_eq]

theorem State.pumpQp_keeps {s₀ s : State} (q : Nat) (h : Keeps s₀ s) : Keeps s₀ (State.pumpQp s q) := by
  unfold State.pumpQp
  repeat' first
    | with_reducible assumption | intro _ | extract_lets | with_reducible apply State.pump_keeps
    | with_reducible apply Keeps.ite | with_reducible apply Keeps.fstIte | with_reducible apply Keeps.foldPair
    | with_reducible apply Keeps.fold | simp only [Keeps.mk_eq] | split | simp +zetaDelta only [Keeps.mk_eq]

theorem State.queueSend_keeps {s₀ s : State} (q : Nat) (l : List ToSend) (h : Keeps s₀ s) :
    Keeps s₀ (State.queueSend s q l) := by
  unfold State.queueSend
  repeat' first
    | with_reducible assumption | intro _ | extract_lets | with_reducible apply State.pumpQp_keeps
    | with_reducible apply State.modQp_keeps | with_reducible apply Keeps.ite
    | with_reducible apply Keeps.fstIte | with_reducible apply Keeps.foldPair | with_reducible apply Keeps.fold
    | simp only [Keeps.mk_eq] | split | simp +zetaDelta only [Keeps.mk_eq]

theorem State.resend_keeps {s₀ s : State} (q : Nat) (l : List Unacked) (h : Keeps s₀ s) :
    Keeps s₀ (State.resend s q l) := by
  unfold State.resend
  repeat' first
    | with_reducible assumption | intro _ | extract_lets | with_reducible apply State.modPorter_keeps
    | with_reducible apply eachDo_keeps | with_reducible apply State.shipOf_keeps
    | with_reducible apply Keeps.ite | with_reducible apply Keeps.fstIte | with_reducible apply Keeps.foldPair
    | with_reducible apply Keeps.fold | simp only [Keeps.mk_eq] | split | simp +zetaDelta only [Keeps.mk_eq]

theorem State.takeAck_keeps {s₀ s : State} (q : Nat) (ack : Word) (h : Keeps s₀ s) :
    Keeps s₀ (State.takeAck s q ack) := by
  unfold State.takeAck
  repeat' first
    | with_reducible assumption | intro _ | extract_lets | with_reducible apply eachDo_keeps
    | with_reducible apply State.ackOp_keeps | with_reducible apply State.setQp_keeps
    | with_reducible apply Keeps.ite | with_reducible apply Keeps.fstIte | with_reducible apply Keeps.foldPair
    | with_reducible apply Keeps.fold | simp only [Keeps.mk_eq] | split | simp +zetaDelta only [Keeps.mk_eq]

theorem State.takeHeader_keeps {s₀ s : State} (q : Nat) (f : RirisFrame) (h : Keeps s₀ s) :
    Keeps s₀ (State.takeHeader s q f) := by
  unfold State.takeHeader
  repeat' first
    | with_reducible assumption | intro _ | extract_lets | with_reducible apply State.pumpQp_keeps
    | with_reducible apply State.takeAck_keeps | with_reducible apply State.modQp_keeps
    | with_reducible apply Keeps.ite | with_reducible apply Keeps.fstIte | with_reducible apply Keeps.foldPair
    | with_reducible apply Keeps.fold | simp only [Keeps.mk_eq] | split | simp +zetaDelta only [Keeps.mk_eq]

theorem State.qpExhaust_keeps {s₀ s : State} (q : Nat) (status : Nat) (h : Keeps s₀ s) :
    Keeps s₀ (State.qpExhaust s q status) := by
  unfold State.qpExhaust
  repeat' first
    | with_reducible assumption | intro _ | extract_lets | with_reducible apply State.qpError_keeps
    | with_reducible apply State.logQp_keeps | with_reducible apply State.modPorter_keeps
    | with_reducible apply Keeps.ite | with_reducible apply Keeps.fstIte | with_reducible apply Keeps.foldPair
    | with_reducible apply Keeps.fold | simp only [Keeps.mk_eq] | split | simp +zetaDelta only [Keeps.mk_eq]

theorem State.qpExpire_keeps {s₀ s : State} (q : Nat) (h : Keeps s₀ s) :
    Keeps s₀ (State.qpExpire s q) := by
  unfold State.qpExpire
  repeat' first
    | with_reducible assumption | intro _ | extract_lets | with_reducible apply State.pumpQp_keeps
    | with_reducible apply State.resend_keeps | with_reducible apply State.setQp_keeps
    | with_reducible apply State.qpExhaust_keeps | with_reducible apply Keeps.ite
    | with_reducible apply Keeps.fstIte | with_reducible apply Keeps.foldPair | with_reducible apply Keeps.fold
    | simp only [Keeps.mk_eq] | split | simp +zetaDelta only [Keeps.mk_eq]

theorem State.qpBusy_keeps {s₀ s : State} (q : Nat) (psn : Word) (h : Keeps s₀ s) :
    Keeps s₀ (State.qpBusy s q psn) := by
  unfold State.qpBusy
  repeat' first
    | with_reducible assumption | intro _ | extract_lets | with_reducible apply State.qpExhaust_keeps
    | with_reducible apply State.setQp_keeps | with_reducible apply Keeps.ite
    | with_reducible apply Keeps.fstIte | with_reducible apply Keeps.foldPair | with_reducible apply Keeps.fold
    | simp only [Keeps.mk_eq] | split | simp +zetaDelta only [Keeps.mk_eq]

theorem State.reportViolation_keeps {s₀ s : State} (q : Nat) (f : RirisFrame) (h : Keeps s₀ s) :
    Keeps s₀ (State.reportViolation s q f) := by
  unfold State.reportViolation
  repeat' first
    | with_reducible assumption | intro _ | extract_lets | with_reducible apply State.modPage_keeps
    | with_reducible apply State.modPorter_keeps | with_reducible apply State.logQp_keeps
    | with_reducible apply State.event_keeps | with_reducible apply Keeps.ite
    | with_reducible apply Keeps.fstIte | with_reducible apply Keeps.foldPair | with_reducible apply Keeps.fold
    | simp only [Keeps.mk_eq] | split | simp +zetaDelta only [Keeps.mk_eq]

theorem State.answer_keeps {s₀ s : State} (q : Nat) (f : RirisFrame) (code : Nat) (h : Keeps s₀ s) :
    Keeps s₀ (State.answer s q f code) := by
  unfold State.answer
  repeat' first
    | with_reducible assumption | intro _ | extract_lets | with_reducible apply State.sendNak_keeps
    | with_reducible apply State.sendAck_keeps | with_reducible apply State.modQp_keeps
    | with_reducible apply Keeps.ite | with_reducible apply Keeps.fstIte | with_reducible apply Keeps.foldPair
    | with_reducible apply Keeps.fold | simp only [Keeps.mk_eq] | split | simp +zetaDelta only [Keeps.mk_eq]

theorem State.postDepot_keeps {s₀ s : State} (part : Nat) (die : Nat) (num : Nat) (h : Keeps s₀ s) :
    Keeps s₀ (State.postDepot s part die num).1 := by
  unfold State.postDepot
  repeat' first
    | with_reducible assumption | intro _ | extract_lets | with_reducible apply State.modDie_keeps
    | with_reducible apply Keeps.ite | with_reducible apply Keeps.fstIte | with_reducible apply Keeps.foldPair
    | with_reducible apply Keeps.fold | simp only [Keeps.mk_eq] | split | simp +zetaDelta only [Keeps.mk_eq]

theorem State.modConvoy_keeps {s₀ s : State} (p : Nat) (g : Convoy → Convoy) (h : Keeps s₀ s) :
    Keeps s₀ (State.modConvoy s p g) := by
  unfold State.modConvoy
  repeat' first
    | with_reducible assumption | intro _ | extract_lets | with_reducible apply Keeps.ite
    | with_reducible apply Keeps.fstIte | with_reducible apply Keeps.foldPair | with_reducible apply Keeps.fold
    | simp only [Keeps.mk_eq] | split | simp +zetaDelta only [Keeps.mk_eq]

theorem State.logConvoy_keeps {s₀ s : State} (p : Nat) (b : Nat) (code : Nat) (status : Nat)
    (f : Option RirisFrame) (h : Keeps s₀ s) :
    Keeps s₀ (State.logConvoy s p b code status f) := by
  unfold State.logConvoy
  repeat' first
    | with_reducible assumption | intro _ | extract_lets | with_reducible apply State.logAt_keeps
    | with_reducible apply Keeps.ite | with_reducible apply Keeps.fstIte | with_reducible apply Keeps.foldPair
    | with_reducible apply Keeps.fold | simp only [Keeps.mk_eq] | split | simp +zetaDelta only [Keeps.mk_eq]

theorem State.switchDiscard_keeps {s₀ s : State} (p : Nat) (h : Keeps s₀ s) :
    Keeps s₀ (State.switchDiscard s p) := by
  unfold State.switchDiscard
  repeat' first
    | with_reducible assumption | intro _ | extract_lets | with_reducible apply State.logConvoy_keeps
    | with_reducible apply Keeps.ite | with_reducible apply Keeps.fstIte | with_reducible apply Keeps.foldPair
    | with_reducible apply Keeps.fold | simp only [Keeps.mk_eq] | split | simp +zetaDelta only [Keeps.mk_eq]

theorem State.logHouse_keeps {s₀ s : State} (n : Nat) (code : Nat) (status : Nat) (part : Option Nat) (a : Nat)
    (h : Keeps s₀ s) :
    Keeps s₀ (State.logHouse s n code status part a) := by
  unfold State.logHouse
  repeat' first
    | with_reducible assumption | intro _ | extract_lets | with_reducible apply State.logAt_keeps
    | with_reducible apply Keeps.ite | with_reducible apply Keeps.fstIte | with_reducible apply Keeps.foldPair
    | with_reducible apply Keeps.fold | simp only [Keeps.mk_eq] | split | simp +zetaDelta only [Keeps.mk_eq]

theorem State.queueAdds_keeps {s₀ s : State} (src : AddSrc) (l : List (Nat × BitVec 72)) (h : Keeps s₀ s) :
    Keeps s₀ (State.queueAdds s src l) := by
  unfold State.queueAdds
  repeat' first
    | with_reducible assumption | intro _ | extract_lets | with_reducible apply eachDo_keeps
    | with_reducible apply State.modHouse_keeps | with_reducible apply Keeps.ite
    | with_reducible apply Keeps.fstIte | with_reducible apply Keeps.foldPair | with_reducible apply Keeps.fold
    | simp only [Keeps.mk_eq] | split | simp +zetaDelta only [Keeps.mk_eq]

theorem State.issueFrame_keeps {s₀ s : State} (f : PendFrame) (h : Keeps s₀ s) :
    Keeps s₀ (State.issueFrame s f) := by
  unfold State.issueFrame
  repeat' first
    | with_reducible assumption | intro _ | extract_lets | with_reducible apply eachDo_keeps
    | with_reducible apply State.modHouse_keeps | with_reducible apply State.queueAdds_keeps
    | with_reducible apply Keeps.ite | with_reducible apply Keeps.fstIte | with_reducible apply Keeps.foldPair
    | with_reducible apply Keeps.fold | simp only [Keeps.mk_eq] | split | simp +zetaDelta only [Keeps.mk_eq]

theorem State.issueWaiting_keeps {s₀ s : State} (h : Keeps s₀ s) : Keeps s₀ (State.issueWaiting s) := by
  unfold State.issueWaiting
  repeat' first
    | with_reducible assumption | intro _ | extract_lets | with_reducible apply eachDo_keeps
    | with_reducible apply State.issueFrame_keeps | with_reducible apply Keeps.ite
    | with_reducible apply Keeps.fstIte | with_reducible apply Keeps.foldPair | with_reducible apply Keeps.fold
    | simp only [Keeps.mk_eq] | split | simp +zetaDelta only [Keeps.mk_eq]

theorem State.takeEpoch_keeps {s₀ s : State} (p : Nat) (h : Keeps s₀ s) :
    Keeps s₀ (State.takeEpoch s p) := by
  unfold State.takeEpoch
  repeat' first
    | with_reducible assumption | intro _ | extract_lets | with_reducible apply State.logConvoy_keeps
    | with_reducible apply State.modConvoy_keeps | with_reducible apply Keeps.ite
    | with_reducible apply Keeps.fstIte | with_reducible apply Keeps.foldPair | with_reducible apply Keeps.fold
    | simp only [Keeps.mk_eq] | split | simp +zetaDelta only [Keeps.mk_eq]

theorem State.modCus_keeps {s₀ s : State} (p : Nat) (g : CusPart → CusPart) (h : Keeps s₀ s) :
    Keeps s₀ (State.modCus s p g) := by
  unfold State.modCus
  repeat' first
    | with_reducible assumption | intro _ | extract_lets | with_reducible apply Keeps.ite
    | with_reducible apply Keeps.fstIte | with_reducible apply Keeps.foldPair | with_reducible apply Keeps.fold
    | simp only [Keeps.mk_eq] | split | simp +zetaDelta only [Keeps.mk_eq]

theorem State.setKeySlot_keeps {s₀ s : State} (i : Nat) (k : KeySlot) (h : Keeps s₀ s) :
    Keeps s₀ (State.setKeySlot s i k) := by
  unfold State.setKeySlot
  repeat' first
    | with_reducible assumption | intro _ | extract_lets | with_reducible apply Keeps.ite
    | with_reducible apply Keeps.fstIte | with_reducible apply Keeps.foldPair | with_reducible apply Keeps.fold
    | simp only [Keeps.mk_eq] | split | simp +zetaDelta only [Keeps.mk_eq]

theorem State.logCus_keeps {s₀ s : State} (code : Nat) (status : Nat) (part : Option Nat) (args : List Word)
    (h : Keeps s₀ s) :
    Keeps s₀ (State.logCus s code status part args) := by
  unfold State.logCus
  repeat' first
    | with_reducible assumption | intro _ | extract_lets | with_reducible apply State.logAt_keeps
    | with_reducible apply Keeps.ite | with_reducible apply Keeps.fstIte | with_reducible apply Keeps.foldPair
    | with_reducible apply Keeps.fold | simp only [Keeps.mk_eq] | split | simp +zetaDelta only [Keeps.mk_eq]

theorem State.emptySlot_keeps {s₀ s : State} (p : Nat) (i : Nat) (h : Keeps s₀ s) :
    Keeps s₀ (State.emptySlot s p i) := by
  unfold State.emptySlot
  repeat' first
    | with_reducible assumption | intro _ | extract_lets | with_reducible apply State.logCus_keeps
    | with_reducible apply State.setKeySlot_keeps | with_reducible apply Keeps.ite
    | with_reducible apply Keeps.fstIte | with_reducible apply Keeps.foldPair | with_reducible apply Keeps.fold
    | simp only [Keeps.mk_eq] | split | simp +zetaDelta only [Keeps.mk_eq]

theorem State.clearKeys_keeps {s₀ s : State} (p : Nat) (h : Keeps s₀ s) :
    Keeps s₀ (State.clearKeys s p) := by
  unfold State.clearKeys
  repeat' first
    | with_reducible assumption | intro _ | extract_lets | with_reducible apply eachDo_keeps
    | with_reducible apply State.emptySlot_keeps | with_reducible apply State.modCus_keeps
    | with_reducible apply Keeps.ite | with_reducible apply Keeps.fstIte | with_reducible apply Keeps.foldPair
    | with_reducible apply Keeps.fold | simp only [Keeps.mk_eq] | split | simp +zetaDelta only [Keeps.mk_eq]

theorem State.random_keeps {s₀ s : State} (n : Nat) (h : Keeps s₀ s) : Keeps s₀ (s.random n).1 := by
  induction n generalizing s with
  | zero => exact h
  | succ n ih => exact ih (State.useFree_keeps h)

theorem State.freshCisKeys_keeps {s₀ s : State} (p : Nat) (h : Keeps s₀ s) :
    Keeps s₀ (State.freshCisKeys s p) := by
  unfold State.freshCisKeys
  repeat' first
    | with_reducible assumption | intro _ | extract_lets | with_reducible apply State.random_keeps
    | with_reducible apply State.modCus_keeps | with_reducible apply Keeps.ite
    | with_reducible apply Keeps.fstIte | with_reducible apply Keeps.foldPair | with_reducible apply Keeps.fold
    | simp only [Keeps.mk_eq] | split | simp +zetaDelta only [Keeps.mk_eq]

theorem State.unclean_keeps {s₀ s : State} (p : Nat) (h : Keeps s₀ s) : Keeps s₀ (State.unclean s p) := by
  unfold State.unclean
  repeat' first
    | with_reducible assumption | intro _ | extract_lets | with_reducible apply State.modCus_keeps
    | with_reducible apply Keeps.ite | with_reducible apply Keeps.fstIte | with_reducible apply Keeps.foldPair
    | with_reducible apply Keeps.fold | simp only [Keeps.mk_eq] | split | simp +zetaDelta only [Keeps.mk_eq]

theorem State.totalAdd_keeps {s₀ s : State} (p : Nat) (i : Nat) (h : Keeps s₀ s) :
    Keeps s₀ (State.totalAdd s p i) := by
  unfold State.totalAdd
  repeat' first
    | with_reducible assumption | intro _ | extract_lets | with_reducible apply State.logAt_keeps
    | with_reducible apply Keeps.ite | with_reducible apply Keeps.fstIte | with_reducible apply Keeps.foldPair
    | with_reducible apply Keeps.fold | simp only [Keeps.mk_eq] | split | simp +zetaDelta only [Keeps.mk_eq]

theorem State.totalsAdd_keeps {s₀ s : State} (p : Nat) (h : Keeps s₀ s) :
    Keeps s₀ (State.totalsAdd s p) := by
  unfold State.totalsAdd
  repeat' first
    | with_reducible assumption | intro _ | extract_lets | with_reducible apply State.modCore_keeps
    | with_reducible apply eachDo_keeps | with_reducible apply State.totalAdd_keeps
    | with_reducible apply Keeps.ite | with_reducible apply Keeps.fstIte | with_reducible apply Keeps.foldPair
    | with_reducible apply Keeps.fold | simp only [Keeps.mk_eq] | split | simp +zetaDelta only [Keeps.mk_eq]

theorem State.clearTallies_keeps {s₀ s : State} (p : Nat) (h : Keeps s₀ s) :
    Keeps s₀ (State.clearTallies s p) := by
  unfold State.clearTallies
  repeat' first
    | with_reducible assumption | intro _ | extract_lets | with_reducible apply State.modCore_keeps
    | with_reducible apply State.totalsAdd_keeps | with_reducible apply Keeps.ite
    | with_reducible apply Keeps.fstIte | with_reducible apply Keeps.foldPair | with_reducible apply Keeps.fold
    | simp only [Keeps.mk_eq] | split | simp +zetaDelta only [Keeps.mk_eq]

end Sys2Proof.Machine
end

