-- ==== Sys2Proof/Laws/KeepsPart.lean ====
section
/-!
SUPPORT. `Keeps` for the operations of milestones, context switches, received frames and signals.
-/

namespace Sys2Proof.Machine

set_option Elab.async false
set_option linter.unusedTactic false
set_option linter.unusedSimpArgs false
set_option linter.unreachableTactic false

theorem State.modObj_keeps {s₀ s : State} (q : Nat) (o : Nat) (g : MsObj → MsObj) (h : Keeps s₀ s) :
    Keeps s₀ (State.modObj s q o g) := by
  unfold State.modObj
  repeat' first
    | with_reducible assumption | intro _ | extract_lets | with_reducible apply State.modMs_keeps
    | with_reducible apply Keeps.ite | with_reducible apply Keeps.fstIte | with_reducible apply Keeps.foldPair
    | with_reducible apply Keeps.fold | simp only [Keeps.mk_eq] | split | simp +zetaDelta only [Keeps.mk_eq]

theorem State.msUp_keeps {s₀ s : State} (q : Nat) (m : MsMsg) (h : Keeps s₀ s) :
    Keeps s₀ (State.msUp s q m) := by
  unfold State.msUp
  repeat' first
    | with_reducible assumption | intro _ | extract_lets | with_reducible apply State.sendMsg_keeps
    | with_reducible apply Keeps.ite | with_reducible apply Keeps.fstIte | with_reducible apply Keeps.foldPair
    | with_reducible apply Keeps.fold | simp only [Keeps.mk_eq] | split | simp +zetaDelta only [Keeps.mk_eq]

theorem State.msDown_keeps {s₀ s : State} (q : Nat) (m : MsMsg) (h : Keeps s₀ s) :
    Keeps s₀ (State.msDown s q m) := by
  unfold State.msDown
  repeat' first
    | with_reducible assumption | intro _ | extract_lets | with_reducible apply eachDo_keeps
    | with_reducible apply State.sendMsg_keeps | with_reducible apply Keeps.ite
    | with_reducible apply Keeps.fstIte | with_reducible apply Keeps.foldPair | with_reducible apply Keeps.fold
    | simp only [Keeps.mk_eq] | split | simp +zetaDelta only [Keeps.mk_eq]

theorem State.msStale_keeps {s₀ s : State} (q : Nat) (o : Option Nat) (h : Keeps s₀ s) :
    Keeps s₀ (State.msStale s q o) := by
  unfold State.msStale
  repeat' first
    | with_reducible assumption | intro _ | extract_lets | with_reducible apply State.logMs_keeps
    | with_reducible apply State.modMs_keeps | with_reducible apply Keeps.ite
    | with_reducible apply Keeps.fstIte | with_reducible apply Keeps.foldPair | with_reducible apply Keeps.fold
    | simp only [Keeps.mk_eq] | split | simp +zetaDelta only [Keeps.mk_eq]

theorem State.logMsCore_keeps {s₀ s : State} (p : Nat) (q : Nat) (code : Nat) (status : Nat) (o : Option Nat)
    (args : List Word) (h : Keeps s₀ s) :
    Keeps s₀ (State.logMsCore s p q code status o args) := by
  unfold State.logMsCore
  repeat' first
    | with_reducible assumption | intro _ | extract_lets | with_reducible apply State.logAt_keeps
    | with_reducible apply Keeps.ite | with_reducible apply Keeps.fstIte | with_reducible apply Keeps.foldPair
    | with_reducible apply Keeps.fold | simp only [Keeps.mk_eq] | split | simp +zetaDelta only [Keeps.mk_eq]

theorem State.msFault_keeps {s₀ s : State} (p : Nat) (q : Nat) (o : Nat) (gen : BitVec 16) (status : Nat)
    (h : Keeps s₀ s) :
    Keeps s₀ (State.msFault s p q o gen status) := by
  unfold State.msFault
  repeat' first
    | with_reducible assumption | intro _ | extract_lets | with_reducible apply State.coreFaultSeen_keeps
    | with_reducible apply State.logMsCore_keeps | with_reducible apply Keeps.ite
    | with_reducible apply Keeps.fstIte | with_reducible apply Keeps.foldPair | with_reducible apply Keeps.fold
    | simp only [Keeps.mk_eq] | split | simp +zetaDelta only [Keeps.mk_eq]

theorem State.stopWaiters_keeps {s₀ s : State} (q : Nat) (o : Nat) (gen : BitVec 16) (status : Nat)
    (h : Keeps s₀ s) :
    Keeps s₀ (State.stopWaiters s q o gen status) := by
  unfold State.stopWaiters
  repeat' first
    | with_reducible assumption | intro _ | extract_lets | with_reducible apply eachDo_keeps
    | with_reducible apply State.msFault_keeps | with_reducible apply Keeps.ite
    | with_reducible apply Keeps.fstIte | with_reducible apply Keeps.foldPair | with_reducible apply Keeps.fold
    | simp only [Keeps.mk_eq] | split | simp +zetaDelta only [Keeps.mk_eq]

theorem State.abandonAt_keeps {s₀ s : State} (q : Nat) (h : Keeps s₀ s) :
    Keeps s₀ (State.abandonAt s q) := by
  unfold State.abandonAt
  repeat' first
    | with_reducible assumption | intro _ | extract_lets | with_reducible apply State.modPart_keeps
    | with_reducible apply eachDo_keeps | with_reducible apply State.msFault_keeps
    | with_reducible apply Keeps.ite | with_reducible apply Keeps.fstIte | with_reducible apply Keeps.foldPair
    | with_reducible apply Keeps.fold | simp only [Keeps.mk_eq] | split | simp +zetaDelta only [Keeps.mk_eq]

theorem State.abandonJob_keeps {s₀ s : State} (q : Nat) (h : Keeps s₀ s) :
    Keeps s₀ (State.abandonJob s q) := by
  unfold State.abandonJob
  repeat' first
    | with_reducible assumption | intro _ | extract_lets | with_reducible apply State.msDown_keeps
    | with_reducible apply eachDo_keeps | with_reducible apply State.abandonAt_keeps
    | with_reducible apply Keeps.ite | with_reducible apply Keeps.fstIte | with_reducible apply Keeps.foldPair
    | with_reducible apply Keeps.fold | simp only [Keeps.mk_eq] | split | simp +zetaDelta only [Keeps.mk_eq]

theorem State.msAbandon_keeps {s₀ s : State} (q : Nat) (h : Keeps s₀ s) :
    Keeps s₀ (State.msAbandon s q) := by
  unfold State.msAbandon
  repeat' first
    | with_reducible assumption | intro _ | extract_lets | with_reducible apply State.logMs_keeps
    | with_reducible apply State.abandonAt_keeps | with_reducible apply State.abandonJob_keeps
    | with_reducible apply State.msUp_keeps | with_reducible apply Keeps.ite | with_reducible apply Keeps.fstIte
    | with_reducible apply Keeps.foldPair | with_reducible apply Keeps.fold | simp only [Keeps.mk_eq] | split
    | simp +zetaDelta only [Keeps.mk_eq]

theorem State.holdAt_keeps {s₀ s : State} (q : Nat) (v : Bool) (h : Keeps s₀ s) :
    Keeps s₀ (State.holdAt s q v) := by
  unfold State.holdAt
  repeat' first
    | with_reducible assumption | intro _ | extract_lets | with_reducible apply State.modMs_keeps
    | with_reducible apply Keeps.ite | with_reducible apply Keeps.fstIte | with_reducible apply Keeps.foldPair
    | with_reducible apply Keeps.fold | simp only [Keeps.mk_eq] | split | simp +zetaDelta only [Keeps.mk_eq]

theorem State.holdJob_keeps {s₀ s : State} (q : Nat) (v : Bool) (h : Keeps s₀ s) :
    Keeps s₀ (State.holdJob s q v) := by
  unfold State.holdJob
  repeat' first
    | with_reducible assumption | intro _ | extract_lets | with_reducible apply State.msDown_keeps
    | with_reducible apply eachDo_keeps | with_reducible apply State.holdAt_keeps
    | with_reducible apply Keeps.ite | with_reducible apply Keeps.fstIte | with_reducible apply Keeps.foldPair
    | with_reducible apply Keeps.fold | simp only [Keeps.mk_eq] | split | simp +zetaDelta only [Keeps.mk_eq]

theorem State.msHold_keeps {s₀ s : State} (q : Nat) (v : Bool) (h : Keeps s₀ s) :
    Keeps s₀ (State.msHold s q v) := by
  unfold State.msHold
  repeat' first
    | with_reducible assumption | intro _ | extract_lets | with_reducible apply State.modPart_keeps
    | with_reducible apply State.holdJob_keeps | with_reducible apply State.msUp_keeps
    | with_reducible apply Keeps.ite | with_reducible apply Keeps.fstIte | with_reducible apply Keeps.foldPair
    | with_reducible apply Keeps.fold | simp only [Keeps.mk_eq] | split | simp +zetaDelta only [Keeps.mk_eq]

theorem State.msRewind_keeps {s₀ s : State} (q : Nat) (req : Bool) (h : Keeps s₀ s) :
    Keeps s₀ (State.msRewind s q req) := by
  unfold State.msRewind
  repeat' first
    | with_reducible assumption | intro _ | extract_lets | with_reducible apply State.modPart_keeps
    | with_reducible apply Keeps.ite | with_reducible apply Keeps.fstIte | with_reducible apply Keeps.foldPair
    | with_reducible apply Keeps.fold | simp only [Keeps.mk_eq] | split | simp +zetaDelta only [Keeps.mk_eq]

theorem State.enterHalted_keeps {s₀ s : State} (q : Nat) (status : Nat) (h : Keeps s₀ s) :
    Keeps s₀ (State.enterHalted s q status) := by
  unfold State.enterHalted
  repeat' first
    | with_reducible assumption | intro _ | extract_lets | with_reducible apply State.recallCores_keeps
    | with_reducible apply State.msAbandon_keeps | with_reducible apply State.msHold_keeps
    | with_reducible apply State.modConvoy_keeps | with_reducible apply State.modPart_keeps
    | with_reducible apply State.finishPause_keeps | with_reducible apply State.finishStart_keeps
    | with_reducible apply State.setPartSt_keeps | with_reducible apply Keeps.ite
    | with_reducible apply Keeps.fstIte | with_reducible apply Keeps.foldPair | with_reducible apply Keeps.fold
    | simp only [Keeps.mk_eq] | split | simp +zetaDelta only [Keeps.mk_eq]

theorem State.clearCore_keeps {s₀ s : State} (p : Nat) (st : CoreSt) (h : Keeps s₀ s) :
    Keeps s₀ (State.clearCore s p st) := by
  unfold State.clearCore
  repeat' first
    | with_reducible assumption | intro _ | extract_lets | with_reducible apply State.withClock_keeps
    | with_reducible apply State.modCore_keeps | with_reducible apply State.clearTallies_keeps
    | with_reducible apply Keeps.ite | with_reducible apply Keeps.fstIte | with_reducible apply Keeps.foldPair
    | with_reducible apply Keeps.fold | simp only [Keeps.mk_eq] | split | simp +zetaDelta only [Keeps.mk_eq]

theorem State.remap_keeps {s₀ s : State} (n : Nat) (j : Nat) (old : Core) (h : Keeps s₀ s) :
    Keeps s₀ (State.remap s n j old) := by
  unfold State.remap
  repeat' first
    | with_reducible assumption | intro _ | extract_lets | with_reducible apply State.modDie_keeps
    | with_reducible apply State.logCore_keeps | with_reducible apply State.modCore_keeps
    | with_reducible apply Keeps.ite | with_reducible apply Keeps.fstIte | with_reducible apply Keeps.foldPair
    | with_reducible apply Keeps.fold | simp only [Keeps.mk_eq] | split | simp +zetaDelta only [Keeps.mk_eq]

theorem State.lifeQuarantine_keeps {s₀ s : State} (p : Nat) (h : Keeps s₀ s) :
    Keeps s₀ (State.lifeQuarantine s p) := by
  unfold State.lifeQuarantine
  repeat' first
    | with_reducible assumption | intro _ | extract_lets | with_reducible apply State.lifeBegin_keeps
    | with_reducible apply State.modLife_keeps | with_reducible apply State.modDie_keeps
    | with_reducible apply Keeps.ite | with_reducible apply Keeps.fstIte | with_reducible apply Keeps.foldPair
    | with_reducible apply Keeps.fold | simp only [Keeps.mk_eq] | split | simp +zetaDelta only [Keeps.mk_eq]

theorem State.quarantine_keeps {s₀ s : State} (p : Nat) (h : Keeps s₀ s) :
    Keeps s₀ (State.quarantine s p) := by
  unfold State.quarantine
  repeat' first
    | with_reducible assumption | intro _ | extract_lets | with_reducible apply State.clearCore_keeps
    | with_reducible apply State.logCore_keeps | with_reducible apply State.modDie_keeps
    | with_reducible apply State.lifeQuarantine_keeps | with_reducible apply State.remap_keeps
    | with_reducible apply Keeps.ite | with_reducible apply Keeps.fstIte | with_reducible apply Keeps.foldPair
    | with_reducible apply Keeps.fold | simp only [Keeps.mk_eq] | split | simp +zetaDelta only [Keeps.mk_eq]

theorem State.beginSwitch_keeps {s₀ s : State} (q : Nat) (cause : SwitchCause) (h : Keeps s₀ s) :
    Keeps s₀ (State.beginSwitch s q cause) := by
  unfold State.beginSwitch
  repeat' first
    | with_reducible assumption | intro _ | extract_lets | with_reducible apply State.recallCores_keeps
    | with_reducible apply State.msAbandon_keeps | with_reducible apply State.msHold_keeps
    | with_reducible apply eachDo_keeps | with_reducible apply State.qpStop_keeps
    | with_reducible apply State.modRegion_keeps | with_reducible apply State.gateUpd_keeps
    | with_reducible apply State.modPart_keeps | with_reducible apply Keeps.ite
    | with_reducible apply Keeps.fstIte | with_reducible apply Keeps.foldPair | with_reducible apply Keeps.fold
    | simp only [Keeps.mk_eq] | split | simp +zetaDelta only [Keeps.mk_eq]

theorem State.dropDepots_keeps {s₀ s : State} (q : Nat) (h : Keeps s₀ s) :
    Keeps s₀ (State.dropDepots s q) := by
  unfold State.dropDepots
  repeat' first
    | with_reducible assumption | intro _ | extract_lets | with_reducible apply eachDo_keeps
    | with_reducible apply State.modDie_keeps | with_reducible apply Keeps.ite
    | with_reducible apply Keeps.fstIte | with_reducible apply Keeps.foldPair | with_reducible apply Keeps.fold
    | simp only [Keeps.mk_eq] | split | simp +zetaDelta only [Keeps.mk_eq]

theorem State.finishSwitch_keeps {s₀ s : State} (q : Nat) (h : Keeps s₀ s) :
    Keeps s₀ (State.finishSwitch s q) := by
  unfold State.finishSwitch
  repeat' first
    | with_reducible assumption | intro _ | extract_lets | with_reducible apply eachDo_keeps
    | with_reducible apply State.clearCore_keeps | with_reducible apply State.clearKeys_keeps
    | with_reducible apply State.dropDepots_keeps | with_reducible apply State.gateUpd_keeps
    | with_reducible apply State.modPart_keeps | with_reducible apply State.modConvoy_keeps
    | with_reducible apply State.finishPause_keeps | with_reducible apply State.finishStart_keeps
    | with_reducible apply State.setPartSt_keeps | with_reducible apply Keeps.ite
    | with_reducible apply Keeps.fstIte | with_reducible apply Keeps.foldPair | with_reducible apply Keeps.fold
    | simp only [Keeps.mk_eq] | split | simp +zetaDelta only [Keeps.mk_eq]

theorem State.dropQueued_keeps {s₀ s : State} (q : Nat) (h : Keeps s₀ s) :
    Keeps s₀ (State.dropQueued s q) := by
  unfold State.dropQueued
  repeat' first
    | with_reducible assumption | intro _ | extract_lets | with_reducible apply Keeps.ite
    | with_reducible apply Keeps.fstIte | with_reducible apply Keeps.foldPair | with_reducible apply Keeps.fold
    | simp only [Keeps.mk_eq] | split | simp +zetaDelta only [Keeps.mk_eq]

theorem State.enterRecovering_keeps {s₀ s : State} (q : Nat) (status : Nat) (quar : List Nat) (who : Option Nat)
    (h : Keeps s₀ s) :
    Keeps s₀ (State.enterRecovering s q status quar who) := by
  unfold State.enterRecovering
  repeat' first
    | with_reducible assumption | intro _ | extract_lets | with_reducible apply State.enterHalted_keeps
    | with_reducible apply State.logPart_keeps | with_reducible apply State.modPart_keeps
    | with_reducible apply State.msHold_keeps | with_reducible apply State.setPartSt_keeps
    | with_reducible apply State.msRewind_keeps | with_reducible apply State.dropQueued_keeps
    | with_reducible apply State.recallCores_keeps | with_reducible apply Keeps.ite
    | with_reducible apply Keeps.fstIte | with_reducible apply Keeps.foldPair | with_reducible apply Keeps.fold
    | simp only [Keeps.mk_eq] | split | simp +zetaDelta only [Keeps.mk_eq]

theorem State.takeReplayPoint_keeps {s₀ s : State} (q : Nat) (o : Nat) (gen : BitVec 16) (vr : Bool)
    (snaps : Tab Snapshot) (h : Keeps s₀ s) :
    Keeps s₀ (State.takeReplayPoint s q o gen vr snaps) := by
  unfold State.takeReplayPoint
  repeat' first
    | with_reducible assumption | intro _ | extract_lets | with_reducible apply State.modPart_keeps
    | with_reducible apply State.modConvoy_keeps | with_reducible apply Keeps.ite
    | with_reducible apply Keeps.fstIte | with_reducible apply Keeps.foldPair | with_reducible apply Keeps.fold
    | simp only [Keeps.mk_eq] | split | simp +zetaDelta only [Keeps.mk_eq]

theorem State.adoptPoint_keeps {s₀ s : State} (q : Nat) (mid : BitVec 16) (gen : BitVec 16) (h : Keeps s₀ s) :
    Keeps s₀ (State.adoptPoint s q mid gen) := by
  unfold State.adoptPoint
  repeat' first
    | with_reducible assumption | intro _ | extract_lets | with_reducible apply State.takeReplayPoint_keeps
    | with_reducible apply Keeps.ite | with_reducible apply Keeps.fstIte | with_reducible apply Keeps.foldPair
    | with_reducible apply Keeps.fold | simp only [Keeps.mk_eq] | split | simp +zetaDelta only [Keeps.mk_eq]

theorem State.replayPart_keeps {s₀ s : State} (q : Nat) (status : Nat) (mid : BitVec 16) (gen : BitVec 16)
    (h : Keeps s₀ s) :
    Keeps s₀ (State.replayPart s q status mid gen) := by
  unfold State.replayPart
  repeat' first
    | with_reducible assumption | intro _ | extract_lets | with_reducible apply State.adoptPoint_keeps
    | with_reducible apply State.msRewind_keeps | with_reducible apply State.enterRecovering_keeps
    | with_reducible apply Keeps.ite | with_reducible apply Keeps.fstIte | with_reducible apply Keeps.foldPair
    | with_reducible apply Keeps.fold | simp only [Keeps.mk_eq] | split | simp +zetaDelta only [Keeps.mk_eq]

theorem State.beginRecovery_keeps {s₀ s : State} (q : Nat) (p : Nat) (status : Nat) (quar : List Nat)
    (h : Keeps s₀ s) :
    Keeps s₀ (State.beginRecovery s q p status quar) := by
  unfold State.beginRecovery
  repeat' first
    | with_reducible assumption | intro _ | extract_lets | with_reducible apply State.enterRecovering_keeps
    | with_reducible apply State.msDown_keeps | with_reducible apply eachDo_keeps
    | with_reducible apply State.replayPart_keeps | with_reducible apply State.msUp_keeps
    | with_reducible apply Keeps.ite | with_reducible apply Keeps.fstIte | with_reducible apply Keeps.foldPair
    | with_reducible apply Keeps.fold | simp only [Keeps.mk_eq] | split | simp +zetaDelta only [Keeps.mk_eq]

theorem State.finishRecall_keeps {s₀ s : State} (q : Nat) (r : Recovery) (h : Keeps s₀ s) :
    Keeps s₀ (State.finishRecall s q r) := by
  unfold State.finishRecall
  repeat' first
    | with_reducible assumption | intro _ | extract_lets | with_reducible apply eachDo_keeps
    | with_reducible apply State.quarantine_keeps | with_reducible apply State.modCore_keeps
    | with_reducible apply State.modDie_keeps | with_reducible apply State.modConvoy_keeps
    | with_reducible apply State.modPart_keeps | with_reducible apply State.msHold_keeps
    | with_reducible apply State.logPart_keeps | with_reducible apply State.setPartSt_keeps
    | with_reducible apply Keeps.ite | with_reducible apply Keeps.fstIte | with_reducible apply Keeps.foldPair
    | with_reducible apply Keeps.fold | simp only [Keeps.mk_eq] | split | simp +zetaDelta only [Keeps.mk_eq]

theorem State.partFault_keeps {s₀ s : State} (q : Nat) (p : Nat) (status : Nat) (quar : Bool) (h : Keeps s₀ s) :
    Keeps s₀ (State.partFault s q p status quar) := by
  unfold State.partFault
  repeat' first
    | with_reducible assumption | intro _ | extract_lets | with_reducible apply State.quarantine_keeps
    | with_reducible apply State.enterHalted_keeps | with_reducible apply State.modPart_keeps
    | with_reducible apply State.beginRecovery_keeps | with_reducible apply Keeps.ite
    | with_reducible apply Keeps.fstIte | with_reducible apply Keeps.foldPair | with_reducible apply Keeps.fold
    | simp only [Keeps.mk_eq] | split | simp +zetaDelta only [Keeps.mk_eq]

theorem State.arriveNew_keeps {s₀ s : State} (p : Nat) (q : Nat) (l : Nat) (o : Nat) (wait : Bool) (rp : Bool)
    (vr : Bool) (stm : BitVec 3) (h : Keeps s₀ s) :
    Keeps s₀ (State.arriveNew s p q l o wait rp vr stm) := by
  unfold State.arriveNew
  repeat' first
    | with_reducible assumption | intro _ | extract_lets | with_reducible apply State.modPart_keeps
    | with_reducible apply State.modObj_keeps | with_reducible apply State.traceAt_keeps
    | with_reducible apply State.beginWait_keeps | with_reducible apply State.advance_keeps
    | with_reducible apply Keeps.ite | with_reducible apply Keeps.fstIte | with_reducible apply Keeps.foldPair
    | with_reducible apply Keeps.fold | simp only [Keeps.mk_eq] | split | simp +zetaDelta only [Keeps.mk_eq]

theorem State.arrive_keeps {s₀ s : State} (p : Nat) (q : Nat) (l : Nat) (o : Nat) (wait : Bool) (rp : Bool)
    (vr : Bool) (stm : BitVec 3) (h : Keeps s₀ s) :
    Keeps s₀ (State.arrive s p q l o wait rp vr stm) := by
  unfold State.arrive
  repeat' first
    | with_reducible assumption | intro _ | extract_lets | with_reducible apply State.beginWait_keeps
    | with_reducible apply State.coreFault_keeps | with_reducible apply State.arriveNew_keeps
    | with_reducible apply Keeps.ite | with_reducible apply Keeps.fstIte | with_reducible apply Keeps.foldPair
    | with_reducible apply Keeps.fold | simp only [Keeps.mk_eq] | split | simp +zetaDelta only [Keeps.mk_eq]

theorem State.wake_keeps {s₀ s : State} (p : Nat) (q : Nat) (o : Nat) (gen : BitVec 16) (h : Keeps s₀ s) :
    Keeps s₀ (State.wake s p q o gen) := by
  unfold State.wake
  repeat' first
    | with_reducible assumption | intro _ | extract_lets | with_reducible apply State.endWait_keeps
    | with_reducible apply State.traceAt_keeps | with_reducible apply State.advance_keeps
    | with_reducible apply State.arrive_keeps | with_reducible apply Keeps.ite
    | with_reducible apply Keeps.fstIte | with_reducible apply Keeps.foldPair | with_reducible apply Keeps.fold
    | simp only [Keeps.mk_eq] | split | simp +zetaDelta only [Keeps.mk_eq]

theorem State.wakeHeld_keeps {s₀ s : State} (q : Nat) (h : Keeps s₀ s) :
    Keeps s₀ (State.wakeHeld s q) := by
  unfold State.wakeHeld
  repeat' first
    | with_reducible assumption | intro _ | extract_lets | with_reducible apply eachDo_keeps
    | with_reducible apply State.wake_keeps | with_reducible apply State.modPart_keeps
    | with_reducible apply Keeps.ite | with_reducible apply Keeps.fstIte | with_reducible apply Keeps.foldPair
    | with_reducible apply Keeps.fold | simp only [Keeps.mk_eq] | split | simp +zetaDelta only [Keeps.mk_eq]

theorem State.startPhase_keeps {s₀ s : State} (q : Nat) (mid : BitVec 16) (h : Keeps s₀ s) :
    Keeps s₀ (State.startPhase s q mid) := by
  unfold State.startPhase
  repeat' first
    | with_reducible assumption | intro _ | extract_lets | with_reducible apply Keeps.ite
    | with_reducible apply Keeps.fstIte | with_reducible apply Keeps.foldPair | with_reducible apply Keeps.fold
    | simp only [Keeps.mk_eq] | split | simp +zetaDelta only [Keeps.mk_eq]

theorem State.endRecovery_keeps {s₀ s : State} (q : Nat) (h : Keeps s₀ s) :
    Keeps s₀ (State.endRecovery s q) := by
  unfold State.endRecovery
  repeat' first
    | with_reducible assumption | intro _ | extract_lets | with_reducible apply State.modPart_keeps
    | with_reducible apply State.setPartSt_keeps | with_reducible apply Keeps.ite
    | with_reducible apply Keeps.fstIte | with_reducible apply Keeps.foldPair | with_reducible apply Keeps.fold
    | simp only [Keeps.mk_eq] | split | simp +zetaDelta only [Keeps.mk_eq]

theorem State.jobTakes_keeps {s₀ s : State} (q : Nat) (pair : Option (BitVec 256 × Word)) (h : Keeps s₀ s) :
    Keeps s₀ (State.jobTakes s q pair) := by
  unfold State.jobTakes
  repeat' first
    | with_reducible assumption | intro _ | extract_lets | with_reducible apply State.logSerai_keeps
    | with_reducible apply State.modPart_keeps | with_reducible apply Keeps.ite
    | with_reducible apply Keeps.fstIte | with_reducible apply Keeps.foldPair | with_reducible apply Keeps.fold
    | simp only [Keeps.mk_eq] | split | simp +zetaDelta only [Keeps.mk_eq]

theorem State.lateSwitch_keeps {s₀ s : State} (q : Nat) (mid : BitVec 16) (gen : BitVec 16) (h : Keeps s₀ s) :
    Keeps s₀ (State.lateSwitch s q mid gen) := by
  unfold State.lateSwitch
  repeat' first
    | with_reducible assumption | intro _ | extract_lets | with_reducible apply State.jobTakes_keeps
    | with_reducible apply State.beginSwitch_keeps | with_reducible apply Keeps.ite
    | with_reducible apply Keeps.fstIte | with_reducible apply Keeps.foldPair | with_reducible apply Keeps.fold
    | simp only [Keeps.mk_eq] | split | simp +zetaDelta only [Keeps.mk_eq]

theorem State.earlySwitch_keeps {s₀ s : State} (q : Nat) (mid : BitVec 16) (gen : BitVec 16) (h : Keeps s₀ s) :
    Keeps s₀ (State.earlySwitch s q mid gen) := by
  unfold State.earlySwitch
  repeat' first
    | with_reducible assumption | intro _ | extract_lets | with_reducible apply State.jobTakes_keeps
    | with_reducible apply State.msHold_keeps | with_reducible apply State.setPartSt_keeps
    | with_reducible apply Keeps.ite | with_reducible apply Keeps.fstIte | with_reducible apply Keeps.foldPair
    | with_reducible apply Keeps.fold | simp only [Keeps.mk_eq] | split | simp +zetaDelta only [Keeps.mk_eq]

theorem State.manifestRelease_keeps {s₀ s : State} (q : Nat) (mid : BitVec 16) (gen : BitVec 16) (h : Keeps s₀ s) :
    Keeps s₀ (State.manifestRelease s q mid gen) := by
  unfold State.manifestRelease
  repeat' first
    | with_reducible assumption | intro _ | extract_lets | with_reducible apply State.earlySwitch_keeps
    | with_reducible apply State.lateSwitch_keeps | with_reducible apply Keeps.ite
    | with_reducible apply Keeps.fstIte | with_reducible apply Keeps.foldPair | with_reducible apply Keeps.fold
    | simp only [Keeps.mk_eq] | split | simp +zetaDelta only [Keeps.mk_eq]

theorem State.takePause_keeps {s₀ s : State} (q : Nat) (h : Keeps s₀ s) :
    Keeps s₀ (State.takePause s q) := by
  unfold State.takePause
  repeat' first
    | with_reducible assumption | intro _ | extract_lets | with_reducible apply State.setPartSt_keeps
    | with_reducible apply State.msHold_keeps | with_reducible apply State.finishPause_keeps
    | with_reducible apply Keeps.ite | with_reducible apply Keeps.fstIte | with_reducible apply Keeps.foldPair
    | with_reducible apply Keeps.fold | simp only [Keeps.mk_eq] | split | simp +zetaDelta only [Keeps.mk_eq]

theorem State.releaseOk_keeps {s₀ s : State} (q : Nat) (o : Nat) (gen : BitVec 16) (waiters : List Nat)
    (h : Keeps s₀ s) :
    Keeps s₀ (State.releaseOk s q o gen waiters) := by
  unfold State.releaseOk
  repeat' first
    | with_reducible assumption | intro _ | extract_lets | with_reducible apply State.takeEpoch_keeps
    | with_reducible apply State.endRecovery_keeps | with_reducible apply State.takeReplayPoint_keeps
    | with_reducible apply State.takePause_keeps | with_reducible apply State.manifestRelease_keeps
    | with_reducible apply State.startPhase_keeps | with_reducible apply State.modPart_keeps
    | with_reducible apply eachDo_keeps | with_reducible apply State.wake_keeps | with_reducible apply Keeps.ite
    | with_reducible apply Keeps.fstIte | with_reducible apply Keeps.foldPair | with_reducible apply Keeps.fold
    | simp only [Keeps.mk_eq] | split | simp +zetaDelta only [Keeps.mk_eq]

theorem State.release_keeps {s₀ s : State} (q : Nat) (o : Nat) (status : Nat) (mismatch : Option (BitVec 20))
    (h : Keeps s₀ s) :
    Keeps s₀ (State.release s q o status mismatch) := by
  unfold State.release
  repeat' first
    | with_reducible assumption | intro _ | extract_lets | with_reducible apply State.modObj_keeps
    | with_reducible apply State.logMs_keeps | with_reducible apply State.modMs_keeps
    | with_reducible apply State.releaseOk_keeps | with_reducible apply State.modPart_keeps
    | with_reducible apply eachDo_keeps | with_reducible apply State.msFault_keeps
    | with_reducible apply Keeps.ite | with_reducible apply Keeps.fstIte | with_reducible apply Keeps.foldPair
    | with_reducible apply Keeps.fold | simp only [Keeps.mk_eq] | split | simp +zetaDelta only [Keeps.mk_eq]

theorem State.releaseHere_keeps {s₀ s : State} (parts : List Nat) (mid : BitVec 16) (gen : BitVec 16)
    (status : Nat) (mismatch : Option (BitVec 20)) (h : Keeps s₀ s) :
    Keeps s₀ (State.releaseHere s parts mid gen status mismatch) := by
  unfold State.releaseHere
  repeat' first
    | with_reducible assumption | intro _ | extract_lets | with_reducible apply eachDo_keeps
    | with_reducible apply State.release_keeps | with_reducible apply Keeps.ite
    | with_reducible apply Keeps.fstIte | with_reducible apply Keeps.foldPair | with_reducible apply Keeps.fold
    | simp only [Keeps.mk_eq] | split | simp +zetaDelta only [Keeps.mk_eq]

theorem State.rootRelease_keeps {s₀ s : State} (q : Nat) (o : Nat) (status : Nat) (f : Fold) (h : Keeps s₀ s) :
    Keeps s₀ (State.rootRelease s q o status f) := by
  unfold State.rootRelease
  repeat' first
    | with_reducible assumption | intro _ | extract_lets | with_reducible apply State.releaseHere_keeps
    | with_reducible apply State.msDown_keeps | with_reducible apply State.release_keeps
    | with_reducible apply Keeps.ite | with_reducible apply Keeps.fstIte | with_reducible apply Keeps.foldPair
    | with_reducible apply Keeps.fold | simp only [Keeps.mk_eq] | split | simp +zetaDelta only [Keeps.mk_eq]

theorem State.setDue_keeps {s₀ s : State} (q : Nat) (o : Nat) (f : Fold) (h : Keeps s₀ s) :
    Keeps s₀ (State.setDue s q o f) := by
  unfold State.setDue
  repeat' first
    | with_reducible assumption | intro _ | extract_lets | with_reducible apply State.modObj_keeps
    | with_reducible apply Keeps.ite | with_reducible apply Keeps.fstIte | with_reducible apply Keeps.foldPair
    | with_reducible apply Keeps.fold | simp only [Keeps.mk_eq] | split | simp +zetaDelta only [Keeps.mk_eq]

theorem State.nodeArrival_keeps {s₀ s : State} (q o : Nat) (src : BitVec 20) (f : Fold) (l n : Nat)
    (h : Keeps s₀ s) :
    Keeps s₀ (s.nodeArrival q o src f l n) := by
  induction n generalizing s src f l with
  | zero =>
    cases l <;> exact h
  | succ n ih =>
    unfold State.nodeArrival
    repeat' first
      | with_reducible assumption | intro _ | extract_lets | with_reducible apply ih | with_reducible apply ih
      | with_reducible apply State.modObj_keeps | with_reducible apply State.setDue_keeps
      | with_reducible apply State.sendMsg_keeps | with_reducible apply Keeps.ite
      | with_reducible apply Keeps.fstIte | with_reducible apply Keeps.foldPair
      | with_reducible apply Keeps.fold | simp only [Keeps.mk_eq] | split | simp +zetaDelta only [Keeps.mk_eq]

theorem State.moduleArrival_keeps {s₀ s : State} (q : Nat) (o : Nat) (h : Keeps s₀ s) :
    Keeps s₀ (State.moduleArrival s q o) := by
  unfold State.moduleArrival
  repeat' first
    | with_reducible assumption | intro _ | extract_lets | with_reducible apply State.setDue_keeps
    | with_reducible apply State.modObj_keeps | with_reducible apply State.nodeArrival_keeps
    | with_reducible apply State.sendMsg_keeps | with_reducible apply Keeps.ite
    | with_reducible apply Keeps.fstIte | with_reducible apply Keeps.foldPair | with_reducible apply Keeps.fold
    | simp only [Keeps.mk_eq] | split | simp +zetaDelta only [Keeps.mk_eq]

theorem State.sendLocal_keeps {s₀ s : State} (q : Nat) (o : Nat) (h : Keeps s₀ s) :
    Keeps s₀ (State.sendLocal s q o) := by
  unfold State.sendLocal
  repeat' first
    | with_reducible assumption | intro _ | extract_lets | with_reducible apply State.setDue_keeps
    | with_reducible apply State.modConvoy_keeps | with_reducible apply State.moduleArrival_keeps
    | with_reducible apply Keeps.ite | with_reducible apply Keeps.fstIte | with_reducible apply Keeps.foldPair
    | with_reducible apply Keeps.fold | simp only [Keeps.mk_eq] | split | simp +zetaDelta only [Keeps.mk_eq]

theorem State.localComplete_keeps {s₀ s : State} (q : Nat) (o : Nat) (h : Keeps s₀ s) :
    Keeps s₀ (State.localComplete s q o) := by
  unfold State.localComplete
  repeat' first
    | with_reducible assumption | intro _ | extract_lets | with_reducible apply State.logConvoy_keeps
    | with_reducible apply State.modObj_keeps | with_reducible apply State.modConvoy_keeps
    | with_reducible apply State.sendLocal_keeps | with_reducible apply Keeps.ite
    | with_reducible apply Keeps.fstIte | with_reducible apply Keeps.foldPair | with_reducible apply Keeps.fold
    | simp only [Keeps.mk_eq] | split | simp +zetaDelta only [Keeps.mk_eq]

theorem State.countArrival_keeps {s₀ s : State} (q : Nat) (o : Nat) (l : Nat) (h : Keeps s₀ s) :
    Keeps s₀ (State.countArrival s q o l) := by
  unfold State.countArrival
  repeat' first
    | with_reducible assumption | intro _ | extract_lets | with_reducible apply State.modObj_keeps
    | with_reducible apply State.localComplete_keeps | with_reducible apply Keeps.ite
    | with_reducible apply Keeps.fstIte | with_reducible apply Keeps.foldPair | with_reducible apply Keeps.fold
    | simp only [Keeps.mk_eq] | split | simp +zetaDelta only [Keeps.mk_eq]

theorem State.refuseTag_keeps {s₀ s : State} (p : Nat) (b : Nat) (code : Nat) (f : RirisFrame) (h : Keeps s₀ s) :
    Keeps s₀ (State.refuseTag s p b code f).1 := by
  unfold State.refuseTag
  repeat' first
    | with_reducible assumption | intro _ | extract_lets | with_reducible apply State.logConvoy_keeps
    | with_reducible apply State.modConvoy_keeps | with_reducible apply Keeps.ite
    | with_reducible apply Keeps.fstIte | with_reducible apply Keeps.foldPair | with_reducible apply Keeps.fold
    | simp only [Keeps.mk_eq] | split | simp +zetaDelta only [Keeps.mk_eq]

theorem State.refuseAccess_keeps {s₀ s : State} (q : Nat) (f : RirisFrame) (h : Keeps s₀ s) :
    Keeps s₀ (State.refuseAccess s q f).1 := by
  unfold State.refuseAccess
  repeat' first
    | with_reducible assumption | intro _ | extract_lets | with_reducible apply State.reportViolation_keeps
    | with_reducible apply Keeps.ite | with_reducible apply Keeps.fstIte | with_reducible apply Keeps.foldPair
    | with_reducible apply Keeps.fold | simp only [Keeps.mk_eq] | split | simp +zetaDelta only [Keeps.mk_eq]

theorem State.convoyAdds_keeps {s₀ s : State} (q : Nat) (p : Nat) (b : Nat) (x4 : ConvoyHdr) (f : RirisFrame)
    (h : Keeps s₀ s) :
    Keeps s₀ (State.convoyAdds s q p b x4 f).1 := by
  unfold State.convoyAdds
  repeat' first
    | with_reducible assumption | intro _ | extract_lets | with_reducible apply State.refuseAccess_keeps
    | with_reducible apply Keeps.ite | with_reducible apply Keeps.fstIte | with_reducible apply Keeps.foldPair
    | with_reducible apply Keeps.fold | simp only [Keeps.mk_eq] | split | simp +zetaDelta only [Keeps.mk_eq]

theorem State.convoyOpen_keeps {s₀ s : State} (q : Nat) (p : Nat) (b : Nat) (x4 : ConvoyHdr) (f : RirisFrame)
    (h : Keeps s₀ s) :
    Keeps s₀ (State.convoyOpen s q p b x4 f).1 := by
  unfold State.convoyOpen
  repeat' first
    | with_reducible assumption | intro _ | extract_lets | with_reducible apply State.refuseAccess_keeps
    | with_reducible apply State.logConvoy_keeps | with_reducible apply State.touchRead_keeps
    | with_reducible apply State.convoyAdds_keeps | with_reducible apply State.modConvoy_keeps
    | with_reducible apply Keeps.ite | with_reducible apply Keeps.fstIte | with_reducible apply Keeps.foldPair
    | with_reducible apply Keeps.fold | simp only [Keeps.mk_eq] | split | simp +zetaDelta only [Keeps.mk_eq]

theorem State.convoyBucket_keeps {s₀ s : State} (q : Nat) (p : Nat) (x3 : ConvoyHdr) (f : RirisFrame)
    (h : Keeps s₀ s) :
    Keeps s₀ (State.convoyBucket s q p x3 f).1 := by
  unfold State.convoyBucket
  repeat' first
    | with_reducible assumption | intro _ | extract_lets | with_reducible apply State.refuseAccess_keeps
    | with_reducible apply State.convoyOpen_keeps | with_reducible apply State.refuseTag_keeps
    | with_reducible apply State.logConvoy_keeps | with_reducible apply State.convoyAdds_keeps
    | with_reducible apply Keeps.ite | with_reducible apply Keeps.fstIte | with_reducible apply Keeps.foldPair
    | with_reducible apply Keeps.fold | simp only [Keeps.mk_eq] | split | simp +zetaDelta only [Keeps.mk_eq]

theorem State.convoyCheck_keeps {s₀ s : State} (q : Nat) (f : RirisFrame) (h : Keeps s₀ s) :
    Keeps s₀ (State.convoyCheck s q f).1 := by
  unfold State.convoyCheck
  repeat' first
    | with_reducible assumption | intro _ | extract_lets | with_reducible apply State.logConvoy_keeps
    | with_reducible apply State.modConvoy_keeps | with_reducible apply State.convoyBucket_keeps
    | with_reducible apply State.takeEpoch_keeps | with_reducible apply State.refuseTag_keeps
    | with_reducible apply Keeps.ite | with_reducible apply Keeps.fstIte | with_reducible apply Keeps.foldPair
    | with_reducible apply Keeps.fold | simp only [Keeps.mk_eq] | split | simp +zetaDelta only [Keeps.mk_eq]

theorem State.endHold_keeps {s₀ s : State} (p : Nat) (h : Keeps s₀ s) : Keeps s₀ (State.endHold s p) := by
  unfold State.endHold
  repeat' first
    | with_reducible assumption | intro _ | extract_lets | with_reducible apply State.modConvoy_keeps
    | with_reducible apply State.sendLocal_keeps | with_reducible apply Keeps.ite
    | with_reducible apply Keeps.fstIte | with_reducible apply Keeps.foldPair | with_reducible apply Keeps.fold
    | simp only [Keeps.mk_eq] | split | simp +zetaDelta only [Keeps.mk_eq]

theorem State.retireToken_keeps {s₀ s : State} (p : Nat) (b : Nat) (k : Bkt) (h : Keeps s₀ s) :
    Keeps s₀ (State.retireToken s p b k) := by
  unfold State.retireToken
  repeat' first
    | with_reducible assumption | intro _ | extract_lets | with_reducible apply State.postDepot_keeps
    | with_reducible apply State.logConvoy_keeps | with_reducible apply Keeps.ite
    | with_reducible apply Keeps.fstIte | with_reducible apply Keeps.foldPair | with_reducible apply Keeps.fold
    | simp only [Keeps.mk_eq] | split | simp +zetaDelta only [Keeps.mk_eq]

theorem State.storeRecord_keeps {s₀ s : State} (p : Nat) (a : Nat) (d : List Byte) (h : Keeps s₀ s) :
    Keeps s₀ (State.storeRecord s p a d) := by
  unfold State.storeRecord
  repeat' first
    | with_reducible assumption | intro _ | extract_lets | with_reducible apply State.store_keeps
    | with_reducible apply Keeps.ite | with_reducible apply Keeps.fstIte | with_reducible apply Keeps.foldPair
    | with_reducible apply Keeps.fold | simp only [Keeps.mk_eq] | split | simp +zetaDelta only [Keeps.mk_eq]

theorem State.retire_keeps {s₀ s : State} (p : Nat) (b : Nat) (h : Keeps s₀ s) :
    Keeps s₀ (State.retire s p b) := by
  unfold State.retire
  repeat' first
    | with_reducible assumption | intro _ | extract_lets | with_reducible apply State.storeRecord_keeps
    | with_reducible apply State.modConvoy_keeps | with_reducible apply State.retireToken_keeps
    | with_reducible apply State.logConvoy_keeps | with_reducible apply State.endHold_keeps
    | with_reducible apply Keeps.ite | with_reducible apply Keeps.fstIte | with_reducible apply Keeps.foldPair
    | with_reducible apply Keeps.fold | simp only [Keeps.mk_eq] | split | simp +zetaDelta only [Keeps.mk_eq]

theorem State.bucketCountIn_keeps {s₀ s : State} (f : PendFrame) (h : Keeps s₀ s) :
    Keeps s₀ (State.bucketCountIn s f) := by
  unfold State.bucketCountIn
  repeat' first
    | with_reducible assumption | intro _ | extract_lets | with_reducible apply State.modConvoy_keeps
    | with_reducible apply State.retire_keeps | with_reducible apply Keeps.ite
    | with_reducible apply Keeps.fstIte | with_reducible apply Keeps.foldPair | with_reducible apply Keeps.fold
    | simp only [Keeps.mk_eq] | split | simp +zetaDelta only [Keeps.mk_eq]

theorem State.framedDone_keeps {s₀ s : State} (f : PendFrame) (h : Keeps s₀ s) :
    Keeps s₀ (State.framedDone s f).1 := by
  unfold State.framedDone
  repeat' first
    | with_reducible assumption | intro _ | extract_lets | with_reducible apply State.modRegion_keeps
    | with_reducible apply State.bucketCountIn_keeps | with_reducible apply Keeps.ite
    | with_reducible apply Keeps.fstIte | with_reducible apply Keeps.foldPair | with_reducible apply Keeps.fold
    | simp only [Keeps.mk_eq] | split | simp +zetaDelta only [Keeps.mk_eq]

theorem State.applyAdd_keeps {s₀ s : State} (n : Nat) (e : Add) (h : Keeps s₀ s) :
    Keeps s₀ (State.applyAdd s n e).1 := by
  unfold State.applyAdd
  repeat' first
    | with_reducible assumption | intro _ | extract_lets | with_reducible apply State.modHouse_keeps
    | with_reducible apply State.touchRead_keeps | with_reducible apply State.logHouse_keeps
    | with_reducible apply State.store_keeps | with_reducible apply Keeps.ite
    | with_reducible apply Keeps.fstIte | with_reducible apply Keeps.foldPair | with_reducible apply Keeps.fold
    | simp only [Keeps.mk_eq] | split | simp +zetaDelta only [Keeps.mk_eq]

theorem State.addSource_keeps {s₀ s : State} (bad : Bool) (x2 : AddSrc) (h : Keeps s₀ s) :
    Keeps s₀ (State.addSource s bad x2) := by
  unfold State.addSource
  repeat' first
    | with_reducible assumption | intro _ | extract_lets | with_reducible apply State.modOp_keeps
    | with_reducible apply Keeps.ite | with_reducible apply Keeps.fstIte | with_reducible apply Keeps.foldPair
    | with_reducible apply Keeps.fold | simp only [Keeps.mk_eq] | split | simp +zetaDelta only [Keeps.mk_eq]

theorem State.consume_keeps {s₀ s : State} (q : Nat) (f : RirisFrame) (code : Nat) (h : Keeps s₀ s) :
    Keeps s₀ (State.consume s q f code) := by
  unfold State.consume
  repeat' first
    | with_reducible assumption | intro _ | extract_lets | with_reducible apply State.answer_keeps
    | with_reducible apply State.modQp_keeps | with_reducible apply Keeps.ite
    | with_reducible apply Keeps.fstIte | with_reducible apply Keeps.foldPair | with_reducible apply Keeps.fold
    | simp only [Keeps.mk_eq] | split | simp +zetaDelta only [Keeps.mk_eq]

theorem State.notify_keeps {s₀ s : State} (q : Nat) (h : Keeps s₀ s) : Keeps s₀ (State.notify s q).1 := by
  unfold State.notify
  repeat' first
    | with_reducible assumption | intro _ | extract_lets | with_reducible apply State.postDepot_keeps
    | with_reducible apply Keeps.ite | with_reducible apply Keeps.fstIte | with_reducible apply Keeps.foldPair
    | with_reducible apply Keeps.fold | simp only [Keeps.mk_eq] | split | simp +zetaDelta only [Keeps.mk_eq]

theorem State.notifyEnd_keeps {s₀ s : State} (q : Nat) (f : RirisFrame) (h : Keeps s₀ s) :
    Keeps s₀ (State.notifyEnd s q f) := by
  unfold State.notifyEnd
  repeat' first
    | with_reducible assumption | intro _ | extract_lets | with_reducible apply State.notify_keeps
    | with_reducible apply State.reportViolation_keeps | with_reducible apply State.modPorter_keeps
    | with_reducible apply State.consume_keeps | with_reducible apply Keeps.ite
    | with_reducible apply Keeps.fstIte | with_reducible apply Keeps.foldPair | with_reducible apply Keeps.fold
    | simp only [Keeps.mk_eq] | split | simp +zetaDelta only [Keeps.mk_eq]

theorem State.rxWrite_keeps {s₀ s : State} (q : Nat) (f : RirisFrame) (h : Keeps s₀ s) :
    Keeps s₀ (State.rxWrite s q f) := by
  unfold State.rxWrite
  repeat' first
    | with_reducible assumption | intro _ | extract_lets | with_reducible apply State.consume_keeps
    | with_reducible apply State.reportViolation_keeps | with_reducible apply State.store_keeps
    | with_reducible apply State.unclean_keeps | with_reducible apply State.notifyEnd_keeps
    | with_reducible apply Keeps.ite | with_reducible apply Keeps.fstIte | with_reducible apply Keeps.foldPair
    | with_reducible apply Keeps.fold | simp only [Keeps.mk_eq] | split | simp +zetaDelta only [Keeps.mk_eq]

theorem State.rxReadReq_keeps {s₀ s : State} (q : Nat) (f : RirisFrame) (h : Keeps s₀ s) :
    Keeps s₀ (State.rxReadReq s q f) := by
  unfold State.rxReadReq
  repeat' first
    | with_reducible assumption | intro _ | extract_lets | with_reducible apply State.consume_keeps
    | with_reducible apply State.reportViolation_keeps | with_reducible apply State.modRegion_keeps
    | with_reducible apply State.queueSend_keeps | with_reducible apply Keeps.ite
    | with_reducible apply Keeps.fstIte | with_reducible apply Keeps.foldPair | with_reducible apply Keeps.fold
    | simp only [Keeps.mk_eq] | split | simp +zetaDelta only [Keeps.mk_eq]

theorem State.rxReadResp_keeps {s₀ s : State} (q : Nat) (f : RirisFrame) (h : Keeps s₀ s) :
    Keeps s₀ (State.rxReadResp s q f) := by
  unfold State.rxReadResp
  repeat' first
    | with_reducible assumption | intro _ | extract_lets | with_reducible apply State.consume_keeps
    | with_reducible apply State.modQp_keeps | with_reducible apply State.stores_keeps
    | with_reducible apply State.tallyAdd_keeps | with_reducible apply State.failOp_keeps
    | with_reducible apply State.modOp_keeps | with_reducible apply Keeps.ite
    | with_reducible apply Keeps.fstIte | with_reducible apply Keeps.foldPair | with_reducible apply Keeps.fold
    | simp only [Keeps.mk_eq] | split | simp +zetaDelta only [Keeps.mk_eq]

theorem State.rxConvoy_keeps {s₀ s : State} (q : Nat) (f : RirisFrame) (h : Keeps s₀ s) :
    Keeps s₀ (State.rxConvoy s q f) := by
  unfold State.rxConvoy
  repeat' first
    | with_reducible assumption | intro _ | extract_lets | with_reducible apply State.convoyCheck_keeps
    | with_reducible apply State.consume_keeps | with_reducible apply State.modRegion_keeps
    | with_reducible apply State.unclean_keeps | with_reducible apply State.framedDone_keeps
    | with_reducible apply State.issueWaiting_keeps | with_reducible apply Keeps.ite
    | with_reducible apply Keeps.fstIte | with_reducible apply Keeps.foldPair | with_reducible apply Keeps.fold
    | simp only [Keeps.mk_eq] | split | simp +zetaDelta only [Keeps.mk_eq]

theorem State.rxProcess_keeps {s₀ s : State} (q : Nat) (f : RirisFrame) (h : Keeps s₀ s) :
    Keeps s₀ (State.rxProcess s q f) := by
  unfold State.rxProcess
  repeat' first
    | with_reducible assumption | intro _ | extract_lets | with_reducible apply State.rxWrite_keeps
    | with_reducible apply State.rxReadReq_keeps | with_reducible apply State.rxReadResp_keeps
    | with_reducible apply State.notifyEnd_keeps | with_reducible apply State.rxConvoy_keeps
    | with_reducible apply Keeps.ite | with_reducible apply Keeps.fstIte | with_reducible apply Keeps.foldPair
    | with_reducible apply Keeps.fold | simp only [Keeps.mk_eq] | split | simp +zetaDelta only [Keeps.mk_eq]

theorem State.rxBehind_keeps {s₀ s : State} (q n : Nat) (h : Keeps s₀ s) :
    Keeps s₀ (s.rxBehind q n) := by
  induction n generalizing s with
  | zero =>
    exact h
  | succ n ih =>
    unfold State.rxBehind
    repeat' first
      | with_reducible assumption | intro _ | extract_lets | with_reducible apply ih | with_reducible apply ih
      | with_reducible apply State.rxProcess_keeps | with_reducible apply State.modQp_keeps
      | with_reducible apply Keeps.ite | with_reducible apply Keeps.fstIte | with_reducible apply Keeps.foldPair
      | with_reducible apply Keeps.fold | simp only [Keeps.mk_eq] | split | simp +zetaDelta only [Keeps.mk_eq]

theorem State.frameDone_keeps {s₀ s : State} (f : PendFrame) (h : Keeps s₀ s) :
    Keeps s₀ (State.frameDone s f) := by
  unfold State.frameDone
  repeat' first
    | with_reducible assumption | intro _ | extract_lets | with_reducible apply State.framedDone_keeps
    | with_reducible apply State.rxBehind_keeps | with_reducible apply State.consume_keeps
    | with_reducible apply Keeps.ite | with_reducible apply Keeps.fstIte | with_reducible apply Keeps.foldPair
    | with_reducible apply Keeps.fold | simp only [Keeps.mk_eq] | split | simp +zetaDelta only [Keeps.mk_eq]

theorem State.rxSeq_keeps {s₀ s : State} (q : Nat) (f : RirisFrame) (h : Keeps s₀ s) :
    Keeps s₀ (State.rxSeq s q f) := by
  unfold State.rxSeq
  repeat' first
    | with_reducible assumption | intro _ | extract_lets | with_reducible apply State.rxProcess_keeps
    | with_reducible apply State.modQp_keeps | with_reducible apply State.sendAck_keeps
    | with_reducible apply State.sendNak_keeps | with_reducible apply Keeps.ite
    | with_reducible apply Keeps.fstIte | with_reducible apply Keeps.foldPair | with_reducible apply Keeps.fold
    | simp only [Keeps.mk_eq] | split | simp +zetaDelta only [Keeps.mk_eq]

theorem State.dropReading_keeps {s₀ s : State} (q : Nat) (x2 : OpRef) (h : Keeps s₀ s) :
    Keeps s₀ (State.dropReading s q x2) := by
  unfold State.dropReading
  repeat' first
    | with_reducible assumption | intro _ | extract_lets | with_reducible apply State.modQp_keeps
    | with_reducible apply Keeps.ite | with_reducible apply Keeps.fstIte | with_reducible apply Keeps.foldPair
    | with_reducible apply Keeps.fold | simp only [Keeps.mk_eq] | split | simp +zetaDelta only [Keeps.mk_eq]

theorem State.nakSkip_keeps {s₀ s : State} (q : Nat) (f : RirisFrame) (h : Keeps s₀ s) :
    Keeps s₀ (State.nakSkip s q f) := by
  unfold State.nakSkip
  repeat' first
    | with_reducible assumption | intro _ | extract_lets | with_reducible apply State.setQp_keeps
    | with_reducible apply State.failOp_keeps | with_reducible apply State.logQp_keeps
    | with_reducible apply Keeps.ite | with_reducible apply Keeps.fstIte | with_reducible apply Keeps.foldPair
    | with_reducible apply Keeps.fold | simp only [Keeps.mk_eq] | split | simp +zetaDelta only [Keeps.mk_eq]

theorem State.nakOp_keeps {s₀ s : State} (q : Nat) (f : RirisFrame) (h : Keeps s₀ s) :
    Keeps s₀ (State.nakOp s q f) := by
  unfold State.nakOp
  repeat' first
    | with_reducible assumption | intro _ | extract_lets | with_reducible apply State.dropReading_keeps
    | with_reducible apply State.failOp_keeps | with_reducible apply State.logQp_keeps
    | with_reducible apply Keeps.ite | with_reducible apply Keeps.fstIte | with_reducible apply Keeps.foldPair
    | with_reducible apply Keeps.fold | simp only [Keeps.mk_eq] | split | simp +zetaDelta only [Keeps.mk_eq]

theorem State.rxNak_keeps {s₀ s : State} (q : Nat) (f : RirisFrame) (h : Keeps s₀ s) :
    Keeps s₀ (State.rxNak s q f) := by
  unfold State.rxNak
  repeat' first
    | with_reducible assumption | intro _ | extract_lets | with_reducible apply State.takeHeader_keeps
    | with_reducible apply State.nakSkip_keeps | with_reducible apply State.setQp_keeps
    | with_reducible apply State.modQp_keeps | with_reducible apply State.resend_keeps
    | with_reducible apply State.qpBusy_keeps | with_reducible apply State.qpStop_keeps
    | with_reducible apply State.failAll_keeps | with_reducible apply State.nakOp_keeps
    | with_reducible apply Keeps.ite | with_reducible apply Keeps.fstIte | with_reducible apply Keeps.foldPair
    | with_reducible apply Keeps.fold | simp only [Keeps.mk_eq] | split | simp +zetaDelta only [Keeps.mk_eq]

theorem State.authFail_keeps {s₀ s : State} (q : Nat) (f : RirisFrame) (h : Keeps s₀ s) :
    Keeps s₀ (State.authFail s q f) := by
  unfold State.authFail
  repeat' first
    | with_reducible assumption | intro _ | extract_lets | with_reducible apply State.logQp_keeps
    | with_reducible apply State.modPorter_keeps | with_reducible apply Keeps.ite
    | with_reducible apply Keeps.fstIte | with_reducible apply Keeps.foldPair | with_reducible apply Keeps.fold
    | simp only [Keeps.mk_eq] | split | simp +zetaDelta only [Keeps.mk_eq]

theorem State.rxAuthed_keeps {s₀ s : State} (q : Nat) (f : RirisFrame) (h : Keeps s₀ s) :
    Keeps s₀ (State.rxAuthed s q f) := by
  unfold State.rxAuthed
  repeat' first
    | with_reducible assumption | intro _ | extract_lets | with_reducible apply State.sendNak_keeps
    | with_reducible apply State.rxNak_keeps | with_reducible apply State.takeHeader_keeps
    | with_reducible apply State.rxSeq_keeps | with_reducible apply Keeps.ite
    | with_reducible apply Keeps.fstIte | with_reducible apply Keeps.foldPair | with_reducible apply Keeps.fold
    | simp only [Keeps.mk_eq] | split | simp +zetaDelta only [Keeps.mk_eq]

theorem State.rxCached_keeps {s₀ s : State} (f : RirisFrame) (h : Keeps s₀ s) :
    Keeps s₀ (State.rxCached s f) := by
  unfold State.rxCached
  repeat' first
    | with_reducible assumption | intro _ | extract_lets | with_reducible apply State.modPorter_keeps
    | with_reducible apply State.authFail_keeps | with_reducible apply State.rxAuthed_keeps
    | with_reducible apply State.qpBusy_keeps | with_reducible apply State.modQp_keeps
    | with_reducible apply Keeps.ite | with_reducible apply Keeps.fstIte | with_reducible apply Keeps.foldPair
    | with_reducible apply Keeps.fold | simp only [Keeps.mk_eq] | split | simp +zetaDelta only [Keeps.mk_eq]

theorem State.ririsIn_keeps {s₀ s : State} (f : RirisFrame) (h : Keeps s₀ s) :
    Keeps s₀ (State.ririsIn s f) := by
  unfold State.ririsIn
  repeat' first
    | with_reducible assumption | intro _ | extract_lets | with_reducible apply State.frameIn_keeps
    | with_reducible apply Keeps.ite | with_reducible apply Keeps.fstIte | with_reducible apply Keeps.foldPair
    | with_reducible apply Keeps.fold | simp only [Keeps.mk_eq] | split | simp +zetaDelta only [Keeps.mk_eq]

theorem State.takeIn_keeps {s₀ s : State} (f : RirisFrame) (h : Keeps s₀ s) :
    Keeps s₀ (State.takeIn s f) := by
  unfold State.takeIn
  repeat' first
    | with_reducible assumption | intro _ | extract_lets | with_reducible apply State.ririsIn_keeps
    | with_reducible apply Keeps.ite | with_reducible apply Keeps.fstIte | with_reducible apply Keeps.foldPair
    | with_reducible apply Keeps.fold | simp only [Keeps.mk_eq] | split | simp +zetaDelta only [Keeps.mk_eq]

theorem State.rxHit_keeps {s₀ s : State} (f : RirisFrame) (h : Keeps s₀ s) :
    Keeps s₀ (State.rxHit s f) := by
  unfold State.rxHit
  repeat' first
    | with_reducible assumption | intro _ | extract_lets | with_reducible apply State.rxCached_keeps
    | with_reducible apply State.modPorter_keeps | with_reducible apply Keeps.ite
    | with_reducible apply Keeps.fstIte | with_reducible apply Keeps.foldPair | with_reducible apply Keeps.fold
    | simp only [Keeps.mk_eq] | split | simp +zetaDelta only [Keeps.mk_eq]

theorem State.rxFrame_keeps {s₀ s : State} (classes : List Byte) (f : RirisFrame) (h : Keeps s₀ s) :
    Keeps s₀ (State.rxFrame s classes f) := by
  unfold State.rxFrame
  repeat' first
    | with_reducible assumption | intro _ | extract_lets | with_reducible apply State.rxHit_keeps
    | with_reducible apply State.takeIn_keeps | with_reducible apply Keeps.ite
    | with_reducible apply Keeps.fstIte | with_reducible apply Keeps.foldPair | with_reducible apply Keeps.fold
    | simp only [Keeps.mk_eq] | split | simp +zetaDelta only [Keeps.mk_eq]

theorem State.rxUnknown_keeps {s₀ s : State} (f : RirisFrame) (h : Keeps s₀ s) :
    Keeps s₀ (State.rxUnknown s f) := by
  unfold State.rxUnknown
  repeat' first
    | with_reducible assumption | intro _ | extract_lets | with_reducible apply State.modPorter_keeps
    | with_reducible apply Keeps.ite | with_reducible apply Keeps.fstIte | with_reducible apply Keeps.foldPair
    | with_reducible apply Keeps.fold | simp only [Keeps.mk_eq] | split | simp +zetaDelta only [Keeps.mk_eq]

theorem State.startFetch_keeps {s₀ s : State} (q : Nat) (h : Keeps s₀ s) :
    Keeps s₀ (State.startFetch s q) := by
  unfold State.startFetch
  repeat' first
    | with_reducible assumption | intro _ | extract_lets | with_reducible apply State.modPorter_keeps
    | with_reducible apply Keeps.ite | with_reducible apply Keeps.fstIte | with_reducible apply Keeps.foldPair
    | with_reducible apply Keeps.fold | simp only [Keeps.mk_eq] | split | simp +zetaDelta only [Keeps.mk_eq]

theorem State.busyReply_keeps {s₀ s : State} (f : RirisFrame) (h : Keeps s₀ s) :
    Keeps s₀ (State.busyReply s f) := by
  unfold State.busyReply
  repeat' first
    | with_reducible assumption | intro _ | extract_lets | with_reducible apply State.ship_keeps
    | with_reducible apply Keeps.ite | with_reducible apply Keeps.fstIte | with_reducible apply Keeps.foldPair
    | with_reducible apply Keeps.fold | simp only [Keeps.mk_eq] | split | simp +zetaDelta only [Keeps.mk_eq]

theorem State.rxMiss_keeps {s₀ s : State} (f : RirisFrame) (h : Keeps s₀ s) :
    Keeps s₀ (State.rxMiss s f) := by
  unfold State.rxMiss
  repeat' first
    | with_reducible assumption | intro _ | extract_lets | with_reducible apply State.startFetch_keeps
    | with_reducible apply State.modPorter_keeps | with_reducible apply State.busyReply_keeps
    | with_reducible apply State.logQp_keeps | with_reducible apply Keeps.ite
    | with_reducible apply Keeps.fstIte | with_reducible apply Keeps.foldPair | with_reducible apply Keeps.fold
    | simp only [Keeps.mk_eq] | split | simp +zetaDelta only [Keeps.mk_eq]

theorem State.rxSelf_keeps {s₀ s : State} (h : Keeps s₀ s) : Keeps s₀ (State.rxSelf s) := by
  unfold State.rxSelf
  repeat' first
    | with_reducible assumption | intro _ | extract_lets | with_reducible apply State.rxUnknown_keeps
    | with_reducible apply State.rxHit_keeps | with_reducible apply State.rxMiss_keeps
    | with_reducible apply Keeps.ite | with_reducible apply Keeps.fstIte | with_reducible apply Keeps.foldPair
    | with_reducible apply Keeps.fold | simp only [Keeps.mk_eq] | split | simp +zetaDelta only [Keeps.mk_eq]

theorem State.dropParked_keeps {s₀ s : State} (q : Nat) (h : Keeps s₀ s) :
    Keeps s₀ (State.dropParked s q) := by
  unfold State.dropParked
  repeat' first
    | with_reducible assumption | intro _ | extract_lets | with_reducible apply State.modPorter_keeps
    | with_reducible apply Keeps.ite | with_reducible apply Keeps.fstIte | with_reducible apply Keeps.foldPair
    | with_reducible apply Keeps.fold | simp only [Keeps.mk_eq] | split | simp +zetaDelta only [Keeps.mk_eq]

theorem State.privBytes_keeps {s₀ s : State} (n : Nat) (h : Keeps s₀ s) : Keeps s₀ (s.privBytes n).1 := by
  induction n generalizing s with
  | zero => exact h
  | succ n ih => exact ih (State.useFree_keeps h)

theorem State.writeContext_keeps {s₀ s : State} (q : Nat) (h : Keeps s₀ s) :
    Keeps s₀ (State.writeContext s q) := by
  unfold State.writeContext
  repeat' first
    | with_reducible assumption | intro _ | extract_lets | with_reducible apply State.privBytes_keeps
    | with_reducible apply State.store_keeps | with_reducible apply Keeps.ite
    | with_reducible apply Keeps.fstIte | with_reducible apply Keeps.foldPair | with_reducible apply Keeps.fold
    | simp only [Keeps.mk_eq] | split | simp +zetaDelta only [Keeps.mk_eq]

theorem State.evict_keeps {s₀ s : State} (q : Nat) (h : Keeps s₀ s) : Keeps s₀ (State.evict s q) := by
  unfold State.evict
  repeat' first
    | with_reducible assumption | intro _ | extract_lets | with_reducible apply State.modQp_keeps
    | with_reducible apply State.writeContext_keeps | with_reducible apply Keeps.ite
    | with_reducible apply Keeps.fstIte | with_reducible apply Keeps.foldPair | with_reducible apply Keeps.fold
    | simp only [Keeps.mk_eq] | split | simp +zetaDelta only [Keeps.mk_eq]

theorem State.makeRoom_keeps {s₀ s t : State} {q : Nat} (e : s.makeRoom q = some t) (h : Keeps s₀ s) :
    Keeps s₀ t := by
  unfold State.makeRoom at e
  split at e
  · cases e
    exact h
  · split at e
    · cases e
      exact State.evict_keeps _ h
    · cases e

theorem State.rxParked_keeps {s₀ s : State} (q : Nat) (h : Keeps s₀ s) :
    Keeps s₀ (State.rxParked s q) := by
  unfold State.rxParked
  repeat' first
    | with_reducible assumption | intro _ | extract_lets | with_reducible apply eachDo_keeps
    | with_reducible apply State.rxCached_keeps | with_reducible apply State.dropParked_keeps
    | with_reducible apply Keeps.ite | with_reducible apply Keeps.fstIte | with_reducible apply Keeps.foldPair
    | with_reducible apply Keeps.fold | simp only [Keeps.mk_eq] | split | simp +zetaDelta only [Keeps.mk_eq]

theorem State.fetchBad_keeps {s₀ s : State} (q : Nat) (h : Keeps s₀ s) :
    Keeps s₀ (State.fetchBad s q) := by
  unfold State.fetchBad
  repeat' first
    | with_reducible assumption | intro _ | extract_lets | with_reducible apply State.touchRead_keeps
    | with_reducible apply State.logCis_keeps | with_reducible apply State.qpError_keeps
    | with_reducible apply State.dropParked_keeps | with_reducible apply Keeps.ite
    | with_reducible apply Keeps.fstIte | with_reducible apply Keeps.foldPair | with_reducible apply Keeps.fold
    | simp only [Keeps.mk_eq] | split | simp +zetaDelta only [Keeps.mk_eq]

theorem State.wakeContext_keeps {s₀ s : State} (q : Nat) (h : Keeps s₀ s) :
    Keeps s₀ (State.wakeContext s q) := by
  unfold State.wakeContext
  repeat' first
    | with_reducible assumption | intro _ | extract_lets | with_reducible apply eachDo_keeps
    | with_reducible apply State.endWait_keeps | with_reducible apply Keeps.ite
    | with_reducible apply Keeps.fstIte | with_reducible apply Keeps.foldPair | with_reducible apply Keeps.fold
    | simp only [Keeps.mk_eq] | split | simp +zetaDelta only [Keeps.mk_eq]

theorem State.issueWrite_keeps {s₀ s : State} (p : Nat) (stm : BitVec 3) (g : State → State) (h : Keeps s₀ s)
    (hg : ∀ t, Keeps s₀ t → Keeps s₀ (g t)) :
    Keeps s₀ (State.issueWrite s p stm g) := by
  unfold State.issueWrite
  repeat' first
    | with_reducible assumption | intro _ | extract_lets | with_reducible apply hg
    | with_reducible apply State.beginWait_keeps | with_reducible apply State.issued_keeps
    | with_reducible apply Keeps.ite | with_reducible apply Keeps.fstIte | with_reducible apply Keeps.foldPair
    | with_reducible apply Keeps.fold | simp only [Keeps.mk_eq] | split | simp +zetaDelta only [Keeps.mk_eq]

theorem State.takeTokens_keeps {s₀ s : State} (p : Nat) (b : Buf) (n : Nat) (consume : Bool) (h : Keeps s₀ s) :
    Keeps s₀ (State.takeTokens s p b n consume) := by
  unfold State.takeTokens
  repeat' first
    | with_reducible assumption | intro _ | extract_lets | with_reducible apply State.setTok_keeps
    | with_reducible apply Keeps.ite | with_reducible apply Keeps.fstIte | with_reducible apply Keeps.foldPair
    | with_reducible apply Keeps.fold | simp only [Keeps.mk_eq] | split | simp +zetaDelta only [Keeps.mk_eq]

theorem State.waitContext_keeps {s₀ s : State} (p : Nat) (q : Nat) (stm : BitVec 3) (h : Keeps s₀ s) :
    Keeps s₀ (State.waitContext s p q stm) := by
  unfold State.waitContext
  repeat' first
    | with_reducible assumption | intro _ | extract_lets | with_reducible apply State.beginWait_keeps
    | with_reducible apply State.startFetch_keeps | with_reducible apply Keeps.ite
    | with_reducible apply Keeps.fstIte | with_reducible apply Keeps.foldPair | with_reducible apply Keeps.fold
    | simp only [Keeps.mk_eq] | split | simp +zetaDelta only [Keeps.mk_eq]

theorem State.tollTake_keeps {s₀ s : State} (cls : Nat) (target : Nat) (amount : Nat) (h : Keeps s₀ s) :
    Keeps s₀ (State.tollTake s cls target amount) := by
  unfold State.tollTake
  repeat' first
    | with_reducible assumption | intro _ | extract_lets | with_reducible apply State.modDie_keeps
    | with_reducible apply State.modHouse_keeps | with_reducible apply State.modQp_keeps
    | with_reducible apply Keeps.ite | with_reducible apply Keeps.fstIte | with_reducible apply Keeps.foldPair
    | with_reducible apply Keeps.fold | simp only [Keeps.mk_eq] | split | simp +zetaDelta only [Keeps.mk_eq]

theorem State.takeFault_keeps {s₀ s : State} (p : Nat) (h : Keeps s₀ s) :
    Keeps s₀ (State.takeFault s p) := by
  unfold State.takeFault
  repeat' first
    | with_reducible assumption | intro _ | extract_lets | with_reducible apply State.setCore_keeps
    | with_reducible apply State.partFault_keeps | with_reducible apply State.quarantine_keeps
    | with_reducible apply Keeps.ite | with_reducible apply Keeps.fstIte | with_reducible apply Keeps.foldPair
    | with_reducible apply Keeps.fold | simp only [Keeps.mk_eq] | split | simp +zetaDelta only [Keeps.mk_eq]

theorem State.msIllegal_keeps {s₀ s : State} (p : Nat) (q : Nat) (code : Nat) (o : Option Nat) (stm : BitVec 3)
    (h : Keeps s₀ s) :
    Keeps s₀ (State.msIllegal s p q code o stm) := by
  unfold State.msIllegal
  repeat' first
    | with_reducible assumption | intro _ | extract_lets | with_reducible apply State.coreFaultSeen_keeps
    | with_reducible apply State.logMsCore_keeps | with_reducible apply Keeps.ite
    | with_reducible apply Keeps.fstIte | with_reducible apply Keeps.foldPair | with_reducible apply Keeps.fold
    | simp only [Keeps.mk_eq] | split | simp +zetaDelta only [Keeps.mk_eq]

theorem State.arrivalAt_keeps {s₀ s : State} (q : Nat) (m : MsMsg) (h : Keeps s₀ s) :
    Keeps s₀ (State.arrivalAt s q m) := by
  unfold State.arrivalAt
  repeat' first
    | with_reducible assumption | intro _ | extract_lets | with_reducible apply State.msStale_keeps
    | with_reducible apply State.nodeArrival_keeps | with_reducible apply Keeps.ite
    | with_reducible apply Keeps.fstIte | with_reducible apply Keeps.foldPair | with_reducible apply Keeps.fold
    | simp only [Keeps.mk_eq] | split | simp +zetaDelta only [Keeps.mk_eq]

theorem State.onMsg_keeps {s₀ s : State} (m : MsMsg) (k : MsKind) (act : State → State) (h : Keeps s₀ s)
    (hact : ∀ t, Keeps s₀ t → Keeps s₀ (act t)) :
    Keeps s₀ (State.onMsg s m k act) := by
  unfold State.onMsg
  repeat' first
    | with_reducible assumption | intro _ | extract_lets | with_reducible apply hact
    | with_reducible apply State.msIn_keeps | with_reducible apply Keeps.ite | with_reducible apply Keeps.fstIte
    | with_reducible apply Keeps.foldPair | with_reducible apply Keeps.fold | simp only [Keeps.mk_eq] | split
    | simp +zetaDelta only [Keeps.mk_eq]

theorem State.releaseAt_keeps {s₀ s : State} (q : Nat) (m : MsMsg) (h : Keeps s₀ s) :
    Keeps s₀ (State.releaseAt s q m) := by
  unfold State.releaseAt
  repeat' first
    | with_reducible assumption | intro _ | extract_lets | with_reducible apply State.msStale_keeps
    | with_reducible apply State.release_keeps | with_reducible apply Keeps.ite
    | with_reducible apply Keeps.fstIte | with_reducible apply Keeps.foldPair | with_reducible apply Keeps.fold
    | simp only [Keeps.mk_eq] | split | simp +zetaDelta only [Keeps.mk_eq]

theorem State.passDown_keeps {s₀ s : State} (m : MsMsg) (h : Keeps s₀ s) :
    Keeps s₀ (State.passDown s m) := by
  unfold State.passDown
  repeat' first
    | with_reducible assumption | intro _ | extract_lets | with_reducible apply State.msDown_keeps
    | with_reducible apply Keeps.ite | with_reducible apply Keeps.fstIte | with_reducible apply Keeps.foldPair
    | with_reducible apply Keeps.fold | simp only [Keeps.mk_eq] | split | simp +zetaDelta only [Keeps.mk_eq]

theorem State.passUp_keeps {s₀ s : State} (m : MsMsg) (h : Keeps s₀ s) : Keeps s₀ (State.passUp s m) := by
  unfold State.passUp
  repeat' first
    | with_reducible assumption | intro _ | extract_lets | with_reducible apply State.msUp_keeps
    | with_reducible apply Keeps.ite | with_reducible apply Keeps.fstIte | with_reducible apply Keeps.foldPair
    | with_reducible apply Keeps.fold | simp only [Keeps.mk_eq] | split | simp +zetaDelta only [Keeps.mk_eq]

theorem State.recordMiss_keeps {s₀ s : State} (q : Nat) (o : Nat) (h : Keeps s₀ s) :
    Keeps s₀ (State.recordMiss s q o) := by
  unfold State.recordMiss
  repeat' first
    | with_reducible assumption | intro _ | extract_lets | with_reducible apply State.modMs_keeps
    | with_reducible apply Keeps.ite | with_reducible apply Keeps.fstIte | with_reducible apply Keeps.foldPair
    | with_reducible apply Keeps.fold | simp only [Keeps.mk_eq] | split | simp +zetaDelta only [Keeps.mk_eq]

theorem State.noticeRoot_keeps {s₀ s : State} (q : Nat) (o : Nat) (h : Keeps s₀ s) :
    Keeps s₀ (State.noticeRoot s q o) := by
  unfold State.noticeRoot
  repeat' first
    | with_reducible assumption | intro _ | extract_lets | with_reducible apply State.rootRelease_keeps
    | with_reducible apply State.msUp_keeps | with_reducible apply Keeps.ite | with_reducible apply Keeps.fstIte
    | with_reducible apply Keeps.foldPair | with_reducible apply Keeps.fold | simp only [Keeps.mk_eq] | split
    | simp +zetaDelta only [Keeps.mk_eq]

theorem State.noticeAt_keeps {s₀ s : State} (q : Nat) (m : MsMsg) (h : Keeps s₀ s) :
    Keeps s₀ (State.noticeAt s q m) := by
  unfold State.noticeAt
  repeat' first
    | with_reducible assumption | intro _ | extract_lets | with_reducible apply State.msStale_keeps
    | with_reducible apply State.msUp_keeps | with_reducible apply State.rootRelease_keeps
    | with_reducible apply State.logMs_keeps | with_reducible apply Keeps.ite
    | with_reducible apply Keeps.fstIte | with_reducible apply Keeps.foldPair | with_reducible apply Keeps.fold
    | simp only [Keeps.mk_eq] | split | simp +zetaDelta only [Keeps.mk_eq]

theorem State.broadcast_keeps {s₀ s : State} (m : MsMsg) (act : Nat → State → State) (h : Keeps s₀ s)
    (hact : ∀ a t, Keeps s₀ t → Keeps s₀ (act a t)) :
    Keeps s₀ (State.broadcast s m act) := by
  unfold State.broadcast
  repeat' first
    | with_reducible assumption | intro _ | extract_lets | with_reducible apply hact
    | with_reducible apply State.msStale_keeps | with_reducible apply eachDo_keeps
    | with_reducible apply State.passDown_keeps | with_reducible apply State.passUp_keeps
    | with_reducible apply Keeps.ite | with_reducible apply Keeps.fstIte | with_reducible apply Keeps.foldPair
    | with_reducible apply Keeps.fold | simp only [Keeps.mk_eq] | split | simp +zetaDelta only [Keeps.mk_eq]

theorem State.replayAt_keeps {s₀ s : State} (q : Nat) (m : MsMsg) (h : Keeps s₀ s) :
    Keeps s₀ (State.replayAt s q m) := by
  unfold State.replayAt
  repeat' first
    | with_reducible assumption | intro _ | extract_lets | with_reducible apply State.replayPart_keeps
    | with_reducible apply State.msStale_keeps | with_reducible apply Keeps.ite
    | with_reducible apply Keeps.fstIte | with_reducible apply Keeps.foldPair | with_reducible apply Keeps.fold
    | simp only [Keeps.mk_eq] | split | simp +zetaDelta only [Keeps.mk_eq]

end Sys2Proof.Machine
end

