-- ==== Sys2Proof/Laws/KeepsCore.lean ====
section
/-!
SUPPORT. `Keeps` for the operations of core instructions and the ledger.
-/

namespace Sys2Proof.Machine

set_option Elab.async false
set_option linter.unusedTactic false
set_option linter.unusedSimpArgs false
set_option linter.unreachableTactic false

theorem State.readWb_keeps {s₀ s : State} (p : Nat) (q : Nat) (stm : BitVec 3) (ref : BitVec 14) (dst : Bool)
    (h : Keeps s₀ s) :
    Keeps s₀ (State.readWb s p q stm ref dst).1 := by
  unfold State.readWb
  repeat' first
    | with_reducible assumption | intro _ | extract_lets | with_reducible apply State.refFault_keeps
    | with_reducible apply State.coreRead_keeps | with_reducible apply Keeps.ite
    | with_reducible apply Keeps.fstIte | with_reducible apply Keeps.foldPair | with_reducible apply Keeps.fold
    | simp only [Keeps.mk_eq] | split | simp +zetaDelta only [Keeps.mk_eq]

theorem State.readPiece_keeps {s₀ s : State} (p : Nat) (q : Nat) (stm : BitVec 3) (w : Waybill) (h : Keeps s₀ s) :
    Keeps s₀ (State.readPiece s p q stm w).1 := by
  unfold State.readPiece
  repeat' first
    | with_reducible assumption | intro _ | extract_lets | with_reducible apply State.coreRead_keeps
    | with_reducible apply Keeps.ite | with_reducible apply Keeps.fstIte | with_reducible apply Keeps.foldPair
    | with_reducible apply Keeps.fold | simp only [Keeps.mk_eq] | split | simp +zetaDelta only [Keeps.mk_eq]

theorem State.readScale_keeps {s₀ s : State} (p : Nat) (q : Nat) (stm : BitVec 3) (w : Waybill) (h : Keeps s₀ s) :
    Keeps s₀ (State.readScale s p q stm w).1 := by
  unfold State.readScale
  repeat' first
    | with_reducible assumption | intro _ | extract_lets | with_reducible apply State.coreRead_keeps
    | with_reducible apply Keeps.ite | with_reducible apply Keeps.fstIte | with_reducible apply Keeps.foldPair
    | with_reducible apply Keeps.fold | simp only [Keeps.mk_eq] | split | simp +zetaDelta only [Keeps.mk_eq]

theorem State.tallyTier_keeps {s₀ s : State} (p : Nat) (idx : Option Nat) (n : Nat) (h : Keeps s₀ s) :
    Keeps s₀ (State.tallyTier s p idx n) := by
  unfold State.tallyTier
  repeat' first
    | with_reducible assumption | intro _ | extract_lets | with_reducible apply State.tallyAdd_keeps
    | with_reducible apply Keeps.ite | with_reducible apply Keeps.fstIte | with_reducible apply Keeps.foldPair
    | with_reducible apply Keeps.fold | simp only [Keeps.mk_eq] | split | simp +zetaDelta only [Keeps.mk_eq]

theorem State.debit_keeps {s₀ s t : State} {p : Nat} {l : List (Nat × Nat)} (e : s.debit p l = some t)
    (h : Keeps s₀ s) : Keeps s₀ t := by
  induction l generalizing s with
  | nil =>
    cases e
    exact h
  | cons x l ih =>
    obtain ⟨key, n⟩ := x
    unfold State.debit at e
    dsimp only at e
    split at e
    · exact ih e (State.modCore_keeps _ _ h)
    · cases e

theorem State.tollShort_keeps {s₀ s : State} (p : Nat) (stm : BitVec 3) (tags : optParam (List (BitVec 16)) [])
    (h : Keeps s₀ s) :
    Keeps s₀ (State.tollShort s p stm tags) := by
  unfold State.tollShort
  repeat' first
    | with_reducible assumption | intro _ | extract_lets | with_reducible apply State.coreFault_keeps
    | with_reducible apply Keeps.ite | with_reducible apply Keeps.fstIte | with_reducible apply Keeps.foldPair
    | with_reducible apply Keeps.fold | simp only [Keeps.mk_eq] | split | simp +zetaDelta only [Keeps.mk_eq]

theorem State.startOp_keeps {s₀ s : State} (p : Nat) (act : PorterDo) (stm : BitVec 3) (reads : List (Nat × Nat))
    (post : Option Buf) (bytes : Nat) (tag : BitVec 16) (h : Keeps s₀ s) :
    Keeps s₀ (State.startOp s p act stm reads post bytes tag) := by
  unfold State.startOp
  repeat' first
    | with_reducible assumption | intro _ | extract_lets | with_reducible apply State.modCore_keeps
    | with_reducible apply Keeps.ite | with_reducible apply Keeps.fstIte | with_reducible apply Keeps.foldPair
    | with_reducible apply Keeps.fold | simp only [Keeps.mk_eq] | split | simp +zetaDelta only [Keeps.mk_eq]

theorem State.endOp_keeps {s₀ s : State} (p : Nat) (id : Nat) (h : Keeps s₀ s) :
    Keeps s₀ (State.endOp s p id) := by
  unfold State.endOp
  repeat' first
    | with_reducible assumption | intro _ | extract_lets | with_reducible apply State.modCore_keeps
    | with_reducible apply Keeps.ite | with_reducible apply Keeps.fstIte | with_reducible apply Keeps.foldPair
    | with_reducible apply Keeps.fold | simp only [Keeps.mk_eq] | split | simp +zetaDelta only [Keeps.mk_eq]

theorem State.opFault_keeps {s₀ s : State} (p : Nat) (status : Nat) (code : Nat) (stm : BitVec 3)
    (tags : optParam (List (BitVec 16)) []) (h : Keeps s₀ s) :
    Keeps s₀ (State.opFault s p status code stm tags) := by
  unfold State.opFault
  repeat' first
    | with_reducible assumption | intro _ | extract_lets | with_reducible apply State.coreFault_keeps
    | with_reducible apply Keeps.ite | with_reducible apply Keeps.fstIte | with_reducible apply Keeps.foldPair
    | with_reducible apply Keeps.fold | simp only [Keeps.mk_eq] | split | simp +zetaDelta only [Keeps.mk_eq]

theorem State.tracePorter_keeps {s₀ s : State} (p : Nat) (opcode : Nat) (qp : Nat) (o : PorterOp) (h : Keeps s₀ s) :
    Keeps s₀ (State.tracePorter s p opcode qp o) := by
  unfold State.tracePorter
  repeat' first
    | with_reducible assumption | intro _ | extract_lets | with_reducible apply State.traceLost_keeps
    | with_reducible apply State.tracePut_keeps | with_reducible apply Keeps.ite
    | with_reducible apply Keeps.fstIte | with_reducible apply Keeps.foldPair | with_reducible apply Keeps.fold
    | simp only [Keeps.mk_eq] | split | simp +zetaDelta only [Keeps.mk_eq]

theorem State.postDone_keeps {s₀ s : State} (p : Nat) (o : PorterOp) (h : Keeps s₀ s) :
    Keeps s₀ (State.postDone s p o) := by
  unfold State.postDone
  repeat' first
    | with_reducible assumption | intro _ | extract_lets | with_reducible apply State.tallyAdd_keeps
    | with_reducible apply State.opFault_keeps | with_reducible apply Keeps.ite
    | with_reducible apply Keeps.fstIte | with_reducible apply Keeps.foldPair | with_reducible apply Keeps.fold
    | simp only [Keeps.mk_eq] | refine State.post_keeps (by assumption) ?_ | refine eachDo_keeps _ _ ?_ ?_
    | split | simp +zetaDelta only [Keeps.mk_eq]

theorem State.copyDropped_keeps {s₀ s : State} (p : Nat) (q : Nat) (ch : Nat) (a : Nat) (post : Option Buf)
    (stm : BitVec 3) (h : Keeps s₀ s) :
    Keeps s₀ (State.copyDropped s p q ch a post stm) := by
  unfold State.copyDropped
  repeat' first
    | with_reducible assumption | intro _ | extract_lets | with_reducible apply State.dropRead_keeps
    | with_reducible apply State.markMissing_keeps | with_reducible apply State.advance_keeps
    | with_reducible apply Keeps.ite | with_reducible apply Keeps.fstIte | with_reducible apply Keeps.foldPair
    | with_reducible apply Keeps.fold | simp only [Keeps.mk_eq] | split | simp +zetaDelta only [Keeps.mk_eq]

theorem State.copyGo_keeps {s₀ s : State} (p : Nat) (stm : BitVec 3) (src : Waybill) (dst : Waybill) (add : Bool)
    (post : Option Buf) (bs : List Byte) (h : Keeps s₀ s) :
    Keeps s₀ (State.copyGo s p stm src dst add post bs) := by
  unfold State.copyGo
  repeat' first
    | with_reducible assumption | intro _ | extract_lets | with_reducible apply State.tallyTier_keeps
    | with_reducible apply State.tollShort_keeps | with_reducible apply eachDo_keeps
    | with_reducible apply State.modHouse_keeps | with_reducible apply State.queueAdds_keeps
    | with_reducible apply State.startOp_keeps | with_reducible apply State.advance_keeps
    | with_reducible apply Keeps.ite | with_reducible apply Keeps.fstIte | with_reducible apply Keeps.foldPair
    | with_reducible apply Keeps.fold | simp only [Keeps.mk_eq] | refine State.debit_keeps (by assumption) ?_
    | refine eachDo_keeps _ _ ?_ ?_ | split | simp +zetaDelta only [Keeps.mk_eq]

theorem State.copyWith_keeps {s₀ s : State} (p : Nat) (q : Nat) (stm : BitVec 3) (src : Waybill) (dst : Waybill)
    (add : Bool) (post : Option Buf) (h : Keeps s₀ s) :
    Keeps s₀ (State.copyWith s p q stm src dst add post) := by
  unfold State.copyWith
  repeat' first
    | with_reducible assumption | intro _ | extract_lets | with_reducible apply State.refFault_keeps
    | with_reducible apply State.copyDropped_keeps | with_reducible apply State.coreRead_keeps
    | with_reducible apply State.copyGo_keeps | with_reducible apply Keeps.ite
    | with_reducible apply Keeps.fstIte | with_reducible apply Keeps.foldPair | with_reducible apply Keeps.fold
    | simp only [Keeps.mk_eq] | split | simp +zetaDelta only [Keeps.mk_eq]

theorem State.copyEnd_keeps {s₀ s : State} (p : Nat) (o : PorterOp) (bad : Bool) (h : Keeps s₀ s) :
    Keeps s₀ (State.copyEnd s p o bad) := by
  unfold State.copyEnd
  repeat' first
    | with_reducible assumption | intro _ | extract_lets | with_reducible apply State.tracePorter_keeps
    | with_reducible apply State.endOp_keeps | with_reducible apply State.opFault_keeps
    | with_reducible apply State.postDone_keeps | with_reducible apply Keeps.ite
    | with_reducible apply Keeps.fstIte | with_reducible apply Keeps.foldPair | with_reducible apply Keeps.fold
    | simp only [Keeps.mk_eq] | split | simp +zetaDelta only [Keeps.mk_eq]

theorem State.qpRefused_keeps {s₀ s : State} (p : Nat) (stm : BitVec 3) (tags : optParam (List (BitVec 16)) [])
    (h : Keeps s₀ s) :
    Keeps s₀ (State.qpRefused s p stm tags) := by
  unfold State.qpRefused
  repeat' first
    | with_reducible assumption | intro _ | extract_lets | with_reducible apply State.coreFault_keeps
    | with_reducible apply Keeps.ite | with_reducible apply Keeps.fstIte | with_reducible apply Keeps.foldPair
    | with_reducible apply Keeps.fold | simp only [Keeps.mk_eq] | split | simp +zetaDelta only [Keeps.mk_eq]

theorem State.sendOp_keeps {s₀ s : State} (p : Nat) (q : Nat) (act : PorterDo) (stm : BitVec 3)
    (reads : List (Nat × Nat)) (bytes : Nat) (tag : BitVec 16) (fs : List RirisFrame) (h : Keeps s₀ s) :
    Keeps s₀ (State.sendOp s p q act stm reads bytes tag fs) := by
  unfold State.sendOp
  repeat' first
    | with_reducible assumption | intro _ | extract_lets | with_reducible apply State.advance_keeps
    | with_reducible apply State.queueSend_keeps | with_reducible apply State.startOp_keeps
    | with_reducible apply Keeps.ite | with_reducible apply Keeps.fstIte | with_reducible apply Keeps.foldPair
    | with_reducible apply Keeps.fold | simp only [Keeps.mk_eq] | split | simp +zetaDelta only [Keeps.mk_eq]

theorem State.remoteWrite_keeps {s₀ s : State} (p : Nat) (part : Nat) (q : Nat) (stm : BitVec 3) (w : Waybill)
    (f : RirisFrame) (kind : Nat) (h : Keeps s₀ s) :
    Keeps s₀ (State.remoteWrite s p part q stm w f kind) := by
  unfold State.remoteWrite
  repeat' first
    | with_reducible assumption | intro _ | extract_lets | with_reducible apply State.coreRead_keeps
    | with_reducible apply State.tallyTier_keeps | with_reducible apply State.tollShort_keeps
    | with_reducible apply State.sendOp_keeps | with_reducible apply Keeps.ite
    | with_reducible apply Keeps.fstIte | with_reducible apply Keeps.foldPair | with_reducible apply Keeps.fold
    | simp only [Keeps.mk_eq] | refine State.debit_keeps (by assumption) ?_ | refine eachDo_keeps _ _ ?_ ?_
    | split | simp +zetaDelta only [Keeps.mk_eq]

theorem State.remoteRead_keeps {s₀ s : State} (p : Nat) (q : Nat) (stm : BitVec 3) (w : Waybill) (f : RirisFrame)
    (h : Keeps s₀ s) :
    Keeps s₀ (State.remoteRead s p q stm w f) := by
  unfold State.remoteRead
  repeat' first
    | with_reducible assumption | intro _ | extract_lets | with_reducible apply State.tallyTier_keeps
    | with_reducible apply State.modQp_keeps | with_reducible apply State.sendOp_keeps
    | with_reducible apply Keeps.ite | with_reducible apply Keeps.fstIte | with_reducible apply Keeps.foldPair
    | with_reducible apply Keeps.fold | simp only [Keeps.mk_eq] | split | simp +zetaDelta only [Keeps.mk_eq]

theorem State.convoyGo_keeps {s₀ s : State} (p : Nat) (part : Nat) (q : Nat) (stm : BitVec 3) (w : Waybill)
    (tag : BitVec 16) (contrib : BitVec 24) (guard : BitVec 7) (e : Nat) (h : Keeps s₀ s) :
    Keeps s₀ (State.convoyGo s p part q stm w tag contrib guard e) := by
  unfold State.convoyGo
  repeat' first
    | with_reducible assumption | intro _ | extract_lets | with_reducible apply State.readPiece_keeps
    | with_reducible apply State.tallyTier_keeps | with_reducible apply State.tollShort_keeps
    | with_reducible apply State.modCore_keeps | with_reducible apply State.sendOp_keeps
    | with_reducible apply Keeps.ite | with_reducible apply Keeps.fstIte | with_reducible apply Keeps.foldPair
    | with_reducible apply Keeps.fold | simp only [Keeps.mk_eq] | refine State.debit_keeps (by assumption) ?_
    | refine eachDo_keeps _ _ ?_ ?_ | split | simp +zetaDelta only [Keeps.mk_eq]

theorem State.logLedger_keeps {s₀ s : State} (p : Nat) (code : Nat) (status : Nat)
    (tags : optParam (List (BitVec 16)) []) (h : Keeps s₀ s) :
    Keeps s₀ (State.logLedger s p code status tags) := by
  unfold State.logLedger
  repeat' first
    | with_reducible assumption | intro _ | extract_lets | with_reducible apply State.logAt_keeps
    | with_reducible apply Keeps.ite | with_reducible apply Keeps.fstIte | with_reducible apply Keeps.foldPair
    | with_reducible apply Keeps.fold | simp only [Keeps.mk_eq] | split | simp +zetaDelta only [Keeps.mk_eq]

theorem State.arrBusy_keeps {s₀ s : State} (p : Nat) (issue : Bool) (draw : Bool) (h : Keeps s₀ s) :
    Keeps s₀ (State.arrBusy s p issue draw) := by
  unfold State.arrBusy
  repeat' first
    | with_reducible assumption | intro _ | extract_lets | with_reducible apply State.modCore_keeps
    | with_reducible apply Keeps.ite | with_reducible apply Keeps.fstIte | with_reducible apply Keeps.foldPair
    | with_reducible apply Keeps.fold | simp only [Keeps.mk_eq] | split | simp +zetaDelta only [Keeps.mk_eq]

theorem State.whileBusy_keeps {s₀ s : State} (p : Nat) (issue : Bool) (draw : Bool) (g : State → State)
    (h : Keeps s₀ s) (hg : ∀ t, Keeps s₀ t → Keeps s₀ (g t)) :
    Keeps s₀ (State.whileBusy s p issue draw g) := by
  unfold State.whileBusy
  repeat' first
    | with_reducible assumption | intro _ | extract_lets | with_reducible apply hg
    | with_reducible apply State.arrBusy_keeps | with_reducible apply Keeps.ite
    | with_reducible apply Keeps.fstIte | with_reducible apply Keeps.foldPair | with_reducible apply Keeps.fold
    | simp only [Keeps.mk_eq] | split | simp +zetaDelta only [Keeps.mk_eq]

theorem State.ledgFault_keeps {s₀ s : State} (p : Nat) (idx : Nat) (kind : Nat) (stm : BitVec 3) (h : Keeps s₀ s) :
    Keeps s₀ (State.ledgFault s p idx kind stm) := by
  unfold State.ledgFault
  repeat' first
    | with_reducible assumption | intro _ | extract_lets | with_reducible apply State.modCore_keeps
    | with_reducible apply State.coreFaultWith_keeps | with_reducible apply State.logLedger_keeps
    | with_reducible apply Keeps.ite | with_reducible apply Keeps.fstIte | with_reducible apply Keeps.foldPair
    | with_reducible apply Keeps.fold | simp only [Keeps.mk_eq] | split | simp +zetaDelta only [Keeps.mk_eq]

theorem State.chunkFault_keeps {s₀ s : State} (p : Nat) (stm : BitVec 3) (tags : optParam (List (BitVec 16)) [])
    (h : Keeps s₀ s) :
    Keeps s₀ (State.chunkFault s p stm tags) := by
  unfold State.chunkFault
  repeat' first
    | with_reducible assumption | intro _ | extract_lets | with_reducible apply State.coreFaultWith_keeps
    | with_reducible apply State.logLedger_keeps | with_reducible apply Keeps.ite
    | with_reducible apply Keeps.fstIte | with_reducible apply Keeps.foldPair | with_reducible apply Keeps.fold
    | simp only [Keeps.mk_eq] | split | simp +zetaDelta only [Keeps.mk_eq]

theorem State.setLedger_keeps {s₀ s : State} (p : Nat) (r : LedgRun) (h : Keeps s₀ s) :
    Keeps s₀ (State.setLedger s p r) := by
  unfold State.setLedger
  repeat' first
    | with_reducible assumption | intro _ | extract_lets | with_reducible apply State.modCore_keeps
    | with_reducible apply eachDo_keeps | with_reducible apply State.logLedger_keeps
    | with_reducible apply State.tallyAdd_keeps | with_reducible apply Keeps.ite
    | with_reducible apply Keeps.fstIte | with_reducible apply Keeps.foldPair | with_reducible apply Keeps.fold
    | simp only [Keeps.mk_eq] | split | simp +zetaDelta only [Keeps.mk_eq]

theorem State.endLedger_keeps {s₀ s : State} (p : Nat) (r : LedgRun) (stm : BitVec 3) (h : Keeps s₀ s) :
    Keeps s₀ (State.endLedger s p r stm).1 := by
  unfold State.endLedger
  repeat' first
    | with_reducible assumption | intro _ | extract_lets | with_reducible apply State.ledgFault_keeps
    | with_reducible apply State.modCore_keeps | with_reducible apply State.setLedger_keeps
    | with_reducible apply Keeps.ite | with_reducible apply Keeps.fstIte | with_reducible apply Keeps.foldPair
    | with_reducible apply Keeps.fold | simp only [Keeps.mk_eq] | split | simp +zetaDelta only [Keeps.mk_eq]

theorem State.readOperand_keeps {s₀ s : State} (p : Nat) (q : Nat) (stm : BitVec 3) (w : Waybill) (h : Keeps s₀ s) :
    Keeps s₀ (State.readOperand s p q stm w).1 := by
  unfold State.readOperand
  repeat' first
    | with_reducible assumption | intro _ | extract_lets | with_reducible apply State.readPiece_keeps
    | with_reducible apply State.modCore_keeps | with_reducible apply Keeps.ite
    | with_reducible apply Keeps.fstIte | with_reducible apply Keeps.foldPair | with_reducible apply Keeps.fold
    | simp only [Keeps.mk_eq] | split | simp +zetaDelta only [Keeps.mk_eq]

theorem State.tallyIssue_keeps {s₀ s : State} (p : Nat) (w : Waybill) (mode : Nat) (m : Nat) (n : Nat)
    (h : Keeps s₀ s) :
    Keeps s₀ (State.tallyIssue s p w mode m n) := by
  unfold State.tallyIssue
  repeat' first
    | with_reducible assumption | intro _ | extract_lets | with_reducible apply State.talliesAdd_keeps
    | with_reducible apply Keeps.ite | with_reducible apply Keeps.fstIte | with_reducible apply Keeps.foldPair
    | with_reducible apply Keeps.fold | simp only [Keeps.mk_eq] | split | simp +zetaDelta only [Keeps.mk_eq]

theorem State.tileOperands_keeps {s₀ s : State} (p : Nat) (q : Nat) (stm : BitVec 3) (t : Tile) (ra : BitVec 14)
    (rb : BitVec 14) (h : Keeps s₀ s) :
    Keeps s₀ (State.tileOperands s p q stm t ra rb).1 := by
  unfold State.tileOperands
  repeat' first
    | with_reducible assumption | intro _ | extract_lets | with_reducible apply State.readWb_keeps
    | with_reducible apply State.refFault_keeps | with_reducible apply State.chunkFault_keeps
    | with_reducible apply State.readOperand_keeps | with_reducible apply Keeps.ite
    | with_reducible apply Keeps.fstIte | with_reducible apply Keeps.foldPair | with_reducible apply Keeps.fold
    | simp only [Keeps.mk_eq] | split | simp +zetaDelta only [Keeps.mk_eq]

theorem State.traceArray_keeps {s₀ s : State} (p : Nat) (stm : BitVec 3) (t : Tile) (w : Waybill) (chunks : Nat)
    (h : Keeps s₀ s) :
    Keeps s₀ (State.traceArray s p stm t w chunks) := by
  unfold State.traceArray
  repeat' first
    | with_reducible assumption | intro _ | extract_lets | with_reducible apply State.traceAt_keeps
    | with_reducible apply Keeps.ite | with_reducible apply Keeps.fstIte | with_reducible apply Keeps.foldPair
    | with_reducible apply Keeps.fold | simp only [Keeps.mk_eq] | split | simp +zetaDelta only [Keeps.mk_eq]

theorem State.takeChunkInj_keeps {s₀ s : State} (p : Nat) (h : Keeps s₀ s) :
    Keeps s₀ (State.takeChunkInj s p) := by
  unfold State.takeChunkInj
  repeat' first
    | with_reducible assumption | intro _ | extract_lets | with_reducible apply State.modCore_keeps
    | with_reducible apply Keeps.ite | with_reducible apply Keeps.fstIte | with_reducible apply Keeps.foldPair
    | with_reducible apply Keeps.fold | simp only [Keeps.mk_eq] | split | simp +zetaDelta only [Keeps.mk_eq]

theorem State.runTiles_keeps {s₀ s : State} (p : Nat) (stm : BitVec 3) (tiles : List Tile)
    (jobs : List (Tile × Operand × Operand × Nat)) (first : Nat) (h : Keeps s₀ s) :
    Keeps s₀ (State.runTiles s p stm tiles jobs first) := by
  unfold State.runTiles
  repeat' first
    | with_reducible assumption | intro _ | extract_lets | with_reducible apply State.whileBusy_keeps
    | with_reducible apply State.ledgFault_keeps | with_reducible apply State.setLedger_keeps
    | with_reducible apply State.takeChunkInj_keeps | with_reducible apply State.endLedger_keeps
    | with_reducible apply State.advance_keeps | with_reducible apply Keeps.ite
    | with_reducible apply Keeps.fstIte | with_reducible apply Keeps.foldPair | with_reducible apply Keeps.fold
    | simp only [Keeps.mk_eq] | split | simp +zetaDelta only [Keeps.mk_eq]

theorem State.arrayIssue_keeps {s₀ s : State} (p : Nat) (q : Nat) (stm : BitVec 3) (t : Tile) (ra : BitVec 14)
    (rb : BitVec 14) (h : Keeps s₀ s) :
    Keeps s₀ (State.arrayIssue s p q stm t ra rb) := by
  unfold State.arrayIssue
  repeat' first
    | with_reducible assumption | intro _ | extract_lets | with_reducible apply State.tileOperands_keeps
    | with_reducible apply State.tallyIssue_keeps | with_reducible apply State.traceArray_keeps
    | with_reducible apply State.runTiles_keeps | with_reducible apply Keeps.ite
    | with_reducible apply Keeps.fstIte | with_reducible apply Keeps.foldPair | with_reducible apply Keeps.fold
    | simp only [Keeps.mk_eq] | split | simp +zetaDelta only [Keeps.mk_eq]

theorem State.imageIssue_keeps {s₀ s : State} (p : Nat) (q : Nat) (stm : BitVec 3) (t : Tile) (ra : BitVec 14)
    (h : Keeps s₀ s) :
    Keeps s₀ (State.imageIssue s p q stm t ra) := by
  unfold State.imageIssue
  repeat' first
    | with_reducible assumption | intro _ | extract_lets | with_reducible apply State.readWb_keeps
    | with_reducible apply State.refFault_keeps | with_reducible apply State.coreRead_keeps
    | with_reducible apply State.traceArray_keeps | with_reducible apply State.talliesAdd_keeps
    | with_reducible apply State.whileBusy_keeps | with_reducible apply State.endLedger_keeps
    | with_reducible apply State.advance_keeps | with_reducible apply Keeps.ite
    | with_reducible apply Keeps.fstIte | with_reducible apply Keeps.foldPair | with_reducible apply Keeps.fold
    | simp only [Keeps.mk_eq] | split | simp +zetaDelta only [Keeps.mk_eq]

theorem State.scaleOf_keeps {s₀ s : State} (p : Nat) (q : Nat) (stm : BitVec 3) (w : Waybill) (h : Keeps s₀ s) :
    Keeps s₀ (State.scaleOf s p q stm w).1 := by
  unfold State.scaleOf
  repeat' first
    | with_reducible assumption | intro _ | extract_lets | with_reducible apply State.readScale_keeps
    | with_reducible apply State.coreFault_keeps | with_reducible apply Keeps.ite
    | with_reducible apply Keeps.fstIte | with_reducible apply Keeps.foldPair | with_reducible apply Keeps.fold
    | simp only [Keeps.mk_eq] | split | simp +zetaDelta only [Keeps.mk_eq]

theorem State.writePart_keeps {s₀ s : State} (p : Nat) (a : Nat) (word : List Byte) (h : Keeps s₀ s) :
    Keeps s₀ (State.writePart s p a word).1 := by
  unfold State.writePart
  repeat' first
    | with_reducible assumption | intro _ | extract_lets | with_reducible apply State.readWord1_keeps
    | with_reducible apply eachDo_keeps | with_reducible apply State.setByte_keeps
    | with_reducible apply State.setMark_keeps | with_reducible apply State.dropWb_keeps
    | with_reducible apply Keeps.ite | with_reducible apply Keeps.fstIte | with_reducible apply Keeps.foldPair
    | with_reducible apply Keeps.fold | simp only [Keeps.mk_eq] | split | simp +zetaDelta only [Keeps.mk_eq]

theorem State.storeMasked_keeps {s₀ s : State} (p : Nat) (q : Nat) (fmt : Nat) (a : Nat) (els : List (Nat × Bool))
    (old : List Byte) (h : Keeps s₀ s) :
    Keeps s₀ (State.storeMasked s p q fmt a els old).1 := by
  unfold State.storeMasked
  repeat' first
    | with_reducible assumption | intro _ | extract_lets | with_reducible apply State.dropWrite_keeps
    | with_reducible apply State.readWord1_keeps | with_reducible apply State.writeWord_keeps
    | with_reducible apply State.writePart_keeps | with_reducible apply Keeps.ite
    | with_reducible apply Keeps.fstIte | with_reducible apply Keeps.foldPair | with_reducible apply Keeps.fold
    | simp only [Keeps.mk_eq] | split | simp +zetaDelta only [Keeps.mk_eq]

theorem State.storeRow_keeps {s₀ s : State} (p : Nat) (q : Nat) (j : DrawJob) (m : Nat)
    (outs : List (FVal × ConvOut)) (h : Keeps s₀ s) :
    Keeps s₀ (State.storeRow s p q j m outs).1 := by
  unfold State.storeRow
  repeat' first
    | with_reducible assumption | intro _ | extract_lets | with_reducible apply State.stores_keeps
    | with_reducible apply State.storeMasked_keeps | with_reducible apply Keeps.ite
    | with_reducible apply Keeps.fstIte | with_reducible apply Keeps.foldPair | with_reducible apply Keeps.fold
    | simp only [Keeps.mk_eq] | split | simp +zetaDelta only [Keeps.mk_eq]

theorem State.drawFlags_keeps {s₀ s : State} (p : Nat) (j : DrawJob) (m : Nat) (outs : List (FVal × ConvOut))
    (h : Keeps s₀ s) :
    Keeps s₀ (State.drawFlags s p j m outs) := by
  unfold State.drawFlags
  repeat' first
    | with_reducible assumption | intro _ | extract_lets | with_reducible apply State.modCore_keeps
    | with_reducible apply Keeps.ite | with_reducible apply Keeps.fstIte | with_reducible apply Keeps.foldPair
    | with_reducible apply Keeps.fold | simp only [Keeps.mk_eq] | split | simp +zetaDelta only [Keeps.mk_eq]

theorem State.drawInjected_keeps {s₀ s : State} (p : Nat) (stm : BitVec 3) (j : DrawJob) (m : Nat) (image : Bool)
    (h : Keeps s₀ s) :
    Keeps s₀ (State.drawInjected s p stm j m image) := by
  unfold State.drawInjected
  repeat' first
    | with_reducible assumption | intro _ | extract_lets | with_reducible apply State.ledgFault_keeps
    | with_reducible apply State.setLedger_keeps | with_reducible apply State.modCore_keeps
    | with_reducible apply State.useFree_keeps | with_reducible apply Keeps.ite
    | with_reducible apply Keeps.fstIte | with_reducible apply Keeps.foldPair | with_reducible apply Keeps.fold
    | simp only [Keeps.mk_eq] | split | simp +zetaDelta only [Keeps.mk_eq]

theorem State.drawRow_keeps {s₀ s : State} (p : Nat) (q : Nat) (stm : BitVec 3) (j : DrawJob) (m : Nat)
    (h : Keeps s₀ s) :
    Keeps s₀ (State.drawRow s p q stm j m).1 := by
  unfold State.drawRow
  repeat' first
    | with_reducible assumption | intro _ | extract_lets | with_reducible apply State.talliesAdd_keeps
    | with_reducible apply State.drawInjected_keeps | with_reducible apply State.endLedger_keeps
    | with_reducible apply State.storeRow_keeps | with_reducible apply State.drawFlags_keeps
    | with_reducible apply State.coreFaultSeen_keeps | with_reducible apply Keeps.ite
    | with_reducible apply Keeps.fstIte | with_reducible apply Keeps.foldPair | with_reducible apply Keeps.fold
    | simp only [Keeps.mk_eq] | split | simp +zetaDelta only [Keeps.mk_eq]

theorem State.drawRows_keeps {s₀ s : State} (p : Nat) (q : Nat) (stm : BitVec 3) (j : DrawJob) (h : Keeps s₀ s) :
    Keeps s₀ (State.drawRows s p q stm j).1 := by
  unfold State.drawRows
  repeat' first
    | with_reducible assumption | intro _ | extract_lets | with_reducible apply State.drawRow_keeps
    | with_reducible apply Keeps.ite | with_reducible apply Keeps.fstIte | with_reducible apply Keeps.foldPair
    | with_reducible apply Keeps.fold | simp only [Keeps.mk_eq] | split | simp +zetaDelta only [Keeps.mk_eq]

theorem State.imageRow_keeps {s₀ s : State} (p : Nat) (q : Nat) (stm : BitVec 3) (j : DrawJob) (m : Nat)
    (h : Keeps s₀ s) :
    Keeps s₀ (State.imageRow s p q stm j m).1 := by
  unfold State.imageRow
  repeat' first
    | with_reducible assumption | intro _ | extract_lets | with_reducible apply State.talliesAdd_keeps
    | with_reducible apply State.drawInjected_keeps | with_reducible apply State.endLedger_keeps
    | with_reducible apply State.coreWrite_keeps | with_reducible apply Keeps.ite
    | with_reducible apply Keeps.fstIte | with_reducible apply Keeps.foldPair | with_reducible apply Keeps.fold
    | simp only [Keeps.mk_eq] | split | simp +zetaDelta only [Keeps.mk_eq]

theorem State.imageRows_keeps {s₀ s : State} (p : Nat) (q : Nat) (stm : BitVec 3) (j : DrawJob) (h : Keeps s₀ s) :
    Keeps s₀ (State.imageRows s p q stm j).1 := by
  unfold State.imageRows
  repeat' first
    | with_reducible assumption | intro _ | extract_lets | with_reducible apply State.imageRow_keeps
    | with_reducible apply Keeps.ite | with_reducible apply Keeps.fstIte | with_reducible apply Keeps.foldPair
    | with_reducible apply Keeps.fold | simp only [Keeps.mk_eq] | split | simp +zetaDelta only [Keeps.mk_eq]

theorem State.traceDraw_keeps {s₀ s : State} (p : Nat) (stm : BitVec 3) (j : DrawJob) (image : Bool)
    (h : Keeps s₀ s) :
    Keeps s₀ (State.traceDraw s p stm j image) := by
  unfold State.traceDraw
  repeat' first
    | with_reducible assumption | intro _ | extract_lets | with_reducible apply State.traceAt_keeps
    | with_reducible apply Keeps.ite | with_reducible apply Keeps.fstIte | with_reducible apply Keeps.foldPair
    | with_reducible apply Keeps.fold | simp only [Keeps.mk_eq] | split | simp +zetaDelta only [Keeps.mk_eq]

theorem State.debitStore_keeps {s₀ s t : State} {p : Nat} {l : List (Nat × Nat)}
    (e : s.debitStore p l = some t) (h : Keeps s₀ s) : Keeps s₀ t :=
  State.debit_keeps e h

theorem State.runDraw_keeps {s₀ s : State} (p : Nat) (q : Nat) (stm : BitVec 3) (j : DrawJob) (image : Bool)
    (h : Keeps s₀ s) :
    Keeps s₀ (State.runDraw s p q stm j image) := by
  unfold State.runDraw
  repeat' first
    | with_reducible assumption | intro _ | extract_lets | with_reducible apply State.tollShort_keeps
    | with_reducible apply State.whileBusy_keeps | with_reducible apply State.traceDraw_keeps
    | with_reducible apply State.imageRows_keeps | with_reducible apply State.drawRows_keeps
    | with_reducible apply State.advance_keeps | with_reducible apply Keeps.ite
    | with_reducible apply Keeps.fstIte | with_reducible apply Keeps.foldPair | with_reducible apply Keeps.fold
    | simp only [Keeps.mk_eq] | refine State.debitStore_keeps (by assumption) ?_ | refine eachDo_keeps _ _ ?_ ?_
    | split | simp +zetaDelta only [Keeps.mk_eq]

theorem State.drawImage_keeps {s₀ s : State} (p : Nat) (q : Nat) (stm : BitVec 3) (j : DrawJob) (dst : BitVec 14)
    (h : Keeps s₀ s) :
    Keeps s₀ (State.drawImage s p q stm j dst) := by
  unfold State.drawImage
  repeat' first
    | with_reducible assumption | intro _ | extract_lets | with_reducible apply State.readWb_keeps
    | with_reducible apply State.runDraw_keeps | with_reducible apply State.refFault_keeps
    | with_reducible apply Keeps.ite | with_reducible apply Keeps.fstIte | with_reducible apply Keeps.foldPair
    | with_reducible apply Keeps.fold | simp only [Keeps.mk_eq] | split | simp +zetaDelta only [Keeps.mk_eq]

theorem State.drawTensor_keeps {s₀ s : State} (p : Nat) (q : Nat) (stm : BitVec 3) (j : DrawJob) (dst : BitVec 14)
    (sa : BitVec 14) (sb : BitVec 14) (h : Keeps s₀ s) :
    Keeps s₀ (State.drawTensor s p q stm j dst sa sb) := by
  unfold State.drawTensor
  repeat' first
    | with_reducible assumption | intro _ | extract_lets | with_reducible apply State.readWb_keeps
    | with_reducible apply State.refFault_keeps | with_reducible apply State.scaleOf_keeps
    | with_reducible apply State.runDraw_keeps | with_reducible apply Keeps.ite
    | with_reducible apply Keeps.fstIte | with_reducible apply Keeps.foldPair | with_reducible apply Keeps.fold
    | simp only [Keeps.mk_eq] | split | simp +zetaDelta only [Keeps.mk_eq]

theorem State.runConv_keeps {s₀ s : State} (p : Nat) (q : Nat) (stm : BitVec 3) (src : Waybill) (dst : Waybill)
    (rnd : Rounding) (clr : Bool) (ss : Dy) (sd : Dy) (els : List Nat) (h : Keeps s₀ s) :
    Keeps s₀ (State.runConv s p q stm src dst rnd clr ss sd els) := by
  unfold State.runConv
  repeat' first
    | with_reducible assumption | intro _ | extract_lets | with_reducible apply State.tollShort_keeps
    | with_reducible apply State.modCore_keeps | with_reducible apply State.talliesAdd_keeps
    | with_reducible apply State.coreWrite_keeps | with_reducible apply State.advance_keeps
    | with_reducible apply Keeps.ite | with_reducible apply Keeps.fstIte | with_reducible apply Keeps.foldPair
    | with_reducible apply Keeps.fold | simp only [Keeps.mk_eq]
    | refine State.debitStore_keeps (by assumption) ?_ | refine eachDo_keeps _ _ ?_ ?_ | split
    | simp +zetaDelta only [Keeps.mk_eq]

theorem State.loadCheck_keeps {s₀ s : State} (a : Nat) (q : Nat) (resume : Bool) (h : Keeps s₀ s) :
    Keeps s₀ (State.loadCheck s a q resume).1 := by
  unfold State.loadCheck
  repeat' first
    | with_reducible assumption | intro _ | extract_lets | with_reducible apply State.touchRead_keeps
    | with_reducible apply Keeps.ite | with_reducible apply Keeps.fstIte | with_reducible apply Keeps.foldPair
    | with_reducible apply Keeps.fold | simp only [Keeps.mk_eq] | split | simp +zetaDelta only [Keeps.mk_eq]

theorem State.loadCore_keeps {s₀ s : State} {src : State} (a : Nat) (l : Nat) (cfg : PartCfg) (h : Keeps s₀ s) :
    Keeps s₀ (State.loadCore s src a l cfg) := by
  unfold State.loadCore
  repeat' first
    | with_reducible assumption | intro _ | extract_lets | with_reducible apply State.modCore_keeps
    | with_reducible apply State.writeWords_keeps | with_reducible apply Keeps.ite
    | with_reducible apply Keeps.fstIte | with_reducible apply Keeps.foldPair | with_reducible apply Keeps.fold
    | simp only [Keeps.mk_eq] | split | simp +zetaDelta only [Keeps.mk_eq]

theorem State.loadDepots_keeps {s₀ s : State} {src : State} (a : Nat) (q : Nat) (n : Nat) (h : Keeps s₀ s) :
    Keeps s₀ (State.loadDepots s src a q n) := by
  unfold State.loadDepots
  repeat' first
    | with_reducible assumption | intro _ | extract_lets | with_reducible apply State.modDie_keeps
    | with_reducible apply Keeps.ite | with_reducible apply Keeps.fstIte | with_reducible apply Keeps.foldPair
    | with_reducible apply Keeps.fold | simp only [Keeps.mk_eq] | split | simp +zetaDelta only [Keeps.mk_eq]

theorem State.install_keeps {s₀ s : State} (a : Nat) (q : Nat) (cfg : PartCfg) (h : Keeps s₀ s) :
    Keeps s₀ (State.install s a q cfg) := by
  unfold State.install
  repeat' first
    | with_reducible assumption | intro _ | extract_lets | with_reducible apply State.dropDepots_keeps
    | with_reducible apply eachDo_keeps | with_reducible apply State.modCore_keeps
    | with_reducible apply State.loadCore_keeps | with_reducible apply State.loadDepots_keeps
    | with_reducible apply State.modPart_keeps | with_reducible apply Keeps.ite
    | with_reducible apply Keeps.fstIte | with_reducible apply Keeps.foldPair | with_reducible apply Keeps.fold
    | simp only [Keeps.mk_eq] | split | simp +zetaDelta only [Keeps.mk_eq]

theorem State.rebuildMap_keeps {s₀ s : State} (n : Nat) (h : Keeps s₀ s) :
    Keeps s₀ (State.rebuildMap s n) := by
  unfold State.rebuildMap
  repeat' first
    | with_reducible assumption | intro _ | extract_lets | with_reducible apply State.modDie_keeps
    | with_reducible apply eachDo_keeps | with_reducible apply State.setCore_keeps
    | with_reducible apply State.modCore_keeps | with_reducible apply Keeps.ite
    | with_reducible apply Keeps.fstIte | with_reducible apply Keeps.foldPair | with_reducible apply Keeps.fold
    | simp only [Keeps.mk_eq] | split | simp +zetaDelta only [Keeps.mk_eq]

theorem State.installVariant_keeps {s₀ s : State} (a : Nat) (q : Nat) (cfg : PartCfg) (h : Keeps s₀ s) :
    Keeps s₀ (State.installVariant s a q cfg) := by
  unfold State.installVariant
  repeat' first
    | with_reducible assumption | intro _ | extract_lets | with_reducible apply eachDo_keeps
    | with_reducible apply State.rebuildMap_keeps | with_reducible apply State.install_keeps
    | with_reducible apply State.modCore_keeps | with_reducible apply State.modPart_keeps
    | with_reducible apply Keeps.ite | with_reducible apply Keeps.fstIte | with_reducible apply Keeps.foldPair
    | with_reducible apply Keeps.fold | simp only [Keeps.mk_eq] | split | simp +zetaDelta only [Keeps.mk_eq]

theorem State.load_keeps {s₀ s : State} (a : Nat) (q : Nat) (resume : Bool) (h : Keeps s₀ s) :
    Keeps s₀ (State.load s a q resume).1 := by
  unfold State.load
  repeat' first
    | with_reducible assumption | intro _ | extract_lets | with_reducible apply State.loadCheck_keeps
    | with_reducible apply State.logPart_keeps | with_reducible apply State.installVariant_keeps
    | with_reducible apply State.setPartSt_keeps | with_reducible apply State.modPart_keeps
    | with_reducible apply State.install_keeps | with_reducible apply Keeps.ite
    | with_reducible apply Keeps.fstIte | with_reducible apply Keeps.foldPair | with_reducible apply Keeps.fold
    | simp only [Keeps.mk_eq] | split | simp +zetaDelta only [Keeps.mk_eq]

end Sys2Proof.Machine
end

