-- ==== Sys2Proof/Laws/KeepsModule.lean ====
section
/-!
SUPPORT. `Keeps` for the operations of the module, power, time, queue pairs, updates and memory events.
-/

namespace Sys2Proof.Machine

set_option Elab.async false
set_option linter.unusedTactic false
set_option linter.unusedSimpArgs false
set_option linter.unreachableTactic false

theorem State.setMod_keeps {s₀ s : State} (m : ModSt) (h : Keeps s₀ s) : Keeps s₀ (State.setMod s m) := by
  unfold State.setMod
  repeat' first
    | with_reducible assumption | intro _ | extract_lets | with_reducible apply State.logSerai_keeps
    | with_reducible apply Keeps.ite | with_reducible apply Keeps.fstIte | with_reducible apply Keeps.foldPair
    | with_reducible apply Keeps.fold | simp only [Keeps.mk_eq] | split | simp +zetaDelta only [Keeps.mk_eq]

theorem State.enterFault_keeps {s₀ s : State} (cause : Nat) (h : Keeps s₀ s) :
    Keeps s₀ (State.enterFault s cause) := by
  unfold State.enterFault
  repeat' first
    | with_reducible assumption | intro _ | extract_lets | with_reducible apply State.setMod_keeps
    | with_reducible apply Keeps.ite | with_reducible apply Keeps.fstIte | with_reducible apply Keeps.foldPair
    | with_reducible apply Keeps.fold | simp only [Keeps.mk_eq] | split | simp +zetaDelta only [Keeps.mk_eq]

theorem State.powerCut_keeps {s₀ s : State} (keep : Bool) (m : ModSt) (h : Keeps s₀ s) :
    Keeps s₀ (s.powerCut keep m) := by
  refine h.trans ⟨rfl, ?_, Nat.le_refl _, id, fun _ => rfl, fun _ => rfl⟩
  show s.free ≤ if s.life.committing.isSome then s.free + 1 else s.free
  split
  · exact Nat.le_succ _
  · exact Nat.le_refl _

theorem State.startBoot_keeps {s₀ s : State} (recov : Bool) (h : Keeps s₀ s) :
    Keeps s₀ (State.startBoot s recov) := by
  unfold State.startBoot
  repeat' first
    | with_reducible assumption | intro _ | extract_lets | with_reducible apply State.powerCut_keeps
    | with_reducible apply State.logSerai_keeps | with_reducible apply Keeps.ite
    | with_reducible apply Keeps.fstIte | with_reducible apply Keeps.foldPair | with_reducible apply Keeps.fold
    | simp only [Keeps.mk_eq] | split | simp +zetaDelta only [Keeps.mk_eq]

theorem State.onBar_keeps {s₀ s : State} (fn : Nat) (b : BarBlock) (g : State → State) (h : Keeps s₀ s)
    (hg : ∀ t, Keeps s₀ t → Keeps s₀ (g t)) :
    Keeps s₀ (State.onBar s fn b g) := by
  unfold State.onBar
  repeat' first
    | with_reducible assumption | intro _ | extract_lets | with_reducible apply hg
    | with_reducible apply Keeps.ite | with_reducible apply Keeps.fstIte | with_reducible apply Keeps.foldPair
    | with_reducible apply Keeps.fold | simp only [Keeps.mk_eq] | split | simp +zetaDelta only [Keeps.mk_eq]

theorem State.readBack_keeps {s₀ s : State} (fn : Nat) (v : DWord) (h : Keeps s₀ s) :
    Keeps s₀ (State.readBack s fn v) := by
  unfold State.readBack
  repeat' first
    | with_reducible assumption | intro _ | extract_lets | with_reducible apply Keeps.ite
    | with_reducible apply Keeps.fstIte | with_reducible apply Keeps.foldPair | with_reducible apply Keeps.fold
    | simp only [Keeps.mk_eq] | split | simp +zetaDelta only [Keeps.mk_eq]

theorem State.checkBreach_keeps {s₀ s : State} (h : Keeps s₀ s) : Keeps s₀ (State.checkBreach s) := by
  unfold State.checkBreach
  repeat' first
    | with_reducible assumption | intro _ | extract_lets | with_reducible apply State.logPower_keeps
    | with_reducible apply Keeps.ite | with_reducible apply Keeps.fstIte | with_reducible apply Keeps.foldPair
    | with_reducible apply Keeps.fold | simp only [Keeps.mk_eq] | split | simp +zetaDelta only [Keeps.mk_eq]

theorem State.applyLimit_keeps {s₀ s : State} (taken : Bool) (h : Keeps s₀ s) :
    Keeps s₀ (State.applyLimit s taken) := by
  unfold State.applyLimit
  repeat' first
    | with_reducible assumption | intro _ | extract_lets | with_reducible apply State.logPower_keeps
    | with_reducible apply State.checkBreach_keeps | with_reducible apply Keeps.ite
    | with_reducible apply Keeps.fstIte | with_reducible apply Keeps.foldPair | with_reducible apply Keeps.fold
    | simp only [Keeps.mk_eq] | split | simp +zetaDelta only [Keeps.mk_eq]

theorem State.writeBudget_keeps {s₀ s : State} (v : Word) (h : Keeps s₀ s) :
    Keeps s₀ (State.writeBudget s v) := by
  unfold State.writeBudget
  repeat' first
    | with_reducible assumption | intro _ | extract_lets | with_reducible apply State.applyLimit_keeps
    | with_reducible apply State.logPower_keeps | with_reducible apply Keeps.ite
    | with_reducible apply Keeps.fstIte | with_reducible apply Keeps.foldPair | with_reducible apply Keeps.fold
    | simp only [Keeps.mk_eq] | split | simp +zetaDelta only [Keeps.mk_eq]

theorem State.showPhase_keeps {s₀ s : State} (part : Nat) (n : Nat) (x3 : BitVec 3) (h : Keeps s₀ s) :
    Keeps s₀ (State.showPhase s part n x3) := by
  unfold State.showPhase
  repeat' first
    | with_reducible assumption | intro _ | extract_lets | with_reducible apply eachDo_keeps
    | with_reducible apply State.traceAt_keeps | with_reducible apply Keeps.ite
    | with_reducible apply Keeps.fstIte | with_reducible apply Keeps.foldPair | with_reducible apply Keeps.fold
    | simp only [Keeps.mk_eq] | split | simp +zetaDelta only [Keeps.mk_eq]

theorem State.setFreq_keeps {s₀ s : State} (n : Nat) (f : Nat) (h : Keeps s₀ s) :
    Keeps s₀ (State.setFreq s n f) := by
  unfold State.setFreq
  repeat' first
    | with_reducible assumption | intro _ | extract_lets | with_reducible apply Keeps.ite
    | with_reducible apply Keeps.fstIte | with_reducible apply Keeps.foldPair | with_reducible apply Keeps.fold
    | simp only [Keeps.mk_eq] | split | simp +zetaDelta only [Keeps.mk_eq]

theorem State.openFreq_keeps {s₀ s : State} (pool : Nat) (total : Nat) (k : Nat) (n : Nat) (h : Keeps s₀ s) :
    Keeps s₀ (State.openFreq s pool total k n) := by
  unfold State.openFreq
  repeat' first
    | with_reducible assumption | intro _ | extract_lets | with_reducible apply State.setFreq_keeps
    | with_reducible apply Keeps.ite | with_reducible apply Keeps.fstIte | with_reducible apply Keeps.foldPair
    | with_reducible apply Keeps.fold | simp only [Keeps.mk_eq] | split | simp +zetaDelta only [Keeps.mk_eq]

theorem State.sealedFreq_keeps {s₀ s : State} (exceeds : Bool) (n : Nat) (h : Keeps s₀ s) :
    Keeps s₀ (State.sealedFreq s exceeds n) := by
  unfold State.sealedFreq
  repeat' first
    | with_reducible assumption | intro _ | extract_lets | with_reducible apply State.setFreq_keeps
    | with_reducible apply Keeps.ite | with_reducible apply Keeps.fstIte | with_reducible apply Keeps.foldPair
    | with_reducible apply Keeps.fold | simp only [Keeps.mk_eq] | split | simp +zetaDelta only [Keeps.mk_eq]

theorem State.takeMeasure_keeps {s₀ s : State} (m : PowerMeasure) (h : Keeps s₀ s) :
    Keeps s₀ (State.takeMeasure s m) := by
  unfold State.takeMeasure
  repeat' first
    | with_reducible assumption | intro _ | extract_lets | with_reducible apply Keeps.ite
    | with_reducible apply Keeps.fstIte | with_reducible apply Keeps.foldPair | with_reducible apply Keeps.fold
    | simp only [Keeps.mk_eq] | split | simp +zetaDelta only [Keeps.mk_eq]

theorem State.logDroop_keeps {s₀ s : State} (d : Nat) (h : Keeps s₀ s) :
    Keeps s₀ (State.logDroop s d) := by
  unfold State.logDroop
  repeat' first
    | with_reducible assumption | intro _ | extract_lets | with_reducible apply State.logPower_keeps
    | with_reducible apply Keeps.ite | with_reducible apply Keeps.fstIte | with_reducible apply Keeps.foldPair
    | with_reducible apply Keeps.fold | simp only [Keeps.mk_eq] | split | simp +zetaDelta only [Keeps.mk_eq]

theorem State.takeTj_keeps {s₀ s : State} (d : Nat) (tj : Byte) (h : Keeps s₀ s) :
    Keeps s₀ (State.takeTj s d tj) := by
  unfold State.takeTj
  repeat' first
    | with_reducible assumption | intro _ | extract_lets | with_reducible apply Keeps.ite
    | with_reducible apply Keeps.fstIte | with_reducible apply Keeps.foldPair | with_reducible apply Keeps.fold
    | simp only [Keeps.mk_eq] | split | simp +zetaDelta only [Keeps.mk_eq]

theorem State.throttle_keeps {s₀ s : State} (d : Nat) (tj : Byte) (h : Keeps s₀ s) :
    Keeps s₀ (State.throttle s d tj) := by
  unfold State.throttle
  repeat' first
    | with_reducible assumption | intro _ | extract_lets | with_reducible apply State.logPower_keeps
    | with_reducible apply Keeps.ite | with_reducible apply Keeps.fstIte | with_reducible apply Keeps.foldPair
    | with_reducible apply Keeps.fold | simp only [Keeps.mk_eq] | split | simp +zetaDelta only [Keeps.mk_eq]

theorem State.modTime_keeps {s₀ s : State} (g : TimeBase → TimeBase) (h : Keeps s₀ s) :
    Keeps s₀ (State.modTime s g) := by
  unfold State.modTime
  repeat' first
    | with_reducible assumption | intro _ | extract_lets | with_reducible apply Keeps.ite
    | with_reducible apply Keeps.fstIte | with_reducible apply Keeps.foldPair | with_reducible apply Keeps.fold
    | simp only [Keeps.mk_eq] | split | simp +zetaDelta only [Keeps.mk_eq]

theorem State.refreshUplink_keeps {s₀ s : State} (h : Keeps s₀ s) : Keeps s₀ (State.refreshUplink s) := by
  unfold State.refreshUplink
  repeat' first
    | with_reducible assumption | intro _ | extract_lets | with_reducible apply State.logTime_keeps
    | with_reducible apply State.modTime_keeps | with_reducible apply Keeps.ite
    | with_reducible apply Keeps.fstIte | with_reducible apply Keeps.foldPair | with_reducible apply Keeps.fold
    | simp only [Keeps.mk_eq] | split | simp +zetaDelta only [Keeps.mk_eq]

theorem State.enterLocked_keeps {s₀ s : State} (step : DWord) (h : Keeps s₀ s) :
    Keeps s₀ (State.enterLocked s step) := by
  unfold State.enterLocked
  repeat' first
    | with_reducible assumption | intro _ | extract_lets | with_reducible apply State.modTime_keeps
    | with_reducible apply State.logTime_keeps | with_reducible apply Keeps.ite
    | with_reducible apply Keeps.fstIte | with_reducible apply Keeps.foldPair | with_reducible apply Keeps.fold
    | simp only [Keeps.mk_eq] | split | simp +zetaDelta only [Keeps.mk_eq]

theorem State.rootReference_keeps {s₀ s : State} (h : Keeps s₀ s) : Keeps s₀ (State.rootReference s) := by
  unfold State.rootReference
  repeat' first
    | with_reducible assumption | intro _ | extract_lets | with_reducible apply State.modTime_keeps
    | with_reducible apply State.enterLocked_keeps | with_reducible apply State.useFree_keeps
    | with_reducible apply Keeps.ite | with_reducible apply Keeps.fstIte | with_reducible apply Keeps.foldPair
    | with_reducible apply Keeps.fold | simp only [Keeps.mk_eq] | split | simp +zetaDelta only [Keeps.mk_eq]

theorem State.half_keeps {s₀ s : State} (x1 : Int) (h : Keeps s₀ s) : Keeps s₀ (State.half s x1).1 := by
  unfold State.half
  repeat' first
    | with_reducible assumption | intro _ | extract_lets | with_reducible apply State.useFree_keeps
    | with_reducible apply Keeps.ite | with_reducible apply Keeps.fstIte | with_reducible apply Keeps.foldPair
    | with_reducible apply Keeps.fold | simp only [Keeps.mk_eq] | split | simp +zetaDelta only [Keeps.mk_eq]

theorem State.reg32_keeps {s₀ s : State} (x1 : Int) (h : Keeps s₀ s) : Keeps s₀ (State.reg32 s x1).1 := by
  unfold State.reg32
  repeat' first
    | with_reducible assumption | intro _ | extract_lets | with_reducible apply State.useFree_keeps
    | with_reducible apply Keeps.ite | with_reducible apply Keeps.fstIte | with_reducible apply Keeps.foldPair
    | with_reducible apply Keeps.fold | simp only [Keeps.mk_eq] | split | simp +zetaDelta only [Keeps.mk_eq]

theorem State.newRate_keeps {s₀ s : State} (h : Keeps s₀ s) : Keeps s₀ (State.newRate s) := by
  unfold State.newRate
  repeat' first
    | with_reducible assumption | intro _ | extract_lets | with_reducible apply State.modTime_keeps
    | with_reducible apply State.useFree_keeps | with_reducible apply Keeps.ite
    | with_reducible apply Keeps.fstIte | with_reducible apply Keeps.foldPair | with_reducible apply Keeps.fold
    | simp only [Keeps.mk_eq] | split | simp +zetaDelta only [Keeps.mk_eq]

theorem State.measure_keeps {s₀ s : State} (t : TimeFrame) (t4 : DWord) (h : Keeps s₀ s) :
    Keeps s₀ (State.measure s t t4) := by
  unfold State.measure
  repeat' first
    | with_reducible assumption | intro _ | extract_lets | with_reducible apply State.half_keeps
    | with_reducible apply State.reg32_keeps | with_reducible apply State.modTime_keeps
    | with_reducible apply State.newRate_keeps | with_reducible apply State.logTime_keeps
    | with_reducible apply State.enterLocked_keeps | with_reducible apply Keeps.ite
    | with_reducible apply Keeps.fstIte | with_reducible apply Keeps.foldPair | with_reducible apply Keeps.fold
    | simp only [Keeps.mk_eq] | split | simp +zetaDelta only [Keeps.mk_eq]

theorem State.timeStep_keeps {s₀ s : State} (hi : Word) (h : Keeps s₀ s) :
    Keeps s₀ (State.timeStep s hi) := by
  unfold State.timeStep
  repeat' first
    | with_reducible assumption | intro _ | extract_lets | with_reducible apply State.logTime_keeps
    | with_reducible apply Keeps.ite | with_reducible apply Keeps.fstIte | with_reducible apply Keeps.foldPair
    | with_reducible apply Keeps.fold | simp only [Keeps.mk_eq] | split | simp +zetaDelta only [Keeps.mk_eq]

theorem Logbook.resync_fits (l : Logbook) (g h : LogEntry → LogEntry) (hl : l.fits = true) :
    Logbook.fits { l with
      rings := l.rings.map (fun r => (r.1, { r.2 with entries := r.2.entries.map g })),
      staging := l.staging.map h } = true := by
  simpa [Logbook.fits] using hl

theorem State.realign_keeps {s₀ s : State} (d : Nat) (h : Keeps s₀ s) : Keeps s₀ (s.realign d) := by
  unfold State.realign
  extract_lets l s1 s2 p s3
  have h1 : Keeps s₀ s1 := h.setLog _ (Logbook.resync_fits _ _ _)
  have h2 : Keeps s₀ s2 := by
    refine Keeps.ite (eachDo_keeps _ _ (fun k t ht => ?_) h1) h1
    exact State.modCore_keeps _ _ ht
  refine State.logTime_keeps _ _ _ ?_
  have e : Keeps s₀ s3 = Keeps s₀ s2 := Keeps.mk_eq s2 rfl rfl rfl rfl rfl rfl rfl rfl
  exact e ▸ h2

theorem State.lifeNext_keeps {s₀ s : State} (h : Keeps s₀ s) : Keeps s₀ (State.lifeNext s) := by
  unfold State.lifeNext
  repeat' first
    | with_reducible assumption | intro _ | extract_lets | with_reducible apply State.lifeBegin_keeps
    | with_reducible apply Keeps.ite | with_reducible apply Keeps.fstIte | with_reducible apply Keeps.foldPair
    | with_reducible apply Keeps.fold | simp only [Keeps.mk_eq] | split | simp +zetaDelta only [Keeps.mk_eq]

theorem State.cusCmd_keeps {s₀ s : State} (fn : Nat) (g : State → State) (h : Keeps s₀ s)
    (hg : ∀ t, Keeps s₀ t → Keeps s₀ (g t)) :
    Keeps s₀ (State.cusCmd s fn g) := by
  unfold State.cusCmd
  repeat' first
    | with_reducible assumption | intro _ | extract_lets | with_reducible apply hg
    | with_reducible apply State.onBar_keeps | with_reducible apply Keeps.ite
    | with_reducible apply Keeps.fstIte | with_reducible apply Keeps.foldPair | with_reducible apply Keeps.fold
    | simp only [Keeps.mk_eq] | split | simp +zetaDelta only [Keeps.mk_eq]

theorem State.cusStatus_keeps {s₀ s : State} (status : Nat) (h : Keeps s₀ s) :
    Keeps s₀ (State.cusStatus s status) := by
  unfold State.cusStatus
  repeat' first
    | with_reducible assumption | intro _ | extract_lets | with_reducible apply Keeps.ite
    | with_reducible apply Keeps.fstIte | with_reducible apply Keeps.foldPair | with_reducible apply Keeps.fold
    | simp only [Keeps.mk_eq] | split | simp +zetaDelta only [Keeps.mk_eq]

theorem State.setAnchor_keeps {s₀ s : State} (a : Option (BitVec 384)) (h : Keeps s₀ s) :
    Keeps s₀ (State.setAnchor s a) := by
  unfold State.setAnchor
  repeat' first
    | with_reducible assumption | intro _ | extract_lets | with_reducible apply Keeps.ite
    | with_reducible apply Keeps.fstIte | with_reducible apply Keeps.foldPair | with_reducible apply Keeps.fold
    | simp only [Keeps.mk_eq] | split | simp +zetaDelta only [Keeps.mk_eq]

theorem State.cuspStatus_keeps {s₀ s : State} (p : Nat) (status : Nat) (h : Keeps s₀ s) :
    Keeps s₀ (State.cuspStatus s p status) := by
  unfold State.cuspStatus
  repeat' first
    | with_reducible assumption | intro _ | extract_lets | with_reducible apply State.modCus_keeps
    | with_reducible apply Keeps.ite | with_reducible apply Keeps.fstIte | with_reducible apply Keeps.foldPair
    | with_reducible apply Keeps.fold | simp only [Keeps.mk_eq] | split | simp +zetaDelta only [Keeps.mk_eq]

theorem State.installKeys_keeps {s₀ s : State} (p : Nat) (es : List KeyEntry) (protect : Bool) (h : Keeps s₀ s) :
    Keeps s₀ (State.installKeys s p es protect) := by
  unfold State.installKeys
  repeat' first
    | with_reducible assumption | intro _ | extract_lets | with_reducible apply eachDo_keeps
    | with_reducible apply State.setKeySlot_keeps | with_reducible apply State.modCus_keeps
    | with_reducible apply Keeps.ite | with_reducible apply Keeps.fstIte | with_reducible apply Keeps.foldPair
    | with_reducible apply Keeps.fold | simp only [Keeps.mk_eq] | split | simp +zetaDelta only [Keeps.mk_eq]

theorem State.takeBlob_keeps {s₀ s : State} (p : Nat) (b : KeyBlob) (h : Keeps s₀ s) :
    Keeps s₀ (State.takeBlob s p b).1 := by
  unfold State.takeBlob
  repeat' first
    | with_reducible assumption | intro _ | extract_lets | with_reducible apply State.logCus_keeps
    | with_reducible apply State.installKeys_keeps | with_reducible apply Keeps.ite
    | with_reducible apply Keeps.fstIte | with_reducible apply Keeps.foldPair | with_reducible apply Keeps.fold
    | simp only [Keeps.mk_eq] | split | simp +zetaDelta only [Keeps.mk_eq]

theorem State.refreshScrubbing_keeps {s₀ s : State} (h : Keeps s₀ s) :
    Keeps s₀ (State.refreshScrubbing s) := by
  unfold State.refreshScrubbing
  repeat' first
    | with_reducible assumption | intro _ | extract_lets | with_reducible apply Keeps.ite
    | with_reducible apply Keeps.fstIte | with_reducible apply Keeps.foldPair | with_reducible apply Keeps.fold
    | simp only [Keeps.mk_eq] | split | simp +zetaDelta only [Keeps.mk_eq]

theorem State.pageEnd_keeps {s₀ s : State} (m : Nat) (part : Nat) (q : Nat) (status : Nat) (h : Keeps s₀ s) :
    Keeps s₀ (State.pageEnd s m part q status) := by
  unfold State.pageEnd
  repeat' first
    | with_reducible assumption | intro _ | extract_lets | with_reducible apply State.modPage_keeps
    | with_reducible apply State.logAt_keeps | with_reducible apply Keeps.ite
    | with_reducible apply Keeps.fstIte | with_reducible apply Keeps.foldPair | with_reducible apply Keeps.fold
    | simp only [Keeps.mk_eq] | split | simp +zetaDelta only [Keeps.mk_eq]

theorem State.qpDestroy_keeps {s₀ s : State} (q : Nat) (h : Keeps s₀ s) :
    Keeps s₀ (State.qpDestroy s q) := by
  unfold State.qpDestroy
  repeat' first
    | with_reducible assumption | intro _ | extract_lets | with_reducible apply State.evict_keeps
    | with_reducible apply State.modQp_keeps | with_reducible apply State.dropParked_keeps
    | with_reducible apply State.qpStop_keeps | with_reducible apply State.failAll_keeps
    | with_reducible apply Keeps.ite | with_reducible apply Keeps.fstIte | with_reducible apply Keeps.foldPair
    | with_reducible apply Keeps.fold | simp only [Keeps.mk_eq] | split | simp +zetaDelta only [Keeps.mk_eq]

theorem State.pageDoPin_keeps {s₀ s : State} (m : Nat) (part : Nat) (q : Nat) (h : Keeps s₀ s) :
    Keeps s₀ (State.pageDoPin s m part q) := by
  unfold State.pageDoPin
  repeat' first
    | with_reducible assumption | intro _ | extract_lets | with_reducible apply State.pageEnd_keeps
    | with_reducible apply State.modQp_keeps | with_reducible apply State.modPage_keeps
    | with_reducible apply State.startFetch_keeps | with_reducible apply Keeps.ite
    | with_reducible apply Keeps.fstIte | with_reducible apply Keeps.foldPair | with_reducible apply Keeps.fold
    | simp only [Keeps.mk_eq] | split | simp +zetaDelta only [Keeps.mk_eq]

theorem State.putContext_keeps {s₀ s : State} (q : Nat) (h : Keeps s₀ s) :
    Keeps s₀ (State.putContext s q) := by
  unfold State.putContext
  repeat' first
    | with_reducible assumption | intro _ | extract_lets | with_reducible apply State.writeContext_keeps
    | with_reducible apply Keeps.ite | with_reducible apply Keeps.fstIte | with_reducible apply Keeps.foldPair
    | with_reducible apply Keeps.fold | simp only [Keeps.mk_eq] | split | simp +zetaDelta only [Keeps.mk_eq]

theorem State.pageDo_keeps {s₀ s : State} (m : Nat) (part : Nat) (q : Nat) (op : Nat) (h : Keeps s₀ s) :
    Keeps s₀ (State.pageDo s m part q op) := by
  unfold State.pageDo
  repeat' first
    | with_reducible assumption | intro _ | extract_lets | with_reducible apply State.pageEnd_keeps
    | with_reducible apply State.writeContext_keeps | with_reducible apply State.setQp_keeps
    | with_reducible apply State.qpDestroy_keeps | with_reducible apply State.pageDoPin_keeps
    | with_reducible apply State.modQp_keeps | with_reducible apply State.putContext_keeps
    | with_reducible apply State.modPage_keeps | with_reducible apply Keeps.ite
    | with_reducible apply Keeps.fstIte | with_reducible apply Keeps.foldPair | with_reducible apply Keeps.fold
    | simp only [Keeps.mk_eq] | split | simp +zetaDelta only [Keeps.mk_eq]

theorem State.pageRun_keeps {s₀ s : State} (m : Nat) (part : Nat) (q : Nat) (op : Nat) (h : Keeps s₀ s) :
    Keeps s₀ (State.pageRun s m part q op) := by
  unfold State.pageRun
  repeat' first
    | with_reducible assumption | intro _ | extract_lets | with_reducible apply State.pageEnd_keeps
    | with_reducible apply State.modPage_keeps | with_reducible apply State.pageDo_keeps
    | with_reducible apply Keeps.ite | with_reducible apply Keeps.fstIte | with_reducible apply Keeps.foldPair
    | with_reducible apply Keeps.fold | simp only [Keeps.mk_eq] | split | simp +zetaDelta only [Keeps.mk_eq]

theorem State.pageCmd_keeps {s₀ s : State} (m : Nat) (part : Nat) (op : Nat) (h : Keeps s₀ s) :
    Keeps s₀ (State.pageCmd s m part op) := by
  unfold State.pageCmd
  repeat' first
    | with_reducible assumption | intro _ | extract_lets | with_reducible apply State.pageRun_keeps
    | with_reducible apply Keeps.ite | with_reducible apply Keeps.fstIte | with_reducible apply Keeps.foldPair
    | with_reducible apply Keeps.fold | simp only [Keeps.mk_eq] | split | simp +zetaDelta only [Keeps.mk_eq]

theorem State.pageResume_keeps {s₀ s : State} (q : Nat) (bad : Bool) (h : Keeps s₀ s) :
    Keeps s₀ (State.pageResume s q bad) := by
  unfold State.pageResume
  repeat' first
    | with_reducible assumption | intro _ | extract_lets | with_reducible apply State.pageEnd_keeps
    | with_reducible apply State.pageRun_keeps | with_reducible apply Keeps.ite
    | with_reducible apply Keeps.fstIte | with_reducible apply Keeps.foldPair | with_reducible apply Keeps.fold
    | simp only [Keeps.mk_eq] | split | simp +zetaDelta only [Keeps.mk_eq]

theorem State.fetchEnd_keeps {s₀ s : State} (q : Nat) (bad : Bool) (h : Keeps s₀ s) :
    Keeps s₀ (State.fetchEnd s q bad) := by
  unfold State.fetchEnd
  repeat' first
    | with_reducible assumption | intro _ | extract_lets | with_reducible apply State.modPorter_keeps
    | with_reducible apply State.wakeContext_keeps | with_reducible apply State.pageResume_keeps
    | with_reducible apply State.fetchBad_keeps | with_reducible apply State.modQp_keeps
    | with_reducible apply State.touchRead_keeps | with_reducible apply State.rxParked_keeps
    | with_reducible apply Keeps.ite | with_reducible apply Keeps.fstIte | with_reducible apply Keeps.foldPair
    | with_reducible apply Keeps.fold | simp only [Keeps.mk_eq] | refine State.makeRoom_keeps (by assumption) ?_
    | refine eachDo_keeps _ _ ?_ ?_ | split | simp +zetaDelta only [Keeps.mk_eq]

theorem State.tallyTrace_keeps {s₀ s : State} (p : Nat) (mark : BitVec 4) (i : Nat) (h : Keeps s₀ s) :
    Keeps s₀ (State.tallyTrace s p mark i) := by
  unfold State.tallyTrace
  repeat' first
    | with_reducible assumption | intro _ | extract_lets | with_reducible apply State.traceLost_keeps
    | with_reducible apply State.tracePut_keeps | with_reducible apply Keeps.ite
    | with_reducible apply Keeps.fstIte | with_reducible apply Keeps.foldPair | with_reducible apply Keeps.fold
    | simp only [Keeps.mk_eq] | split | simp +zetaDelta only [Keeps.mk_eq]

theorem State.traceRefused_keeps {s₀ s : State} (p : Nat) (q : Nat) (h : Keeps s₀ s) :
    Keeps s₀ (State.traceRefused s p q) := by
  unfold State.traceRefused
  repeat' first
    | with_reducible assumption | intro _ | extract_lets | with_reducible apply State.logCore_keeps
    | with_reducible apply State.modPart_keeps | with_reducible apply Keeps.ite
    | with_reducible apply Keeps.fstIte | with_reducible apply Keeps.foldPair | with_reducible apply Keeps.fold
    | simp only [Keeps.mk_eq] | split | simp +zetaDelta only [Keeps.mk_eq]

theorem State.traceSend_keeps {s₀ s : State} (q : Nat) (d : Nat) (segs : List (Nat × List Byte)) (h : Keeps s₀ s) :
    Keeps s₀ (State.traceSend s q d segs) := by
  unfold State.traceSend
  repeat' first
    | with_reducible assumption | intro _ | extract_lets | with_reducible apply State.queueSend_keeps
    | with_reducible apply Keeps.ite | with_reducible apply Keeps.fstIte | with_reducible apply Keeps.foldPair
    | with_reducible apply Keeps.fold | simp only [Keeps.mk_eq] | split | simp +zetaDelta only [Keeps.mk_eq]

theorem State.drainOne_keeps {s₀ s : State} (p : Nat) (q : Nat) (h : Keeps s₀ s) :
    Keeps s₀ (State.drainOne s p q) := by
  unfold State.drainOne
  repeat' first
    | with_reducible assumption | intro _ | extract_lets | with_reducible apply State.modCore_keeps
    | with_reducible apply State.modPart_keeps | with_reducible apply State.traceSend_keeps
    | with_reducible apply State.traceRefused_keeps | with_reducible apply State.stores_keeps
    | with_reducible apply Keeps.ite | with_reducible apply Keeps.fstIte | with_reducible apply Keeps.foldPair
    | with_reducible apply Keeps.fold | simp only [Keeps.mk_eq] | split | simp +zetaDelta only [Keeps.mk_eq]

theorem times_keeps {s₀ s : State} (n : Nat) (g : State → State) (hg : ∀ t, Keeps s₀ t → Keeps s₀ (g t))
    (h : Keeps s₀ s) : Keeps s₀ (times n g s) := by
  unfold times
  repeat' first
    | with_reducible assumption | intro _ | extract_lets | with_reducible apply hg
    | with_reducible apply Keeps.ite | with_reducible apply Keeps.fstIte | with_reducible apply Keeps.foldPair
    | with_reducible apply Keeps.fold | simp only [Keeps.mk_eq] | split | simp +zetaDelta only [Keeps.mk_eq]

theorem State.modView_keeps {s₀ s : State} (fn : Nat) (g : LogView → LogView) (h : Keeps s₀ s) :
    Keeps s₀ (State.modView s fn g) := by
  unfold State.modView
  repeat' first
    | with_reducible assumption | intro _ | extract_lets | with_reducible apply State.modFn_keeps
    | with_reducible apply Keeps.ite | with_reducible apply Keeps.fstIte | with_reducible apply Keeps.foldPair
    | with_reducible apply Keeps.fold | simp only [Keeps.mk_eq] | split | simp +zetaDelta only [Keeps.mk_eq]

theorem State.windowEnd_keeps {s₀ s : State} (fn : Nat) (h : Keeps s₀ s) :
    Keeps s₀ (State.windowEnd s fn) := by
  unfold State.windowEnd
  repeat' first
    | with_reducible assumption | intro _ | extract_lets | with_reducible apply State.modView_keeps
    | with_reducible apply Keeps.ite | with_reducible apply Keeps.fstIte | with_reducible apply Keeps.foldPair
    | with_reducible apply Keeps.fold | simp only [Keeps.mk_eq] | split | simp +zetaDelta only [Keeps.mk_eq]

theorem State.logUpd_keeps {s₀ s : State} (n : Nat) (code : Nat) (status : Nat) (part : Option Nat)
    (args : List Word) (h : Keeps s₀ s) :
    Keeps s₀ (State.logUpd s n code status part args) := by
  unfold State.logUpd
  repeat' first
    | with_reducible assumption | intro _ | extract_lets | with_reducible apply State.logAt_keeps
    | with_reducible apply Keeps.ite | with_reducible apply Keeps.fstIte | with_reducible apply Keeps.foldPair
    | with_reducible apply Keeps.fold | simp only [Keeps.mk_eq] | split | simp +zetaDelta only [Keeps.mk_eq]

theorem State.modUpd_keeps {s₀ s : State} (n : Nat) (g : UpdEngine → UpdEngine) (h : Keeps s₀ s) :
    Keeps s₀ (State.modUpd s n g) := by
  unfold State.modUpd
  repeat' first
    | with_reducible assumption | intro _ | extract_lets | with_reducible apply State.modDie_keeps
    | with_reducible apply Keeps.ite | with_reducible apply Keeps.fstIte | with_reducible apply Keeps.foldPair
    | with_reducible apply Keeps.fold | simp only [Keeps.mk_eq] | split | simp +zetaDelta only [Keeps.mk_eq]

theorem State.updRead_keeps {s₀ s : State} (n : Nat) (segs : List (Nat × Nat)) (h : Keeps s₀ s) :
    Keeps s₀ (State.updRead s n segs).1 := by
  unfold State.updRead
  repeat' first
    | with_reducible assumption | intro _ | extract_lets | with_reducible apply State.touchRead_keeps
    | with_reducible apply Keeps.ite | with_reducible apply Keeps.fstIte | with_reducible apply Keeps.foldPair
    | with_reducible apply Keeps.fold | simp only [Keeps.mk_eq] | split | simp +zetaDelta only [Keeps.mk_eq]

theorem State.recordPost_keeps {s₀ s : State} (n b : Nat) (d : UpdDesc) (h : Keeps s₀ s) :
    Keeps s₀ (s.recordPost n b d) := by
  unfold State.recordPost
  cases e : s.post (22 * n) (.depot n b) 1 with
  | some t => exact State.post_keeps e h
  | none => exact State.logUpd_keeps _ _ _ _ _ h

theorem State.updDone_keeps {s₀ s : State} (n : Nat) (d : UpdDesc) (status : Nat) (nf : Nat) (h : Keeps s₀ s) :
    Keeps s₀ (State.updDone s n d status nf) := by
  unfold State.updDone
  repeat' first
    | with_reducible assumption | intro _ | extract_lets | with_reducible apply State.recordPost_keeps
    | with_reducible apply State.stores_keeps | with_reducible apply Keeps.ite
    | with_reducible apply Keeps.fstIte | with_reducible apply Keeps.foldPair | with_reducible apply Keeps.fold
    | simp only [Keeps.mk_eq] | split | simp +zetaDelta only [Keeps.mk_eq]

theorem State.updFinish_keeps {s₀ s : State} (n : Nat) (d : UpdDesc) (status : Nat) (nf : Nat) (h : Keeps s₀ s) :
    Keeps s₀ (State.updFinish s n d status nf) := by
  unfold State.updFinish
  repeat' first
    | with_reducible assumption | intro _ | extract_lets | with_reducible apply State.modUpd_keeps
    | with_reducible apply State.updDone_keeps | with_reducible apply State.logUpd_keeps
    | with_reducible apply State.partFault_keeps | with_reducible apply Keeps.ite
    | with_reducible apply Keeps.fstIte | with_reducible apply Keeps.foldPair | with_reducible apply Keeps.fold
    | simp only [Keeps.mk_eq] | split | simp +zetaDelta only [Keeps.mk_eq]

theorem State.houseAdd_keeps {s₀ s : State} (n : Nat) (e : Add) (h : Keeps s₀ s) :
    Keeps s₀ (State.houseAdd s n e).1 := by
  unfold State.houseAdd
  repeat' first
    | with_reducible assumption | intro _ | extract_lets | with_reducible apply State.modHouse_keeps
    | with_reducible apply State.logHouse_keeps | with_reducible apply State.applyAdd_keeps
    | with_reducible apply Keeps.ite | with_reducible apply Keeps.fstIte | with_reducible apply Keeps.foldPair
    | with_reducible apply Keeps.fold | simp only [Keeps.mk_eq] | split | simp +zetaDelta only [Keeps.mk_eq]

theorem State.framesDone_keeps {s₀ s : State} (h : Keeps s₀ s) : Keeps s₀ (State.framesDone s) := by
  unfold State.framesDone
  repeat' first
    | with_reducible assumption | intro _ | extract_lets | with_reducible apply eachDo_keeps
    | with_reducible apply State.frameDone_keeps | with_reducible apply Keeps.ite
    | with_reducible apply Keeps.fstIte | with_reducible apply Keeps.foldPair | with_reducible apply Keeps.fold
    | simp only [Keeps.mk_eq] | split | simp +zetaDelta only [Keeps.mk_eq]

theorem State.logPlace_keeps {s₀ s : State} (p : Nat) (code : Nat) (status : Nat) (h : Keeps s₀ s) :
    Keeps s₀ (State.logPlace s p code status) := by
  unfold State.logPlace
  repeat' first
    | with_reducible assumption | intro _ | extract_lets | with_reducible apply State.logAt_keeps
    | with_reducible apply Keeps.ite | with_reducible apply Keeps.fstIte | with_reducible apply Keeps.foldPair
    | with_reducible apply Keeps.fold | simp only [Keeps.mk_eq] | split | simp +zetaDelta only [Keeps.mk_eq]

theorem State.modPartMem_keeps {s₀ s : State} (p : Nat) (g : PartMem → PartMem) (h : Keeps s₀ s) :
    Keeps s₀ (State.modPartMem s p g) := by
  unfold State.modPartMem
  repeat' first
    | with_reducible assumption | intro _ | extract_lets | with_reducible apply State.modPart_keeps
    | with_reducible apply Keeps.ite | with_reducible apply Keeps.fstIte | with_reducible apply Keeps.foldPair
    | with_reducible apply Keeps.fold | simp only [Keeps.mk_eq] | split | simp +zetaDelta only [Keeps.mk_eq]

theorem State.placeResult_keeps {s₀ s : State} (p : Nat) (status : Nat) (h : Keeps s₀ s) :
    Keeps s₀ (State.placeResult s p status) := by
  unfold State.placeResult
  repeat' first
    | with_reducible assumption | intro _ | extract_lets | with_reducible apply State.modPartMem_keeps
    | with_reducible apply Keeps.ite | with_reducible apply Keeps.fstIte | with_reducible apply Keeps.foldPair
    | with_reducible apply Keeps.fold | simp only [Keeps.mk_eq] | split | simp +zetaDelta only [Keeps.mk_eq]

theorem State.failOnce_keeps {s₀ s : State} (m : Nat) (c : Nat) (h : Keeps s₀ s) :
    Keeps s₀ (State.failOnce s m c) := by
  unfold State.failOnce
  repeat' first
    | with_reducible assumption | intro _ | extract_lets | with_reducible apply State.failChannel_keeps
    | with_reducible apply Keeps.ite | with_reducible apply Keeps.fstIte | with_reducible apply Keeps.foldPair
    | with_reducible apply Keeps.fold | simp only [Keeps.mk_eq] | split | simp +zetaDelta only [Keeps.mk_eq]

theorem State.patrolHbm_keeps {s₀ s : State} (n : Nat) (word : Nat) (passEnd : Bool) (h : Keeps s₀ s) :
    Keeps s₀ (State.patrolHbm s n word passEnd) := by
  unfold State.patrolHbm
  repeat' first
    | with_reducible assumption | intro _ | extract_lets | with_reducible apply State.correctHbm_keeps
    | with_reducible apply State.uncorrHbm_keeps | with_reducible apply State.modDie_keeps
    | with_reducible apply State.logHbm_keeps | with_reducible apply Keeps.ite
    | with_reducible apply Keeps.fstIte | with_reducible apply Keeps.foldPair | with_reducible apply Keeps.fold
    | simp only [Keeps.mk_eq] | split | simp +zetaDelta only [Keeps.mk_eq]

theorem State.patrolCis_keeps {s₀ s : State} (m : Nat) (word : Nat) (passEnd : Bool) (h : Keeps s₀ s) :
    Keeps s₀ (State.patrolCis s m word passEnd) := by
  unfold State.patrolCis
  repeat' first
    | with_reducible assumption | intro _ | extract_lets | with_reducible apply State.correctCis_keeps
    | with_reducible apply State.uncorrCis_keeps | with_reducible apply State.modCis_keeps
    | with_reducible apply State.logCis_keeps | with_reducible apply Keeps.ite
    | with_reducible apply Keeps.fstIte | with_reducible apply Keeps.foldPair | with_reducible apply Keeps.fold
    | simp only [Keeps.mk_eq] | split | simp +zetaDelta only [Keeps.mk_eq]

theorem State.flitBad_keeps {s₀ s : State} (d : Nat) (port : Nat) (retry : Bool) (h : Keeps s₀ s) :
    Keeps s₀ (State.flitBad s d port retry) := by
  unfold State.flitBad
  repeat' first
    | with_reducible assumption | intro _ | extract_lets | with_reducible apply Keeps.ite
    | with_reducible apply Keeps.fstIte | with_reducible apply Keeps.foldPair | with_reducible apply Keeps.fold
    | simp only [Keeps.mk_eq] | split | simp +zetaDelta only [Keeps.mk_eq]

theorem State.flitCorrected_keeps {s₀ s : State} (d : Nat) (h : Keeps s₀ s) :
    Keeps s₀ (State.flitCorrected s d) := by
  unfold State.flitCorrected
  repeat' first
    | with_reducible assumption | intro _ | extract_lets | with_reducible apply Keeps.ite
    | with_reducible apply Keeps.fstIte | with_reducible apply Keeps.foldPair | with_reducible apply Keeps.fold
    | simp only [Keeps.mk_eq] | split | simp +zetaDelta only [Keeps.mk_eq]

theorem State.porterLoss_keeps {s₀ s : State} (p : Nat) (o : PorterOp) (h : Keeps s₀ s) :
    Keeps s₀ (State.porterLoss s p o) := by
  unfold State.porterLoss
  repeat' first
    | with_reducible assumption | intro _ | extract_lets | with_reducible apply State.dropReading_keeps
    | with_reducible apply State.landPartly_keeps | with_reducible apply State.opFault_keeps
    | with_reducible apply State.tracePorter_keeps | with_reducible apply State.endOp_keeps
    | with_reducible apply Keeps.ite | with_reducible apply Keeps.fstIte | with_reducible apply Keeps.foldPair
    | with_reducible apply Keeps.fold | simp only [Keeps.mk_eq] | split | simp +zetaDelta only [Keeps.mk_eq]

theorem State.transferLoss_keeps {s₀ s : State} (t : Transfer) (h : Keeps s₀ s) :
    Keeps s₀ (State.transferLoss s t) := by
  unfold State.transferLoss
  repeat' first
    | with_reducible assumption | intro _ | extract_lets | with_reducible apply State.porterLoss_keeps
    | with_reducible apply State.modUpd_keeps | with_reducible apply State.loseAdds_keeps
    | with_reducible apply State.issueWaiting_keeps | with_reducible apply State.framesDone_keeps
    | with_reducible apply State.fetchEnd_keeps | with_reducible apply State.qpError_keeps
    | with_reducible apply State.modCore_keeps | with_reducible apply Keeps.ite
    | with_reducible apply Keeps.fstIte | with_reducible apply Keeps.foldPair | with_reducible apply Keeps.fold
    | simp only [Keeps.mk_eq] | split | simp +zetaDelta only [Keeps.mk_eq]

theorem UpdRun.elem_keeps {s₀ : State} {r : UpdRun} (n : Nat) (d : UpdDesc) (useV : Bool) (i : Nat) (skip : Bool)
    (h : Keeps s₀ r.s) : Keeps s₀ (r.elem n d useV i skip).s := by
  unfold UpdRun.elem
  repeat' first
    | with_reducible assumption | extract_lets | with_reducible apply State.stores_keeps
    | with_reducible apply State.updRead_keeps | split

theorem UpdRun.all_keeps {s₀ s : State} (n : Nat) (d : UpdDesc) (useV : Bool) (h : Keeps s₀ s) :
    Keeps s₀ (UpdRun.all s n d useV).s := by
  suffices H : ∀ (l : List Nat) (r : UpdRun), Keeps s₀ r.s →
      Keeps s₀ (l.foldl (fun r i => r.elem n d useV i false) r).s from H _ _ h
  intro l
  induction l with
  | nil => exact fun r h => h
  | cons i l ih => exact fun r h => ih _ (UpdRun.elem_keeps n d useV i false h)

theorem UpdRun.partly_keeps {s₀ s : State} (n : Nat) (d : UpdDesc) (useV : Bool) (k : Nat) (h : Keeps s₀ s) :
    Keeps s₀ (UpdRun.partly s n d useV k).s := by
  suffices H : ∀ (l : List Nat) (r : UpdRun), Keeps s₀ r.s → Keeps s₀ (l.foldl
      (fun r i => ({ r with s := r.s.useFree }).elem n d useV i (r.s.freeVal.getLsbD 0)) r).s from H _ _ h
  intro l
  induction l with
  | nil => exact fun r h => h
  | cons i l ih => exact fun r h => ih _ (UpdRun.elem_keeps n d useV i _ (State.useFree_keeps h))

end Sys2Proof.Machine
end

