-- ==== Sys2Proof/Laws/KeepsHost.lean ====
section
/-!
SUPPORT. `Keeps` for the operations of host commands, manifests, boot and the registers.
-/

namespace Sys2Proof.Machine

set_option Elab.async false
set_option linter.unusedTactic false
set_option linter.unusedSimpArgs false
set_option linter.unreachableTactic false

theorem State.takeDesc_keeps {s₀ s : State} (f : Nat) (q : Nat) (h : Keeps s₀ s) :
    Keeps s₀ (State.takeDesc s f q) := by
  unfold State.takeDesc
  repeat' first
    | with_reducible assumption | intro _ | extract_lets | with_reducible apply State.modQueue_keeps
    | with_reducible apply Keeps.ite | with_reducible apply Keeps.fstIte | with_reducible apply Keeps.foldPair
    | with_reducible apply Keeps.fold | simp only [Keeps.mk_eq] | split | simp +zetaDelta only [Keeps.mk_eq]

theorem State.settle_keeps {s₀ s : State} (f q n : Nat) (h : Keeps s₀ s) :
    Keeps s₀ (s.settle f q n) := by
  induction n generalizing s with
  | zero =>
    exact h
  | succ n ih =>
    unfold State.settle
    repeat' first
      | with_reducible assumption | intro _ | extract_lets | with_reducible apply ih | with_reducible apply ih
      | with_reducible apply State.takeDesc_keeps | with_reducible apply State.complete_keeps
      | with_reducible apply State.reject_keeps | with_reducible apply Keeps.ite
      | with_reducible apply Keeps.fstIte | with_reducible apply Keeps.foldPair
      | with_reducible apply Keeps.fold | simp only [Keeps.mk_eq] | split | simp +zetaDelta only [Keeps.mk_eq]

theorem State.settleQueue_keeps {s₀ s : State} (f : Nat) (q : Nat) (h : Keeps s₀ s) :
    Keeps s₀ (State.settleQueue s f q) := by
  unfold State.settleQueue
  repeat' first
    | with_reducible assumption | intro _ | extract_lets | with_reducible apply State.settle_keeps
    | with_reducible apply Keeps.ite | with_reducible apply Keeps.fstIte | with_reducible apply Keeps.foldPair
    | with_reducible apply Keeps.fold | simp only [Keeps.mk_eq] | split | simp +zetaDelta only [Keeps.mk_eq]

theorem State.hostCmd_keeps {s₀ s : State} (x1 : CmdHdr) (code : Nat) (flags : Nat) (args : Nat)
    (act : State → CmdRef → State) (hact : ∀ t c, Keeps s₀ t → Keeps s₀ (act t c)) (h : Keeps s₀ s) :
    Keeps s₀ (State.hostCmd s x1 code flags args act) := by
  unfold State.hostCmd
  repeat' first
    | with_reducible assumption | intro _ | extract_lets | with_reducible apply hact
    | with_reducible apply State.takeDesc_keeps | with_reducible apply State.complete_keeps
    | with_reducible apply State.reject_keeps | with_reducible apply State.settleQueue_keeps
    | with_reducible apply Keeps.ite | with_reducible apply Keeps.fstIte | with_reducible apply Keeps.foldPair
    | with_reducible apply Keeps.fold | simp only [Keeps.mk_eq] | split | simp +zetaDelta only [Keeps.mk_eq]

theorem State.startCores_keeps {s₀ s : State} (q : Nat) (h : Keeps s₀ s) :
    Keeps s₀ (State.startCores s q) := by
  unfold State.startCores
  repeat' first
    | with_reducible assumption | intro _ | extract_lets | with_reducible apply eachDo_keeps
    | with_reducible apply State.modCore_keeps | with_reducible apply State.clearTallies_keeps
    | with_reducible apply State.modPart_keeps | with_reducible apply Keeps.ite
    | with_reducible apply Keeps.fstIte | with_reducible apply Keeps.foldPair | with_reducible apply Keeps.fold
    | simp only [Keeps.mk_eq] | split | simp +zetaDelta only [Keeps.mk_eq]

theorem State.startPart_keeps {s₀ s : State} (q : Nat) (c : CmdRef) (h : Keeps s₀ s) :
    Keeps s₀ (State.startPart s q c) := by
  unfold State.startPart
  repeat' first
    | with_reducible assumption | intro _ | extract_lets | with_reducible apply State.modPart_keeps
    | with_reducible apply State.setPartSt_keeps | with_reducible apply State.startCores_keeps
    | with_reducible apply State.modConvoy_keeps | with_reducible apply Keeps.ite
    | with_reducible apply Keeps.fstIte | with_reducible apply Keeps.foldPair | with_reducible apply Keeps.fold
    | simp only [Keeps.mk_eq] | split | simp +zetaDelta only [Keeps.mk_eq]

theorem State.runLoaded_keeps {s₀ s : State} (q : Nat) (h : Keeps s₀ s) :
    Keeps s₀ (State.runLoaded s q) := by
  unfold State.runLoaded
  repeat' first
    | with_reducible assumption | intro _ | extract_lets | with_reducible apply eachDo_keeps
    | with_reducible apply State.modCore_keeps | with_reducible apply Keeps.ite
    | with_reducible apply Keeps.fstIte | with_reducible apply Keeps.foldPair | with_reducible apply Keeps.fold
    | simp only [Keeps.mk_eq] | split | simp +zetaDelta only [Keeps.mk_eq]

theorem State.switchDone_keeps {s₀ s : State} (q : Nat) (h : Keeps s₀ s) :
    Keeps s₀ (State.switchDone s q) := by
  unfold State.switchDone
  repeat' first
    | with_reducible assumption | intro _ | extract_lets | with_reducible apply State.finishSwitch_keeps
    | with_reducible apply State.modPart_keeps | with_reducible apply State.complete_keeps
    | with_reducible apply Keeps.ite | with_reducible apply Keeps.fstIte | with_reducible apply Keeps.foldPair
    | with_reducible apply Keeps.fold | simp only [Keeps.mk_eq] | split | simp +zetaDelta only [Keeps.mk_eq]

theorem State.copyWrite_keeps {s₀ s : State} (a : Nat) (data : List Byte) (h : Keeps s₀ s) :
    Keeps s₀ (State.copyWrite s a data).1 := by
  unfold State.copyWrite
  repeat' first
    | with_reducible assumption | intro _ | extract_lets | with_reducible apply State.writeWords_keeps
    | with_reducible apply Keeps.ite | with_reducible apply Keeps.fstIte | with_reducible apply Keeps.foldPair
    | with_reducible apply Keeps.fold | simp only [Keeps.mk_eq] | split | simp +zetaDelta only [Keeps.mk_eq]

theorem State.dropLost_keeps {s₀ s : State} (c : CmdRef) (h : Keeps s₀ s) :
    Keeps s₀ (State.dropLost s c) := by
  unfold State.dropLost
  repeat' first
    | with_reducible assumption | intro _ | extract_lets | with_reducible apply Keeps.ite
    | with_reducible apply Keeps.fstIte | with_reducible apply Keeps.foldPair | with_reducible apply Keeps.fold
    | simp only [Keeps.mk_eq] | split | simp +zetaDelta only [Keeps.mk_eq]

theorem State.endCopyIn_keeps {s₀ s : State} (c : CmdRef) (d : CopyDone) (h : Keeps s₀ s) :
    Keeps s₀ (State.endCopyIn s c d) := by
  unfold State.endCopyIn
  repeat' first
    | with_reducible assumption | intro _ | extract_lets | with_reducible apply State.complete_keeps
    | with_reducible apply State.useFree_keeps | with_reducible apply Keeps.ite
    | with_reducible apply Keeps.fstIte | with_reducible apply Keeps.foldPair | with_reducible apply Keeps.fold
    | simp only [Keeps.mk_eq] | split | simp +zetaDelta only [Keeps.mk_eq]

theorem State.copyData_keeps {s₀ s : State} (c : CmdRef) (a : Nat) (data : List Byte) (h : Keeps s₀ s) :
    Keeps s₀ (State.copyData s c a data).1 := by
  unfold State.copyData
  repeat' first
    | with_reducible assumption | intro _ | extract_lets | with_reducible apply State.landSome_keeps
    | with_reducible apply State.copyWrite_keeps | with_reducible apply Keeps.ite
    | with_reducible apply Keeps.fstIte | with_reducible apply Keeps.foldPair | with_reducible apply Keeps.fold
    | simp only [Keeps.mk_eq] | split | simp +zetaDelta only [Keeps.mk_eq]

theorem State.copyChunks_keeps {s₀ s : State} (c : CmdRef) (key : BitVec 256) (stream a i : Nat) (l : List Chunk)
    (d : CopyDone) (h : Keeps s₀ s) :
    Keeps s₀ (s.copyChunks c key stream a i l d).1 := by
  induction l generalizing s a i d with
  | nil =>
    exact h
  | cons e l ih =>
    unfold State.copyChunks
    repeat' first
      | with_reducible assumption | intro _ | extract_lets | with_reducible apply ih | with_reducible apply ih
      | with_reducible apply State.copyData_keeps | with_reducible apply Keeps.ite
      | with_reducible apply Keeps.fstIte | with_reducible apply Keeps.foldPair
      | with_reducible apply Keeps.fold | simp only [Keeps.mk_eq] | split | simp +zetaDelta only [Keeps.mk_eq]

theorem State.protectRefuse_keeps {s₀ s : State} (q : Nat) (c : CmdRef) (h : Keeps s₀ s) :
    Keeps s₀ (State.protectRefuse s q c) := by
  unfold State.protectRefuse
  repeat' first
    | with_reducible assumption | intro _ | extract_lets | with_reducible apply State.complete_keeps
    | with_reducible apply State.logCus_keeps | with_reducible apply Keeps.ite
    | with_reducible apply Keeps.fstIte | with_reducible apply Keeps.foldPair | with_reducible apply Keeps.fold
    | simp only [Keeps.mk_eq] | split | simp +zetaDelta only [Keeps.mk_eq]

theorem State.freeBytes_keeps {s₀ s : State} (n : Nat) (h : Keeps s₀ s) : Keeps s₀ (s.freeBytes n).1 := by
  induction n generalizing s with
  | zero => exact h
  | succ n ih => exact ih (State.useFree_keeps h)

theorem State.copyOutHealthy_keeps {s₀ s : State} (host : Nat) (a : Nat) (ok : List (Nat × Nat)) (h : Keeps s₀ s) :
    Keeps s₀ (State.copyOutHealthy s host a ok) := by
  unfold State.copyOutHealthy
  repeat' first
    | with_reducible assumption | intro _ | extract_lets | with_reducible apply eachDo_keeps
    | with_reducible apply State.hostWrite_keeps | with_reducible apply Keeps.ite
    | with_reducible apply Keeps.fstIte | with_reducible apply Keeps.foldPair | with_reducible apply Keeps.fold
    | simp only [Keeps.mk_eq] | split | simp +zetaDelta only [Keeps.mk_eq]

theorem State.copyOut_keeps {s₀ s : State} (c : CmdRef) (host : Nat) (a : Nat) (n : Nat)
    (key : Option (BitVec 256 × Nat)) (h : Keeps s₀ s) :
    Keeps s₀ (State.copyOut s c host a n key).1 := by
  unfold State.copyOut
  repeat' first
    | with_reducible assumption | intro _ | extract_lets | with_reducible apply State.touchRead_keeps
    | with_reducible apply State.freeBytes_keeps | with_reducible apply State.dropLost_keeps
    | with_reducible apply State.hostWrite_keeps | with_reducible apply State.useFree_keeps
    | with_reducible apply State.copyOutHealthy_keeps | with_reducible apply Keeps.ite
    | with_reducible apply Keeps.fstIte | with_reducible apply Keeps.foldPair | with_reducible apply Keeps.fold
    | simp only [Keeps.mk_eq] | split | simp +zetaDelta only [Keeps.mk_eq]

theorem State.copyOutSealed_keeps {s₀ s : State} (q : Nat) (c : CmdRef) (host : Nat) (a : Nat) (n : Nat) (i : Nat)
    (h : Keeps s₀ s) :
    Keeps s₀ (State.copyOutSealed s q c host a n i) := by
  unfold State.copyOutSealed
  repeat' first
    | with_reducible assumption | intro _ | extract_lets | with_reducible apply State.protectRefuse_keeps
    | with_reducible apply State.complete_keeps | with_reducible apply State.copyOut_keeps
    | with_reducible apply State.setKeySlot_keeps | with_reducible apply Keeps.ite
    | with_reducible apply Keeps.fstIte | with_reducible apply Keeps.foldPair | with_reducible apply Keeps.fold
    | simp only [Keeps.mk_eq] | split | simp +zetaDelta only [Keeps.mk_eq]

theorem State.logRegion_keeps {s₀ s : State} (q : Nat) (code : Nat) (rkey : Word) (h : Keeps s₀ s) :
    Keeps s₀ (State.logRegion s q code rkey) := by
  unfold State.logRegion
  repeat' first
    | with_reducible assumption | intro _ | extract_lets | with_reducible apply State.logAt_keeps
    | with_reducible apply Keeps.ite | with_reducible apply Keeps.fstIte | with_reducible apply Keeps.foldPair
    | with_reducible apply Keeps.fold | simp only [Keeps.mk_eq] | split | simp +zetaDelta only [Keeps.mk_eq]

theorem State.skipResponses_keeps {s₀ s : State} (i : Nat) (h : Keeps s₀ s) :
    Keeps s₀ (State.skipResponses s i) := by
  unfold State.skipResponses
  repeat' first
    | with_reducible assumption | intro _ | extract_lets | with_reducible apply eachDo_keeps
    | with_reducible apply State.pumpQp_keeps | with_reducible apply State.modQp_keeps
    | with_reducible apply Keeps.ite | with_reducible apply Keeps.fstIte | with_reducible apply Keeps.foldPair
    | with_reducible apply Keeps.fold | simp only [Keeps.mk_eq] | split | simp +zetaDelta only [Keeps.mk_eq]

theorem State.stopPart_keeps {s₀ s : State} (q : Nat) (cause : SwitchCause) (h : Keeps s₀ s) :
    Keeps s₀ (State.stopPart s q cause) := by
  unfold State.stopPart
  repeat' first
    | with_reducible assumption | intro _ | extract_lets | with_reducible apply State.beginSwitch_keeps
    | with_reducible apply Keeps.ite | with_reducible apply Keeps.fstIte | with_reducible apply Keeps.foldPair
    | with_reducible apply Keeps.fold | simp only [Keeps.mk_eq] | split | simp +zetaDelta only [Keeps.mk_eq]

theorem State.resetPf_keeps {s₀ s : State} (h : Keeps s₀ s) : Keeps s₀ (State.resetPf s) := by
  unfold State.resetPf
  repeat' first
    | with_reducible assumption | intro _ | extract_lets | with_reducible apply eachDo_keeps
    | with_reducible apply State.stopPart_keeps | with_reducible apply State.logPcie_keeps
    | with_reducible apply State.modFn_keeps | with_reducible apply Keeps.ite
    | with_reducible apply Keeps.fstIte | with_reducible apply Keeps.foldPair | with_reducible apply Keeps.fold
    | simp only [Keeps.mk_eq] | split | simp +zetaDelta only [Keeps.mk_eq]

theorem State.nicFrames_keeps {s₀ s : State} (l tc : Nat) (ref : Nat × Nat × BitVec 16) (fs : List (List Byte))
    (h : Keeps s₀ s) :
    Keeps s₀ (s.nicFrames l tc ref fs) := by
  induction fs generalizing s with
  | nil =>
    exact h
  | cons e l ih =>
    unfold State.nicFrames
    repeat' first
      | with_reducible assumption | intro _ | extract_lets | with_reducible apply ih | with_reducible apply ih
      | with_reducible apply State.enqueue_keeps | with_reducible apply Keeps.ite
      | with_reducible apply Keeps.fstIte | with_reducible apply Keeps.foldPair
      | with_reducible apply Keeps.fold | simp only [Keeps.mk_eq] | split | simp +zetaDelta only [Keeps.mk_eq]

theorem State.nicDrop_keeps {s₀ s : State} (l : Nat) (h : Keeps s₀ s) : Keeps s₀ (State.nicDrop s l) := by
  unfold State.nicDrop
  repeat' first
    | with_reducible assumption | intro _ | extract_lets | with_reducible apply State.modLink_keeps
    | with_reducible apply Keeps.ite | with_reducible apply Keeps.fstIte | with_reducible apply Keeps.foldPair
    | with_reducible apply Keeps.fold | simp only [Keeps.mk_eq] | split | simp +zetaDelta only [Keeps.mk_eq]

theorem State.nicDeliver_keeps {s₀ s : State} (f : Nat) (l : Nat) (vid : Nat) (bytes : List Byte) (h : Keeps s₀ s) :
    Keeps s₀ (State.nicDeliver s f l vid bytes) := by
  unfold State.nicDeliver
  repeat' first
    | with_reducible assumption | intro _ | extract_lets | with_reducible apply State.nicDrop_keeps
    | with_reducible apply State.modQueue_keeps | with_reducible apply State.hostWrite_keeps
    | with_reducible apply State.completeKind_keeps | with_reducible apply Keeps.ite
    | with_reducible apply Keeps.fstIte | with_reducible apply Keeps.foldPair | with_reducible apply Keeps.fold
    | simp only [Keeps.mk_eq] | split | simp +zetaDelta only [Keeps.mk_eq]

theorem State.nicReceive_keeps {s₀ s : State} (l : Nat) (bytes : List Byte) (h : Keeps s₀ s) :
    Keeps s₀ (State.nicReceive s l bytes) := by
  unfold State.nicReceive
  repeat' first
    | with_reducible assumption | intro _ | extract_lets | with_reducible apply State.nicDrop_keeps
    | with_reducible apply eachDo_keeps | with_reducible apply State.nicDeliver_keeps
    | with_reducible apply Keeps.ite | with_reducible apply Keeps.fstIte | with_reducible apply Keeps.foldPair
    | with_reducible apply Keeps.fold | simp only [Keeps.mk_eq] | split | simp +zetaDelta only [Keeps.mk_eq]

theorem State.onLink_keeps {s₀ s : State} (l : Nat) (ok : Link → Bool) (g : State → State) (h : Keeps s₀ s)
    (hg : ∀ t, Keeps s₀ t → Keeps s₀ (g t)) :
    Keeps s₀ (State.onLink s l ok g) := by
  unfold State.onLink
  repeat' first
    | with_reducible assumption | intro _ | extract_lets | with_reducible apply hg
    | with_reducible apply State.refreshUplink_keeps | with_reducible apply Keeps.ite
    | with_reducible apply Keeps.fstIte | with_reducible apply Keeps.foldPair | with_reducible apply Keeps.fold
    | simp only [Keeps.mk_eq] | split | simp +zetaDelta only [Keeps.mk_eq]

theorem State.linkTo_keeps {s₀ s : State} (l : Nat) (st : LinkSt) (h : Keeps s₀ s) :
    Keeps s₀ (State.linkTo s l st) := by
  unfold State.linkTo
  repeat' first
    | with_reducible assumption | intro _ | extract_lets | with_reducible apply State.modLink_keeps
    | with_reducible apply Keeps.ite | with_reducible apply Keeps.fstIte | with_reducible apply Keeps.foldPair
    | with_reducible apply Keeps.fold | simp only [Keeps.mk_eq] | split | simp +zetaDelta only [Keeps.mk_eq]

theorem State.enableLink_keeps {s₀ s : State} (l : Nat) (h : Keeps s₀ s) :
    Keeps s₀ (State.enableLink s l) := by
  unfold State.enableLink
  repeat' first
    | with_reducible assumption | intro _ | extract_lets | with_reducible apply State.modLink_keeps
    | with_reducible apply Keeps.ite | with_reducible apply Keeps.fstIte | with_reducible apply Keeps.foldPair
    | with_reducible apply Keeps.fold | simp only [Keeps.mk_eq] | split | simp +zetaDelta only [Keeps.mk_eq]

theorem State.pcsDown_keeps {s₀ s : State} (l : Nat) (reason : Nat) (h : Keeps s₀ s) :
    Keeps s₀ (State.pcsDown s l reason) := by
  unfold State.pcsDown
  repeat' first
    | with_reducible assumption | intro _ | extract_lets | with_reducible apply State.attemptFailed_keeps
    | with_reducible apply State.linkDown_keeps | with_reducible apply Keeps.ite
    | with_reducible apply Keeps.fstIte | with_reducible apply Keeps.foldPair | with_reducible apply Keeps.fold
    | simp only [Keeps.mk_eq] | split | simp +zetaDelta only [Keeps.mk_eq]

theorem State.beaconBad_keeps {s₀ s : State} (l : Nat) (b : Beacon) (h : Keeps s₀ s) :
    Keeps s₀ (State.beaconBad s l b) := by
  unfold State.beaconBad
  repeat' first
    | with_reducible assumption | intro _ | extract_lets | with_reducible apply State.linkFence_keeps
    | with_reducible apply State.modLink_keeps | with_reducible apply Keeps.ite
    | with_reducible apply Keeps.fstIte | with_reducible apply Keeps.foldPair | with_reducible apply Keeps.fold
    | simp only [Keeps.mk_eq] | split | simp +zetaDelta only [Keeps.mk_eq]

theorem State.pfcAsk_keeps {s₀ s : State} (l : Nat) (p : Nat) (h : Keeps s₀ s) :
    Keeps s₀ (State.pfcAsk s l p) := by
  unfold State.pfcAsk
  repeat' first
    | with_reducible assumption | intro _ | extract_lets | with_reducible apply State.emitNow_keeps
    | with_reducible apply State.modLink_keeps | with_reducible apply Keeps.ite
    | with_reducible apply Keeps.fstIte | with_reducible apply Keeps.foldPair | with_reducible apply Keeps.fold
    | simp only [Keeps.mk_eq] | split | simp +zetaDelta only [Keeps.mk_eq]

theorem State.bufferNic_keeps {s₀ s : State} (l : Nat) (p : Nat) (len : Nat) (h : Keeps s₀ s) :
    Keeps s₀ (State.bufferNic s l p len) := by
  unfold State.bufferNic
  repeat' first
    | with_reducible assumption | intro _ | extract_lets | with_reducible apply State.modLink_keeps
    | with_reducible apply State.pfcAsk_keeps | with_reducible apply Keeps.ite
    | with_reducible apply Keeps.fstIte | with_reducible apply Keeps.foldPair | with_reducible apply Keeps.fold
    | simp only [Keeps.mk_eq] | split | simp +zetaDelta only [Keeps.mk_eq]

theorem State.takeNic_keeps {s₀ s : State} (l : Nat) (p : Nat) (h : Keeps s₀ s) :
    Keeps s₀ (State.takeNic s l p) := by
  unfold State.takeNic
  repeat' first
    | with_reducible assumption | intro _ | extract_lets | with_reducible apply State.modLink_keeps
    | with_reducible apply State.useFree_keeps | with_reducible apply State.emitNow_keeps
    | with_reducible apply Keeps.ite | with_reducible apply Keeps.fstIte | with_reducible apply Keeps.foldPair
    | with_reducible apply Keeps.fold | simp only [Keeps.mk_eq] | split | simp +zetaDelta only [Keeps.mk_eq]

theorem State.forwardOn_keeps {s₀ s : State} (link : Nat) (laneB : Bool) (plane : Bool) (f : Frame)
    (h : Keeps s₀ s) :
    Keeps s₀ (State.forwardOn s link laneB plane f) := by
  unfold State.forwardOn
  repeat' first
    | with_reducible assumption | intro _ | extract_lets | with_reducible apply State.countRx_keeps
    | with_reducible apply State.sendFrame_keeps | with_reducible apply State.msAccept_keeps
    | with_reducible apply State.drainLink_keeps | with_reducible apply State.unhold_keeps
    | with_reducible apply Keeps.ite | with_reducible apply Keeps.fstIte | with_reducible apply Keeps.foldPair
    | with_reducible apply Keeps.fold | simp only [Keeps.mk_eq] | split | simp +zetaDelta only [Keeps.mk_eq]

theorem State.configureLink_keeps {s₀ s : State} (m : Manifest) (l : Nat) (h : Keeps s₀ s) :
    Keeps s₀ (State.configureLink s m l) := by
  unfold State.configureLink
  repeat' first
    | with_reducible assumption | intro _ | extract_lets | with_reducible apply State.setLink_keeps
    | with_reducible apply State.linkDisable_keeps | with_reducible apply State.linkDown_keeps
    | with_reducible apply State.enableLink_keeps | with_reducible apply Keeps.ite
    | with_reducible apply Keeps.fstIte | with_reducible apply Keeps.foldPair | with_reducible apply Keeps.fold
    | simp only [Keeps.mk_eq] | split | simp +zetaDelta only [Keeps.mk_eq]

theorem State.lapse_keeps {s₀ s : State} (m : Manifest) (q : Nat) (h : Keeps s₀ s) :
    Keeps s₀ (State.lapse s m q) := by
  unfold State.lapse
  repeat' first
    | with_reducible assumption | intro _ | extract_lets | with_reducible apply State.modPartMem_keeps
    | with_reducible apply State.placeResult_keeps | with_reducible apply eachDo_keeps
    | with_reducible apply State.logPlace_keeps | with_reducible apply Keeps.ite
    | with_reducible apply Keeps.fstIte | with_reducible apply Keeps.foldPair | with_reducible apply Keeps.fold
    | simp only [Keeps.mk_eq] | split | simp +zetaDelta only [Keeps.mk_eq]

theorem State.reassignCus_keeps {s₀ s : State} (q : Nat) (was : Bool) (will : Bool) (h : Keeps s₀ s) :
    Keeps s₀ (State.reassignCus s q was will) := by
  unfold State.reassignCus
  repeat' first
    | with_reducible assumption | intro _ | extract_lets | with_reducible apply State.modCus_keeps
    | with_reducible apply State.freshCisKeys_keeps | with_reducible apply Keeps.ite
    | with_reducible apply Keeps.fstIte | with_reducible apply Keeps.foldPair | with_reducible apply Keeps.fold
    | simp only [Keeps.mk_eq] | split | simp +zetaDelta only [Keeps.mk_eq]

theorem State.reassignPart_keeps {s₀ s : State} (m : Manifest) (q : Nat) (h : Keeps s₀ s) :
    Keeps s₀ (State.reassignPart s m q) := by
  unfold State.reassignPart
  repeat' first
    | with_reducible assumption | intro _ | extract_lets | with_reducible apply State.modPart_keeps
    | with_reducible apply State.reassignCus_keeps | with_reducible apply State.logCus_keeps
    | with_reducible apply State.logSerai_keeps | with_reducible apply Keeps.ite
    | with_reducible apply Keeps.fstIte | with_reducible apply Keeps.foldPair | with_reducible apply Keeps.fold
    | simp only [Keeps.mk_eq] | split | simp +zetaDelta only [Keeps.mk_eq]

theorem State.bindFns_keeps {s₀ s : State} (h : Keeps s₀ s) : Keeps s₀ (State.bindFns s) := by
  unfold State.bindFns
  repeat' first
    | with_reducible assumption | intro _ | extract_lets | with_reducible apply eachDo_keeps
    | with_reducible apply State.modFn_keeps | with_reducible apply Keeps.ite
    | with_reducible apply Keeps.fstIte | with_reducible apply Keeps.foldPair | with_reducible apply Keeps.fold
    | simp only [Keeps.mk_eq] | split | simp +zetaDelta only [Keeps.mk_eq]

theorem State.clearDie_keeps {s₀ s : State} (n : Nat) (h : Keeps s₀ s) :
    Keeps s₀ (State.clearDie s n) := by
  unfold State.clearDie
  repeat' first
    | with_reducible assumption | intro _ | extract_lets | with_reducible apply State.modDie_keeps
    | with_reducible apply Keeps.ite | with_reducible apply Keeps.fstIte | with_reducible apply Keeps.foldPair
    | with_reducible apply Keeps.fold | simp only [Keeps.mk_eq] | split | simp +zetaDelta only [Keeps.mk_eq]

theorem State.dieAnew_keeps {s₀ s : State} (n : Nat) (h : Keeps s₀ s) : Keeps s₀ (State.dieAnew s n) := by
  unfold State.dieAnew
  repeat' first
    | with_reducible assumption | intro _ | extract_lets | with_reducible apply Keeps.ite
    | with_reducible apply Keeps.fstIte | with_reducible apply Keeps.foldPair | with_reducible apply Keeps.fold
    | simp only [Keeps.mk_eq] | split | simp +zetaDelta only [Keeps.mk_eq]

theorem State.endReassign_keeps {s₀ s : State} (m : Manifest) (h : Keeps s₀ s) :
    Keeps s₀ (s.endReassign m) := by
  unfold State.endReassign
  dsimp only
  have h1 := h.setMem (s.mem.reassign m.hgrps m.cgrps (s.rangesWere m) (s.rangesWill m))
    (Memory.reassign_wf _ _ _ _ _)
  generalize { s with mem := s.mem.reassign m.hgrps m.cgrps (s.rangesWere m) (s.rangesWill m) } = s1 at h1 ⊢
  have h2 := eachDo_keeps (List.range 16) (fun q t => t.lapse m q)
    (fun q t ht => State.lapse_keeps m q ht) h1
  generalize eachDo (List.range 16) (fun q t => t.lapse m q) s1 = s2 at h2 ⊢
  have h3 := State.bindFns_keeps (eachDo_keeps s2.mod.taking (fun q t => t.reassignPart m q)
    (fun q t ht => State.reassignPart_keeps m q ht) h2)
  generalize (eachDo s2.mod.taking (fun q t => t.reassignPart m q) s2).bindFns = s3 at h3 ⊢
  refine State.applyLimit_keeps _ (State.refreshScrubbing_keeps ?_)
  have h4 := eachDo_keeps ((List.range 12).filter (fun n => s.ownersOf n != s3.ownersOf n))
    (fun n t => t.clearDie n) (fun n t ht => State.clearDie_keeps n ht) h3
  generalize eachDo ((List.range 12).filter (fun n => s.ownersOf n != s3.ownersOf n))
    (fun n t => t.clearDie n) s3 = s4 at h4 ⊢
  have h5 := eachDo_keeps ((List.range 12).filter (fun n => s.ownersOf n != s3.ownersOf n)
      ++ (List.range 12).filter (fun n => s.dieSealed n != s3.dieSealed n))
    (fun n t => t.dieAnew n) (fun n t ht => State.dieAnew_keeps n ht) h4
  generalize eachDo ((List.range 12).filter (fun n => s.ownersOf n != s3.ownersOf n)
      ++ (List.range 12).filter (fun n => s.dieSealed n != s3.dieSealed n))
    (fun n t => t.dieAnew n) s4 = s5 at h5 ⊢
  simpa only [Keeps.mk_eq] using h5

theorem State.jobAtTact_keeps {s₀ s : State} (m : Manifest) (old : BitVec 256 × Word) (q : Nat) (h : Keeps s₀ s) :
    Keeps s₀ (State.jobAtTact s m old q) := by
  unfold State.jobAtTact
  repeat' first
    | with_reducible assumption | intro _ | extract_lets | with_reducible apply State.modPart_keeps
    | with_reducible apply State.jobTakes_keeps | with_reducible apply Keeps.ite
    | with_reducible apply Keeps.fstIte | with_reducible apply Keeps.foldPair | with_reducible apply Keeps.fold
    | simp only [Keeps.mk_eq] | split | simp +zetaDelta only [Keeps.mk_eq]

theorem State.takePart_keeps {s₀ s : State} (q : Nat) (h : Keeps s₀ s) :
    Keeps s₀ (State.takePart s q) := by
  unfold State.takePart
  repeat' first
    | with_reducible assumption | intro _ | extract_lets | with_reducible apply State.modPart_keeps
    | with_reducible apply State.beginSwitch_keeps | with_reducible apply State.msHold_keeps
    | with_reducible apply State.setPartSt_keeps | with_reducible apply Keeps.ite
    | with_reducible apply Keeps.fstIte | with_reducible apply Keeps.foldPair | with_reducible apply Keeps.fold
    | simp only [Keeps.mk_eq] | split | simp +zetaDelta only [Keeps.mk_eq]

theorem State.affectedAtTact_keeps {s₀ s : State} (q : Nat) (h : Keeps s₀ s) :
    Keeps s₀ (State.affectedAtTact s q) := by
  unfold State.affectedAtTact
  repeat' first
    | with_reducible assumption | intro _ | extract_lets | with_reducible apply State.takePart_keeps
    | with_reducible apply Keeps.ite | with_reducible apply Keeps.fstIte | with_reducible apply Keeps.foldPair
    | with_reducible apply Keeps.fold | simp only [Keeps.mk_eq] | split | simp +zetaDelta only [Keeps.mk_eq]

theorem State.adopt_keeps {s₀ s : State} (m : Manifest) (h : Keeps s₀ s) :
    Keeps s₀ (State.adopt s m) := by
  unfold State.adopt
  repeat' first
    | with_reducible assumption | intro _ | extract_lets | with_reducible apply State.modFn_keeps
    | with_reducible apply eachDo_keeps | with_reducible apply State.configureLink_keeps
    | with_reducible apply State.modTime_keeps | with_reducible apply State.refreshUplink_keeps
    | with_reducible apply State.rootReference_keeps | with_reducible apply Keeps.ite
    | with_reducible apply Keeps.fstIte | with_reducible apply Keeps.foldPair | with_reducible apply Keeps.fold
    | simp only [Keeps.mk_eq] | split | simp +zetaDelta only [Keeps.mk_eq]

theorem State.activate_keeps {s₀ s : State} (m : Manifest) (h : Keeps s₀ s) :
    Keeps s₀ (State.activate s m) := by
  unfold State.activate
  repeat' first
    | with_reducible assumption | intro _ | extract_lets | with_reducible apply State.logSerai_keeps
    | with_reducible apply State.adopt_keeps | with_reducible apply State.setMod_keeps
    | with_reducible apply eachDo_keeps | with_reducible apply State.jobAtTact_keeps
    | with_reducible apply State.refreshScrubbing_keeps | with_reducible apply State.affectedAtTact_keeps
    | with_reducible apply State.endReassign_keeps | with_reducible apply State.applyLimit_keeps
    | with_reducible apply Keeps.ite | with_reducible apply Keeps.fstIte | with_reducible apply Keeps.foldPair
    | with_reducible apply Keeps.fold | simp only [Keeps.mk_eq] | split | simp +zetaDelta only [Keeps.mk_eq]

theorem State.stage_keeps {s₀ s : State} (m : Manifest) (c : CmdRef) (h : Keeps s₀ s) :
    Keeps s₀ (State.stage s m c) := by
  unfold State.stage
  repeat' first
    | with_reducible assumption | intro _ | extract_lets | with_reducible apply State.complete_keeps
    | with_reducible apply State.logSerai_keeps | with_reducible apply State.activate_keeps
    | with_reducible apply Keeps.ite | with_reducible apply Keeps.fstIte | with_reducible apply Keeps.foldPair
    | with_reducible apply Keeps.fold | simp only [Keeps.mk_eq] | split | simp +zetaDelta only [Keeps.mk_eq]

theorem State.refuseManifest_keeps {s₀ s : State} (status : Nat) (at_ : Option Nat) (c : CmdRef) (h : Keeps s₀ s) :
    Keeps s₀ (State.refuseManifest s status at_ c) := by
  unfold State.refuseManifest
  repeat' first
    | with_reducible assumption | intro _ | extract_lets | with_reducible apply State.logCus_keeps
    | with_reducible apply State.logSerai_keeps | with_reducible apply State.complete_keeps
    | with_reducible apply State.useFree_keeps | with_reducible apply Keeps.ite
    | with_reducible apply Keeps.fstIte | with_reducible apply Keeps.foldPair | with_reducible apply Keeps.fold
    | simp only [Keeps.mk_eq] | split | simp +zetaDelta only [Keeps.mk_eq]

theorem State.cancelStaged_keeps {s₀ s : State} (h : Keeps s₀ s) : Keeps s₀ (State.cancelStaged s) := by
  unfold State.cancelStaged
  repeat' first
    | with_reducible assumption | intro _ | extract_lets | with_reducible apply State.logSerai_keeps
    | with_reducible apply Keeps.ite | with_reducible apply Keeps.fstIte | with_reducible apply Keeps.foldPair
    | with_reducible apply Keeps.fold | simp only [Keeps.mk_eq] | split | simp +zetaDelta only [Keeps.mk_eq]

theorem State.manCancel_keeps {s₀ s : State} (h : Keeps s₀ s) : Keeps s₀ (State.manCancel s) := by
  unfold State.manCancel
  repeat' first
    | with_reducible assumption | intro _ | extract_lets | with_reducible apply State.cancelStaged_keeps
    | with_reducible apply Keeps.ite | with_reducible apply Keeps.fstIte | with_reducible apply Keeps.foldPair
    | with_reducible apply Keeps.fold | simp only [Keeps.mk_eq] | split | simp +zetaDelta only [Keeps.mk_eq]

theorem State.boot_keeps {s₀ s : State} (recov : Bool) (h : Keeps s₀ s) :
    Keeps s₀ (State.boot s recov) := by
  unfold State.boot
  repeat' first
    | with_reducible assumption | intro _ | extract_lets | with_reducible apply State.applyLimit_keeps
    | with_reducible apply State.startBoot_keeps | with_reducible apply Keeps.ite
    | with_reducible apply Keeps.fstIte | with_reducible apply Keeps.foldPair | with_reducible apply Keeps.fold
    | simp only [Keeps.mk_eq] | split | simp +zetaDelta only [Keeps.mk_eq]

theorem State.abandonStop_keeps {s₀ s : State} (q : Nat) (h : Keeps s₀ s) :
    Keeps s₀ (State.abandonStop s q) := by
  unfold State.abandonStop
  repeat' first
    | with_reducible assumption | intro _ | extract_lets | with_reducible apply State.complete_keeps
    | with_reducible apply State.modPart_keeps | with_reducible apply Keeps.ite
    | with_reducible apply Keeps.fstIte | with_reducible apply Keeps.foldPair | with_reducible apply Keeps.fold
    | simp only [Keeps.mk_eq] | split | simp +zetaDelta only [Keeps.mk_eq]

theorem State.abandonScrub_keeps {s₀ s : State} (q : Nat) (h : Keeps s₀ s) :
    Keeps s₀ (State.abandonScrub s q) := by
  unfold State.abandonScrub
  repeat' first
    | with_reducible assumption | intro _ | extract_lets | with_reducible apply State.complete_keeps
    | with_reducible apply State.modCus_keeps | with_reducible apply Keeps.ite
    | with_reducible apply Keeps.fstIte | with_reducible apply Keeps.foldPair | with_reducible apply Keeps.fold
    | simp only [Keeps.mk_eq] | split | simp +zetaDelta only [Keeps.mk_eq]

theorem State.abandonRevoke_keeps {s₀ s : State} (i : Nat) (h : Keeps s₀ s) :
    Keeps s₀ (State.abandonRevoke s i) := by
  unfold State.abandonRevoke
  repeat' first
    | with_reducible assumption | intro _ | extract_lets | with_reducible apply State.complete_keeps
    | with_reducible apply State.modRegion_keeps | with_reducible apply Keeps.ite
    | with_reducible apply Keeps.fstIte | with_reducible apply Keeps.foldPair | with_reducible apply Keeps.fold
    | simp only [Keeps.mk_eq] | split | simp +zetaDelta only [Keeps.mk_eq]

theorem State.abandonCommands_keeps {s₀ s : State} (h : Keeps s₀ s) :
    Keeps s₀ (State.abandonCommands s) := by
  unfold State.abandonCommands
  repeat' first
    | with_reducible assumption | intro _ | extract_lets | with_reducible apply eachDo_keeps
    | with_reducible apply State.abandonScrub_keeps | with_reducible apply State.abandonStop_keeps
    | with_reducible apply State.abandonRevoke_keeps | with_reducible apply State.completeKind_keeps
    | with_reducible apply State.refreshScrubbing_keeps | with_reducible apply Keeps.ite
    | with_reducible apply Keeps.fstIte | with_reducible apply Keeps.foldPair | with_reducible apply Keeps.fold
    | simp only [Keeps.mk_eq] | split | simp +zetaDelta only [Keeps.mk_eq]

theorem State.enterQuiesce_keeps {s₀ s : State} (after : AfterQuiesce) (h : Keeps s₀ s) :
    Keeps s₀ (State.enterQuiesce s after) := by
  unfold State.enterQuiesce
  repeat' first
    | with_reducible assumption | intro _ | extract_lets | with_reducible apply State.abandonCommands_keeps
    | with_reducible apply State.cancelStaged_keeps | with_reducible apply State.setMod_keeps
    | with_reducible apply State.lifeBegin_keeps | with_reducible apply eachDo_keeps
    | with_reducible apply State.stopPart_keeps | with_reducible apply Keeps.ite
    | with_reducible apply Keeps.fstIte | with_reducible apply Keeps.foldPair | with_reducible apply Keeps.fold
    | simp only [Keeps.mk_eq] | split | simp +zetaDelta only [Keeps.mk_eq]

theorem State.shutdownOp_keeps {s₀ s : State} (h : Keeps s₀ s) : Keeps s₀ (State.shutdownOp s) := by
  unfold State.shutdownOp
  repeat' first
    | with_reducible assumption | intro _ | extract_lets | with_reducible apply State.enterQuiesce_keeps
    | with_reducible apply Keeps.ite | with_reducible apply Keeps.fstIte | with_reducible apply Keeps.foldPair
    | with_reducible apply Keeps.fold | simp only [Keeps.mk_eq] | split | simp +zetaDelta only [Keeps.mk_eq]

theorem State.rebootOp_keeps {s₀ s : State} (h : Keeps s₀ s) : Keeps s₀ (State.rebootOp s) := by
  unfold State.rebootOp
  repeat' first
    | with_reducible assumption | intro _ | extract_lets | with_reducible apply State.enterQuiesce_keeps
    | with_reducible apply State.boot_keeps | with_reducible apply Keeps.ite | with_reducible apply Keeps.fstIte
    | with_reducible apply Keeps.foldPair | with_reducible apply Keeps.fold | simp only [Keeps.mk_eq] | split
    | simp +zetaDelta only [Keeps.mk_eq]

theorem State.fwuEnd_keeps {s₀ s : State} (status : Nat) (h : Keeps s₀ s) :
    Keeps s₀ (State.fwuEnd s status) := by
  unfold State.fwuEnd
  repeat' first
    | with_reducible assumption | intro _ | extract_lets | with_reducible apply State.logSerai_keeps
    | with_reducible apply Keeps.ite | with_reducible apply Keeps.fstIte | with_reducible apply Keeps.foldPair
    | with_reducible apply Keeps.fold | simp only [Keeps.mk_eq] | split | simp +zetaDelta only [Keeps.mk_eq]

theorem State.goOff_keeps {s₀ s : State} (h : Keeps s₀ s) : Keeps s₀ (State.goOff s) := by
  unfold State.goOff
  repeat' first
    | with_reducible assumption | intro _ | extract_lets | with_reducible apply State.powerCut_keeps
    | with_reducible apply Keeps.ite | with_reducible apply Keeps.fstIte | with_reducible apply Keeps.foldPair
    | with_reducible apply Keeps.fold | simp only [Keeps.mk_eq] | split | simp +zetaDelta only [Keeps.mk_eq]

theorem State.vitalFault_keeps {s₀ s : State} (r : Rail) (h : Keeps s₀ s) :
    Keeps s₀ (State.vitalFault s r) := by
  unfold State.vitalFault
  repeat' first
    | with_reducible assumption | intro _ | extract_lets | with_reducible apply State.powerCut_keeps
    | with_reducible apply Keeps.ite | with_reducible apply Keeps.fstIte | with_reducible apply Keeps.foldPair
    | with_reducible apply Keeps.fold | simp only [Keeps.mk_eq] | split | simp +zetaDelta only [Keeps.mk_eq]

theorem State.memoryRail_keeps {s₀ s : State} (r : Rail) (h : Keeps s₀ s) :
    Keeps s₀ (State.memoryRail s r) := by
  unfold State.memoryRail
  repeat' first
    | with_reducible assumption | intro _ | extract_lets | with_reducible apply State.modDie_keeps
    | with_reducible apply eachDo_keeps | with_reducible apply State.modCis_keeps
    | with_reducible apply Keeps.ite | with_reducible apply Keeps.fstIte | with_reducible apply Keeps.foldPair
    | with_reducible apply Keeps.fold | simp only [Keeps.mk_eq] | split | simp +zetaDelta only [Keeps.mk_eq]

theorem State.otherFault_keeps {s₀ s : State} (r : Rail) (h : Keeps s₀ s) :
    Keeps s₀ (State.otherFault s r) := by
  unfold State.otherFault
  repeat' first
    | with_reducible assumption | intro _ | extract_lets | with_reducible apply State.memoryRail_keeps
    | with_reducible apply State.logPhys_keeps | with_reducible apply State.enterFault_keeps
    | with_reducible apply Keeps.ite | with_reducible apply Keeps.fstIte | with_reducible apply Keeps.foldPair
    | with_reducible apply Keeps.fold | simp only [Keeps.mk_eq] | split | simp +zetaDelta only [Keeps.mk_eq]

theorem State.railFault_keeps {s₀ s : State} (r : Rail) (h : Keeps s₀ s) :
    Keeps s₀ (State.railFault s r) := by
  unfold State.railFault
  repeat' first
    | with_reducible assumption | intro _ | extract_lets | with_reducible apply State.vitalFault_keeps
    | with_reducible apply State.otherFault_keeps | with_reducible apply Keeps.ite
    | with_reducible apply Keeps.fstIte | with_reducible apply Keeps.foldPair | with_reducible apply Keeps.fold
    | simp only [Keeps.mk_eq] | split | simp +zetaDelta only [Keeps.mk_eq]

theorem State.enterRecovery_keeps {s₀ s : State} (status : Nat) (h : Keeps s₀ s) :
    Keeps s₀ (State.enterRecovery s status) := by
  unfold State.enterRecovery
  repeat' first
    | with_reducible assumption | intro _ | extract_lets | with_reducible apply State.logSerai_keeps
    | with_reducible apply State.setMod_keeps | with_reducible apply Keeps.ite
    | with_reducible apply Keeps.fstIte | with_reducible apply Keeps.foldPair | with_reducible apply Keeps.fold
    | simp only [Keeps.mk_eq] | split | simp +zetaDelta only [Keeps.mk_eq]

theorem State.badImage_keeps {s₀ s : State} (code : Nat) (status : Nat) (h : Keeps s₀ s) :
    Keeps s₀ (State.badImage s code status) := by
  unfold State.badImage
  repeat' first
    | with_reducible assumption | intro _ | extract_lets | with_reducible apply State.enterRecovery_keeps
    | with_reducible apply State.logCus_keeps | with_reducible apply Keeps.ite
    | with_reducible apply Keeps.fstIte | with_reducible apply Keeps.foldPair | with_reducible apply Keeps.fold
    | simp only [Keeps.mk_eq] | split | simp +zetaDelta only [Keeps.mk_eq]

theorem State.bootRetired_keeps {s₀ s : State} (h : Keeps s₀ s) : Keeps s₀ (State.bootRetired s) := by
  unfold State.bootRetired
  repeat' first
    | with_reducible assumption | intro _ | extract_lets | with_reducible apply eachDo_keeps
    | with_reducible apply State.modDie_keeps | with_reducible apply Keeps.ite
    | with_reducible apply Keeps.fstIte | with_reducible apply Keeps.foldPair | with_reducible apply Keeps.fold
    | simp only [Keeps.mk_eq] | split | simp +zetaDelta only [Keeps.mk_eq]

theorem State.bootQuarantine_keeps {s₀ s : State} (p : Nat) (h : Keeps s₀ s) :
    Keeps s₀ (State.bootQuarantine s p) := by
  unfold State.bootQuarantine
  repeat' first
    | with_reducible assumption | intro _ | extract_lets | with_reducible apply State.modDie_keeps
    | with_reducible apply State.modCore_keeps | with_reducible apply State.lifeQuarantine_keeps
    | with_reducible apply State.logCore_keeps | with_reducible apply Keeps.ite
    | with_reducible apply Keeps.fstIte | with_reducible apply Keeps.foldPair | with_reducible apply Keeps.fold
    | simp only [Keeps.mk_eq] | split | simp +zetaDelta only [Keeps.mk_eq]

theorem State.bootUnits_keeps {s₀ s : State} (r : BootReport) (h : Keeps s₀ s) :
    Keeps s₀ (State.bootUnits s r) := by
  unfold State.bootUnits
  repeat' first
    | with_reducible assumption | intro _ | extract_lets | with_reducible apply eachDo_keeps
    | with_reducible apply State.bootQuarantine_keeps | with_reducible apply State.bootRetired_keeps
    | with_reducible apply State.modDie_keeps | with_reducible apply State.modCore_keeps
    | with_reducible apply State.modCis_keeps | with_reducible apply State.failStack_keeps
    | with_reducible apply State.failChannel_keeps | with_reducible apply Keeps.ite
    | with_reducible apply Keeps.fstIte | with_reducible apply Keeps.foldPair | with_reducible apply Keeps.fold
    | simp only [Keeps.mk_eq] | split | simp +zetaDelta only [Keeps.mk_eq]

theorem State.bootScrub_keeps {s₀ s : State} (h : Keeps s₀ s) : Keeps s₀ s.bootScrub := by
  unfold State.bootScrub
  exact State.logCus_keeps _ _ _ _ (h.setMem _ (fun _ => rfl))

theorem State.bootLife_keeps {s₀ s : State} (h : Keeps s₀ s) : Keeps s₀ (State.bootLife s) := by
  unfold State.bootLife
  repeat' first
    | with_reducible assumption | intro _ | extract_lets | with_reducible apply State.modLife_keeps
    | with_reducible apply State.logPower_keeps | with_reducible apply Keeps.ite
    | with_reducible apply Keeps.fstIte | with_reducible apply Keeps.foldPair | with_reducible apply Keeps.fold
    | simp only [Keeps.mk_eq] | split | simp +zetaDelta only [Keeps.mk_eq]

theorem State.bootRest_keeps {s₀ s : State} (r : BootReport) (h : Keeps s₀ s) :
    Keeps s₀ (State.bootRest s r) := by
  unfold State.bootRest
  repeat' first
    | with_reducible assumption | intro _ | extract_lets | with_reducible apply State.enterFault_keeps
    | with_reducible apply State.logSerai_keeps | with_reducible apply State.bootLife_keeps
    | with_reducible apply State.bootScrub_keeps | with_reducible apply State.bootUnits_keeps
    | with_reducible apply State.applyLimit_keeps | with_reducible apply State.setMod_keeps
    | with_reducible apply Keeps.ite | with_reducible apply Keeps.fstIte | with_reducible apply Keeps.foldPair
    | with_reducible apply Keeps.fold | simp only [Keeps.mk_eq] | split | simp +zetaDelta only [Keeps.mk_eq]

theorem State.bootEnd_keeps {s₀ s : State} (r : BootReport) (h : Keeps s₀ s) :
    Keeps s₀ (State.bootEnd s r) := by
  unfold State.bootEnd
  repeat' first
    | with_reducible assumption | intro _ | extract_lets | with_reducible apply State.enterRecovery_keeps
    | with_reducible apply State.useFree_keeps | with_reducible apply State.badImage_keeps
    | with_reducible apply State.bootRest_keeps | with_reducible apply Keeps.ite
    | with_reducible apply Keeps.fstIte | with_reducible apply Keeps.foldPair | with_reducible apply Keeps.fold
    | simp only [Keeps.mk_eq] | split | simp +zetaDelta only [Keeps.mk_eq]

theorem State.checkFailed_keeps {s₀ s : State} (p : Nat) (code : Nat) (args : List Word) (h : Keeps s₀ s) :
    Keeps s₀ (State.checkFailed s p code args) := by
  unfold State.checkFailed
  repeat' first
    | with_reducible assumption | intro _ | extract_lets | with_reducible apply State.takeFault_keeps
    | with_reducible apply State.coreFault_keeps | with_reducible apply Keeps.ite
    | with_reducible apply Keeps.fstIte | with_reducible apply Keeps.foldPair | with_reducible apply Keeps.fold
    | simp only [Keeps.mk_eq] | split | simp +zetaDelta only [Keeps.mk_eq]

theorem State.writeLog_keeps {s₀ s : State} (fn : Nat) (off : Nat) (v : Word) (h : Keeps s₀ s) :
    Keeps s₀ (State.writeLog s fn off v) := by
  unfold State.writeLog
  repeat' first
    | with_reducible assumption | intro _ | extract_lets
    | exact h.setLog _ (fun hl => hl)
    | with_reducible apply State.modView_keeps | with_reducible apply Keeps.ite
    | with_reducible apply Keeps.fstIte | with_reducible apply Keeps.foldPair | with_reducible apply Keeps.fold
    | simp only [Keeps.mk_eq] | split | simp +zetaDelta only [Keeps.mk_eq]

theorem State.writeConvoy_keeps {s₀ s : State} (q : Nat) (off : Nat) (v : Word) (h : Keeps s₀ s) :
    Keeps s₀ (State.writeConvoy s q off v) := by
  unfold State.writeConvoy
  repeat' first
    | with_reducible assumption | intro _ | extract_lets | with_reducible apply State.modConvoy_keeps
    | with_reducible apply State.switchDiscard_keeps | with_reducible apply Keeps.ite
    | with_reducible apply Keeps.fstIte | with_reducible apply Keeps.foldPair | with_reducible apply Keeps.fold
    | simp only [Keeps.mk_eq] | split | simp +zetaDelta only [Keeps.mk_eq]

theorem State.writeTime_keeps {s₀ s : State} (off : Nat) (v : Word) (h : Keeps s₀ s) :
    Keeps s₀ (State.writeTime s off v) := by
  unfold State.writeTime
  repeat' first
    | with_reducible assumption | intro _ | extract_lets | with_reducible apply State.modTime_keeps
    | with_reducible apply State.rootReference_keeps | with_reducible apply Keeps.ite
    | with_reducible apply Keeps.fstIte | with_reducible apply Keeps.foldPair | with_reducible apply Keeps.fold
    | simp only [Keeps.mk_eq] | split | simp +zetaDelta only [Keeps.mk_eq]

theorem State.writeLife_keeps {s₀ s : State} (off : Nat) (v : Word) (h : Keeps s₀ s) :
    Keeps s₀ (State.writeLife s off v) := by
  unfold State.writeLife
  repeat' first
    | with_reducible assumption | intro _ | extract_lets | with_reducible apply State.lifeBegin_keeps
    | with_reducible apply State.modLife_keeps | with_reducible apply Keeps.ite
    | with_reducible apply Keeps.fstIte | with_reducible apply Keeps.foldPair | with_reducible apply Keeps.fold
    | simp only [Keeps.mk_eq] | split | simp +zetaDelta only [Keeps.mk_eq]

theorem State.writeFn_keeps {s₀ s : State} (f : Nat) (off : Nat) (v : Word) (h : Keeps s₀ s) :
    Keeps s₀ (State.writeFn s f off v) := by
  unfold State.writeFn
  repeat' first
    | with_reducible assumption | intro _ | extract_lets | with_reducible apply State.modFn_keeps
    | with_reducible apply State.modQueue_keeps | with_reducible apply Keeps.ite
    | with_reducible apply Keeps.fstIte | with_reducible apply Keeps.foldPair | with_reducible apply Keeps.fold
    | simp only [Keeps.mk_eq] | split | simp +zetaDelta only [Keeps.mk_eq]

theorem State.writeDie_keeps {s₀ s : State} (fn : Nat) (n : Nat) (off : Nat) (v : Word) (h : Keeps s₀ s) :
    Keeps s₀ (State.writeDie s fn n off v) := by
  unfold State.writeDie
  repeat' first
    | with_reducible assumption | intro _ | extract_lets | with_reducible apply State.modUpd_keeps
    | with_reducible apply State.modDie_keeps | with_reducible apply Keeps.ite
    | with_reducible apply Keeps.fstIte | with_reducible apply Keeps.foldPair | with_reducible apply Keeps.fold
    | simp only [Keeps.mk_eq] | split | simp +zetaDelta only [Keeps.mk_eq]

theorem State.writeCis_keeps {s₀ s : State} (m : Nat) (off : Nat) (v : Word) (h : Keeps s₀ s) :
    Keeps s₀ (State.writeCis s m off v) := by
  unfold State.writeCis
  repeat' first
    | with_reducible assumption | intro _ | extract_lets | with_reducible apply State.modCis_keeps
    | with_reducible apply Keeps.ite | with_reducible apply Keeps.fstIte | with_reducible apply Keeps.foldPair
    | with_reducible apply Keeps.fold | simp only [Keeps.mk_eq] | split | simp +zetaDelta only [Keeps.mk_eq]

theorem State.writePage_keeps {s₀ s : State} (m : Nat) (q : Nat) (off : Nat) (v : Word) (h : Keeps s₀ s) :
    Keeps s₀ (State.writePage s m q off v) := by
  unfold State.writePage
  repeat' first
    | with_reducible assumption | intro _ | extract_lets | with_reducible apply State.modPage_keeps
    | with_reducible apply Keeps.ite | with_reducible apply Keeps.fstIte | with_reducible apply Keeps.foldPair
    | with_reducible apply Keeps.fold | simp only [Keeps.mk_eq] | split | simp +zetaDelta only [Keeps.mk_eq]

theorem Customs.write_fuse (c : Customs) (off : Nat) (v : Word) : (c.write off v).fuseSvn = c.fuseSvn := by
  unfold Customs.write
  repeat' split
  all_goals rfl

theorem State.writeWord32_keeps {s₀ s : State} (fn : Nat) (b : RegBlock) (off : Nat) (v : Word) (h : Keeps s₀ s) :
    Keeps s₀ (State.writeWord32 s fn b off v) := by
  cases b
  all_goals unfold State.writeWord32
  all_goals dsimp only
  repeat' first
    | with_reducible assumption | intro _ | extract_lets | with_reducible apply State.writeLog_keeps
    | with_reducible apply State.modPart_keeps | with_reducible apply State.modMs_keeps
    | with_reducible apply State.modPartMem_keeps | with_reducible apply State.writeConvoy_keeps
    | with_reducible apply State.writeTime_keeps | with_reducible apply State.writeLife_keeps
    | with_reducible apply State.writeFn_keeps | with_reducible apply State.modCore_keeps
    | with_reducible apply State.writeDie_keeps | with_reducible apply State.drainLink_keeps
    | with_reducible apply State.modLink_keeps | with_reducible apply State.writePage_keeps
    | with_reducible apply State.writeCis_keeps | with_reducible apply Keeps.ite
    | with_reducible apply Keeps.fstIte | with_reducible apply Keeps.foldPair | with_reducible apply Keeps.fold
    | simp only [Keeps.mk_eq] | (rw [Keeps.mk_eq s rfl rfl (Customs.write_fuse _ _ _) rfl rfl rfl rfl rfl])
    | split | simp +zetaDelta only [Keeps.mk_eq]

theorem State.barWrite_keeps {s₀ s : State} (fn : Nat) (off : Nat) (v : Word) (h : Keeps s₀ s) :
    Keeps s₀ (State.barWrite s fn off v) := by
  unfold State.barWrite
  repeat' first
    | with_reducible assumption | intro _ | extract_lets | with_reducible apply State.onBar_keeps
    | with_reducible apply State.writeWord32_keeps | with_reducible apply Keeps.ite
    | with_reducible apply Keeps.fstIte | with_reducible apply Keeps.foldPair | with_reducible apply Keeps.fold
    | simp only [Keeps.mk_eq] | split | simp +zetaDelta only [Keeps.mk_eq]

theorem State.clearCoreReg_keeps {s₀ s t : State} {v : Word} (p off : Nat) (e : s.clearCoreReg p off = some (v, t))
    (h : Keeps s₀ s) : Keeps s₀ t := by
  unfold State.clearCoreReg at e
  dsimp only at e
  repeat' first
    | (cases e; done) | (injection e with e; injection e with _ e; subst e) | split at e
  repeat' first
    | with_reducible assumption | with_reducible apply State.setCore_keeps | simp only [Keeps.mk_eq]

theorem State.clearDieReg_keeps {s₀ s t : State} {v : Word} (n off : Nat) (e : s.clearDieReg n off = some (v, t))
    (h : Keeps s₀ s) : Keeps s₀ t := by
  unfold State.clearDieReg at e
  dsimp only at e
  repeat' first
    | (cases e; done) | (injection e with e; injection e with _ e; subst e) | split at e
  repeat' first
    | with_reducible assumption | with_reducible apply State.setDie_keeps
    | with_reducible apply State.modHouse_keeps | simp only [Keeps.mk_eq]

theorem State.clearCisReg_keeps {s₀ s t : State} {v : Word} (m off : Nat) (e : s.clearCisReg m off = some (v, t))
    (h : Keeps s₀ s) : Keeps s₀ t := by
  unfold State.clearCisReg at e
  dsimp only at e
  repeat' first
    | (cases e; done) | (injection e with e; injection e with _ e; subst e) | split at e
  repeat' first
    | with_reducible assumption | with_reducible apply State.modCis_keeps | simp only [Keeps.mk_eq]

theorem State.clearCwy_keeps {s₀ s t : State} {v : Word} (off : Nat) (e : s.clearCwy off = some (v, t))
    (h : Keeps s₀ s) : Keeps s₀ t := by
  unfold State.clearCwy at e
  dsimp only at e
  repeat' first
    | (cases e; done) | (injection e with e; injection e with _ e; subst e) | split at e
  repeat' first
    | with_reducible assumption | simp only [Keeps.mk_eq]

theorem State.clearConvoyReg_keeps {s₀ s t : State} {v : Word} (q off : Nat)
    (e : s.clearConvoyReg q off = some (v, t))
    (h : Keeps s₀ s) : Keeps s₀ t := by
  unfold State.clearConvoyReg at e
  dsimp only at e
  repeat' first
    | (cases e; done) | (injection e with e; injection e with _ e; subst e) | split at e
  repeat' first
    | with_reducible assumption | with_reducible apply State.modConvoy_keeps | simp only [Keeps.mk_eq]

theorem State.clearPowerReg_keeps {s₀ s t : State} {v : Word} (off : Nat) (e : s.clearPowerReg off = some (v, t))
    (h : Keeps s₀ s) : Keeps s₀ t := by
  unfold State.clearPowerReg at e
  dsimp only at e
  repeat' first
    | (cases e; done) | (injection e with e; injection e with _ e; subst e) | split at e
  repeat' first
    | with_reducible assumption | simp only [Keeps.mk_eq]

theorem State.readClear_keeps {s₀ s t : State} {v : Word} (b : RegBlock) (off : Nat)
    (e : s.readClear b off = some (v, t)) (h : Keeps s₀ s) : Keeps s₀ t := by
  cases b <;> unfold State.readClear at e <;> dsimp only at e
  all_goals first
    | exact State.clearCoreReg_keeps _ _ e h | exact State.clearDieReg_keeps _ _ e h
    | exact State.clearCisReg_keeps _ _ e h | exact State.clearCwy_keeps _ e h
    | exact State.clearConvoyReg_keeps _ _ e h | exact State.clearPowerReg_keeps _ e h | (cases e; done)
    | (split at e
       · injection e with e
         injection e with _ e
         subst e
         simpa only [Keeps.mk_eq] using h
       · cases e)
    | (split at e
       · injection e with e
         injection e with _ e
         subst e
         first
           | exact State.modPart_keeps _ _ h | exact State.modMs_keeps _ _ h | exact State.modPage_keeps _ _ _ h
           | exact State.modFn_keeps _ _ h
       · cases e)

theorem State.afterRead_keeps {s₀ s : State} (fn : Nat) (b : RegBlock) (off : Nat) (h : Keeps s₀ s) : Keeps s₀
    (State.afterRead s fn b off) := by
  unfold State.afterRead
  repeat' first
    | with_reducible assumption | intro _ | extract_lets | with_reducible apply State.windowEnd_keeps
    | with_reducible apply State.useFree_keeps | with_reducible apply Keeps.ite
    | with_reducible apply Keeps.fstIte | with_reducible apply Keeps.foldPair | with_reducible apply Keeps.fold
    | simp only [Keeps.mk_eq] | exact State.readClear_keeps _ _ (by assumption) h
    | exact State.readClear_keeps _ _ (by assumption) h | split | simp +zetaDelta only [Keeps.mk_eq]

theorem State.read32_keeps {s₀ s : State} (fn : Nat) (off : Nat) (h : Keeps s₀ s) :
    Keeps s₀ (State.read32 s fn off).1 := by
  unfold State.read32
  repeat' first
    | with_reducible assumption | intro _ | extract_lets | with_reducible apply State.modFn_keeps
    | with_reducible apply State.afterRead_keeps | with_reducible apply Keeps.ite
    | with_reducible apply Keeps.fstIte | with_reducible apply Keeps.foldPair | with_reducible apply Keeps.fold
    | simp only [Keeps.mk_eq] | split | simp +zetaDelta only [Keeps.mk_eq]

theorem State.seenRead_keeps {s₀ s : State} (fn : Nat) (off : Nat) (h : Keeps s₀ s) :
    Keeps s₀ (State.seenRead s fn off).1 := by
  unfold State.seenRead
  repeat' first
    | with_reducible assumption | intro _ | extract_lets | with_reducible apply State.read32_keeps
    | with_reducible apply Keeps.ite | with_reducible apply Keeps.fstIte | with_reducible apply Keeps.foldPair
    | with_reducible apply Keeps.fold | simp only [Keeps.mk_eq] | split | simp +zetaDelta only [Keeps.mk_eq]

theorem State.barRead_keeps {s₀ s : State} (fn : Nat) (off : Nat) (wide : Bool) (h : Keeps s₀ s) :
    Keeps s₀ (State.barRead s fn off wide) := by
  unfold State.barRead
  repeat' first
    | with_reducible assumption | intro _ | extract_lets | with_reducible apply State.readBack_keeps
    | with_reducible apply State.seenRead_keeps | with_reducible apply Keeps.ite
    | with_reducible apply Keeps.fstIte | with_reducible apply Keeps.foldPair | with_reducible apply Keeps.fold
    | simp only [Keeps.mk_eq] | split | simp +zetaDelta only [Keeps.mk_eq]

theorem State.sbAnswer_keeps {s₀ s : State} (bs : List Byte) (h : Keeps s₀ s) :
    Keeps s₀ (State.sbAnswer s bs) := by
  unfold State.sbAnswer
  repeat' first
    | with_reducible assumption | intro _ | extract_lets | with_reducible apply Keeps.ite
    | with_reducible apply Keeps.fstIte | with_reducible apply Keeps.foldPair | with_reducible apply Keeps.fold
    | simp only [Keeps.mk_eq] | split | simp +zetaDelta only [Keeps.mk_eq]

theorem State.sbRefuse_keeps {s₀ s : State} (op : Nat) (status : Nat) (seq : Word) (offset : Word)
    (h : Keeps s₀ s) :
    Keeps s₀ (State.sbRefuse s op status seq offset) := by
  unfold State.sbRefuse
  repeat' first
    | with_reducible assumption | intro _ | extract_lets | with_reducible apply State.sbAnswer_keeps
    | with_reducible apply State.useFree_keeps | with_reducible apply Keeps.ite
    | with_reducible apply Keeps.fstIte | with_reducible apply Keeps.foldPair | with_reducible apply Keeps.fold
    | simp only [Keeps.mk_eq] | split | simp +zetaDelta only [Keeps.mk_eq]

theorem State.sbRead_keeps {s₀ s : State} (seq : Word) (offset : Word) (h : Keeps s₀ s) :
    Keeps s₀ (State.sbRead s seq offset) := by
  unfold State.sbRead
  repeat' first
    | with_reducible assumption | intro _ | extract_lets | with_reducible apply State.sbRefuse_keeps
    | with_reducible apply State.sbAnswer_keeps | with_reducible apply Keeps.ite
    | with_reducible apply Keeps.fstIte | with_reducible apply Keeps.foldPair | with_reducible apply Keeps.fold
    | simp only [Keeps.mk_eq] | exact State.readClear_keeps _ _ (by assumption) h | split
    | simp +zetaDelta only [Keeps.mk_eq]

theorem State.writeModCtl_keeps {s₀ s : State} (v : Word) (h : Keeps s₀ s) :
    Keeps s₀ (State.writeModCtl s v) := by
  unfold State.writeModCtl
  repeat' first
    | with_reducible assumption | intro _ | extract_lets | with_reducible apply State.shutdownOp_keeps
    | with_reducible apply State.rebootOp_keeps | with_reducible apply Keeps.ite
    | with_reducible apply Keeps.fstIte | with_reducible apply Keeps.foldPair | with_reducible apply Keeps.fold
    | simp only [Keeps.mk_eq] | split | simp +zetaDelta only [Keeps.mk_eq]

theorem State.sbWriteReg_keeps {s₀ s : State} (b : RegBlock) (off : Nat) (v : Word) (h : Keeps s₀ s) :
    Keeps s₀ (State.sbWriteReg s b off v) := by
  unfold State.sbWriteReg
  repeat' first
    | with_reducible assumption | intro _ | extract_lets | with_reducible apply State.writeModCtl_keeps
    | with_reducible apply State.manCancel_keeps | with_reducible apply State.writeBudget_keeps
    | with_reducible apply State.timeStep_keeps | with_reducible apply State.writeWord32_keeps
    | with_reducible apply Keeps.ite | with_reducible apply Keeps.fstIte | with_reducible apply Keeps.foldPair
    | with_reducible apply Keeps.fold | simp only [Keeps.mk_eq] | split | simp +zetaDelta only [Keeps.mk_eq]

theorem State.respond_keeps {s₀ s : State} (fn : Nat) (r : SpdmResp) (h : Keeps s₀ s) :
    Keeps s₀ (State.respond s fn r) := by
  unfold State.respond
  repeat' first
    | with_reducible assumption | intro _ | extract_lets | with_reducible apply Keeps.ite
    | with_reducible apply Keeps.fstIte | with_reducible apply Keeps.foldPair | with_reducible apply Keeps.fold
    | simp only [Keeps.mk_eq] | split | simp +zetaDelta only [Keeps.mk_eq]

theorem State.readVec_keeps {s₀ s : State} (p : Nat) (q : Nat) (stm : BitVec 3) (t43 : Bool) (w : Waybill)
    (h : Keeps s₀ s) :
    Keeps s₀ (State.readVec s p q stm t43 w).1 := by
  unfold State.readVec
  repeat' first
    | with_reducible assumption | intro _ | extract_lets | with_reducible apply State.readPiece_keeps
    | with_reducible apply State.modCore_keeps | with_reducible apply Keeps.ite
    | with_reducible apply Keeps.fstIte | with_reducible apply Keeps.foldPair | with_reducible apply Keeps.fold
    | simp only [Keeps.mk_eq] | split | simp +zetaDelta only [Keeps.mk_eq]

theorem State.readVecIf_keeps {s₀ s : State} (p : Nat) (q : Nat) (stm : BitVec 3) (t43 : Bool) (used : Bool)
    (w : Waybill) (h : Keeps s₀ s) :
    Keeps s₀ (State.readVecIf s p q stm t43 used w).1 := by
  unfold State.readVecIf
  repeat' first
    | with_reducible assumption | intro _ | extract_lets | with_reducible apply State.readVec_keeps
    | with_reducible apply Keeps.ite | with_reducible apply Keeps.fstIte | with_reducible apply Keeps.foldPair
    | with_reducible apply Keeps.fold | simp only [Keeps.mk_eq] | split | simp +zetaDelta only [Keeps.mk_eq]

theorem State.readWbIf_keeps {s₀ s : State} (p : Nat) (q : Nat) (stm : BitVec 3) (used : Bool) (ref : BitVec 14)
    (dst : Bool) (other : Waybill) (h : Keeps s₀ s) :
    Keeps s₀ (State.readWbIf s p q stm used ref dst other).1 := by
  unfold State.readWbIf
  repeat' first
    | with_reducible assumption | intro _ | extract_lets | with_reducible apply State.readWb_keeps
    | with_reducible apply Keeps.ite | with_reducible apply Keeps.fstIte | with_reducible apply Keeps.foldPair
    | with_reducible apply Keeps.fold | simp only [Keeps.mk_eq] | split | simp +zetaDelta only [Keeps.mk_eq]

theorem State.runVec_keeps {s₀ s : State} (p : Nat) (q : Nat) (stm : BitVec 3) (op : Nat) (yrow : Bool)
    (imm : Word) (xw : Waybill) (yw : Waybill) (zw : Waybill) (ww : Waybill) (h : Keeps s₀ s) :
    Keeps s₀ (State.runVec s p q stm op yrow imm xw yw zw ww) := by
  unfold State.runVec
  repeat' first
    | with_reducible assumption | intro _ | extract_lets | with_reducible apply State.readVec_keeps
    | with_reducible apply State.readVecIf_keeps | with_reducible apply State.tollShort_keeps
    | with_reducible apply State.tallyAdd_keeps | with_reducible apply State.coreWrite_keeps
    | with_reducible apply State.advance_keeps | with_reducible apply Keeps.ite
    | with_reducible apply Keeps.fstIte | with_reducible apply Keeps.foldPair | with_reducible apply Keeps.fold
    | simp only [Keeps.mk_eq] | refine State.debitStore_keeps (by assumption) ?_ | refine eachDo_keeps _ _ ?_ ?_
    | split | simp +zetaDelta only [Keeps.mk_eq]

theorem State.optDay_keeps {s₀ s : State} (h : Keeps s₀ s) : Keeps s₀ (State.optDay s) := by
  unfold State.optDay
  repeat' first
    | with_reducible assumption | intro _ | extract_lets | with_reducible apply eachDo_keeps
    | with_reducible apply State.modLife_keeps | with_reducible apply State.useFree_keeps
    | with_reducible apply Keeps.ite | with_reducible apply Keeps.fstIte | with_reducible apply Keeps.foldPair
    | with_reducible apply Keeps.fold | simp only [Keeps.mk_eq] | split | simp +zetaDelta only [Keeps.mk_eq]

theorem State.tickLife_keeps {s₀ s : State} (h : Keeps s₀ s) : Keeps s₀ (State.tickLife s) := by
  unfold State.tickLife
  repeat' first
    | with_reducible assumption | intro _ | extract_lets | with_reducible apply State.optDay_keeps
    | with_reducible apply Keeps.ite | with_reducible apply Keeps.fstIte | with_reducible apply Keeps.foldPair
    | with_reducible apply Keeps.fold | simp only [Keeps.mk_eq] | split | simp +zetaDelta only [Keeps.mk_eq]

theorem State.fecTick_keeps {s₀ s : State} (l : Nat) (h : Keeps s₀ s) : Keeps s₀ (State.fecTick s l) := by
  unfold State.fecTick
  repeat' first
    | with_reducible assumption | intro _ | extract_lets | with_reducible apply State.modLink_keeps
    | with_reducible apply State.useFree_keeps | with_reducible apply Keeps.ite
    | with_reducible apply Keeps.fstIte | with_reducible apply Keeps.foldPair | with_reducible apply Keeps.fold
    | simp only [Keeps.mk_eq] | split | simp +zetaDelta only [Keeps.mk_eq]

theorem State.linkTick_keeps {s₀ s : State} (ns : Nat) (l : Nat) (h : Keeps s₀ s) :
    Keeps s₀ (State.linkTick s ns l) := by
  unfold State.linkTick
  repeat' first
    | with_reducible assumption | intro _ | extract_lets | with_reducible apply State.drainLink_keeps
    | with_reducible apply State.fecTick_keeps | with_reducible apply State.modLink_keeps
    | with_reducible apply eachDo_keeps | with_reducible apply State.takeNic_keeps
    | with_reducible apply Keeps.ite | with_reducible apply Keeps.fstIte | with_reducible apply Keeps.foldPair
    | with_reducible apply Keeps.fold | simp only [Keeps.mk_eq] | split | simp +zetaDelta only [Keeps.mk_eq]

theorem tick_keeps {s₀ s : State} (h : Keeps s₀ s) : Keeps s₀ (tick s) := by
  unfold tick
  repeat' first
    | with_reducible assumption | intro _ | extract_lets | with_reducible apply eachDo_keeps
    | with_reducible apply State.linkTick_keeps | with_reducible apply State.tickLife_keeps
    | with_reducible apply State.rxSelf_keeps | with_reducible apply Keeps.ite
    | with_reducible apply Keeps.fstIte | with_reducible apply Keeps.foldPair | with_reducible apply Keeps.fold
    | simp only [Keeps.mk_eq] | split | simp +zetaDelta only [Keeps.mk_eq]

end Sys2Proof.Machine
end

