-- ==== Sys2Proof/Laws/State.lean ====
section
/-!
SUPPORT. What each update of a part of the state leaves alone, and what is read back after it.
-/

namespace Sys2Proof.Machine

set_option Elab.async false

/-! What is read back. -/

/-- A table reads back what was set, and everything else as before. -/
theorem tabGet_tabSet {α : Type} (d : α) (t : Tab α) (k : Nat) (v : α) (i : Nat) :
    tabGet d (tabSet t k v) i = if i = k then v else tabGet d t i := by
  induction t with
  | nil => simp [tabSet, tabGet]
  | cons e t ih =>
    obtain ⟨j, w⟩ := e
    unfold tabSet
    by_cases h1 : k < j
    · simp [h1, tabGet]
    · by_cases h2 : k = j
      · subst h2
        by_cases hi : i = k <;> simp [tabGet, hi]
      · simp only [h1, h2, if_false, tabGet, ih]
        by_cases hi : i = j
        · subst hi
          have : i ≠ k := fun h => h2 h.symm
          simp [this]
        · simp [hi]

/-- The last of two sets of one entry counts. -/
@[simp] theorem tabSet_tabSet {α : Type} (t : Tab α) (k : Nat) (v w : α) :
    tabSet (tabSet t k v) k w = tabSet t k w := by
  induction t with
  | nil => simp [tabSet]
  | cons e t ih =>
    obtain ⟨j, x⟩ := e
    by_cases h1 : k < j
    · simp [tabSet, h1]
    · by_cases h2 : k = j
      · simp [tabSet, h2]
      · simp [tabSet, h1, h2, ih]

@[simp] theorem State.setFn_fn (s : State) (f : Nat) (x : Fn) (z : Nat) :
    (s.setFn f x).fn z = if z = f then x else s.fn z := tabGet_tabSet _ _ _ _ _

@[simp] theorem State.setCore_core (s : State) (p : Nat) (c : Core) (z : Nat) :
    (s.setCore p c).core z = if z = p then c else s.core z := tabGet_tabSet _ _ _ _ _

@[simp] theorem State.setDie_die (s : State) (n : Nat) (d : Die) (z : Nat) :
    (s.setDie n d).die z = if z = n then d else s.die z := tabGet_tabSet _ _ _ _ _

@[simp] theorem State.setPart_part (s : State) (p : Nat) (x : Part) (z : Nat) :
    (s.setPart p x).part z = if z = p then x else s.part z := tabGet_tabSet _ _ _ _ _

@[simp] theorem State.setLink_link (s : State) (l : Nat) (x : Link) (z : Nat) :
    (s.setLink l x).link z = if z = l then x else s.link z := tabGet_tabSet _ _ _ _ _

@[simp] theorem State.setQp_qp (s : State) (q : Nat) (x : Qp) (z : Nat) :
    (s.setQp q x).qp z = if z = q then x else s.qp z := tabGet_tabSet _ _ _ _ _

@[simp] theorem State.setKeySlot_keySlot (s : State) (i : Nat) (k : KeySlot) (z : Nat) :
    (s.setKeySlot i k).keySlot z = if z = i then k else s.keySlot z := tabGet_tabSet _ _ _ _ _

@[simp] theorem State.modCis_cis (s : State) (m : Nat) (g : CisDie → CisDie) (j : Nat) :
    (s.modCis m g).cis j = if j = m then g (s.cis m) else s.cis j := tabGet_tabSet _ _ _ _ _

@[simp] theorem State.modPorter_porter (s : State) (m : Nat) (g : Porter → Porter) (j : Nat) :
    (s.modPorter m g).porter j = if j = m then g (s.porter m) else s.porter j := tabGet_tabSet _ _ _ _ _

@[simp] theorem State.modRegion_region (s : State) (i : Nat) (g : Region → Region) (j : Nat) :
    (s.modRegion i g).region j = if j = i then g (s.region i) else s.region j := tabGet_tabSet _ _ _ _ _

@[simp] theorem State.modConvoy_convoy (s : State) (p : Nat) (g : Convoy → Convoy) (j : Nat) :
    (s.modConvoy p g).convoy j = if j = p then g (s.convoy p) else s.convoy j := tabGet_tabSet _ _ _ _ _

@[simp] theorem State.modHouse_house (s : State) (n : Nat) (g : House → House) (j : Nat) :
    (s.modHouse n g).house j = if j = n then g (s.house n) else s.house j := tabGet_tabSet _ _ _ _ _

@[simp] theorem State.modCus_cus (s : State) (p : Nat) (g : CusPart → CusPart) (j : Nat) :
    (s.modCus p g).cus j = if j = p then g (s.cus p) else s.cus j := tabGet_tabSet _ _ _ _ _

@[simp] theorem State.setFn_setFn (s : State) (f : Nat) (x y : Fn) :
    (s.setFn f x).setFn f y = s.setFn f y := by
  simp [State.setFn]

@[simp] theorem State.setCore_setCore (s : State) (p : Nat) (x y : Core) :
    (s.setCore p x).setCore p y = s.setCore p y := by
  simp [State.setCore]

@[simp] theorem State.setDie_setDie (s : State) (n : Nat) (x y : Die) :
    (s.setDie n x).setDie n y = s.setDie n y := by
  simp [State.setDie]

@[simp] theorem State.setPart_setPart (s : State) (p : Nat) (x y : Part) :
    (s.setPart p x).setPart p y = s.setPart p y := by
  simp [State.setPart]

@[simp] theorem State.setLink_setLink (s : State) (l : Nat) (x y : Link) :
    (s.setLink l x).setLink l y = s.setLink l y := by
  simp [State.setLink]

@[simp] theorem State.setQp_setQp (s : State) (q : Nat) (x y : Qp) :
    (s.setQp q x).setQp q y = s.setQp q y := by
  simp [State.setQp]

/-! A change of a part is its new value set. -/

@[simp] theorem State.modFn_eq (s : State) (f : Nat) (g : Fn → Fn) :
    s.modFn f g = s.setFn f (g (s.fn f)) := rfl

@[simp] theorem State.modCore_eq (s : State) (p : Nat) (g : Core → Core) :
    s.modCore p g = s.setCore p (g (s.core p)) := rfl

@[simp] theorem State.modDie_eq (s : State) (n : Nat) (g : Die → Die) :
    s.modDie n g = s.setDie n (g (s.die n)) := rfl

@[simp] theorem State.modPart_eq (s : State) (p : Nat) (g : Part → Part) :
    s.modPart p g = s.setPart p (g (s.part p)) := rfl

@[simp] theorem State.modLink_eq (s : State) (l : Nat) (g : Link → Link) :
    s.modLink l g = s.setLink l (g (s.link l)) := rfl

@[simp] theorem State.modQp_eq (s : State) (q : Nat) (g : Qp → Qp) :
    s.modQp q g = s.setQp q (g (s.qp q)) := rfl

@[simp] theorem State.modMs_eq (s : State) (p : Nat) (g : Milestones → Milestones) :
    s.modMs p g = s.setPart p { s.part p with ms := g (s.part p).ms } := rfl

@[simp] theorem State.setQueue_eq (s : State) (f q : Nat) (y : Queue) :
    s.setQueue f q y = s.setFn f ((s.fn f).setQueue q y) := rfl

@[simp] theorem State.modQueue_eq (s : State) (f q : Nat) (g : Queue → Queue) :
    s.modQueue f q g = s.setFn f ((s.fn f).setQueue q (g (s.queue f q))) := rfl

/-! What is left alone. -/

@[simp] theorem State.setFn_pending (s : State) (f : Nat) (x : Fn) : (s.setFn f x).pending = s.pending := rfl
@[simp] theorem State.setFn_free (s : State) (f : Nat) (x : Fn) : (s.setFn f x).free = s.free := rfl
@[simp] theorem State.setFn_now (s : State) (f : Nat) (x : Fn) : (s.setFn f x).now = s.now := rfl
@[simp] theorem State.setFn_host (s : State) (f : Nat) (x : Fn) : (s.setFn f x).host = s.host := rfl
@[simp] theorem State.setFn_log (s : State) (f : Nat) (x : Fn) : (s.setFn f x).log = s.log := rfl
@[simp] theorem State.setFn_mod (s : State) (f : Nat) (x : Fn) : (s.setFn f x).mod = s.mod := rfl
@[simp] theorem State.setFn_phys (s : State) (f : Nat) (x : Fn) : (s.setFn f x).phys = s.phys := rfl
@[simp] theorem State.setFn_mem (s : State) (f : Nat) (x : Fn) : (s.setFn f x).mem = s.mem := rfl
@[simp] theorem State.setFn_cisDies (s : State) (f : Nat) (x : Fn) : (s.setFn f x).cisDies = s.cisDies := rfl
@[simp] theorem State.setFn_cwy (s : State) (f : Nat) (x : Fn) : (s.setFn f x).cwy = s.cwy := rfl
@[simp] theorem State.setFn_lostCopies (s : State) (f : Nat) (x : Fn) :
    (s.setFn f x).lostCopies = s.lostCopies := rfl
@[simp] theorem State.setFn_cores (s : State) (f : Nat) (x : Fn) : (s.setFn f x).cores = s.cores := rfl
@[simp] theorem State.setFn_dies (s : State) (f : Nat) (x : Fn) : (s.setFn f x).dies = s.dies := rfl
@[simp] theorem State.setFn_parts (s : State) (f : Nat) (x : Fn) : (s.setFn f x).parts = s.parts := rfl
@[simp] theorem State.setFn_links (s : State) (f : Nat) (x : Fn) : (s.setFn f x).links = s.links := rfl
@[simp] theorem State.setFn_lanternCfg (s : State) (f : Nat) (x : Fn) :
    (s.setFn f x).lanternCfg = s.lanternCfg := rfl
@[simp] theorem State.setFn_tollWait (s : State) (f : Nat) (x : Fn) : (s.setFn f x).tollWait = s.tollWait := rfl
@[simp] theorem State.setFn_qps (s : State) (f : Nat) (x : Fn) : (s.setFn f x).qps = s.qps := rfl
@[simp] theorem State.setFn_porters (s : State) (f : Nat) (x : Fn) : (s.setFn f x).porters = s.porters := rfl
@[simp] theorem State.setFn_pages (s : State) (f : Nat) (x : Fn) : (s.setFn f x).pages = s.pages := rfl
@[simp] theorem State.setFn_selfFrames (s : State) (f : Nat) (x : Fn) :
    (s.setFn f x).selfFrames = s.selfFrames := rfl
@[simp] theorem State.setFn_regions (s : State) (f : Nat) (x : Fn) : (s.setFn f x).regions = s.regions := rfl
@[simp] theorem State.setFn_convoys (s : State) (f : Nat) (x : Fn) : (s.setFn f x).convoys = s.convoys := rfl
@[simp] theorem State.setFn_houses (s : State) (f : Nat) (x : Fn) : (s.setFn f x).houses = s.houses := rfl
@[simp] theorem State.setFn_pendFrames (s : State) (f : Nat) (x : Fn) :
    (s.setFn f x).pendFrames = s.pendFrames := rfl
@[simp] theorem State.setFn_nextFrameId (s : State) (f : Nat) (x : Fn) :
    (s.setFn f x).nextFrameId = s.nextFrameId := rfl
@[simp] theorem State.setFn_customs (s : State) (f : Nat) (x : Fn) : (s.setFn f x).customs = s.customs := rfl
@[simp] theorem State.setFn_cusParts (s : State) (f : Nat) (x : Fn) : (s.setFn f x).cusParts = s.cusParts := rfl
@[simp] theorem State.setFn_pwr (s : State) (f : Nat) (x : Fn) : (s.setFn f x).pwr = s.pwr := rfl
@[simp] theorem State.setFn_time (s : State) (f : Nat) (x : Fn) : (s.setFn f x).time = s.time := rfl
@[simp] theorem State.setFn_life (s : State) (f : Nat) (x : Fn) : (s.setFn f x).life = s.life := rfl
@[simp] theorem State.setFn_totals (s : State) (f : Nat) (x : Fn) : (s.setFn f x).totals = s.totals := rfl
@[simp] theorem State.setFn_totSnap (s : State) (f : Nat) (x : Fn) : (s.setFn f x).totSnap = s.totSnap := rfl
@[simp] theorem State.setFn_totTime (s : State) (f : Nat) (x : Fn) : (s.setFn f x).totTime = s.totTime := rfl
@[simp] theorem State.setFn_gapSerai (s : State) (f : Nat) (x : Fn) : (s.setFn f x).gapSerai = s.gapSerai := rfl
@[simp] theorem State.setFn_core (s : State) (f : Nat) (x : Fn) (p : Nat) : (s.setFn f x).core p = s.core p := rfl
@[simp] theorem State.setFn_die (s : State) (f : Nat) (x : Fn) (n : Nat) : (s.setFn f x).die n = s.die n := rfl
@[simp] theorem State.setFn_part (s : State) (f : Nat) (x : Fn) (p : Nat) : (s.setFn f x).part p = s.part p := rfl
@[simp] theorem State.setFn_cis (s : State) (f : Nat) (x : Fn) (m : Nat) : (s.setFn f x).cis m = s.cis m := rfl
@[simp] theorem State.setFn_sense (s : State) (f : Nat) (x : Fn) (d : Nat) :
    (s.setFn f x).sense d = s.sense d := rfl
@[simp] theorem State.setFn_clocked (s : State) (f : Nat) (x : Fn) : (s.setFn f x).clocked = s.clocked := rfl
@[simp] theorem State.setFn_physOf (s : State) (f : Nat) (x : Fn) (l : Nat) :
    (s.setFn f x).physOf l = s.physOf l := rfl
@[simp] theorem State.setFn_logicalOf (s : State) (f : Nat) (x : Fn) (p : Nat) :
    (s.setFn f x).logicalOf p = s.logicalOf p := rfl
@[simp] theorem State.setFn_ownsCore (s : State) (f : Nat) (x : Fn) (p l : Nat) :
    (s.setFn f x).ownsCore p l = s.ownsCore p l := rfl
@[simp] theorem State.setFn_partOf (s : State) (f : Nat) (x : Fn) (l : Nat) :
    (s.setFn f x).partOf l = s.partOf l := rfl
@[simp] theorem State.setFn_partOfPhys (s : State) (f : Nat) (x : Fn) (p : Nat) :
    (s.setFn f x).partOfPhys p = s.partOfPhys p := rfl
@[simp] theorem State.setFn_partNo (s : State) (f : Nat) (x : Fn) (l : Nat) :
    (s.setFn f x).partNo l = s.partNo l := rfl
@[simp] theorem State.setFn_coresOf (s : State) (f : Nat) (x : Fn) (p : Nat) :
    (s.setFn f x).coresOf p = s.coresOf p := rfl
@[simp] theorem State.setFn_physOfPart (s : State) (f : Nat) (x : Fn) (p : Nat) :
    (s.setFn f x).physOfPart p = s.physOfPart p := rfl
@[simp] theorem State.setFn_vfOf (s : State) (f : Nat) (x : Fn) (p : Nat) : (s.setFn f x).vfOf p = s.vfOf p := rfl
@[simp] theorem State.setFn_fnOfPart (s : State) (f : Nat) (x : Fn) (p : Nat) :
    (s.setFn f x).fnOfPart p = s.fnOfPart p := rfl
@[simp] theorem State.setFn_freeVal (s : State) (f : Nat) (x : Fn) : (s.setFn f x).freeVal = s.freeVal := rfl
@[simp] theorem State.setFn_dieNow (s : State) (f : Nat) (x : Fn) (d : Nat) :
    (s.setFn f x).dieNow d = s.dieNow d := rfl
@[simp] theorem State.setFn_stretched (s : State) (f : Nat) (x : Fn) (d : Nat) :
    (s.setFn f x).stretched d = s.stretched d := rfl
@[simp] theorem State.setFn_mapped (s : State) (f : Nat) (x : Fn) (a n : Nat) :
    (s.setFn f x).mapped a n = s.mapped a n := rfl
@[simp] theorem State.setFn_inWindow (s : State) (f : Nat) (x : Fn) (q a n : Nat) :
    (s.setFn f x).inWindow q a n = s.inWindow q a n := rfl
@[simp] theorem State.setFn_admitted (s : State) (f : Nat) (x : Fn) (q : Nat) (byCore store : Bool) (a n : Nat) :
    (s.setFn f x).admitted q byCore store a n = s.admitted q byCore store a n := rfl
@[simp] theorem State.setFn_ownerOf (s : State) (f : Nat) (x : Fn) (a : Nat) :
    (s.setFn f x).ownerOf a = s.ownerOf a := rfl
@[simp] theorem State.setFn_failedChan (s : State) (f : Nat) (x : Fn) (a n : Nat) :
    (s.setFn f x).failedChan a n = s.failedChan a n := rfl
@[simp] theorem State.setFn_failedStack (s : State) (f : Nat) (x : Fn) (a n : Nat) :
    (s.setFn f x).failedStack a n = s.failedStack a n := rfl
@[simp] theorem State.setFn_failedIn (s : State) (f : Nat) (x : Fn) (segs : List (Nat × Nat)) :
    (s.setFn f x).failedIn segs = s.failedIn segs := rfl
@[simp] theorem State.setFn_markAt (s : State) (f : Nat) (x : Fn) (p a : Nat) :
    (s.setFn f x).markAt p a = s.markAt p a := rfl
@[simp] theorem State.setFn_byteAt (s : State) (f : Nat) (x : Fn) (p a : Nat) :
    (s.setFn f x).byteAt p a = s.byteAt p a := rfl
@[simp] theorem State.setFn_bytesAt (s : State) (f : Nat) (x : Fn) (p a n : Nat) :
    (s.setFn f x).bytesAt p a n = s.bytesAt p a n := rfl
@[simp] theorem State.setFn_wordAt (s : State) (f : Nat) (x : Fn) (p a : Nat) :
    (s.setFn f x).wordAt p a = s.wordAt p a := rfl
@[simp] theorem State.setFn_bufRef (s : State) (f : Nat) (x : Fn) (p q : Nat) (stm : BitVec 3) (r : BitVec 14) :
    (s.setFn f x).bufRef p q stm r = s.bufRef p q stm r := rfl
@[simp] theorem State.setFn_tok (s : State) (f : Nat) (x : Fn) (p : Nat) (z1 : Buf) :
    (s.setFn f x).tok p z1 = s.tok p z1 := rfl
@[simp] theorem State.setFn_missing (s : State) (f : Nat) (x : Fn) (p : Nat) (z1 : Buf) :
    (s.setFn f x).missing p z1 = s.missing p z1 := rfl
@[simp] theorem State.setFn_usedPhys (s : State) (f : Nat) (x : Fn) (q : Nat) :
    (s.setFn f x).usedPhys q = s.usedPhys q := rfl
@[simp] theorem State.setFn_link (s : State) (f : Nat) (x : Fn) (l : Nat) : (s.setFn f x).link l = s.link l := rfl
@[simp] theorem State.setFn_lantern (s : State) (f : Nat) (x : Fn) (m : Nat) :
    (s.setFn f x).lantern m = s.lantern m := rfl
@[simp] theorem State.setFn_coord (s : State) (f : Nat) (x : Fn) : (s.setFn f x).coord = s.coord := rfl
@[simp] theorem State.setFn_qp (s : State) (f : Nat) (x : Fn) (q : Nat) : (s.setFn f x).qp q = s.qp q := rfl
@[simp] theorem State.setFn_porter (s : State) (f : Nat) (x : Fn) (m : Nat) :
    (s.setFn f x).porter m = s.porter m := rfl
@[simp] theorem State.setFn_page (s : State) (f : Nat) (x : Fn) (m p : Nat) :
    (s.setFn f x).page m p = s.page m p := rfl
@[simp] theorem State.setFn_region (s : State) (f : Nat) (x : Fn) (i : Nat) :
    (s.setFn f x).region i = s.region i := rfl
@[simp] theorem State.setFn_ownsQp (s : State) (f : Nat) (x : Fn) (part q : Nat) :
    (s.setFn f x).ownsQp part q = s.ownsQp part q := rfl
@[simp] theorem State.setFn_convoy (s : State) (f : Nat) (x : Fn) (p : Nat) :
    (s.setFn f x).convoy p = s.convoy p := rfl
@[simp] theorem State.setFn_house (s : State) (f : Nat) (x : Fn) (n : Nat) :
    (s.setFn f x).house n = s.house n := rfl
@[simp] theorem State.setFn_cus (s : State) (f : Nat) (x : Fn) (p : Nat) : (s.setFn f x).cus p = s.cus p := rfl
@[simp] theorem State.setFn_keySlot (s : State) (f : Nat) (x : Fn) (i : Nat) :
    (s.setFn f x).keySlot i = s.keySlot i := rfl
@[simp] theorem State.setFn_slotRef (s : State) (f : Nat) (x : Fn) (i : Nat) :
    (s.setFn f x).slotRef i = s.slotRef i := rfl
@[simp] theorem State.setFn_ms (s : State) (f : Nat) (x : Fn) (q : Nat) : (s.setFn f x).ms q = s.ms q := rfl
@[simp] theorem State.setFn_obj (s : State) (f : Nat) (x : Fn) (q o : Nat) :
    (s.setFn f x).obj q o = s.obj q o := rfl
@[simp] theorem State.setFn_exists_ (s : State) (f : Nat) (x : Fn) (p : Nat) :
    (s.setFn f x).exists_ p = s.exists_ p := rfl
@[simp] theorem State.setFn_seraiOn (s : State) (f : Nat) (x : Fn) : (s.setFn f x).seraiOn = s.seraiOn := rfl
@[simp] theorem State.setFn_issuing (s : State) (f : Nat) (x : Fn) (l : Nat) :
    (s.setFn f x).issuing l = s.issuing l := rfl
@[simp] theorem State.setFn_waiting (s : State) (f : Nat) (x : Fn) (l : Nat) :
    (s.setFn f x).waiting l = s.waiting l := rfl
@[simp] theorem State.setFn_route (s : State) (f : Nat) (x : Fn) (ok : LinkSt → Bool) (plane : Bool) (src dst z4 : Nat) :
    (s.setFn f x).route ok plane src dst z4 = s.route ok plane src dst z4 := rfl

@[simp] theorem State.setCore_pending (s : State) (p : Nat) (c : Core) : (s.setCore p c).pending = s.pending := rfl
@[simp] theorem State.setCore_free (s : State) (p : Nat) (c : Core) : (s.setCore p c).free = s.free := rfl
@[simp] theorem State.setCore_now (s : State) (p : Nat) (c : Core) : (s.setCore p c).now = s.now := rfl
@[simp] theorem State.setCore_fns (s : State) (p : Nat) (c : Core) : (s.setCore p c).fns = s.fns := rfl
@[simp] theorem State.setCore_host (s : State) (p : Nat) (c : Core) : (s.setCore p c).host = s.host := rfl
@[simp] theorem State.setCore_log (s : State) (p : Nat) (c : Core) : (s.setCore p c).log = s.log := rfl
@[simp] theorem State.setCore_mod (s : State) (p : Nat) (c : Core) : (s.setCore p c).mod = s.mod := rfl
@[simp] theorem State.setCore_phys (s : State) (p : Nat) (c : Core) : (s.setCore p c).phys = s.phys := rfl
@[simp] theorem State.setCore_mem (s : State) (p : Nat) (c : Core) : (s.setCore p c).mem = s.mem := rfl
@[simp] theorem State.setCore_cisDies (s : State) (p : Nat) (c : Core) : (s.setCore p c).cisDies = s.cisDies := rfl
@[simp] theorem State.setCore_cwy (s : State) (p : Nat) (c : Core) : (s.setCore p c).cwy = s.cwy := rfl
@[simp] theorem State.setCore_lostCopies (s : State) (p : Nat) (c : Core) :
    (s.setCore p c).lostCopies = s.lostCopies := rfl
@[simp] theorem State.setCore_dies (s : State) (p : Nat) (c : Core) : (s.setCore p c).dies = s.dies := rfl
@[simp] theorem State.setCore_parts (s : State) (p : Nat) (c : Core) : (s.setCore p c).parts = s.parts := rfl
@[simp] theorem State.setCore_links (s : State) (p : Nat) (c : Core) : (s.setCore p c).links = s.links := rfl
@[simp] theorem State.setCore_lanternCfg (s : State) (p : Nat) (c : Core) :
    (s.setCore p c).lanternCfg = s.lanternCfg := rfl
@[simp] theorem State.setCore_tollWait (s : State) (p : Nat) (c : Core) :
    (s.setCore p c).tollWait = s.tollWait := rfl
@[simp] theorem State.setCore_qps (s : State) (p : Nat) (c : Core) : (s.setCore p c).qps = s.qps := rfl
@[simp] theorem State.setCore_porters (s : State) (p : Nat) (c : Core) : (s.setCore p c).porters = s.porters := rfl
@[simp] theorem State.setCore_pages (s : State) (p : Nat) (c : Core) : (s.setCore p c).pages = s.pages := rfl
@[simp] theorem State.setCore_selfFrames (s : State) (p : Nat) (c : Core) :
    (s.setCore p c).selfFrames = s.selfFrames := rfl
@[simp] theorem State.setCore_regions (s : State) (p : Nat) (c : Core) : (s.setCore p c).regions = s.regions := rfl
@[simp] theorem State.setCore_convoys (s : State) (p : Nat) (c : Core) : (s.setCore p c).convoys = s.convoys := rfl
@[simp] theorem State.setCore_houses (s : State) (p : Nat) (c : Core) : (s.setCore p c).houses = s.houses := rfl
@[simp] theorem State.setCore_pendFrames (s : State) (p : Nat) (c : Core) :
    (s.setCore p c).pendFrames = s.pendFrames := rfl
@[simp] theorem State.setCore_nextFrameId (s : State) (p : Nat) (c : Core) :
    (s.setCore p c).nextFrameId = s.nextFrameId := rfl
@[simp] theorem State.setCore_customs (s : State) (p : Nat) (c : Core) : (s.setCore p c).customs = s.customs := rfl
@[simp] theorem State.setCore_cusParts (s : State) (p : Nat) (c : Core) :
    (s.setCore p c).cusParts = s.cusParts := rfl
@[simp] theorem State.setCore_pwr (s : State) (p : Nat) (c : Core) : (s.setCore p c).pwr = s.pwr := rfl
@[simp] theorem State.setCore_time (s : State) (p : Nat) (c : Core) : (s.setCore p c).time = s.time := rfl
@[simp] theorem State.setCore_life (s : State) (p : Nat) (c : Core) : (s.setCore p c).life = s.life := rfl
@[simp] theorem State.setCore_totals (s : State) (p : Nat) (c : Core) : (s.setCore p c).totals = s.totals := rfl
@[simp] theorem State.setCore_totSnap (s : State) (p : Nat) (c : Core) : (s.setCore p c).totSnap = s.totSnap := rfl
@[simp] theorem State.setCore_totTime (s : State) (p : Nat) (c : Core) : (s.setCore p c).totTime = s.totTime := rfl
@[simp] theorem State.setCore_gapSerai (s : State) (p : Nat) (c : Core) :
    (s.setCore p c).gapSerai = s.gapSerai := rfl
@[simp] theorem State.setCore_fn (s : State) (p : Nat) (c : Core) (f : Nat) : (s.setCore p c).fn f = s.fn f := rfl
@[simp] theorem State.setCore_queue (s : State) (p : Nat) (c : Core) (f q : Nat) :
    (s.setCore p c).queue f q = s.queue f q := rfl
@[simp] theorem State.setCore_die (s : State) (p : Nat) (c : Core) (n : Nat) :
    (s.setCore p c).die n = s.die n := rfl
@[simp] theorem State.setCore_part (s : State) (p : Nat) (c : Core) (z0 : Nat) :
    (s.setCore p c).part z0 = s.part z0 := rfl
@[simp] theorem State.setCore_cis (s : State) (p : Nat) (c : Core) (m : Nat) :
    (s.setCore p c).cis m = s.cis m := rfl
@[simp] theorem State.setCore_sense (s : State) (p : Nat) (c : Core) (d : Nat) :
    (s.setCore p c).sense d = s.sense d := rfl
@[simp] theorem State.setCore_clocked (s : State) (p : Nat) (c : Core) : (s.setCore p c).clocked = s.clocked := rfl
@[simp] theorem State.setCore_physOf (s : State) (p : Nat) (c : Core) (l : Nat) :
    (s.setCore p c).physOf l = s.physOf l := rfl
@[simp] theorem State.setCore_logicalOf (s : State) (p : Nat) (c : Core) (z0 : Nat) :
    (s.setCore p c).logicalOf z0 = s.logicalOf z0 := rfl
@[simp] theorem State.setCore_ownsCore (s : State) (p : Nat) (c : Core) (z0 l : Nat) :
    (s.setCore p c).ownsCore z0 l = s.ownsCore z0 l := rfl
@[simp] theorem State.setCore_partOf (s : State) (p : Nat) (c : Core) (l : Nat) :
    (s.setCore p c).partOf l = s.partOf l := rfl
@[simp] theorem State.setCore_partOfPhys (s : State) (p : Nat) (c : Core) (z0 : Nat) :
    (s.setCore p c).partOfPhys z0 = s.partOfPhys z0 := rfl
@[simp] theorem State.setCore_partNo (s : State) (p : Nat) (c : Core) (l : Nat) :
    (s.setCore p c).partNo l = s.partNo l := rfl
@[simp] theorem State.setCore_coresOf (s : State) (p : Nat) (c : Core) (z0 : Nat) :
    (s.setCore p c).coresOf z0 = s.coresOf z0 := rfl
@[simp] theorem State.setCore_physOfPart (s : State) (p : Nat) (c : Core) (z0 : Nat) :
    (s.setCore p c).physOfPart z0 = s.physOfPart z0 := rfl
@[simp] theorem State.setCore_vfOf (s : State) (p : Nat) (c : Core) (z0 : Nat) :
    (s.setCore p c).vfOf z0 = s.vfOf z0 := rfl
@[simp] theorem State.setCore_fnOfPart (s : State) (p : Nat) (c : Core) (z0 : Nat) :
    (s.setCore p c).fnOfPart z0 = s.fnOfPart z0 := rfl
@[simp] theorem State.setCore_freeVal (s : State) (p : Nat) (c : Core) : (s.setCore p c).freeVal = s.freeVal := rfl
@[simp] theorem State.setCore_dieNow (s : State) (p : Nat) (c : Core) (d : Nat) :
    (s.setCore p c).dieNow d = s.dieNow d := rfl
@[simp] theorem State.setCore_stretched (s : State) (p : Nat) (c : Core) (d : Nat) :
    (s.setCore p c).stretched d = s.stretched d := rfl
@[simp] theorem State.setCore_mapped (s : State) (p : Nat) (c : Core) (a n : Nat) :
    (s.setCore p c).mapped a n = s.mapped a n := rfl
@[simp] theorem State.setCore_inWindow (s : State) (p : Nat) (c : Core) (q a n : Nat) :
    (s.setCore p c).inWindow q a n = s.inWindow q a n := rfl
@[simp] theorem State.setCore_admitted (s : State) (p : Nat) (c : Core) (q : Nat) (byCore store : Bool) (a n : Nat) :
    (s.setCore p c).admitted q byCore store a n = s.admitted q byCore store a n := rfl
@[simp] theorem State.setCore_ownerOf (s : State) (p : Nat) (c : Core) (a : Nat) :
    (s.setCore p c).ownerOf a = s.ownerOf a := rfl
@[simp] theorem State.setCore_failedChan (s : State) (p : Nat) (c : Core) (a n : Nat) :
    (s.setCore p c).failedChan a n = s.failedChan a n := rfl
@[simp] theorem State.setCore_failedStack (s : State) (p : Nat) (c : Core) (a n : Nat) :
    (s.setCore p c).failedStack a n = s.failedStack a n := rfl
@[simp] theorem State.setCore_failedIn (s : State) (p : Nat) (c : Core) (segs : List (Nat × Nat)) :
    (s.setCore p c).failedIn segs = s.failedIn segs := rfl
@[simp] theorem State.setCore_usedPhys (s : State) (p : Nat) (c : Core) (q : Nat) :
    (s.setCore p c).usedPhys q = s.usedPhys q := rfl
@[simp] theorem State.setCore_link (s : State) (p : Nat) (c : Core) (l : Nat) :
    (s.setCore p c).link l = s.link l := rfl
@[simp] theorem State.setCore_lantern (s : State) (p : Nat) (c : Core) (m : Nat) :
    (s.setCore p c).lantern m = s.lantern m := rfl
@[simp] theorem State.setCore_coord (s : State) (p : Nat) (c : Core) : (s.setCore p c).coord = s.coord := rfl
@[simp] theorem State.setCore_qp (s : State) (p : Nat) (c : Core) (q : Nat) : (s.setCore p c).qp q = s.qp q := rfl
@[simp] theorem State.setCore_porter (s : State) (p : Nat) (c : Core) (m : Nat) :
    (s.setCore p c).porter m = s.porter m := rfl
@[simp] theorem State.setCore_page (s : State) (p : Nat) (c : Core) (m z1 : Nat) :
    (s.setCore p c).page m z1 = s.page m z1 := rfl
@[simp] theorem State.setCore_region (s : State) (p : Nat) (c : Core) (i : Nat) :
    (s.setCore p c).region i = s.region i := rfl
@[simp] theorem State.setCore_ownsQp (s : State) (p : Nat) (c : Core) (part q : Nat) :
    (s.setCore p c).ownsQp part q = s.ownsQp part q := rfl
@[simp] theorem State.setCore_convoy (s : State) (p : Nat) (c : Core) (z0 : Nat) :
    (s.setCore p c).convoy z0 = s.convoy z0 := rfl
@[simp] theorem State.setCore_house (s : State) (p : Nat) (c : Core) (n : Nat) :
    (s.setCore p c).house n = s.house n := rfl
@[simp] theorem State.setCore_cus (s : State) (p : Nat) (c : Core) (z0 : Nat) :
    (s.setCore p c).cus z0 = s.cus z0 := rfl
@[simp] theorem State.setCore_keySlot (s : State) (p : Nat) (c : Core) (i : Nat) :
    (s.setCore p c).keySlot i = s.keySlot i := rfl
@[simp] theorem State.setCore_slotRef (s : State) (p : Nat) (c : Core) (i : Nat) :
    (s.setCore p c).slotRef i = s.slotRef i := rfl
@[simp] theorem State.setCore_ms (s : State) (p : Nat) (c : Core) (q : Nat) : (s.setCore p c).ms q = s.ms q := rfl
@[simp] theorem State.setCore_obj (s : State) (p : Nat) (c : Core) (q o : Nat) :
    (s.setCore p c).obj q o = s.obj q o := rfl
@[simp] theorem State.setCore_exists_ (s : State) (p : Nat) (c : Core) (z0 : Nat) :
    (s.setCore p c).exists_ z0 = s.exists_ z0 := rfl
@[simp] theorem State.setCore_unbound (s : State) (p : Nat) (c : Core) (f : Nat) :
    (s.setCore p c).unbound f = s.unbound f := rfl
@[simp] theorem State.setCore_sees (s : State) (p : Nat) (c : Core) (fn : Nat) (b : BarBlock) :
    (s.setCore p c).sees fn b = s.sees fn b := rfl
@[simp] theorem State.setCore_mayWrite (s : State) (p : Nat) (c : Core) (src : Source) (b : BarBlock) :
    (s.setCore p c).mayWrite src b = s.mayWrite src b := rfl
@[simp] theorem State.setCore_seraiOn (s : State) (p : Nat) (c : Core) : (s.setCore p c).seraiOn = s.seraiOn := rfl
@[simp] theorem State.setCore_route (s : State) (p : Nat) (c : Core) (ok : LinkSt → Bool) (plane : Bool) (src dst f : Nat) :
    (s.setCore p c).route ok plane src dst f = s.route ok plane src dst f := rfl

@[simp] theorem State.setDie_pending (s : State) (n : Nat) (d : Die) : (s.setDie n d).pending = s.pending := rfl
@[simp] theorem State.setDie_free (s : State) (n : Nat) (d : Die) : (s.setDie n d).free = s.free := rfl
@[simp] theorem State.setDie_now (s : State) (n : Nat) (d : Die) : (s.setDie n d).now = s.now := rfl
@[simp] theorem State.setDie_fns (s : State) (n : Nat) (d : Die) : (s.setDie n d).fns = s.fns := rfl
@[simp] theorem State.setDie_host (s : State) (n : Nat) (d : Die) : (s.setDie n d).host = s.host := rfl
@[simp] theorem State.setDie_log (s : State) (n : Nat) (d : Die) : (s.setDie n d).log = s.log := rfl
@[simp] theorem State.setDie_mod (s : State) (n : Nat) (d : Die) : (s.setDie n d).mod = s.mod := rfl
@[simp] theorem State.setDie_phys (s : State) (n : Nat) (d : Die) : (s.setDie n d).phys = s.phys := rfl
@[simp] theorem State.setDie_mem (s : State) (n : Nat) (d : Die) : (s.setDie n d).mem = s.mem := rfl
@[simp] theorem State.setDie_cisDies (s : State) (n : Nat) (d : Die) : (s.setDie n d).cisDies = s.cisDies := rfl
@[simp] theorem State.setDie_cwy (s : State) (n : Nat) (d : Die) : (s.setDie n d).cwy = s.cwy := rfl
@[simp] theorem State.setDie_lostCopies (s : State) (n : Nat) (d : Die) :
    (s.setDie n d).lostCopies = s.lostCopies := rfl
@[simp] theorem State.setDie_cores (s : State) (n : Nat) (d : Die) : (s.setDie n d).cores = s.cores := rfl
@[simp] theorem State.setDie_parts (s : State) (n : Nat) (d : Die) : (s.setDie n d).parts = s.parts := rfl
@[simp] theorem State.setDie_links (s : State) (n : Nat) (d : Die) : (s.setDie n d).links = s.links := rfl
@[simp] theorem State.setDie_lanternCfg (s : State) (n : Nat) (d : Die) :
    (s.setDie n d).lanternCfg = s.lanternCfg := rfl
@[simp] theorem State.setDie_tollWait (s : State) (n : Nat) (d : Die) : (s.setDie n d).tollWait = s.tollWait := rfl
@[simp] theorem State.setDie_qps (s : State) (n : Nat) (d : Die) : (s.setDie n d).qps = s.qps := rfl
@[simp] theorem State.setDie_porters (s : State) (n : Nat) (d : Die) : (s.setDie n d).porters = s.porters := rfl
@[simp] theorem State.setDie_pages (s : State) (n : Nat) (d : Die) : (s.setDie n d).pages = s.pages := rfl
@[simp] theorem State.setDie_selfFrames (s : State) (n : Nat) (d : Die) :
    (s.setDie n d).selfFrames = s.selfFrames := rfl
@[simp] theorem State.setDie_regions (s : State) (n : Nat) (d : Die) : (s.setDie n d).regions = s.regions := rfl
@[simp] theorem State.setDie_convoys (s : State) (n : Nat) (d : Die) : (s.setDie n d).convoys = s.convoys := rfl
@[simp] theorem State.setDie_houses (s : State) (n : Nat) (d : Die) : (s.setDie n d).houses = s.houses := rfl
@[simp] theorem State.setDie_pendFrames (s : State) (n : Nat) (d : Die) :
    (s.setDie n d).pendFrames = s.pendFrames := rfl
@[simp] theorem State.setDie_nextFrameId (s : State) (n : Nat) (d : Die) :
    (s.setDie n d).nextFrameId = s.nextFrameId := rfl
@[simp] theorem State.setDie_customs (s : State) (n : Nat) (d : Die) : (s.setDie n d).customs = s.customs := rfl
@[simp] theorem State.setDie_cusParts (s : State) (n : Nat) (d : Die) : (s.setDie n d).cusParts = s.cusParts := rfl
@[simp] theorem State.setDie_pwr (s : State) (n : Nat) (d : Die) : (s.setDie n d).pwr = s.pwr := rfl
@[simp] theorem State.setDie_time (s : State) (n : Nat) (d : Die) : (s.setDie n d).time = s.time := rfl
@[simp] theorem State.setDie_life (s : State) (n : Nat) (d : Die) : (s.setDie n d).life = s.life := rfl
@[simp] theorem State.setDie_totals (s : State) (n : Nat) (d : Die) : (s.setDie n d).totals = s.totals := rfl
@[simp] theorem State.setDie_totSnap (s : State) (n : Nat) (d : Die) : (s.setDie n d).totSnap = s.totSnap := rfl
@[simp] theorem State.setDie_totTime (s : State) (n : Nat) (d : Die) : (s.setDie n d).totTime = s.totTime := rfl
@[simp] theorem State.setDie_gapSerai (s : State) (n : Nat) (d : Die) : (s.setDie n d).gapSerai = s.gapSerai := rfl
@[simp] theorem State.setDie_fn (s : State) (n : Nat) (d : Die) (f : Nat) : (s.setDie n d).fn f = s.fn f := rfl
@[simp] theorem State.setDie_queue (s : State) (n : Nat) (d : Die) (f q : Nat) :
    (s.setDie n d).queue f q = s.queue f q := rfl
@[simp] theorem State.setDie_core (s : State) (n : Nat) (d : Die) (p : Nat) :
    (s.setDie n d).core p = s.core p := rfl
@[simp] theorem State.setDie_part (s : State) (n : Nat) (d : Die) (p : Nat) :
    (s.setDie n d).part p = s.part p := rfl
@[simp] theorem State.setDie_cis (s : State) (n : Nat) (d : Die) (m : Nat) : (s.setDie n d).cis m = s.cis m := rfl
@[simp] theorem State.setDie_sense (s : State) (n : Nat) (d : Die) (z0 : Nat) :
    (s.setDie n d).sense z0 = s.sense z0 := rfl
@[simp] theorem State.setDie_clocked (s : State) (n : Nat) (d : Die) : (s.setDie n d).clocked = s.clocked := rfl
@[simp] theorem State.setDie_ownsCore (s : State) (n : Nat) (d : Die) (p l : Nat) :
    (s.setDie n d).ownsCore p l = s.ownsCore p l := rfl
@[simp] theorem State.setDie_partOf (s : State) (n : Nat) (d : Die) (l : Nat) :
    (s.setDie n d).partOf l = s.partOf l := rfl
@[simp] theorem State.setDie_partNo (s : State) (n : Nat) (d : Die) (l : Nat) :
    (s.setDie n d).partNo l = s.partNo l := rfl
@[simp] theorem State.setDie_coresOf (s : State) (n : Nat) (d : Die) (p : Nat) :
    (s.setDie n d).coresOf p = s.coresOf p := rfl
@[simp] theorem State.setDie_vfOf (s : State) (n : Nat) (d : Die) (p : Nat) :
    (s.setDie n d).vfOf p = s.vfOf p := rfl
@[simp] theorem State.setDie_fnOfPart (s : State) (n : Nat) (d : Die) (p : Nat) :
    (s.setDie n d).fnOfPart p = s.fnOfPart p := rfl
@[simp] theorem State.setDie_freeVal (s : State) (n : Nat) (d : Die) : (s.setDie n d).freeVal = s.freeVal := rfl
@[simp] theorem State.setDie_dieNow (s : State) (n : Nat) (d : Die) (z0 : Nat) :
    (s.setDie n d).dieNow z0 = s.dieNow z0 := rfl
@[simp] theorem State.setDie_stretched (s : State) (n : Nat) (d : Die) (z0 : Nat) :
    (s.setDie n d).stretched z0 = s.stretched z0 := rfl
@[simp] theorem State.setDie_mapped (s : State) (n : Nat) (d : Die) (a z1 : Nat) :
    (s.setDie n d).mapped a z1 = s.mapped a z1 := rfl
@[simp] theorem State.setDie_failedChan (s : State) (n : Nat) (d : Die) (a z1 : Nat) :
    (s.setDie n d).failedChan a z1 = s.failedChan a z1 := rfl
@[simp] theorem State.setDie_failedIn (s : State) (n : Nat) (d : Die) (segs : List (Nat × Nat)) :
    (s.setDie n d).failedIn segs = s.failedIn segs := rfl
@[simp] theorem State.setDie_link (s : State) (n : Nat) (d : Die) (l : Nat) :
    (s.setDie n d).link l = s.link l := rfl
@[simp] theorem State.setDie_lantern (s : State) (n : Nat) (d : Die) (m : Nat) :
    (s.setDie n d).lantern m = s.lantern m := rfl
@[simp] theorem State.setDie_coord (s : State) (n : Nat) (d : Die) : (s.setDie n d).coord = s.coord := rfl
@[simp] theorem State.setDie_qp (s : State) (n : Nat) (d : Die) (q : Nat) : (s.setDie n d).qp q = s.qp q := rfl
@[simp] theorem State.setDie_porter (s : State) (n : Nat) (d : Die) (m : Nat) :
    (s.setDie n d).porter m = s.porter m := rfl
@[simp] theorem State.setDie_page (s : State) (n : Nat) (d : Die) (m p : Nat) :
    (s.setDie n d).page m p = s.page m p := rfl
@[simp] theorem State.setDie_region (s : State) (n : Nat) (d : Die) (i : Nat) :
    (s.setDie n d).region i = s.region i := rfl
@[simp] theorem State.setDie_ownsQp (s : State) (n : Nat) (d : Die) (part q : Nat) :
    (s.setDie n d).ownsQp part q = s.ownsQp part q := rfl
@[simp] theorem State.setDie_convoy (s : State) (n : Nat) (d : Die) (p : Nat) :
    (s.setDie n d).convoy p = s.convoy p := rfl
@[simp] theorem State.setDie_house (s : State) (n : Nat) (d : Die) (z0 : Nat) :
    (s.setDie n d).house z0 = s.house z0 := rfl
@[simp] theorem State.setDie_cus (s : State) (n : Nat) (d : Die) (p : Nat) : (s.setDie n d).cus p = s.cus p := rfl
@[simp] theorem State.setDie_keySlot (s : State) (n : Nat) (d : Die) (i : Nat) :
    (s.setDie n d).keySlot i = s.keySlot i := rfl
@[simp] theorem State.setDie_slotRef (s : State) (n : Nat) (d : Die) (i : Nat) :
    (s.setDie n d).slotRef i = s.slotRef i := rfl
@[simp] theorem State.setDie_ms (s : State) (n : Nat) (d : Die) (q : Nat) : (s.setDie n d).ms q = s.ms q := rfl
@[simp] theorem State.setDie_obj (s : State) (n : Nat) (d : Die) (q o : Nat) :
    (s.setDie n d).obj q o = s.obj q o := rfl
@[simp] theorem State.setDie_exists_ (s : State) (n : Nat) (d : Die) (p : Nat) :
    (s.setDie n d).exists_ p = s.exists_ p := rfl
@[simp] theorem State.setDie_unbound (s : State) (n : Nat) (d : Die) (f : Nat) :
    (s.setDie n d).unbound f = s.unbound f := rfl
@[simp] theorem State.setDie_seraiOn (s : State) (n : Nat) (d : Die) : (s.setDie n d).seraiOn = s.seraiOn := rfl
@[simp] theorem State.setDie_route (s : State) (n : Nat) (d : Die) (ok : LinkSt → Bool) (plane : Bool) (src dst f : Nat) :
    (s.setDie n d).route ok plane src dst f = s.route ok plane src dst f := rfl

@[simp] theorem State.setPart_pending (s : State) (p : Nat) (x : Part) : (s.setPart p x).pending = s.pending := rfl
@[simp] theorem State.setPart_free (s : State) (p : Nat) (x : Part) : (s.setPart p x).free = s.free := rfl
@[simp] theorem State.setPart_now (s : State) (p : Nat) (x : Part) : (s.setPart p x).now = s.now := rfl
@[simp] theorem State.setPart_fns (s : State) (p : Nat) (x : Part) : (s.setPart p x).fns = s.fns := rfl
@[simp] theorem State.setPart_host (s : State) (p : Nat) (x : Part) : (s.setPart p x).host = s.host := rfl
@[simp] theorem State.setPart_log (s : State) (p : Nat) (x : Part) : (s.setPart p x).log = s.log := rfl
@[simp] theorem State.setPart_mod (s : State) (p : Nat) (x : Part) : (s.setPart p x).mod = s.mod := rfl
@[simp] theorem State.setPart_phys (s : State) (p : Nat) (x : Part) : (s.setPart p x).phys = s.phys := rfl
@[simp] theorem State.setPart_mem (s : State) (p : Nat) (x : Part) : (s.setPart p x).mem = s.mem := rfl
@[simp] theorem State.setPart_cisDies (s : State) (p : Nat) (x : Part) : (s.setPart p x).cisDies = s.cisDies := rfl
@[simp] theorem State.setPart_cwy (s : State) (p : Nat) (x : Part) : (s.setPart p x).cwy = s.cwy := rfl
@[simp] theorem State.setPart_lostCopies (s : State) (p : Nat) (x : Part) :
    (s.setPart p x).lostCopies = s.lostCopies := rfl
@[simp] theorem State.setPart_cores (s : State) (p : Nat) (x : Part) : (s.setPart p x).cores = s.cores := rfl
@[simp] theorem State.setPart_dies (s : State) (p : Nat) (x : Part) : (s.setPart p x).dies = s.dies := rfl
@[simp] theorem State.setPart_links (s : State) (p : Nat) (x : Part) : (s.setPart p x).links = s.links := rfl
@[simp] theorem State.setPart_lanternCfg (s : State) (p : Nat) (x : Part) :
    (s.setPart p x).lanternCfg = s.lanternCfg := rfl
@[simp] theorem State.setPart_tollWait (s : State) (p : Nat) (x : Part) :
    (s.setPart p x).tollWait = s.tollWait := rfl
@[simp] theorem State.setPart_qps (s : State) (p : Nat) (x : Part) : (s.setPart p x).qps = s.qps := rfl
@[simp] theorem State.setPart_porters (s : State) (p : Nat) (x : Part) : (s.setPart p x).porters = s.porters := rfl
@[simp] theorem State.setPart_pages (s : State) (p : Nat) (x : Part) : (s.setPart p x).pages = s.pages := rfl
@[simp] theorem State.setPart_selfFrames (s : State) (p : Nat) (x : Part) :
    (s.setPart p x).selfFrames = s.selfFrames := rfl
@[simp] theorem State.setPart_regions (s : State) (p : Nat) (x : Part) : (s.setPart p x).regions = s.regions := rfl
@[simp] theorem State.setPart_convoys (s : State) (p : Nat) (x : Part) : (s.setPart p x).convoys = s.convoys := rfl
@[simp] theorem State.setPart_houses (s : State) (p : Nat) (x : Part) : (s.setPart p x).houses = s.houses := rfl
@[simp] theorem State.setPart_pendFrames (s : State) (p : Nat) (x : Part) :
    (s.setPart p x).pendFrames = s.pendFrames := rfl
@[simp] theorem State.setPart_nextFrameId (s : State) (p : Nat) (x : Part) :
    (s.setPart p x).nextFrameId = s.nextFrameId := rfl
@[simp] theorem State.setPart_customs (s : State) (p : Nat) (x : Part) : (s.setPart p x).customs = s.customs := rfl
@[simp] theorem State.setPart_cusParts (s : State) (p : Nat) (x : Part) :
    (s.setPart p x).cusParts = s.cusParts := rfl
@[simp] theorem State.setPart_pwr (s : State) (p : Nat) (x : Part) : (s.setPart p x).pwr = s.pwr := rfl
@[simp] theorem State.setPart_time (s : State) (p : Nat) (x : Part) : (s.setPart p x).time = s.time := rfl
@[simp] theorem State.setPart_life (s : State) (p : Nat) (x : Part) : (s.setPart p x).life = s.life := rfl
@[simp] theorem State.setPart_totals (s : State) (p : Nat) (x : Part) : (s.setPart p x).totals = s.totals := rfl
@[simp] theorem State.setPart_totSnap (s : State) (p : Nat) (x : Part) : (s.setPart p x).totSnap = s.totSnap := rfl
@[simp] theorem State.setPart_totTime (s : State) (p : Nat) (x : Part) : (s.setPart p x).totTime = s.totTime := rfl
@[simp] theorem State.setPart_gapSerai (s : State) (p : Nat) (x : Part) :
    (s.setPart p x).gapSerai = s.gapSerai := rfl
@[simp] theorem State.setPart_fn (s : State) (p : Nat) (x : Part) (f : Nat) : (s.setPart p x).fn f = s.fn f := rfl
@[simp] theorem State.setPart_queue (s : State) (p : Nat) (x : Part) (f q : Nat) :
    (s.setPart p x).queue f q = s.queue f q := rfl
@[simp] theorem State.setPart_core (s : State) (p : Nat) (x : Part) (z0 : Nat) :
    (s.setPart p x).core z0 = s.core z0 := rfl
@[simp] theorem State.setPart_die (s : State) (p : Nat) (x : Part) (n : Nat) :
    (s.setPart p x).die n = s.die n := rfl
@[simp] theorem State.setPart_cis (s : State) (p : Nat) (x : Part) (m : Nat) :
    (s.setPart p x).cis m = s.cis m := rfl
@[simp] theorem State.setPart_sense (s : State) (p : Nat) (x : Part) (d : Nat) :
    (s.setPart p x).sense d = s.sense d := rfl
@[simp] theorem State.setPart_clocked (s : State) (p : Nat) (x : Part) : (s.setPart p x).clocked = s.clocked := rfl
@[simp] theorem State.setPart_physOf (s : State) (p : Nat) (x : Part) (l : Nat) :
    (s.setPart p x).physOf l = s.physOf l := rfl
@[simp] theorem State.setPart_logicalOf (s : State) (p : Nat) (x : Part) (z0 : Nat) :
    (s.setPart p x).logicalOf z0 = s.logicalOf z0 := rfl
@[simp] theorem State.setPart_freeVal (s : State) (p : Nat) (x : Part) : (s.setPart p x).freeVal = s.freeVal := rfl
@[simp] theorem State.setPart_dieNow (s : State) (p : Nat) (x : Part) (d : Nat) :
    (s.setPart p x).dieNow d = s.dieNow d := rfl
@[simp] theorem State.setPart_stretched (s : State) (p : Nat) (x : Part) (d : Nat) :
    (s.setPart p x).stretched d = s.stretched d := rfl
@[simp] theorem State.setPart_mapped (s : State) (p : Nat) (x : Part) (a n : Nat) :
    (s.setPart p x).mapped a n = s.mapped a n := rfl
@[simp] theorem State.setPart_failedChan (s : State) (p : Nat) (x : Part) (a n : Nat) :
    (s.setPart p x).failedChan a n = s.failedChan a n := rfl
@[simp] theorem State.setPart_failedStack (s : State) (p : Nat) (x : Part) (a n : Nat) :
    (s.setPart p x).failedStack a n = s.failedStack a n := rfl
@[simp] theorem State.setPart_failedIn (s : State) (p : Nat) (x : Part) (segs : List (Nat × Nat)) :
    (s.setPart p x).failedIn segs = s.failedIn segs := rfl
@[simp] theorem State.setPart_markAt (s : State) (p : Nat) (x : Part) (z0 a : Nat) :
    (s.setPart p x).markAt z0 a = s.markAt z0 a := rfl
@[simp] theorem State.setPart_byteAt (s : State) (p : Nat) (x : Part) (z0 a : Nat) :
    (s.setPart p x).byteAt z0 a = s.byteAt z0 a := rfl
@[simp] theorem State.setPart_bytesAt (s : State) (p : Nat) (x : Part) (z0 a n : Nat) :
    (s.setPart p x).bytesAt z0 a n = s.bytesAt z0 a n := rfl
@[simp] theorem State.setPart_wordAt (s : State) (p : Nat) (x : Part) (z0 a : Nat) :
    (s.setPart p x).wordAt z0 a = s.wordAt z0 a := rfl
@[simp] theorem State.setPart_bufRef (s : State) (p : Nat) (x : Part) (z0 q : Nat) (stm : BitVec 3) (r : BitVec 14) :
    (s.setPart p x).bufRef z0 q stm r = s.bufRef z0 q stm r := rfl
@[simp] theorem State.setPart_tok (s : State) (p : Nat) (x : Part) (z0 : Nat) (z1 : Buf) :
    (s.setPart p x).tok z0 z1 = s.tok z0 z1 := rfl
@[simp] theorem State.setPart_missing (s : State) (p : Nat) (x : Part) (z0 : Nat) (z1 : Buf) :
    (s.setPart p x).missing z0 z1 = s.missing z0 z1 := rfl
@[simp] theorem State.setPart_link (s : State) (p : Nat) (x : Part) (l : Nat) :
    (s.setPart p x).link l = s.link l := rfl
@[simp] theorem State.setPart_lantern (s : State) (p : Nat) (x : Part) (m : Nat) :
    (s.setPart p x).lantern m = s.lantern m := rfl
@[simp] theorem State.setPart_coord (s : State) (p : Nat) (x : Part) : (s.setPart p x).coord = s.coord := rfl
@[simp] theorem State.setPart_qp (s : State) (p : Nat) (x : Part) (q : Nat) : (s.setPart p x).qp q = s.qp q := rfl
@[simp] theorem State.setPart_porter (s : State) (p : Nat) (x : Part) (m : Nat) :
    (s.setPart p x).porter m = s.porter m := rfl
@[simp] theorem State.setPart_page (s : State) (p : Nat) (x : Part) (m z1 : Nat) :
    (s.setPart p x).page m z1 = s.page m z1 := rfl
@[simp] theorem State.setPart_region (s : State) (p : Nat) (x : Part) (i : Nat) :
    (s.setPart p x).region i = s.region i := rfl
@[simp] theorem State.setPart_convoy (s : State) (p : Nat) (x : Part) (z0 : Nat) :
    (s.setPart p x).convoy z0 = s.convoy z0 := rfl
@[simp] theorem State.setPart_house (s : State) (p : Nat) (x : Part) (n : Nat) :
    (s.setPart p x).house n = s.house n := rfl
@[simp] theorem State.setPart_cus (s : State) (p : Nat) (x : Part) (z0 : Nat) :
    (s.setPart p x).cus z0 = s.cus z0 := rfl
@[simp] theorem State.setPart_keySlot (s : State) (p : Nat) (x : Part) (i : Nat) :
    (s.setPart p x).keySlot i = s.keySlot i := rfl
@[simp] theorem State.setPart_slotRef (s : State) (p : Nat) (x : Part) (i : Nat) :
    (s.setPart p x).slotRef i = s.slotRef i := rfl
@[simp] theorem State.setPart_unbound (s : State) (p : Nat) (x : Part) (f : Nat) :
    (s.setPart p x).unbound f = s.unbound f := rfl
@[simp] theorem State.setPart_seraiOn (s : State) (p : Nat) (x : Part) : (s.setPart p x).seraiOn = s.seraiOn := rfl
@[simp] theorem State.setPart_route (s : State) (p : Nat) (x : Part) (ok : LinkSt → Bool) (plane : Bool) (src dst f : Nat) :
    (s.setPart p x).route ok plane src dst f = s.route ok plane src dst f := rfl

@[simp] theorem State.modCis_pending (s : State) (m : Nat) (g : CisDie → CisDie) :
    (s.modCis m g).pending = s.pending := rfl
@[simp] theorem State.modCis_free (s : State) (m : Nat) (g : CisDie → CisDie) : (s.modCis m g).free = s.free := rfl
@[simp] theorem State.modCis_now (s : State) (m : Nat) (g : CisDie → CisDie) : (s.modCis m g).now = s.now := rfl
@[simp] theorem State.modCis_fns (s : State) (m : Nat) (g : CisDie → CisDie) : (s.modCis m g).fns = s.fns := rfl
@[simp] theorem State.modCis_host (s : State) (m : Nat) (g : CisDie → CisDie) : (s.modCis m g).host = s.host := rfl
@[simp] theorem State.modCis_log (s : State) (m : Nat) (g : CisDie → CisDie) : (s.modCis m g).log = s.log := rfl
@[simp] theorem State.modCis_mod (s : State) (m : Nat) (g : CisDie → CisDie) : (s.modCis m g).mod = s.mod := rfl
@[simp] theorem State.modCis_phys (s : State) (m : Nat) (g : CisDie → CisDie) : (s.modCis m g).phys = s.phys := rfl
@[simp] theorem State.modCis_mem (s : State) (m : Nat) (g : CisDie → CisDie) : (s.modCis m g).mem = s.mem := rfl
@[simp] theorem State.modCis_cwy (s : State) (m : Nat) (g : CisDie → CisDie) : (s.modCis m g).cwy = s.cwy := rfl
@[simp] theorem State.modCis_lostCopies (s : State) (m : Nat) (g : CisDie → CisDie) :
    (s.modCis m g).lostCopies = s.lostCopies := rfl
@[simp] theorem State.modCis_cores (s : State) (m : Nat) (g : CisDie → CisDie) :
    (s.modCis m g).cores = s.cores := rfl
@[simp] theorem State.modCis_dies (s : State) (m : Nat) (g : CisDie → CisDie) : (s.modCis m g).dies = s.dies := rfl
@[simp] theorem State.modCis_parts (s : State) (m : Nat) (g : CisDie → CisDie) :
    (s.modCis m g).parts = s.parts := rfl
@[simp] theorem State.modCis_links (s : State) (m : Nat) (g : CisDie → CisDie) :
    (s.modCis m g).links = s.links := rfl
@[simp] theorem State.modCis_lanternCfg (s : State) (m : Nat) (g : CisDie → CisDie) :
    (s.modCis m g).lanternCfg = s.lanternCfg := rfl
@[simp] theorem State.modCis_tollWait (s : State) (m : Nat) (g : CisDie → CisDie) :
    (s.modCis m g).tollWait = s.tollWait := rfl
@[simp] theorem State.modCis_qps (s : State) (m : Nat) (g : CisDie → CisDie) : (s.modCis m g).qps = s.qps := rfl
@[simp] theorem State.modCis_porters (s : State) (m : Nat) (g : CisDie → CisDie) :
    (s.modCis m g).porters = s.porters := rfl
@[simp] theorem State.modCis_pages (s : State) (m : Nat) (g : CisDie → CisDie) :
    (s.modCis m g).pages = s.pages := rfl
@[simp] theorem State.modCis_selfFrames (s : State) (m : Nat) (g : CisDie → CisDie) :
    (s.modCis m g).selfFrames = s.selfFrames := rfl
@[simp] theorem State.modCis_regions (s : State) (m : Nat) (g : CisDie → CisDie) :
    (s.modCis m g).regions = s.regions := rfl
@[simp] theorem State.modCis_convoys (s : State) (m : Nat) (g : CisDie → CisDie) :
    (s.modCis m g).convoys = s.convoys := rfl
@[simp] theorem State.modCis_houses (s : State) (m : Nat) (g : CisDie → CisDie) :
    (s.modCis m g).houses = s.houses := rfl
@[simp] theorem State.modCis_pendFrames (s : State) (m : Nat) (g : CisDie → CisDie) :
    (s.modCis m g).pendFrames = s.pendFrames := rfl
@[simp] theorem State.modCis_nextFrameId (s : State) (m : Nat) (g : CisDie → CisDie) :
    (s.modCis m g).nextFrameId = s.nextFrameId := rfl
@[simp] theorem State.modCis_customs (s : State) (m : Nat) (g : CisDie → CisDie) :
    (s.modCis m g).customs = s.customs := rfl
@[simp] theorem State.modCis_cusParts (s : State) (m : Nat) (g : CisDie → CisDie) :
    (s.modCis m g).cusParts = s.cusParts := rfl
@[simp] theorem State.modCis_pwr (s : State) (m : Nat) (g : CisDie → CisDie) : (s.modCis m g).pwr = s.pwr := rfl
@[simp] theorem State.modCis_time (s : State) (m : Nat) (g : CisDie → CisDie) : (s.modCis m g).time = s.time := rfl
@[simp] theorem State.modCis_life (s : State) (m : Nat) (g : CisDie → CisDie) : (s.modCis m g).life = s.life := rfl
@[simp] theorem State.modCis_totals (s : State) (m : Nat) (g : CisDie → CisDie) :
    (s.modCis m g).totals = s.totals := rfl
@[simp] theorem State.modCis_totSnap (s : State) (m : Nat) (g : CisDie → CisDie) :
    (s.modCis m g).totSnap = s.totSnap := rfl
@[simp] theorem State.modCis_totTime (s : State) (m : Nat) (g : CisDie → CisDie) :
    (s.modCis m g).totTime = s.totTime := rfl
@[simp] theorem State.modCis_gapSerai (s : State) (m : Nat) (g : CisDie → CisDie) :
    (s.modCis m g).gapSerai = s.gapSerai := rfl
@[simp] theorem State.modCis_fn (s : State) (m : Nat) (g : CisDie → CisDie) (f : Nat) :
    (s.modCis m g).fn f = s.fn f := rfl
@[simp] theorem State.modCis_queue (s : State) (m : Nat) (g : CisDie → CisDie) (f q : Nat) :
    (s.modCis m g).queue f q = s.queue f q := rfl
@[simp] theorem State.modCis_core (s : State) (m : Nat) (g : CisDie → CisDie) (p : Nat) :
    (s.modCis m g).core p = s.core p := rfl
@[simp] theorem State.modCis_die (s : State) (m : Nat) (g : CisDie → CisDie) (n : Nat) :
    (s.modCis m g).die n = s.die n := rfl
@[simp] theorem State.modCis_part (s : State) (m : Nat) (g : CisDie → CisDie) (p : Nat) :
    (s.modCis m g).part p = s.part p := rfl
@[simp] theorem State.modCis_sense (s : State) (m : Nat) (g : CisDie → CisDie) (d : Nat) :
    (s.modCis m g).sense d = s.sense d := rfl
@[simp] theorem State.modCis_clocked (s : State) (m : Nat) (g : CisDie → CisDie) :
    (s.modCis m g).clocked = s.clocked := rfl
@[simp] theorem State.modCis_physOf (s : State) (m : Nat) (g : CisDie → CisDie) (l : Nat) :
    (s.modCis m g).physOf l = s.physOf l := rfl
@[simp] theorem State.modCis_logicalOf (s : State) (m : Nat) (g : CisDie → CisDie) (p : Nat) :
    (s.modCis m g).logicalOf p = s.logicalOf p := rfl
@[simp] theorem State.modCis_ownsCore (s : State) (m : Nat) (g : CisDie → CisDie) (p l : Nat) :
    (s.modCis m g).ownsCore p l = s.ownsCore p l := rfl
@[simp] theorem State.modCis_partOf (s : State) (m : Nat) (g : CisDie → CisDie) (l : Nat) :
    (s.modCis m g).partOf l = s.partOf l := rfl
@[simp] theorem State.modCis_partOfPhys (s : State) (m : Nat) (g : CisDie → CisDie) (p : Nat) :
    (s.modCis m g).partOfPhys p = s.partOfPhys p := rfl
@[simp] theorem State.modCis_partNo (s : State) (m : Nat) (g : CisDie → CisDie) (l : Nat) :
    (s.modCis m g).partNo l = s.partNo l := rfl
@[simp] theorem State.modCis_coresOf (s : State) (m : Nat) (g : CisDie → CisDie) (p : Nat) :
    (s.modCis m g).coresOf p = s.coresOf p := rfl
@[simp] theorem State.modCis_physOfPart (s : State) (m : Nat) (g : CisDie → CisDie) (p : Nat) :
    (s.modCis m g).physOfPart p = s.physOfPart p := rfl
@[simp] theorem State.modCis_vfOf (s : State) (m : Nat) (g : CisDie → CisDie) (p : Nat) :
    (s.modCis m g).vfOf p = s.vfOf p := rfl
@[simp] theorem State.modCis_fnOfPart (s : State) (m : Nat) (g : CisDie → CisDie) (p : Nat) :
    (s.modCis m g).fnOfPart p = s.fnOfPart p := rfl
@[simp] theorem State.modCis_freeVal (s : State) (m : Nat) (g : CisDie → CisDie) :
    (s.modCis m g).freeVal = s.freeVal := rfl
@[simp] theorem State.modCis_dieNow (s : State) (m : Nat) (g : CisDie → CisDie) (d : Nat) :
    (s.modCis m g).dieNow d = s.dieNow d := rfl
@[simp] theorem State.modCis_stretched (s : State) (m : Nat) (g : CisDie → CisDie) (d : Nat) :
    (s.modCis m g).stretched d = s.stretched d := rfl
@[simp] theorem State.modCis_mapped (s : State) (m : Nat) (g : CisDie → CisDie) (a n : Nat) :
    (s.modCis m g).mapped a n = s.mapped a n := rfl
@[simp] theorem State.modCis_inWindow (s : State) (m : Nat) (g : CisDie → CisDie) (q a n : Nat) :
    (s.modCis m g).inWindow q a n = s.inWindow q a n := rfl
@[simp] theorem State.modCis_admitted (s : State) (m : Nat) (g : CisDie → CisDie) (q : Nat) (byCore store : Bool) (a n : Nat) :
    (s.modCis m g).admitted q byCore store a n = s.admitted q byCore store a n := rfl
@[simp] theorem State.modCis_ownerOf (s : State) (m : Nat) (g : CisDie → CisDie) (a : Nat) :
    (s.modCis m g).ownerOf a = s.ownerOf a := rfl
@[simp] theorem State.modCis_failedStack (s : State) (m : Nat) (g : CisDie → CisDie) (a n : Nat) :
    (s.modCis m g).failedStack a n = s.failedStack a n := rfl
@[simp] theorem State.modCis_markAt (s : State) (m : Nat) (g : CisDie → CisDie) (p a : Nat) :
    (s.modCis m g).markAt p a = s.markAt p a := rfl
@[simp] theorem State.modCis_byteAt (s : State) (m : Nat) (g : CisDie → CisDie) (p a : Nat) :
    (s.modCis m g).byteAt p a = s.byteAt p a := rfl
@[simp] theorem State.modCis_bytesAt (s : State) (m : Nat) (g : CisDie → CisDie) (p a n : Nat) :
    (s.modCis m g).bytesAt p a n = s.bytesAt p a n := rfl
@[simp] theorem State.modCis_wordAt (s : State) (m : Nat) (g : CisDie → CisDie) (p a : Nat) :
    (s.modCis m g).wordAt p a = s.wordAt p a := rfl
@[simp] theorem State.modCis_bufRef (s : State) (m : Nat) (g : CisDie → CisDie) (p q : Nat) (stm : BitVec 3) (r : BitVec 14) :
    (s.modCis m g).bufRef p q stm r = s.bufRef p q stm r := rfl
@[simp] theorem State.modCis_tok (s : State) (m : Nat) (g : CisDie → CisDie) (p : Nat) (z1 : Buf) :
    (s.modCis m g).tok p z1 = s.tok p z1 := rfl
@[simp] theorem State.modCis_missing (s : State) (m : Nat) (g : CisDie → CisDie) (p : Nat) (z1 : Buf) :
    (s.modCis m g).missing p z1 = s.missing p z1 := rfl
@[simp] theorem State.modCis_usedPhys (s : State) (m : Nat) (g : CisDie → CisDie) (q : Nat) :
    (s.modCis m g).usedPhys q = s.usedPhys q := rfl
@[simp] theorem State.modCis_link (s : State) (m : Nat) (g : CisDie → CisDie) (l : Nat) :
    (s.modCis m g).link l = s.link l := rfl
@[simp] theorem State.modCis_lantern (s : State) (m : Nat) (g : CisDie → CisDie) (z0 : Nat) :
    (s.modCis m g).lantern z0 = s.lantern z0 := rfl
@[simp] theorem State.modCis_coord (s : State) (m : Nat) (g : CisDie → CisDie) :
    (s.modCis m g).coord = s.coord := rfl
@[simp] theorem State.modCis_qp (s : State) (m : Nat) (g : CisDie → CisDie) (q : Nat) :
    (s.modCis m g).qp q = s.qp q := rfl
@[simp] theorem State.modCis_porter (s : State) (m : Nat) (g : CisDie → CisDie) (z0 : Nat) :
    (s.modCis m g).porter z0 = s.porter z0 := rfl
@[simp] theorem State.modCis_page (s : State) (m : Nat) (g : CisDie → CisDie) (z0 p : Nat) :
    (s.modCis m g).page z0 p = s.page z0 p := rfl
@[simp] theorem State.modCis_region (s : State) (m : Nat) (g : CisDie → CisDie) (i : Nat) :
    (s.modCis m g).region i = s.region i := rfl
@[simp] theorem State.modCis_ownsQp (s : State) (m : Nat) (g : CisDie → CisDie) (part q : Nat) :
    (s.modCis m g).ownsQp part q = s.ownsQp part q := rfl
@[simp] theorem State.modCis_convoy (s : State) (m : Nat) (g : CisDie → CisDie) (p : Nat) :
    (s.modCis m g).convoy p = s.convoy p := rfl
@[simp] theorem State.modCis_house (s : State) (m : Nat) (g : CisDie → CisDie) (n : Nat) :
    (s.modCis m g).house n = s.house n := rfl
@[simp] theorem State.modCis_cus (s : State) (m : Nat) (g : CisDie → CisDie) (p : Nat) :
    (s.modCis m g).cus p = s.cus p := rfl
@[simp] theorem State.modCis_keySlot (s : State) (m : Nat) (g : CisDie → CisDie) (i : Nat) :
    (s.modCis m g).keySlot i = s.keySlot i := rfl
@[simp] theorem State.modCis_slotRef (s : State) (m : Nat) (g : CisDie → CisDie) (i : Nat) :
    (s.modCis m g).slotRef i = s.slotRef i := rfl
@[simp] theorem State.modCis_ms (s : State) (m : Nat) (g : CisDie → CisDie) (q : Nat) :
    (s.modCis m g).ms q = s.ms q := rfl
@[simp] theorem State.modCis_obj (s : State) (m : Nat) (g : CisDie → CisDie) (q o : Nat) :
    (s.modCis m g).obj q o = s.obj q o := rfl
@[simp] theorem State.modCis_exists_ (s : State) (m : Nat) (g : CisDie → CisDie) (p : Nat) :
    (s.modCis m g).exists_ p = s.exists_ p := rfl
@[simp] theorem State.modCis_unbound (s : State) (m : Nat) (g : CisDie → CisDie) (f : Nat) :
    (s.modCis m g).unbound f = s.unbound f := rfl
@[simp] theorem State.modCis_sees (s : State) (m : Nat) (g : CisDie → CisDie) (fn : Nat) (b : BarBlock) :
    (s.modCis m g).sees fn b = s.sees fn b := rfl
@[simp] theorem State.modCis_mayWrite (s : State) (m : Nat) (g : CisDie → CisDie) (src : Source) (b : BarBlock) :
    (s.modCis m g).mayWrite src b = s.mayWrite src b := rfl
@[simp] theorem State.modCis_seraiOn (s : State) (m : Nat) (g : CisDie → CisDie) :
    (s.modCis m g).seraiOn = s.seraiOn := rfl
@[simp] theorem State.modCis_issuing (s : State) (m : Nat) (g : CisDie → CisDie) (l : Nat) :
    (s.modCis m g).issuing l = s.issuing l := rfl
@[simp] theorem State.modCis_waiting (s : State) (m : Nat) (g : CisDie → CisDie) (l : Nat) :
    (s.modCis m g).waiting l = s.waiting l := rfl
@[simp] theorem State.modCis_route (s : State) (m : Nat) (g : CisDie → CisDie) (ok : LinkSt → Bool) (plane : Bool) (src dst f : Nat) :
    (s.modCis m g).route ok plane src dst f = s.route ok plane src dst f := rfl

@[simp] theorem State.useFree_pending (s : State) : (s.useFree).pending = s.pending := rfl
@[simp] theorem State.useFree_now (s : State) : (s.useFree).now = s.now := rfl
@[simp] theorem State.useFree_fns (s : State) : (s.useFree).fns = s.fns := rfl
@[simp] theorem State.useFree_host (s : State) : (s.useFree).host = s.host := rfl
@[simp] theorem State.useFree_log (s : State) : (s.useFree).log = s.log := rfl
@[simp] theorem State.useFree_mod (s : State) : (s.useFree).mod = s.mod := rfl
@[simp] theorem State.useFree_phys (s : State) : (s.useFree).phys = s.phys := rfl
@[simp] theorem State.useFree_mem (s : State) : (s.useFree).mem = s.mem := rfl
@[simp] theorem State.useFree_cisDies (s : State) : (s.useFree).cisDies = s.cisDies := rfl
@[simp] theorem State.useFree_cwy (s : State) : (s.useFree).cwy = s.cwy := rfl
@[simp] theorem State.useFree_lostCopies (s : State) : (s.useFree).lostCopies = s.lostCopies := rfl
@[simp] theorem State.useFree_cores (s : State) : (s.useFree).cores = s.cores := rfl
@[simp] theorem State.useFree_dies (s : State) : (s.useFree).dies = s.dies := rfl
@[simp] theorem State.useFree_parts (s : State) : (s.useFree).parts = s.parts := rfl
@[simp] theorem State.useFree_links (s : State) : (s.useFree).links = s.links := rfl
@[simp] theorem State.useFree_lanternCfg (s : State) : (s.useFree).lanternCfg = s.lanternCfg := rfl
@[simp] theorem State.useFree_tollWait (s : State) : (s.useFree).tollWait = s.tollWait := rfl
@[simp] theorem State.useFree_qps (s : State) : (s.useFree).qps = s.qps := rfl
@[simp] theorem State.useFree_porters (s : State) : (s.useFree).porters = s.porters := rfl
@[simp] theorem State.useFree_pages (s : State) : (s.useFree).pages = s.pages := rfl
@[simp] theorem State.useFree_selfFrames (s : State) : (s.useFree).selfFrames = s.selfFrames := rfl
@[simp] theorem State.useFree_regions (s : State) : (s.useFree).regions = s.regions := rfl
@[simp] theorem State.useFree_convoys (s : State) : (s.useFree).convoys = s.convoys := rfl
@[simp] theorem State.useFree_houses (s : State) : (s.useFree).houses = s.houses := rfl
@[simp] theorem State.useFree_pendFrames (s : State) : (s.useFree).pendFrames = s.pendFrames := rfl
@[simp] theorem State.useFree_nextFrameId (s : State) : (s.useFree).nextFrameId = s.nextFrameId := rfl
@[simp] theorem State.useFree_customs (s : State) : (s.useFree).customs = s.customs := rfl
@[simp] theorem State.useFree_cusParts (s : State) : (s.useFree).cusParts = s.cusParts := rfl
@[simp] theorem State.useFree_pwr (s : State) : (s.useFree).pwr = s.pwr := rfl
@[simp] theorem State.useFree_time (s : State) : (s.useFree).time = s.time := rfl
@[simp] theorem State.useFree_life (s : State) : (s.useFree).life = s.life := rfl
@[simp] theorem State.useFree_totals (s : State) : (s.useFree).totals = s.totals := rfl
@[simp] theorem State.useFree_totSnap (s : State) : (s.useFree).totSnap = s.totSnap := rfl
@[simp] theorem State.useFree_totTime (s : State) : (s.useFree).totTime = s.totTime := rfl
@[simp] theorem State.useFree_gapSerai (s : State) : (s.useFree).gapSerai = s.gapSerai := rfl
@[simp] theorem State.useFree_fn (s : State) (f : Nat) : (s.useFree).fn f = s.fn f := rfl
@[simp] theorem State.useFree_queue (s : State) (f q : Nat) : (s.useFree).queue f q = s.queue f q := rfl
@[simp] theorem State.useFree_core (s : State) (p : Nat) : (s.useFree).core p = s.core p := rfl
@[simp] theorem State.useFree_die (s : State) (n : Nat) : (s.useFree).die n = s.die n := rfl
@[simp] theorem State.useFree_part (s : State) (p : Nat) : (s.useFree).part p = s.part p := rfl
@[simp] theorem State.useFree_cis (s : State) (m : Nat) : (s.useFree).cis m = s.cis m := rfl
@[simp] theorem State.useFree_sense (s : State) (d : Nat) : (s.useFree).sense d = s.sense d := rfl
@[simp] theorem State.useFree_clocked (s : State) : (s.useFree).clocked = s.clocked := rfl
@[simp] theorem State.useFree_physOf (s : State) (l : Nat) : (s.useFree).physOf l = s.physOf l := rfl
@[simp] theorem State.useFree_logicalOf (s : State) (p : Nat) : (s.useFree).logicalOf p = s.logicalOf p := rfl
@[simp] theorem State.useFree_ownsCore (s : State) (p l : Nat) : (s.useFree).ownsCore p l = s.ownsCore p l := rfl
@[simp] theorem State.useFree_partOf (s : State) (l : Nat) : (s.useFree).partOf l = s.partOf l := rfl
@[simp] theorem State.useFree_partOfPhys (s : State) (p : Nat) : (s.useFree).partOfPhys p = s.partOfPhys p := rfl
@[simp] theorem State.useFree_partNo (s : State) (l : Nat) : (s.useFree).partNo l = s.partNo l := rfl
@[simp] theorem State.useFree_coresOf (s : State) (p : Nat) : (s.useFree).coresOf p = s.coresOf p := rfl
@[simp] theorem State.useFree_physOfPart (s : State) (p : Nat) : (s.useFree).physOfPart p = s.physOfPart p := rfl
@[simp] theorem State.useFree_vfOf (s : State) (p : Nat) : (s.useFree).vfOf p = s.vfOf p := rfl
@[simp] theorem State.useFree_fnOfPart (s : State) (p : Nat) : (s.useFree).fnOfPart p = s.fnOfPart p := rfl
@[simp] theorem State.useFree_dieNow (s : State) (d : Nat) : (s.useFree).dieNow d = s.dieNow d := rfl
@[simp] theorem State.useFree_stretched (s : State) (d : Nat) : (s.useFree).stretched d = s.stretched d := rfl
@[simp] theorem State.useFree_mapped (s : State) (a n : Nat) : (s.useFree).mapped a n = s.mapped a n := rfl
@[simp] theorem State.useFree_inWindow (s : State) (q a n : Nat) :
    (s.useFree).inWindow q a n = s.inWindow q a n := rfl
@[simp] theorem State.useFree_admitted (s : State) (q : Nat) (byCore store : Bool) (a n : Nat) :
    (s.useFree).admitted q byCore store a n = s.admitted q byCore store a n := rfl
@[simp] theorem State.useFree_ownerOf (s : State) (a : Nat) : (s.useFree).ownerOf a = s.ownerOf a := rfl
@[simp] theorem State.useFree_failedChan (s : State) (a n : Nat) :
    (s.useFree).failedChan a n = s.failedChan a n := rfl
@[simp] theorem State.useFree_failedStack (s : State) (a n : Nat) :
    (s.useFree).failedStack a n = s.failedStack a n := rfl
@[simp] theorem State.useFree_failedIn (s : State) (segs : List (Nat × Nat)) :
    (s.useFree).failedIn segs = s.failedIn segs := rfl
@[simp] theorem State.useFree_markAt (s : State) (p a : Nat) : (s.useFree).markAt p a = s.markAt p a := rfl
@[simp] theorem State.useFree_byteAt (s : State) (p a : Nat) : (s.useFree).byteAt p a = s.byteAt p a := rfl
@[simp] theorem State.useFree_bytesAt (s : State) (p a n : Nat) : (s.useFree).bytesAt p a n = s.bytesAt p a n := rfl
@[simp] theorem State.useFree_wordAt (s : State) (p a : Nat) : (s.useFree).wordAt p a = s.wordAt p a := rfl
@[simp] theorem State.useFree_bufRef (s : State) (p q : Nat) (stm : BitVec 3) (r : BitVec 14) :
    (s.useFree).bufRef p q stm r = s.bufRef p q stm r := rfl
@[simp] theorem State.useFree_tok (s : State) (p : Nat) (z1 : Buf) : (s.useFree).tok p z1 = s.tok p z1 := rfl
@[simp] theorem State.useFree_missing (s : State) (p : Nat) (z1 : Buf) :
    (s.useFree).missing p z1 = s.missing p z1 := rfl
@[simp] theorem State.useFree_usedPhys (s : State) (q : Nat) : (s.useFree).usedPhys q = s.usedPhys q := rfl
@[simp] theorem State.useFree_link (s : State) (l : Nat) : (s.useFree).link l = s.link l := rfl
@[simp] theorem State.useFree_lantern (s : State) (m : Nat) : (s.useFree).lantern m = s.lantern m := rfl
@[simp] theorem State.useFree_coord (s : State) : (s.useFree).coord = s.coord := rfl
@[simp] theorem State.useFree_qp (s : State) (q : Nat) : (s.useFree).qp q = s.qp q := rfl
@[simp] theorem State.useFree_porter (s : State) (m : Nat) : (s.useFree).porter m = s.porter m := rfl
@[simp] theorem State.useFree_page (s : State) (m p : Nat) : (s.useFree).page m p = s.page m p := rfl
@[simp] theorem State.useFree_region (s : State) (i : Nat) : (s.useFree).region i = s.region i := rfl
@[simp] theorem State.useFree_ownsQp (s : State) (part q : Nat) : (s.useFree).ownsQp part q = s.ownsQp part q := rfl
@[simp] theorem State.useFree_convoy (s : State) (p : Nat) : (s.useFree).convoy p = s.convoy p := rfl
@[simp] theorem State.useFree_house (s : State) (n : Nat) : (s.useFree).house n = s.house n := rfl
@[simp] theorem State.useFree_cus (s : State) (p : Nat) : (s.useFree).cus p = s.cus p := rfl
@[simp] theorem State.useFree_keySlot (s : State) (i : Nat) : (s.useFree).keySlot i = s.keySlot i := rfl
@[simp] theorem State.useFree_slotRef (s : State) (i : Nat) : (s.useFree).slotRef i = s.slotRef i := rfl
@[simp] theorem State.useFree_ms (s : State) (q : Nat) : (s.useFree).ms q = s.ms q := rfl
@[simp] theorem State.useFree_obj (s : State) (q o : Nat) : (s.useFree).obj q o = s.obj q o := rfl
@[simp] theorem State.useFree_exists_ (s : State) (p : Nat) : (s.useFree).exists_ p = s.exists_ p := rfl
@[simp] theorem State.useFree_unbound (s : State) (f : Nat) : (s.useFree).unbound f = s.unbound f := rfl
@[simp] theorem State.useFree_sees (s : State) (fn : Nat) (b : BarBlock) :
    (s.useFree).sees fn b = s.sees fn b := rfl
@[simp] theorem State.useFree_mayWrite (s : State) (src : Source) (b : BarBlock) :
    (s.useFree).mayWrite src b = s.mayWrite src b := rfl
@[simp] theorem State.useFree_seraiOn (s : State) : (s.useFree).seraiOn = s.seraiOn := rfl
@[simp] theorem State.useFree_issuing (s : State) (l : Nat) : (s.useFree).issuing l = s.issuing l := rfl
@[simp] theorem State.useFree_waiting (s : State) (l : Nat) : (s.useFree).waiting l = s.waiting l := rfl
@[simp] theorem State.useFree_route (s : State) (ok : LinkSt → Bool) (plane : Bool) (src dst f : Nat) :
    (s.useFree).route ok plane src dst f = s.route ok plane src dst f := rfl

@[simp] theorem State.modLife_pending (s : State) (g : LifeRec → LifeRec) : (s.modLife g).pending = s.pending := rfl
@[simp] theorem State.modLife_free (s : State) (g : LifeRec → LifeRec) : (s.modLife g).free = s.free := rfl
@[simp] theorem State.modLife_now (s : State) (g : LifeRec → LifeRec) : (s.modLife g).now = s.now := rfl
@[simp] theorem State.modLife_fns (s : State) (g : LifeRec → LifeRec) : (s.modLife g).fns = s.fns := rfl
@[simp] theorem State.modLife_host (s : State) (g : LifeRec → LifeRec) : (s.modLife g).host = s.host := rfl
@[simp] theorem State.modLife_log (s : State) (g : LifeRec → LifeRec) : (s.modLife g).log = s.log := rfl
@[simp] theorem State.modLife_mod (s : State) (g : LifeRec → LifeRec) : (s.modLife g).mod = s.mod := rfl
@[simp] theorem State.modLife_phys (s : State) (g : LifeRec → LifeRec) : (s.modLife g).phys = s.phys := rfl
@[simp] theorem State.modLife_mem (s : State) (g : LifeRec → LifeRec) : (s.modLife g).mem = s.mem := rfl
@[simp] theorem State.modLife_cisDies (s : State) (g : LifeRec → LifeRec) : (s.modLife g).cisDies = s.cisDies := rfl
@[simp] theorem State.modLife_cwy (s : State) (g : LifeRec → LifeRec) : (s.modLife g).cwy = s.cwy := rfl
@[simp] theorem State.modLife_lostCopies (s : State) (g : LifeRec → LifeRec) :
    (s.modLife g).lostCopies = s.lostCopies := rfl
@[simp] theorem State.modLife_cores (s : State) (g : LifeRec → LifeRec) : (s.modLife g).cores = s.cores := rfl
@[simp] theorem State.modLife_dies (s : State) (g : LifeRec → LifeRec) : (s.modLife g).dies = s.dies := rfl
@[simp] theorem State.modLife_parts (s : State) (g : LifeRec → LifeRec) : (s.modLife g).parts = s.parts := rfl
@[simp] theorem State.modLife_links (s : State) (g : LifeRec → LifeRec) : (s.modLife g).links = s.links := rfl
@[simp] theorem State.modLife_lanternCfg (s : State) (g : LifeRec → LifeRec) :
    (s.modLife g).lanternCfg = s.lanternCfg := rfl
@[simp] theorem State.modLife_tollWait (s : State) (g : LifeRec → LifeRec) :
    (s.modLife g).tollWait = s.tollWait := rfl
@[simp] theorem State.modLife_qps (s : State) (g : LifeRec → LifeRec) : (s.modLife g).qps = s.qps := rfl
@[simp] theorem State.modLife_porters (s : State) (g : LifeRec → LifeRec) : (s.modLife g).porters = s.porters := rfl
@[simp] theorem State.modLife_pages (s : State) (g : LifeRec → LifeRec) : (s.modLife g).pages = s.pages := rfl
@[simp] theorem State.modLife_selfFrames (s : State) (g : LifeRec → LifeRec) :
    (s.modLife g).selfFrames = s.selfFrames := rfl
@[simp] theorem State.modLife_regions (s : State) (g : LifeRec → LifeRec) : (s.modLife g).regions = s.regions := rfl
@[simp] theorem State.modLife_convoys (s : State) (g : LifeRec → LifeRec) : (s.modLife g).convoys = s.convoys := rfl
@[simp] theorem State.modLife_houses (s : State) (g : LifeRec → LifeRec) : (s.modLife g).houses = s.houses := rfl
@[simp] theorem State.modLife_pendFrames (s : State) (g : LifeRec → LifeRec) :
    (s.modLife g).pendFrames = s.pendFrames := rfl
@[simp] theorem State.modLife_nextFrameId (s : State) (g : LifeRec → LifeRec) :
    (s.modLife g).nextFrameId = s.nextFrameId := rfl
@[simp] theorem State.modLife_customs (s : State) (g : LifeRec → LifeRec) : (s.modLife g).customs = s.customs := rfl
@[simp] theorem State.modLife_cusParts (s : State) (g : LifeRec → LifeRec) :
    (s.modLife g).cusParts = s.cusParts := rfl
@[simp] theorem State.modLife_pwr (s : State) (g : LifeRec → LifeRec) : (s.modLife g).pwr = s.pwr := rfl
@[simp] theorem State.modLife_time (s : State) (g : LifeRec → LifeRec) : (s.modLife g).time = s.time := rfl
@[simp] theorem State.modLife_totals (s : State) (g : LifeRec → LifeRec) : (s.modLife g).totals = s.totals := rfl
@[simp] theorem State.modLife_totSnap (s : State) (g : LifeRec → LifeRec) : (s.modLife g).totSnap = s.totSnap := rfl
@[simp] theorem State.modLife_totTime (s : State) (g : LifeRec → LifeRec) : (s.modLife g).totTime = s.totTime := rfl
@[simp] theorem State.modLife_gapSerai (s : State) (g : LifeRec → LifeRec) :
    (s.modLife g).gapSerai = s.gapSerai := rfl
@[simp] theorem State.modLife_fn (s : State) (g : LifeRec → LifeRec) (f : Nat) : (s.modLife g).fn f = s.fn f := rfl
@[simp] theorem State.modLife_queue (s : State) (g : LifeRec → LifeRec) (f q : Nat) :
    (s.modLife g).queue f q = s.queue f q := rfl
@[simp] theorem State.modLife_core (s : State) (g : LifeRec → LifeRec) (p : Nat) :
    (s.modLife g).core p = s.core p := rfl
@[simp] theorem State.modLife_die (s : State) (g : LifeRec → LifeRec) (n : Nat) :
    (s.modLife g).die n = s.die n := rfl
@[simp] theorem State.modLife_part (s : State) (g : LifeRec → LifeRec) (p : Nat) :
    (s.modLife g).part p = s.part p := rfl
@[simp] theorem State.modLife_cis (s : State) (g : LifeRec → LifeRec) (m : Nat) :
    (s.modLife g).cis m = s.cis m := rfl
@[simp] theorem State.modLife_sense (s : State) (g : LifeRec → LifeRec) (d : Nat) :
    (s.modLife g).sense d = s.sense d := rfl
@[simp] theorem State.modLife_clocked (s : State) (g : LifeRec → LifeRec) : (s.modLife g).clocked = s.clocked := rfl
@[simp] theorem State.modLife_physOf (s : State) (g : LifeRec → LifeRec) (l : Nat) :
    (s.modLife g).physOf l = s.physOf l := rfl
@[simp] theorem State.modLife_logicalOf (s : State) (g : LifeRec → LifeRec) (p : Nat) :
    (s.modLife g).logicalOf p = s.logicalOf p := rfl
@[simp] theorem State.modLife_ownsCore (s : State) (g : LifeRec → LifeRec) (p l : Nat) :
    (s.modLife g).ownsCore p l = s.ownsCore p l := rfl
@[simp] theorem State.modLife_partOf (s : State) (g : LifeRec → LifeRec) (l : Nat) :
    (s.modLife g).partOf l = s.partOf l := rfl
@[simp] theorem State.modLife_partOfPhys (s : State) (g : LifeRec → LifeRec) (p : Nat) :
    (s.modLife g).partOfPhys p = s.partOfPhys p := rfl
@[simp] theorem State.modLife_partNo (s : State) (g : LifeRec → LifeRec) (l : Nat) :
    (s.modLife g).partNo l = s.partNo l := rfl
@[simp] theorem State.modLife_coresOf (s : State) (g : LifeRec → LifeRec) (p : Nat) :
    (s.modLife g).coresOf p = s.coresOf p := rfl
@[simp] theorem State.modLife_physOfPart (s : State) (g : LifeRec → LifeRec) (p : Nat) :
    (s.modLife g).physOfPart p = s.physOfPart p := rfl
@[simp] theorem State.modLife_vfOf (s : State) (g : LifeRec → LifeRec) (p : Nat) :
    (s.modLife g).vfOf p = s.vfOf p := rfl
@[simp] theorem State.modLife_fnOfPart (s : State) (g : LifeRec → LifeRec) (p : Nat) :
    (s.modLife g).fnOfPart p = s.fnOfPart p := rfl
@[simp] theorem State.modLife_freeVal (s : State) (g : LifeRec → LifeRec) : (s.modLife g).freeVal = s.freeVal := rfl
@[simp] theorem State.modLife_dieNow (s : State) (g : LifeRec → LifeRec) (d : Nat) :
    (s.modLife g).dieNow d = s.dieNow d := rfl
@[simp] theorem State.modLife_stretched (s : State) (g : LifeRec → LifeRec) (d : Nat) :
    (s.modLife g).stretched d = s.stretched d := rfl
@[simp] theorem State.modLife_mapped (s : State) (g : LifeRec → LifeRec) (a n : Nat) :
    (s.modLife g).mapped a n = s.mapped a n := rfl
@[simp] theorem State.modLife_inWindow (s : State) (g : LifeRec → LifeRec) (q a n : Nat) :
    (s.modLife g).inWindow q a n = s.inWindow q a n := rfl
@[simp] theorem State.modLife_admitted (s : State) (g : LifeRec → LifeRec) (q : Nat) (byCore store : Bool) (a n : Nat) :
    (s.modLife g).admitted q byCore store a n = s.admitted q byCore store a n := rfl
@[simp] theorem State.modLife_ownerOf (s : State) (g : LifeRec → LifeRec) (a : Nat) :
    (s.modLife g).ownerOf a = s.ownerOf a := rfl
@[simp] theorem State.modLife_failedChan (s : State) (g : LifeRec → LifeRec) (a n : Nat) :
    (s.modLife g).failedChan a n = s.failedChan a n := rfl
@[simp] theorem State.modLife_failedStack (s : State) (g : LifeRec → LifeRec) (a n : Nat) :
    (s.modLife g).failedStack a n = s.failedStack a n := rfl
@[simp] theorem State.modLife_failedIn (s : State) (g : LifeRec → LifeRec) (segs : List (Nat × Nat)) :
    (s.modLife g).failedIn segs = s.failedIn segs := rfl
@[simp] theorem State.modLife_markAt (s : State) (g : LifeRec → LifeRec) (p a : Nat) :
    (s.modLife g).markAt p a = s.markAt p a := rfl
@[simp] theorem State.modLife_byteAt (s : State) (g : LifeRec → LifeRec) (p a : Nat) :
    (s.modLife g).byteAt p a = s.byteAt p a := rfl
@[simp] theorem State.modLife_bytesAt (s : State) (g : LifeRec → LifeRec) (p a n : Nat) :
    (s.modLife g).bytesAt p a n = s.bytesAt p a n := rfl
@[simp] theorem State.modLife_wordAt (s : State) (g : LifeRec → LifeRec) (p a : Nat) :
    (s.modLife g).wordAt p a = s.wordAt p a := rfl
@[simp] theorem State.modLife_bufRef (s : State) (g : LifeRec → LifeRec) (p q : Nat) (stm : BitVec 3) (r : BitVec 14) :
    (s.modLife g).bufRef p q stm r = s.bufRef p q stm r := rfl
@[simp] theorem State.modLife_tok (s : State) (g : LifeRec → LifeRec) (p : Nat) (z1 : Buf) :
    (s.modLife g).tok p z1 = s.tok p z1 := rfl
@[simp] theorem State.modLife_missing (s : State) (g : LifeRec → LifeRec) (p : Nat) (z1 : Buf) :
    (s.modLife g).missing p z1 = s.missing p z1 := rfl
@[simp] theorem State.modLife_usedPhys (s : State) (g : LifeRec → LifeRec) (q : Nat) :
    (s.modLife g).usedPhys q = s.usedPhys q := rfl
@[simp] theorem State.modLife_link (s : State) (g : LifeRec → LifeRec) (l : Nat) :
    (s.modLife g).link l = s.link l := rfl
@[simp] theorem State.modLife_lantern (s : State) (g : LifeRec → LifeRec) (m : Nat) :
    (s.modLife g).lantern m = s.lantern m := rfl
@[simp] theorem State.modLife_coord (s : State) (g : LifeRec → LifeRec) : (s.modLife g).coord = s.coord := rfl
@[simp] theorem State.modLife_qp (s : State) (g : LifeRec → LifeRec) (q : Nat) : (s.modLife g).qp q = s.qp q := rfl
@[simp] theorem State.modLife_porter (s : State) (g : LifeRec → LifeRec) (m : Nat) :
    (s.modLife g).porter m = s.porter m := rfl
@[simp] theorem State.modLife_page (s : State) (g : LifeRec → LifeRec) (m p : Nat) :
    (s.modLife g).page m p = s.page m p := rfl
@[simp] theorem State.modLife_region (s : State) (g : LifeRec → LifeRec) (i : Nat) :
    (s.modLife g).region i = s.region i := rfl
@[simp] theorem State.modLife_ownsQp (s : State) (g : LifeRec → LifeRec) (part q : Nat) :
    (s.modLife g).ownsQp part q = s.ownsQp part q := rfl
@[simp] theorem State.modLife_convoy (s : State) (g : LifeRec → LifeRec) (p : Nat) :
    (s.modLife g).convoy p = s.convoy p := rfl
@[simp] theorem State.modLife_house (s : State) (g : LifeRec → LifeRec) (n : Nat) :
    (s.modLife g).house n = s.house n := rfl
@[simp] theorem State.modLife_cus (s : State) (g : LifeRec → LifeRec) (p : Nat) :
    (s.modLife g).cus p = s.cus p := rfl
@[simp] theorem State.modLife_keySlot (s : State) (g : LifeRec → LifeRec) (i : Nat) :
    (s.modLife g).keySlot i = s.keySlot i := rfl
@[simp] theorem State.modLife_slotRef (s : State) (g : LifeRec → LifeRec) (i : Nat) :
    (s.modLife g).slotRef i = s.slotRef i := rfl
@[simp] theorem State.modLife_ms (s : State) (g : LifeRec → LifeRec) (q : Nat) : (s.modLife g).ms q = s.ms q := rfl
@[simp] theorem State.modLife_obj (s : State) (g : LifeRec → LifeRec) (q o : Nat) :
    (s.modLife g).obj q o = s.obj q o := rfl
@[simp] theorem State.modLife_exists_ (s : State) (g : LifeRec → LifeRec) (p : Nat) :
    (s.modLife g).exists_ p = s.exists_ p := rfl
@[simp] theorem State.modLife_unbound (s : State) (g : LifeRec → LifeRec) (f : Nat) :
    (s.modLife g).unbound f = s.unbound f := rfl
@[simp] theorem State.modLife_sees (s : State) (g : LifeRec → LifeRec) (fn : Nat) (b : BarBlock) :
    (s.modLife g).sees fn b = s.sees fn b := rfl
@[simp] theorem State.modLife_mayWrite (s : State) (g : LifeRec → LifeRec) (src : Source) (b : BarBlock) :
    (s.modLife g).mayWrite src b = s.mayWrite src b := rfl
@[simp] theorem State.modLife_seraiOn (s : State) (g : LifeRec → LifeRec) : (s.modLife g).seraiOn = s.seraiOn := rfl
@[simp] theorem State.modLife_issuing (s : State) (g : LifeRec → LifeRec) (l : Nat) :
    (s.modLife g).issuing l = s.issuing l := rfl
@[simp] theorem State.modLife_waiting (s : State) (g : LifeRec → LifeRec) (l : Nat) :
    (s.modLife g).waiting l = s.waiting l := rfl
@[simp] theorem State.modLife_route (s : State) (g : LifeRec → LifeRec) (ok : LinkSt → Bool) (plane : Bool) (src dst f : Nat) :
    (s.modLife g).route ok plane src dst f = s.route ok plane src dst f := rfl

@[simp] theorem State.setLink_pending (s : State) (l : Nat) (x : Link) : (s.setLink l x).pending = s.pending := rfl
@[simp] theorem State.setLink_free (s : State) (l : Nat) (x : Link) : (s.setLink l x).free = s.free := rfl
@[simp] theorem State.setLink_now (s : State) (l : Nat) (x : Link) : (s.setLink l x).now = s.now := rfl
@[simp] theorem State.setLink_fns (s : State) (l : Nat) (x : Link) : (s.setLink l x).fns = s.fns := rfl
@[simp] theorem State.setLink_host (s : State) (l : Nat) (x : Link) : (s.setLink l x).host = s.host := rfl
@[simp] theorem State.setLink_log (s : State) (l : Nat) (x : Link) : (s.setLink l x).log = s.log := rfl
@[simp] theorem State.setLink_mod (s : State) (l : Nat) (x : Link) : (s.setLink l x).mod = s.mod := rfl
@[simp] theorem State.setLink_phys (s : State) (l : Nat) (x : Link) : (s.setLink l x).phys = s.phys := rfl
@[simp] theorem State.setLink_mem (s : State) (l : Nat) (x : Link) : (s.setLink l x).mem = s.mem := rfl
@[simp] theorem State.setLink_cisDies (s : State) (l : Nat) (x : Link) : (s.setLink l x).cisDies = s.cisDies := rfl
@[simp] theorem State.setLink_cwy (s : State) (l : Nat) (x : Link) : (s.setLink l x).cwy = s.cwy := rfl
@[simp] theorem State.setLink_lostCopies (s : State) (l : Nat) (x : Link) :
    (s.setLink l x).lostCopies = s.lostCopies := rfl
@[simp] theorem State.setLink_cores (s : State) (l : Nat) (x : Link) : (s.setLink l x).cores = s.cores := rfl
@[simp] theorem State.setLink_dies (s : State) (l : Nat) (x : Link) : (s.setLink l x).dies = s.dies := rfl
@[simp] theorem State.setLink_parts (s : State) (l : Nat) (x : Link) : (s.setLink l x).parts = s.parts := rfl
@[simp] theorem State.setLink_lanternCfg (s : State) (l : Nat) (x : Link) :
    (s.setLink l x).lanternCfg = s.lanternCfg := rfl
@[simp] theorem State.setLink_tollWait (s : State) (l : Nat) (x : Link) :
    (s.setLink l x).tollWait = s.tollWait := rfl
@[simp] theorem State.setLink_qps (s : State) (l : Nat) (x : Link) : (s.setLink l x).qps = s.qps := rfl
@[simp] theorem State.setLink_porters (s : State) (l : Nat) (x : Link) : (s.setLink l x).porters = s.porters := rfl
@[simp] theorem State.setLink_pages (s : State) (l : Nat) (x : Link) : (s.setLink l x).pages = s.pages := rfl
@[simp] theorem State.setLink_selfFrames (s : State) (l : Nat) (x : Link) :
    (s.setLink l x).selfFrames = s.selfFrames := rfl
@[simp] theorem State.setLink_regions (s : State) (l : Nat) (x : Link) : (s.setLink l x).regions = s.regions := rfl
@[simp] theorem State.setLink_convoys (s : State) (l : Nat) (x : Link) : (s.setLink l x).convoys = s.convoys := rfl
@[simp] theorem State.setLink_houses (s : State) (l : Nat) (x : Link) : (s.setLink l x).houses = s.houses := rfl
@[simp] theorem State.setLink_pendFrames (s : State) (l : Nat) (x : Link) :
    (s.setLink l x).pendFrames = s.pendFrames := rfl
@[simp] theorem State.setLink_nextFrameId (s : State) (l : Nat) (x : Link) :
    (s.setLink l x).nextFrameId = s.nextFrameId := rfl
@[simp] theorem State.setLink_customs (s : State) (l : Nat) (x : Link) : (s.setLink l x).customs = s.customs := rfl
@[simp] theorem State.setLink_cusParts (s : State) (l : Nat) (x : Link) :
    (s.setLink l x).cusParts = s.cusParts := rfl
@[simp] theorem State.setLink_pwr (s : State) (l : Nat) (x : Link) : (s.setLink l x).pwr = s.pwr := rfl
@[simp] theorem State.setLink_time (s : State) (l : Nat) (x : Link) : (s.setLink l x).time = s.time := rfl
@[simp] theorem State.setLink_life (s : State) (l : Nat) (x : Link) : (s.setLink l x).life = s.life := rfl
@[simp] theorem State.setLink_totals (s : State) (l : Nat) (x : Link) : (s.setLink l x).totals = s.totals := rfl
@[simp] theorem State.setLink_totSnap (s : State) (l : Nat) (x : Link) : (s.setLink l x).totSnap = s.totSnap := rfl
@[simp] theorem State.setLink_totTime (s : State) (l : Nat) (x : Link) : (s.setLink l x).totTime = s.totTime := rfl
@[simp] theorem State.setLink_gapSerai (s : State) (l : Nat) (x : Link) :
    (s.setLink l x).gapSerai = s.gapSerai := rfl
@[simp] theorem State.setLink_fn (s : State) (l : Nat) (x : Link) (f : Nat) : (s.setLink l x).fn f = s.fn f := rfl
@[simp] theorem State.setLink_queue (s : State) (l : Nat) (x : Link) (f q : Nat) :
    (s.setLink l x).queue f q = s.queue f q := rfl
@[simp] theorem State.setLink_core (s : State) (l : Nat) (x : Link) (p : Nat) :
    (s.setLink l x).core p = s.core p := rfl
@[simp] theorem State.setLink_die (s : State) (l : Nat) (x : Link) (n : Nat) :
    (s.setLink l x).die n = s.die n := rfl
@[simp] theorem State.setLink_part (s : State) (l : Nat) (x : Link) (p : Nat) :
    (s.setLink l x).part p = s.part p := rfl
@[simp] theorem State.setLink_cis (s : State) (l : Nat) (x : Link) (m : Nat) :
    (s.setLink l x).cis m = s.cis m := rfl
@[simp] theorem State.setLink_sense (s : State) (l : Nat) (x : Link) (d : Nat) :
    (s.setLink l x).sense d = s.sense d := rfl
@[simp] theorem State.setLink_clocked (s : State) (l : Nat) (x : Link) : (s.setLink l x).clocked = s.clocked := rfl
@[simp] theorem State.setLink_physOf (s : State) (l : Nat) (x : Link) (z0 : Nat) :
    (s.setLink l x).physOf z0 = s.physOf z0 := rfl
@[simp] theorem State.setLink_logicalOf (s : State) (l : Nat) (x : Link) (p : Nat) :
    (s.setLink l x).logicalOf p = s.logicalOf p := rfl
@[simp] theorem State.setLink_ownsCore (s : State) (l : Nat) (x : Link) (p z1 : Nat) :
    (s.setLink l x).ownsCore p z1 = s.ownsCore p z1 := rfl
@[simp] theorem State.setLink_partOf (s : State) (l : Nat) (x : Link) (z0 : Nat) :
    (s.setLink l x).partOf z0 = s.partOf z0 := rfl
@[simp] theorem State.setLink_partOfPhys (s : State) (l : Nat) (x : Link) (p : Nat) :
    (s.setLink l x).partOfPhys p = s.partOfPhys p := rfl
@[simp] theorem State.setLink_partNo (s : State) (l : Nat) (x : Link) (z0 : Nat) :
    (s.setLink l x).partNo z0 = s.partNo z0 := rfl
@[simp] theorem State.setLink_coresOf (s : State) (l : Nat) (x : Link) (p : Nat) :
    (s.setLink l x).coresOf p = s.coresOf p := rfl
@[simp] theorem State.setLink_physOfPart (s : State) (l : Nat) (x : Link) (p : Nat) :
    (s.setLink l x).physOfPart p = s.physOfPart p := rfl
@[simp] theorem State.setLink_vfOf (s : State) (l : Nat) (x : Link) (p : Nat) :
    (s.setLink l x).vfOf p = s.vfOf p := rfl
@[simp] theorem State.setLink_fnOfPart (s : State) (l : Nat) (x : Link) (p : Nat) :
    (s.setLink l x).fnOfPart p = s.fnOfPart p := rfl
@[simp] theorem State.setLink_freeVal (s : State) (l : Nat) (x : Link) : (s.setLink l x).freeVal = s.freeVal := rfl
@[simp] theorem State.setLink_dieNow (s : State) (l : Nat) (x : Link) (d : Nat) :
    (s.setLink l x).dieNow d = s.dieNow d := rfl
@[simp] theorem State.setLink_stretched (s : State) (l : Nat) (x : Link) (d : Nat) :
    (s.setLink l x).stretched d = s.stretched d := rfl
@[simp] theorem State.setLink_mapped (s : State) (l : Nat) (x : Link) (a n : Nat) :
    (s.setLink l x).mapped a n = s.mapped a n := rfl
@[simp] theorem State.setLink_inWindow (s : State) (l : Nat) (x : Link) (q a n : Nat) :
    (s.setLink l x).inWindow q a n = s.inWindow q a n := rfl
@[simp] theorem State.setLink_admitted (s : State) (l : Nat) (x : Link) (q : Nat) (byCore store : Bool) (a n : Nat) :
    (s.setLink l x).admitted q byCore store a n = s.admitted q byCore store a n := rfl
@[simp] theorem State.setLink_ownerOf (s : State) (l : Nat) (x : Link) (a : Nat) :
    (s.setLink l x).ownerOf a = s.ownerOf a := rfl
@[simp] theorem State.setLink_failedChan (s : State) (l : Nat) (x : Link) (a n : Nat) :
    (s.setLink l x).failedChan a n = s.failedChan a n := rfl
@[simp] theorem State.setLink_failedStack (s : State) (l : Nat) (x : Link) (a n : Nat) :
    (s.setLink l x).failedStack a n = s.failedStack a n := rfl
@[simp] theorem State.setLink_failedIn (s : State) (l : Nat) (x : Link) (segs : List (Nat × Nat)) :
    (s.setLink l x).failedIn segs = s.failedIn segs := rfl
@[simp] theorem State.setLink_markAt (s : State) (l : Nat) (x : Link) (p a : Nat) :
    (s.setLink l x).markAt p a = s.markAt p a := rfl
@[simp] theorem State.setLink_byteAt (s : State) (l : Nat) (x : Link) (p a : Nat) :
    (s.setLink l x).byteAt p a = s.byteAt p a := rfl
@[simp] theorem State.setLink_bytesAt (s : State) (l : Nat) (x : Link) (p a n : Nat) :
    (s.setLink l x).bytesAt p a n = s.bytesAt p a n := rfl
@[simp] theorem State.setLink_wordAt (s : State) (l : Nat) (x : Link) (p a : Nat) :
    (s.setLink l x).wordAt p a = s.wordAt p a := rfl
@[simp] theorem State.setLink_bufRef (s : State) (l : Nat) (x : Link) (p q : Nat) (stm : BitVec 3) (r : BitVec 14) :
    (s.setLink l x).bufRef p q stm r = s.bufRef p q stm r := rfl
@[simp] theorem State.setLink_tok (s : State) (l : Nat) (x : Link) (p : Nat) (z1 : Buf) :
    (s.setLink l x).tok p z1 = s.tok p z1 := rfl
@[simp] theorem State.setLink_missing (s : State) (l : Nat) (x : Link) (p : Nat) (z1 : Buf) :
    (s.setLink l x).missing p z1 = s.missing p z1 := rfl
@[simp] theorem State.setLink_usedPhys (s : State) (l : Nat) (x : Link) (q : Nat) :
    (s.setLink l x).usedPhys q = s.usedPhys q := rfl
@[simp] theorem State.setLink_lantern (s : State) (l : Nat) (x : Link) (m : Nat) :
    (s.setLink l x).lantern m = s.lantern m := rfl
@[simp] theorem State.setLink_coord (s : State) (l : Nat) (x : Link) : (s.setLink l x).coord = s.coord := rfl
@[simp] theorem State.setLink_qp (s : State) (l : Nat) (x : Link) (q : Nat) : (s.setLink l x).qp q = s.qp q := rfl
@[simp] theorem State.setLink_porter (s : State) (l : Nat) (x : Link) (m : Nat) :
    (s.setLink l x).porter m = s.porter m := rfl
@[simp] theorem State.setLink_page (s : State) (l : Nat) (x : Link) (m p : Nat) :
    (s.setLink l x).page m p = s.page m p := rfl
@[simp] theorem State.setLink_region (s : State) (l : Nat) (x : Link) (i : Nat) :
    (s.setLink l x).region i = s.region i := rfl
@[simp] theorem State.setLink_ownsQp (s : State) (l : Nat) (x : Link) (part q : Nat) :
    (s.setLink l x).ownsQp part q = s.ownsQp part q := rfl
@[simp] theorem State.setLink_convoy (s : State) (l : Nat) (x : Link) (p : Nat) :
    (s.setLink l x).convoy p = s.convoy p := rfl
@[simp] theorem State.setLink_house (s : State) (l : Nat) (x : Link) (n : Nat) :
    (s.setLink l x).house n = s.house n := rfl
@[simp] theorem State.setLink_cus (s : State) (l : Nat) (x : Link) (p : Nat) :
    (s.setLink l x).cus p = s.cus p := rfl
@[simp] theorem State.setLink_keySlot (s : State) (l : Nat) (x : Link) (i : Nat) :
    (s.setLink l x).keySlot i = s.keySlot i := rfl
@[simp] theorem State.setLink_slotRef (s : State) (l : Nat) (x : Link) (i : Nat) :
    (s.setLink l x).slotRef i = s.slotRef i := rfl
@[simp] theorem State.setLink_ms (s : State) (l : Nat) (x : Link) (q : Nat) : (s.setLink l x).ms q = s.ms q := rfl
@[simp] theorem State.setLink_obj (s : State) (l : Nat) (x : Link) (q o : Nat) :
    (s.setLink l x).obj q o = s.obj q o := rfl
@[simp] theorem State.setLink_exists_ (s : State) (l : Nat) (x : Link) (p : Nat) :
    (s.setLink l x).exists_ p = s.exists_ p := rfl
@[simp] theorem State.setLink_unbound (s : State) (l : Nat) (x : Link) (f : Nat) :
    (s.setLink l x).unbound f = s.unbound f := rfl
@[simp] theorem State.setLink_sees (s : State) (l : Nat) (x : Link) (fn : Nat) (b : BarBlock) :
    (s.setLink l x).sees fn b = s.sees fn b := rfl
@[simp] theorem State.setLink_mayWrite (s : State) (l : Nat) (x : Link) (src : Source) (b : BarBlock) :
    (s.setLink l x).mayWrite src b = s.mayWrite src b := rfl
@[simp] theorem State.setLink_seraiOn (s : State) (l : Nat) (x : Link) : (s.setLink l x).seraiOn = s.seraiOn := rfl
@[simp] theorem State.setLink_issuing (s : State) (l : Nat) (x : Link) (z0 : Nat) :
    (s.setLink l x).issuing z0 = s.issuing z0 := rfl
@[simp] theorem State.setLink_waiting (s : State) (l : Nat) (x : Link) (z0 : Nat) :
    (s.setLink l x).waiting z0 = s.waiting z0 := rfl

@[simp] theorem State.setQp_pending (s : State) (q : Nat) (x : Qp) : (s.setQp q x).pending = s.pending := rfl
@[simp] theorem State.setQp_free (s : State) (q : Nat) (x : Qp) : (s.setQp q x).free = s.free := rfl
@[simp] theorem State.setQp_now (s : State) (q : Nat) (x : Qp) : (s.setQp q x).now = s.now := rfl
@[simp] theorem State.setQp_fns (s : State) (q : Nat) (x : Qp) : (s.setQp q x).fns = s.fns := rfl
@[simp] theorem State.setQp_host (s : State) (q : Nat) (x : Qp) : (s.setQp q x).host = s.host := rfl
@[simp] theorem State.setQp_log (s : State) (q : Nat) (x : Qp) : (s.setQp q x).log = s.log := rfl
@[simp] theorem State.setQp_mod (s : State) (q : Nat) (x : Qp) : (s.setQp q x).mod = s.mod := rfl
@[simp] theorem State.setQp_phys (s : State) (q : Nat) (x : Qp) : (s.setQp q x).phys = s.phys := rfl
@[simp] theorem State.setQp_mem (s : State) (q : Nat) (x : Qp) : (s.setQp q x).mem = s.mem := rfl
@[simp] theorem State.setQp_cisDies (s : State) (q : Nat) (x : Qp) : (s.setQp q x).cisDies = s.cisDies := rfl
@[simp] theorem State.setQp_cwy (s : State) (q : Nat) (x : Qp) : (s.setQp q x).cwy = s.cwy := rfl
@[simp] theorem State.setQp_lostCopies (s : State) (q : Nat) (x : Qp) :
    (s.setQp q x).lostCopies = s.lostCopies := rfl
@[simp] theorem State.setQp_cores (s : State) (q : Nat) (x : Qp) : (s.setQp q x).cores = s.cores := rfl
@[simp] theorem State.setQp_dies (s : State) (q : Nat) (x : Qp) : (s.setQp q x).dies = s.dies := rfl
@[simp] theorem State.setQp_parts (s : State) (q : Nat) (x : Qp) : (s.setQp q x).parts = s.parts := rfl
@[simp] theorem State.setQp_links (s : State) (q : Nat) (x : Qp) : (s.setQp q x).links = s.links := rfl
@[simp] theorem State.setQp_lanternCfg (s : State) (q : Nat) (x : Qp) :
    (s.setQp q x).lanternCfg = s.lanternCfg := rfl
@[simp] theorem State.setQp_tollWait (s : State) (q : Nat) (x : Qp) : (s.setQp q x).tollWait = s.tollWait := rfl
@[simp] theorem State.setQp_porters (s : State) (q : Nat) (x : Qp) : (s.setQp q x).porters = s.porters := rfl
@[simp] theorem State.setQp_pages (s : State) (q : Nat) (x : Qp) : (s.setQp q x).pages = s.pages := rfl
@[simp] theorem State.setQp_selfFrames (s : State) (q : Nat) (x : Qp) :
    (s.setQp q x).selfFrames = s.selfFrames := rfl
@[simp] theorem State.setQp_regions (s : State) (q : Nat) (x : Qp) : (s.setQp q x).regions = s.regions := rfl
@[simp] theorem State.setQp_convoys (s : State) (q : Nat) (x : Qp) : (s.setQp q x).convoys = s.convoys := rfl
@[simp] theorem State.setQp_houses (s : State) (q : Nat) (x : Qp) : (s.setQp q x).houses = s.houses := rfl
@[simp] theorem State.setQp_pendFrames (s : State) (q : Nat) (x : Qp) :
    (s.setQp q x).pendFrames = s.pendFrames := rfl
@[simp] theorem State.setQp_nextFrameId (s : State) (q : Nat) (x : Qp) :
    (s.setQp q x).nextFrameId = s.nextFrameId := rfl
@[simp] theorem State.setQp_customs (s : State) (q : Nat) (x : Qp) : (s.setQp q x).customs = s.customs := rfl
@[simp] theorem State.setQp_cusParts (s : State) (q : Nat) (x : Qp) : (s.setQp q x).cusParts = s.cusParts := rfl
@[simp] theorem State.setQp_pwr (s : State) (q : Nat) (x : Qp) : (s.setQp q x).pwr = s.pwr := rfl
@[simp] theorem State.setQp_time (s : State) (q : Nat) (x : Qp) : (s.setQp q x).time = s.time := rfl
@[simp] theorem State.setQp_life (s : State) (q : Nat) (x : Qp) : (s.setQp q x).life = s.life := rfl
@[simp] theorem State.setQp_totals (s : State) (q : Nat) (x : Qp) : (s.setQp q x).totals = s.totals := rfl
@[simp] theorem State.setQp_totSnap (s : State) (q : Nat) (x : Qp) : (s.setQp q x).totSnap = s.totSnap := rfl
@[simp] theorem State.setQp_totTime (s : State) (q : Nat) (x : Qp) : (s.setQp q x).totTime = s.totTime := rfl
@[simp] theorem State.setQp_gapSerai (s : State) (q : Nat) (x : Qp) : (s.setQp q x).gapSerai = s.gapSerai := rfl
@[simp] theorem State.setQp_fn (s : State) (q : Nat) (x : Qp) (f : Nat) : (s.setQp q x).fn f = s.fn f := rfl
@[simp] theorem State.setQp_queue (s : State) (q : Nat) (x : Qp) (f z1 : Nat) :
    (s.setQp q x).queue f z1 = s.queue f z1 := rfl
@[simp] theorem State.setQp_core (s : State) (q : Nat) (x : Qp) (p : Nat) : (s.setQp q x).core p = s.core p := rfl
@[simp] theorem State.setQp_die (s : State) (q : Nat) (x : Qp) (n : Nat) : (s.setQp q x).die n = s.die n := rfl
@[simp] theorem State.setQp_part (s : State) (q : Nat) (x : Qp) (p : Nat) : (s.setQp q x).part p = s.part p := rfl
@[simp] theorem State.setQp_cis (s : State) (q : Nat) (x : Qp) (m : Nat) : (s.setQp q x).cis m = s.cis m := rfl
@[simp] theorem State.setQp_sense (s : State) (q : Nat) (x : Qp) (d : Nat) :
    (s.setQp q x).sense d = s.sense d := rfl
@[simp] theorem State.setQp_clocked (s : State) (q : Nat) (x : Qp) : (s.setQp q x).clocked = s.clocked := rfl
@[simp] theorem State.setQp_physOf (s : State) (q : Nat) (x : Qp) (l : Nat) :
    (s.setQp q x).physOf l = s.physOf l := rfl
@[simp] theorem State.setQp_logicalOf (s : State) (q : Nat) (x : Qp) (p : Nat) :
    (s.setQp q x).logicalOf p = s.logicalOf p := rfl
@[simp] theorem State.setQp_ownsCore (s : State) (q : Nat) (x : Qp) (p l : Nat) :
    (s.setQp q x).ownsCore p l = s.ownsCore p l := rfl
@[simp] theorem State.setQp_partOf (s : State) (q : Nat) (x : Qp) (l : Nat) :
    (s.setQp q x).partOf l = s.partOf l := rfl
@[simp] theorem State.setQp_partOfPhys (s : State) (q : Nat) (x : Qp) (p : Nat) :
    (s.setQp q x).partOfPhys p = s.partOfPhys p := rfl
@[simp] theorem State.setQp_partNo (s : State) (q : Nat) (x : Qp) (l : Nat) :
    (s.setQp q x).partNo l = s.partNo l := rfl
@[simp] theorem State.setQp_coresOf (s : State) (q : Nat) (x : Qp) (p : Nat) :
    (s.setQp q x).coresOf p = s.coresOf p := rfl
@[simp] theorem State.setQp_physOfPart (s : State) (q : Nat) (x : Qp) (p : Nat) :
    (s.setQp q x).physOfPart p = s.physOfPart p := rfl
@[simp] theorem State.setQp_vfOf (s : State) (q : Nat) (x : Qp) (p : Nat) : (s.setQp q x).vfOf p = s.vfOf p := rfl
@[simp] theorem State.setQp_fnOfPart (s : State) (q : Nat) (x : Qp) (p : Nat) :
    (s.setQp q x).fnOfPart p = s.fnOfPart p := rfl
@[simp] theorem State.setQp_freeVal (s : State) (q : Nat) (x : Qp) : (s.setQp q x).freeVal = s.freeVal := rfl
@[simp] theorem State.setQp_dieNow (s : State) (q : Nat) (x : Qp) (d : Nat) :
    (s.setQp q x).dieNow d = s.dieNow d := rfl
@[simp] theorem State.setQp_stretched (s : State) (q : Nat) (x : Qp) (d : Nat) :
    (s.setQp q x).stretched d = s.stretched d := rfl
@[simp] theorem State.setQp_mapped (s : State) (q : Nat) (x : Qp) (a n : Nat) :
    (s.setQp q x).mapped a n = s.mapped a n := rfl
@[simp] theorem State.setQp_inWindow (s : State) (q : Nat) (x : Qp) (z0 a n : Nat) :
    (s.setQp q x).inWindow z0 a n = s.inWindow z0 a n := rfl
@[simp] theorem State.setQp_admitted (s : State) (q : Nat) (x : Qp) (z0 : Nat) (byCore store : Bool) (a n : Nat) :
    (s.setQp q x).admitted z0 byCore store a n = s.admitted z0 byCore store a n := rfl
@[simp] theorem State.setQp_ownerOf (s : State) (q : Nat) (x : Qp) (a : Nat) :
    (s.setQp q x).ownerOf a = s.ownerOf a := rfl
@[simp] theorem State.setQp_failedChan (s : State) (q : Nat) (x : Qp) (a n : Nat) :
    (s.setQp q x).failedChan a n = s.failedChan a n := rfl
@[simp] theorem State.setQp_failedStack (s : State) (q : Nat) (x : Qp) (a n : Nat) :
    (s.setQp q x).failedStack a n = s.failedStack a n := rfl
@[simp] theorem State.setQp_failedIn (s : State) (q : Nat) (x : Qp) (segs : List (Nat × Nat)) :
    (s.setQp q x).failedIn segs = s.failedIn segs := rfl
@[simp] theorem State.setQp_markAt (s : State) (q : Nat) (x : Qp) (p a : Nat) :
    (s.setQp q x).markAt p a = s.markAt p a := rfl
@[simp] theorem State.setQp_byteAt (s : State) (q : Nat) (x : Qp) (p a : Nat) :
    (s.setQp q x).byteAt p a = s.byteAt p a := rfl
@[simp] theorem State.setQp_bytesAt (s : State) (q : Nat) (x : Qp) (p a n : Nat) :
    (s.setQp q x).bytesAt p a n = s.bytesAt p a n := rfl
@[simp] theorem State.setQp_wordAt (s : State) (q : Nat) (x : Qp) (p a : Nat) :
    (s.setQp q x).wordAt p a = s.wordAt p a := rfl
@[simp] theorem State.setQp_bufRef (s : State) (q : Nat) (x : Qp) (p z1 : Nat) (stm : BitVec 3) (r : BitVec 14) :
    (s.setQp q x).bufRef p z1 stm r = s.bufRef p z1 stm r := rfl
@[simp] theorem State.setQp_tok (s : State) (q : Nat) (x : Qp) (p : Nat) (z1 : Buf) :
    (s.setQp q x).tok p z1 = s.tok p z1 := rfl
@[simp] theorem State.setQp_missing (s : State) (q : Nat) (x : Qp) (p : Nat) (z1 : Buf) :
    (s.setQp q x).missing p z1 = s.missing p z1 := rfl
@[simp] theorem State.setQp_usedPhys (s : State) (q : Nat) (x : Qp) (z0 : Nat) :
    (s.setQp q x).usedPhys z0 = s.usedPhys z0 := rfl
@[simp] theorem State.setQp_link (s : State) (q : Nat) (x : Qp) (l : Nat) : (s.setQp q x).link l = s.link l := rfl
@[simp] theorem State.setQp_lantern (s : State) (q : Nat) (x : Qp) (m : Nat) :
    (s.setQp q x).lantern m = s.lantern m := rfl
@[simp] theorem State.setQp_coord (s : State) (q : Nat) (x : Qp) : (s.setQp q x).coord = s.coord := rfl
@[simp] theorem State.setQp_porter (s : State) (q : Nat) (x : Qp) (m : Nat) :
    (s.setQp q x).porter m = s.porter m := rfl
@[simp] theorem State.setQp_page (s : State) (q : Nat) (x : Qp) (m p : Nat) :
    (s.setQp q x).page m p = s.page m p := rfl
@[simp] theorem State.setQp_region (s : State) (q : Nat) (x : Qp) (i : Nat) :
    (s.setQp q x).region i = s.region i := rfl
@[simp] theorem State.setQp_ownsQp (s : State) (q : Nat) (x : Qp) (part z1 : Nat) :
    (s.setQp q x).ownsQp part z1 = s.ownsQp part z1 := rfl
@[simp] theorem State.setQp_convoy (s : State) (q : Nat) (x : Qp) (p : Nat) :
    (s.setQp q x).convoy p = s.convoy p := rfl
@[simp] theorem State.setQp_house (s : State) (q : Nat) (x : Qp) (n : Nat) :
    (s.setQp q x).house n = s.house n := rfl
@[simp] theorem State.setQp_cus (s : State) (q : Nat) (x : Qp) (p : Nat) : (s.setQp q x).cus p = s.cus p := rfl
@[simp] theorem State.setQp_keySlot (s : State) (q : Nat) (x : Qp) (i : Nat) :
    (s.setQp q x).keySlot i = s.keySlot i := rfl
@[simp] theorem State.setQp_ms (s : State) (q : Nat) (x : Qp) (z0 : Nat) : (s.setQp q x).ms z0 = s.ms z0 := rfl
@[simp] theorem State.setQp_obj (s : State) (q : Nat) (x : Qp) (z0 o : Nat) :
    (s.setQp q x).obj z0 o = s.obj z0 o := rfl
@[simp] theorem State.setQp_exists_ (s : State) (q : Nat) (x : Qp) (p : Nat) :
    (s.setQp q x).exists_ p = s.exists_ p := rfl
@[simp] theorem State.setQp_unbound (s : State) (q : Nat) (x : Qp) (f : Nat) :
    (s.setQp q x).unbound f = s.unbound f := rfl
@[simp] theorem State.setQp_sees (s : State) (q : Nat) (x : Qp) (fn : Nat) (b : BarBlock) :
    (s.setQp q x).sees fn b = s.sees fn b := rfl
@[simp] theorem State.setQp_mayWrite (s : State) (q : Nat) (x : Qp) (src : Source) (b : BarBlock) :
    (s.setQp q x).mayWrite src b = s.mayWrite src b := rfl
@[simp] theorem State.setQp_seraiOn (s : State) (q : Nat) (x : Qp) : (s.setQp q x).seraiOn = s.seraiOn := rfl
@[simp] theorem State.setQp_issuing (s : State) (q : Nat) (x : Qp) (l : Nat) :
    (s.setQp q x).issuing l = s.issuing l := rfl
@[simp] theorem State.setQp_waiting (s : State) (q : Nat) (x : Qp) (l : Nat) :
    (s.setQp q x).waiting l = s.waiting l := rfl
@[simp] theorem State.setQp_route (s : State) (q : Nat) (x : Qp) (ok : LinkSt → Bool) (plane : Bool) (src dst f : Nat) :
    (s.setQp q x).route ok plane src dst f = s.route ok plane src dst f := rfl

@[simp] theorem State.modPorter_pending (s : State) (m : Nat) (g : Porter → Porter) :
    (s.modPorter m g).pending = s.pending := rfl
@[simp] theorem State.modPorter_free (s : State) (m : Nat) (g : Porter → Porter) :
    (s.modPorter m g).free = s.free := rfl
@[simp] theorem State.modPorter_now (s : State) (m : Nat) (g : Porter → Porter) :
    (s.modPorter m g).now = s.now := rfl
@[simp] theorem State.modPorter_fns (s : State) (m : Nat) (g : Porter → Porter) :
    (s.modPorter m g).fns = s.fns := rfl
@[simp] theorem State.modPorter_host (s : State) (m : Nat) (g : Porter → Porter) :
    (s.modPorter m g).host = s.host := rfl
@[simp] theorem State.modPorter_log (s : State) (m : Nat) (g : Porter → Porter) :
    (s.modPorter m g).log = s.log := rfl
@[simp] theorem State.modPorter_mod (s : State) (m : Nat) (g : Porter → Porter) :
    (s.modPorter m g).mod = s.mod := rfl
@[simp] theorem State.modPorter_phys (s : State) (m : Nat) (g : Porter → Porter) :
    (s.modPorter m g).phys = s.phys := rfl
@[simp] theorem State.modPorter_mem (s : State) (m : Nat) (g : Porter → Porter) :
    (s.modPorter m g).mem = s.mem := rfl
@[simp] theorem State.modPorter_cisDies (s : State) (m : Nat) (g : Porter → Porter) :
    (s.modPorter m g).cisDies = s.cisDies := rfl
@[simp] theorem State.modPorter_cwy (s : State) (m : Nat) (g : Porter → Porter) :
    (s.modPorter m g).cwy = s.cwy := rfl
@[simp] theorem State.modPorter_lostCopies (s : State) (m : Nat) (g : Porter → Porter) :
    (s.modPorter m g).lostCopies = s.lostCopies := rfl
@[simp] theorem State.modPorter_cores (s : State) (m : Nat) (g : Porter → Porter) :
    (s.modPorter m g).cores = s.cores := rfl
@[simp] theorem State.modPorter_dies (s : State) (m : Nat) (g : Porter → Porter) :
    (s.modPorter m g).dies = s.dies := rfl
@[simp] theorem State.modPorter_parts (s : State) (m : Nat) (g : Porter → Porter) :
    (s.modPorter m g).parts = s.parts := rfl
@[simp] theorem State.modPorter_links (s : State) (m : Nat) (g : Porter → Porter) :
    (s.modPorter m g).links = s.links := rfl
@[simp] theorem State.modPorter_lanternCfg (s : State) (m : Nat) (g : Porter → Porter) :
    (s.modPorter m g).lanternCfg = s.lanternCfg := rfl
@[simp] theorem State.modPorter_tollWait (s : State) (m : Nat) (g : Porter → Porter) :
    (s.modPorter m g).tollWait = s.tollWait := rfl
@[simp] theorem State.modPorter_qps (s : State) (m : Nat) (g : Porter → Porter) :
    (s.modPorter m g).qps = s.qps := rfl
@[simp] theorem State.modPorter_pages (s : State) (m : Nat) (g : Porter → Porter) :
    (s.modPorter m g).pages = s.pages := rfl
@[simp] theorem State.modPorter_selfFrames (s : State) (m : Nat) (g : Porter → Porter) :
    (s.modPorter m g).selfFrames = s.selfFrames := rfl
@[simp] theorem State.modPorter_regions (s : State) (m : Nat) (g : Porter → Porter) :
    (s.modPorter m g).regions = s.regions := rfl
@[simp] theorem State.modPorter_convoys (s : State) (m : Nat) (g : Porter → Porter) :
    (s.modPorter m g).convoys = s.convoys := rfl
@[simp] theorem State.modPorter_houses (s : State) (m : Nat) (g : Porter → Porter) :
    (s.modPorter m g).houses = s.houses := rfl
@[simp] theorem State.modPorter_pendFrames (s : State) (m : Nat) (g : Porter → Porter) :
    (s.modPorter m g).pendFrames = s.pendFrames := rfl
@[simp] theorem State.modPorter_nextFrameId (s : State) (m : Nat) (g : Porter → Porter) :
    (s.modPorter m g).nextFrameId = s.nextFrameId := rfl
@[simp] theorem State.modPorter_customs (s : State) (m : Nat) (g : Porter → Porter) :
    (s.modPorter m g).customs = s.customs := rfl
@[simp] theorem State.modPorter_cusParts (s : State) (m : Nat) (g : Porter → Porter) :
    (s.modPorter m g).cusParts = s.cusParts := rfl
@[simp] theorem State.modPorter_pwr (s : State) (m : Nat) (g : Porter → Porter) :
    (s.modPorter m g).pwr = s.pwr := rfl
@[simp] theorem State.modPorter_time (s : State) (m : Nat) (g : Porter → Porter) :
    (s.modPorter m g).time = s.time := rfl
@[simp] theorem State.modPorter_life (s : State) (m : Nat) (g : Porter → Porter) :
    (s.modPorter m g).life = s.life := rfl
@[simp] theorem State.modPorter_totals (s : State) (m : Nat) (g : Porter → Porter) :
    (s.modPorter m g).totals = s.totals := rfl
@[simp] theorem State.modPorter_totSnap (s : State) (m : Nat) (g : Porter → Porter) :
    (s.modPorter m g).totSnap = s.totSnap := rfl
@[simp] theorem State.modPorter_totTime (s : State) (m : Nat) (g : Porter → Porter) :
    (s.modPorter m g).totTime = s.totTime := rfl
@[simp] theorem State.modPorter_gapSerai (s : State) (m : Nat) (g : Porter → Porter) :
    (s.modPorter m g).gapSerai = s.gapSerai := rfl
@[simp] theorem State.modPorter_fn (s : State) (m : Nat) (g : Porter → Porter) (f : Nat) :
    (s.modPorter m g).fn f = s.fn f := rfl
@[simp] theorem State.modPorter_queue (s : State) (m : Nat) (g : Porter → Porter) (f q : Nat) :
    (s.modPorter m g).queue f q = s.queue f q := rfl
@[simp] theorem State.modPorter_core (s : State) (m : Nat) (g : Porter → Porter) (p : Nat) :
    (s.modPorter m g).core p = s.core p := rfl
@[simp] theorem State.modPorter_die (s : State) (m : Nat) (g : Porter → Porter) (n : Nat) :
    (s.modPorter m g).die n = s.die n := rfl
@[simp] theorem State.modPorter_part (s : State) (m : Nat) (g : Porter → Porter) (p : Nat) :
    (s.modPorter m g).part p = s.part p := rfl
@[simp] theorem State.modPorter_cis (s : State) (m : Nat) (g : Porter → Porter) (z0 : Nat) :
    (s.modPorter m g).cis z0 = s.cis z0 := rfl
@[simp] theorem State.modPorter_sense (s : State) (m : Nat) (g : Porter → Porter) (d : Nat) :
    (s.modPorter m g).sense d = s.sense d := rfl
@[simp] theorem State.modPorter_clocked (s : State) (m : Nat) (g : Porter → Porter) :
    (s.modPorter m g).clocked = s.clocked := rfl
@[simp] theorem State.modPorter_physOf (s : State) (m : Nat) (g : Porter → Porter) (l : Nat) :
    (s.modPorter m g).physOf l = s.physOf l := rfl
@[simp] theorem State.modPorter_logicalOf (s : State) (m : Nat) (g : Porter → Porter) (p : Nat) :
    (s.modPorter m g).logicalOf p = s.logicalOf p := rfl
@[simp] theorem State.modPorter_ownsCore (s : State) (m : Nat) (g : Porter → Porter) (p l : Nat) :
    (s.modPorter m g).ownsCore p l = s.ownsCore p l := rfl
@[simp] theorem State.modPorter_partOf (s : State) (m : Nat) (g : Porter → Porter) (l : Nat) :
    (s.modPorter m g).partOf l = s.partOf l := rfl
@[simp] theorem State.modPorter_partOfPhys (s : State) (m : Nat) (g : Porter → Porter) (p : Nat) :
    (s.modPorter m g).partOfPhys p = s.partOfPhys p := rfl
@[simp] theorem State.modPorter_partNo (s : State) (m : Nat) (g : Porter → Porter) (l : Nat) :
    (s.modPorter m g).partNo l = s.partNo l := rfl
@[simp] theorem State.modPorter_coresOf (s : State) (m : Nat) (g : Porter → Porter) (p : Nat) :
    (s.modPorter m g).coresOf p = s.coresOf p := rfl
@[simp] theorem State.modPorter_physOfPart (s : State) (m : Nat) (g : Porter → Porter) (p : Nat) :
    (s.modPorter m g).physOfPart p = s.physOfPart p := rfl
@[simp] theorem State.modPorter_vfOf (s : State) (m : Nat) (g : Porter → Porter) (p : Nat) :
    (s.modPorter m g).vfOf p = s.vfOf p := rfl
@[simp] theorem State.modPorter_fnOfPart (s : State) (m : Nat) (g : Porter → Porter) (p : Nat) :
    (s.modPorter m g).fnOfPart p = s.fnOfPart p := rfl
@[simp] theorem State.modPorter_freeVal (s : State) (m : Nat) (g : Porter → Porter) :
    (s.modPorter m g).freeVal = s.freeVal := rfl
@[simp] theorem State.modPorter_dieNow (s : State) (m : Nat) (g : Porter → Porter) (d : Nat) :
    (s.modPorter m g).dieNow d = s.dieNow d := rfl
@[simp] theorem State.modPorter_stretched (s : State) (m : Nat) (g : Porter → Porter) (d : Nat) :
    (s.modPorter m g).stretched d = s.stretched d := rfl
@[simp] theorem State.modPorter_mapped (s : State) (m : Nat) (g : Porter → Porter) (a n : Nat) :
    (s.modPorter m g).mapped a n = s.mapped a n := rfl
@[simp] theorem State.modPorter_inWindow (s : State) (m : Nat) (g : Porter → Porter) (q a n : Nat) :
    (s.modPorter m g).inWindow q a n = s.inWindow q a n := rfl
@[simp] theorem State.modPorter_admitted (s : State) (m : Nat) (g : Porter → Porter) (q : Nat) (byCore store : Bool) (a n : Nat) :
    (s.modPorter m g).admitted q byCore store a n = s.admitted q byCore store a n := rfl
@[simp] theorem State.modPorter_ownerOf (s : State) (m : Nat) (g : Porter → Porter) (a : Nat) :
    (s.modPorter m g).ownerOf a = s.ownerOf a := rfl
@[simp] theorem State.modPorter_failedChan (s : State) (m : Nat) (g : Porter → Porter) (a n : Nat) :
    (s.modPorter m g).failedChan a n = s.failedChan a n := rfl
@[simp] theorem State.modPorter_failedStack (s : State) (m : Nat) (g : Porter → Porter) (a n : Nat) :
    (s.modPorter m g).failedStack a n = s.failedStack a n := rfl
@[simp] theorem State.modPorter_failedIn (s : State) (m : Nat) (g : Porter → Porter) (segs : List (Nat × Nat)) :
    (s.modPorter m g).failedIn segs = s.failedIn segs := rfl
@[simp] theorem State.modPorter_markAt (s : State) (m : Nat) (g : Porter → Porter) (p a : Nat) :
    (s.modPorter m g).markAt p a = s.markAt p a := rfl
@[simp] theorem State.modPorter_byteAt (s : State) (m : Nat) (g : Porter → Porter) (p a : Nat) :
    (s.modPorter m g).byteAt p a = s.byteAt p a := rfl
@[simp] theorem State.modPorter_bytesAt (s : State) (m : Nat) (g : Porter → Porter) (p a n : Nat) :
    (s.modPorter m g).bytesAt p a n = s.bytesAt p a n := rfl
@[simp] theorem State.modPorter_wordAt (s : State) (m : Nat) (g : Porter → Porter) (p a : Nat) :
    (s.modPorter m g).wordAt p a = s.wordAt p a := rfl
@[simp] theorem State.modPorter_bufRef (s : State) (m : Nat) (g : Porter → Porter) (p q : Nat) (stm : BitVec 3) (r : BitVec 14) :
    (s.modPorter m g).bufRef p q stm r = s.bufRef p q stm r := rfl
@[simp] theorem State.modPorter_tok (s : State) (m : Nat) (g : Porter → Porter) (p : Nat) (z1 : Buf) :
    (s.modPorter m g).tok p z1 = s.tok p z1 := rfl
@[simp] theorem State.modPorter_missing (s : State) (m : Nat) (g : Porter → Porter) (p : Nat) (z1 : Buf) :
    (s.modPorter m g).missing p z1 = s.missing p z1 := rfl
@[simp] theorem State.modPorter_usedPhys (s : State) (m : Nat) (g : Porter → Porter) (q : Nat) :
    (s.modPorter m g).usedPhys q = s.usedPhys q := rfl
@[simp] theorem State.modPorter_link (s : State) (m : Nat) (g : Porter → Porter) (l : Nat) :
    (s.modPorter m g).link l = s.link l := rfl
@[simp] theorem State.modPorter_lantern (s : State) (m : Nat) (g : Porter → Porter) (z0 : Nat) :
    (s.modPorter m g).lantern z0 = s.lantern z0 := rfl
@[simp] theorem State.modPorter_coord (s : State) (m : Nat) (g : Porter → Porter) :
    (s.modPorter m g).coord = s.coord := rfl
@[simp] theorem State.modPorter_qp (s : State) (m : Nat) (g : Porter → Porter) (q : Nat) :
    (s.modPorter m g).qp q = s.qp q := rfl
@[simp] theorem State.modPorter_page (s : State) (m : Nat) (g : Porter → Porter) (z0 p : Nat) :
    (s.modPorter m g).page z0 p = s.page z0 p := rfl
@[simp] theorem State.modPorter_region (s : State) (m : Nat) (g : Porter → Porter) (i : Nat) :
    (s.modPorter m g).region i = s.region i := rfl
@[simp] theorem State.modPorter_ownsQp (s : State) (m : Nat) (g : Porter → Porter) (part q : Nat) :
    (s.modPorter m g).ownsQp part q = s.ownsQp part q := rfl
@[simp] theorem State.modPorter_convoy (s : State) (m : Nat) (g : Porter → Porter) (p : Nat) :
    (s.modPorter m g).convoy p = s.convoy p := rfl
@[simp] theorem State.modPorter_house (s : State) (m : Nat) (g : Porter → Porter) (n : Nat) :
    (s.modPorter m g).house n = s.house n := rfl
@[simp] theorem State.modPorter_cus (s : State) (m : Nat) (g : Porter → Porter) (p : Nat) :
    (s.modPorter m g).cus p = s.cus p := rfl
@[simp] theorem State.modPorter_keySlot (s : State) (m : Nat) (g : Porter → Porter) (i : Nat) :
    (s.modPorter m g).keySlot i = s.keySlot i := rfl
@[simp] theorem State.modPorter_slotRef (s : State) (m : Nat) (g : Porter → Porter) (i : Nat) :
    (s.modPorter m g).slotRef i = s.slotRef i := rfl
@[simp] theorem State.modPorter_ms (s : State) (m : Nat) (g : Porter → Porter) (q : Nat) :
    (s.modPorter m g).ms q = s.ms q := rfl
@[simp] theorem State.modPorter_obj (s : State) (m : Nat) (g : Porter → Porter) (q o : Nat) :
    (s.modPorter m g).obj q o = s.obj q o := rfl
@[simp] theorem State.modPorter_exists_ (s : State) (m : Nat) (g : Porter → Porter) (p : Nat) :
    (s.modPorter m g).exists_ p = s.exists_ p := rfl
@[simp] theorem State.modPorter_unbound (s : State) (m : Nat) (g : Porter → Porter) (f : Nat) :
    (s.modPorter m g).unbound f = s.unbound f := rfl
@[simp] theorem State.modPorter_sees (s : State) (m : Nat) (g : Porter → Porter) (fn : Nat) (b : BarBlock) :
    (s.modPorter m g).sees fn b = s.sees fn b := rfl
@[simp] theorem State.modPorter_mayWrite (s : State) (m : Nat) (g : Porter → Porter) (src : Source) (b : BarBlock) :
    (s.modPorter m g).mayWrite src b = s.mayWrite src b := rfl
@[simp] theorem State.modPorter_seraiOn (s : State) (m : Nat) (g : Porter → Porter) :
    (s.modPorter m g).seraiOn = s.seraiOn := rfl
@[simp] theorem State.modPorter_issuing (s : State) (m : Nat) (g : Porter → Porter) (l : Nat) :
    (s.modPorter m g).issuing l = s.issuing l := rfl
@[simp] theorem State.modPorter_waiting (s : State) (m : Nat) (g : Porter → Porter) (l : Nat) :
    (s.modPorter m g).waiting l = s.waiting l := rfl
@[simp] theorem State.modPorter_route (s : State) (m : Nat) (g : Porter → Porter) (ok : LinkSt → Bool) (plane : Bool) (src dst f : Nat) :
    (s.modPorter m g).route ok plane src dst f = s.route ok plane src dst f := rfl

@[simp] theorem State.modPage_pending (s : State) (m p : Nat) (g : PqPage → PqPage) :
    (s.modPage m p g).pending = s.pending := rfl
@[simp] theorem State.modPage_free (s : State) (m p : Nat) (g : PqPage → PqPage) :
    (s.modPage m p g).free = s.free := rfl
@[simp] theorem State.modPage_now (s : State) (m p : Nat) (g : PqPage → PqPage) :
    (s.modPage m p g).now = s.now := rfl
@[simp] theorem State.modPage_fns (s : State) (m p : Nat) (g : PqPage → PqPage) :
    (s.modPage m p g).fns = s.fns := rfl
@[simp] theorem State.modPage_host (s : State) (m p : Nat) (g : PqPage → PqPage) :
    (s.modPage m p g).host = s.host := rfl
@[simp] theorem State.modPage_log (s : State) (m p : Nat) (g : PqPage → PqPage) :
    (s.modPage m p g).log = s.log := rfl
@[simp] theorem State.modPage_mod (s : State) (m p : Nat) (g : PqPage → PqPage) :
    (s.modPage m p g).mod = s.mod := rfl
@[simp] theorem State.modPage_phys (s : State) (m p : Nat) (g : PqPage → PqPage) :
    (s.modPage m p g).phys = s.phys := rfl
@[simp] theorem State.modPage_mem (s : State) (m p : Nat) (g : PqPage → PqPage) :
    (s.modPage m p g).mem = s.mem := rfl
@[simp] theorem State.modPage_cisDies (s : State) (m p : Nat) (g : PqPage → PqPage) :
    (s.modPage m p g).cisDies = s.cisDies := rfl
@[simp] theorem State.modPage_cwy (s : State) (m p : Nat) (g : PqPage → PqPage) :
    (s.modPage m p g).cwy = s.cwy := rfl
@[simp] theorem State.modPage_lostCopies (s : State) (m p : Nat) (g : PqPage → PqPage) :
    (s.modPage m p g).lostCopies = s.lostCopies := rfl
@[simp] theorem State.modPage_cores (s : State) (m p : Nat) (g : PqPage → PqPage) :
    (s.modPage m p g).cores = s.cores := rfl
@[simp] theorem State.modPage_dies (s : State) (m p : Nat) (g : PqPage → PqPage) :
    (s.modPage m p g).dies = s.dies := rfl
@[simp] theorem State.modPage_parts (s : State) (m p : Nat) (g : PqPage → PqPage) :
    (s.modPage m p g).parts = s.parts := rfl
@[simp] theorem State.modPage_links (s : State) (m p : Nat) (g : PqPage → PqPage) :
    (s.modPage m p g).links = s.links := rfl
@[simp] theorem State.modPage_lanternCfg (s : State) (m p : Nat) (g : PqPage → PqPage) :
    (s.modPage m p g).lanternCfg = s.lanternCfg := rfl
@[simp] theorem State.modPage_tollWait (s : State) (m p : Nat) (g : PqPage → PqPage) :
    (s.modPage m p g).tollWait = s.tollWait := rfl
@[simp] theorem State.modPage_qps (s : State) (m p : Nat) (g : PqPage → PqPage) :
    (s.modPage m p g).qps = s.qps := rfl
@[simp] theorem State.modPage_porters (s : State) (m p : Nat) (g : PqPage → PqPage) :
    (s.modPage m p g).porters = s.porters := rfl
@[simp] theorem State.modPage_selfFrames (s : State) (m p : Nat) (g : PqPage → PqPage) :
    (s.modPage m p g).selfFrames = s.selfFrames := rfl
@[simp] theorem State.modPage_regions (s : State) (m p : Nat) (g : PqPage → PqPage) :
    (s.modPage m p g).regions = s.regions := rfl
@[simp] theorem State.modPage_convoys (s : State) (m p : Nat) (g : PqPage → PqPage) :
    (s.modPage m p g).convoys = s.convoys := rfl
@[simp] theorem State.modPage_houses (s : State) (m p : Nat) (g : PqPage → PqPage) :
    (s.modPage m p g).houses = s.houses := rfl
@[simp] theorem State.modPage_pendFrames (s : State) (m p : Nat) (g : PqPage → PqPage) :
    (s.modPage m p g).pendFrames = s.pendFrames := rfl
@[simp] theorem State.modPage_nextFrameId (s : State) (m p : Nat) (g : PqPage → PqPage) :
    (s.modPage m p g).nextFrameId = s.nextFrameId := rfl
@[simp] theorem State.modPage_customs (s : State) (m p : Nat) (g : PqPage → PqPage) :
    (s.modPage m p g).customs = s.customs := rfl
@[simp] theorem State.modPage_cusParts (s : State) (m p : Nat) (g : PqPage → PqPage) :
    (s.modPage m p g).cusParts = s.cusParts := rfl
@[simp] theorem State.modPage_pwr (s : State) (m p : Nat) (g : PqPage → PqPage) :
    (s.modPage m p g).pwr = s.pwr := rfl
@[simp] theorem State.modPage_time (s : State) (m p : Nat) (g : PqPage → PqPage) :
    (s.modPage m p g).time = s.time := rfl
@[simp] theorem State.modPage_life (s : State) (m p : Nat) (g : PqPage → PqPage) :
    (s.modPage m p g).life = s.life := rfl
@[simp] theorem State.modPage_totals (s : State) (m p : Nat) (g : PqPage → PqPage) :
    (s.modPage m p g).totals = s.totals := rfl
@[simp] theorem State.modPage_totSnap (s : State) (m p : Nat) (g : PqPage → PqPage) :
    (s.modPage m p g).totSnap = s.totSnap := rfl
@[simp] theorem State.modPage_totTime (s : State) (m p : Nat) (g : PqPage → PqPage) :
    (s.modPage m p g).totTime = s.totTime := rfl
@[simp] theorem State.modPage_gapSerai (s : State) (m p : Nat) (g : PqPage → PqPage) :
    (s.modPage m p g).gapSerai = s.gapSerai := rfl
@[simp] theorem State.modPage_fn (s : State) (m p : Nat) (g : PqPage → PqPage) (f : Nat) :
    (s.modPage m p g).fn f = s.fn f := rfl
@[simp] theorem State.modPage_queue (s : State) (m p : Nat) (g : PqPage → PqPage) (f q : Nat) :
    (s.modPage m p g).queue f q = s.queue f q := rfl
@[simp] theorem State.modPage_core (s : State) (m p : Nat) (g : PqPage → PqPage) (z0 : Nat) :
    (s.modPage m p g).core z0 = s.core z0 := rfl
@[simp] theorem State.modPage_die (s : State) (m p : Nat) (g : PqPage → PqPage) (n : Nat) :
    (s.modPage m p g).die n = s.die n := rfl
@[simp] theorem State.modPage_part (s : State) (m p : Nat) (g : PqPage → PqPage) (z0 : Nat) :
    (s.modPage m p g).part z0 = s.part z0 := rfl
@[simp] theorem State.modPage_cis (s : State) (m p : Nat) (g : PqPage → PqPage) (z0 : Nat) :
    (s.modPage m p g).cis z0 = s.cis z0 := rfl
@[simp] theorem State.modPage_sense (s : State) (m p : Nat) (g : PqPage → PqPage) (d : Nat) :
    (s.modPage m p g).sense d = s.sense d := rfl
@[simp] theorem State.modPage_clocked (s : State) (m p : Nat) (g : PqPage → PqPage) :
    (s.modPage m p g).clocked = s.clocked := rfl
@[simp] theorem State.modPage_physOf (s : State) (m p : Nat) (g : PqPage → PqPage) (l : Nat) :
    (s.modPage m p g).physOf l = s.physOf l := rfl
@[simp] theorem State.modPage_logicalOf (s : State) (m p : Nat) (g : PqPage → PqPage) (z0 : Nat) :
    (s.modPage m p g).logicalOf z0 = s.logicalOf z0 := rfl
@[simp] theorem State.modPage_ownsCore (s : State) (m p : Nat) (g : PqPage → PqPage) (z0 l : Nat) :
    (s.modPage m p g).ownsCore z0 l = s.ownsCore z0 l := rfl
@[simp] theorem State.modPage_partOf (s : State) (m p : Nat) (g : PqPage → PqPage) (l : Nat) :
    (s.modPage m p g).partOf l = s.partOf l := rfl
@[simp] theorem State.modPage_partOfPhys (s : State) (m p : Nat) (g : PqPage → PqPage) (z0 : Nat) :
    (s.modPage m p g).partOfPhys z0 = s.partOfPhys z0 := rfl
@[simp] theorem State.modPage_partNo (s : State) (m p : Nat) (g : PqPage → PqPage) (l : Nat) :
    (s.modPage m p g).partNo l = s.partNo l := rfl
@[simp] theorem State.modPage_coresOf (s : State) (m p : Nat) (g : PqPage → PqPage) (z0 : Nat) :
    (s.modPage m p g).coresOf z0 = s.coresOf z0 := rfl
@[simp] theorem State.modPage_physOfPart (s : State) (m p : Nat) (g : PqPage → PqPage) (z0 : Nat) :
    (s.modPage m p g).physOfPart z0 = s.physOfPart z0 := rfl
@[simp] theorem State.modPage_vfOf (s : State) (m p : Nat) (g : PqPage → PqPage) (z0 : Nat) :
    (s.modPage m p g).vfOf z0 = s.vfOf z0 := rfl
@[simp] theorem State.modPage_fnOfPart (s : State) (m p : Nat) (g : PqPage → PqPage) (z0 : Nat) :
    (s.modPage m p g).fnOfPart z0 = s.fnOfPart z0 := rfl
@[simp] theorem State.modPage_freeVal (s : State) (m p : Nat) (g : PqPage → PqPage) :
    (s.modPage m p g).freeVal = s.freeVal := rfl
@[simp] theorem State.modPage_dieNow (s : State) (m p : Nat) (g : PqPage → PqPage) (d : Nat) :
    (s.modPage m p g).dieNow d = s.dieNow d := rfl
@[simp] theorem State.modPage_stretched (s : State) (m p : Nat) (g : PqPage → PqPage) (d : Nat) :
    (s.modPage m p g).stretched d = s.stretched d := rfl
@[simp] theorem State.modPage_mapped (s : State) (m p : Nat) (g : PqPage → PqPage) (a n : Nat) :
    (s.modPage m p g).mapped a n = s.mapped a n := rfl
@[simp] theorem State.modPage_inWindow (s : State) (m p : Nat) (g : PqPage → PqPage) (q a n : Nat) :
    (s.modPage m p g).inWindow q a n = s.inWindow q a n := rfl
@[simp] theorem State.modPage_admitted (s : State) (m p : Nat) (g : PqPage → PqPage) (q : Nat) (byCore store : Bool) (a n : Nat) :
    (s.modPage m p g).admitted q byCore store a n = s.admitted q byCore store a n := rfl
@[simp] theorem State.modPage_ownerOf (s : State) (m p : Nat) (g : PqPage → PqPage) (a : Nat) :
    (s.modPage m p g).ownerOf a = s.ownerOf a := rfl
@[simp] theorem State.modPage_failedChan (s : State) (m p : Nat) (g : PqPage → PqPage) (a n : Nat) :
    (s.modPage m p g).failedChan a n = s.failedChan a n := rfl
@[simp] theorem State.modPage_failedStack (s : State) (m p : Nat) (g : PqPage → PqPage) (a n : Nat) :
    (s.modPage m p g).failedStack a n = s.failedStack a n := rfl
@[simp] theorem State.modPage_failedIn (s : State) (m p : Nat) (g : PqPage → PqPage) (segs : List (Nat × Nat)) :
    (s.modPage m p g).failedIn segs = s.failedIn segs := rfl
@[simp] theorem State.modPage_markAt (s : State) (m p : Nat) (g : PqPage → PqPage) (z0 a : Nat) :
    (s.modPage m p g).markAt z0 a = s.markAt z0 a := rfl
@[simp] theorem State.modPage_byteAt (s : State) (m p : Nat) (g : PqPage → PqPage) (z0 a : Nat) :
    (s.modPage m p g).byteAt z0 a = s.byteAt z0 a := rfl
@[simp] theorem State.modPage_bytesAt (s : State) (m p : Nat) (g : PqPage → PqPage) (z0 a n : Nat) :
    (s.modPage m p g).bytesAt z0 a n = s.bytesAt z0 a n := rfl
@[simp] theorem State.modPage_wordAt (s : State) (m p : Nat) (g : PqPage → PqPage) (z0 a : Nat) :
    (s.modPage m p g).wordAt z0 a = s.wordAt z0 a := rfl
@[simp] theorem State.modPage_bufRef (s : State) (m p : Nat) (g : PqPage → PqPage) (z0 q : Nat) (stm : BitVec 3) (r : BitVec 14) :
    (s.modPage m p g).bufRef z0 q stm r = s.bufRef z0 q stm r := rfl
@[simp] theorem State.modPage_tok (s : State) (m p : Nat) (g : PqPage → PqPage) (z0 : Nat) (z1 : Buf) :
    (s.modPage m p g).tok z0 z1 = s.tok z0 z1 := rfl
@[simp] theorem State.modPage_missing (s : State) (m p : Nat) (g : PqPage → PqPage) (z0 : Nat) (z1 : Buf) :
    (s.modPage m p g).missing z0 z1 = s.missing z0 z1 := rfl
@[simp] theorem State.modPage_usedPhys (s : State) (m p : Nat) (g : PqPage → PqPage) (q : Nat) :
    (s.modPage m p g).usedPhys q = s.usedPhys q := rfl
@[simp] theorem State.modPage_link (s : State) (m p : Nat) (g : PqPage → PqPage) (l : Nat) :
    (s.modPage m p g).link l = s.link l := rfl
@[simp] theorem State.modPage_lantern (s : State) (m p : Nat) (g : PqPage → PqPage) (z0 : Nat) :
    (s.modPage m p g).lantern z0 = s.lantern z0 := rfl
@[simp] theorem State.modPage_coord (s : State) (m p : Nat) (g : PqPage → PqPage) :
    (s.modPage m p g).coord = s.coord := rfl
@[simp] theorem State.modPage_qp (s : State) (m p : Nat) (g : PqPage → PqPage) (q : Nat) :
    (s.modPage m p g).qp q = s.qp q := rfl
@[simp] theorem State.modPage_porter (s : State) (m p : Nat) (g : PqPage → PqPage) (z0 : Nat) :
    (s.modPage m p g).porter z0 = s.porter z0 := rfl
@[simp] theorem State.modPage_region (s : State) (m p : Nat) (g : PqPage → PqPage) (i : Nat) :
    (s.modPage m p g).region i = s.region i := rfl
@[simp] theorem State.modPage_ownsQp (s : State) (m p : Nat) (g : PqPage → PqPage) (part q : Nat) :
    (s.modPage m p g).ownsQp part q = s.ownsQp part q := rfl
@[simp] theorem State.modPage_convoy (s : State) (m p : Nat) (g : PqPage → PqPage) (z0 : Nat) :
    (s.modPage m p g).convoy z0 = s.convoy z0 := rfl
@[simp] theorem State.modPage_house (s : State) (m p : Nat) (g : PqPage → PqPage) (n : Nat) :
    (s.modPage m p g).house n = s.house n := rfl
@[simp] theorem State.modPage_cus (s : State) (m p : Nat) (g : PqPage → PqPage) (z0 : Nat) :
    (s.modPage m p g).cus z0 = s.cus z0 := rfl
@[simp] theorem State.modPage_keySlot (s : State) (m p : Nat) (g : PqPage → PqPage) (i : Nat) :
    (s.modPage m p g).keySlot i = s.keySlot i := rfl
@[simp] theorem State.modPage_slotRef (s : State) (m p : Nat) (g : PqPage → PqPage) (i : Nat) :
    (s.modPage m p g).slotRef i = s.slotRef i := rfl
@[simp] theorem State.modPage_ms (s : State) (m p : Nat) (g : PqPage → PqPage) (q : Nat) :
    (s.modPage m p g).ms q = s.ms q := rfl
@[simp] theorem State.modPage_obj (s : State) (m p : Nat) (g : PqPage → PqPage) (q o : Nat) :
    (s.modPage m p g).obj q o = s.obj q o := rfl
@[simp] theorem State.modPage_exists_ (s : State) (m p : Nat) (g : PqPage → PqPage) (z0 : Nat) :
    (s.modPage m p g).exists_ z0 = s.exists_ z0 := rfl
@[simp] theorem State.modPage_unbound (s : State) (m p : Nat) (g : PqPage → PqPage) (f : Nat) :
    (s.modPage m p g).unbound f = s.unbound f := rfl
@[simp] theorem State.modPage_sees (s : State) (m p : Nat) (g : PqPage → PqPage) (fn : Nat) (b : BarBlock) :
    (s.modPage m p g).sees fn b = s.sees fn b := rfl
@[simp] theorem State.modPage_mayWrite (s : State) (m p : Nat) (g : PqPage → PqPage) (src : Source) (b : BarBlock) :
    (s.modPage m p g).mayWrite src b = s.mayWrite src b := rfl
@[simp] theorem State.modPage_seraiOn (s : State) (m p : Nat) (g : PqPage → PqPage) :
    (s.modPage m p g).seraiOn = s.seraiOn := rfl
@[simp] theorem State.modPage_issuing (s : State) (m p : Nat) (g : PqPage → PqPage) (l : Nat) :
    (s.modPage m p g).issuing l = s.issuing l := rfl
@[simp] theorem State.modPage_waiting (s : State) (m p : Nat) (g : PqPage → PqPage) (l : Nat) :
    (s.modPage m p g).waiting l = s.waiting l := rfl
@[simp] theorem State.modPage_route (s : State) (m p : Nat) (g : PqPage → PqPage) (ok : LinkSt → Bool) (plane : Bool) (src dst f : Nat) :
    (s.modPage m p g).route ok plane src dst f = s.route ok plane src dst f := rfl

@[simp] theorem State.modRegion_pending (s : State) (i : Nat) (g : Region → Region) :
    (s.modRegion i g).pending = s.pending := rfl
@[simp] theorem State.modRegion_free (s : State) (i : Nat) (g : Region → Region) :
    (s.modRegion i g).free = s.free := rfl
@[simp] theorem State.modRegion_now (s : State) (i : Nat) (g : Region → Region) :
    (s.modRegion i g).now = s.now := rfl
@[simp] theorem State.modRegion_fns (s : State) (i : Nat) (g : Region → Region) :
    (s.modRegion i g).fns = s.fns := rfl
@[simp] theorem State.modRegion_host (s : State) (i : Nat) (g : Region → Region) :
    (s.modRegion i g).host = s.host := rfl
@[simp] theorem State.modRegion_log (s : State) (i : Nat) (g : Region → Region) :
    (s.modRegion i g).log = s.log := rfl
@[simp] theorem State.modRegion_mod (s : State) (i : Nat) (g : Region → Region) :
    (s.modRegion i g).mod = s.mod := rfl
@[simp] theorem State.modRegion_phys (s : State) (i : Nat) (g : Region → Region) :
    (s.modRegion i g).phys = s.phys := rfl
@[simp] theorem State.modRegion_mem (s : State) (i : Nat) (g : Region → Region) :
    (s.modRegion i g).mem = s.mem := rfl
@[simp] theorem State.modRegion_cisDies (s : State) (i : Nat) (g : Region → Region) :
    (s.modRegion i g).cisDies = s.cisDies := rfl
@[simp] theorem State.modRegion_cwy (s : State) (i : Nat) (g : Region → Region) :
    (s.modRegion i g).cwy = s.cwy := rfl
@[simp] theorem State.modRegion_lostCopies (s : State) (i : Nat) (g : Region → Region) :
    (s.modRegion i g).lostCopies = s.lostCopies := rfl
@[simp] theorem State.modRegion_cores (s : State) (i : Nat) (g : Region → Region) :
    (s.modRegion i g).cores = s.cores := rfl
@[simp] theorem State.modRegion_dies (s : State) (i : Nat) (g : Region → Region) :
    (s.modRegion i g).dies = s.dies := rfl
@[simp] theorem State.modRegion_parts (s : State) (i : Nat) (g : Region → Region) :
    (s.modRegion i g).parts = s.parts := rfl
@[simp] theorem State.modRegion_links (s : State) (i : Nat) (g : Region → Region) :
    (s.modRegion i g).links = s.links := rfl
@[simp] theorem State.modRegion_lanternCfg (s : State) (i : Nat) (g : Region → Region) :
    (s.modRegion i g).lanternCfg = s.lanternCfg := rfl
@[simp] theorem State.modRegion_tollWait (s : State) (i : Nat) (g : Region → Region) :
    (s.modRegion i g).tollWait = s.tollWait := rfl
@[simp] theorem State.modRegion_qps (s : State) (i : Nat) (g : Region → Region) :
    (s.modRegion i g).qps = s.qps := rfl
@[simp] theorem State.modRegion_porters (s : State) (i : Nat) (g : Region → Region) :
    (s.modRegion i g).porters = s.porters := rfl
@[simp] theorem State.modRegion_pages (s : State) (i : Nat) (g : Region → Region) :
    (s.modRegion i g).pages = s.pages := rfl
@[simp] theorem State.modRegion_selfFrames (s : State) (i : Nat) (g : Region → Region) :
    (s.modRegion i g).selfFrames = s.selfFrames := rfl
@[simp] theorem State.modRegion_convoys (s : State) (i : Nat) (g : Region → Region) :
    (s.modRegion i g).convoys = s.convoys := rfl
@[simp] theorem State.modRegion_houses (s : State) (i : Nat) (g : Region → Region) :
    (s.modRegion i g).houses = s.houses := rfl
@[simp] theorem State.modRegion_pendFrames (s : State) (i : Nat) (g : Region → Region) :
    (s.modRegion i g).pendFrames = s.pendFrames := rfl
@[simp] theorem State.modRegion_nextFrameId (s : State) (i : Nat) (g : Region → Region) :
    (s.modRegion i g).nextFrameId = s.nextFrameId := rfl
@[simp] theorem State.modRegion_customs (s : State) (i : Nat) (g : Region → Region) :
    (s.modRegion i g).customs = s.customs := rfl
@[simp] theorem State.modRegion_cusParts (s : State) (i : Nat) (g : Region → Region) :
    (s.modRegion i g).cusParts = s.cusParts := rfl
@[simp] theorem State.modRegion_pwr (s : State) (i : Nat) (g : Region → Region) :
    (s.modRegion i g).pwr = s.pwr := rfl
@[simp] theorem State.modRegion_time (s : State) (i : Nat) (g : Region → Region) :
    (s.modRegion i g).time = s.time := rfl
@[simp] theorem State.modRegion_life (s : State) (i : Nat) (g : Region → Region) :
    (s.modRegion i g).life = s.life := rfl
@[simp] theorem State.modRegion_totals (s : State) (i : Nat) (g : Region → Region) :
    (s.modRegion i g).totals = s.totals := rfl
@[simp] theorem State.modRegion_totSnap (s : State) (i : Nat) (g : Region → Region) :
    (s.modRegion i g).totSnap = s.totSnap := rfl
@[simp] theorem State.modRegion_totTime (s : State) (i : Nat) (g : Region → Region) :
    (s.modRegion i g).totTime = s.totTime := rfl
@[simp] theorem State.modRegion_gapSerai (s : State) (i : Nat) (g : Region → Region) :
    (s.modRegion i g).gapSerai = s.gapSerai := rfl
@[simp] theorem State.modRegion_fn (s : State) (i : Nat) (g : Region → Region) (f : Nat) :
    (s.modRegion i g).fn f = s.fn f := rfl
@[simp] theorem State.modRegion_queue (s : State) (i : Nat) (g : Region → Region) (f q : Nat) :
    (s.modRegion i g).queue f q = s.queue f q := rfl
@[simp] theorem State.modRegion_core (s : State) (i : Nat) (g : Region → Region) (p : Nat) :
    (s.modRegion i g).core p = s.core p := rfl
@[simp] theorem State.modRegion_die (s : State) (i : Nat) (g : Region → Region) (n : Nat) :
    (s.modRegion i g).die n = s.die n := rfl
@[simp] theorem State.modRegion_part (s : State) (i : Nat) (g : Region → Region) (p : Nat) :
    (s.modRegion i g).part p = s.part p := rfl
@[simp] theorem State.modRegion_cis (s : State) (i : Nat) (g : Region → Region) (m : Nat) :
    (s.modRegion i g).cis m = s.cis m := rfl
@[simp] theorem State.modRegion_sense (s : State) (i : Nat) (g : Region → Region) (d : Nat) :
    (s.modRegion i g).sense d = s.sense d := rfl
@[simp] theorem State.modRegion_clocked (s : State) (i : Nat) (g : Region → Region) :
    (s.modRegion i g).clocked = s.clocked := rfl
@[simp] theorem State.modRegion_physOf (s : State) (i : Nat) (g : Region → Region) (l : Nat) :
    (s.modRegion i g).physOf l = s.physOf l := rfl
@[simp] theorem State.modRegion_logicalOf (s : State) (i : Nat) (g : Region → Region) (p : Nat) :
    (s.modRegion i g).logicalOf p = s.logicalOf p := rfl
@[simp] theorem State.modRegion_ownsCore (s : State) (i : Nat) (g : Region → Region) (p l : Nat) :
    (s.modRegion i g).ownsCore p l = s.ownsCore p l := rfl
@[simp] theorem State.modRegion_partOf (s : State) (i : Nat) (g : Region → Region) (l : Nat) :
    (s.modRegion i g).partOf l = s.partOf l := rfl
@[simp] theorem State.modRegion_partOfPhys (s : State) (i : Nat) (g : Region → Region) (p : Nat) :
    (s.modRegion i g).partOfPhys p = s.partOfPhys p := rfl
@[simp] theorem State.modRegion_partNo (s : State) (i : Nat) (g : Region → Region) (l : Nat) :
    (s.modRegion i g).partNo l = s.partNo l := rfl
@[simp] theorem State.modRegion_coresOf (s : State) (i : Nat) (g : Region → Region) (p : Nat) :
    (s.modRegion i g).coresOf p = s.coresOf p := rfl
@[simp] theorem State.modRegion_physOfPart (s : State) (i : Nat) (g : Region → Region) (p : Nat) :
    (s.modRegion i g).physOfPart p = s.physOfPart p := rfl
@[simp] theorem State.modRegion_vfOf (s : State) (i : Nat) (g : Region → Region) (p : Nat) :
    (s.modRegion i g).vfOf p = s.vfOf p := rfl
@[simp] theorem State.modRegion_fnOfPart (s : State) (i : Nat) (g : Region → Region) (p : Nat) :
    (s.modRegion i g).fnOfPart p = s.fnOfPart p := rfl
@[simp] theorem State.modRegion_freeVal (s : State) (i : Nat) (g : Region → Region) :
    (s.modRegion i g).freeVal = s.freeVal := rfl
@[simp] theorem State.modRegion_dieNow (s : State) (i : Nat) (g : Region → Region) (d : Nat) :
    (s.modRegion i g).dieNow d = s.dieNow d := rfl
@[simp] theorem State.modRegion_stretched (s : State) (i : Nat) (g : Region → Region) (d : Nat) :
    (s.modRegion i g).stretched d = s.stretched d := rfl
@[simp] theorem State.modRegion_mapped (s : State) (i : Nat) (g : Region → Region) (a n : Nat) :
    (s.modRegion i g).mapped a n = s.mapped a n := rfl
@[simp] theorem State.modRegion_inWindow (s : State) (i : Nat) (g : Region → Region) (q a n : Nat) :
    (s.modRegion i g).inWindow q a n = s.inWindow q a n := rfl
@[simp] theorem State.modRegion_admitted (s : State) (i : Nat) (g : Region → Region) (q : Nat) (byCore store : Bool) (a n : Nat) :
    (s.modRegion i g).admitted q byCore store a n = s.admitted q byCore store a n := rfl
@[simp] theorem State.modRegion_ownerOf (s : State) (i : Nat) (g : Region → Region) (a : Nat) :
    (s.modRegion i g).ownerOf a = s.ownerOf a := rfl
@[simp] theorem State.modRegion_failedChan (s : State) (i : Nat) (g : Region → Region) (a n : Nat) :
    (s.modRegion i g).failedChan a n = s.failedChan a n := rfl
@[simp] theorem State.modRegion_failedStack (s : State) (i : Nat) (g : Region → Region) (a n : Nat) :
    (s.modRegion i g).failedStack a n = s.failedStack a n := rfl
@[simp] theorem State.modRegion_failedIn (s : State) (i : Nat) (g : Region → Region) (segs : List (Nat × Nat)) :
    (s.modRegion i g).failedIn segs = s.failedIn segs := rfl
@[simp] theorem State.modRegion_markAt (s : State) (i : Nat) (g : Region → Region) (p a : Nat) :
    (s.modRegion i g).markAt p a = s.markAt p a := rfl
@[simp] theorem State.modRegion_byteAt (s : State) (i : Nat) (g : Region → Region) (p a : Nat) :
    (s.modRegion i g).byteAt p a = s.byteAt p a := rfl
@[simp] theorem State.modRegion_bytesAt (s : State) (i : Nat) (g : Region → Region) (p a n : Nat) :
    (s.modRegion i g).bytesAt p a n = s.bytesAt p a n := rfl
@[simp] theorem State.modRegion_wordAt (s : State) (i : Nat) (g : Region → Region) (p a : Nat) :
    (s.modRegion i g).wordAt p a = s.wordAt p a := rfl
@[simp] theorem State.modRegion_bufRef (s : State) (i : Nat) (g : Region → Region) (p q : Nat) (stm : BitVec 3) (r : BitVec 14) :
    (s.modRegion i g).bufRef p q stm r = s.bufRef p q stm r := rfl
@[simp] theorem State.modRegion_tok (s : State) (i : Nat) (g : Region → Region) (p : Nat) (z1 : Buf) :
    (s.modRegion i g).tok p z1 = s.tok p z1 := rfl
@[simp] theorem State.modRegion_missing (s : State) (i : Nat) (g : Region → Region) (p : Nat) (z1 : Buf) :
    (s.modRegion i g).missing p z1 = s.missing p z1 := rfl
@[simp] theorem State.modRegion_usedPhys (s : State) (i : Nat) (g : Region → Region) (q : Nat) :
    (s.modRegion i g).usedPhys q = s.usedPhys q := rfl
@[simp] theorem State.modRegion_link (s : State) (i : Nat) (g : Region → Region) (l : Nat) :
    (s.modRegion i g).link l = s.link l := rfl
@[simp] theorem State.modRegion_lantern (s : State) (i : Nat) (g : Region → Region) (m : Nat) :
    (s.modRegion i g).lantern m = s.lantern m := rfl
@[simp] theorem State.modRegion_coord (s : State) (i : Nat) (g : Region → Region) :
    (s.modRegion i g).coord = s.coord := rfl
@[simp] theorem State.modRegion_qp (s : State) (i : Nat) (g : Region → Region) (q : Nat) :
    (s.modRegion i g).qp q = s.qp q := rfl
@[simp] theorem State.modRegion_porter (s : State) (i : Nat) (g : Region → Region) (m : Nat) :
    (s.modRegion i g).porter m = s.porter m := rfl
@[simp] theorem State.modRegion_page (s : State) (i : Nat) (g : Region → Region) (m p : Nat) :
    (s.modRegion i g).page m p = s.page m p := rfl
@[simp] theorem State.modRegion_ownsQp (s : State) (i : Nat) (g : Region → Region) (part q : Nat) :
    (s.modRegion i g).ownsQp part q = s.ownsQp part q := rfl
@[simp] theorem State.modRegion_convoy (s : State) (i : Nat) (g : Region → Region) (p : Nat) :
    (s.modRegion i g).convoy p = s.convoy p := rfl
@[simp] theorem State.modRegion_house (s : State) (i : Nat) (g : Region → Region) (n : Nat) :
    (s.modRegion i g).house n = s.house n := rfl
@[simp] theorem State.modRegion_cus (s : State) (i : Nat) (g : Region → Region) (p : Nat) :
    (s.modRegion i g).cus p = s.cus p := rfl
@[simp] theorem State.modRegion_keySlot (s : State) (i : Nat) (g : Region → Region) (z0 : Nat) :
    (s.modRegion i g).keySlot z0 = s.keySlot z0 := rfl
@[simp] theorem State.modRegion_ms (s : State) (i : Nat) (g : Region → Region) (q : Nat) :
    (s.modRegion i g).ms q = s.ms q := rfl
@[simp] theorem State.modRegion_obj (s : State) (i : Nat) (g : Region → Region) (q o : Nat) :
    (s.modRegion i g).obj q o = s.obj q o := rfl
@[simp] theorem State.modRegion_exists_ (s : State) (i : Nat) (g : Region → Region) (p : Nat) :
    (s.modRegion i g).exists_ p = s.exists_ p := rfl
@[simp] theorem State.modRegion_unbound (s : State) (i : Nat) (g : Region → Region) (f : Nat) :
    (s.modRegion i g).unbound f = s.unbound f := rfl
@[simp] theorem State.modRegion_sees (s : State) (i : Nat) (g : Region → Region) (fn : Nat) (b : BarBlock) :
    (s.modRegion i g).sees fn b = s.sees fn b := rfl
@[simp] theorem State.modRegion_mayWrite (s : State) (i : Nat) (g : Region → Region) (src : Source) (b : BarBlock) :
    (s.modRegion i g).mayWrite src b = s.mayWrite src b := rfl
@[simp] theorem State.modRegion_seraiOn (s : State) (i : Nat) (g : Region → Region) :
    (s.modRegion i g).seraiOn = s.seraiOn := rfl
@[simp] theorem State.modRegion_issuing (s : State) (i : Nat) (g : Region → Region) (l : Nat) :
    (s.modRegion i g).issuing l = s.issuing l := rfl
@[simp] theorem State.modRegion_waiting (s : State) (i : Nat) (g : Region → Region) (l : Nat) :
    (s.modRegion i g).waiting l = s.waiting l := rfl
@[simp] theorem State.modRegion_route (s : State) (i : Nat) (g : Region → Region) (ok : LinkSt → Bool) (plane : Bool) (src dst f : Nat) :
    (s.modRegion i g).route ok plane src dst f = s.route ok plane src dst f := rfl

@[simp] theorem State.modConvoy_pending (s : State) (p : Nat) (g : Convoy → Convoy) :
    (s.modConvoy p g).pending = s.pending := rfl
@[simp] theorem State.modConvoy_free (s : State) (p : Nat) (g : Convoy → Convoy) :
    (s.modConvoy p g).free = s.free := rfl
@[simp] theorem State.modConvoy_now (s : State) (p : Nat) (g : Convoy → Convoy) :
    (s.modConvoy p g).now = s.now := rfl
@[simp] theorem State.modConvoy_fns (s : State) (p : Nat) (g : Convoy → Convoy) :
    (s.modConvoy p g).fns = s.fns := rfl
@[simp] theorem State.modConvoy_host (s : State) (p : Nat) (g : Convoy → Convoy) :
    (s.modConvoy p g).host = s.host := rfl
@[simp] theorem State.modConvoy_log (s : State) (p : Nat) (g : Convoy → Convoy) :
    (s.modConvoy p g).log = s.log := rfl
@[simp] theorem State.modConvoy_mod (s : State) (p : Nat) (g : Convoy → Convoy) :
    (s.modConvoy p g).mod = s.mod := rfl
@[simp] theorem State.modConvoy_phys (s : State) (p : Nat) (g : Convoy → Convoy) :
    (s.modConvoy p g).phys = s.phys := rfl
@[simp] theorem State.modConvoy_mem (s : State) (p : Nat) (g : Convoy → Convoy) :
    (s.modConvoy p g).mem = s.mem := rfl
@[simp] theorem State.modConvoy_cisDies (s : State) (p : Nat) (g : Convoy → Convoy) :
    (s.modConvoy p g).cisDies = s.cisDies := rfl
@[simp] theorem State.modConvoy_cwy (s : State) (p : Nat) (g : Convoy → Convoy) :
    (s.modConvoy p g).cwy = s.cwy := rfl
@[simp] theorem State.modConvoy_lostCopies (s : State) (p : Nat) (g : Convoy → Convoy) :
    (s.modConvoy p g).lostCopies = s.lostCopies := rfl
@[simp] theorem State.modConvoy_cores (s : State) (p : Nat) (g : Convoy → Convoy) :
    (s.modConvoy p g).cores = s.cores := rfl
@[simp] theorem State.modConvoy_dies (s : State) (p : Nat) (g : Convoy → Convoy) :
    (s.modConvoy p g).dies = s.dies := rfl
@[simp] theorem State.modConvoy_parts (s : State) (p : Nat) (g : Convoy → Convoy) :
    (s.modConvoy p g).parts = s.parts := rfl
@[simp] theorem State.modConvoy_links (s : State) (p : Nat) (g : Convoy → Convoy) :
    (s.modConvoy p g).links = s.links := rfl
@[simp] theorem State.modConvoy_lanternCfg (s : State) (p : Nat) (g : Convoy → Convoy) :
    (s.modConvoy p g).lanternCfg = s.lanternCfg := rfl
@[simp] theorem State.modConvoy_tollWait (s : State) (p : Nat) (g : Convoy → Convoy) :
    (s.modConvoy p g).tollWait = s.tollWait := rfl
@[simp] theorem State.modConvoy_qps (s : State) (p : Nat) (g : Convoy → Convoy) :
    (s.modConvoy p g).qps = s.qps := rfl
@[simp] theorem State.modConvoy_porters (s : State) (p : Nat) (g : Convoy → Convoy) :
    (s.modConvoy p g).porters = s.porters := rfl
@[simp] theorem State.modConvoy_pages (s : State) (p : Nat) (g : Convoy → Convoy) :
    (s.modConvoy p g).pages = s.pages := rfl
@[simp] theorem State.modConvoy_selfFrames (s : State) (p : Nat) (g : Convoy → Convoy) :
    (s.modConvoy p g).selfFrames = s.selfFrames := rfl
@[simp] theorem State.modConvoy_regions (s : State) (p : Nat) (g : Convoy → Convoy) :
    (s.modConvoy p g).regions = s.regions := rfl
@[simp] theorem State.modConvoy_houses (s : State) (p : Nat) (g : Convoy → Convoy) :
    (s.modConvoy p g).houses = s.houses := rfl
@[simp] theorem State.modConvoy_pendFrames (s : State) (p : Nat) (g : Convoy → Convoy) :
    (s.modConvoy p g).pendFrames = s.pendFrames := rfl
@[simp] theorem State.modConvoy_nextFrameId (s : State) (p : Nat) (g : Convoy → Convoy) :
    (s.modConvoy p g).nextFrameId = s.nextFrameId := rfl
@[simp] theorem State.modConvoy_customs (s : State) (p : Nat) (g : Convoy → Convoy) :
    (s.modConvoy p g).customs = s.customs := rfl
@[simp] theorem State.modConvoy_cusParts (s : State) (p : Nat) (g : Convoy → Convoy) :
    (s.modConvoy p g).cusParts = s.cusParts := rfl
@[simp] theorem State.modConvoy_pwr (s : State) (p : Nat) (g : Convoy → Convoy) :
    (s.modConvoy p g).pwr = s.pwr := rfl
@[simp] theorem State.modConvoy_time (s : State) (p : Nat) (g : Convoy → Convoy) :
    (s.modConvoy p g).time = s.time := rfl
@[simp] theorem State.modConvoy_life (s : State) (p : Nat) (g : Convoy → Convoy) :
    (s.modConvoy p g).life = s.life := rfl
@[simp] theorem State.modConvoy_totals (s : State) (p : Nat) (g : Convoy → Convoy) :
    (s.modConvoy p g).totals = s.totals := rfl
@[simp] theorem State.modConvoy_totSnap (s : State) (p : Nat) (g : Convoy → Convoy) :
    (s.modConvoy p g).totSnap = s.totSnap := rfl
@[simp] theorem State.modConvoy_totTime (s : State) (p : Nat) (g : Convoy → Convoy) :
    (s.modConvoy p g).totTime = s.totTime := rfl
@[simp] theorem State.modConvoy_gapSerai (s : State) (p : Nat) (g : Convoy → Convoy) :
    (s.modConvoy p g).gapSerai = s.gapSerai := rfl
@[simp] theorem State.modConvoy_fn (s : State) (p : Nat) (g : Convoy → Convoy) (f : Nat) :
    (s.modConvoy p g).fn f = s.fn f := rfl
@[simp] theorem State.modConvoy_queue (s : State) (p : Nat) (g : Convoy → Convoy) (f q : Nat) :
    (s.modConvoy p g).queue f q = s.queue f q := rfl
@[simp] theorem State.modConvoy_core (s : State) (p : Nat) (g : Convoy → Convoy) (z0 : Nat) :
    (s.modConvoy p g).core z0 = s.core z0 := rfl
@[simp] theorem State.modConvoy_die (s : State) (p : Nat) (g : Convoy → Convoy) (n : Nat) :
    (s.modConvoy p g).die n = s.die n := rfl
@[simp] theorem State.modConvoy_part (s : State) (p : Nat) (g : Convoy → Convoy) (z0 : Nat) :
    (s.modConvoy p g).part z0 = s.part z0 := rfl
@[simp] theorem State.modConvoy_cis (s : State) (p : Nat) (g : Convoy → Convoy) (m : Nat) :
    (s.modConvoy p g).cis m = s.cis m := rfl
@[simp] theorem State.modConvoy_sense (s : State) (p : Nat) (g : Convoy → Convoy) (d : Nat) :
    (s.modConvoy p g).sense d = s.sense d := rfl
@[simp] theorem State.modConvoy_clocked (s : State) (p : Nat) (g : Convoy → Convoy) :
    (s.modConvoy p g).clocked = s.clocked := rfl
@[simp] theorem State.modConvoy_physOf (s : State) (p : Nat) (g : Convoy → Convoy) (l : Nat) :
    (s.modConvoy p g).physOf l = s.physOf l := rfl
@[simp] theorem State.modConvoy_logicalOf (s : State) (p : Nat) (g : Convoy → Convoy) (z0 : Nat) :
    (s.modConvoy p g).logicalOf z0 = s.logicalOf z0 := rfl
@[simp] theorem State.modConvoy_ownsCore (s : State) (p : Nat) (g : Convoy → Convoy) (z0 l : Nat) :
    (s.modConvoy p g).ownsCore z0 l = s.ownsCore z0 l := rfl
@[simp] theorem State.modConvoy_partOf (s : State) (p : Nat) (g : Convoy → Convoy) (l : Nat) :
    (s.modConvoy p g).partOf l = s.partOf l := rfl
@[simp] theorem State.modConvoy_partOfPhys (s : State) (p : Nat) (g : Convoy → Convoy) (z0 : Nat) :
    (s.modConvoy p g).partOfPhys z0 = s.partOfPhys z0 := rfl
@[simp] theorem State.modConvoy_partNo (s : State) (p : Nat) (g : Convoy → Convoy) (l : Nat) :
    (s.modConvoy p g).partNo l = s.partNo l := rfl
@[simp] theorem State.modConvoy_coresOf (s : State) (p : Nat) (g : Convoy → Convoy) (z0 : Nat) :
    (s.modConvoy p g).coresOf z0 = s.coresOf z0 := rfl
@[simp] theorem State.modConvoy_physOfPart (s : State) (p : Nat) (g : Convoy → Convoy) (z0 : Nat) :
    (s.modConvoy p g).physOfPart z0 = s.physOfPart z0 := rfl
@[simp] theorem State.modConvoy_vfOf (s : State) (p : Nat) (g : Convoy → Convoy) (z0 : Nat) :
    (s.modConvoy p g).vfOf z0 = s.vfOf z0 := rfl
@[simp] theorem State.modConvoy_fnOfPart (s : State) (p : Nat) (g : Convoy → Convoy) (z0 : Nat) :
    (s.modConvoy p g).fnOfPart z0 = s.fnOfPart z0 := rfl
@[simp] theorem State.modConvoy_freeVal (s : State) (p : Nat) (g : Convoy → Convoy) :
    (s.modConvoy p g).freeVal = s.freeVal := rfl
@[simp] theorem State.modConvoy_dieNow (s : State) (p : Nat) (g : Convoy → Convoy) (d : Nat) :
    (s.modConvoy p g).dieNow d = s.dieNow d := rfl
@[simp] theorem State.modConvoy_stretched (s : State) (p : Nat) (g : Convoy → Convoy) (d : Nat) :
    (s.modConvoy p g).stretched d = s.stretched d := rfl
@[simp] theorem State.modConvoy_mapped (s : State) (p : Nat) (g : Convoy → Convoy) (a n : Nat) :
    (s.modConvoy p g).mapped a n = s.mapped a n := rfl
@[simp] theorem State.modConvoy_inWindow (s : State) (p : Nat) (g : Convoy → Convoy) (q a n : Nat) :
    (s.modConvoy p g).inWindow q a n = s.inWindow q a n := rfl
@[simp] theorem State.modConvoy_admitted (s : State) (p : Nat) (g : Convoy → Convoy) (q : Nat) (byCore store : Bool) (a n : Nat) :
    (s.modConvoy p g).admitted q byCore store a n = s.admitted q byCore store a n := rfl
@[simp] theorem State.modConvoy_ownerOf (s : State) (p : Nat) (g : Convoy → Convoy) (a : Nat) :
    (s.modConvoy p g).ownerOf a = s.ownerOf a := rfl
@[simp] theorem State.modConvoy_failedChan (s : State) (p : Nat) (g : Convoy → Convoy) (a n : Nat) :
    (s.modConvoy p g).failedChan a n = s.failedChan a n := rfl
@[simp] theorem State.modConvoy_failedStack (s : State) (p : Nat) (g : Convoy → Convoy) (a n : Nat) :
    (s.modConvoy p g).failedStack a n = s.failedStack a n := rfl
@[simp] theorem State.modConvoy_failedIn (s : State) (p : Nat) (g : Convoy → Convoy) (segs : List (Nat × Nat)) :
    (s.modConvoy p g).failedIn segs = s.failedIn segs := rfl
@[simp] theorem State.modConvoy_markAt (s : State) (p : Nat) (g : Convoy → Convoy) (z0 a : Nat) :
    (s.modConvoy p g).markAt z0 a = s.markAt z0 a := rfl
@[simp] theorem State.modConvoy_byteAt (s : State) (p : Nat) (g : Convoy → Convoy) (z0 a : Nat) :
    (s.modConvoy p g).byteAt z0 a = s.byteAt z0 a := rfl
@[simp] theorem State.modConvoy_bytesAt (s : State) (p : Nat) (g : Convoy → Convoy) (z0 a n : Nat) :
    (s.modConvoy p g).bytesAt z0 a n = s.bytesAt z0 a n := rfl
@[simp] theorem State.modConvoy_wordAt (s : State) (p : Nat) (g : Convoy → Convoy) (z0 a : Nat) :
    (s.modConvoy p g).wordAt z0 a = s.wordAt z0 a := rfl
@[simp] theorem State.modConvoy_bufRef (s : State) (p : Nat) (g : Convoy → Convoy) (z0 q : Nat) (stm : BitVec 3) (r : BitVec 14) :
    (s.modConvoy p g).bufRef z0 q stm r = s.bufRef z0 q stm r := rfl
@[simp] theorem State.modConvoy_tok (s : State) (p : Nat) (g : Convoy → Convoy) (z0 : Nat) (z1 : Buf) :
    (s.modConvoy p g).tok z0 z1 = s.tok z0 z1 := rfl
@[simp] theorem State.modConvoy_missing (s : State) (p : Nat) (g : Convoy → Convoy) (z0 : Nat) (z1 : Buf) :
    (s.modConvoy p g).missing z0 z1 = s.missing z0 z1 := rfl
@[simp] theorem State.modConvoy_usedPhys (s : State) (p : Nat) (g : Convoy → Convoy) (q : Nat) :
    (s.modConvoy p g).usedPhys q = s.usedPhys q := rfl
@[simp] theorem State.modConvoy_link (s : State) (p : Nat) (g : Convoy → Convoy) (l : Nat) :
    (s.modConvoy p g).link l = s.link l := rfl
@[simp] theorem State.modConvoy_lantern (s : State) (p : Nat) (g : Convoy → Convoy) (m : Nat) :
    (s.modConvoy p g).lantern m = s.lantern m := rfl
@[simp] theorem State.modConvoy_coord (s : State) (p : Nat) (g : Convoy → Convoy) :
    (s.modConvoy p g).coord = s.coord := rfl
@[simp] theorem State.modConvoy_qp (s : State) (p : Nat) (g : Convoy → Convoy) (q : Nat) :
    (s.modConvoy p g).qp q = s.qp q := rfl
@[simp] theorem State.modConvoy_porter (s : State) (p : Nat) (g : Convoy → Convoy) (m : Nat) :
    (s.modConvoy p g).porter m = s.porter m := rfl
@[simp] theorem State.modConvoy_page (s : State) (p : Nat) (g : Convoy → Convoy) (m z1 : Nat) :
    (s.modConvoy p g).page m z1 = s.page m z1 := rfl
@[simp] theorem State.modConvoy_region (s : State) (p : Nat) (g : Convoy → Convoy) (i : Nat) :
    (s.modConvoy p g).region i = s.region i := rfl
@[simp] theorem State.modConvoy_ownsQp (s : State) (p : Nat) (g : Convoy → Convoy) (part q : Nat) :
    (s.modConvoy p g).ownsQp part q = s.ownsQp part q := rfl
@[simp] theorem State.modConvoy_house (s : State) (p : Nat) (g : Convoy → Convoy) (n : Nat) :
    (s.modConvoy p g).house n = s.house n := rfl
@[simp] theorem State.modConvoy_cus (s : State) (p : Nat) (g : Convoy → Convoy) (z0 : Nat) :
    (s.modConvoy p g).cus z0 = s.cus z0 := rfl
@[simp] theorem State.modConvoy_keySlot (s : State) (p : Nat) (g : Convoy → Convoy) (i : Nat) :
    (s.modConvoy p g).keySlot i = s.keySlot i := rfl
@[simp] theorem State.modConvoy_slotRef (s : State) (p : Nat) (g : Convoy → Convoy) (i : Nat) :
    (s.modConvoy p g).slotRef i = s.slotRef i := rfl
@[simp] theorem State.modConvoy_ms (s : State) (p : Nat) (g : Convoy → Convoy) (q : Nat) :
    (s.modConvoy p g).ms q = s.ms q := rfl
@[simp] theorem State.modConvoy_obj (s : State) (p : Nat) (g : Convoy → Convoy) (q o : Nat) :
    (s.modConvoy p g).obj q o = s.obj q o := rfl
@[simp] theorem State.modConvoy_exists_ (s : State) (p : Nat) (g : Convoy → Convoy) (z0 : Nat) :
    (s.modConvoy p g).exists_ z0 = s.exists_ z0 := rfl
@[simp] theorem State.modConvoy_unbound (s : State) (p : Nat) (g : Convoy → Convoy) (f : Nat) :
    (s.modConvoy p g).unbound f = s.unbound f := rfl
@[simp] theorem State.modConvoy_sees (s : State) (p : Nat) (g : Convoy → Convoy) (fn : Nat) (b : BarBlock) :
    (s.modConvoy p g).sees fn b = s.sees fn b := rfl
@[simp] theorem State.modConvoy_mayWrite (s : State) (p : Nat) (g : Convoy → Convoy) (src : Source) (b : BarBlock) :
    (s.modConvoy p g).mayWrite src b = s.mayWrite src b := rfl
@[simp] theorem State.modConvoy_seraiOn (s : State) (p : Nat) (g : Convoy → Convoy) :
    (s.modConvoy p g).seraiOn = s.seraiOn := rfl
@[simp] theorem State.modConvoy_issuing (s : State) (p : Nat) (g : Convoy → Convoy) (l : Nat) :
    (s.modConvoy p g).issuing l = s.issuing l := rfl
@[simp] theorem State.modConvoy_waiting (s : State) (p : Nat) (g : Convoy → Convoy) (l : Nat) :
    (s.modConvoy p g).waiting l = s.waiting l := rfl
@[simp] theorem State.modConvoy_route (s : State) (p : Nat) (g : Convoy → Convoy) (ok : LinkSt → Bool) (plane : Bool) (src dst f : Nat) :
    (s.modConvoy p g).route ok plane src dst f = s.route ok plane src dst f := rfl

@[simp] theorem State.modHouse_pending (s : State) (n : Nat) (g : House → House) :
    (s.modHouse n g).pending = s.pending := rfl
@[simp] theorem State.modHouse_free (s : State) (n : Nat) (g : House → House) :
    (s.modHouse n g).free = s.free := rfl
@[simp] theorem State.modHouse_now (s : State) (n : Nat) (g : House → House) : (s.modHouse n g).now = s.now := rfl
@[simp] theorem State.modHouse_fns (s : State) (n : Nat) (g : House → House) : (s.modHouse n g).fns = s.fns := rfl
@[simp] theorem State.modHouse_host (s : State) (n : Nat) (g : House → House) :
    (s.modHouse n g).host = s.host := rfl
@[simp] theorem State.modHouse_log (s : State) (n : Nat) (g : House → House) : (s.modHouse n g).log = s.log := rfl
@[simp] theorem State.modHouse_mod (s : State) (n : Nat) (g : House → House) : (s.modHouse n g).mod = s.mod := rfl
@[simp] theorem State.modHouse_phys (s : State) (n : Nat) (g : House → House) :
    (s.modHouse n g).phys = s.phys := rfl
@[simp] theorem State.modHouse_mem (s : State) (n : Nat) (g : House → House) : (s.modHouse n g).mem = s.mem := rfl
@[simp] theorem State.modHouse_cisDies (s : State) (n : Nat) (g : House → House) :
    (s.modHouse n g).cisDies = s.cisDies := rfl
@[simp] theorem State.modHouse_cwy (s : State) (n : Nat) (g : House → House) : (s.modHouse n g).cwy = s.cwy := rfl
@[simp] theorem State.modHouse_lostCopies (s : State) (n : Nat) (g : House → House) :
    (s.modHouse n g).lostCopies = s.lostCopies := rfl
@[simp] theorem State.modHouse_cores (s : State) (n : Nat) (g : House → House) :
    (s.modHouse n g).cores = s.cores := rfl
@[simp] theorem State.modHouse_dies (s : State) (n : Nat) (g : House → House) :
    (s.modHouse n g).dies = s.dies := rfl
@[simp] theorem State.modHouse_parts (s : State) (n : Nat) (g : House → House) :
    (s.modHouse n g).parts = s.parts := rfl
@[simp] theorem State.modHouse_links (s : State) (n : Nat) (g : House → House) :
    (s.modHouse n g).links = s.links := rfl
@[simp] theorem State.modHouse_lanternCfg (s : State) (n : Nat) (g : House → House) :
    (s.modHouse n g).lanternCfg = s.lanternCfg := rfl
@[simp] theorem State.modHouse_tollWait (s : State) (n : Nat) (g : House → House) :
    (s.modHouse n g).tollWait = s.tollWait := rfl
@[simp] theorem State.modHouse_qps (s : State) (n : Nat) (g : House → House) : (s.modHouse n g).qps = s.qps := rfl
@[simp] theorem State.modHouse_porters (s : State) (n : Nat) (g : House → House) :
    (s.modHouse n g).porters = s.porters := rfl
@[simp] theorem State.modHouse_pages (s : State) (n : Nat) (g : House → House) :
    (s.modHouse n g).pages = s.pages := rfl
@[simp] theorem State.modHouse_selfFrames (s : State) (n : Nat) (g : House → House) :
    (s.modHouse n g).selfFrames = s.selfFrames := rfl
@[simp] theorem State.modHouse_regions (s : State) (n : Nat) (g : House → House) :
    (s.modHouse n g).regions = s.regions := rfl
@[simp] theorem State.modHouse_convoys (s : State) (n : Nat) (g : House → House) :
    (s.modHouse n g).convoys = s.convoys := rfl
@[simp] theorem State.modHouse_pendFrames (s : State) (n : Nat) (g : House → House) :
    (s.modHouse n g).pendFrames = s.pendFrames := rfl
@[simp] theorem State.modHouse_nextFrameId (s : State) (n : Nat) (g : House → House) :
    (s.modHouse n g).nextFrameId = s.nextFrameId := rfl
@[simp] theorem State.modHouse_customs (s : State) (n : Nat) (g : House → House) :
    (s.modHouse n g).customs = s.customs := rfl
@[simp] theorem State.modHouse_cusParts (s : State) (n : Nat) (g : House → House) :
    (s.modHouse n g).cusParts = s.cusParts := rfl
@[simp] theorem State.modHouse_pwr (s : State) (n : Nat) (g : House → House) : (s.modHouse n g).pwr = s.pwr := rfl
@[simp] theorem State.modHouse_time (s : State) (n : Nat) (g : House → House) :
    (s.modHouse n g).time = s.time := rfl
@[simp] theorem State.modHouse_life (s : State) (n : Nat) (g : House → House) :
    (s.modHouse n g).life = s.life := rfl
@[simp] theorem State.modHouse_totals (s : State) (n : Nat) (g : House → House) :
    (s.modHouse n g).totals = s.totals := rfl
@[simp] theorem State.modHouse_totSnap (s : State) (n : Nat) (g : House → House) :
    (s.modHouse n g).totSnap = s.totSnap := rfl
@[simp] theorem State.modHouse_totTime (s : State) (n : Nat) (g : House → House) :
    (s.modHouse n g).totTime = s.totTime := rfl
@[simp] theorem State.modHouse_gapSerai (s : State) (n : Nat) (g : House → House) :
    (s.modHouse n g).gapSerai = s.gapSerai := rfl
@[simp] theorem State.modHouse_fn (s : State) (n : Nat) (g : House → House) (f : Nat) :
    (s.modHouse n g).fn f = s.fn f := rfl
@[simp] theorem State.modHouse_queue (s : State) (n : Nat) (g : House → House) (f q : Nat) :
    (s.modHouse n g).queue f q = s.queue f q := rfl
@[simp] theorem State.modHouse_core (s : State) (n : Nat) (g : House → House) (p : Nat) :
    (s.modHouse n g).core p = s.core p := rfl
@[simp] theorem State.modHouse_die (s : State) (n : Nat) (g : House → House) (z0 : Nat) :
    (s.modHouse n g).die z0 = s.die z0 := rfl
@[simp] theorem State.modHouse_part (s : State) (n : Nat) (g : House → House) (p : Nat) :
    (s.modHouse n g).part p = s.part p := rfl
@[simp] theorem State.modHouse_cis (s : State) (n : Nat) (g : House → House) (m : Nat) :
    (s.modHouse n g).cis m = s.cis m := rfl
@[simp] theorem State.modHouse_sense (s : State) (n : Nat) (g : House → House) (d : Nat) :
    (s.modHouse n g).sense d = s.sense d := rfl
@[simp] theorem State.modHouse_clocked (s : State) (n : Nat) (g : House → House) :
    (s.modHouse n g).clocked = s.clocked := rfl
@[simp] theorem State.modHouse_physOf (s : State) (n : Nat) (g : House → House) (l : Nat) :
    (s.modHouse n g).physOf l = s.physOf l := rfl
@[simp] theorem State.modHouse_logicalOf (s : State) (n : Nat) (g : House → House) (p : Nat) :
    (s.modHouse n g).logicalOf p = s.logicalOf p := rfl
@[simp] theorem State.modHouse_ownsCore (s : State) (n : Nat) (g : House → House) (p l : Nat) :
    (s.modHouse n g).ownsCore p l = s.ownsCore p l := rfl
@[simp] theorem State.modHouse_partOf (s : State) (n : Nat) (g : House → House) (l : Nat) :
    (s.modHouse n g).partOf l = s.partOf l := rfl
@[simp] theorem State.modHouse_partOfPhys (s : State) (n : Nat) (g : House → House) (p : Nat) :
    (s.modHouse n g).partOfPhys p = s.partOfPhys p := rfl
@[simp] theorem State.modHouse_partNo (s : State) (n : Nat) (g : House → House) (l : Nat) :
    (s.modHouse n g).partNo l = s.partNo l := rfl
@[simp] theorem State.modHouse_coresOf (s : State) (n : Nat) (g : House → House) (p : Nat) :
    (s.modHouse n g).coresOf p = s.coresOf p := rfl
@[simp] theorem State.modHouse_physOfPart (s : State) (n : Nat) (g : House → House) (p : Nat) :
    (s.modHouse n g).physOfPart p = s.physOfPart p := rfl
@[simp] theorem State.modHouse_vfOf (s : State) (n : Nat) (g : House → House) (p : Nat) :
    (s.modHouse n g).vfOf p = s.vfOf p := rfl
@[simp] theorem State.modHouse_fnOfPart (s : State) (n : Nat) (g : House → House) (p : Nat) :
    (s.modHouse n g).fnOfPart p = s.fnOfPart p := rfl
@[simp] theorem State.modHouse_freeVal (s : State) (n : Nat) (g : House → House) :
    (s.modHouse n g).freeVal = s.freeVal := rfl
@[simp] theorem State.modHouse_dieNow (s : State) (n : Nat) (g : House → House) (d : Nat) :
    (s.modHouse n g).dieNow d = s.dieNow d := rfl
@[simp] theorem State.modHouse_stretched (s : State) (n : Nat) (g : House → House) (d : Nat) :
    (s.modHouse n g).stretched d = s.stretched d := rfl
@[simp] theorem State.modHouse_mapped (s : State) (n : Nat) (g : House → House) (a z1 : Nat) :
    (s.modHouse n g).mapped a z1 = s.mapped a z1 := rfl
@[simp] theorem State.modHouse_inWindow (s : State) (n : Nat) (g : House → House) (q a z2 : Nat) :
    (s.modHouse n g).inWindow q a z2 = s.inWindow q a z2 := rfl
@[simp] theorem State.modHouse_admitted (s : State) (n : Nat) (g : House → House) (q : Nat) (byCore store : Bool) (a z4 : Nat) :
    (s.modHouse n g).admitted q byCore store a z4 = s.admitted q byCore store a z4 := rfl
@[simp] theorem State.modHouse_ownerOf (s : State) (n : Nat) (g : House → House) (a : Nat) :
    (s.modHouse n g).ownerOf a = s.ownerOf a := rfl
@[simp] theorem State.modHouse_failedChan (s : State) (n : Nat) (g : House → House) (a z1 : Nat) :
    (s.modHouse n g).failedChan a z1 = s.failedChan a z1 := rfl
@[simp] theorem State.modHouse_failedStack (s : State) (n : Nat) (g : House → House) (a z1 : Nat) :
    (s.modHouse n g).failedStack a z1 = s.failedStack a z1 := rfl
@[simp] theorem State.modHouse_failedIn (s : State) (n : Nat) (g : House → House) (segs : List (Nat × Nat)) :
    (s.modHouse n g).failedIn segs = s.failedIn segs := rfl
@[simp] theorem State.modHouse_markAt (s : State) (n : Nat) (g : House → House) (p a : Nat) :
    (s.modHouse n g).markAt p a = s.markAt p a := rfl
@[simp] theorem State.modHouse_byteAt (s : State) (n : Nat) (g : House → House) (p a : Nat) :
    (s.modHouse n g).byteAt p a = s.byteAt p a := rfl
@[simp] theorem State.modHouse_bytesAt (s : State) (n : Nat) (g : House → House) (p a z2 : Nat) :
    (s.modHouse n g).bytesAt p a z2 = s.bytesAt p a z2 := rfl
@[simp] theorem State.modHouse_wordAt (s : State) (n : Nat) (g : House → House) (p a : Nat) :
    (s.modHouse n g).wordAt p a = s.wordAt p a := rfl
@[simp] theorem State.modHouse_bufRef (s : State) (n : Nat) (g : House → House) (p q : Nat) (stm : BitVec 3) (r : BitVec 14) :
    (s.modHouse n g).bufRef p q stm r = s.bufRef p q stm r := rfl
@[simp] theorem State.modHouse_tok (s : State) (n : Nat) (g : House → House) (p : Nat) (z1 : Buf) :
    (s.modHouse n g).tok p z1 = s.tok p z1 := rfl
@[simp] theorem State.modHouse_missing (s : State) (n : Nat) (g : House → House) (p : Nat) (z1 : Buf) :
    (s.modHouse n g).missing p z1 = s.missing p z1 := rfl
@[simp] theorem State.modHouse_usedPhys (s : State) (n : Nat) (g : House → House) (q : Nat) :
    (s.modHouse n g).usedPhys q = s.usedPhys q := rfl
@[simp] theorem State.modHouse_link (s : State) (n : Nat) (g : House → House) (l : Nat) :
    (s.modHouse n g).link l = s.link l := rfl
@[simp] theorem State.modHouse_lantern (s : State) (n : Nat) (g : House → House) (m : Nat) :
    (s.modHouse n g).lantern m = s.lantern m := rfl
@[simp] theorem State.modHouse_coord (s : State) (n : Nat) (g : House → House) :
    (s.modHouse n g).coord = s.coord := rfl
@[simp] theorem State.modHouse_qp (s : State) (n : Nat) (g : House → House) (q : Nat) :
    (s.modHouse n g).qp q = s.qp q := rfl
@[simp] theorem State.modHouse_porter (s : State) (n : Nat) (g : House → House) (m : Nat) :
    (s.modHouse n g).porter m = s.porter m := rfl
@[simp] theorem State.modHouse_page (s : State) (n : Nat) (g : House → House) (m p : Nat) :
    (s.modHouse n g).page m p = s.page m p := rfl
@[simp] theorem State.modHouse_region (s : State) (n : Nat) (g : House → House) (i : Nat) :
    (s.modHouse n g).region i = s.region i := rfl
@[simp] theorem State.modHouse_ownsQp (s : State) (n : Nat) (g : House → House) (part q : Nat) :
    (s.modHouse n g).ownsQp part q = s.ownsQp part q := rfl
@[simp] theorem State.modHouse_convoy (s : State) (n : Nat) (g : House → House) (p : Nat) :
    (s.modHouse n g).convoy p = s.convoy p := rfl
@[simp] theorem State.modHouse_cus (s : State) (n : Nat) (g : House → House) (p : Nat) :
    (s.modHouse n g).cus p = s.cus p := rfl
@[simp] theorem State.modHouse_keySlot (s : State) (n : Nat) (g : House → House) (i : Nat) :
    (s.modHouse n g).keySlot i = s.keySlot i := rfl
@[simp] theorem State.modHouse_slotRef (s : State) (n : Nat) (g : House → House) (i : Nat) :
    (s.modHouse n g).slotRef i = s.slotRef i := rfl
@[simp] theorem State.modHouse_ms (s : State) (n : Nat) (g : House → House) (q : Nat) :
    (s.modHouse n g).ms q = s.ms q := rfl
@[simp] theorem State.modHouse_obj (s : State) (n : Nat) (g : House → House) (q o : Nat) :
    (s.modHouse n g).obj q o = s.obj q o := rfl
@[simp] theorem State.modHouse_exists_ (s : State) (n : Nat) (g : House → House) (p : Nat) :
    (s.modHouse n g).exists_ p = s.exists_ p := rfl
@[simp] theorem State.modHouse_unbound (s : State) (n : Nat) (g : House → House) (f : Nat) :
    (s.modHouse n g).unbound f = s.unbound f := rfl
@[simp] theorem State.modHouse_sees (s : State) (n : Nat) (g : House → House) (fn : Nat) (b : BarBlock) :
    (s.modHouse n g).sees fn b = s.sees fn b := rfl
@[simp] theorem State.modHouse_mayWrite (s : State) (n : Nat) (g : House → House) (src : Source) (b : BarBlock) :
    (s.modHouse n g).mayWrite src b = s.mayWrite src b := rfl
@[simp] theorem State.modHouse_seraiOn (s : State) (n : Nat) (g : House → House) :
    (s.modHouse n g).seraiOn = s.seraiOn := rfl
@[simp] theorem State.modHouse_issuing (s : State) (n : Nat) (g : House → House) (l : Nat) :
    (s.modHouse n g).issuing l = s.issuing l := rfl
@[simp] theorem State.modHouse_waiting (s : State) (n : Nat) (g : House → House) (l : Nat) :
    (s.modHouse n g).waiting l = s.waiting l := rfl
@[simp] theorem State.modHouse_route (s : State) (n : Nat) (g : House → House) (ok : LinkSt → Bool) (plane : Bool) (src dst f : Nat) :
    (s.modHouse n g).route ok plane src dst f = s.route ok plane src dst f := rfl

@[simp] theorem State.modCus_pending (s : State) (p : Nat) (g : CusPart → CusPart) :
    (s.modCus p g).pending = s.pending := rfl
@[simp] theorem State.modCus_free (s : State) (p : Nat) (g : CusPart → CusPart) :
    (s.modCus p g).free = s.free := rfl
@[simp] theorem State.modCus_now (s : State) (p : Nat) (g : CusPart → CusPart) : (s.modCus p g).now = s.now := rfl
@[simp] theorem State.modCus_fns (s : State) (p : Nat) (g : CusPart → CusPart) : (s.modCus p g).fns = s.fns := rfl
@[simp] theorem State.modCus_host (s : State) (p : Nat) (g : CusPart → CusPart) :
    (s.modCus p g).host = s.host := rfl
@[simp] theorem State.modCus_log (s : State) (p : Nat) (g : CusPart → CusPart) : (s.modCus p g).log = s.log := rfl
@[simp] theorem State.modCus_mod (s : State) (p : Nat) (g : CusPart → CusPart) : (s.modCus p g).mod = s.mod := rfl
@[simp] theorem State.modCus_phys (s : State) (p : Nat) (g : CusPart → CusPart) :
    (s.modCus p g).phys = s.phys := rfl
@[simp] theorem State.modCus_mem (s : State) (p : Nat) (g : CusPart → CusPart) : (s.modCus p g).mem = s.mem := rfl
@[simp] theorem State.modCus_cisDies (s : State) (p : Nat) (g : CusPart → CusPart) :
    (s.modCus p g).cisDies = s.cisDies := rfl
@[simp] theorem State.modCus_cwy (s : State) (p : Nat) (g : CusPart → CusPart) : (s.modCus p g).cwy = s.cwy := rfl
@[simp] theorem State.modCus_lostCopies (s : State) (p : Nat) (g : CusPart → CusPart) :
    (s.modCus p g).lostCopies = s.lostCopies := rfl
@[simp] theorem State.modCus_cores (s : State) (p : Nat) (g : CusPart → CusPart) :
    (s.modCus p g).cores = s.cores := rfl
@[simp] theorem State.modCus_dies (s : State) (p : Nat) (g : CusPart → CusPart) :
    (s.modCus p g).dies = s.dies := rfl
@[simp] theorem State.modCus_parts (s : State) (p : Nat) (g : CusPart → CusPart) :
    (s.modCus p g).parts = s.parts := rfl
@[simp] theorem State.modCus_links (s : State) (p : Nat) (g : CusPart → CusPart) :
    (s.modCus p g).links = s.links := rfl
@[simp] theorem State.modCus_lanternCfg (s : State) (p : Nat) (g : CusPart → CusPart) :
    (s.modCus p g).lanternCfg = s.lanternCfg := rfl
@[simp] theorem State.modCus_tollWait (s : State) (p : Nat) (g : CusPart → CusPart) :
    (s.modCus p g).tollWait = s.tollWait := rfl
@[simp] theorem State.modCus_qps (s : State) (p : Nat) (g : CusPart → CusPart) : (s.modCus p g).qps = s.qps := rfl
@[simp] theorem State.modCus_porters (s : State) (p : Nat) (g : CusPart → CusPart) :
    (s.modCus p g).porters = s.porters := rfl
@[simp] theorem State.modCus_pages (s : State) (p : Nat) (g : CusPart → CusPart) :
    (s.modCus p g).pages = s.pages := rfl
@[simp] theorem State.modCus_selfFrames (s : State) (p : Nat) (g : CusPart → CusPart) :
    (s.modCus p g).selfFrames = s.selfFrames := rfl
@[simp] theorem State.modCus_regions (s : State) (p : Nat) (g : CusPart → CusPart) :
    (s.modCus p g).regions = s.regions := rfl
@[simp] theorem State.modCus_convoys (s : State) (p : Nat) (g : CusPart → CusPart) :
    (s.modCus p g).convoys = s.convoys := rfl
@[simp] theorem State.modCus_houses (s : State) (p : Nat) (g : CusPart → CusPart) :
    (s.modCus p g).houses = s.houses := rfl
@[simp] theorem State.modCus_pendFrames (s : State) (p : Nat) (g : CusPart → CusPart) :
    (s.modCus p g).pendFrames = s.pendFrames := rfl
@[simp] theorem State.modCus_nextFrameId (s : State) (p : Nat) (g : CusPart → CusPart) :
    (s.modCus p g).nextFrameId = s.nextFrameId := rfl
@[simp] theorem State.modCus_customs (s : State) (p : Nat) (g : CusPart → CusPart) :
    (s.modCus p g).customs = s.customs := rfl
@[simp] theorem State.modCus_pwr (s : State) (p : Nat) (g : CusPart → CusPart) : (s.modCus p g).pwr = s.pwr := rfl
@[simp] theorem State.modCus_time (s : State) (p : Nat) (g : CusPart → CusPart) :
    (s.modCus p g).time = s.time := rfl
@[simp] theorem State.modCus_life (s : State) (p : Nat) (g : CusPart → CusPart) :
    (s.modCus p g).life = s.life := rfl
@[simp] theorem State.modCus_totals (s : State) (p : Nat) (g : CusPart → CusPart) :
    (s.modCus p g).totals = s.totals := rfl
@[simp] theorem State.modCus_totSnap (s : State) (p : Nat) (g : CusPart → CusPart) :
    (s.modCus p g).totSnap = s.totSnap := rfl
@[simp] theorem State.modCus_totTime (s : State) (p : Nat) (g : CusPart → CusPart) :
    (s.modCus p g).totTime = s.totTime := rfl
@[simp] theorem State.modCus_gapSerai (s : State) (p : Nat) (g : CusPart → CusPart) :
    (s.modCus p g).gapSerai = s.gapSerai := rfl
@[simp] theorem State.modCus_fn (s : State) (p : Nat) (g : CusPart → CusPart) (f : Nat) :
    (s.modCus p g).fn f = s.fn f := rfl
@[simp] theorem State.modCus_queue (s : State) (p : Nat) (g : CusPart → CusPart) (f q : Nat) :
    (s.modCus p g).queue f q = s.queue f q := rfl
@[simp] theorem State.modCus_core (s : State) (p : Nat) (g : CusPart → CusPart) (z0 : Nat) :
    (s.modCus p g).core z0 = s.core z0 := rfl
@[simp] theorem State.modCus_die (s : State) (p : Nat) (g : CusPart → CusPart) (n : Nat) :
    (s.modCus p g).die n = s.die n := rfl
@[simp] theorem State.modCus_part (s : State) (p : Nat) (g : CusPart → CusPart) (z0 : Nat) :
    (s.modCus p g).part z0 = s.part z0 := rfl
@[simp] theorem State.modCus_cis (s : State) (p : Nat) (g : CusPart → CusPart) (m : Nat) :
    (s.modCus p g).cis m = s.cis m := rfl
@[simp] theorem State.modCus_sense (s : State) (p : Nat) (g : CusPart → CusPart) (d : Nat) :
    (s.modCus p g).sense d = s.sense d := rfl
@[simp] theorem State.modCus_clocked (s : State) (p : Nat) (g : CusPart → CusPart) :
    (s.modCus p g).clocked = s.clocked := rfl
@[simp] theorem State.modCus_physOf (s : State) (p : Nat) (g : CusPart → CusPart) (l : Nat) :
    (s.modCus p g).physOf l = s.physOf l := rfl
@[simp] theorem State.modCus_logicalOf (s : State) (p : Nat) (g : CusPart → CusPart) (z0 : Nat) :
    (s.modCus p g).logicalOf z0 = s.logicalOf z0 := rfl
@[simp] theorem State.modCus_ownsCore (s : State) (p : Nat) (g : CusPart → CusPart) (z0 l : Nat) :
    (s.modCus p g).ownsCore z0 l = s.ownsCore z0 l := rfl
@[simp] theorem State.modCus_partOf (s : State) (p : Nat) (g : CusPart → CusPart) (l : Nat) :
    (s.modCus p g).partOf l = s.partOf l := rfl
@[simp] theorem State.modCus_partOfPhys (s : State) (p : Nat) (g : CusPart → CusPart) (z0 : Nat) :
    (s.modCus p g).partOfPhys z0 = s.partOfPhys z0 := rfl
@[simp] theorem State.modCus_partNo (s : State) (p : Nat) (g : CusPart → CusPart) (l : Nat) :
    (s.modCus p g).partNo l = s.partNo l := rfl
@[simp] theorem State.modCus_coresOf (s : State) (p : Nat) (g : CusPart → CusPart) (z0 : Nat) :
    (s.modCus p g).coresOf z0 = s.coresOf z0 := rfl
@[simp] theorem State.modCus_physOfPart (s : State) (p : Nat) (g : CusPart → CusPart) (z0 : Nat) :
    (s.modCus p g).physOfPart z0 = s.physOfPart z0 := rfl
@[simp] theorem State.modCus_vfOf (s : State) (p : Nat) (g : CusPart → CusPart) (z0 : Nat) :
    (s.modCus p g).vfOf z0 = s.vfOf z0 := rfl
@[simp] theorem State.modCus_fnOfPart (s : State) (p : Nat) (g : CusPart → CusPart) (z0 : Nat) :
    (s.modCus p g).fnOfPart z0 = s.fnOfPart z0 := rfl
@[simp] theorem State.modCus_freeVal (s : State) (p : Nat) (g : CusPart → CusPart) :
    (s.modCus p g).freeVal = s.freeVal := rfl
@[simp] theorem State.modCus_dieNow (s : State) (p : Nat) (g : CusPart → CusPart) (d : Nat) :
    (s.modCus p g).dieNow d = s.dieNow d := rfl
@[simp] theorem State.modCus_stretched (s : State) (p : Nat) (g : CusPart → CusPart) (d : Nat) :
    (s.modCus p g).stretched d = s.stretched d := rfl
@[simp] theorem State.modCus_mapped (s : State) (p : Nat) (g : CusPart → CusPart) (a n : Nat) :
    (s.modCus p g).mapped a n = s.mapped a n := rfl
@[simp] theorem State.modCus_inWindow (s : State) (p : Nat) (g : CusPart → CusPart) (q a n : Nat) :
    (s.modCus p g).inWindow q a n = s.inWindow q a n := rfl
@[simp] theorem State.modCus_admitted (s : State) (p : Nat) (g : CusPart → CusPart) (q : Nat) (byCore store : Bool) (a n : Nat) :
    (s.modCus p g).admitted q byCore store a n = s.admitted q byCore store a n := rfl
@[simp] theorem State.modCus_ownerOf (s : State) (p : Nat) (g : CusPart → CusPart) (a : Nat) :
    (s.modCus p g).ownerOf a = s.ownerOf a := rfl
@[simp] theorem State.modCus_failedChan (s : State) (p : Nat) (g : CusPart → CusPart) (a n : Nat) :
    (s.modCus p g).failedChan a n = s.failedChan a n := rfl
@[simp] theorem State.modCus_failedStack (s : State) (p : Nat) (g : CusPart → CusPart) (a n : Nat) :
    (s.modCus p g).failedStack a n = s.failedStack a n := rfl
@[simp] theorem State.modCus_failedIn (s : State) (p : Nat) (g : CusPart → CusPart) (segs : List (Nat × Nat)) :
    (s.modCus p g).failedIn segs = s.failedIn segs := rfl
@[simp] theorem State.modCus_markAt (s : State) (p : Nat) (g : CusPart → CusPart) (z0 a : Nat) :
    (s.modCus p g).markAt z0 a = s.markAt z0 a := rfl
@[simp] theorem State.modCus_byteAt (s : State) (p : Nat) (g : CusPart → CusPart) (z0 a : Nat) :
    (s.modCus p g).byteAt z0 a = s.byteAt z0 a := rfl
@[simp] theorem State.modCus_bytesAt (s : State) (p : Nat) (g : CusPart → CusPart) (z0 a n : Nat) :
    (s.modCus p g).bytesAt z0 a n = s.bytesAt z0 a n := rfl
@[simp] theorem State.modCus_wordAt (s : State) (p : Nat) (g : CusPart → CusPart) (z0 a : Nat) :
    (s.modCus p g).wordAt z0 a = s.wordAt z0 a := rfl
@[simp] theorem State.modCus_bufRef (s : State) (p : Nat) (g : CusPart → CusPart) (z0 q : Nat) (stm : BitVec 3) (r : BitVec 14) :
    (s.modCus p g).bufRef z0 q stm r = s.bufRef z0 q stm r := rfl
@[simp] theorem State.modCus_tok (s : State) (p : Nat) (g : CusPart → CusPart) (z0 : Nat) (z1 : Buf) :
    (s.modCus p g).tok z0 z1 = s.tok z0 z1 := rfl
@[simp] theorem State.modCus_missing (s : State) (p : Nat) (g : CusPart → CusPart) (z0 : Nat) (z1 : Buf) :
    (s.modCus p g).missing z0 z1 = s.missing z0 z1 := rfl
@[simp] theorem State.modCus_usedPhys (s : State) (p : Nat) (g : CusPart → CusPart) (q : Nat) :
    (s.modCus p g).usedPhys q = s.usedPhys q := rfl
@[simp] theorem State.modCus_link (s : State) (p : Nat) (g : CusPart → CusPart) (l : Nat) :
    (s.modCus p g).link l = s.link l := rfl
@[simp] theorem State.modCus_lantern (s : State) (p : Nat) (g : CusPart → CusPart) (m : Nat) :
    (s.modCus p g).lantern m = s.lantern m := rfl
@[simp] theorem State.modCus_coord (s : State) (p : Nat) (g : CusPart → CusPart) :
    (s.modCus p g).coord = s.coord := rfl
@[simp] theorem State.modCus_qp (s : State) (p : Nat) (g : CusPart → CusPart) (q : Nat) :
    (s.modCus p g).qp q = s.qp q := rfl
@[simp] theorem State.modCus_porter (s : State) (p : Nat) (g : CusPart → CusPart) (m : Nat) :
    (s.modCus p g).porter m = s.porter m := rfl
@[simp] theorem State.modCus_page (s : State) (p : Nat) (g : CusPart → CusPart) (m z1 : Nat) :
    (s.modCus p g).page m z1 = s.page m z1 := rfl
@[simp] theorem State.modCus_region (s : State) (p : Nat) (g : CusPart → CusPart) (i : Nat) :
    (s.modCus p g).region i = s.region i := rfl
@[simp] theorem State.modCus_ownsQp (s : State) (p : Nat) (g : CusPart → CusPart) (part q : Nat) :
    (s.modCus p g).ownsQp part q = s.ownsQp part q := rfl
@[simp] theorem State.modCus_convoy (s : State) (p : Nat) (g : CusPart → CusPart) (z0 : Nat) :
    (s.modCus p g).convoy z0 = s.convoy z0 := rfl
@[simp] theorem State.modCus_house (s : State) (p : Nat) (g : CusPart → CusPart) (n : Nat) :
    (s.modCus p g).house n = s.house n := rfl
@[simp] theorem State.modCus_keySlot (s : State) (p : Nat) (g : CusPart → CusPart) (i : Nat) :
    (s.modCus p g).keySlot i = s.keySlot i := rfl
@[simp] theorem State.modCus_slotRef (s : State) (p : Nat) (g : CusPart → CusPart) (i : Nat) :
    (s.modCus p g).slotRef i = s.slotRef i := rfl
@[simp] theorem State.modCus_ms (s : State) (p : Nat) (g : CusPart → CusPart) (q : Nat) :
    (s.modCus p g).ms q = s.ms q := rfl
@[simp] theorem State.modCus_obj (s : State) (p : Nat) (g : CusPart → CusPart) (q o : Nat) :
    (s.modCus p g).obj q o = s.obj q o := rfl
@[simp] theorem State.modCus_exists_ (s : State) (p : Nat) (g : CusPart → CusPart) (z0 : Nat) :
    (s.modCus p g).exists_ z0 = s.exists_ z0 := rfl
@[simp] theorem State.modCus_unbound (s : State) (p : Nat) (g : CusPart → CusPart) (f : Nat) :
    (s.modCus p g).unbound f = s.unbound f := rfl
@[simp] theorem State.modCus_sees (s : State) (p : Nat) (g : CusPart → CusPart) (fn : Nat) (b : BarBlock) :
    (s.modCus p g).sees fn b = s.sees fn b := rfl
@[simp] theorem State.modCus_mayWrite (s : State) (p : Nat) (g : CusPart → CusPart) (src : Source) (b : BarBlock) :
    (s.modCus p g).mayWrite src b = s.mayWrite src b := rfl
@[simp] theorem State.modCus_seraiOn (s : State) (p : Nat) (g : CusPart → CusPart) :
    (s.modCus p g).seraiOn = s.seraiOn := rfl
@[simp] theorem State.modCus_issuing (s : State) (p : Nat) (g : CusPart → CusPart) (l : Nat) :
    (s.modCus p g).issuing l = s.issuing l := rfl
@[simp] theorem State.modCus_waiting (s : State) (p : Nat) (g : CusPart → CusPart) (l : Nat) :
    (s.modCus p g).waiting l = s.waiting l := rfl
@[simp] theorem State.modCus_route (s : State) (p : Nat) (g : CusPart → CusPart) (ok : LinkSt → Bool) (plane : Bool) (src dst f : Nat) :
    (s.modCus p g).route ok plane src dst f = s.route ok plane src dst f := rfl

@[simp] theorem State.setKeySlot_pending (s : State) (i : Nat) (k : KeySlot) :
    (s.setKeySlot i k).pending = s.pending := rfl
@[simp] theorem State.setKeySlot_free (s : State) (i : Nat) (k : KeySlot) : (s.setKeySlot i k).free = s.free := rfl
@[simp] theorem State.setKeySlot_now (s : State) (i : Nat) (k : KeySlot) : (s.setKeySlot i k).now = s.now := rfl
@[simp] theorem State.setKeySlot_fns (s : State) (i : Nat) (k : KeySlot) : (s.setKeySlot i k).fns = s.fns := rfl
@[simp] theorem State.setKeySlot_host (s : State) (i : Nat) (k : KeySlot) : (s.setKeySlot i k).host = s.host := rfl
@[simp] theorem State.setKeySlot_log (s : State) (i : Nat) (k : KeySlot) : (s.setKeySlot i k).log = s.log := rfl
@[simp] theorem State.setKeySlot_mod (s : State) (i : Nat) (k : KeySlot) : (s.setKeySlot i k).mod = s.mod := rfl
@[simp] theorem State.setKeySlot_phys (s : State) (i : Nat) (k : KeySlot) : (s.setKeySlot i k).phys = s.phys := rfl
@[simp] theorem State.setKeySlot_mem (s : State) (i : Nat) (k : KeySlot) : (s.setKeySlot i k).mem = s.mem := rfl
@[simp] theorem State.setKeySlot_cisDies (s : State) (i : Nat) (k : KeySlot) :
    (s.setKeySlot i k).cisDies = s.cisDies := rfl
@[simp] theorem State.setKeySlot_cwy (s : State) (i : Nat) (k : KeySlot) : (s.setKeySlot i k).cwy = s.cwy := rfl
@[simp] theorem State.setKeySlot_lostCopies (s : State) (i : Nat) (k : KeySlot) :
    (s.setKeySlot i k).lostCopies = s.lostCopies := rfl
@[simp] theorem State.setKeySlot_cores (s : State) (i : Nat) (k : KeySlot) :
    (s.setKeySlot i k).cores = s.cores := rfl
@[simp] theorem State.setKeySlot_dies (s : State) (i : Nat) (k : KeySlot) : (s.setKeySlot i k).dies = s.dies := rfl
@[simp] theorem State.setKeySlot_parts (s : State) (i : Nat) (k : KeySlot) :
    (s.setKeySlot i k).parts = s.parts := rfl
@[simp] theorem State.setKeySlot_links (s : State) (i : Nat) (k : KeySlot) :
    (s.setKeySlot i k).links = s.links := rfl
@[simp] theorem State.setKeySlot_lanternCfg (s : State) (i : Nat) (k : KeySlot) :
    (s.setKeySlot i k).lanternCfg = s.lanternCfg := rfl
@[simp] theorem State.setKeySlot_tollWait (s : State) (i : Nat) (k : KeySlot) :
    (s.setKeySlot i k).tollWait = s.tollWait := rfl
@[simp] theorem State.setKeySlot_qps (s : State) (i : Nat) (k : KeySlot) : (s.setKeySlot i k).qps = s.qps := rfl
@[simp] theorem State.setKeySlot_porters (s : State) (i : Nat) (k : KeySlot) :
    (s.setKeySlot i k).porters = s.porters := rfl
@[simp] theorem State.setKeySlot_pages (s : State) (i : Nat) (k : KeySlot) :
    (s.setKeySlot i k).pages = s.pages := rfl
@[simp] theorem State.setKeySlot_selfFrames (s : State) (i : Nat) (k : KeySlot) :
    (s.setKeySlot i k).selfFrames = s.selfFrames := rfl
@[simp] theorem State.setKeySlot_regions (s : State) (i : Nat) (k : KeySlot) :
    (s.setKeySlot i k).regions = s.regions := rfl
@[simp] theorem State.setKeySlot_convoys (s : State) (i : Nat) (k : KeySlot) :
    (s.setKeySlot i k).convoys = s.convoys := rfl
@[simp] theorem State.setKeySlot_houses (s : State) (i : Nat) (k : KeySlot) :
    (s.setKeySlot i k).houses = s.houses := rfl
@[simp] theorem State.setKeySlot_pendFrames (s : State) (i : Nat) (k : KeySlot) :
    (s.setKeySlot i k).pendFrames = s.pendFrames := rfl
@[simp] theorem State.setKeySlot_nextFrameId (s : State) (i : Nat) (k : KeySlot) :
    (s.setKeySlot i k).nextFrameId = s.nextFrameId := rfl
@[simp] theorem State.setKeySlot_cusParts (s : State) (i : Nat) (k : KeySlot) :
    (s.setKeySlot i k).cusParts = s.cusParts := rfl
@[simp] theorem State.setKeySlot_pwr (s : State) (i : Nat) (k : KeySlot) : (s.setKeySlot i k).pwr = s.pwr := rfl
@[simp] theorem State.setKeySlot_time (s : State) (i : Nat) (k : KeySlot) : (s.setKeySlot i k).time = s.time := rfl
@[simp] theorem State.setKeySlot_life (s : State) (i : Nat) (k : KeySlot) : (s.setKeySlot i k).life = s.life := rfl
@[simp] theorem State.setKeySlot_totals (s : State) (i : Nat) (k : KeySlot) :
    (s.setKeySlot i k).totals = s.totals := rfl
@[simp] theorem State.setKeySlot_totSnap (s : State) (i : Nat) (k : KeySlot) :
    (s.setKeySlot i k).totSnap = s.totSnap := rfl
@[simp] theorem State.setKeySlot_totTime (s : State) (i : Nat) (k : KeySlot) :
    (s.setKeySlot i k).totTime = s.totTime := rfl
@[simp] theorem State.setKeySlot_gapSerai (s : State) (i : Nat) (k : KeySlot) :
    (s.setKeySlot i k).gapSerai = s.gapSerai := rfl
@[simp] theorem State.setKeySlot_fn (s : State) (i : Nat) (k : KeySlot) (f : Nat) :
    (s.setKeySlot i k).fn f = s.fn f := rfl
@[simp] theorem State.setKeySlot_queue (s : State) (i : Nat) (k : KeySlot) (f q : Nat) :
    (s.setKeySlot i k).queue f q = s.queue f q := rfl
@[simp] theorem State.setKeySlot_core (s : State) (i : Nat) (k : KeySlot) (p : Nat) :
    (s.setKeySlot i k).core p = s.core p := rfl
@[simp] theorem State.setKeySlot_die (s : State) (i : Nat) (k : KeySlot) (n : Nat) :
    (s.setKeySlot i k).die n = s.die n := rfl
@[simp] theorem State.setKeySlot_part (s : State) (i : Nat) (k : KeySlot) (p : Nat) :
    (s.setKeySlot i k).part p = s.part p := rfl
@[simp] theorem State.setKeySlot_cis (s : State) (i : Nat) (k : KeySlot) (m : Nat) :
    (s.setKeySlot i k).cis m = s.cis m := rfl
@[simp] theorem State.setKeySlot_sense (s : State) (i : Nat) (k : KeySlot) (d : Nat) :
    (s.setKeySlot i k).sense d = s.sense d := rfl
@[simp] theorem State.setKeySlot_clocked (s : State) (i : Nat) (k : KeySlot) :
    (s.setKeySlot i k).clocked = s.clocked := rfl
@[simp] theorem State.setKeySlot_physOf (s : State) (i : Nat) (k : KeySlot) (l : Nat) :
    (s.setKeySlot i k).physOf l = s.physOf l := rfl
@[simp] theorem State.setKeySlot_logicalOf (s : State) (i : Nat) (k : KeySlot) (p : Nat) :
    (s.setKeySlot i k).logicalOf p = s.logicalOf p := rfl
@[simp] theorem State.setKeySlot_ownsCore (s : State) (i : Nat) (k : KeySlot) (p l : Nat) :
    (s.setKeySlot i k).ownsCore p l = s.ownsCore p l := rfl
@[simp] theorem State.setKeySlot_partOf (s : State) (i : Nat) (k : KeySlot) (l : Nat) :
    (s.setKeySlot i k).partOf l = s.partOf l := rfl
@[simp] theorem State.setKeySlot_partOfPhys (s : State) (i : Nat) (k : KeySlot) (p : Nat) :
    (s.setKeySlot i k).partOfPhys p = s.partOfPhys p := rfl
@[simp] theorem State.setKeySlot_partNo (s : State) (i : Nat) (k : KeySlot) (l : Nat) :
    (s.setKeySlot i k).partNo l = s.partNo l := rfl
@[simp] theorem State.setKeySlot_coresOf (s : State) (i : Nat) (k : KeySlot) (p : Nat) :
    (s.setKeySlot i k).coresOf p = s.coresOf p := rfl
@[simp] theorem State.setKeySlot_physOfPart (s : State) (i : Nat) (k : KeySlot) (p : Nat) :
    (s.setKeySlot i k).physOfPart p = s.physOfPart p := rfl
@[simp] theorem State.setKeySlot_vfOf (s : State) (i : Nat) (k : KeySlot) (p : Nat) :
    (s.setKeySlot i k).vfOf p = s.vfOf p := rfl
@[simp] theorem State.setKeySlot_fnOfPart (s : State) (i : Nat) (k : KeySlot) (p : Nat) :
    (s.setKeySlot i k).fnOfPart p = s.fnOfPart p := rfl
@[simp] theorem State.setKeySlot_freeVal (s : State) (i : Nat) (k : KeySlot) :
    (s.setKeySlot i k).freeVal = s.freeVal := rfl
@[simp] theorem State.setKeySlot_dieNow (s : State) (i : Nat) (k : KeySlot) (d : Nat) :
    (s.setKeySlot i k).dieNow d = s.dieNow d := rfl
@[simp] theorem State.setKeySlot_stretched (s : State) (i : Nat) (k : KeySlot) (d : Nat) :
    (s.setKeySlot i k).stretched d = s.stretched d := rfl
@[simp] theorem State.setKeySlot_mapped (s : State) (i : Nat) (k : KeySlot) (a n : Nat) :
    (s.setKeySlot i k).mapped a n = s.mapped a n := rfl
@[simp] theorem State.setKeySlot_inWindow (s : State) (i : Nat) (k : KeySlot) (q a n : Nat) :
    (s.setKeySlot i k).inWindow q a n = s.inWindow q a n := rfl
@[simp] theorem State.setKeySlot_admitted (s : State) (i : Nat) (k : KeySlot) (q : Nat) (byCore store : Bool) (a n : Nat) :
    (s.setKeySlot i k).admitted q byCore store a n = s.admitted q byCore store a n := rfl
@[simp] theorem State.setKeySlot_ownerOf (s : State) (i : Nat) (k : KeySlot) (a : Nat) :
    (s.setKeySlot i k).ownerOf a = s.ownerOf a := rfl
@[simp] theorem State.setKeySlot_failedChan (s : State) (i : Nat) (k : KeySlot) (a n : Nat) :
    (s.setKeySlot i k).failedChan a n = s.failedChan a n := rfl
@[simp] theorem State.setKeySlot_failedStack (s : State) (i : Nat) (k : KeySlot) (a n : Nat) :
    (s.setKeySlot i k).failedStack a n = s.failedStack a n := rfl
@[simp] theorem State.setKeySlot_failedIn (s : State) (i : Nat) (k : KeySlot) (segs : List (Nat × Nat)) :
    (s.setKeySlot i k).failedIn segs = s.failedIn segs := rfl
@[simp] theorem State.setKeySlot_markAt (s : State) (i : Nat) (k : KeySlot) (p a : Nat) :
    (s.setKeySlot i k).markAt p a = s.markAt p a := rfl
@[simp] theorem State.setKeySlot_byteAt (s : State) (i : Nat) (k : KeySlot) (p a : Nat) :
    (s.setKeySlot i k).byteAt p a = s.byteAt p a := rfl
@[simp] theorem State.setKeySlot_bytesAt (s : State) (i : Nat) (k : KeySlot) (p a n : Nat) :
    (s.setKeySlot i k).bytesAt p a n = s.bytesAt p a n := rfl
@[simp] theorem State.setKeySlot_wordAt (s : State) (i : Nat) (k : KeySlot) (p a : Nat) :
    (s.setKeySlot i k).wordAt p a = s.wordAt p a := rfl
@[simp] theorem State.setKeySlot_bufRef (s : State) (i : Nat) (k : KeySlot) (p q : Nat) (stm : BitVec 3) (r : BitVec 14) :
    (s.setKeySlot i k).bufRef p q stm r = s.bufRef p q stm r := rfl
@[simp] theorem State.setKeySlot_tok (s : State) (i : Nat) (k : KeySlot) (p : Nat) (z1 : Buf) :
    (s.setKeySlot i k).tok p z1 = s.tok p z1 := rfl
@[simp] theorem State.setKeySlot_missing (s : State) (i : Nat) (k : KeySlot) (p : Nat) (z1 : Buf) :
    (s.setKeySlot i k).missing p z1 = s.missing p z1 := rfl
@[simp] theorem State.setKeySlot_usedPhys (s : State) (i : Nat) (k : KeySlot) (q : Nat) :
    (s.setKeySlot i k).usedPhys q = s.usedPhys q := rfl
@[simp] theorem State.setKeySlot_link (s : State) (i : Nat) (k : KeySlot) (l : Nat) :
    (s.setKeySlot i k).link l = s.link l := rfl
@[simp] theorem State.setKeySlot_lantern (s : State) (i : Nat) (k : KeySlot) (m : Nat) :
    (s.setKeySlot i k).lantern m = s.lantern m := rfl
@[simp] theorem State.setKeySlot_coord (s : State) (i : Nat) (k : KeySlot) :
    (s.setKeySlot i k).coord = s.coord := rfl
@[simp] theorem State.setKeySlot_qp (s : State) (i : Nat) (k : KeySlot) (q : Nat) :
    (s.setKeySlot i k).qp q = s.qp q := rfl
@[simp] theorem State.setKeySlot_porter (s : State) (i : Nat) (k : KeySlot) (m : Nat) :
    (s.setKeySlot i k).porter m = s.porter m := rfl
@[simp] theorem State.setKeySlot_page (s : State) (i : Nat) (k : KeySlot) (m p : Nat) :
    (s.setKeySlot i k).page m p = s.page m p := rfl
@[simp] theorem State.setKeySlot_region (s : State) (i : Nat) (k : KeySlot) (z0 : Nat) :
    (s.setKeySlot i k).region z0 = s.region z0 := rfl
@[simp] theorem State.setKeySlot_ownsQp (s : State) (i : Nat) (k : KeySlot) (part q : Nat) :
    (s.setKeySlot i k).ownsQp part q = s.ownsQp part q := rfl
@[simp] theorem State.setKeySlot_convoy (s : State) (i : Nat) (k : KeySlot) (p : Nat) :
    (s.setKeySlot i k).convoy p = s.convoy p := rfl
@[simp] theorem State.setKeySlot_house (s : State) (i : Nat) (k : KeySlot) (n : Nat) :
    (s.setKeySlot i k).house n = s.house n := rfl
@[simp] theorem State.setKeySlot_cus (s : State) (i : Nat) (k : KeySlot) (p : Nat) :
    (s.setKeySlot i k).cus p = s.cus p := rfl
@[simp] theorem State.setKeySlot_slotRef (s : State) (i : Nat) (k : KeySlot) (z0 : Nat) :
    (s.setKeySlot i k).slotRef z0 = s.slotRef z0 := rfl
@[simp] theorem State.setKeySlot_ms (s : State) (i : Nat) (k : KeySlot) (q : Nat) :
    (s.setKeySlot i k).ms q = s.ms q := rfl
@[simp] theorem State.setKeySlot_obj (s : State) (i : Nat) (k : KeySlot) (q o : Nat) :
    (s.setKeySlot i k).obj q o = s.obj q o := rfl
@[simp] theorem State.setKeySlot_exists_ (s : State) (i : Nat) (k : KeySlot) (p : Nat) :
    (s.setKeySlot i k).exists_ p = s.exists_ p := rfl
@[simp] theorem State.setKeySlot_unbound (s : State) (i : Nat) (k : KeySlot) (f : Nat) :
    (s.setKeySlot i k).unbound f = s.unbound f := rfl
@[simp] theorem State.setKeySlot_sees (s : State) (i : Nat) (k : KeySlot) (fn : Nat) (b : BarBlock) :
    (s.setKeySlot i k).sees fn b = s.sees fn b := rfl
@[simp] theorem State.setKeySlot_mayWrite (s : State) (i : Nat) (k : KeySlot) (src : Source) (b : BarBlock) :
    (s.setKeySlot i k).mayWrite src b = s.mayWrite src b := rfl
@[simp] theorem State.setKeySlot_seraiOn (s : State) (i : Nat) (k : KeySlot) :
    (s.setKeySlot i k).seraiOn = s.seraiOn := rfl
@[simp] theorem State.setKeySlot_issuing (s : State) (i : Nat) (k : KeySlot) (l : Nat) :
    (s.setKeySlot i k).issuing l = s.issuing l := rfl
@[simp] theorem State.setKeySlot_waiting (s : State) (i : Nat) (k : KeySlot) (l : Nat) :
    (s.setKeySlot i k).waiting l = s.waiting l := rfl
@[simp] theorem State.setKeySlot_route (s : State) (i : Nat) (k : KeySlot) (ok : LinkSt → Bool) (plane : Bool) (src dst f : Nat) :
    (s.setKeySlot i k).route ok plane src dst f = s.route ok plane src dst f := rfl

@[simp] theorem State.modTime_pending (s : State) (g : TimeBase → TimeBase) :
    (s.modTime g).pending = s.pending := rfl
@[simp] theorem State.modTime_free (s : State) (g : TimeBase → TimeBase) : (s.modTime g).free = s.free := rfl
@[simp] theorem State.modTime_now (s : State) (g : TimeBase → TimeBase) : (s.modTime g).now = s.now := rfl
@[simp] theorem State.modTime_fns (s : State) (g : TimeBase → TimeBase) : (s.modTime g).fns = s.fns := rfl
@[simp] theorem State.modTime_host (s : State) (g : TimeBase → TimeBase) : (s.modTime g).host = s.host := rfl
@[simp] theorem State.modTime_log (s : State) (g : TimeBase → TimeBase) : (s.modTime g).log = s.log := rfl
@[simp] theorem State.modTime_mod (s : State) (g : TimeBase → TimeBase) : (s.modTime g).mod = s.mod := rfl
@[simp] theorem State.modTime_phys (s : State) (g : TimeBase → TimeBase) : (s.modTime g).phys = s.phys := rfl
@[simp] theorem State.modTime_mem (s : State) (g : TimeBase → TimeBase) : (s.modTime g).mem = s.mem := rfl
@[simp] theorem State.modTime_cisDies (s : State) (g : TimeBase → TimeBase) :
    (s.modTime g).cisDies = s.cisDies := rfl
@[simp] theorem State.modTime_cwy (s : State) (g : TimeBase → TimeBase) : (s.modTime g).cwy = s.cwy := rfl
@[simp] theorem State.modTime_lostCopies (s : State) (g : TimeBase → TimeBase) :
    (s.modTime g).lostCopies = s.lostCopies := rfl
@[simp] theorem State.modTime_cores (s : State) (g : TimeBase → TimeBase) : (s.modTime g).cores = s.cores := rfl
@[simp] theorem State.modTime_dies (s : State) (g : TimeBase → TimeBase) : (s.modTime g).dies = s.dies := rfl
@[simp] theorem State.modTime_parts (s : State) (g : TimeBase → TimeBase) : (s.modTime g).parts = s.parts := rfl
@[simp] theorem State.modTime_links (s : State) (g : TimeBase → TimeBase) : (s.modTime g).links = s.links := rfl
@[simp] theorem State.modTime_lanternCfg (s : State) (g : TimeBase → TimeBase) :
    (s.modTime g).lanternCfg = s.lanternCfg := rfl
@[simp] theorem State.modTime_tollWait (s : State) (g : TimeBase → TimeBase) :
    (s.modTime g).tollWait = s.tollWait := rfl
@[simp] theorem State.modTime_qps (s : State) (g : TimeBase → TimeBase) : (s.modTime g).qps = s.qps := rfl
@[simp] theorem State.modTime_porters (s : State) (g : TimeBase → TimeBase) :
    (s.modTime g).porters = s.porters := rfl
@[simp] theorem State.modTime_pages (s : State) (g : TimeBase → TimeBase) : (s.modTime g).pages = s.pages := rfl
@[simp] theorem State.modTime_selfFrames (s : State) (g : TimeBase → TimeBase) :
    (s.modTime g).selfFrames = s.selfFrames := rfl
@[simp] theorem State.modTime_regions (s : State) (g : TimeBase → TimeBase) :
    (s.modTime g).regions = s.regions := rfl
@[simp] theorem State.modTime_convoys (s : State) (g : TimeBase → TimeBase) :
    (s.modTime g).convoys = s.convoys := rfl
@[simp] theorem State.modTime_houses (s : State) (g : TimeBase → TimeBase) : (s.modTime g).houses = s.houses := rfl
@[simp] theorem State.modTime_pendFrames (s : State) (g : TimeBase → TimeBase) :
    (s.modTime g).pendFrames = s.pendFrames := rfl
@[simp] theorem State.modTime_nextFrameId (s : State) (g : TimeBase → TimeBase) :
    (s.modTime g).nextFrameId = s.nextFrameId := rfl
@[simp] theorem State.modTime_customs (s : State) (g : TimeBase → TimeBase) :
    (s.modTime g).customs = s.customs := rfl
@[simp] theorem State.modTime_cusParts (s : State) (g : TimeBase → TimeBase) :
    (s.modTime g).cusParts = s.cusParts := rfl
@[simp] theorem State.modTime_pwr (s : State) (g : TimeBase → TimeBase) : (s.modTime g).pwr = s.pwr := rfl
@[simp] theorem State.modTime_life (s : State) (g : TimeBase → TimeBase) : (s.modTime g).life = s.life := rfl
@[simp] theorem State.modTime_totals (s : State) (g : TimeBase → TimeBase) : (s.modTime g).totals = s.totals := rfl
@[simp] theorem State.modTime_totSnap (s : State) (g : TimeBase → TimeBase) :
    (s.modTime g).totSnap = s.totSnap := rfl
@[simp] theorem State.modTime_totTime (s : State) (g : TimeBase → TimeBase) :
    (s.modTime g).totTime = s.totTime := rfl
@[simp] theorem State.modTime_gapSerai (s : State) (g : TimeBase → TimeBase) :
    (s.modTime g).gapSerai = s.gapSerai := rfl
@[simp] theorem State.modTime_fn (s : State) (g : TimeBase → TimeBase) (f : Nat) :
    (s.modTime g).fn f = s.fn f := rfl
@[simp] theorem State.modTime_queue (s : State) (g : TimeBase → TimeBase) (f q : Nat) :
    (s.modTime g).queue f q = s.queue f q := rfl
@[simp] theorem State.modTime_core (s : State) (g : TimeBase → TimeBase) (p : Nat) :
    (s.modTime g).core p = s.core p := rfl
@[simp] theorem State.modTime_die (s : State) (g : TimeBase → TimeBase) (n : Nat) :
    (s.modTime g).die n = s.die n := rfl
@[simp] theorem State.modTime_part (s : State) (g : TimeBase → TimeBase) (p : Nat) :
    (s.modTime g).part p = s.part p := rfl
@[simp] theorem State.modTime_cis (s : State) (g : TimeBase → TimeBase) (m : Nat) :
    (s.modTime g).cis m = s.cis m := rfl
@[simp] theorem State.modTime_sense (s : State) (g : TimeBase → TimeBase) (d : Nat) :
    (s.modTime g).sense d = s.sense d := rfl
@[simp] theorem State.modTime_clocked (s : State) (g : TimeBase → TimeBase) :
    (s.modTime g).clocked = s.clocked := rfl
@[simp] theorem State.modTime_physOf (s : State) (g : TimeBase → TimeBase) (l : Nat) :
    (s.modTime g).physOf l = s.physOf l := rfl
@[simp] theorem State.modTime_logicalOf (s : State) (g : TimeBase → TimeBase) (p : Nat) :
    (s.modTime g).logicalOf p = s.logicalOf p := rfl
@[simp] theorem State.modTime_ownsCore (s : State) (g : TimeBase → TimeBase) (p l : Nat) :
    (s.modTime g).ownsCore p l = s.ownsCore p l := rfl
@[simp] theorem State.modTime_partOf (s : State) (g : TimeBase → TimeBase) (l : Nat) :
    (s.modTime g).partOf l = s.partOf l := rfl
@[simp] theorem State.modTime_partOfPhys (s : State) (g : TimeBase → TimeBase) (p : Nat) :
    (s.modTime g).partOfPhys p = s.partOfPhys p := rfl
@[simp] theorem State.modTime_partNo (s : State) (g : TimeBase → TimeBase) (l : Nat) :
    (s.modTime g).partNo l = s.partNo l := rfl
@[simp] theorem State.modTime_coresOf (s : State) (g : TimeBase → TimeBase) (p : Nat) :
    (s.modTime g).coresOf p = s.coresOf p := rfl
@[simp] theorem State.modTime_physOfPart (s : State) (g : TimeBase → TimeBase) (p : Nat) :
    (s.modTime g).physOfPart p = s.physOfPart p := rfl
@[simp] theorem State.modTime_vfOf (s : State) (g : TimeBase → TimeBase) (p : Nat) :
    (s.modTime g).vfOf p = s.vfOf p := rfl
@[simp] theorem State.modTime_fnOfPart (s : State) (g : TimeBase → TimeBase) (p : Nat) :
    (s.modTime g).fnOfPart p = s.fnOfPart p := rfl
@[simp] theorem State.modTime_freeVal (s : State) (g : TimeBase → TimeBase) :
    (s.modTime g).freeVal = s.freeVal := rfl
@[simp] theorem State.modTime_dieNow (s : State) (g : TimeBase → TimeBase) (d : Nat) :
    (s.modTime g).dieNow d = s.dieNow d := rfl
@[simp] theorem State.modTime_stretched (s : State) (g : TimeBase → TimeBase) (d : Nat) :
    (s.modTime g).stretched d = s.stretched d := rfl
@[simp] theorem State.modTime_mapped (s : State) (g : TimeBase → TimeBase) (a n : Nat) :
    (s.modTime g).mapped a n = s.mapped a n := rfl
@[simp] theorem State.modTime_inWindow (s : State) (g : TimeBase → TimeBase) (q a n : Nat) :
    (s.modTime g).inWindow q a n = s.inWindow q a n := rfl
@[simp] theorem State.modTime_admitted (s : State) (g : TimeBase → TimeBase) (q : Nat) (byCore store : Bool) (a n : Nat) :
    (s.modTime g).admitted q byCore store a n = s.admitted q byCore store a n := rfl
@[simp] theorem State.modTime_ownerOf (s : State) (g : TimeBase → TimeBase) (a : Nat) :
    (s.modTime g).ownerOf a = s.ownerOf a := rfl
@[simp] theorem State.modTime_failedChan (s : State) (g : TimeBase → TimeBase) (a n : Nat) :
    (s.modTime g).failedChan a n = s.failedChan a n := rfl
@[simp] theorem State.modTime_failedStack (s : State) (g : TimeBase → TimeBase) (a n : Nat) :
    (s.modTime g).failedStack a n = s.failedStack a n := rfl
@[simp] theorem State.modTime_failedIn (s : State) (g : TimeBase → TimeBase) (segs : List (Nat × Nat)) :
    (s.modTime g).failedIn segs = s.failedIn segs := rfl
@[simp] theorem State.modTime_markAt (s : State) (g : TimeBase → TimeBase) (p a : Nat) :
    (s.modTime g).markAt p a = s.markAt p a := rfl
@[simp] theorem State.modTime_byteAt (s : State) (g : TimeBase → TimeBase) (p a : Nat) :
    (s.modTime g).byteAt p a = s.byteAt p a := rfl
@[simp] theorem State.modTime_bytesAt (s : State) (g : TimeBase → TimeBase) (p a n : Nat) :
    (s.modTime g).bytesAt p a n = s.bytesAt p a n := rfl
@[simp] theorem State.modTime_wordAt (s : State) (g : TimeBase → TimeBase) (p a : Nat) :
    (s.modTime g).wordAt p a = s.wordAt p a := rfl
@[simp] theorem State.modTime_bufRef (s : State) (g : TimeBase → TimeBase) (p q : Nat) (stm : BitVec 3) (r : BitVec 14) :
    (s.modTime g).bufRef p q stm r = s.bufRef p q stm r := rfl
@[simp] theorem State.modTime_tok (s : State) (g : TimeBase → TimeBase) (p : Nat) (z1 : Buf) :
    (s.modTime g).tok p z1 = s.tok p z1 := rfl
@[simp] theorem State.modTime_missing (s : State) (g : TimeBase → TimeBase) (p : Nat) (z1 : Buf) :
    (s.modTime g).missing p z1 = s.missing p z1 := rfl
@[simp] theorem State.modTime_usedPhys (s : State) (g : TimeBase → TimeBase) (q : Nat) :
    (s.modTime g).usedPhys q = s.usedPhys q := rfl
@[simp] theorem State.modTime_link (s : State) (g : TimeBase → TimeBase) (l : Nat) :
    (s.modTime g).link l = s.link l := rfl
@[simp] theorem State.modTime_lantern (s : State) (g : TimeBase → TimeBase) (m : Nat) :
    (s.modTime g).lantern m = s.lantern m := rfl
@[simp] theorem State.modTime_coord (s : State) (g : TimeBase → TimeBase) : (s.modTime g).coord = s.coord := rfl
@[simp] theorem State.modTime_qp (s : State) (g : TimeBase → TimeBase) (q : Nat) :
    (s.modTime g).qp q = s.qp q := rfl
@[simp] theorem State.modTime_porter (s : State) (g : TimeBase → TimeBase) (m : Nat) :
    (s.modTime g).porter m = s.porter m := rfl
@[simp] theorem State.modTime_page (s : State) (g : TimeBase → TimeBase) (m p : Nat) :
    (s.modTime g).page m p = s.page m p := rfl
@[simp] theorem State.modTime_region (s : State) (g : TimeBase → TimeBase) (i : Nat) :
    (s.modTime g).region i = s.region i := rfl
@[simp] theorem State.modTime_ownsQp (s : State) (g : TimeBase → TimeBase) (part q : Nat) :
    (s.modTime g).ownsQp part q = s.ownsQp part q := rfl
@[simp] theorem State.modTime_convoy (s : State) (g : TimeBase → TimeBase) (p : Nat) :
    (s.modTime g).convoy p = s.convoy p := rfl
@[simp] theorem State.modTime_house (s : State) (g : TimeBase → TimeBase) (n : Nat) :
    (s.modTime g).house n = s.house n := rfl
@[simp] theorem State.modTime_cus (s : State) (g : TimeBase → TimeBase) (p : Nat) :
    (s.modTime g).cus p = s.cus p := rfl
@[simp] theorem State.modTime_keySlot (s : State) (g : TimeBase → TimeBase) (i : Nat) :
    (s.modTime g).keySlot i = s.keySlot i := rfl
@[simp] theorem State.modTime_slotRef (s : State) (g : TimeBase → TimeBase) (i : Nat) :
    (s.modTime g).slotRef i = s.slotRef i := rfl
@[simp] theorem State.modTime_ms (s : State) (g : TimeBase → TimeBase) (q : Nat) :
    (s.modTime g).ms q = s.ms q := rfl
@[simp] theorem State.modTime_obj (s : State) (g : TimeBase → TimeBase) (q o : Nat) :
    (s.modTime g).obj q o = s.obj q o := rfl
@[simp] theorem State.modTime_exists_ (s : State) (g : TimeBase → TimeBase) (p : Nat) :
    (s.modTime g).exists_ p = s.exists_ p := rfl
@[simp] theorem State.modTime_unbound (s : State) (g : TimeBase → TimeBase) (f : Nat) :
    (s.modTime g).unbound f = s.unbound f := rfl
@[simp] theorem State.modTime_sees (s : State) (g : TimeBase → TimeBase) (fn : Nat) (b : BarBlock) :
    (s.modTime g).sees fn b = s.sees fn b := rfl
@[simp] theorem State.modTime_mayWrite (s : State) (g : TimeBase → TimeBase) (src : Source) (b : BarBlock) :
    (s.modTime g).mayWrite src b = s.mayWrite src b := rfl
@[simp] theorem State.modTime_seraiOn (s : State) (g : TimeBase → TimeBase) :
    (s.modTime g).seraiOn = s.seraiOn := rfl
@[simp] theorem State.modTime_issuing (s : State) (g : TimeBase → TimeBase) (l : Nat) :
    (s.modTime g).issuing l = s.issuing l := rfl
@[simp] theorem State.modTime_waiting (s : State) (g : TimeBase → TimeBase) (l : Nat) :
    (s.modTime g).waiting l = s.waiting l := rfl
@[simp] theorem State.modTime_route (s : State) (g : TimeBase → TimeBase) (ok : LinkSt → Bool) (plane : Bool) (src dst f : Nat) :
    (s.modTime g).route ok plane src dst f = s.route ok plane src dst f := rfl

end Sys2Proof.Machine
end

