-- ==== Sys2Proof/Laws/Core.lean ====
section
/-!
SUPPORT. What the operations that core instructions share do, said once: issue, waits, tokens, clean reads, logbook
entries and completions.
-/

namespace Sys2Proof.Machine

/-! Issue. -/

/-- Counting an instruction as issued. -/
theorem State.issued_of {s : State} {l : Nat} {i : Instr} {p pc : Nat} (h : s.Issues l i p pc) :
    s.issued p = s.setCore p ((s.core p).issuedTo (s.core p).pc) := by
  obtain ⟨_, h2, _⟩ := h
  unfold State.issued State.tallyAdd
  dsimp only
  rw [if_neg (by omega)]
  rfl

@[simp] theorem Core.issuedTo_pc (c : Core) (pc : Nat) : (c.issuedTo pc).pc = pc := rfl

@[simp] theorem Core.issuedTo_insns (c : Core) (pc : Nat) : (c.issuedTo pc).insns = c.insns := rfl

@[simp] theorem Core.issuedTo_ops (c : Core) (pc : Nat) : (c.issuedTo pc).ops = c.ops := rfl

@[simp] theorem Core.issuedTo_fence (c : Core) (pc : Nat) : (c.issuedTo pc).fence = c.fence := rfl

@[simp] theorem Core.issuedTo_sbufs (c : Core) (pc : Nat) : (c.issuedTo pc).sbufs = c.sbufs := rfl

@[simp] theorem Core.issuedTo_tolls (c : Core) (pc : Nat) : (c.issuedTo pc).tolls = c.tolls := rfl

@[simp] theorem Core.issuedTo_traces (c : Core) (pc k : Nat) : (c.issuedTo pc).traces k = c.traces k := rfl

/-- To an instruction of the itinerary. -/
theorem State.set_goto {s : State} {p pc : Nat} {stm : BitVec 3} (c : Core) (h : pc < c.insns.length) :
    (s.setCore p c).goto p pc stm = s.setCore p { c with pc := pc } := by
  unfold State.goto
  simp [h]

/-- To the next instruction. -/
theorem State.set_advance {s : State} {p : Nat} {stm : BitVec 3} (c : Core) (h : c.pc + 1 < c.insns.length) :
    (s.setCore p c).advance p stm = s.setCore p { c with pc := c.pc + 1 } := by
  unfold State.advance
  rw [State.setCore_core, if_pos rfl]
  exact State.set_goto c h

theorem State.issued_goto {s : State} {l : Nat} {i : Instr} {p pc : Nat} {stm : BitVec 3} (h : s.Issues l i p pc) :
    (s.issued p).goto p pc stm = s.setCore p ((s.core p).issuedTo pc) := by
  rw [State.issued_of h, State.set_goto ((s.core p).issuedTo (s.core p).pc) h.2.2]
  rfl

theorem Core.setX_insns (c : Core) (i : Nat) (v : Word) : (c.setX i v).insns = c.insns := by
  unfold Core.setX
  split <;> rfl

theorem Core.setX_tally (c : Core) (i : Nat) (v : Word) : (c.setX i v).tally = c.tally := by
  unfold Core.setX
  split <;> rfl

/-! Trace records that are off, and waits without them. -/

theorem State.traceAt_off {s : State} {p k : Nat} {tag : BitVec 16} {stm : BitVec 3} {a b : DWord}
    (h : (s.core p).traces k = false) : s.traceAt p k tag stm a b = s := by
  simp [State.traceAt, h]

theorem State.beginWait_off {s : State} {p : Nat} {w : WaitOn} {stm : BitVec 3}
    (h : (s.core p).traces 1 = false) :
    s.beginWait p w stm = s.setCore p { s.core p with wait := w, waitSince := s.dieNow (p / 22), waitStm := stm } := by
  unfold State.beginWait State.traceWait
  rw [State.traceAt_off]
  · rfl
  · simpa [Core.traces] using h

theorem State.endWait_off {s : State} {p : Nat} (h : (s.core p).traces 1 = false) :
    s.endWait p = s.setCore p { s.core p with wait := .none } := by
  unfold State.endWait
  dsimp only
  rw [State.traceAt_off h]
  rfl

/-! Buffers and tokens. -/

theorem State.bufRef_setCore (s : State) (p q : Nat) (c : Core) (stm : BitVec 3) (r : BitVec 14)
    (h1 : c.streams = (s.core p).streams) (h2 : c.sbufs = (s.core p).sbufs) :
    (s.setCore p c).bufRef p q stm r = s.bufRef p q stm r := by
  simp [State.bufRef, Core.stream, Core.sbuf, h1, h2]
  rfl

theorem State.missing_setCore (s : State) (p : Nat) (c : Core) (b : Buf) (h : c.sbufs = (s.core p).sbufs) :
    (s.setCore p c).missing p b = s.missing p b := by
  cases b <;> simp [State.missing, Core.sbuf, h]

theorem State.tok_setCore (s : State) (p : Nat) (c : Core) (b : Buf) (h : c.sbufs = (s.core p).sbufs) :
    (s.setCore p c).tok p b = s.tok p b := by
  cases b <;> simp [State.tok, Core.sbuf, h]

/-- A buffer's count changes only its own entry of the core's stall buffers or of a depot's. -/
theorem State.setTok_core (s : State) (p : Nat) (b : Buf) (n : Nat) :
    ∃ f, (s.setTok p b n).core p = { s.core p with sbufs := f } := by
  cases b with
  | stall k => exact ⟨((s.setTok p (.stall k) n).core p).sbufs, by simp [State.setTok]⟩
  | depot d k => exact ⟨(s.core p).sbufs, by simp [State.setTok]⟩

/-- The count of a buffer and the other parts of its core change independently. -/
theorem State.setTok_setCore (s : State) (p : Nat) (b : Buf) (n : Nat) (c : Core)
    (h : c.sbufs = (s.core p).sbufs) :
    (s.setCore p c).setTok p b n
      = (s.setTok p b n).setCore p { c with sbufs := ((s.setTok p b n).core p).sbufs } := by
  cases b with
  | stall k => simp [State.setTok, h]
  | depot d k =>
    simp only [State.setTok, State.modDie_eq, State.setCore_die, State.setDie_core]
    rw [← h]
    rfl

/-! Clean reads (R198, R207, R209, R211). -/

theorem State.coreRead_clean {s : State} {p q a n : Nat} {stm : BitVec 3} (h : s.ReadsClean p q a n) :
    s.coreRead p q [(a, n)] stm = (s, true) := by
  obtain ⟨h1, h2, h3, h4⟩ := h
  have hm : s.markedWords p [(a, n)] = [] := by
    simp [State.markedWords, List.filter_eq_nil_iff]
    exact h4
  simp [State.coreRead, h1, State.failedIn, h2, State.uncorrIn, hm, h3, State.touchRead, eachDo]

theorem State.markAt_setCore (s : State) (p : Nat) (c : Core) (a : Nat) (h : c.stallErr = (s.core p).stallErr) :
    (s.setCore p c).markAt p a = s.markAt p a := by
  unfold State.markAt
  split <;> simp [h]

theorem State.byteAt_setCore (s : State) (p : Nat) (c : Core) (a : Nat) (h : c.stall = (s.core p).stall) :
    (s.setCore p c).byteAt p a = s.byteAt p a := by
  unfold State.byteAt
  split <;> simp [h]

theorem State.bytesAt_setCore (s : State) (p : Nat) (c : Core) (a n : Nat) (h : c.stall = (s.core p).stall) :
    (s.setCore p c).bytesAt p a n = s.bytesAt p a n := by
  simp [State.bytesAt, State.byteAt_setCore, h]

theorem State.wordAt_setCore (s : State) (p : Nat) (c : Core) (a : Nat) (h : c.stall = (s.core p).stall) :
    (s.setCore p c).wordAt p a = s.wordAt p a := by
  simp [State.wordAt, State.bytesAt_setCore, h]

theorem State.ReadsClean.setCore {s : State} {p q a n : Nat} (c : Core) (hc : c.stallErr = (s.core p).stallErr)
    (h : s.ReadsClean p q a n) : (s.setCore p c).ReadsClean p q a n := by
  obtain ⟨h1, h2, h3, h4⟩ := h
  exact ⟨h1, h2, h3, fun w hw => by rw [State.markAt_setCore _ _ _ _ hc]; exact h4 w hw⟩

end Sys2Proof.Machine
end

