-- ==== Sys2Proof/Laws/Host.lean ====
section
/-!
SUPPORT. Host commands and writes of BAR0: what they come to under the conditions of Safety.
-/

namespace Sys2Proof.Machine

/-- An accepted command is taken from its queue, has its effect, and the malformed descriptors behind it are rejected. -/
theorem State.hostCmd_accepts {s : State} {h : CmdHdr} {code flags args : Nat} (act : State → CmdRef → State)
    (a : s.Accepts h code flags args) :
    s.hostCmd h code flags args act
      = (act (s.takeDesc h.fn h.q) (CmdHdr.ref h code)).settleQueue h.fn h.q := by
  obtain ⟨h1, h2, h3, h4, h5, h6⟩ := a
  have h7 : ¬ (h.fn ≠ 0 ∧ (s.fn h.fn).part.toNat ≠ h.part) := by
    rintro ⟨x, y⟩
    cases h5 with
    | inl e => exact x e
    | inr e => exact y e
  simp only [State.hostCmd, h1, h2, h3, h4, h6, if_true, if_neg h7, Bool.not_true, Bool.false_eq_true, if_false]

theorem State.onBar_sees {s : State} {fn : Nat} {b : BarBlock} (g : State → State) (h : s.sees fn b = true) :
    s.onBar fn b g = g s := if_pos h

theorem State.onBar_unseen {s : State} {fn : Nat} {b : BarBlock} (g : State → State) (h : s.sees fn b = false) :
    s.onBar fn b g = s := if_neg (by simp [h])

end Sys2Proof.Machine
end

