-- ==== Sys2Proof/Laws/Memory.lean ====
section
/-!
SUPPORT. The memories that are tables of their own, the stalls and depots: what keeps their canonical form. (For HBM and
the cistern, Laws/Keeps says it of every operation.)
-/

namespace Sys2Proof.Machine

theorem tabGet_all {α : Type} (d : α) (f : α → Bool) (t : Tab α) (k : Nat) (hd : f d = true)
    (h : t.all (fun e => f e.2) = true) : f (tabGet d t k) = true := by
  induction t with
  | nil => exact hd
  | cons e t ih =>
    obtain ⟨j, w⟩ := e
    simp only [List.all_cons, Bool.and_eq_true] at h
    simp only [tabGet]
    split
    · exact h.1
    · exact ih h.2

/-- A change of a core keeps the form where it keeps the form of the core's stall. -/
theorem State.modCore_localWf (s : State) (p : Nat) (g : Core → Core)
    (hg : ∀ c, tabWf 0 c.stall = true → tabWf 0 (g c).stall = true) (h : s.localWf = true) :
    (s.modCore p g).localWf = true := by
  simp only [State.localWf, Bool.and_eq_true] at h ⊢
  exact ⟨tabSet_all _ _ _ _ (hg _ (tabGet_all _ (fun c : Core => tabWf 0 c.stall) _ _ rfl h.1)) h.1, h.2⟩

/-- A change of a die keeps the form where it keeps the form of the die's depot. -/
theorem State.modDie_localWf (s : State) (n : Nat) (g : Die → Die)
    (hg : ∀ d, tabWf 0 d.depot = true → tabWf 0 (g d).depot = true) (h : s.localWf = true) :
    (s.modDie n g).localWf = true := by
  simp only [State.localWf, Bool.and_eq_true] at h ⊢
  exact ⟨h.1, tabSet_all _ _ _ _ (hg _ (tabGet_all _ (fun d : Die => tabWf 0 d.depot) _ _ rfl h.2)) h.2⟩

theorem State.setByte_localWf (s : State) (p a : Nat) (v : Byte) (h : s.localWf = true) :
    (s.setByte p a v).localWf = true := by
  unfold State.setByte
  split
  · split <;> exact h
  · split <;> exact h
  · exact s.modCore_localWf p _ (fun c hc => tabPut_wf 0 c.stall _ v hc) h
  · exact s.modDie_localWf _ _ (fun d hd => tabPut_wf 0 d.depot _ v hd) h
  · exact h
  · exact h

theorem State.setBytes_localWf (s : State) (p a : Nat) (d : List Byte) (h : s.localWf = true) :
    (s.setBytes p a d).localWf = true := by
  induction d generalizing s a with
  | nil => exact h
  | cons v vs ih => exact ih (s.setByte p a v) (a + 1) (s.setByte_localWf p a v h)

end Sys2Proof.Machine
end

