-- ==== Sys2Proof/WellFormed.lean ====
section
/-!
DEFINITION. Which commands are well formed: those whose operands name a function, queue, partition, core, die, link or
other part that the module has, and lists of the lengths that the spec gives them.
-/

namespace Sys2Proof

/-- What an operand names. -/
inductive Arg
  /-- A PCIe function: the PF, 0, or VF 1 to 16 (R405). -/
  | fn (f : Nat)
  /-- A VF. -/
  | vf (f : Nat)
  /-- A queue of a function (R409). -/
  | queue (q : Nat)
  | part (p : Nat)
  /-- PART of a descriptor, a byte (Table 14.4). -/
  | cmdPart (p : Nat)
  /-- A logical core (R21). -/
  | core (l : Nat)
  /-- A core's place on its die, spares with it. -/
  | phys (k : Nat)
  | die (n : Nat)
  | lantern (m : Nat)
  /-- An optical link, of the six of each lantern die (R229). -/
  | link (l : Nat)
  /-- A priority (R241). -/
  | prio (p : Nat)
  /-- A die with a sensor: 12 compute, 6 lanterns, 6 cistern dies, Serai. -/
  | site (d : Nat)
  /-- A mesh port of a die. -/
  | meshPort (p : Nat)
  /-- A milestone object of a partition (R171). -/
  | obj (o : Nat)
  /-- An entry of the region table. -/
  | region (i : Nat)
  /-- An entry of the service calendar (R363). -/
  | service (k : Nat)
  /-- The length of a list with a value for each priority or credit count. -/
  | eight (n : Nat)
  /-- The length of a list with a value for each site. -/
  | sites (n : Nat)
  /-- The length of a list with a value for each compute die. -/
  | dies (n : Nat)
  deriving DecidableEq, Repr

/-- Does the module have what an operand names? -/
def Arg.ok (a : Arg) : Bool :=
  match a with
  | .fn f => decide (f ≤ 16)
  | .vf f => decide (1 ≤ f) && decide (f ≤ 16)
  | .queue q => decide (q < 256)
  | .part p => decide (p < 16)
  | .cmdPart p => decide (p < 256)
  | .core l => decide (l < 240)
  | .phys k => decide (k < 22)
  | .die n => decide (n < 12)
  | .lantern m => decide (m < 6)
  | .link l => decide (l < 36)
  | .prio p => decide (p < 8)
  | .site d => decide (d < 25)
  | .meshPort p => decide (p < 4)
  | .obj o => decide (o < 256)
  | .region i => decide (i < 4096)
  | .service k => decide (k < 16)
  | .eight n => n == 8
  | .sites n => n == 25
  | .dies n => n == 12

/-- The header of a host command (Table 14.4). -/
def CmdHdr.args (h : CmdHdr) : List Arg := [.fn h.fn, .queue h.q, .cmdPart h.part]

def Source.args (x : Source) : List Arg :=
  match x with
  | .function f => [.fn f]
  | .sideband => []

def Rail.args (r : Rail) : List Arg :=
  match r with
  | .vcd n => [.die n]
  | .hbm n => [.die n]
  | .vstby => []
  | .vsv => []
  | .vio => []
  | .vphy => []
  | .vln => []
  | .vcs => []
  | .lpddr => []
  | .vopt => []

def ClockAt.args (c : ClockAt) : List Arg :=
  match c with
  | .coreArith n k => [.die n, .phys k]
  | .die d => [.site d]
  | .serai => []

/-- What the operands of a command name. -/
def Instr.args (i : Instr) : List Arg :=
  match i with
  | .nop i => [.core i.core]
  | .loop i _ _ _ => [.core i.core]
  | .loopm i _ _ _ _ _ => [.core i.core]
  | .endloop i => [.core i.core]
  | .jump i _ => [.core i.core]
  | .brflag i _ _ _ _ => [.core i.core]
  | .brmem i _ _ _ _ => [.core i.core]
  | .dlbr i _ _ _ _ => [.core i.core]
  | .dlbrTokenReached core => [.core core]
  | .dlbrDeadlineExpiry core => [.core core]
  | .halt i => [.core i.core]
  | .itineraryDone part => [.part part]
  | .regwr i _ _ _ => [.core i.core]
  | .tokwait i _ _ _ => [.core i.core]
  | .tokwaitSatisfied core => [.core core]
  | .tokpost i _ _ => [.core i.core]
  | .release i _ => [.core i.core]
  | .tollreq i _ _ _ => [.core i.core]
  | .tollGrant core => [.core core]
  | .fence i => [.core i.core]
  | .fenceComplete core => [.core core]
  | .msarrive i _ _ _ _ => [.core i.core]
  | .hostnote i _ _ => [.core i.core]
  | .copy i _ _ _ _ _ => [.core i.core]
  | .copyComplete core _ => [.core core]
  | .remote i _ _ _ _ _ => [.core i.core]
  | .remoteComplete core _ => [.core core]
  | .convoy i _ _ _ _ _ => [.core i.core]
  | .convoyComplete core _ => [.core core]
  | .array i _ _ _ _ _ _ _ => [.core i.core]
  | .arrayi i _ _ _ _ _ _ _ _ _ _ => [.core i.core]
  | .draw i _ _ _ _ _ _ _ _ _ _ _ => [.core i.core]
  | .conv i _ _ _ _ _ => [.core i.core]
  | .vec i _ _ _ _ _ _ _ => [.core i.core]
  | .tally i _ _ => [.core i.core]
  | .trace i _ _ => [.core i.core]
  | .coreFaultReport n k => [.die n, .phys k]
  | .cmdNop h => h.args
  | .loadItinerary h _ _ => h.args
  | .start h => h.args
  | .pause h => h.args
  | .resume h => h.args
  | .stop h => h.args
  | .contextSwitchDone part => [.part part]
  | .postToken h _ _ _ => h.args
  | .copyIn h _ _ _ _ _ _ _ _ => h.args
  | .copyOut h _ _ _ _ _ => h.args
  | .registerRegion h _ _ _ _ _ => h.args
  | .revokeRegion h _ => h.args
  | .regionDrained idx => [.region idx]
  | .installKey h _ => h.args
  | .scrub h => h.args
  | .applyManifest h _ _ => h.args
  | .manifestActivation => []
  | .manifestSwitchTimeout part => [.part part]
  | .manifestCancel fn => [.fn fn]
  | .placementPlace fn part => [.fn fn, .part part]
  | .placementRemove fn part => [.fn fn, .part part]
  | .placementRemoveDone part => [.part part]
  | .placementReadBack fn part => [.fn fn, .part part]
  | .qpCreate fn m part => [.fn fn, .lantern m, .part part]
  | .qpDestroy fn m part => [.fn fn, .lantern m, .part part]
  | .qpPin fn m part => [.fn fn, .lantern m, .part part]
  | .qpUnpin fn m part => [.fn fn, .lantern m, .part part]
  | .qpReset fn m part => [.fn fn, .lantern m, .part part]
  | .qpReadBack fn m part => [.fn fn, .lantern m, .part part]
  | .anchorEnrol fn _ => [.fn fn]
  | .anchorRelease fn _ => [.fn fn]
  | .svnAdvance fn => [.fn fn]
  | .keygen fn part => [.fn fn, .part part]
  | .keySlotEmpty fn part _ => [.fn fn, .part part]
  | .cvSwitchArm fn part => [.fn fn, .part part]
  | .cvSwitchDisarm fn part => [.fn fn, .part part]
  | .shutdown src => src.args
  | .reboot src => src.args
  | .quiesceDone => []
  | .firmwareUpdate fn _ => [.fn fn]
  | .firmwareUpdateDone _ => []
  | .lifetimeCommitCmd fn => [.fn fn]
  | .lifetimeCommitTimer => []
  | .serviceDue k => [.service k]
  | .tallySnap fn n k => [.fn fn, .die n, .phys k]
  | .totalSnap fn => [.fn fn]
  | .tallyTotalUpdate => []
  | .traceTallyPeriod n k => [.die n, .phys k]
  | .traceDrain n k _ => [.die n, .phys k]
  | .linkAdminDown fn link => [.fn fn, .link link]
  | .linkAdminUp fn link => [.fn fn, .link link]
  | .retrain fn link => [.fn fn, .link link]
  | .quarInject fn n _ => [.fn fn, .die n]
  | .resInject fn n k _ => [.fn fn, .die n, .phys k]
  | .hbmInject fn n _ => [.fn fn, .die n]
  | .cisInjectError fn m _ _ => [.fn fn, .lantern m]
  | .cisInjectFail fn m _ => [.fn fn, .lantern m]
  | .porterInjectAuth fn m => [.fn fn, .lantern m]
  | .porterInjectDrop fn m => [.fn fn, .lantern m]
  | .updSubmit fn n _ => [.fn fn, .die n]
  | .updHalt fn n _ => [.fn fn, .die n]
  | .updUcodeWrite fn n _ _ => [.fn fn, .die n]
  | .updateEngineTake n => [.die n]
  | .updateEngineComplete n => [.die n]
  | .countingHouseAdd n => [.die n]
  | .msDefWrite fn part _ _ => [.fn fn, .part part]
  | .timeStep src _ => src.args
  | .pwrBudgetWrite src _ => src.args
  | .logCursorWrite fn _ _ _ => [.fn fn]
  | .logAutoAdvance fn => [.fn fn]
  | .queueEnable fn q _ => [.fn fn, .queue q]
  | .queueDisable fn q _ => [.fn fn, .queue q]
  | .queueHaltClear fn q => [.fn fn, .queue q]
  | .doorbellSqTail fn q _ _ => [.fn fn, .queue q]
  | .doorbellCqHead fn q _ => [.fn fn, .queue q]
  | .queueRingError fn q => [.fn fn, .queue q]
  | .msixCoalesceExpiry fn q => [.fn fn, .queue q]
  | .eventDeliverDeferred fn => [.fn fn]
  | .nicSendDescriptor fn q _ _ => [.fn fn, .queue q]
  | .nicRxBufferPost fn q _ => [.fn fn, .queue q]
  | .bar0BadAccess fn _ _ _ => [.fn fn]
  | .registerLowHalfRead fn _ => [.fn fn]
  | .registerReadClear fn _ => [.fn fn]
  | .registerWrite fn _ _ _ => [.fn fn]
  | .flrVf v => [.vf v]
  | .flrPf => []
  | .spdmGetVersion fn => [.fn fn]
  | .spdmGetCapabilities fn => [.fn fn]
  | .spdmNegotiateAlgorithms fn _ _ => [.fn fn]
  | .spdmGetDigests fn => [.fn fn]
  | .spdmGetCertificate fn _ _ _ => [.fn fn]
  | .spdmChallenge fn _ _ => [.fn fn]
  | .getMeasurements fn _ _ _ => [.fn fn]
  | .spdmUnsupported fn _ => [.fn fn]
  | .sidebandRead _ _ => []
  | .sidebandWrite _ _ _ => []
  | .sidebandWake _ => []
  | .ririsWrite _ => []
  | .ririsWriteNotify _ => []
  | .ririsReadReq _ => []
  | .ririsReadResp _ => []
  | .ririsNotify _ => []
  | .ririsAck _ => []
  | .ririsNak _ => []
  | .ririsUnknownFrame _ => []
  | .convoyFrame _ => []
  | .contextMiss _ => []
  | .contextFetchDone _ _ => []
  | .parkedFrameTimeout _ => []
  | .qpRetryTimeout _ => []
  | .ackDelayExpiry _ => []
  | .frameForward link _ _ => [.link link]
  | .switchedFrameSend _ _ => []
  | .beaconDue link => [.link link]
  | .beaconReceived link _ => [.link link]
  | .beaconLossTimeout link => [.link link]
  | .beaconGraceExpiry link => [.link link]
  | .linkRetryTimer link => [.link link]
  | .opticsPowerOk link => [.link link]
  | .opticsTimeout link => [.link link]
  | .alignDone link => [.link link]
  | .alignTimeout link => [.link link]
  | .beaconWaitTimeout link => [.link link]
  | .pcsAlignmentLost link => [.link link]
  | .pcsHighSer link => [.link link]
  | .controlAckReceived link _ => [.link link]
  | .controlRetxTimeout link => [.link link]
  | .creditFrameReceived link cred => [.link link, .eight cred.length]
  | .creditFrameTimer link => [.link link]
  | .pfcFrameReceived link _ times => [.link link, .eight times.length]
  | .pfcPauseExpiry link prio => [.link link, .prio prio]
  | .pfcRepeatTimer link prio => [.link link, .prio prio]
  | .pfcWatchdogFire link prio => [.link link, .prio prio]
  | .pfcRecoveryEnd link prio => [.link link, .prio prio]
  | .nicFrameReceived link _ => [.link link]
  | .arpNdFrame link _ _ => [.link link]
  | .timeFrameDue link => [.link link]
  | .timeFrameReceived link _ => [.link link]
  | .timeReferenceLoss => []
  | .replicaCheck diffs => [.sites diffs.length]
  | .ptpLockChange _ => []
  | .msLocalArrival part obj core => [.part part, .obj obj, .core core]
  | .msArrivalMsg _ => []
  | .msRelease _ => []
  | .msWatchdogFire part obj => [.part part, .obj obj]
  | .msWatchdogNotice _ => []
  | .msAbandon _ => []
  | .msHold _ => []
  | .msWithdrawal _ => []
  | .msReplayRequest _ => []
  | .spurFlitError rx tx _ => [.site rx, .site tx]
  | .meshFlitLoss die port _ => [.site die, .meshPort port]
  | .correctedWriteback _ _ => []
  | .patrolRead _ _ _ _ => []
  | .cisternReadTimeout m _ => [.lantern m]
  | .hbmReadTimeout n => [.die n]
  | .periodicCoreTest n k _ _ => [.die n, .phys k]
  | .periodicEngineTest n _ _ => [.die n]
  | .lockstepMismatch n k => [.die n, .phys k]
  | .clockMonitorFault c => c.args
  | .firmwareWatchdog => []
  | .powerRecompute _ => []
  | .phaseLearn part dies => [.part part, .dies dies.length]
  | .supplyVoltageChange _ => []
  | .thermalSample d _ => [.site d]
  | .droopCrossing d _ => [.site d]
  | .droopStretchEnd d _ => [.site d]
  | .logArchiveProgram => []
  | .powerPresent _ => []
  | .powerLost => []
  | .overvoltage => []
  | .wake _ => []
  | .bootDone _ => []
  | .perst => []
  | .mrst => []
  | .leakDetected => []
  | .railFault r => r.args
  | .pcieLinkTrained _ _ => []
  | .recoveryRecallDone part => [.part part]
  | .reassignmentScrubDone => []
  | .scrubDone part => [.part part]
  | .frameDiscarded link _ _ _ _ => [.link link]
  | .leakCleared => []
  | .lifetimeCommitDone _ => []

/-- Is a command well formed? -/
def Instr.wellFormed (i : Instr) : Bool := i.args.all Arg.ok

end Sys2Proof
end

