-- ==== Sys2Proof/Laws/PerInstr.lean ====
section
/-!
SUPPORT. Each command is one row of the opcode table, in the table's order and under its name.
-/

namespace Sys2Proof.Laws

/-! The mnemonics of the opcode table, in its order. -/

def rows0 : List String :=
  ["NOP", "LOOP", "LOOPM", "ENDLOOP",
   "JUMP", "BRFLAG", "BRMEM", "DLBR",
   "DLBR_TOKEN_REACHED", "DLBR_DEADLINE_EXPIRY", "HALT", "ITINERARY_DONE",
   "REGWR", "TOKWAIT", "TOKWAIT_SATISFIED", "TOKPOST",
   "RELEASE", "TOLLREQ", "TOLL_GRANT", "FENCE",
   "FENCE_COMPLETE", "MSARRIVE", "HOSTNOTE", "COPY",
   "COPY_COMPLETE", "REMOTE", "REMOTE_COMPLETE", "CONVOY",
   "CONVOY_COMPLETE", "ARRAY", "ARRAYI", "DRAW",
   "CONV", "VEC", "TALLY", "TRACE",
   "CORE_FAULT_REPORT", "CMD_NOP", "LOAD_ITINERARY", "START"]

def rows1 : List String :=
  ["PAUSE", "RESUME", "STOP", "CONTEXT_SWITCH_DONE",
   "POST_TOKEN", "COPY_IN", "COPY_OUT", "REGISTER_REGION",
   "REVOKE_REGION", "REGION_DRAINED", "INSTALL_KEY", "SCRUB",
   "APPLY_MANIFEST", "MANIFEST_ACTIVATION", "MANIFEST_SWITCH_TIMEOUT", "MANIFEST_CANCEL",
   "PLACEMENT_PLACE", "PLACEMENT_REMOVE", "PLACEMENT_REMOVE_DONE", "PLACEMENT_READ_BACK",
   "QP_CREATE", "QP_DESTROY", "QP_PIN", "QP_UNPIN",
   "QP_RESET", "QP_READ_BACK", "ANCHOR_ENROL", "ANCHOR_RELEASE",
   "SVN_ADVANCE", "KEYGEN", "KEY_SLOT_EMPTY", "CV_SWITCH_ARM",
   "CV_SWITCH_DISARM", "SHUTDOWN", "REBOOT", "QUIESCE_DONE",
   "FIRMWARE_UPDATE", "FIRMWARE_UPDATE_DONE", "LIFETIME_COMMIT_CMD", "LIFETIME_COMMIT_TIMER"]

def rows2 : List String :=
  ["SERVICE_DUE", "TALLY_SNAP", "TOTAL_SNAP", "TALLY_TOTAL_UPDATE",
   "TRACE_TALLY_PERIOD", "TRACE_DRAIN", "LINK_ADMIN_DOWN", "LINK_ADMIN_UP",
   "RETRAIN", "QUAR_INJECT", "RES_INJECT", "HBM_INJECT",
   "CIS_INJECT_ERROR", "CIS_INJECT_FAIL", "PORTER_INJECT_AUTH", "PORTER_INJECT_DROP",
   "UPD_SUBMIT", "UPD_HALT", "UPD_UCODE_WRITE", "UPDATE_ENGINE_TAKE",
   "UPDATE_ENGINE_COMPLETE", "COUNTING_HOUSE_ADD", "MS_DEF_WRITE", "TIME_STEP",
   "PWR_BUDGET_WRITE", "LOG_CURSOR_WRITE", "LOG_AUTO_ADVANCE", "QUEUE_ENABLE",
   "QUEUE_DISABLE", "QUEUE_HALT_CLEAR", "DOORBELL_SQ_TAIL", "DOORBELL_CQ_HEAD",
   "QUEUE_RING_ERROR", "MSIX_COALESCE_EXPIRY", "EVENT_DELIVER_DEFERRED", "NIC_SEND_DESCRIPTOR",
   "NIC_RX_BUFFER_POST", "BAR0_BAD_ACCESS", "REGISTER_LOW_HALF_READ", "REGISTER_READ_CLEAR"]

def rows3 : List String :=
  ["REGISTER_WRITE", "FLR_VF", "FLR_PF", "SPDM_GET_VERSION",
   "SPDM_GET_CAPABILITIES", "SPDM_NEGOTIATE_ALGORITHMS", "SPDM_GET_DIGESTS", "SPDM_GET_CERTIFICATE",
   "SPDM_CHALLENGE", "GET_MEASUREMENTS", "SPDM_UNSUPPORTED", "SIDEBAND_READ",
   "SIDEBAND_WRITE", "SIDEBAND_WAKE", "RIRIS_WRITE", "RIRIS_WRITE_NOTIFY",
   "RIRIS_READ_REQ", "RIRIS_READ_RESP", "RIRIS_NOTIFY", "RIRIS_ACK",
   "RIRIS_NAK", "RIRIS_UNKNOWN_FRAME", "CONVOY_FRAME", "CONTEXT_MISS",
   "CONTEXT_FETCH_DONE", "PARKED_FRAME_TIMEOUT", "QP_RETRY_TIMEOUT", "ACK_DELAY_EXPIRY",
   "FRAME_FORWARD", "SWITCHED_FRAME_SEND", "BEACON_DUE", "BEACON_RECEIVED",
   "BEACON_LOSS_TIMEOUT", "BEACON_GRACE_EXPIRY", "LINK_RETRY_TIMER", "OPTICS_POWER_OK",
   "OPTICS_TIMEOUT", "ALIGN_DONE", "ALIGN_TIMEOUT", "BEACON_WAIT_TIMEOUT"]

def rows4 : List String :=
  ["PCS_ALIGNMENT_LOST", "PCS_HIGH_SER", "CONTROL_ACK_RECEIVED", "CONTROL_RETX_TIMEOUT",
   "CREDIT_FRAME_RECEIVED", "CREDIT_FRAME_TIMER", "PFC_FRAME_RECEIVED", "PFC_PAUSE_EXPIRY",
   "PFC_REPEAT_TIMER", "PFC_WATCHDOG_FIRE", "PFC_RECOVERY_END", "NIC_FRAME_RECEIVED",
   "ARP_ND_FRAME", "TIME_FRAME_DUE", "TIME_FRAME_RECEIVED", "TIME_REFERENCE_LOSS",
   "REPLICA_CHECK", "PTP_LOCK_CHANGE", "MS_LOCAL_ARRIVAL", "MS_ARRIVAL_MSG",
   "MS_RELEASE", "MS_WATCHDOG_FIRE", "MS_WATCHDOG_NOTICE", "MS_ABANDON",
   "MS_HOLD", "MS_WITHDRAWAL", "MS_REPLAY_REQUEST", "SPUR_FLIT_ERROR",
   "MESH_FLIT_LOSS", "CORRECTED_WRITEBACK", "PATROL_READ", "CISTERN_READ_TIMEOUT",
   "HBM_READ_TIMEOUT", "PERIODIC_CORE_TEST", "PERIODIC_ENGINE_TEST", "LOCKSTEP_MISMATCH",
   "CLOCK_MONITOR_FAULT", "FIRMWARE_WATCHDOG", "POWER_RECOMPUTE", "PHASE_LEARN"]

def rows5 : List String :=
  ["SUPPLY_VOLTAGE_CHANGE", "THERMAL_SAMPLE", "DROOP_CROSSING", "DROOP_STRETCH_END",
   "LOG_ARCHIVE_PROGRAM", "POWER_PRESENT", "POWER_LOST", "OVERVOLTAGE",
   "WAKE", "BOOT_DONE", "PERST", "MRST",
   "LEAK_DETECTED", "RAIL_FAULT", "PCIE_LINK_TRAINED", "RECOVERY_RECALL_DONE",
   "REASSIGNMENT_SCRUB_DONE", "SCRUB_DONE", "FRAME_DISCARDED", "LEAK_CLEARED",
   "LIFETIME_COMMIT_DONE"]



/-- The part of the table that holds the row of a command, its place there, and its mnemonic. -/
def rowOf (i : Instr) : List String × Nat × String :=
  match i with
  | .nop _ => (rows0, 0, "NOP")
  | .loop _ _ _ _ => (rows0, 1, "LOOP")
  | .loopm _ _ _ _ _ _ => (rows0, 2, "LOOPM")
  | .endloop _ => (rows0, 3, "ENDLOOP")
  | .jump _ _ => (rows0, 4, "JUMP")
  | .brflag _ _ _ _ _ => (rows0, 5, "BRFLAG")
  | .brmem _ _ _ _ _ => (rows0, 6, "BRMEM")
  | .dlbr _ _ _ _ _ => (rows0, 7, "DLBR")
  | .dlbrTokenReached _ => (rows0, 8, "DLBR_TOKEN_REACHED")
  | .dlbrDeadlineExpiry _ => (rows0, 9, "DLBR_DEADLINE_EXPIRY")
  | .halt _ => (rows0, 10, "HALT")
  | .itineraryDone _ => (rows0, 11, "ITINERARY_DONE")
  | .regwr _ _ _ _ => (rows0, 12, "REGWR")
  | .tokwait _ _ _ _ => (rows0, 13, "TOKWAIT")
  | .tokwaitSatisfied _ => (rows0, 14, "TOKWAIT_SATISFIED")
  | .tokpost _ _ _ => (rows0, 15, "TOKPOST")
  | .release _ _ => (rows0, 16, "RELEASE")
  | .tollreq _ _ _ _ => (rows0, 17, "TOLLREQ")
  | .tollGrant _ => (rows0, 18, "TOLL_GRANT")
  | .fence _ => (rows0, 19, "FENCE")
  | .fenceComplete _ => (rows0, 20, "FENCE_COMPLETE")
  | .msarrive _ _ _ _ _ => (rows0, 21, "MSARRIVE")
  | .hostnote _ _ _ => (rows0, 22, "HOSTNOTE")
  | .copy _ _ _ _ _ _ => (rows0, 23, "COPY")
  | .copyComplete _ _ => (rows0, 24, "COPY_COMPLETE")
  | .remote _ _ _ _ _ _ => (rows0, 25, "REMOTE")
  | .remoteComplete _ _ => (rows0, 26, "REMOTE_COMPLETE")
  | .convoy _ _ _ _ _ _ => (rows0, 27, "CONVOY")
  | .convoyComplete _ _ => (rows0, 28, "CONVOY_COMPLETE")
  | .array _ _ _ _ _ _ _ _ => (rows0, 29, "ARRAY")
  | .arrayi _ _ _ _ _ _ _ _ _ _ _ => (rows0, 30, "ARRAYI")
  | .draw _ _ _ _ _ _ _ _ _ _ _ _ => (rows0, 31, "DRAW")
  | .conv _ _ _ _ _ _ => (rows0, 32, "CONV")
  | .vec _ _ _ _ _ _ _ _ => (rows0, 33, "VEC")
  | .tally _ _ _ => (rows0, 34, "TALLY")
  | .trace _ _ _ => (rows0, 35, "TRACE")
  | .coreFaultReport _ _ => (rows0, 36, "CORE_FAULT_REPORT")
  | .cmdNop _ => (rows0, 37, "CMD_NOP")
  | .loadItinerary _ _ _ => (rows0, 38, "LOAD_ITINERARY")
  | .start _ => (rows0, 39, "START")
  | .pause _ => (rows1, 0, "PAUSE")
  | .resume _ => (rows1, 1, "RESUME")
  | .stop _ => (rows1, 2, "STOP")
  | .contextSwitchDone _ => (rows1, 3, "CONTEXT_SWITCH_DONE")
  | .postToken _ _ _ _ => (rows1, 4, "POST_TOKEN")
  | .copyIn _ _ _ _ _ _ _ _ _ => (rows1, 5, "COPY_IN")
  | .copyOut _ _ _ _ _ _ => (rows1, 6, "COPY_OUT")
  | .registerRegion _ _ _ _ _ _ => (rows1, 7, "REGISTER_REGION")
  | .revokeRegion _ _ => (rows1, 8, "REVOKE_REGION")
  | .regionDrained _ => (rows1, 9, "REGION_DRAINED")
  | .installKey _ _ => (rows1, 10, "INSTALL_KEY")
  | .scrub _ => (rows1, 11, "SCRUB")
  | .applyManifest _ _ _ => (rows1, 12, "APPLY_MANIFEST")
  | .manifestActivation => (rows1, 13, "MANIFEST_ACTIVATION")
  | .manifestSwitchTimeout _ => (rows1, 14, "MANIFEST_SWITCH_TIMEOUT")
  | .manifestCancel _ => (rows1, 15, "MANIFEST_CANCEL")
  | .placementPlace _ _ => (rows1, 16, "PLACEMENT_PLACE")
  | .placementRemove _ _ => (rows1, 17, "PLACEMENT_REMOVE")
  | .placementRemoveDone _ => (rows1, 18, "PLACEMENT_REMOVE_DONE")
  | .placementReadBack _ _ => (rows1, 19, "PLACEMENT_READ_BACK")
  | .qpCreate _ _ _ => (rows1, 20, "QP_CREATE")
  | .qpDestroy _ _ _ => (rows1, 21, "QP_DESTROY")
  | .qpPin _ _ _ => (rows1, 22, "QP_PIN")
  | .qpUnpin _ _ _ => (rows1, 23, "QP_UNPIN")
  | .qpReset _ _ _ => (rows1, 24, "QP_RESET")
  | .qpReadBack _ _ _ => (rows1, 25, "QP_READ_BACK")
  | .anchorEnrol _ _ => (rows1, 26, "ANCHOR_ENROL")
  | .anchorRelease _ _ => (rows1, 27, "ANCHOR_RELEASE")
  | .svnAdvance _ => (rows1, 28, "SVN_ADVANCE")
  | .keygen _ _ => (rows1, 29, "KEYGEN")
  | .keySlotEmpty _ _ _ => (rows1, 30, "KEY_SLOT_EMPTY")
  | .cvSwitchArm _ _ => (rows1, 31, "CV_SWITCH_ARM")
  | .cvSwitchDisarm _ _ => (rows1, 32, "CV_SWITCH_DISARM")
  | .shutdown _ => (rows1, 33, "SHUTDOWN")
  | .reboot _ => (rows1, 34, "REBOOT")
  | .quiesceDone => (rows1, 35, "QUIESCE_DONE")
  | .firmwareUpdate _ _ => (rows1, 36, "FIRMWARE_UPDATE")
  | .firmwareUpdateDone _ => (rows1, 37, "FIRMWARE_UPDATE_DONE")
  | .lifetimeCommitCmd _ => (rows1, 38, "LIFETIME_COMMIT_CMD")
  | .lifetimeCommitTimer => (rows1, 39, "LIFETIME_COMMIT_TIMER")
  | .serviceDue _ => (rows2, 0, "SERVICE_DUE")
  | .tallySnap _ _ _ => (rows2, 1, "TALLY_SNAP")
  | .totalSnap _ => (rows2, 2, "TOTAL_SNAP")
  | .tallyTotalUpdate => (rows2, 3, "TALLY_TOTAL_UPDATE")
  | .traceTallyPeriod _ _ => (rows2, 4, "TRACE_TALLY_PERIOD")
  | .traceDrain _ _ _ => (rows2, 5, "TRACE_DRAIN")
  | .linkAdminDown _ _ => (rows2, 6, "LINK_ADMIN_DOWN")
  | .linkAdminUp _ _ => (rows2, 7, "LINK_ADMIN_UP")
  | .retrain _ _ => (rows2, 8, "RETRAIN")
  | .quarInject _ _ _ => (rows2, 9, "QUAR_INJECT")
  | .resInject _ _ _ _ => (rows2, 10, "RES_INJECT")
  | .hbmInject _ _ _ => (rows2, 11, "HBM_INJECT")
  | .cisInjectError _ _ _ _ => (rows2, 12, "CIS_INJECT_ERROR")
  | .cisInjectFail _ _ _ => (rows2, 13, "CIS_INJECT_FAIL")
  | .porterInjectAuth _ _ => (rows2, 14, "PORTER_INJECT_AUTH")
  | .porterInjectDrop _ _ => (rows2, 15, "PORTER_INJECT_DROP")
  | .updSubmit _ _ _ => (rows2, 16, "UPD_SUBMIT")
  | .updHalt _ _ _ => (rows2, 17, "UPD_HALT")
  | .updUcodeWrite _ _ _ _ => (rows2, 18, "UPD_UCODE_WRITE")
  | .updateEngineTake _ => (rows2, 19, "UPDATE_ENGINE_TAKE")
  | .updateEngineComplete _ => (rows2, 20, "UPDATE_ENGINE_COMPLETE")
  | .countingHouseAdd _ => (rows2, 21, "COUNTING_HOUSE_ADD")
  | .msDefWrite _ _ _ _ => (rows2, 22, "MS_DEF_WRITE")
  | .timeStep _ _ => (rows2, 23, "TIME_STEP")
  | .pwrBudgetWrite _ _ => (rows2, 24, "PWR_BUDGET_WRITE")
  | .logCursorWrite _ _ _ _ => (rows2, 25, "LOG_CURSOR_WRITE")
  | .logAutoAdvance _ => (rows2, 26, "LOG_AUTO_ADVANCE")
  | .queueEnable _ _ _ => (rows2, 27, "QUEUE_ENABLE")
  | .queueDisable _ _ _ => (rows2, 28, "QUEUE_DISABLE")
  | .queueHaltClear _ _ => (rows2, 29, "QUEUE_HALT_CLEAR")
  | .doorbellSqTail _ _ _ _ => (rows2, 30, "DOORBELL_SQ_TAIL")
  | .doorbellCqHead _ _ _ => (rows2, 31, "DOORBELL_CQ_HEAD")
  | .queueRingError _ _ => (rows2, 32, "QUEUE_RING_ERROR")
  | .msixCoalesceExpiry _ _ => (rows2, 33, "MSIX_COALESCE_EXPIRY")
  | .eventDeliverDeferred _ => (rows2, 34, "EVENT_DELIVER_DEFERRED")
  | .nicSendDescriptor _ _ _ _ => (rows2, 35, "NIC_SEND_DESCRIPTOR")
  | .nicRxBufferPost _ _ _ => (rows2, 36, "NIC_RX_BUFFER_POST")
  | .bar0BadAccess _ _ _ _ => (rows2, 37, "BAR0_BAD_ACCESS")
  | .registerLowHalfRead _ _ => (rows2, 38, "REGISTER_LOW_HALF_READ")
  | .registerReadClear _ _ => (rows2, 39, "REGISTER_READ_CLEAR")
  | .registerWrite _ _ _ _ => (rows3, 0, "REGISTER_WRITE")
  | .flrVf _ => (rows3, 1, "FLR_VF")
  | .flrPf => (rows3, 2, "FLR_PF")
  | .spdmGetVersion _ => (rows3, 3, "SPDM_GET_VERSION")
  | .spdmGetCapabilities _ => (rows3, 4, "SPDM_GET_CAPABILITIES")
  | .spdmNegotiateAlgorithms _ _ _ => (rows3, 5, "SPDM_NEGOTIATE_ALGORITHMS")
  | .spdmGetDigests _ => (rows3, 6, "SPDM_GET_DIGESTS")
  | .spdmGetCertificate _ _ _ _ => (rows3, 7, "SPDM_GET_CERTIFICATE")
  | .spdmChallenge _ _ _ => (rows3, 8, "SPDM_CHALLENGE")
  | .getMeasurements _ _ _ _ => (rows3, 9, "GET_MEASUREMENTS")
  | .spdmUnsupported _ _ => (rows3, 10, "SPDM_UNSUPPORTED")
  | .sidebandRead _ _ => (rows3, 11, "SIDEBAND_READ")
  | .sidebandWrite _ _ _ => (rows3, 12, "SIDEBAND_WRITE")
  | .sidebandWake _ => (rows3, 13, "SIDEBAND_WAKE")
  | .ririsWrite _ => (rows3, 14, "RIRIS_WRITE")
  | .ririsWriteNotify _ => (rows3, 15, "RIRIS_WRITE_NOTIFY")
  | .ririsReadReq _ => (rows3, 16, "RIRIS_READ_REQ")
  | .ririsReadResp _ => (rows3, 17, "RIRIS_READ_RESP")
  | .ririsNotify _ => (rows3, 18, "RIRIS_NOTIFY")
  | .ririsAck _ => (rows3, 19, "RIRIS_ACK")
  | .ririsNak _ => (rows3, 20, "RIRIS_NAK")
  | .ririsUnknownFrame _ => (rows3, 21, "RIRIS_UNKNOWN_FRAME")
  | .convoyFrame _ => (rows3, 22, "CONVOY_FRAME")
  | .contextMiss _ => (rows3, 23, "CONTEXT_MISS")
  | .contextFetchDone _ _ => (rows3, 24, "CONTEXT_FETCH_DONE")
  | .parkedFrameTimeout _ => (rows3, 25, "PARKED_FRAME_TIMEOUT")
  | .qpRetryTimeout _ => (rows3, 26, "QP_RETRY_TIMEOUT")
  | .ackDelayExpiry _ => (rows3, 27, "ACK_DELAY_EXPIRY")
  | .frameForward _ _ _ => (rows3, 28, "FRAME_FORWARD")
  | .switchedFrameSend _ _ => (rows3, 29, "SWITCHED_FRAME_SEND")
  | .beaconDue _ => (rows3, 30, "BEACON_DUE")
  | .beaconReceived _ _ => (rows3, 31, "BEACON_RECEIVED")
  | .beaconLossTimeout _ => (rows3, 32, "BEACON_LOSS_TIMEOUT")
  | .beaconGraceExpiry _ => (rows3, 33, "BEACON_GRACE_EXPIRY")
  | .linkRetryTimer _ => (rows3, 34, "LINK_RETRY_TIMER")
  | .opticsPowerOk _ => (rows3, 35, "OPTICS_POWER_OK")
  | .opticsTimeout _ => (rows3, 36, "OPTICS_TIMEOUT")
  | .alignDone _ => (rows3, 37, "ALIGN_DONE")
  | .alignTimeout _ => (rows3, 38, "ALIGN_TIMEOUT")
  | .beaconWaitTimeout _ => (rows3, 39, "BEACON_WAIT_TIMEOUT")
  | .pcsAlignmentLost _ => (rows4, 0, "PCS_ALIGNMENT_LOST")
  | .pcsHighSer _ => (rows4, 1, "PCS_HIGH_SER")
  | .controlAckReceived _ _ => (rows4, 2, "CONTROL_ACK_RECEIVED")
  | .controlRetxTimeout _ => (rows4, 3, "CONTROL_RETX_TIMEOUT")
  | .creditFrameReceived _ _ => (rows4, 4, "CREDIT_FRAME_RECEIVED")
  | .creditFrameTimer _ => (rows4, 5, "CREDIT_FRAME_TIMER")
  | .pfcFrameReceived _ _ _ => (rows4, 6, "PFC_FRAME_RECEIVED")
  | .pfcPauseExpiry _ _ => (rows4, 7, "PFC_PAUSE_EXPIRY")
  | .pfcRepeatTimer _ _ => (rows4, 8, "PFC_REPEAT_TIMER")
  | .pfcWatchdogFire _ _ => (rows4, 9, "PFC_WATCHDOG_FIRE")
  | .pfcRecoveryEnd _ _ => (rows4, 10, "PFC_RECOVERY_END")
  | .nicFrameReceived _ _ => (rows4, 11, "NIC_FRAME_RECEIVED")
  | .arpNdFrame _ _ _ => (rows4, 12, "ARP_ND_FRAME")
  | .timeFrameDue _ => (rows4, 13, "TIME_FRAME_DUE")
  | .timeFrameReceived _ _ => (rows4, 14, "TIME_FRAME_RECEIVED")
  | .timeReferenceLoss => (rows4, 15, "TIME_REFERENCE_LOSS")
  | .replicaCheck _ => (rows4, 16, "REPLICA_CHECK")
  | .ptpLockChange _ => (rows4, 17, "PTP_LOCK_CHANGE")
  | .msLocalArrival _ _ _ => (rows4, 18, "MS_LOCAL_ARRIVAL")
  | .msArrivalMsg _ => (rows4, 19, "MS_ARRIVAL_MSG")
  | .msRelease _ => (rows4, 20, "MS_RELEASE")
  | .msWatchdogFire _ _ => (rows4, 21, "MS_WATCHDOG_FIRE")
  | .msWatchdogNotice _ => (rows4, 22, "MS_WATCHDOG_NOTICE")
  | .msAbandon _ => (rows4, 23, "MS_ABANDON")
  | .msHold _ => (rows4, 24, "MS_HOLD")
  | .msWithdrawal _ => (rows4, 25, "MS_WITHDRAWAL")
  | .msReplayRequest _ => (rows4, 26, "MS_REPLAY_REQUEST")
  | .spurFlitError _ _ _ => (rows4, 27, "SPUR_FLIT_ERROR")
  | .meshFlitLoss _ _ _ => (rows4, 28, "MESH_FLIT_LOSS")
  | .correctedWriteback _ _ => (rows4, 29, "CORRECTED_WRITEBACK")
  | .patrolRead _ _ _ _ => (rows4, 30, "PATROL_READ")
  | .cisternReadTimeout _ _ => (rows4, 31, "CISTERN_READ_TIMEOUT")
  | .hbmReadTimeout _ => (rows4, 32, "HBM_READ_TIMEOUT")
  | .periodicCoreTest _ _ _ _ => (rows4, 33, "PERIODIC_CORE_TEST")
  | .periodicEngineTest _ _ _ => (rows4, 34, "PERIODIC_ENGINE_TEST")
  | .lockstepMismatch _ _ => (rows4, 35, "LOCKSTEP_MISMATCH")
  | .clockMonitorFault _ => (rows4, 36, "CLOCK_MONITOR_FAULT")
  | .firmwareWatchdog => (rows4, 37, "FIRMWARE_WATCHDOG")
  | .powerRecompute _ => (rows4, 38, "POWER_RECOMPUTE")
  | .phaseLearn _ _ => (rows4, 39, "PHASE_LEARN")
  | .supplyVoltageChange _ => (rows5, 0, "SUPPLY_VOLTAGE_CHANGE")
  | .thermalSample _ _ => (rows5, 1, "THERMAL_SAMPLE")
  | .droopCrossing _ _ => (rows5, 2, "DROOP_CROSSING")
  | .droopStretchEnd _ _ => (rows5, 3, "DROOP_STRETCH_END")
  | .logArchiveProgram => (rows5, 4, "LOG_ARCHIVE_PROGRAM")
  | .powerPresent _ => (rows5, 5, "POWER_PRESENT")
  | .powerLost => (rows5, 6, "POWER_LOST")
  | .overvoltage => (rows5, 7, "OVERVOLTAGE")
  | .wake _ => (rows5, 8, "WAKE")
  | .bootDone _ => (rows5, 9, "BOOT_DONE")
  | .perst => (rows5, 10, "PERST")
  | .mrst => (rows5, 11, "MRST")
  | .leakDetected => (rows5, 12, "LEAK_DETECTED")
  | .railFault _ => (rows5, 13, "RAIL_FAULT")
  | .pcieLinkTrained _ _ => (rows5, 14, "PCIE_LINK_TRAINED")
  | .recoveryRecallDone _ => (rows5, 15, "RECOVERY_RECALL_DONE")
  | .reassignmentScrubDone => (rows5, 16, "REASSIGNMENT_SCRUB_DONE")
  | .scrubDone _ => (rows5, 17, "SCRUB_DONE")
  | .frameDiscarded _ _ _ _ _ => (rows5, 18, "FRAME_DISCARDED")
  | .leakCleared => (rows5, 19, "LEAK_CLEARED")
  | .lifetimeCommitDone _ => (rows5, 20, "LIFETIME_COMMIT_DONE")

namespace RowNumber

/-- The row of the command holds its mnemonic. -/
def Statement (i : Instr) : Prop := (rowOf i).1[(rowOf i).2.1]? = some (rowOf i).2.2

theorem nop (x0 : Issue) : Statement (.nop x0) := rfl
theorem loop (x0 : Issue) (x1 : BitVec 4) (x2 : Word) (x3 : Word) : Statement (.loop x0 x1 x2 x3) := rfl
theorem loopm (x0 : Issue) (x1 : BitVec 4) (x2 : BitVec 4) (x3 : BitVec 44) (x4 : BitVec 16) (x5 : Word) :
    Statement (.loopm x0 x1 x2 x3 x4 x5) := rfl
theorem endloop (x0 : Issue) : Statement (.endloop x0) := rfl
theorem jump (x0 : Issue) (x1 : BitVec 14) : Statement (.jump x0 x1) := rfl
theorem brflag (x0 : Issue) (x1 : BitVec 6) (x2 : BitVec 3) (x3 : Bool) (x4 : BitVec 14) :
    Statement (.brflag x0 x1 x2 x3 x4) := rfl
theorem brmem (x0 : Issue) (x1 : BitVec 4) (x2 : BitVec 44) (x3 : Bool) (x4 : BitVec 14) :
    Statement (.brmem x0 x1 x2 x3 x4) := rfl
theorem dlbr (x0 : Issue) (x1 : BitVec 14) (x2 : BitVec 8) (x3 : BitVec 24) (x4 : BitVec 14) :
    Statement (.dlbr x0 x1 x2 x3 x4) := rfl
theorem dlbrTokenReached (x0 : Nat) : Statement (.dlbrTokenReached x0) := rfl
theorem dlbrDeadlineExpiry (x0 : Nat) : Statement (.dlbrDeadlineExpiry x0) := rfl
theorem halt (x0 : Issue) : Statement (.halt x0) := rfl
theorem itineraryDone (x0 : Nat) : Statement (.itineraryDone x0) := rfl
theorem regwr (x0 : Issue) (x1 : BitVec 16) (x2 : BitVec 4) (x3 : Word) : Statement (.regwr x0 x1 x2 x3) := rfl
theorem tokwait (x0 : Issue) (x1 : BitVec 14) (x2 : BitVec 8) (x3 : Bool) : Statement (.tokwait x0 x1 x2 x3) := rfl
theorem tokwaitSatisfied (x0 : Nat) : Statement (.tokwaitSatisfied x0) := rfl
theorem tokpost (x0 : Issue) (x1 : BitVec 14) (x2 : BitVec 8) : Statement (.tokpost x0 x1 x2) := rfl
theorem release (x0 : Issue) (x1 : BitVec 14) : Statement (.release x0 x1) := rfl
theorem tollreq (x0 : Issue) (x1 : BitVec 4) (x2 : BitVec 20) (x3 : BitVec 24) :
    Statement (.tollreq x0 x1 x2 x3) := rfl
theorem tollGrant (x0 : Nat) : Statement (.tollGrant x0) := rfl
theorem fence (x0 : Issue) : Statement (.fence x0) := rfl
theorem fenceComplete (x0 : Nat) : Statement (.fenceComplete x0) := rfl
theorem msarrive (x0 : Issue) (x1 : BitVec 16) (x2 : Bool) (x3 : Bool) (x4 : Bool) :
    Statement (.msarrive x0 x1 x2 x3 x4) := rfl
theorem hostnote (x0 : Issue) (x1 : BitVec 8) (x2 : Word) : Statement (.hostnote x0 x1 x2) := rfl
theorem copy (x0 : Issue) (x1 : BitVec 14) (x2 : BitVec 14) (x3 : BitVec 14) (x4 : Bool) (x5 : Bool) :
    Statement (.copy x0 x1 x2 x3 x4 x5) := rfl
theorem copyComplete (x0 : Nat) (x1 : Nat) : Statement (.copyComplete x0 x1) := rfl
theorem remote (x0 : Issue) (x1 : BitVec 14) (x2 : BitVec 20) (x3 : Word) (x4 : BitVec 44) (x5 : BitVec 2) :
    Statement (.remote x0 x1 x2 x3 x4 x5) := rfl
theorem remoteComplete (x0 : Nat) (x1 : Nat) : Statement (.remoteComplete x0 x1) := rfl
theorem convoy (x0 : Issue) (x1 : BitVec 14) (x2 : BitVec 16) (x3 : BitVec 20) (x4 : BitVec 24) (x5 : BitVec 7) :
    Statement (.convoy x0 x1 x2 x3 x4 x5) := rfl
theorem convoyComplete (x0 : Nat) (x1 : Nat) : Statement (.convoyComplete x0 x1) := rfl
theorem array (x0 : Issue) (x1 : BitVec 14) (x2 : BitVec 14) (x3 : BitVec 3) (x4 : Bool) (x5 : BitVec 6)
    (x6 : BitVec 6) (x7 : BitVec 6) :
    Statement (.array x0 x1 x2 x3 x4 x5 x6 x7) := rfl
theorem arrayi (x0 : Issue) (x1 : BitVec 14) (x2 : BitVec 14) (x3 : BitVec 14) (x4 : BitVec 14) (x5 : Bool)
    (x6 : Bool) (x7 : BitVec 5) (x8 : BitVec 5) (x9 : BitVec 6) (x10 : BitVec 6) :
    Statement (.arrayi x0 x1 x2 x3 x4 x5 x6 x7 x8 x9 x10) := rfl
theorem draw (x0 : Issue) (x1 : BitVec 6) (x2 : BitVec 6) (x3 : BitVec 6) (x4 : BitVec 14) (x5 : BitVec 3)
    (x6 : BitVec 2) (x7 : Bool) (x8 : BitVec 4) (x9 : Bool) (x10 : BitVec 14) (x11 : BitVec 14) :
    Statement (.draw x0 x1 x2 x3 x4 x5 x6 x7 x8 x9 x10 x11) := rfl
theorem conv (x0 : Issue) (x1 : BitVec 14) (x2 : BitVec 14) (x3 : BitVec 3) (x4 : BitVec 2) (x5 : Bool) :
    Statement (.conv x0 x1 x2 x3 x4 x5) := rfl
theorem vec (x0 : Issue) (x1 : Byte) (x2 : BitVec 14) (x3 : BitVec 14) (x4 : BitVec 14) (x5 : BitVec 14)
    (x6 : Bool) (x7 : Word) :
    Statement (.vec x0 x1 x2 x3 x4 x5 x6 x7) := rfl
theorem tally (x0 : Issue) (x1 : Word) (x2 : BitVec 14) : Statement (.tally x0 x1 x2) := rfl
theorem trace (x0 : Issue) (x1 : BitVec 16) (x2 : Word) : Statement (.trace x0 x1 x2) := rfl
theorem coreFaultReport (x0 : Nat) (x1 : Nat) : Statement (.coreFaultReport x0 x1) := rfl
theorem cmdNop (x0 : CmdHdr) : Statement (.cmdNop x0) := rfl
theorem loadItinerary (x0 : CmdHdr) (x1 : BitVec 48) (x2 : Bool) : Statement (.loadItinerary x0 x1 x2) := rfl
theorem start (x0 : CmdHdr) : Statement (.start x0) := rfl
theorem pause (x0 : CmdHdr) : Statement (.pause x0) := rfl
theorem resume (x0 : CmdHdr) : Statement (.resume x0) := rfl
theorem stop (x0 : CmdHdr) : Statement (.stop x0) := rfl
theorem contextSwitchDone (x0 : Nat) : Statement (.contextSwitchDone x0) := rfl
theorem postToken (x0 : CmdHdr) (x1 : BitVec 4) (x2 : BitVec 8) (x3 : BitVec 8) :
    Statement (.postToken x0 x1 x2 x3) := rfl
theorem copyIn (x0 : CmdHdr) (x1 : DWord) (x2 : BitVec 48) (x3 : Word) (x4 : Bool) (x5 : BitVec 6) (x6 : Word)
    (x7 : List Byte) (x8 : List Chunk) :
    Statement (.copyIn x0 x1 x2 x3 x4 x5 x6 x7 x8) := rfl
theorem copyOut (x0 : CmdHdr) (x1 : DWord) (x2 : BitVec 48) (x3 : Word) (x4 : Bool) (x5 : BitVec 6) :
    Statement (.copyOut x0 x1 x2 x3 x4 x5) := rfl
theorem registerRegion (x0 : CmdHdr) (x1 : Word) (x2 : BitVec 48) (x3 : BitVec 48) (x4 : BitVec 3) (x5 : BitVec 6) :
    Statement (.registerRegion x0 x1 x2 x3 x4 x5) := rfl
theorem revokeRegion (x0 : CmdHdr) (x1 : Word) : Statement (.revokeRegion x0 x1) := rfl
theorem regionDrained (x0 : Nat) : Statement (.regionDrained x0) := rfl
theorem installKey (x0 : CmdHdr) (x1 : KeyBlob) : Statement (.installKey x0 x1) := rfl
theorem scrub (x0 : CmdHdr) : Statement (.scrub x0) := rfl
theorem applyManifest (x0 : CmdHdr) (x1 : Nat) (x2 : ManifestObj) : Statement (.applyManifest x0 x1 x2) := rfl
theorem manifestActivation : Statement (.manifestActivation) := rfl
theorem manifestSwitchTimeout (x0 : Nat) : Statement (.manifestSwitchTimeout x0) := rfl
theorem manifestCancel (x0 : Nat) : Statement (.manifestCancel x0) := rfl
theorem placementPlace (x0 : Nat) (x1 : Nat) : Statement (.placementPlace x0 x1) := rfl
theorem placementRemove (x0 : Nat) (x1 : Nat) : Statement (.placementRemove x0 x1) := rfl
theorem placementRemoveDone (x0 : Nat) : Statement (.placementRemoveDone x0) := rfl
theorem placementReadBack (x0 : Nat) (x1 : Nat) : Statement (.placementReadBack x0 x1) := rfl
theorem qpCreate (x0 : Nat) (x1 : Nat) (x2 : Nat) : Statement (.qpCreate x0 x1 x2) := rfl
theorem qpDestroy (x0 : Nat) (x1 : Nat) (x2 : Nat) : Statement (.qpDestroy x0 x1 x2) := rfl
theorem qpPin (x0 : Nat) (x1 : Nat) (x2 : Nat) : Statement (.qpPin x0 x1 x2) := rfl
theorem qpUnpin (x0 : Nat) (x1 : Nat) (x2 : Nat) : Statement (.qpUnpin x0 x1 x2) := rfl
theorem qpReset (x0 : Nat) (x1 : Nat) (x2 : Nat) : Statement (.qpReset x0 x1 x2) := rfl
theorem qpReadBack (x0 : Nat) (x1 : Nat) (x2 : Nat) : Statement (.qpReadBack x0 x1 x2) := rfl
theorem anchorEnrol (x0 : Nat) (x1 : AnchorObj) : Statement (.anchorEnrol x0 x1) := rfl
theorem anchorRelease (x0 : Nat) (x1 : AnchorObj) : Statement (.anchorRelease x0 x1) := rfl
theorem svnAdvance (x0 : Nat) : Statement (.svnAdvance x0) := rfl
theorem keygen (x0 : Nat) (x1 : Nat) : Statement (.keygen x0 x1) := rfl
theorem keySlotEmpty (x0 : Nat) (x1 : Nat) (x2 : BitVec 6) : Statement (.keySlotEmpty x0 x1 x2) := rfl
theorem cvSwitchArm (x0 : Nat) (x1 : Nat) : Statement (.cvSwitchArm x0 x1) := rfl
theorem cvSwitchDisarm (x0 : Nat) (x1 : Nat) : Statement (.cvSwitchDisarm x0 x1) := rfl
theorem shutdown (x0 : Source) : Statement (.shutdown x0) := rfl
theorem reboot (x0 : Source) : Statement (.reboot x0) := rfl
theorem quiesceDone : Statement (.quiesceDone) := rfl
theorem firmwareUpdate (x0 : Nat) (x1 : FwImage) : Statement (.firmwareUpdate x0 x1) := rfl
theorem firmwareUpdateDone (x0 : Bool) : Statement (.firmwareUpdateDone x0) := rfl
theorem lifetimeCommitCmd (x0 : Nat) : Statement (.lifetimeCommitCmd x0) := rfl
theorem lifetimeCommitTimer : Statement (.lifetimeCommitTimer) := rfl
theorem serviceDue (x0 : Nat) : Statement (.serviceDue x0) := rfl
theorem tallySnap (x0 : Nat) (x1 : Nat) (x2 : Nat) : Statement (.tallySnap x0 x1 x2) := rfl
theorem totalSnap (x0 : Nat) : Statement (.totalSnap x0) := rfl
theorem tallyTotalUpdate : Statement (.tallyTotalUpdate) := rfl
theorem traceTallyPeriod (x0 : Nat) (x1 : Nat) : Statement (.traceTallyPeriod x0 x1) := rfl
theorem traceDrain (x0 : Nat) (x1 : Nat) (x2 : Nat) : Statement (.traceDrain x0 x1 x2) := rfl
theorem linkAdminDown (x0 : Nat) (x1 : Nat) : Statement (.linkAdminDown x0 x1) := rfl
theorem linkAdminUp (x0 : Nat) (x1 : Nat) : Statement (.linkAdminUp x0 x1) := rfl
theorem retrain (x0 : Nat) (x1 : Nat) : Statement (.retrain x0 x1) := rfl
theorem quarInject (x0 : Nat) (x1 : Nat) (x2 : BitVec 5) : Statement (.quarInject x0 x1 x2) := rfl
theorem resInject (x0 : Nat) (x1 : Nat) (x2 : Nat) (x3 : BitVec 2) : Statement (.resInject x0 x1 x2 x3) := rfl
theorem hbmInject (x0 : Nat) (x1 : Nat) (x2 : BitVec 2) : Statement (.hbmInject x0 x1 x2) := rfl
theorem cisInjectError (x0 : Nat) (x1 : Nat) (x2 : Bool) (x3 : BitVec 4) :
    Statement (.cisInjectError x0 x1 x2 x3) := rfl
theorem cisInjectFail (x0 : Nat) (x1 : Nat) (x2 : BitVec 4) : Statement (.cisInjectFail x0 x1 x2) := rfl
theorem porterInjectAuth (x0 : Nat) (x1 : Nat) : Statement (.porterInjectAuth x0 x1) := rfl
theorem porterInjectDrop (x0 : Nat) (x1 : Nat) : Statement (.porterInjectDrop x0 x1) := rfl
theorem updSubmit (x0 : Nat) (x1 : Nat) (x2 : Word) : Statement (.updSubmit x0 x1 x2) := rfl
theorem updHalt (x0 : Nat) (x1 : Nat) (x2 : Bool) : Statement (.updHalt x0 x1 x2) := rfl
theorem updUcodeWrite (x0 : Nat) (x1 : Nat) (x2 : Nat) (x3 : Word) : Statement (.updUcodeWrite x0 x1 x2 x3) := rfl
theorem updateEngineTake (x0 : Nat) : Statement (.updateEngineTake x0) := rfl
theorem updateEngineComplete (x0 : Nat) : Statement (.updateEngineComplete x0) := rfl
theorem countingHouseAdd (x0 : Nat) : Statement (.countingHouseAdd x0) := rfl
theorem msDefWrite (x0 : Nat) (x1 : Nat) (x2 : Nat) (x3 : Word) : Statement (.msDefWrite x0 x1 x2 x3) := rfl
theorem timeStep (x0 : Source) (x1 : Word) : Statement (.timeStep x0 x1) := rfl
theorem pwrBudgetWrite (x0 : Source) (x1 : Word) : Statement (.pwrBudgetWrite x0 x1) := rfl
theorem logCursorWrite (x0 : Nat) (x1 : Bool) (x2 : Bool) (x3 : DWord) :
    Statement (.logCursorWrite x0 x1 x2 x3) := rfl
theorem logAutoAdvance (x0 : Nat) : Statement (.logAutoAdvance x0) := rfl
theorem queueEnable (x0 : Nat) (x1 : Nat) (x2 : Word) : Statement (.queueEnable x0 x1 x2) := rfl
theorem queueDisable (x0 : Nat) (x1 : Nat) (x2 : Word) : Statement (.queueDisable x0 x1 x2) := rfl
theorem queueHaltClear (x0 : Nat) (x1 : Nat) : Statement (.queueHaltClear x0 x1) := rfl
theorem doorbellSqTail (x0 : Nat) (x1 : Nat) (x2 : Word) (x3 : List (BitVec 512)) :
    Statement (.doorbellSqTail x0 x1 x2 x3) := rfl
theorem doorbellCqHead (x0 : Nat) (x1 : Nat) (x2 : Word) : Statement (.doorbellCqHead x0 x1 x2) := rfl
theorem queueRingError (x0 : Nat) (x1 : Nat) : Statement (.queueRingError x0 x1) := rfl
theorem msixCoalesceExpiry (x0 : Nat) (x1 : Nat) : Statement (.msixCoalesceExpiry x0 x1) := rfl
theorem eventDeliverDeferred (x0 : Nat) : Statement (.eventDeliverDeferred x0) := rfl
theorem nicSendDescriptor (x0 : Nat) (x1 : Nat) (x2 : BitVec 512) (x3 : List Byte) :
    Statement (.nicSendDescriptor x0 x1 x2 x3) := rfl
theorem nicRxBufferPost (x0 : Nat) (x1 : Nat) (x2 : BitVec 512) : Statement (.nicRxBufferPost x0 x1 x2) := rfl
theorem bar0BadAccess (x0 : Nat) (x1 : Nat) (x2 : Nat) (x3 : Bool) : Statement (.bar0BadAccess x0 x1 x2 x3) := rfl
theorem registerLowHalfRead (x0 : Nat) (x1 : Nat) : Statement (.registerLowHalfRead x0 x1) := rfl
theorem registerReadClear (x0 : Nat) (x1 : BarRead) : Statement (.registerReadClear x0 x1) := rfl
theorem registerWrite (x0 : Nat) (x1 : Nat) (x2 : Bool) (x3 : DWord) : Statement (.registerWrite x0 x1 x2 x3) := rfl
theorem flrVf (x0 : Nat) : Statement (.flrVf x0) := rfl
theorem flrPf : Statement (.flrPf) := rfl
theorem spdmGetVersion (x0 : Nat) : Statement (.spdmGetVersion x0) := rfl
theorem spdmGetCapabilities (x0 : Nat) : Statement (.spdmGetCapabilities x0) := rfl
theorem spdmNegotiateAlgorithms (x0 : Nat) (x1 : Bool) (x2 : Bool) :
    Statement (.spdmNegotiateAlgorithms x0 x1 x2) := rfl
theorem spdmGetDigests (x0 : Nat) : Statement (.spdmGetDigests x0) := rfl
theorem spdmGetCertificate (x0 : Nat) (x1 : Nat) (x2 : Nat) (x3 : Nat) :
    Statement (.spdmGetCertificate x0 x1 x2 x3) := rfl
theorem spdmChallenge (x0 : Nat) (x1 : Nat) (x2 : BitVec 256) : Statement (.spdmChallenge x0 x1 x2) := rfl
theorem getMeasurements (x0 : Nat) (x1 : Byte) (x2 : Bool) (x3 : BitVec 256) :
    Statement (.getMeasurements x0 x1 x2 x3) := rfl
theorem spdmUnsupported (x0 : Nat) (x1 : Byte) : Statement (.spdmUnsupported x0 x1) := rfl
theorem sidebandRead (x0 : Word) (x1 : Word) : Statement (.sidebandRead x0 x1) := rfl
theorem sidebandWrite (x0 : Word) (x1 : Word) (x2 : Word) : Statement (.sidebandWrite x0 x1 x2) := rfl
theorem sidebandWake (x0 : Word) : Statement (.sidebandWake x0) := rfl
theorem ririsWrite (x0 : RirisFrame) : Statement (.ririsWrite x0) := rfl
theorem ririsWriteNotify (x0 : RirisFrame) : Statement (.ririsWriteNotify x0) := rfl
theorem ririsReadReq (x0 : RirisFrame) : Statement (.ririsReadReq x0) := rfl
theorem ririsReadResp (x0 : RirisFrame) : Statement (.ririsReadResp x0) := rfl
theorem ririsNotify (x0 : RirisFrame) : Statement (.ririsNotify x0) := rfl
theorem ririsAck (x0 : RirisFrame) : Statement (.ririsAck x0) := rfl
theorem ririsNak (x0 : RirisFrame) : Statement (.ririsNak x0) := rfl
theorem ririsUnknownFrame (x0 : RirisFrame) : Statement (.ririsUnknownFrame x0) := rfl
theorem convoyFrame (x0 : RirisFrame) : Statement (.convoyFrame x0) := rfl
theorem contextMiss (x0 : RirisFrame) : Statement (.contextMiss x0) := rfl
theorem contextFetchDone (x0 : BitVec 20) (x1 : Bool) : Statement (.contextFetchDone x0 x1) := rfl
theorem parkedFrameTimeout (x0 : BitVec 20) : Statement (.parkedFrameTimeout x0) := rfl
theorem qpRetryTimeout (x0 : BitVec 20) : Statement (.qpRetryTimeout x0) := rfl
theorem ackDelayExpiry (x0 : BitVec 20) : Statement (.ackDelayExpiry x0) := rfl
theorem frameForward (x0 : Nat) (x1 : Bool) (x2 : Frame) : Statement (.frameForward x0 x1 x2) := rfl
theorem switchedFrameSend (x0 : Option Nat) (x1 : Frame) : Statement (.switchedFrameSend x0 x1) := rfl
theorem beaconDue (x0 : Nat) : Statement (.beaconDue x0) := rfl
theorem beaconReceived (x0 : Nat) (x1 : Beacon) : Statement (.beaconReceived x0 x1) := rfl
theorem beaconLossTimeout (x0 : Nat) : Statement (.beaconLossTimeout x0) := rfl
theorem beaconGraceExpiry (x0 : Nat) : Statement (.beaconGraceExpiry x0) := rfl
theorem linkRetryTimer (x0 : Nat) : Statement (.linkRetryTimer x0) := rfl
theorem opticsPowerOk (x0 : Nat) : Statement (.opticsPowerOk x0) := rfl
theorem opticsTimeout (x0 : Nat) : Statement (.opticsTimeout x0) := rfl
theorem alignDone (x0 : Nat) : Statement (.alignDone x0) := rfl
theorem alignTimeout (x0 : Nat) : Statement (.alignTimeout x0) := rfl
theorem beaconWaitTimeout (x0 : Nat) : Statement (.beaconWaitTimeout x0) := rfl
theorem pcsAlignmentLost (x0 : Nat) : Statement (.pcsAlignmentLost x0) := rfl
theorem pcsHighSer (x0 : Nat) : Statement (.pcsHighSer x0) := rfl
theorem controlAckReceived (x0 : Nat) (x1 : BitVec 16) : Statement (.controlAckReceived x0 x1) := rfl
theorem controlRetxTimeout (x0 : Nat) : Statement (.controlRetxTimeout x0) := rfl
theorem creditFrameReceived (x0 : Nat) (x1 : List (BitVec 16)) : Statement (.creditFrameReceived x0 x1) := rfl
theorem creditFrameTimer (x0 : Nat) : Statement (.creditFrameTimer x0) := rfl
theorem pfcFrameReceived (x0 : Nat) (x1 : Byte) (x2 : List (BitVec 16)) :
    Statement (.pfcFrameReceived x0 x1 x2) := rfl
theorem pfcPauseExpiry (x0 : Nat) (x1 : Nat) : Statement (.pfcPauseExpiry x0 x1) := rfl
theorem pfcRepeatTimer (x0 : Nat) (x1 : Nat) : Statement (.pfcRepeatTimer x0 x1) := rfl
theorem pfcWatchdogFire (x0 : Nat) (x1 : Nat) : Statement (.pfcWatchdogFire x0 x1) := rfl
theorem pfcRecoveryEnd (x0 : Nat) (x1 : Nat) : Statement (.pfcRecoveryEnd x0 x1) := rfl
theorem nicFrameReceived (x0 : Nat) (x1 : List Byte) : Statement (.nicFrameReceived x0 x1) := rfl
theorem arpNdFrame (x0 : Nat) (x1 : List Byte) (x2 : List Byte) : Statement (.arpNdFrame x0 x1 x2) := rfl
theorem timeFrameDue (x0 : Nat) : Statement (.timeFrameDue x0) := rfl
theorem timeFrameReceived (x0 : Nat) (x1 : TimeFrame) : Statement (.timeFrameReceived x0 x1) := rfl
theorem timeReferenceLoss : Statement (.timeReferenceLoss) := rfl
theorem replicaCheck (x0 : List Int) : Statement (.replicaCheck x0) := rfl
theorem ptpLockChange (x0 : Bool) : Statement (.ptpLockChange x0) := rfl
theorem msLocalArrival (x0 : Nat) (x1 : Nat) (x2 : Nat) : Statement (.msLocalArrival x0 x1 x2) := rfl
theorem msArrivalMsg (x0 : MsMsg) : Statement (.msArrivalMsg x0) := rfl
theorem msRelease (x0 : MsRelease) : Statement (.msRelease x0) := rfl
theorem msWatchdogFire (x0 : Nat) (x1 : Nat) : Statement (.msWatchdogFire x0 x1) := rfl
theorem msWatchdogNotice (x0 : MsMsg) : Statement (.msWatchdogNotice x0) := rfl
theorem msAbandon (x0 : MsMsg) : Statement (.msAbandon x0) := rfl
theorem msHold (x0 : MsMsg) : Statement (.msHold x0) := rfl
theorem msWithdrawal (x0 : MsMsg) : Statement (.msWithdrawal x0) := rfl
theorem msReplayRequest (x0 : MsMsg) : Statement (.msReplayRequest x0) := rfl
theorem spurFlitError (x0 : Nat) (x1 : Nat) (x2 : Nat) : Statement (.spurFlitError x0 x1 x2) := rfl
theorem meshFlitLoss (x0 : Nat) (x1 : Nat) (x2 : Transfer) : Statement (.meshFlitLoss x0 x1 x2) := rfl
theorem correctedWriteback (x0 : Bool) (x1 : Nat) : Statement (.correctedWriteback x0 x1) := rfl
theorem patrolRead (x0 : Bool) (x1 : Nat) (x2 : Nat) (x3 : Bool) : Statement (.patrolRead x0 x1 x2 x3) := rfl
theorem cisternReadTimeout (x0 : Nat) (x1 : BitVec 4) : Statement (.cisternReadTimeout x0 x1) := rfl
theorem hbmReadTimeout (x0 : Nat) : Statement (.hbmReadTimeout x0) := rfl
theorem periodicCoreTest (x0 : Nat) (x1 : Nat) (x2 : Bool) (x3 : Nat) :
    Statement (.periodicCoreTest x0 x1 x2 x3) := rfl
theorem periodicEngineTest (x0 : Nat) (x1 : Bool) (x2 : Bool) : Statement (.periodicEngineTest x0 x1 x2) := rfl
theorem lockstepMismatch (x0 : Nat) (x1 : Nat) : Statement (.lockstepMismatch x0 x1) := rfl
theorem clockMonitorFault (x0 : ClockAt) : Statement (.clockMonitorFault x0) := rfl
theorem firmwareWatchdog : Statement (.firmwareWatchdog) := rfl
theorem powerRecompute (x0 : PowerMeasure) : Statement (.powerRecompute x0) := rfl
theorem phaseLearn (x0 : Nat) (x1 : List PhaseShare) : Statement (.phaseLearn x0 x1) := rfl
theorem supplyVoltageChange (x0 : Nat) : Statement (.supplyVoltageChange x0) := rfl
theorem thermalSample (x0 : Nat) (x1 : Byte) : Statement (.thermalSample x0 x1) := rfl
theorem droopCrossing (x0 : Nat) (x1 : Bool) : Statement (.droopCrossing x0 x1) := rfl
theorem droopStretchEnd (x0 : Nat) (x1 : Nat) : Statement (.droopStretchEnd x0 x1) := rfl
theorem logArchiveProgram : Statement (.logArchiveProgram) := rfl
theorem powerPresent (x0 : Nat) : Statement (.powerPresent x0) := rfl
theorem powerLost : Statement (.powerLost) := rfl
theorem overvoltage : Statement (.overvoltage) := rfl
theorem wake (x0 : Bool) : Statement (.wake x0) := rfl
theorem bootDone (x0 : BootReport) : Statement (.bootDone x0) := rfl
theorem perst : Statement (.perst) := rfl
theorem mrst : Statement (.mrst) := rfl
theorem leakDetected : Statement (.leakDetected) := rfl
theorem railFault (x0 : Rail) : Statement (.railFault x0) := rfl
theorem pcieLinkTrained (x0 : BitVec 3) (x1 : BitVec 2) : Statement (.pcieLinkTrained x0 x1) := rfl
theorem recoveryRecallDone (x0 : Nat) : Statement (.recoveryRecallDone x0) := rfl
theorem reassignmentScrubDone : Statement (.reassignmentScrubDone) := rfl
theorem scrubDone (x0 : Nat) : Statement (.scrubDone x0) := rfl
theorem frameDiscarded (x0 : Nat) (x1 : Bool) (x2 : List Byte) (x3 : List Byte) (x4 : List Byte) :
    Statement (.frameDiscarded x0 x1 x2 x3 x4) := rfl
theorem leakCleared : Statement (.leakCleared) := rfl
theorem lifetimeCommitDone (x0 : Bool) : Statement (.lifetimeCommitDone x0) := rfl

end RowNumber

end Sys2Proof.Laws
end

