-- ==== Sys2Proof/Tests/Slice0.lean ====
section
/-!
SUPPORT. The model's own tests: small concrete states that meet the hypotheses of the statements, and single commands
whose effect the spec gives in numbers.
-/

namespace Sys2Proof.Tests

set_option Elab.async false

open Sys2Proof.Machine

/-! States. Partition 0 runs an itinerary of three instructions on core 0 of CD0, or of four where a loop is skipped. -/

def tIss : Issue := ⟨0, 0⟩

/-- `s` with core 0 about to issue `i`. -/
def tI (s : State) (i : Instr) : State :=
  s.modCore 0 (fun c => { c with insns := c.insns.set c.pc (i.word.getD 0) })

/-- The key hash of the signer of the tests' trailers. -/
def tAnchor : BitVec 384 := Config.sha384 (keyBytes 0 0)

/-- A trailer of the signer with these public keys. -/
def tTrailerOf (ed : BitVec 256) (ml : BitVec 15616) (typ : Nat) (body : List Byte) : Trailer :=
  let m := signedMessage typ body
  { magic := 0x32474953, typ := w32 typ, edPk := ed, mldsaPk := ml, edR := 0, edS := Config.edCheck ed m 0,
    mldsaC := Config.mldsaCheck ml m 0, mldsaZ := 0, zeros := 0 }

theorem trailerOf_ok {typ : Nat} (h : typ < 2 ^ 32) (ed : BitVec 256) (ml : BitVec 15616) (body : List Byte) :
    trailerOk (tTrailerOf ed ml typ body) typ (Config.sha384 (keyBytes ed ml)) body = true := by
  have e : (w32 typ).toNat = typ := by
    rw [w32, BitVec.toNat_ofNat]
    exact Nat.mod_eq_of_lt h
  simp [trailerOk, tTrailerOf, trailerKey, e]

/-- A trailer of the tests' signer. -/
def tTrailer (typ : Nat) (body : List Byte) : Trailer := tTrailerOf 0 0 typ body

theorem trailer_ok {typ : Nat} (h : typ < 2 ^ 32) (body : List Byte) :
    trailerOk (tTrailer typ body) typ tAnchor body = true := trailerOf_ok h 0 0 body

/-- The smallest image of an SVN, signed by Plovda. -/
def tImageBody (svn : Byte) : List Byte :=
  leBytes 4 0x57463532 ++ leBytes 2 0 ++ [svn, 0] ++ leBytes 4 5432 ++ List.replicate 52 0

def tFw (svn : Byte) : FwImage :=
  { body := tImageBody svn, trailer := tTrailerOf Config.fwEdKey Config.fwMldsaKey 1 (tImageBody svn) }

theorem tFw_ok (svn : Byte) : trailerOk (tFw svn).trailer 1 fwAnchor (tFw svn).body = true :=
  trailerOf_ok (by decide) _ _ _

def tCore : Core := { st := .running, insns := [0, 0, 0], sbufs := [(0, { base := 0, size := 64, tok := 2 })] }

def tPart : Part := { cfg := some { cores := [(0, 1)], vf := 1 }, st := .running, ncore := [1] }

/-- An image of no bytes, so that states can be compared. -/
def tNoImage : FwImage := { body := [], trailer := ⟨0, 0, 0, 0, 0, 0, 0, 0, 0⟩ }

def tRun : State := { mod := { state := .run, flash := tNoImage }, parts := [(0, tPart)], cores := [(0, tCore)] }

/-- `tRun` with core 0 as given. -/
def tC (c : Core) : State := { tRun with cores := [(0, c)] }

/-- `tRun` with partition 0 as given. -/
def tP (x : Part) : State := { tRun with parts := [(0, x)] }

/-- Partition 0 with milestone object 0 of MID 9, of core 0, in these states. -/
def tMs (m : Milestones) (x : MsObj) : State :=
  tP { tPart with ms := { m with groups := [(0, 1)], objs := [(0, { x with mid := 9, valid := true })] } }

/-- `s` with TORUS link 4 UP, on which frames of module 7 for this module come in. -/
def tL (s : State) : State := { s with links := [(4, { st := .up, role := 1 })] }

/-- A message of job 17 from module 7 to this one. -/
def tMsg (k : MsKind) : MsMsg :=
  { src := 7, dst := 0, job := 17, mid := 9, gen := 0, ctx := 0, kind := k, rcount := 0, status := 0, foldDigest := 0,
    foldEpoch := 0, foldMod := 0, mismatch := false }

/-- Job 17, whose next node is hosted by module 7. -/
def tJob : Milestones := { jobId := 17, nodes := [(1, { target := 7 })] }

/-! Waybills of pieces of 1 × 1 × n elements. -/

def tWb (base fmt n : Nat) : Waybill :=
  { base := base, scalePtr := stallBase + 0x200, tensorId := 0, tag := 0, fmt := fmt, kaxis := 0, trec := 0,
    whole := (1, 1, n), origin := (0, 0, 0), piece := (0, 0, n - 1), stride0 := 512, stride1 := 256, zeros := true }

def tWbBytes (w : Waybill) : List Byte :=
  let f3 := fun (n : Nat) (x : Nat × Nat × Nat) => leBytes n x.1 ++ leBytes n x.2.1 ++ leBytes n x.2.2
  leBytes 6 w.base ++ leBytes 6 w.scalePtr ++ leBytes 6 0 ++ leBytes 1 (w.fmt + 16 * w.kaxis) ++ leBytes 1 w.trec
    ++ f3 4 w.whole ++ f3 4 w.origin ++ f3 2 w.piece ++ leBytes 2 0 ++ leBytes 4 w.stride0 ++ leBytes 4 w.stride1
    ++ leBytes 4 0

/-- The stall with bytes `d` at its start, the scale 1 at 0x200, and the waybills of `l`. -/
def tStall (d : List Byte) (l : List Waybill) : Tab Byte :=
  l.zipIdx.foldl (fun t e => tabPutList 0 t (0x2F0000 + 64 * e.2) (tWbBytes e.1))
    (tabPutList 0 (tabPutList 0 [] 0 d) 0x200 [0, 0, 128, 63])

/-- Core 0 with such a stall, and partition 0 with the first 4 KiB of HBM and eight queue pairs. -/
def tW (d : List Byte) (l : List Waybill) : State :=
  { tC { tCore with stall := tStall d l, wbCount := l.length } with
    parts := [(0, { tPart with cfg := some { cores := [(0, 1)], vf := 1, qpCount := 8, windows := [⟨0, false, 0, 4096⟩] } })] }

/-- With tolls. -/
def tT (d : List Byte) (l : List Waybill) (tolls : Tab Nat) : State :=
  let s := tW d l
  { s with cores := [(0, { s.core 0 with tolls := tolls })] }

/-- Queue pair 3, ACTIVE and cached. -/
def tQp : Qp := { st := .active, cached := true, pinned := true }

/-- A frame with the tag of LINK keys of zeros. -/
def tTagged (f : RirisFrame) : RirisFrame := { f with tag := ririsTag 0 f }

theorem tagged_ok {s : State} {f : RirisFrame} (hk : (s.keySlot (s.qp f.dqp.toNat).keyslot.toNat).kind = .link)
    (ha : s.rxKey f.dqp.toNat = 0) : s.tagOk (tTagged f) = true := by
  have h : (tTagged f).dqp = f.dqp := rfl
  have ht : (tTagged f).tag = ririsTag 0 (tTagged f) := rfl
  simp [State.tagOk, h, hk, ha]
  exact ht

theorem pair_eq {A B : Type} {x : A × B} {b : B} (h : x.2 = b) : x = (x.1, b) := by rw [← h]

theorem chunk_ok {s : State} {c : CmdRef} {key : BitVec 256} {stream a n : Nat} {x : Chunk}
    (ht : x.tag = Config.gcmTag key (chunkNonce stream 0) (chunkAad stream 0 true false) x.data)
    (hm : (s.copyData c a (gcmCrypt key (chunkNonce stream 0) x.data)).2 = { moved := n }) :
    (s.copyChunks c key stream a 0 [x] {}).2 = ({ moved := n }, true) := by
  have hv : chunkVerifies x key stream 0 true = true := by simp [chunkVerifies, ht]
  simp [State.copyChunks, hv, hm]

/-! Host commands: the PF's queue 1 with one descriptor for partition 0. -/

def tHdr : CmdHdr := ⟨0, 1, 7, 0⟩

def tQueue (d : List (BitVec 512)) : Fn :=
  { bound := true, qmax := 64, queues := [(1, { en := true, sqTail := d.length, ring := d })] }

def tCmd (s : State) (code flags args : Nat) : State :=
  { s with fns := [(0, tQueue [descOf tHdr code flags args])] }

/-- Partition 0 in a state, with the first 8 KiB of HBM and key slot 0. -/
def tIn (st : PartSt) : State :=
  tP { tPart with
    st := st
    cfg := some { cores := [(0, 1)], vf := 1, windows := [⟨0, false, 0, 8192⟩], keyCount := 1, regCount := 1 } }

/-- An image of one HALT at internal address 0. -/
def tImage : Tab Byte :=
  [(0, 0x49), (1, 0x54), (2, 0x49), (3, 0x4E), (4, 1), (16, 1), (29, 0x12), (64, 0xA0), (65, 0x0F), (68, 1), (72, 0xC0),
   (73, 0x0F), (77, 0x10), (4015, 8)]

/-! An update descriptor for one element, and the memory that it names. -/

def tWords (l : List Byte) : List Word := (List.range 16).map (fun i => w32 (fieldLe l (4 * i) 4))

def tUpd (recipe n : Nat) : UpdDesc :=
  { words := tWords (leBytes 6 0 ++ leBytes 6 cisBase ++ leBytes 6 (cisBase + 8) ++ leBytes 6 0 ++ leBytes 6 4096
      ++ leBytes 6 (depotBase + 256) ++ leBytes 4 n ++ leBytes 8 0 ++ leBytes 1 (16 + recipe) ++ leBytes 15 0),
    part := 0, core := none }

def tUpdRun (u : UpdEngine) : State :=
  { tP { tPart with cfg := some { cores := [(0, 1)], windows := [⟨0, false, 0, 8192⟩, ⟨1, false, cisBase, 4096⟩] } } with
    mem := { cis := [(0, 1), (1, 1), (2, 1), (3, 1)] ++ (List.range 8).map (fun i => (8 + i, 2)) }
    dies := [(0, { upd := u, dbufs := [(0, { owner := 0, base := 0, size := 512, free := 2 })] })] }

/-- A manifest for T_ACT `t`, of an installation of extents 16, 1, 1, 1, 1, 1 with this module at coordinate 0 and no
partition. -/
def tManBody (t : Nat) : List Byte :=
  leBytes 4 0x4E414D43 ++ leBytes 4 1 ++ leBytes 4 3 ++ leBytes 12 0 ++ leBytes 8 t ++ leBytes 8 136 ++ leBytes 24 0
    ++ leBytes 2 1 ++ leBytes 2 12 ++ [0, 16, 1, 1, 1, 1, 1, 0] ++ leBytes 4 0
    ++ leBytes 2 0x10 ++ leBytes 2 52 ++ leBytes 48 deviceId.toNat ++ leBytes 4 0

def tMan (t : Nat) : ManifestObj := { body := tManBody t, trailer := tTrailer 5 (tManBody t) }

/-- What that manifest says. -/
def tManifest (t : Nat) : Manifest :=
  { epoch := 3, digest := (Config.sha384 (tManBody t)).setWidth 256, tAct := w64 t, extents := [16, 1, 1, 1, 1, 1],
    hgrps := ({} : Memory).hgrps, cgrps := ({} : Memory).cgrps }

/-- The TLVs of that manifest. -/
def tTlvs : List Tlv :=
  [{ typ := 1, off := 64, val := [0, 16, 1, 1, 1, 1, 1, 0, 0, 0, 0, 0] },
   { typ := 0x10, off := 80, val := leBytes 48 deviceId.toNat ++ [0, 0, 0, 0] }]

theorem man_own : (ofType tTlvs tMODULE).filter (fun t => t.val.take 48 == leBytes 48 deviceId.toNat)
   = [{ typ := 0x10, off := 80, val := leBytes 48 deviceId.toNat ++ [0, 0, 0, 0] }] := by
  have h : (leBytes 48 deviceId.toNat ++ [0#8, 0#8, 0#8, 0#8]).take 48 = leBytes 48 deviceId.toNat := by rfl
  simp [ofType, tTlvs, tMODULE, h]

set_option maxRecDepth 20000 in
theorem man_framed : ManifestObj.frame (tMan 0) 5504 = .ok tTlvs ∧ ManifestObj.frame (tMan 10000000) 5504 = .ok tTlvs := ⟨by rfl, by rfl⟩

theorem man_parsed : parseManifest (tManBody 0) tTlvs = .ok (tManifest 0)
    ∧ parseManifest (tManBody 10000000) tTlvs = .ok (tManifest 10000000) := by
  unfold parseManifest
  rw [man_own]
  exact ⟨by rfl, by rfl⟩

theorem man_accepted {s : State} {t : Nat} (ha : s.customs.anchor = some tAnchor) (hf : ManifestObj.frame (tMan t) 5504 = .ok tTlvs) (hm : parseManifest (tManBody t) tTlvs = .ok (tManifest t))
    (h1 : w32 (fld (tManBody t) 8 4) = 3) (he : s.epochOk 3 = true) (ht : s.tActOk (w64 t).toNat = true)
    (hr : (s.affectedBy (tManifest t)).any (fun q => decide ((s.part q).st = .recovering)) = false)
    (h2 : ((tManifest t).extentsOk && (tManifest t).coordOk && (tManifest t).links.all (tManifest t).linkOk) = true)
    (h3 : (tManifest t).resourcesOk = true) :
    s.checkManifest 5504 (tMan t) = .accepted (tManifest t) := by
  have ho : s.operatorOk (tTrailer 5 (tManBody t)) 5 (tManBody t) = true := by
    simp [State.operatorOk, ha, trailer_ok]
  unfold State.checkManifest
  rw [hf]
  simp only [show (tMan t).trailer = tTrailer 5 (tManBody t) from rfl, show (tMan t).body = tManBody t from rfl, h1, he,
    h2, h3, ho, hm, show (tManifest t).tAct = w64 t from rfl, ht, hr, Bool.not_true, Bool.false_eq_true, if_false]

/-! A ledger entry after an add, and after a resolution. -/

def tAdd (e : LedgerEntry) (v : ChunkVal) : LedgerEntry :=
  match e.addChunk v with
  | (.ok r, _) => r
  | _ => {}

def tResolve (e : LedgerEntry) : LedgerEntry :=
  match e.resolve with
  | .ok r => r
  | _ => {}

/-! A key blob of one entry, and the record that opens it. -/

theorem gcm_twice (k : BitVec 256) (n : BitVec 96) (d : List Byte) : gcmCrypt k n (gcmCrypt k n d) = d := by
  apply List.ext_getElem <;> simp [gcmCrypt, BitVec.xor_assoc]

def tRec : KeyRecord := { part := 0, ctx := 0, epoch := 0, digest := 0, random := 0, skX := 1, dk := 0 }

def tBlobOf (entries : List Byte) (tag : BitVec 128) (t : Trailer) : KeyBlob :=
  { len := 7144, magic := 0x424B5752, version := 1, nkeys := 1, flags := 1, recordHash := tRec.hash, zeros := 0, epk := 9,
    ct := 0, iv := 0, zeros2 := 0, entries := entries, tag := tag, trailer := t }

/-- LINK keys 1 and 2 for slot 0. -/
def tPlain : List Byte := [1, 0] ++ List.replicate 14 0 ++ leBytes 32 1 ++ leBytes 32 2

/-- The wrapping key. -/
def tKek : BitVec 256 := (tRec.wrapKey (tBlobOf [] 0 (tTrailer 4 []))).getD 0

def tSealed : List Byte := gcmCrypt tKek 0 tPlain

def tTag : BitVec 128 := Config.gcmTag tKek 0 (blobHead (tBlobOf [] 0 (tTrailer 4 []))) tSealed

def tBlob : KeyBlob := tBlobOf tSealed tTag (tTrailer 4 (blobBody (tBlobOf tSealed tTag (tTrailer 4 []))))

theorem wrapKey_some {r : KeyRecord} {b : KeyBlob} (h : x25519 r.skX b.epk ≠ 0) :
    r.wrapKey b = some ((r.wrapKey b).getD 0) := by
  unfold KeyRecord.wrapKey
  simp only [if_neg h, Option.getD_some]

theorem wrapKey_congr {r : KeyRecord} {a b : KeyBlob} (he : a.epk = b.epk) (hc : a.ct = b.ct)
    (hh : a.recordHash = b.recordHash) : r.wrapKey a = r.wrapKey b := by
  unfold KeyRecord.wrapKey
  rw [he, hc, hh]

theorem blob_key : tRec.wrapKey tBlob = some tKek := by
  have hx : x25519 tRec.skX tBlob.epk ≠ 0 := by decide +kernel
  rw [wrapKey_some hx, wrapKey_congr (a := tBlob) (b := tBlobOf [] 0 (tTrailer 4 [])) rfl rfl rfl, tKek]

theorem head_of (d e : List Byte) (a b : BitVec 128) (t u : Trailer) :
    blobHead (tBlobOf d a t) = blobHead (tBlobOf e b u) := by
  simp only [blobHead, tBlobOf]

theorem blob_tag : tBlob.tag = Config.gcmTag tKek tBlob.iv (blobHead tBlob) tBlob.entries := by
  have h : blobHead tBlob = blobHead (tBlobOf [] 0 (tTrailer 4 [])) := head_of _ _ _ _ _ _
  rw [h]
  rfl

theorem blob_plain : gcmCrypt tKek tBlob.iv tBlob.entries = tPlain := gcm_twice _ _ _

theorem blob_opens : tRec.opens tBlob = some [keyEntry tPlain] := by
  have hn : tBlob.nkeys.toNat = 1 := rfl
  have hp : tPlain.take 80 = tPlain := by decide
  unfold KeyRecord.opens
  rw [blob_key]
  simp only [if_pos blob_tag, blob_plain, hn, keyEntries, hp]

theorem blob_ok {s : State} (ha : (s.part 0).cfg.bind (·.anchor) = some tAnchor) (hr : (s.cus 0).record = some tRec)
    (hc : (s.part 0).ms.ctx = 0) (hp : s.pair = (0, 0)) (he : s.keyEntryOk 0 (keyEntry tPlain) = true) :
    s.blobCheck 0 tBlob = .ok [keyEntry tPlain] := by
  have hl : tPlain.length = 80 := by decide
  have hf : blobForm tBlob = true := by simp [blobForm, tBlob, tBlobOf, tSealed, gcmCrypt, hl]
  have ht : trailerOk tBlob.trailer 4 tAnchor (blobBody tBlob) = true := trailer_ok (by decide) _
  have hh : tBlob.recordHash = tRec.hash := rfl
  have hq : tRec.ctx = 0 ∧ tRec.digest = 0 ∧ tRec.epoch = 0 := ⟨rfl, rfl, rfl⟩
  simp [State.blobCheck, ha, hr, hc, hp, hf, ht, hh, hq, blob_opens, he, slotsDistinct]

/-- The same with the tests' signer as tenant anchor and a key record. -/
def tKeyed : State :=
  let s := tIn .idle
  { s with parts := [(0, { s.part 0 with cfg := (s.part 0).cfg.map (fun c => { c with anchor := some tAnchor }) })]
           cusParts := [(0, { record := some tRec })] }

/-! For each statement, a state and operands that meet the hypotheses of each of its clauses. -/

theorem witness_NopJumpBrflagRegwrComplete :
    (let i : Issue := tIss;
     let s : State := tI (tRun) (.nop i);
     let p : Nat := 0;
     s.Issues i.core (.nop i) p ((s.core p).pc + 1)) ∧
    (let i : Issue := tIss;
     let target : BitVec 14 := 2;
     let s : State := tI (tRun) (.jump i target);
     let p : Nat := 0;
     s.Issues i.core (.jump i target) p target.toNat) ∧
    (let i : Issue := tIss;
     let target : BitVec 14 := 2;
     let trec : BitVec 6 := 0;
     let mask : BitVec 3 := 0;
     let sense : Bool := false;
     let s : State := tI (tRun) (.brflag i trec mask sense target);
     let p : Nat := 0;
     s.Issues i.core (.brflag i trec mask sense target) p target.toNat ∧
       (((s.core p).recd trec.toNat).any mask == sense) = true) ∧
    (let i : Issue := tIss;
     let target : BitVec 14 := 2;
     let trec : BitVec 6 := 0;
     let mask : BitVec 3 := 1;
     let sense : Bool := true;
     let s : State := tI (tRun) (.brflag i trec mask sense target);
     let p : Nat := 0;
     s.Issues i.core (.brflag i trec mask sense target) p ((s.core p).pc + 1) ∧
       (((s.core p).recd trec.toNat).any mask == sense) = false) ∧
    (let i : Issue := tIss;
     let offset : BitVec 16 := 0x44;
     let xi : BitVec 4 := 0;
     let imm : Word := 5;
     let s : State := tI (tRun) (.regwr i offset xi imm);
     let p : Nat := 0;
     let c := s.core p;
     s.Issues i.core (.regwr i offset xi imm) p (c.pc + 1) ∧ regwrOk offset.toNat = true) := by
  refine ⟨?_, ?_, ?_, ?_, ?_⟩ <;> decide +kernel

theorem witness_LoopsComplete :
    (let i : Issue := tIss;
     let xi : BitVec 4 := 1;
     let step : Word := 4;
     let count : Word := 3;
     let s : State := tI (tRun) (.loop i xi step count);
     let p : Nat := 0;
     let c := s.core p;
     s.Issues i.core (.loop i xi step count) p (c.pc + 1) ∧ count ≠ 0 ∧ c.loops.length < 4) ∧
    (let i : Issue := tIss;
     let xi : BitVec 4 := 1;
     let step : Word := 4;
     let s : State := tI (tC { tCore with insns := [0, 3 * 2 ^ 120, 0] }) (.loop i xi step 0);
     let p : Nat := 0;
     let c := s.core p;
     s.Issues i.core (.loop i xi step 0) p c.skipLoop) ∧
    (let i : Issue := tIss;
     let s : State := tI (tC { tCore with pc := 1, loops := [{ start := 1, xi := 0, step := 5, left := 2 }] })
       (.endloop i);
     let p : Nat := 0;
     let e : LoopEntry := { start := 1, xi := 0, step := 5, left := 2 };
     let rest : List LoopEntry := [];
     let c := s.core p;
     s.Issues i.core (.endloop i) p e.start ∧ c.loops = e :: rest ∧ 1 < e.left) ∧
    (let i : Issue := tIss;
     let s : State := tI (tC { tCore with pc := 1, loops := [{ start := 1, xi := 0, step := 5, left := 1 }] })
       (.endloop i);
     let p : Nat := 0;
     let e : LoopEntry := { start := 1, xi := 0, step := 5, left := 1 };
     let rest : List LoopEntry := [];
     let c := s.core p;
     s.Issues i.core (.endloop i) p (c.pc + 1) ∧ c.loops = e :: rest ∧ e.left ≤ 1) ∧
    (let i : Issue := tIss;
     let xi : BitVec 4 := 1;
     let xa : BitVec 4 := 0;
     let addr : BitVec 44 := 0xF0000000000;
     let step : BitVec 16 := 4;
     let max : Word := 9;
     let s : State := tI (tC { tCore with stall := [(0, 7)] }) (.loopm i xi xa addr step max);
     let p : Nat := 0;
     let c := s.core p;
     let a := addr.toNat + 4 * (c.x xa.toNat).toNat;
     let n := s.wordAt p a;
     s.ReadsClean p (s.partNo i.core) a 4 ∧
       s.Issues i.core (.loopm i xi xa addr step max) p (c.pc + 1) ∧
       n ≠ 0 ∧
       n ≤ max.toNat ∧
       c.loops.length < 4) ∧
    (let i : Issue := tIss;
     let xi : BitVec 4 := 1;
     let xa : BitVec 4 := 0;
     let addr : BitVec 44 := 0xF0000000000;
     let step : BitVec 16 := 4;
     let max : Word := 9;
     let s : State := tI (tC { tCore with insns := [0, 3 * 2 ^ 120, 0] }) (.loopm i xi xa addr step max);
     let p : Nat := 0;
     let c := s.core p;
     let a := addr.toNat + 4 * (c.x xa.toNat).toNat;
     let n := s.wordAt p a;
     s.ReadsClean p (s.partNo i.core) a 4 ∧ s.Issues i.core (.loopm i xi xa addr step max) p c.skipLoop ∧ n = 0) ∧
    (let i : Issue := tIss;
     let xa : BitVec 4 := 0;
     let addr : BitVec 44 := 0xF0000000000;
     let sense : Bool := true;
     let target : BitVec 14 := 2;
     let s : State := tI (tC { tCore with stall := [(0, 7)] }) (.brmem i xa addr sense target);
     let p : Nat := 0;
     let c := s.core p;
     let a := addr.toNat + 4 * (c.x xa.toNat).toNat;
     let n := s.wordAt p a;
     s.ReadsClean p (s.partNo i.core) a 4 ∧
       s.Issues i.core (.brmem i xa addr sense target) p target.toNat ∧
       (n != 0) = sense) ∧
    (let i : Issue := tIss;
     let xa : BitVec 4 := 0;
     let addr : BitVec 44 := 0xF0000000000;
     let sense : Bool := false;
     let target : BitVec 14 := 2;
     let s : State := tI (tC { tCore with stall := [(0, 7)] }) (.brmem i xa addr sense target);
     let p : Nat := 0;
     let c := s.core p;
     let a := addr.toNat + 4 * (c.x xa.toNat).toNat;
     let n := s.wordAt p a;
     s.ReadsClean p (s.partNo i.core) a 4 ∧
       s.Issues i.core (.brmem i xa addr sense target) p (c.pc + 1) ∧
       (n != 0) ≠ sense) := by
  refine ⟨?_, ?_, ?_, ?_, ?_, ?_, ?_, ?_⟩ <;> decide +kernel

theorem witness_TokenWaitsComplete :
    (let i : Issue := tIss;
     let buf : BitVec 14 := 0;
     let n : BitVec 8 := 2;
     let consume : Bool := true;
     let s : State := tI (tRun) (.tokwait i buf n consume);
     let p : Nat := 0;
     let b : Buf := .stall 0;
     let c := s.core p;
     s.Issues i.core (.tokwait i buf n consume) p (c.pc + 1) ∧
       s.bufRef p (s.partNo i.core) i.stm buf = some b ∧
       s.missing p b = false ∧
       n.toNat ≤ s.tok p b) ∧
    (let i : Issue := tIss;
     let buf : BitVec 14 := 0;
     let n : BitVec 8 := 3;
     let consume : Bool := true;
     let s : State := tI (tRun) (.tokwait i buf n consume);
     let p : Nat := 0;
     let b : Buf := .stall 0;
     let c := s.core p;
     s.Issues i.core (.tokwait i buf n consume) p (c.pc + 1) ∧
       s.bufRef p (s.partNo i.core) i.stm buf = some b ∧
       s.missing p b = false ∧
       s.tok p b < n.toNat ∧
       c.traces 1 = false) ∧
    (let s : State := tC { tCore with wait := .token (.stall 0) 2 true };
     let core : Nat := 0;
     let p : Nat := 0;
     let consume : Bool := true;
     let b : Buf := .stall 0;
     let m : Nat := 2;
     let c := s.core p;
     s.waiting core = some p ∧
       c.wait = .token b m consume ∧
       m ≤ s.tok p b ∧
       c.traces 1 = false ∧
       c.pc + 1 < c.insns.length) ∧
    (let i : Issue := tIss;
     let buf : BitVec 14 := 0;
     let n : BitVec 8 := 253;
     let s : State := tI (tRun) (.tokpost i buf n);
     let p : Nat := 0;
     let b : Buf := .stall 0;
     let c := s.core p;
     s.Issues i.core (.tokpost i buf n) p (c.pc + 1) ∧
       s.bufRef p (s.partNo i.core) i.stm buf = some b ∧
       c.fence = none ∧
       s.tok p b + n.toNat ≤ 255 ∧
       (tabGet 0 c.tally tlTOKPOSTS).toNat % 2 ^ 64 + 1 < 2 ^ 64) ∧
    (let i : Issue := tIss;
     let buf : BitVec 14 := 0;
     let n : BitVec 8 := 2;
     let dl : BitVec 24 := 1;
     let target : BitVec 14 := 2;
     let s : State := tI (tRun) (.dlbr i buf n dl target);
     let p : Nat := 0;
     let b : Buf := .stall 0;
     let c := s.core p;
     c.traces 1 = false ∧
       s.bufRef p (s.partNo i.core) i.stm buf = some b ∧
       s.missing p b = false ∧
       s.Issues i.core (.dlbr i buf n dl target) p (c.pc + 1) ∧
       n.toNat ≤ s.tok p b) ∧
    (let i : Issue := tIss;
     let buf : BitVec 14 := 0;
     let n : BitVec 8 := 3;
     let dl : BitVec 24 := 1;
     let target : BitVec 14 := 2;
     let s : State := tI (tRun) (.dlbr i buf n dl target);
     let p : Nat := 0;
     let b : Buf := .stall 0;
     let c := s.core p;
     c.traces 1 = false ∧
       s.bufRef p (s.partNo i.core) i.stm buf = some b ∧
       s.missing p b = false ∧
       s.Issues i.core (.dlbr i buf n dl target) p (c.pc + 1) ∧
       s.tok p b < n.toNat ∧
       dl ≠ 0) ∧
    (let s : State := tC { tCore with wait := .deadline (.stall 0) 2 50 2 };
     let core : Nat := 0;
     let p : Nat := 0;
     let b : Buf := .stall 0;
     let m : Nat := 2;
     let till : DWord := 50;
     let tgt : Nat := 2;
     let c := s.core p;
     c.traces 1 = false ∧
       s.waiting core = some p ∧
       c.wait = .deadline b m till tgt ∧
       m ≤ s.tok p b ∧
       c.pc + 1 < c.insns.length) ∧
    (let s : State := tC { tCore with wait := .deadline (.stall 0) 3 50 2 };
     let core : Nat := 0;
     let p : Nat := 0;
     let b : Buf := .stall 0;
     let m : Nat := 3;
     let till : DWord := 50;
     let tgt : Nat := 2;
     let c := s.core p;
     c.traces 1 = false ∧
       s.waiting core = some p ∧
       c.wait = .deadline b m till tgt ∧
       s.tok p b < m ∧
       tgt < c.insns.length ∧
       ((∀ e ∈ s.cores, ∀ o ∈ e.2.ops, o.post ≠ some b))) := by
  refine ⟨?_, ?_, ?_, ?_, ?_, ?_, ?_, ?_⟩ <;> decide +kernel

theorem witness_TollsComplete :
    (let i : Issue := tIss;
     let buf : BitVec 14 := 0x2000;
     let s : State := tI ({ tRun with
           dies := [(0, { dbufs := [(0, { owner := 0, base := 0, size := 512, free := 1 })] })] }) (.release i buf);
     let p : Nat := 0;
     let d : Nat := 0;
     let k : Nat := 0;
     let c := s.core p;
     s.Issues i.core (.release i buf) p (c.pc + 1) ∧ s.bufRef p (s.partNo i.core) i.stm buf = some (.depot d k)) ∧
    (let i : Issue := tIss;
     let cls : BitVec 4 := 1;
     let target : BitVec 20 := 0;
     let amount : BitVec 24 := 32;
     let s : State := tI (tRun) (.tollreq i cls target amount);
     let p : Nat := 0;
     let c := s.core p;
     s.Issues i.core (.tollreq i cls target amount) p (c.pc + 1) ∧
       s.tollCheck p (s.partNo i.core) cls.toNat target.toNat amount.toNat = 0 ∧
       ((cls = 3 → (s.qp target.toNat).cached = true)) ∧
       c.traces 1 = false) ∧
    (let s : State := { tC { tCore with wait := .toll 1 0 32 } with tollWait := [0] };
     let core : Nat := 0;
     let p : Nat := 0;
     let cl : Nat := 1;
     let tgt : Nat := 0;
     let amt : Nat := 32;
     let c := s.core p;
     s.waiting core = some p ∧
       c.wait = .toll cl tgt amt ∧
       s.firstFor p = true ∧
       s.tollRoom cl tgt amt = true ∧
       c.traces 1 = false ∧
       c.pc + 1 < c.insns.length) := by
  refine ⟨?_, ?_, ?_⟩ <;> decide +kernel

theorem witness_FenceHaltComplete :
    (let i : Issue := tIss;
     let s : State := tI (tRun) (.fence i);
     let p : Nat := 0;
     let c := s.core p;
     s.Issues i.core (.fence i) p (c.pc + 1)) ∧
    (let s : State := tC { tCore with fence := some [4], wait := .fence };
     let core : Nat := 0;
     let p : Nat := 0;
     let l : List Nat := [4];
     let c := s.core p;
     s.waiting core = some p ∧ c.fence = some l ∧ ((∀ o ∈ c.ops, o.id ∉ l)) ∧ c.traces 1 = false ∧ c.wait = .fence) ∧
    (let s : State := tC { tCore with fence := some [4] };
     let core : Nat := 0;
     let p : Nat := 0;
     let l : List Nat := [4];
     let c := s.core p;
     s.waiting core = some p ∧ c.fence = some l ∧ ((∀ o ∈ c.ops, o.id ∉ l)) ∧ c.traces 1 = false ∧ c.wait ≠ .fence) ∧
    (let i : Issue := tIss;
     let s : State := tI (tRun) (.halt i);
     let p : Nat := 0;
     let c := s.core p;
     s.Issues i.core (.halt i) p c.pc) := by
  refine ⟨?_, ?_, ?_, ?_⟩ <;> decide +kernel

theorem witness_EndAndNotesComplete :
    (let s : State := { tRun with
         parts := [(0, { tPart with start := some ⟨0, 1, 7, 2⟩ })], cores := [(0, { tCore with st := .done })] };
     let part : Nat := 0;
     let c : CmdRef := ⟨0, 1, 7, 2⟩;
     let x := s.part part;
     s.clocked = true ∧ x.st = .running ∧ x.switching = none ∧ s.allDone part = true ∧ x.start = some c) ∧
    (let i : Issue := tIss;
     let queue : BitVec 8 := 2;
     let payload : Word := 5;
     let s : State := tI ({ tRun with fns := [(1, { bound := true, qmax := 4, queues := [(2, { en := true })] })] })
       (.hostnote i queue payload);
     let p : Nat := 0;
     let q := s.partNo i.core;
     let f := s.fnOfPart q;
     let y := s.queue f queue.toNat;
     s.Issues i.core (.hostnote i queue payload) p ((s.core p).pc + 1) ∧
       (s.core p).fence = none ∧
       y.takesNotes = true ∧
       (s.fn f).held = [] ∧
       0 < y.freeSlots) ∧
    (let i : Issue := tIss;
     let queue : BitVec 8 := 2;
     let payload : Word := 5;
     let s : State := tI ({ tRun with
           fns := [(1,
               {
                   bound := true, qmax := 4, queues := [(2, { en := true })],
                   held := [{ cid := 0xFFFF, status := 0, kind := 1, queue := 2, result0 := 0, result1 := 0 }] })] })
       (.hostnote i queue payload);
     let p : Nat := 0;
     let q := s.partNo i.core;
     let f := s.fnOfPart q;
     let y := s.queue f queue.toNat;
     let full := (s.fn f).held ≠ [] ∨ y.freeSlots = 0;
     s.Issues i.core (.hostnote i queue payload) p ((s.core p).pc + 1) ∧
       (s.core p).fence = none ∧
       y.takesNotes = true ∧
       full ∧
       (s.fn f).held.length < 64) ∧
    (let i : Issue := tIss;
     let queue : BitVec 8 := 2;
     let payload : Word := 5;
     let s : State := tI ({ tRun with fns := [(1, { bound := true })] }) (.hostnote i queue payload);
     let p : Nat := 0;
     let q := s.partNo i.core;
     let f := s.fnOfPart q;
     let y := s.queue f queue.toNat;
     let full := (s.fn f).held ≠ [] ∨ y.freeSlots = 0;
     s.Issues i.core (.hostnote i queue payload) p ((s.core p).pc + 1) ∧
       (s.core p).fence = none ∧
       (y.takesNotes = false ∨ (full ∧ 64 ≤ (s.fn f).held.length))) ∧
    (let i : Issue := tIss;
     let queue : BitVec 8 := 2;
     let payload : Word := 5;
     let s : State := tI (tC { tCore with fence := some [4] }) (.hostnote i queue payload);
     let p : Nat := 0;
     s.Issues i.core (.hostnote i queue payload) p ((s.core p).pc + 1) ∧
       (s.core p).fence ≠ none ∧
       (s.core p).traces 1 = false) := by
  refine ⟨?_, ?_, ?_, ?_, ?_⟩ <;> decide +kernel

theorem witness_CoreFaultReportComplete :
    (let s : State := {
         mod := { state := .run }, cores := [(0, { st := .faulted, faultStatus := 5, faultPending := true })] };
     let n : Nat := 0;
     let k : Nat := 0;
     let p := 22 * n + k;
     let c := s.core p;
     s.clocked = true ∧ k < 22 ∧ n < 12 ∧ c.faultPending = true ∧ s.partOfPhys p = none ∧ c.faultOwn = false) ∧
    (let s : State := tC { tCore with st := .faulted, faultStatus := 3, faultPending := true };
     let n : Nat := 0;
     let k : Nat := 0;
     let q : Nat := 0;
     let p := 22 * n + k;
     let c := s.core p;
     s.clocked = true ∧
       k < 22 ∧
       n < 12 ∧
       c.faultPending = true ∧
       s.partOfPhys p = some q ∧
       (s.part q).st = .running ∧
       (s.part q).switching = none ∧
       c.faultStatus ≠ st8 scUncorr) ∧
    (let s : State := tC { tCore with st := .faulted, faultStatus := 5, faultPending := true, faultOwn := true };
     let n : Nat := 0;
     let k : Nat := 0;
     let q : Nat := 0;
     let p := 22 * n + k;
     let c := s.core p;
     s.clocked = true ∧
       k < 22 ∧
       n < 12 ∧
       c.faultPending = true ∧
       s.partOfPhys p = some q ∧
       (s.part q).st = .running ∧
       (s.part q).switching = none ∧
       c.faultStatus = st8 scUncorr ∧
       (s.part q).recovery = none) ∧
    (let s : State := { tC { tCore with st := .faulted, faultStatus := 5, faultPending := true, faultOwn := true } with
         parts := [(0,
             { tPart with st := .recovering, recovery := some { status := 5, quarantine := [], recalled := false } })] };
     let n : Nat := 0;
     let k : Nat := 0;
     let q : Nat := 0;
     let r : Recovery := { status := 5, quarantine := [], recalled := false };
     let p := 22 * n + k;
     let c := s.core p;
     s.clocked = true ∧
       k < 22 ∧
       n < 12 ∧
       c.faultPending = true ∧
       s.partOfPhys p = some q ∧
       (s.part q).st = .recovering ∧
       (s.part q).switching = none ∧
       c.faultStatus = st8 scUncorr ∧
       (s.part q).recovery = some r ∧
       r.recalled = false) := by
  refine ⟨?_, ?_, ?_, ?_⟩ <;> decide +kernel

theorem witness_MsarriveComplete :
    (let i : Issue := tIss;
     let mid : BitVec 16 := 9;
     let rp : Bool := true;
     let vr : Bool := true;
     let s : State := tI (tMs {} {}) (.msarrive i mid false rp vr);
     let p : Nat := 0;
     let o : Nat := 0;
     let q := s.partNo i.core;
     let c := s.core p;
     c.fence = none ∧
       c.traces 1 = false ∧
       c.traces 5 = false ∧
       ((vr = true → rp = true ∧ c.loops = [])) ∧
       (s.ms q).find mid = some o ∧
       i.core ∈ (s.ms q).coresOf o ∧
       (s.ms q).abandoned = false ∧
       i.core ∉ (s.obj q o).arrived ∧
       i.core ∉ (s.obj q o).coming ∧
       s.Issues i.core (.msarrive i mid false rp vr) p (c.pc + 1)) ∧
    (let i : Issue := tIss;
     let mid : BitVec 16 := 9;
     let rp : Bool := false;
     let vr : Bool := false;
     let s : State := tI (tMs {} {}) (.msarrive i mid true rp vr);
     let p : Nat := 0;
     let o : Nat := 0;
     let q := s.partNo i.core;
     let c := s.core p;
     c.fence = none ∧
       c.traces 1 = false ∧
       c.traces 5 = false ∧
       ((vr = true → rp = true ∧ c.loops = [])) ∧
       (s.ms q).find mid = some o ∧
       i.core ∈ (s.ms q).coresOf o ∧
       (s.ms q).abandoned = false ∧
       i.core ∉ (s.obj q o).arrived ∧
       i.core ∉ (s.obj q o).coming ∧
       s.Issues i.core (.msarrive i mid true rp vr) p c.pc) := by
  refine ⟨?_, ?_⟩ <;> decide +kernel

theorem witness_LocalMilestonesComplete :
    (let s : State := { tMs {} { coming := [0] } with
         parts := [(0,
             { tPart with ms := { groups := [(0, 3)], objs := [(0, { mid := 9, valid := true, coming := [0] })] } })] };
     let q : Nat := 0;
     let o : Nat := 0;
     let l : Nat := 0;
     let x := s.obj q o;
     let s1 := s.modObj q o (fun y => { (y.started s.now) with
           coming := y.coming.filter (· != l), arrived := y.arrived ++ [l],
           phase := if y.phase = 0 then 1 else y.phase });
     s.clocked = true ∧ x.coming.contains l = true ∧ s1.localFull q o = false) ∧
    (let s : State := tMs {} { coming := [0] };
     let q : Nat := 0;
     let o : Nat := 0;
     let l : Nat := 0;
     let x := s.obj q o;
     let s1 := s.modObj q o (fun y => { (y.started s.now) with
           coming := y.coming.filter (· != l), arrived := y.arrived ++ [l],
           phase := if y.phase = 0 then 1 else y.phase });
     s.clocked = true ∧ x.coming.contains l = true ∧ s1.localFull q o = true ∧ x.jobwide = false) ∧
    (let s : State := { tMs {} { arrived := [0], due := some {} } with
         cores := [(0, { tCore with wait := .milestone 0 0 none })] };
     let q : Nat := 0;
     let o : Nat := 0;
     let f : Fold := {};
     let x := s.obj q o;
     s.clocked = true ∧
       x.due = some f ∧
       f.mismatch = false ∧
       x.jobwide = false ∧
       (s.ms q).abandoned = false ∧
       (s.convoy q).armed = false ∧
       ((∀ e ∈ (s.part q).pendSnaps, e.1 ≠ o)) ∧
       (s.part q).pause = none ∧
       (s.part q).switching = none ∧
       (s.part q).st = .running ∧
       s.mod.inForce = none ∧
       s.mod.staged = none ∧
       (s.msWaiters q o).Nodup ∧
       ((∀ p ∈ s.msWaiters q o, (s.core p).wait = .milestone q o none ∧
             (s.core p).traces 1 = false ∧
             (s.core p).traces 5 = false ∧
             (s.core p).pc + 1 < (s.core p).insns.length))) := by
  refine ⟨?_, ?_, ?_⟩ <;> decide +kernel

theorem witness_MilestoneMessagesComplete :
    (let s : State := tL (tMs tJob { jobwide := true });
     let m : MsMsg := { tMsg .arrival with lseq := 3 };
     s.clocked = true ∧ m.dst.toNat = s.coord ∧ (s.msIn m).2 = false ∧ m.kind = .arrival) ∧
    (let s : State := tL (tMs tJob { jobwide := true });
     let m : MsMsg := { tMsg .release with lseq := 3 };
     s.clocked = true ∧ m.dst.toNat = s.coord ∧ (s.msIn m).2 = false ∧ m.kind = .release) ∧
    (let s : State := tL (tMs { jobId := 17, nodes := [(1, { host := true, children := 5 })] } { jobwide := true });
     let m : MsMsg := tMsg .arrival;
     let q : Nat := 0;
     let o : Nat := 0;
     let s1 := (s.msIn m).1;
     let l := s1.childLevel m.src.toNat;
     let cs := tabGet [] (s1.obj q o).nodes l;
     s.clocked = true ∧
       m.dst.toNat = s.coord ∧
       (s.msIn m).2 = true ∧
       s1.jobOf m.job = [q] ∧
       (s1.ms q).find m.mid = some o ∧
       m.gen = (s1.obj q o).gen ∧
       m.ctx = (s1.obj q o).ctx ∧
       m.rcount = (s1.ms q).rcount ∧
       m.kind = .arrival ∧
       (s1.ms q).hosted ≠ [] ∧
       ((s1.ms q).node l).host = true ∧
       ((∀ e ∈ cs, e.src ≠ m.src)) ∧
       cs.length + 1 < ((s1.ms q).node l).children.toNat) ∧
    (let s : State := tL (tMs tJob { jobwide := true });
     let m : MsMsg := tMsg .release;
     let q : Nat := 0;
     let o : Nat := 0;
     let s1 := (s.msIn m).1;
     s.clocked = true ∧
       m.dst.toNat = s.coord ∧
       (s.msIn m).2 = true ∧
       s1.jobOf m.job = [q] ∧
       (s1.ms q).find m.mid = some o ∧
       m.gen = (s1.obj q o).gen ∧
       m.ctx = (s1.obj q o).ctx ∧
       m.rcount = (s1.ms q).rcount ∧
       m.kind = .release ∧
       m.status = 0 ∧
       m.mismatch = false ∧
       (s1.ms q).hosted = [] ∧
       (s1.ms q).abandoned = false ∧
       (s1.convoy q).armed = false ∧
       ((∀ e ∈ (s1.part q).pendSnaps, e.1 ≠ o)) ∧
       (s1.part q).pause = none ∧
       (s1.part q).switching = none ∧
       (s1.part q).st = .running ∧
       s1.mod.inForce = none ∧
       s1.mod.staged = none ∧
       s1.msWaiters q o = []) := by
  refine ⟨?_, ?_, ?_, ?_⟩ <;> decide +kernel

theorem witness_WatchdogComplete :
    (let s : State := tMs {} { since := some 0 };
     let q : Nat := 0;
     let o : Nat := 0;
     let x := s.obj q o;
     s.clocked = true ∧
       x.valid = true ∧
       x.since.isSome = true ∧
       x.fired = false ∧
       x.due = none ∧
       (s.ms q).hold = 0 ∧
       (s.ms q).replayReq = false) ∧
    (let s : State := tMs tJob { jobwide := true, since := some 0 };
     let q : Nat := 0;
     let o : Nat := 0;
     let x := s.obj q o;
     s.clocked = true ∧
       x.valid = true ∧
       x.since.isSome = true ∧
       x.fired = false ∧
       x.due = none ∧
       (s.ms q).hold = 0 ∧
       (s.ms q).replayReq = false) ∧
    (let s : State := tL (tMs { jobId := 17, nodes := [(1, { host := true, top := true, children := 2 })] }
         { jobwide := true });
     let m : MsMsg := tMsg .watchdogNotice;
     let q : Nat := 0;
     let o : Nat := 0;
     let s1 := (s.msIn m).1;
     s.clocked = true ∧
       m.dst.toNat = s.coord ∧
       m.kind = .watchdogNotice ∧
       (s.msIn m).2 = true ∧
       s1.jobOf m.job = [q] ∧
       (s1.ms q).rootHere = true ∧
       (s1.ms q).find m.mid = some o ∧
       m.ctx = (s1.obj q o).ctx ∧
       m.rcount = (s1.ms q).rcount ∧
       m.gen = (s1.obj q o).gen ∧
       (s1.obj q o).due = none) := by
  refine ⟨?_, ?_, ?_⟩ <;> decide +kernel

theorem witness_JobComplete :
    (let s : State := tL (tMs { tJob with hold := 1 } { since := some 0 });
     let m : MsMsg := tMsg .abandon;
     let q : Nat := 0;
     let s1 := (s.msIn m).1;
     s.clocked = true ∧
       m.dst.toNat = s.coord ∧
       (s.msIn m).2 = true ∧
       s1.jobOf m.job = [q] ∧
       m.ctx = (s1.ms q).ctx ∧
       m.rcount = (s1.ms q).rcount ∧
       s1.fromParent q m = true ∧
       (s1.ms q).hosted = [] ∧
       m.kind = .abandon ∧
       ((∀ p ∈ s1.physOfPart q, (s1.core p).waitsAny q = false))) ∧
    (let s : State := tL (tMs { tJob with hold := 1 } { since := some 0 });
     let m : MsMsg := tMsg .hold;
     let q : Nat := 0;
     let s1 := (s.msIn m).1;
     s.clocked = true ∧
       m.dst.toNat = s.coord ∧
       (s.msIn m).2 = true ∧
       s1.jobOf m.job = [q] ∧
       m.ctx = (s1.ms q).ctx ∧
       m.rcount = (s1.ms q).rcount ∧
       s1.fromParent q m = true ∧
       (s1.ms q).hosted = [] ∧
       m.kind = .hold) ∧
    (let s : State := tL (tMs { tJob with hold := 1 } { since := some 0 });
     let m : MsMsg := tMsg .withdrawal;
     let q : Nat := 0;
     let s1 := (s.msIn m).1;
     s.clocked = true ∧
       m.dst.toNat = s.coord ∧
       (s.msIn m).2 = true ∧
       s1.jobOf m.job = [q] ∧
       m.ctx = (s1.ms q).ctx ∧
       m.rcount = (s1.ms q).rcount ∧
       s1.fromParent q m = true ∧
       (s1.ms q).hosted = [] ∧
       m.kind = .withdrawal) ∧
    (let s : State := tL (tMs { tJob with hold := 2 } { since := some 0 });
     let m : MsMsg := tMsg .withdrawal;
     let q : Nat := 0;
     let s1 := (s.msIn m).1;
     s.clocked = true ∧
       m.dst.toNat = s.coord ∧
       (s.msIn m).2 = true ∧
       s1.jobOf m.job = [q] ∧
       m.ctx = (s1.ms q).ctx ∧
       m.rcount = (s1.ms q).rcount ∧
       s1.fromParent q m = true ∧
       (s1.ms q).hosted = [] ∧
       m.kind = .withdrawal) ∧
    (let s : State := tL (tMs tJob { since := some 0, arrived := [0] });
     let m : MsMsg := { tMsg .replayRequest with rcount := 1 };
     let q : Nat := 0;
     let s1 := (s.msIn m).1;
     let a := s1.adoptPoint q m.mid m.gen;
     s.clocked = true ∧
       m.dst.toNat = s.coord ∧
       (s.msIn m).2 = true ∧
       m.kind = .replayRequest ∧
       s1.jobOf m.job = [q] ∧
       s1.fromParent q m = true ∧
       (s1.ms q).hosted = [] ∧
       m.rcount = (s1.ms q).rcount + 1 ∧
       (s1.part q).st = .running ∧
       (s1.part q).switching = none ∧
       (s1.part q).recovery = none ∧
       (s1.part q).holding = false ∧
       (a.part q).rpTries ≠ 3) := by
  refine ⟨?_, ?_, ?_, ?_, ?_⟩ <;> decide +kernel

theorem witness_CopyComplete :
    (let i : Issue := tIss;
     let src : BitVec 14 := 0;
     let dst : BitVec 14 := 1;
     let pbuf : BitVec 14 := 0;
     let post : Bool := true;
     let add : Bool := false;
     let s : State := tI (tT [7, 8, 9, 10] [tWb stallBase 0 1, tWb (stallBase + 0x100) 0 1] [])
       (.copy i src dst pbuf post add);
     let p : Nat := 0;
     let ws : Waybill := tWb stallBase 0 1;
     let wd : Waybill := tWb (stallBase + 0x100) 0 1;
     let b : Buf := .stall 0;
     let c := s.core p;
     let q := s.partNo i.core;
     let u := s.counted p;
     let r := u.tallyTier p (rdTally (tierOf ws.base)) ws.bytes;
     let v : State := (r.debit p (r.depotDebits wd.rows)).getD {};
     s.Issues i.core (.copy i src dst pbuf post add) p (c.pc + 1) ∧
       c.fence = none ∧
       u.readWb p q i.stm src false = (u, some ws) ∧
       u.readWb p q i.stm dst true = (u, some wd) ∧
       ((post = true → u.bufRef p q i.stm pbuf = some b)) ∧
       copyShape ws wd add = true ∧
       u.failedIn ws.rows = none ∧
       u.coreRead p q ws.rows i.stm [ws.tag] = (u, true) ∧
       add = false ∧
       tierOf wd.base ≠ .port ∧
       r.debit p (r.depotDebits wd.rows) = some v) ∧
    (let i : Issue := tIss;
     let src : BitVec 14 := 0;
     let dst : BitVec 14 := 1;
     let pbuf : BitVec 14 := 0;
     let post : Bool := false;
     let add : Bool := false;
     let s : State := tI (tT [7, 8, 9, 10] [tWb stallBase 0 16, tWb portBase 0 16] [(2 ^ 20, 1)])
       (.copy i src dst pbuf post add);
     let p : Nat := 0;
     let ws : Waybill := tWb stallBase 0 16;
     let wd : Waybill := tWb portBase 0 16;
     let b : Buf := .stall 0;
     let c := s.core p;
     let q := s.partNo i.core;
     let u := s.counted p;
     let r := u.tallyTier p (rdTally (tierOf ws.base)) ws.bytes;
     let n := (wd.base - portBase) / 0x10000;
     let v : State := (r.debit p [(tollKey 1 n, 1)]).getD {};
     s.Issues i.core (.copy i src dst pbuf post add) p (c.pc + 1) ∧
       c.fence = none ∧
       u.readWb p q i.stm src false = (u, some ws) ∧
       u.readWb p q i.stm dst true = (u, some wd) ∧
       ((post = true → u.bufRef p q i.stm pbuf = some b)) ∧
       copyShape ws wd add = true ∧
       u.failedIn ws.rows = none ∧
       u.coreRead p q ws.rows i.stm [ws.tag] = (u, true) ∧
       add = false ∧
       tierOf wd.base = .port ∧
       r.debit p [(tollKey 1 n, 1)] = some v) ∧
    (let i : Issue := tIss;
     let src : BitVec 14 := 0;
     let dst : BitVec 14 := 1;
     let pbuf : BitVec 14 := 0;
     let post : Bool := true;
     let add : Bool := true;
     let s : State := tI (tT [7, 8, 9, 10] [tWb stallBase 8 1, tWb 0 8 1] [(2 ^ 21, 1)])
       (.copy i src dst pbuf post add);
     let p : Nat := 0;
     let ws : Waybill := tWb stallBase 8 1;
     let wd : Waybill := tWb 0 8 1;
     let b : Buf := .stall 0;
     let c := s.core p;
     let q := s.partNo i.core;
     let u := s.counted p;
     let r := u.tallyTier p (rdTally (tierOf ws.base)) ws.bytes;
     let bs := s.pieceBytes p ws;
     let l := addList wd.rows bs;
     let v : State := (r.debit p (r.houseDebits l)).getD {};
     s.Issues i.core (.copy i src dst pbuf post add) p (c.pc + 1) ∧
       c.fence = none ∧
       u.readWb p q i.stm src false = (u, some ws) ∧
       u.readWb p q i.stm dst true = (u, some wd) ∧
       ((post = true → u.bufRef p q i.stm pbuf = some b)) ∧
       copyShape ws wd add = true ∧
       u.failedIn ws.rows = none ∧
       u.coreRead p q ws.rows i.stm [ws.tag] = (u, true) ∧
       add = true ∧
       r.debit p (r.houseDebits l) = some v) ∧
    (let s : State := tC { tCore with
         ops := [{ id := 4, act := .copy [(stallBase, [7])], pc := 0, stm := 0, post := none }] };
     let core : Nat := 0;
     let p : Nat := 0;
     let op : Nat := 4;
     let o : PorterOp := { id := 4, act := .copy [(stallBase, [7])], pc := 0, stm := 0, post := none };
     let wr : List (Nat × List Byte) := [(stallBase, [7])];
     let r := s.stores p (s.partOf core) wr;
     s.clockedPhys core = some p ∧
       (s.core p).op op = some o ∧
       (s.core p).traces 4 = false ∧
       o.status = 0 ∧
       o.act = .copy wr ∧
       r.2 = false ∧
       (r.1.core p).traces 4 = false ∧
       o.post = none) ∧
    (let s : State := tC { tCore with
         ops := [{ id := 4, act := .copy [(stallBase, [7])], pc := 0, stm := 0, post := some (.stall 0) }] };
     let core : Nat := 0;
     let p : Nat := 0;
     let op : Nat := 4;
     let o : PorterOp := { id := 4, act := .copy [(stallBase, [7])], pc := 0, stm := 0, post := some (.stall 0) };
     let wr : List (Nat × List Byte) := [(stallBase, [7])];
     let b : Buf := .stall 0;
     let r := s.stores p (s.partOf core) wr;
     s.clockedPhys core = some p ∧
       (s.core p).op op = some o ∧
       (s.core p).traces 4 = false ∧
       o.status = 0 ∧
       o.act = .copy wr ∧
       r.2 = false ∧
       (r.1.core p).traces 4 = false ∧
       o.post = some b ∧
       r.1.tok p b < 255) ∧
    (let s : State := tC { tCore with ops := [{ id := 4, act := .add 0, pc := 0, stm := 0, post := none }] };
     let core : Nat := 0;
     let p : Nat := 0;
     let op : Nat := 4;
     let o : PorterOp := { id := 4, act := .add 0, pc := 0, stm := 0, post := none };
     s.clockedPhys core = some p ∧
       (s.core p).op op = some o ∧
       (s.core p).traces 4 = false ∧
       o.status = 0 ∧
       o.act = .add 0 ∧
       o.post = none) ∧
    (let s : State := tC { tCore with
         ops := [{ id := 4, act := .descriptor 0 [5], pc := 0, stm := 0, post := none }] };
     let core : Nat := 0;
     let p : Nat := 0;
     let op : Nat := 4;
     let n : Nat := 0;
     let o : PorterOp := { id := 4, act := .descriptor 0 [5], pc := 0, stm := 0, post := none };
     let words : List Word := [5];
     s.clockedPhys core = some p ∧
       (s.core p).op op = some o ∧
       (s.core p).traces 4 = false ∧
       o.status = 0 ∧
       o.act = .descriptor n words ∧
       o.post = none) := by
  refine ⟨?_, ?_, ?_, ?_, ?_, ?_, ?_⟩ <;> decide +kernel

theorem witness_RemoteComplete :
    (let i : Issue := tIss;
     let loc : BitVec 14 := 0;
     let qp : BitVec 20 := 3;
     let rkey : Word := 5;
     let roff : BitVec 44 := 8;
     let s : State := tI ({ tT [7, 8, 9, 10] [tWb stallBase 0 1] [(3 * 2 ^ 20 + 3, 1)] with qps := [(3, tQp)] })
       (.remote i loc qp rkey roff 3);
     let p : Nat := 0;
     let c := s.core p;
     let part := s.partNo i.core;
     let x := qp.toNat;
     c.fence = none ∧ s.checkQp part x = .ok ∧ s.Issues i.core (.remote i loc qp rkey roff 3) p (c.pc + 1)) ∧
    (let i : Issue := tIss;
     let loc : BitVec 14 := 0;
     let qp : BitVec 20 := 3;
     let rkey : Word := 5;
     let roff : BitVec 44 := 8;
     let s : State := tI ({ tT [7, 8, 9, 10] [tWb stallBase 0 1] [(3 * 2 ^ 20 + 3, 1)] with qps := [(3, tQp)] })
       (.remote i loc qp rkey roff 2);
     let p : Nat := 0;
     let w : Waybill := tWb stallBase 0 1;
     let c := s.core p;
     let part := s.partNo i.core;
     let x := qp.toNat;
     let u := s.counted p;
     c.fence = none ∧
       s.checkQp part x = .ok ∧
       s.Issues i.core (.remote i loc qp rkey roff 2) p (c.pc + 1) ∧
       u.readWb p part i.stm loc true = (u, some w) ∧
       w.bytes ≠ 0 ∧
       w.bytes < 2 ^ 32) ∧
    (let i : Issue := tIss;
     let loc : BitVec 14 := 0;
     let qp : BitVec 20 := 3;
     let rkey : Word := 5;
     let roff : BitVec 44 := 8;
     let kind : BitVec 2 := 1;
     let s : State := tI ({ tT [7, 8, 9, 10] [tWb stallBase 0 1] [(3 * 2 ^ 20 + 3, 1)] with qps := [(3, tQp)] })
       (.remote i loc qp rkey roff kind);
     let p : Nat := 0;
     let w : Waybill := tWb stallBase 0 1;
     let c := s.core p;
     let part := s.partNo i.core;
     let x := qp.toNat;
     let u := s.counted p;
     let v : State := ((u.tallyTier p (rdTally (tierOf w.base)) w.bytes).debit p [(tollKey 3 x, units w.bytes)]).getD
       {};
     c.fence = none ∧
       s.checkQp part x = .ok ∧
       kind.toNat ≤ 1 ∧
       s.Issues i.core (.remote i loc qp rkey roff kind) p (c.pc + 1) ∧
       u.readWb p part i.stm loc false = (u, some w) ∧
       w.bytes ≠ 0 ∧
       w.bytes < 2 ^ 32 ∧
       u.coreRead p part w.rows i.stm [w.tag] = (u, true) ∧
       (u.tallyTier p (rdTally (tierOf w.base)) w.bytes).debit p [(tollKey 3 x, units w.bytes)] = some v) ∧
    (let s : State := tC { tCore with ops := [{ id := 4, act := .remote 3 1 0, pc := 0, stm := 0 }] };
     let p : Nat := 0;
     let core : Nat := 0;
     let op : Nat := 4;
     let kind : BitVec 2 := 1;
     let o : PorterOp := { id := 4, act := .remote 3 1 0, pc := 0, stm := 0 };
     let q : Nat := 3;
     let c := s.core p;
     s.clockedPhys core = some p ∧
       c.op op = some o ∧
       o.act = .remote q kind.toNat 0 ∧
       o.status = 0 ∧
       c.traces 4 = false) := by
  refine ⟨?_, ?_, ?_, ?_⟩ <;> decide +kernel

theorem witness_ConvoyComplete :
    (let i : Issue := tIss;
     let src : BitVec 14 := 0;
     let tag : BitVec 16 := 2;
     let qp : BitVec 20 := 3;
     let contrib : BitVec 24 := 2;
     let guard : BitVec 7 := 1;
     let s : State := tI ({ tT [7, 8, 9, 10] [tWb stallBase 8 1] [] with qps := [(3, tQp)] })
       (.convoy i src tag qp contrib guard);
     let p : Nat := 0;
     let w : Waybill := tWb stallBase 8 1;
     let e : Nat := 0x3F800000;
     let c := s.core p;
     let part := s.partNo i.core;
     let x := qp.toNat;
     let u := s.counted p;
     s.Issues i.core (.convoy i src tag qp contrib guard) p (c.pc + 1) ∧
       c.fence = none ∧
       s.checkQp part x = .ok ∧
       (s.qp x).pinned = true ∧
       u.readWb p part i.stm src false = (u, some w) ∧
       u.readScale p part i.stm w = (u, some e) ∧
       u.convoyOk part w tag contrib guard e = true) ∧
    (let s : State := tC { tCore with ops := [{ id := 4, act := .convoy 3 2 true 0, pc := 0, stm := 0 }] };
     let p : Nat := 0;
     let core : Nat := 0;
     let op : Nat := 4;
     let tag : BitVec 16 := 2;
     let o : PorterOp := { id := 4, act := .convoy 3 2 true 0, pc := 0, stm := 0 };
     let q : Nat := 3;
     let clamped : Bool := true;
     let c := s.core p;
     s.clockedPhys core = some p ∧
       c.op op = some o ∧
       o.act = .convoy q tag clamped 0 ∧
       o.status = 0 ∧
       c.traces 4 = false) := by
  refine ⟨?_, ?_⟩ <;> decide +kernel

theorem witness_ConvoyClamp :
    (let g : Nat := 70; let v : BitVec 72 := 1; let b : Int := 2 ^ (71 - g) - 1; g ≤ 70 ∧ (-b ≤ v.toInt ∧ v.toInt ≤ b)) ∧
    (let g : Nat := 70; let v : BitVec 72 := 2; let b : Int := 2 ^ (71 - g) - 1; g ≤ 70 ∧ b < v.toInt) ∧
    (let g : Nat := 70; let v : BitVec 72 := -2; let b : Int := 2 ^ (71 - g) - 1; g ≤ 70 ∧ v.toInt < -b) ∧
    (let g : Nat := 70; g ≤ 70) := by
  refine ⟨?_, ?_, ?_, ?_⟩ <;> decide +kernel

theorem witness_ArrayComplete :
    (let i : Issue := tIss;
     let a : BitVec 14 := 0;
     let b : BitVec 14 := 1;
     let pmode : BitVec 3 := 0;
     let acc : Bool := false;
     let lrow : BitVec 6 := 63;
     let m1 : BitVec 6 := 0;
     let n1 : BitVec 6 := 0;
     let s : State := tI (tW [128, 63, 128, 63] [{ tWb stallBase 1 2 with kaxis := 2 },
           { tWb stallBase 1 2 with kaxis := 2 }]) (.array i a b pmode acc lrow m1 n1);
     let p : Nat := 0;
     let q := s.partNo i.core;
     let u := s.counted p;
     let t : Tile := { pmode := pmode.toNat, lrow := lrow.toNat, m := m1.toNat + 1, n := n1.toNat + 1, acc := acc };
     let v : State := (u.tileOperands p q i.stm t a b).1;
     let o : Operand × Operand := (u.tileOperands p q i.stm t a b).2.getD (⟨tWb 0 0 1, [], false⟩,
         ⟨tWb 0 0 1, [], false⟩);
     let r0 := fun (x : State) => if acc then (x.core p).ledgRun else (x.core p).ledgRun.fresh t.lrow t.m t.n;
     let r := (r0 v).addOrder (chunkJobs t o);
     s.Issues i.core (.array i a b pmode acc lrow m1 n1) p ((s.core p).pc + 1) ∧
       (s.core p).traces 2 = false ∧
       pmode.toNat < 3 ∧
       u.tileOperands p q i.stm t a b = (v, some o) ∧
       (v.core p).lreg.injChunk = false ∧
       (v.core p).traces 2 = false ∧
       (v.core p).pc + 1 < (v.core p).insns.length ∧
       r.stop = none) ∧
    (let i : Issue := tIss;
     let a : BitVec 14 := 0;
     let b : BitVec 14 := 0;
     let pmode : BitVec 3 := 3;
     let acc : Bool := true;
     let lrow : BitVec 6 := 63;
     let m1 : BitVec 6 := 0;
     let n1 : BitVec 6 := 0;
     let s : State := tI (tW [] [tWb stallBase 8 8]) (.array i a b pmode acc lrow m1 n1);
     let p : Nat := 0;
     let w : Waybill := tWb stallBase 8 8;
     let q := s.partNo i.core;
     let u := s.counted p;
     let t : Tile := { pmode := pmode.toNat, lrow := lrow.toNat, m := m1.toNat + 1, n := n1.toNat + 1, acc := acc };
     let r0 := fun (x : State) => if acc then (x.core p).ledgRun else (x.core p).ledgRun.fresh t.lrow t.m t.n;
     let ims := (chunksOf 96 (u.pieceBytes p w) (t.m * t.n)).map parseImage;
     let ri := ((tileIdx t.lrow t.m t.n).zip ims).foldl (fun x e => x.addImage e.1 e.2) (r0 u);
     s.Issues i.core (.array i a b pmode acc lrow m1 n1) p ((s.core p).pc + 1) ∧
       (s.core p).traces 2 = false ∧
       pmode = 3 ∧
       b = 0 ∧
       u.readWb p q i.stm a false = (u, some w) ∧
       imageShape w t.m t.n = true ∧
       t.lrow + t.m ≤ 64 ∧
       u.coreRead p q w.rows i.stm [w.tag] = (u, true) ∧
       ri.stop = none) ∧
    (let i : Issue := tIss;
     let dxA : BitVec 14 := 0;
     let dxB : BitVec 14 := 1;
     let dwA : BitVec 14 := 0;
     let dwB : BitVec 14 := 1;
     let dxAcc : Bool := false;
     let dwAcc : Bool := true;
     let dxM1 : BitVec 5 := 1;
     let dwM1 : BitVec 5 := 1;
     let dxN1 : BitVec 6 := 1;
     let dwN1 : BitVec 6 := 1;
     let s : State := tI (tW [128, 63, 128, 63] [{ tWb stallBase 1 2 with
               kaxis := 2, whole := (1, 2, 2), piece := (0, 1, 1) },
           { tWb stallBase 1 2 with kaxis := 2, whole := (1, 2, 2), piece := (0, 1, 1) }])
       (.arrayi i dxA dxB dwA dwB dxAcc dwAcc dxM1 dwM1 dxN1 dwN1);
     let p : Nat := 0;
     let q := s.partNo i.core;
     let tx : Tile := { pmode := 1, lrow := 0, m := dxM1.toNat + 1, n := dxN1.toNat + 1, acc := dxAcc };
     let v : State := ((s.counted p).tileOperands p q i.stm tx dxA dxB).1;
     let ox : Operand × Operand := ((s.counted p).tileOperands p q i.stm tx dxA dxB).2.getD
       (⟨tWb 0 0 1, [], false⟩, ⟨tWb 0 0 1, [], false⟩);
     let tw : Tile := { pmode := 2, lrow := 32, m := dwM1.toNat + 1, n := dwN1.toNat + 1, acc := dwAcc };
     let v2 : State := (v.tileOperands p q i.stm tw dwA dwB).1;
     let ow : Operand × Operand := (v.tileOperands p q i.stm tw dwA dwB).2.getD (⟨tWb 0 0 1, [], false⟩,
         ⟨tWb 0 0 1, [], false⟩);
     let rx := if dxAcc then (v2.core p).ledgRun else (v2.core p).ledgRun.fresh 0 tx.m tx.n;
     let rw := if dwAcc then rx else rx.fresh 32 tw.m tw.n;
     let r := rw.addOrder (alternate (chunkJobs tx ox) (chunkJobs tw ow));
     s.Issues i.core (.arrayi i dxA dxB dwA dwB dxAcc dwAcc dxM1 dwM1 dxN1 dwN1) p ((s.core p).pc + 1) ∧
       (s.counted p).tileOperands p q i.stm tx dxA dxB = (v, some ox) ∧
       v.tileOperands p q i.stm tw dwA dwB = (v2, some ow) ∧
       (v2.core p).lreg.injChunk = false ∧
       (v2.core p).traces 2 = false ∧
       (v2.core p).pc + 1 < (v2.core p).insns.length ∧
       r.stop = none) := by
  refine ⟨?_, ?_, ?_⟩ <;> decide +kernel

theorem witness_ZerosKeepTheirSign :
    (let fmt : Nat := 4; let scale : Nat := 0x40800000; fmt < 8 ∧ scaleOk false scale = true) := by
  decide +kernel

theorem witness_LedgerAddExact :
    (let e : LedgerEntry := { z := false, l := 5 };
     let r : LedgerEntry := tAdd { z := false, l := 5 } { c := -3, q := 2, side := 0 };
     let v : ChunkVal := { c := -3, q := 2, side := 0 };
     e.z = false ∧
       e.pend.length ≤ 10 ∧
       -384 ≤ v.q ∧
       windowHi v.q ≤ 10 ∧
       -(2 ^ 72) < v.c ∧
       v.c < 2 ^ 72 ∧
       (e.addChunk v).1 = .ok r) ∧
    (let e : LedgerEntry := { z := false, l := 5, pend := [1] };
     let r : LedgerEntry := tResolve { z := false, l := 5, pend := [1] };
     let v : ChunkVal := { c := -3, q := 2, side := 0 };
     e.z = false ∧
       e.pend.length ≤ 10 ∧
       -384 ≤ v.q ∧
       windowHi v.q ≤ 10 ∧
       -(2 ^ 72) < v.c ∧
       v.c < 2 ^ 72 ∧
       e.resolve = .ok r) := by
  refine ⟨?_, ?_⟩ <;> decide +kernel

theorem witness_DrawComplete :
    (let i : Issue := tIss;
     let lrow : BitVec 6 := 63;
     let m1 : BitVec 6 := 0;
     let n1 : BitVec 6 := 0;
     let dst : BitVec 14 := 0;
     let sa : BitVec 14 := 0;
     let sb : BitVec 14 := 0;
     let rmode : BitVec 3 := 0;
     let srbits : BitVec 2 := 0;
     let keep : Bool := false;
     let wm : BitVec 4 := 0;
     let s : State := tI ({ tW [] [tWb stallBase 0 1] with
           cores := [(0,
               { (tW [] [tWb stallBase 0 1]).core 0 with ledger := [(4032, { l := 2 ^ 384, z := false, res := 1 })] })] })
       (.draw i lrow m1 n1 dst rmode srbits keep wm false sa sb);
     let p : Nat := 0;
     let w : Waybill := tWb stallBase 0 1;
     let wa : Waybill := tWb stallBase 0 1;
     let wb : Waybill := tWb stallBase 0 1;
     let da : Dy := scaleDy 0x3F800000;
     let db : Dy := scaleDy 0x3F800000;
     let dd : Dy := scaleDy 0x3F800000;
     let q := s.partNo i.core;
     let c := s.core p;
     let u := s.counted p;
     let v : State := (u.debitStore p w.rows).getD {};
     let rnd : Rounding := { rmode := rmode.toNat, srb := srbits.toNat, conv := c.conv };
     let j : DrawJob := {
         lrow := lrow.toNat, m := m1.toNat + 1, n := n1.toNat + 1, keep := keep, dst := w, rnd := rnd,
         mask := c.maskOf wm.toNat, sa := da, sb := db, sd := dd };
     let d := v.arrBusy p false true;
     let z : State := (d.drawRows p q i.stm j).1;
     s.Issues i.core (.draw i lrow m1 n1 dst rmode srbits keep wm false sa sb) p (c.pc + 1) ∧
       c.fence = none ∧
       j.lrow + j.m ≤ 64 ∧
       wm.toNat ≤ 8 ∧
       rmodeOk rmode.toNat srbits.toNat = true ∧
       u.readWb p q i.stm dst true = (u, some w) ∧
       u.readWb p q i.stm sa false = (u, some wa) ∧
       u.readWb p q i.stm sb false = (u, some wb) ∧
       w.ext 2 = j.n ∧
       w.ext 0 * w.ext 1 = j.m ∧
       u.scaleOf p q i.stm wa = (u, some da) ∧
       u.scaleOf p q i.stm wb = (u, some db) ∧
       u.scaleOf p q i.stm w = (u, some dd) ∧
       u.debitStore p w.rows = some v ∧
       (v.core p).traces 3 = false ∧
       d.drawRows p q i.stm j = (z, true) ∧
       (z.core p).pc + 1 < (z.core p).insns.length) ∧
    (let i : Issue := tIss;
     let lrow : BitVec 6 := 63;
     let m1 : BitVec 6 := 0;
     let n1 : BitVec 6 := 0;
     let dst : BitVec 14 := 0;
     let sa : BitVec 14 := 0;
     let sb : BitVec 14 := 0;
     let rmode : BitVec 3 := 0;
     let srbits : BitVec 2 := 0;
     let keep : Bool := false;
     let wm : BitVec 4 := 0;
     let s : State := tI ({ tW [] [tWb stallBase 0 1] with
           cores := [(0,
               { (tW [] [tWb stallBase 0 1]).core 0 with ledger := [(4032, { l := 2 ^ 384, z := false, res := 1 })] })] })
       (.draw i lrow m1 n1 dst rmode srbits keep wm false sa sb);
     let p : Nat := 0;
     let w : Waybill := tWb stallBase 0 1;
     let wa : Waybill := tWb stallBase 0 1;
     let wb : Waybill := tWb stallBase 0 1;
     let da : Dy := scaleDy 0x3F800000;
     let db : Dy := scaleDy 0x3F800000;
     let dd : Dy := scaleDy 0x3F800000;
     let q := s.partNo i.core;
     let c := s.core p;
     let u := s.counted p;
     let v : State := (u.debitStore p w.rows).getD {};
     let rnd : Rounding := { rmode := rmode.toNat, srb := srbits.toNat, conv := c.conv };
     let j : DrawJob := {
         lrow := lrow.toNat, m := m1.toNat + 1, n := n1.toNat + 1, keep := keep, dst := w, rnd := rnd,
         mask := c.maskOf wm.toNat, sa := da, sb := db, sd := dd };
     let d := v.arrBusy p false true;
     let rr := (d.core p).ledgRun.readRow j.lrow 0 j.n keep;
     let x := (d.talliesAdd p ((tlDRAW, j.n) :: (if rnd.isSr then [(tlSR, j.n)] else []))).setLedger p rr.1;
     let outs := rr.2.zipIdx.map (fun e => j.convert (d.core p).conv.flush 0 e.2 e.1);
     let y := (x.drawFlags p j 0 outs).storeRow p q j 0 outs;
     s.Issues i.core (.draw i lrow m1 n1 dst rmode srbits keep wm false sa sb) p (c.pc + 1) ∧
       c.fence = none ∧
       j.lrow + j.m ≤ 64 ∧
       wm.toNat ≤ 8 ∧
       rmodeOk rmode.toNat srbits.toNat = true ∧
       u.readWb p q i.stm dst true = (u, some w) ∧
       u.readWb p q i.stm sa false = (u, some wa) ∧
       u.readWb p q i.stm sb false = (u, some wb) ∧
       w.ext 2 = j.n ∧
       w.ext 0 * w.ext 1 = j.m ∧
       u.scaleOf p q i.stm wa = (u, some da) ∧
       u.scaleOf p q i.stm wb = (u, some db) ∧
       u.scaleOf p q i.stm w = (u, some dd) ∧
       u.debitStore p w.rows = some v ∧
       (v.core p).traces 3 = false ∧
       m1 = 0 ∧
       (v.core p).lreg.injDraw = false ∧
       rr.1.stop = none ∧
       y.2 = false ∧
       (y.1.core p).pc + 1 < (y.1.core p).insns.length) ∧
    (let i : Issue := tIss;
     let lrow : BitVec 6 := 63;
     let n1 : BitVec 6 := 0;
     let dst : BitVec 14 := 0;
     let keep : Bool := true;
     let s : State := tI ({ tW [] [tWb stallBase 8 8] with
           cores := [(0,
               { (tW [] [tWb stallBase 8 8]).core 0 with ledger := [(4032, { l := 2 ^ 384, z := false, res := 1 })] })] })
       (.draw i lrow 0 n1 dst 0 0 keep 0 true 0 0);
     let p : Nat := 0;
     let w : Waybill := tWb stallBase 8 8;
     let q := s.partNo i.core;
     let c := s.core p;
     let u := s.counted p;
     let v : State := (u.debitStore p w.rows).getD {};
     let n := n1.toNat + 1;
     let d := v.arrBusy p false true;
     let rr := (d.core p).ledgRun.readRow lrow.toNat 0 n keep;
     let x := (d.talliesAdd p [(tlDRAW, n), (tlIMG, n)]).setLedger p rr.1;
     let y : State := (x.coreWrite p q [(w.base, rr.2.flatMap LedgerEntry.image)] i.stm [w.tag]).1;
     s.Issues i.core (.draw i lrow 0 n1 dst 0 0 keep 0 true 0 0) p (c.pc + 1) ∧
       c.fence = none ∧
       lrow.toNat + 1 ≤ 64 ∧
       u.readWb p q i.stm dst true = (u, some w) ∧
       imageShape w 1 n = true ∧
       u.debitStore p w.rows = some v ∧
       (v.core p).traces 3 = false ∧
       (v.core p).lreg.injDraw = false ∧
       rr.1.stop = none ∧
       x.coreWrite p q [(w.base, rr.2.flatMap LedgerEntry.image)] i.stm [w.tag] = (y, true) ∧
       (y.core p).pc + 1 < (y.core p).insns.length) := by
  refine ⟨?_, ?_, ?_⟩ <;> decide +kernel

theorem witness_ConvVecComplete :
    (let i : Issue := tIss;
     let src : BitVec 14 := 0;
     let dst : BitVec 14 := 1;
     let rmode : BitVec 3 := 0;
     let srbits : BitVec 2 := 0;
     let clr : Bool := true;
     let s : State := tI (tW [0, 0, 128, 63] [tWb stallBase 0 1, tWb (stallBase + 0x100) 0 1])
       (.conv i src dst rmode srbits clr);
     let p : Nat := 0;
     let a : Waybill := tWb stallBase 0 1;
     let b : Waybill := tWb (stallBase + 0x100) 0 1;
     let ss : Dy := scaleDy 0x3F800000;
     let sd : Dy := scaleDy 0x3F800000;
     let els : List Nat := [0x3F800000];
     let q := s.partNo i.core;
     let u := s.counted p;
     let v : State := (u.debitStore p b.rows).getD {};
     let rnd : Rounding := { rmode := rmode.toNat, srb := srbits.toNat, conv := (s.core p).conv };
     let flush := (v.core p).conv.flush;
     let outs := convAll a b flush rnd ss sd els;
     let fl := els.any (fun e => (sourceElem a.fmt flush e).2);
     let v0 := if clr then v.modCore p (fun c => (c.modRec a.trec (fun _ => {})).modRec b.trec (fun _ => {})) else v;
     let v1 := v0.modCore p (fun c => (c.modRec a.trec (fun r => r.readFrom fl)).modRec b.trec
         (fun r => r.writtenAll outs));
     let y : State := ((v1.talliesAdd p ((tlCONV, outs.length) :: (if rnd.isSr then [(tlSR, outs.length)] else []))).coreWrite
         p q (b.storeAll (outs.map (fun o => o.2.pat))) i.stm [b.tag]).1;
     s.Issues i.core (.conv i src dst rmode srbits clr) p ((s.core p).pc + 1) ∧
       (s.core p).fence = none ∧
       rmodeOk rmode.toNat srbits.toNat = true ∧
       u.readWb p q i.stm src false = (u, some a) ∧
       u.readWb p q i.stm dst true = (u, some b) ∧
       a.piece = b.piece ∧
       u.scaleOf p q i.stm a = (u, some ss) ∧
       u.scaleOf p q i.stm b = (u, some sd) ∧
       u.readPiece p q i.stm a = (u, some els) ∧
       u.debitStore p b.rows = some v ∧
       (v1.talliesAdd p ((tlCONV, outs.length) :: (if rnd.isSr then [(tlSR, outs.length)] else []))).coreWrite p q
         (b.storeAll (outs.map (fun o => o.2.pat))) i.stm [b.tag] = (y, true) ∧
       (y.core p).pc + 1 < (y.core p).insns.length) ∧
    (let i : Issue := tIss;
     let vop : Byte := 7;
     let rx : BitVec 14 := 0;
     let ry : BitVec 14 := 0;
     let rz : BitVec 14 := 1;
     let rw : BitVec 14 := 0;
     let yrow : Bool := false;
     let imm : Word := 0;
     let s : State := tI (tW [0, 0, 128, 63] [tWb stallBase 0 1, tWb (stallBase + 0x100) 0 1])
       (.vec i vop rx ry rz rw yrow imm);
     let p : Nat := 0;
     let xw : Waybill := tWb stallBase 0 1;
     let yw : Waybill := tWb stallBase 0 1;
     let zw : Waybill := tWb (stallBase + 0x100) 0 1;
     let ww : Waybill := tWb stallBase 0 1;
     let ys : List Nat := [];
     let ws : List Nat := [];
     let q := s.partNo i.core;
     let u := s.counted p;
     let k := vecKind vop.toNat;
     let v1 : State := (u.readVec p q i.stm k.t43 xw).1;
     let v2 : State := v1;
     let v : State := v2;
     let v3 : State := (v.debitStore p zw.rows).getD {};
     let xs : List Nat := (u.readVec p q i.stm k.t43 xw).2.getD [];
     let rows := xw.ext 0 * xw.ext 1;
     let out := vecResults vop.toNat imm.toNat rows (xw.ext 2) (ww.ext 2) xs (if k.y then
         (if yrow then spread (xw.ext 2) ys else ys) else List.replicate xs.length 0) (if k.w then ws else
         List.replicate (rows * ww.ext 2) 0);
     let y : State := ((v3.tallyAdd p tlVEC (out.1.length + out.2.length)).coreWrite p q (zw.storeAll out.1) i.stm
         [zw.tag]).1;
     s.Issues i.core (.vec i vop rx ry rz rw yrow imm) p ((s.core p).pc + 1) ∧
       (s.core p).fence = none ∧
       k.ok = true ∧
       u.readWb p q i.stm rx false = (u, some xw) ∧
       u.readWbIf p q i.stm k.y ry false xw = (u, some yw) ∧
       u.readWb p q i.stm rz true = (u, some zw) ∧
       u.readWbIf p q i.stm (k.w || k.wOut) rw k.wOut xw = (u, some ww) ∧
       vecShape vop.toNat yrow xw yw zw ww = true ∧
       u.readVec p q i.stm k.t43 xw = (v1, some xs) ∧
       v1.readVecIf p q i.stm k.t43 k.y yw = (v2, some ys) ∧
       v2.readVecIf p q i.stm k.t43 k.w ww = (v, some ws) ∧
       v.debitStore p (if k.wOut then zw.rows ++ ww.rows else zw.rows) = some v3 ∧
       (v3.tallyAdd p tlVEC (out.1.length + out.2.length)).coreWrite p q (zw.storeAll out.1 ++
           (if k.wOut then ww.storeAll out.2 else [])) i.stm [zw.tag] = (y, true) ∧
       (y.core p).pc + 1 < (y.core p).insns.length) := by
  refine ⟨?_, ?_⟩ <;> decide +kernel

theorem witness_TallyTraceComplete :
    (let i : Issue := tIss;
     let mask : Word := 1;
     let dst : BitVec 14 := 0;
     let s : State := tI (tC { tCore with sbufs := [(0, { base := 0, size := 256 })] }) (.tally i mask dst);
     let p : Nat := 0;
     let b : Buf := .stall 0;
     let q := s.partNo i.core;
     let u := s.counted p;
     let c := u.core p;
     let r := u.bufRange p b;
     let n := 64 + 16 * (selected mask).length;
     let v : State := (u.debitStore p [(r.1, n)]).getD {};
     let x := v.modCore p (fun c => { c with
           gapTally := c.gapTally.taken, stretchTally := v.afterSample p c.stretchTally mask });
     let y : State := (x.coreWrite p q [(r.1, v.tallyRecord p i.core mask)] i.stm).1;
     s.Issues i.core (.tally i mask dst) p ((s.core p).pc + 1) ∧
       (s.core p).fence = none ∧
       u.bufRef p q i.stm dst = some b ∧
       n ≤ r.2 ∧
       u.debitStore p [(r.1, n)] = some v ∧
       x.coreWrite p q [(r.1, v.tallyRecord p i.core mask)] i.stm = (y, true) ∧
       (y.core p).pc + 1 < (y.core p).insns.length) ∧
    (let i : Issue := tIss;
     let mark : BitVec 16 := 5;
     let payload : Word := 6;
     let s : State := tI (tC { tCore with sbufs := [(0, { base := 0, size := 256 })] }) (.trace i mark payload);
     let p : Nat := 0;
     let u := s.counted p;
     let c := u.core p;
     s.Issues i.core (.trace i mark payload) p ((s.core p).pc + 1) ∧ c.trcEn = false) ∧
    (let i : Issue := tIss;
     let mark : BitVec 16 := 5;
     let payload : Word := 6;
     let s : State := tI (tC { tCore with trcEn := true, trcMask := 1 }) (.trace i mark payload);
     let p : Nat := 0;
     let u := s.counted p;
     let c := u.core p;
     s.Issues i.core (.trace i mark payload) p ((s.core p).pc + 1) ∧
       c.trcEn = true ∧
       c.trcDropped = 0 ∧
       traceFill (c.trace ++ [u.traceRec p 0 mark c.pc i.stm (payload.setWidth 64) 0]) ≤ 2048) := by
  refine ⟨?_, ?_, ?_⟩ <;> decide +kernel

theorem witness_SamplesAndTraceComplete :
    (let s : State := tRun;
     let fn : Nat := 0;
     let n : Nat := 0;
     let k : Nat := 0;
     n < 12 ∧ k < 22 ∧ s.sees fn (.core n k) = true) ∧
    (let s : State := tRun; let fn : Nat := 0; s.sees fn .pf = true) ∧
    (let s : State := tC { tCore with tally := [(0, 5)] };
     let i : Nat := 0;
     (s.cores.map Prod.fst).Nodup ∧ tabRising 0 s.totals = true ∧ i < 32) ∧
    (let s : State := tC { tCore with tally := [(0, 5)], trcEn := true, trcMask := 0x20, trcTmask := 1 };
     let n : Nat := 0;
     let k : Nat := 0;
     let i : Nat := 0;
     let p := 22 * n + k;
     let c := s.core p;
     let v := tabGet 0 c.tally i;
     let r6 := s.traceRec p 6 0 c.pc 0 (v.setWidth 64) (w64 (v.toNat / 2 ^ 64 + 65536 * i + 2 ^ 24 * c.tallySeq.toNat));
     s.clocked = true ∧
       n < 12 ∧
       k < 22 ∧
       c.traces 6 = true ∧
       selected c.trcTmask = [i] ∧
       c.trcDropped = 0 ∧
       traceFill (c.trace ++ [r6]) ≤ 2048) ∧
    (let s : State := { tC { tCore with
           trace := [{
               time := 3, tmark := 0, kind := 0, lcore := 0, tag := 1, pc := 0, stm := 0, gap := none, a := 0, b := 0 }] } with
         parts := [(0,
             { tPart with
                 cfg := some { cores := [(0, 1)], vf := 1, qpCount := 8, windows := [⟨0, false, 0, 0x100000⟩] },
                 trp := { en := true, remote := false, size := 0x100000, qp := 3 } })] };
     let n : Nat := 0;
     let k : Nat := 0;
     let q : Nat := 0;
     let r : TraceRec := {
         time := 3, tmark := 0, kind := 0, lcore := 0, tag := 1, pc := 0, stm := 0, gap := none, a := 0, b := 0 };
     let rest : List TraceRec := [];
     let segs : List (Nat × Nat) := (({ en := true, remote := false, size := 0x100000, qp := 3 } : TraceDest).place 0
         ({ time := 3, tmark := 0, kind := 0, lcore := 0, tag := 1, pc := 0, stm := 0, gap := none, a := 0, b := 0 } :
           TraceRec).bytes.length).getD [];
     let p := 22 * n + k;
     let c := s.core p;
     let t := (s.part q).trp;
     let pieces := sliceAt segs r.bytes;
     let at_ := pieces.map (fun e => (t.base.toNat + e.1, e.2));
     s.clocked = true ∧
       n < 12 ∧
       k < 22 ∧
       s.partOfPhys p = some q ∧
       c.trace = r :: rest ∧
       t.en = true ∧
       t.seg ≠ 0 ∧
       t.place n r.bytes.length = some segs ∧
       t.remote = false ∧
       ((∀ e ∈ at_, s.admitted q false true e.1 e.2.length = true))) ∧
    (let s : State := { tC { tCore with
           trace := [{
               time := 3, tmark := 0, kind := 0, lcore := 0, tag := 1, pc := 0, stm := 0, gap := none, a := 0, b := 0 }] } with
         parts := [(0,
               { tPart with
                   cfg := some { cores := [(0, 1)], vf := 1, qpCount := 8, windows := [⟨0, false, 0, 0x100000⟩] },
                   trp := { en := true, remote := true, size := 0x100000, qp := 3 } })], qps := [(3, tQp)] };
     let n : Nat := 0;
     let k : Nat := 0;
     let q : Nat := 0;
     let r : TraceRec := {
         time := 3, tmark := 0, kind := 0, lcore := 0, tag := 1, pc := 0, stm := 0, gap := none, a := 0, b := 0 };
     let rest : List TraceRec := [];
     let segs : List (Nat × Nat) := (({ en := true, remote := true, size := 0x100000, qp := 3 } : TraceDest).place 0
         ({ time := 3, tmark := 0, kind := 0, lcore := 0, tag := 1, pc := 0, stm := 0, gap := none, a := 0, b := 0 } :
           TraceRec).bytes.length).getD [];
     let p := 22 * n + k;
     let c := s.core p;
     let t := (s.part q).trp;
     s.clocked = true ∧
       n < 12 ∧
       k < 22 ∧
       s.partOfPhys p = some q ∧
       c.trace = r :: rest ∧
       t.en = true ∧
       t.seg ≠ 0 ∧
       t.place n r.bytes.length = some segs ∧
       t.remote = true ∧
       s.traceQpOk q = true) := by
  refine ⟨?_, ?_, ?_, ?_, ?_, ?_⟩ <;> decide +kernel

theorem witness_LogbookComplete :
    (let s : State := tRun; let fn : Nat := 0; s.sees fn .logbook = true) ∧
    (let s : State := { tRun with fns := [(0, { bound := true, view := { valid := 1, cursor := 3 } })] };
     let fn : Nat := 0;
     let x := (s.fn fn).view;
     s.sees fn .logbook = true ∧ x.auto = false) ∧
    (let s : State := { tRun with fns := [(0, { bound := true, view := { auto := true, valid := 1, cursor := 3 } })] };
     let fn : Nat := 0;
     let x := (s.fn fn).view;
     s.sees fn .logbook = true ∧ x.auto = true) ∧
    (let s : State := { tRun with
         log := {
           staging := [{
                 time := 0, code := 0, status := 0, part := 0, cont := false, tmark := 0, die := 0, suppressed := 0,
                 gap := none, args := [], snaps := [] },
             {
                 time := 0, code := 0, status := 0, part := 0, cont := false, tmark := 0, die := 0, suppressed := 0,
                 gap := none, args := [], snaps := [] },
             {
                 time := 0, code := 0, status := 0, part := 0, cont := false, tmark := 0, die := 0, suppressed := 0,
                 gap := none, args := [], snaps := [] }] } };
     3 ≤ s.log.staging.length) := by
  refine ⟨?_, ?_, ?_, ?_⟩ <;> decide +kernel

theorem witness_ControlCommandsComplete :
    (let s : State := tCmd (tIn .idle) 0 0 0; let h : CmdHdr := tHdr; s.Accepts h 0x00 0 0) ∧
    (let s : State := tCmd { tIn .idle with mem := { hbm := tImage }, cores := [] } 1 0 0;
     let h : CmdHdr := tHdr;
     let image : BitVec 48 := 0;
     let resume : Bool := false;
     let q := h.part;
     let t := s.takeDesc h.fn h.q;
     let img := (t.unclean q).load image.toNat q resume;
     s.Accepts h 0x01 (2 * b2n resume) image.toNat ∧ img.2 = scOk) ∧
    (let s : State := tCmd (tIn .loaded) 2 0 0; let h : CmdHdr := tHdr; s.Accepts h 0x02 0 0) ∧
    (let s : State := tCmd (tIn .loaded) 2 0 0;
     let h : CmdHdr := tHdr;
     let l : Nat := 0;
     let p : Nat := 0;
     let q := h.part;
     let t := s.takeDesc h.fn h.q;
     s.Accepts h 0x02 0 0 ∧ l ∈ (t.part q).usedCores ∧ t.physOf l = some p) ∧
    (let s : State := tCmd (tIn .running) 3 0 0; let h : CmdHdr := tHdr; s.Accepts h 0x03 0 0) ∧
    (let s : State := tCmd (tIn .paused) 4 0 0; let h : CmdHdr := tHdr; s.Accepts h 0x04 0 0) ∧
    (let s : State := tCmd (tIn .running) 5 0 0; let h : CmdHdr := tHdr; s.Accepts h 0x05 0 0) ∧
    (let s : State := tCmd { tIn .running with
         dies := [(0, { dbufs := [(0, { owner := 0, base := 0, size := 256, free := 1 })] })] } 6 0 65536;
     let h : CmdHdr := tHdr;
     let die : BitVec 4 := 0;
     let buf : BitVec 8 := 0;
     let n : BitVec 8 := 1;
     let e : Nat × DepotBuf := (0, { owner := 0, base := 0, size := 256, free := 1 });
     let q := h.part;
     let t := s.takeDesc h.fn h.q;
     s.Accepts h 0x06 0 (die.toNat + 256 * buf.toNat + 65536 * n.toNat) ∧
       (t.die die.toNat).dbufs.find? (fun e => e.1 == buf.toNat && e.2.owner == q) = some e ∧
       t.tok 0 (.depot die.toNat buf.toNat) + n.toNat ≤ 255) := by
  refine ⟨?_, ?_, ?_, ?_, ?_, ?_, ?_, ?_⟩ <;> decide +kernel

theorem witness_RejectedCommandsOnlyComplete :
    (let s : State := tCmd (tIn .running) 1 0 0;
     let h : CmdHdr := tHdr;
     let image : BitVec 48 := 0;
     let re : Bool := false;
     let taken := fun (code flags args : Nat) => s.takes h (descOf h code flags args) = true ∧
       s.mod.recovery = false ∧
       s.unbound h.fn = false ∧
       s.exists_ h.part = true ∧
       (h.fn = 0 ∨ (s.fn h.fn).part.toNat = h.part);
     let legal := fun (code flags : Nat) => (s.part h.part).legal code (bitAt flags 1);
     taken 0x01 (2 * b2n re) image.toNat ∧ legal 0x01 (2 * b2n re) = false) ∧
    (let s : State := tCmd (tIn .idle) 2 0 0;
     let h : CmdHdr := tHdr;
     let taken := fun (code flags args : Nat) => s.takes h (descOf h code flags args) = true ∧
       s.mod.recovery = false ∧
       s.unbound h.fn = false ∧
       s.exists_ h.part = true ∧
       (h.fn = 0 ∨ (s.fn h.fn).part.toNat = h.part);
     let legal := fun (code flags : Nat) => (s.part h.part).legal code (bitAt flags 1);
     taken 0x02 0 0 ∧ legal 0x02 0 = false) ∧
    (let s : State := tCmd (tIn .idle) 3 0 0;
     let h : CmdHdr := tHdr;
     let taken := fun (code flags args : Nat) => s.takes h (descOf h code flags args) = true ∧
       s.mod.recovery = false ∧
       s.unbound h.fn = false ∧
       s.exists_ h.part = true ∧
       (h.fn = 0 ∨ (s.fn h.fn).part.toNat = h.part);
     let legal := fun (code flags : Nat) => (s.part h.part).legal code (bitAt flags 1);
     taken 0x03 0 0 ∧ legal 0x03 0 = false) ∧
    (let s : State := tCmd (tIn .idle) 4 0 0;
     let h : CmdHdr := tHdr;
     let taken := fun (code flags args : Nat) => s.takes h (descOf h code flags args) = true ∧
       s.mod.recovery = false ∧
       s.unbound h.fn = false ∧
       s.exists_ h.part = true ∧
       (h.fn = 0 ∨ (s.fn h.fn).part.toNat = h.part);
     let legal := fun (code flags : Nat) => (s.part h.part).legal code (bitAt flags 1);
     taken 0x04 0 0 ∧ legal 0x04 0 = false) ∧
    (let s : State := tCmd (tIn .idle) 5 0 0;
     let h : CmdHdr := tHdr;
     let taken := fun (code flags args : Nat) => s.takes h (descOf h code flags args) = true ∧
       s.mod.recovery = false ∧
       s.unbound h.fn = false ∧
       s.exists_ h.part = true ∧
       (h.fn = 0 ∨ (s.fn h.fn).part.toNat = h.part);
     let legal := fun (code flags : Nat) => (s.part h.part).legal code (bitAt flags 1);
     taken 0x05 0 0 ∧ legal 0x05 0 = false) ∧
    (let s : State := tCmd (tIn .running) 6 0 65536;
     let h : CmdHdr := tHdr;
     let die : BitVec 4 := 0;
     let buf : BitVec 8 := 0;
     let n : BitVec 8 := 1;
     let taken := fun (code flags args : Nat) => s.takes h (descOf h code flags args) = true ∧
       s.mod.recovery = false ∧
       s.unbound h.fn = false ∧
       s.exists_ h.part = true ∧
       (h.fn = 0 ∨ (s.fn h.fn).part.toNat = h.part);
     let legal := fun (code flags : Nat) => (s.part h.part).legal code (bitAt flags 1);
     let t := s.takeDesc h.fn h.q;
     let token := die.toNat + 256 * buf.toNat + 65536 * n.toNat;
     taken 0x06 0 token ∧
       (legal 0x06 0 = false ∨ (t.die die.toNat).dbufs.find? (fun e => e.1 == buf.toNat && e.2.owner == h.part) = none)) ∧
    (let s : State := tCmd { tIn .idle with regions := [(0, { st := .valid })] } 9 0 (0x1000 + 2 ^ 64 * 4096 + 2 ^ 128
         * 4096 + 2 ^ 192);
     let h : CmdHdr := tHdr;
     let base : BitVec 48 := 4096;
     let size : BitVec 48 := 4096;
     let rkey : Word := 0x1000;
     let rights : BitVec 3 := 1;
     let slot : BitVec 6 := 0;
     let taken := fun (code flags args : Nat) => s.takes h (descOf h code flags args) = true ∧
       s.mod.recovery = false ∧
       s.unbound h.fn = false ∧
       s.exists_ h.part = true ∧
       (h.fn = 0 ∨ (s.fn h.fn).part.toNat = h.part);
     let legal := fun (code flags : Nat) => (s.part h.part).legal code (bitAt flags 1);
     let t := s.takeDesc h.fn h.q;
     let reg := rkey.toNat + 2 ^ 64 * base.toNat + 2 ^ 128 * size.toNat + 2 ^ 192 * rights.toNat + 2 ^ 200 *
       slot.toNat;
     let i := rkey.toNat % 4096;
     taken 0x09 0 reg ∧ (legal 0x09 0 = false ∨ (t.regionOwned h.part i = true ∧ (t.region i).st ≠ .invalid))) ∧
    (let s : State := tCmd (tIn .idle) 10 0 0x1000;
     let h : CmdHdr := tHdr;
     let rkey : Word := 0x1000;
     let taken := fun (code flags args : Nat) => s.takes h (descOf h code flags args) = true ∧
       s.mod.recovery = false ∧
       s.unbound h.fn = false ∧
       s.exists_ h.part = true ∧
       (h.fn = 0 ∨ (s.fn h.fn).part.toNat = h.part);
     let t := s.takeDesc h.fn h.q;
     let i := rkey.toNat % 4096;
     taken 0x0A 0 rkey.toNat ∧ t.regionOwned h.part i = true ∧ (t.region i).st ≠ .valid) ∧
    (let s : State := tCmd (tIn .running) 11 0 (2 ^ 64 * 7144);
     let h : CmdHdr := tHdr;
     let blob : KeyBlob := tBlobOf [] 0 (tTrailer 4 []);
     let taken := fun (code flags args : Nat) => s.takes h (descOf h code flags args) = true ∧
       s.mod.recovery = false ∧
       s.unbound h.fn = false ∧
       s.exists_ h.part = true ∧
       (h.fn = 0 ∨ (s.fn h.fn).part.toNat = h.part);
     let legal := fun (code flags : Nat) => (s.part h.part).legal code (bitAt flags 1);
     taken 0x0B 0 (2 ^ 64 * (blob.len % 2 ^ 32)) ∧ legal 0x0B 0 = false) ∧
    (let s : State := tCmd (tIn .running) 12 0 0;
     let h : CmdHdr := tHdr;
     let taken := fun (code flags args : Nat) => s.takes h (descOf h code flags args) = true ∧
       s.mod.recovery = false ∧
       s.unbound h.fn = false ∧
       s.exists_ h.part = true ∧
       (h.fn = 0 ∨ (s.fn h.fn).part.toNat = h.part);
     let legal := fun (code flags : Nat) => (s.part h.part).legal code (bitAt flags 1);
     taken 0x0C 0 0 ∧ legal 0x0C 0 = false) := by
  refine ⟨?_, ?_, ?_, ?_, ?_, ?_, ?_, ?_, ?_, ?_⟩ <;> decide +kernel

theorem witness_SwitchesComplete :
    (let s : State := tP { tPart with switching := some (.stop ⟨0, 1, 7, 5⟩) };
     let q : Nat := 0;
     let c : CmdRef := ⟨0, 1, 7, 5⟩;
     let old := s.part q;
     s.clocked = true ∧
       q < 16 ∧
       s.recalled q = true ∧
       old.switching = some (.stop c) ∧
       s.mod.taking.contains q = false) ∧
    (let s : State := { tC { tCore with
           st := .running, wait := .fence, pc := 2, xreg := [], tolls := [(1, 2)],
           ledger := [(4032, { l := 2 ^ 384, z := false })] } with
         parts := [(0,
             { tPart with
                 st := .recovering, recovery := some { status := 5, quarantine := [], recalled := false },
                 rpStart := true, rpMid := 9,
                 snapshots := [(0,
                       { pc := 1, loops := [], xreg := [(1, 7)], streams := [], conv := {}, recs := [], wmask := [] })] })] };
     let q : Nat := 0;
     let r : Recovery := { status := 5, quarantine := [], recalled := false };
     let old := s.part q;
     s.clocked = true ∧ old.recovery = some r ∧ r.recalled = false ∧ s.localsDone q = true) ∧
    (let s : State := { tC { tCore with
           st := .running, wait := .fence, pc := 2, xreg := [], tolls := [(1, 2)],
           ledger := [(4032, { l := 2 ^ 384, z := false })] } with
         parts := [(0,
             { tPart with
                 st := .recovering, recovery := some { status := 5, quarantine := [], recalled := false },
                 rpStart := false, rpMid := 9,
                 snapshots := [(0,
                       { pc := 1, loops := [], xreg := [(1, 7)], streams := [], conv := {}, recs := [], wmask := [] })] })] };
     let q : Nat := 0;
     let r : Recovery := { status := 5, quarantine := [], recalled := false };
     let old := s.part q;
     s.clocked = true ∧ old.recovery = some r ∧ r.recalled = false ∧ s.localsDone q = true) ∧
    (let s : State := { tC { tCore with
           st := .running, wait := .fence, pc := 2, xreg := [], tolls := [(1, 2)],
           ledger := [(4032, { l := 2 ^ 384, z := false })] } with
         parts := [(0,
             { tPart with
                 st := .recovering, recovery := some { status := 5, quarantine := [0], recalled := false },
                 rpStart := true, rpMid := 9,
                 snapshots := [(0,
                       { pc := 1, loops := [], xreg := [(1, 7)], streams := [], conv := {}, recs := [], wmask := [] })] })] };
     let q : Nat := 0;
     let r : Recovery := { status := 5, quarantine := [0], recalled := false };
     let old := s.part q;
     s.clocked = true ∧ old.recovery = some r ∧ r.recalled = false ∧ s.localsDone q = true) := by
  refine ⟨?_, ?_, ?_, ?_⟩ <;> decide +kernel

theorem witness_DataCommandsComplete :
    (let s : State := tCmd (tIn .idle) 7 0 (copyArgs 64 4092 8 0 0);
     let u : State := ((((tCmd (tIn .idle) 7 0 (copyArgs 64 4092 8 0 0)).takeDesc 0 1).unclean 0).copyWrite 4092
         [1, 2, 3, 4, 5, 6, 7, 8]).1;
     let h : CmdHdr := tHdr;
     let host : DWord := 64;
     let dev : BitVec 48 := 4092;
     let len : Word := 8;
     let stream : Word := 0;
     let slot : BitVec 6 := 0;
     let data : List Byte := [1, 2, 3, 4, 5, 6, 7, 8];
     let q := h.part;
     let n := len.toNat;
     let t := s.takeDesc h.fn h.q;
     let ref := CmdHdr.ref h;
     s.Accepts h 0x07 0 (copyArgs host dev len slot stream.toNat) ∧
       data.length = n ∧
       (t.cus q).protected_ = false ∧
       t.admitted q false true dev.toNat n = true ∧
       t.copyLost (ref 7) = false ∧
       (t.unclean q).copyWrite dev.toNat data = (u, { moved := n })) ∧
    (let s : State := tCmd ({ tIn .idle with customs := { slots := [(0, { kind := .host })] } }) 7 1
       (copyArgs 64 4092 8 0 9);
     let h : CmdHdr := tHdr;
     let host : DWord := 64;
     let dev : BitVec 48 := 4092;
     let len : Word := 8;
     let stream : Word := 9;
     let slot : BitVec 6 := 0;
     let chunks : List Chunk := [⟨[1, 2, 3, 4, 5, 6, 7, 8],
           Config.gcmTag 0 (chunkNonce 9 0) (chunkAad 9 0 true false) [1, 2, 3, 4, 5, 6, 7, 8]⟩];
     let q := h.part;
     let n := len.toNat;
     let t := s.takeDesc h.fn h.q;
     let ref := CmdHdr.ref h;
     let u : State := ((t.unclean q).copyChunks (ref 7) (t.keySlot slot.toNat).keyA stream.toNat dev.toNat 0 chunks {}).1;
     s.Accepts h 0x07 1 (copyArgs host dev len slot stream.toNat) ∧
       chunksFit n chunks = true ∧
       t.slotIn q slot.toNat = true ∧
       t.admitted q false true dev.toNat n = true ∧
       (t.unclean q).copyChunks (ref 7) (t.keySlot slot.toNat).keyA stream.toNat dev.toNat 0 chunks {} =
         (u, { moved := n }, true)) ∧
    (let s : State := tCmd ({ tIn .idle with mem := { hbm := [(4092, 5)] } }) 8 0 (copyArgs 64 4092 8 0 0);
     let h : CmdHdr := tHdr;
     let host : DWord := 64;
     let dev : BitVec 48 := 4092;
     let len : Word := 8;
     let slot : BitVec 6 := 0;
     let q := h.part;
     let n := len.toNat;
     let t := s.takeDesc h.fn h.q;
     let ref := CmdHdr.ref h;
     let segs := State.lines dev.toNat n;
     s.Accepts h 0x08 0 (copyArgs host dev len slot 0) ∧
       (t.cus q).protected_ = false ∧
       t.admitted q false false dev.toNat n = true ∧
       t.copyLost (ref 8) = false ∧
       t.uncorrIn 0 segs = false ∧
       ((∀ r ∈ segs, t.lineFailed r = false))) ∧
    (let s : State := tCmd ({ { tIn .idle with customs := { slots := [(0, { kind := .host })] } } with
           mem := { hbm := [(4092, 5)] } }) 8 1 (copyArgs 64 4092 8 0 0);
     let h : CmdHdr := tHdr;
     let host : DWord := 64;
     let dev : BitVec 48 := 4092;
     let len : Word := 8;
     let slot : BitVec 6 := 0;
     let q := h.part;
     let n := len.toNat;
     let t := s.takeDesc h.fn h.q;
     let ref := CmdHdr.ref h;
     let segs := State.lines dev.toNat n;
     let k := t.keySlot slot.toNat;
     let v := t.setKeySlot slot.toNat { k with stream := k.stream + 1 };
     s.Accepts h 0x08 1 (copyArgs host dev len slot 0) ∧
       (t.slotsOf q).contains slot.toNat = true ∧
       k.kind = .host ∧
       k.stream ≤ 0xFFFFFFFF ∧
       t.admitted q false false dev.toNat n = true ∧
       v.copyLost (ref 8) = false ∧
       v.uncorrIn 0 segs = false ∧
       ((∀ r ∈ segs, v.lineFailed r = false))) ∧
    (let s : State := tCmd (tKeyed) 11 0 (2 ^ 64 * 7144);
     let h : CmdHdr := tHdr;
     let blob : KeyBlob := tBlob;
     let es : List KeyEntry := [keyEntry tPlain];
     let q := h.part;
     let t := s.takeDesc h.fn h.q;
     s.Accepts h 0x0B 0 (2 ^ 64 * (blob.len % 2 ^ 32)) ∧ t.blobCheck q blob = .ok es) ∧
    (let s : State := tCmd (tIn .idle) 12 0 (0); let h : CmdHdr := tHdr; s.Accepts h 0x0C 0 0) ∧
    (let s : State := { tIn .idle with
         cusParts := [(0, { scrub := some ⟨0, 1, 7, 12⟩ })], mem := { hbm := [(8191, 5)] } };
     let c : CmdRef := ⟨0, 1, 7, 12⟩;
     let part : Nat := 0;
     s.clocked = true ∧ part < 16 ∧ (s.cus part).scrub = some c) := by
  refine ⟨?_,
    ⟨by decide +kernel, by decide +kernel, by decide +kernel, by decide +kernel, pair_eq (chunk_ok rfl (by decide +kernel))⟩,
    ?_, ?_,
    ⟨by decide +kernel, blob_ok (by rfl) (by rfl) (by rfl) (by rfl) (by decide +kernel)⟩,
    ?_, ?_⟩ <;> decide +kernel

theorem witness_RegionsComplete :
    (let s : State := tCmd ({ tIn .idle with customs := { slots := [(0, { kind := .link })] } }) 9 0
       (4096 + 2 ^ 64 * 4096 + 2 ^ 128 * 4096 + 2 ^ 192);
     let h : CmdHdr := tHdr;
     let rkey : Word := 4096;
     let base : BitVec 48 := 4096;
     let size : BitVec 48 := 4096;
     let rights : BitVec 3 := 1;
     let slot : BitVec 6 := 0;
     let q := h.part;
     let t := s.takeDesc h.fn h.q;
     let k := rkey.toNat % 4096;
     s.Accepts h 0x09 0 (rkey.toNat + 2 ^ 64 * base.toNat + 2 ^ 128 * size.toNat + 2 ^ 192 * rights.toNat + 2 ^ 200 *
           slot.toNat) ∧
       t.regionOwned q k = true ∧
       (t.region k).st = .invalid ∧
       rkey.toNat / 4096 ≠ 0 ∧
       base.toNat % 4096 = 0 ∧
       size.toNat % 4096 = 0 ∧
       size ≠ 0 ∧
       rights ≠ 0 ∧
       t.linkSlot q slot.toNat = true ∧
       t.oneWindow q base.toNat size.toNat = true) ∧
    (let s : State := tCmd ({ tIn .idle with regions := [(0, { st := .valid, tag := 1 })] }) 10 0 (4096);
     let h : CmdHdr := tHdr;
     let rkey : Word := 4096;
     let q := h.part;
     let t := s.takeDesc h.fn h.q;
     let k := rkey.toNat % 4096;
     s.Accepts h 0x0A 0 rkey.toNat ∧
       t.regionOwned q k = true ∧
       (t.region k).st = .valid ∧
       (t.region k).tag.toNat = rkey.toNat / 4096) ∧
    (let s : State := { tIn .idle with regions := [(0, { st := .draining, tag := 1, revoke := some ⟨0, 1, 7, 10⟩ })] };
     let i : Nat := 0;
     let c : CmdRef := ⟨0, 1, 7, 10⟩;
     let x := s.region i;
     s.clocked = true ∧ x.st = .draining ∧ x.inflight = 0 ∧ x.revoke = some c) ∧
    (let s : State := { tIn .idle with regions := [(0, { st := .draining, tag := 1 })] };
     let i : Nat := 0;
     let x := s.region i;
     s.clocked = true ∧ x.st = .draining ∧ x.inflight = 0 ∧ x.revoke = none) := by
  refine ⟨?_, ?_, ?_, ?_⟩ <;> decide +kernel

theorem witness_ManifestsComplete :
    (let s : State := { tIn .idle with
         time := { st := .locked }, customs := { anchor := some tAnchor },
         fns := [(0, tQueue [descOf { tHdr with part := 16 } 13 0 (2 ^ 64 * 5504)])] };
     let h : CmdHdr := { tHdr with part := 16 };
     let len : Nat := 5504;
     let obj : ManifestObj := tMan 10000000;
     let m : Manifest := tManifest 10000000;
     let t := s.takeDesc h.fn h.q;
     s.takes h (descOf h 0x0D 0 (2 ^ 64 * len)) = true ∧
       s.mod.recovery = false ∧
       s.unbound h.fn = false ∧
       h.fn = 0 ∧
       s.mod.staged = none ∧
       t.checkManifest len obj = .accepted m ∧
       m.tAct ≠ 0) ∧
    (let s : State := { tIn .idle with
         time := { st := .locked }, customs := { anchor := some tAnchor },
         fns := [(0, tQueue [descOf { tHdr with part := 16 } 13 0 (2 ^ 64 * 5504)])] };
     let h : CmdHdr := { tHdr with part := 16 };
     let len : Nat := 5504;
     let obj : ManifestObj := tMan 0;
     let m : Manifest := tManifest 0;
     let t := s.takeDesc h.fn h.q;
     s.takes h (descOf h 0x0D 0 (2 ^ 64 * len)) = true ∧
       s.mod.recovery = false ∧
       s.unbound h.fn = false ∧
       h.fn = 0 ∧
       s.mod.staged = none ∧
       t.checkManifest len obj = .accepted m ∧
       m.tAct = 0) ∧
    (let s : State := { tRun with
         mod := {
           state := .run, staged := some { epoch := 3, parts := [], extents := [16, 1, 1, 1, 1, 1] }, affected := [0] } };
     let m : Manifest := { epoch := 3, parts := [], extents := [16, 1, 1, 1, 1, 1] };
     (s.mod.state = .ready ∨ s.mod.state = .run) ∧ s.mod.staged = some m) ∧
    (let s : State := { tRun with
         mod := { state := .ready, staged := some { epoch := 3, parts := [], extents := [16, 1, 1, 1, 1, 1] } } };
     let m : Manifest := { epoch := 3, parts := [], extents := [16, 1, 1, 1, 1, 1] };
     (s.mod.state = .ready ∨ s.mod.state = .run) ∧ s.mod.staged = some m) ∧
    (let s : State := { tRun with
         mod := { state := .ready, staged := some { epoch := 3, parts := [], extents := [16, 1, 1, 1, 1, 1] } } };
     let m : Manifest := { epoch := 3, parts := [], extents := [16, 1, 1, 1, 1, 1] };
     (s.mod.state = .ready ∨ s.mod.state = .run) ∧ s.mod.staged = some m ∧ s.mod.state = .ready) ∧
    (let s : State := { tRun with mod := { state := .run, staged := some { epoch := 3, tAct := 10000000 } } };
     let m : Manifest := { epoch := 3, tAct := 10000000 };
     let fn : Nat := 0;
     s.sees fn .module = true ∧ s.mod.staged = some m ∧ s.now.toNat + 1000000 ≤ m.tAct.toNat) ∧
    (let s : State := { tRun with mod := { state := .run, reassigning := true, taking := [0] } };
     let q : Nat := 0;
     s.clocked = true ∧
       q < 16 ∧
       s.mod.reassigning = true ∧
       s.mod.taking.contains q = true ∧
       (s.part q).switching = none ∧
       (s.part q).st ≠ .idle) ∧
    (let s : State := { tP { tPart with st := .idle, switching := some .held } with
         mod := {
           state := .run, inForce := some { epoch := 3, parts := [], extents := [16, 1, 1, 1, 1, 1] },
           reassigning := true, taking := [0], stopped := [0] } };
     let m : Manifest := { epoch := 3, parts := [], extents := [16, 1, 1, 1, 1, 1] };
     s.clocked = true ∧ s.mod.reassigning = true ∧ s.allHeld = true ∧ s.mod.inForce = some m) := by
  refine ⟨⟨by decide +kernel, by decide +kernel, by decide +kernel, by decide +kernel, by decide +kernel, man_accepted rfl man_framed.2 man_parsed.2 (by decide +kernel) (by decide +kernel) (by decide +kernel) (by decide +kernel) (by decide +kernel) (by decide +kernel), by decide +kernel⟩,
    ⟨by decide +kernel, by decide +kernel, by decide +kernel, by decide +kernel, by decide +kernel, man_accepted rfl man_framed.1 man_parsed.1 (by decide +kernel) (by decide +kernel) (by decide +kernel) (by decide +kernel) (by decide +kernel) (by decide +kernel), by decide +kernel⟩,
    ?_, ?_, ?_, ?_, ?_, ?_⟩ <;> decide +kernel

theorem witness_PlacementsComplete :
    (let s : State := tP { tPart with
         cfg := some { cores := [(0, 1)], windows := [⟨0, true, 0, 8192⟩], quotaHbm := 1 },
         mem := { plcIdx := 63, plcBase := 4096, plcSize := 1, plcClass := 7 } };
     let fn : Nat := 0;
     let q : Nat := 0;
     let m := (s.part q).mem;
     let size := 4096 * m.plcSize.toNat;
     s.sees fn (.part q) = true ∧
       m.plcBusy = false ∧
       s.placeCheck q m.plcIdx.toNat m.plcBase.toNat size m.plcClass.toNat = scOk) ∧
    (let s : State := tP { tPart with
         cfg := some { cores := [(0, 1)], windows := [⟨0, true, 0, 8192⟩], quotaHbm := 1 },
         mem := { plcIdx := 1, placements := [(1, { base := 4096, size := 4096, cls := 2 })] } };
     let fn : Nat := 0;
     let q : Nat := 0;
     let e : Placement := { base := 4096, size := 4096, cls := 2 };
     let m := (s.part q).mem;
     s.sees fn (.part q) = true ∧ m.plcBusy = false ∧ m.placements.any (fun e => e.1 == m.plcIdx.toNat) = true) ∧
    (let s : State := tP { tPart with
         cfg := some { cores := [(0, 1)], windows := [⟨0, true, 0, 8192⟩], quotaHbm := 1 },
         mem := { plcIdx := 1, placements := [(1, { base := 4096, size := 4096, cls := 2 })] } };
     let fn : Nat := 0;
     let q : Nat := 0;
     let i : Nat := 1;
     let e : Placement := { base := 4096, size := 4096, cls := 2 };
     let m := (s.part q).mem;
     s.sees fn (.part q) = true ∧
       m.plcBusy = false ∧
       m.placements.find? (fun e => e.1 == m.plcIdx.toNat) = some (i, e)) ∧
    (let s : State := tP { tPart with
         cfg := some { cores := [(0, 1)], windows := [⟨0, true, 0, 8192⟩], quotaHbm := 1 },
         mem := { plcBusy := true, removing := some 1, placements := [(1, { base := 4096, size := 4096, cls := 2 })] } };
     let q : Nat := 0;
     let i : Nat := 1;
     let e : Placement := { base := 4096, size := 4096, cls := 2 };
     let m := (s.part q).mem;
     s.clocked = true ∧
       m.removing = some i ∧
       m.placements.find? (fun e => e.1 == i) = some (i, e) ∧
       s.rangeBusy e.base e.size = false) := by
  refine ⟨?_, ?_, ?_, ?_⟩ <;> decide +kernel

theorem witness_QueuePairsComplete :
    (let s : State := { tP { tPart with
           cfg := some {
               cores := [(0, 1)], qpCount := 8, keyCount := 1, windows := [⟨0, false, 0, 0x100000⟩],
               pinQuota := [0, 0, 0, 1] }, mem := { placements := [(0, { base := 0, size := 4096, cls := 2 })] } } with
         qps := [], pages := [(48, { idx := 3, peer := 5 })], customs := { slots := [(0, { kind := .link })] } };
     let fn : Nat := 0;
     let m : Nat := 3;
     let p : Nat := 0;
     let q := (s.page m p).idx.toNat;
     let x := s.qp q;
     s.sees fn (.part p) = true ∧
       s.clocked = true ∧
       m < 6 ∧
       p < 16 ∧
       (s.page m p).busy = false ∧
       s.ownsQp p q = true ∧
       homeOf q = m ∧
       (s.porter m).fetching.contains q = false ∧
       x.st = .free ∧
       s.createCheck m p q = scOk) ∧
    (let s : State := { tP { tPart with
           cfg := some {
               cores := [(0, 1)], qpCount := 8, keyCount := 1, windows := [⟨0, false, 0, 0x100000⟩],
               pinQuota := [0, 0, 0, 1] }, mem := { placements := [(0, { base := 0, size := 4096, cls := 2 })] } } with
         qps := [(3, tQp)], pages := [(48, { idx := 3, peer := 5 })], customs := { slots := [(0, { kind := .link })] } };
     let fn : Nat := 0;
     let m : Nat := 3;
     let p : Nat := 0;
     let q := (s.page m p).idx.toNat;
     let x := s.qp q;
     s.sees fn (.part p) = true ∧
       s.clocked = true ∧
       m < 6 ∧
       p < 16 ∧
       (s.page m p).busy = false ∧
       s.ownsQp p q = true ∧
       homeOf q = m ∧
       (s.porter m).fetching.contains q = false ∧
       x.st ≠ .free) ∧
    (let s : State := { tP { tPart with
           cfg := some {
               cores := [(0, 1)], qpCount := 8, keyCount := 1, windows := [⟨0, false, 0, 0x100000⟩],
               pinQuota := [0, 0, 0, 1] }, mem := { placements := [(0, { base := 0, size := 4096, cls := 2 })] } } with
         qps := [(3, { tQp with pinned := false })], pages := [(48, { idx := 3, peer := 5 })],
         customs := { slots := [(0, { kind := .link })] } };
     let fn : Nat := 0;
     let m : Nat := 3;
     let p : Nat := 0;
     let q := (s.page m p).idx.toNat;
     let x := s.qp q;
     s.sees fn (.part p) = true ∧
       s.clocked = true ∧
       m < 6 ∧
       p < 16 ∧
       (s.page m p).busy = false ∧
       s.ownsQp p q = true ∧
       homeOf q = m ∧
       (s.porter m).fetching.contains q = false ∧
       x.st ≠ .free ∧
       x.cached = true ∧
       s.pinnedOn m p < s.pinMax m p) ∧
    (let s : State := { tP { tPart with
           cfg := some {
               cores := [(0, 1)], qpCount := 8, keyCount := 1, windows := [⟨0, false, 0, 0x100000⟩],
               pinQuota := [0, 0, 0, 1] }, mem := { placements := [(0, { base := 0, size := 4096, cls := 2 })] } } with
         qps := [(3, tQp)], pages := [(48, { idx := 3, peer := 5 })], customs := { slots := [(0, { kind := .link })] } };
     let fn : Nat := 0;
     let m : Nat := 3;
     let p : Nat := 0;
     let q := (s.page m p).idx.toNat;
     let x := s.qp q;
     s.sees fn (.part p) = true ∧
       s.clocked = true ∧
       m < 6 ∧
       p < 16 ∧
       (s.page m p).busy = false ∧
       s.ownsQp p q = true ∧
       homeOf q = m ∧
       (s.porter m).fetching.contains q = false ∧
       x.st ≠ .free ∧
       x.pinned = true) ∧
    (let s : State := { tP { tPart with
           cfg := some {
               cores := [(0, 1)], qpCount := 8, keyCount := 1, windows := [⟨0, false, 0, 0x100000⟩],
               pinQuota := [0, 0, 0, 1] }, mem := { placements := [(0, { base := 0, size := 4096, cls := 2 })] } } with
         qps := [(3, { tQp with st := .error })], pages := [(48, { idx := 3, peer := 5 })],
         customs := { slots := [(0, { kind := .link })] } };
     let fn : Nat := 0;
     let m : Nat := 3;
     let p : Nat := 0;
     let q := (s.page m p).idx.toNat;
     let x := s.qp q;
     s.sees fn (.part p) = true ∧
       s.clocked = true ∧
       m < 6 ∧
       p < 16 ∧
       (s.page m p).busy = false ∧
       s.ownsQp p q = true ∧
       homeOf q = m ∧
       (s.porter m).fetching.contains q = false ∧
       x.st = .error) ∧
    (let s : State := { tP { tPart with
           cfg := some {
               cores := [(0, 1)], qpCount := 8, keyCount := 1, windows := [⟨0, false, 0, 0x100000⟩],
               pinQuota := [0, 0, 0, 1] }, mem := { placements := [(0, { base := 0, size := 4096, cls := 2 })] } } with
         qps := [(3, tQp)], pages := [(48, { idx := 3, peer := 5 })], customs := { slots := [(0, { kind := .link })] } };
     let fn : Nat := 0;
     let m : Nat := 3;
     let p : Nat := 0;
     let q := (s.page m p).idx.toNat;
     s.sees fn (.part p) = true ∧
       s.clocked = true ∧
       m < 6 ∧
       p < 16 ∧
       (s.page m p).busy = false ∧
       s.ownsQp p q = true ∧
       homeOf q = m ∧
       (s.porter m).fetching.contains q = false) := by
  refine ⟨?_, ?_, ?_, ?_, ?_, ?_⟩ <;> decide +kernel

theorem witness_CustomsComplete :
    (let s : State := tRun;
     let fn : Nat := 0;
     let o : AnchorObj := { body := keyBytes 0 0, trailer := tTrailer 6 (keyBytes 0 0) };
     s.sees fn .customs = true ∧ s.mod.recovery = false ∧ s.enrolStatus o = scOk) ∧
    (let s : State := { tRun with customs := { anchor := some tAnchor }, mod := { state := .run, manHigh := 9 } };
     let fn : Nat := 0;
     let o : AnchorObj := {
         body := (ascii "CT25-REL" ++ digestBytes deviceId ++ leBytes 4 0),
         trailer := tTrailer 7 (ascii "CT25-REL" ++ digestBytes deviceId ++ leBytes 4 0) };
     s.sees fn .customs = true ∧ s.mod.recovery = false ∧ s.releaseStatus o = scOk) ∧
    (let s : State := { tRun with customs := { fuseSvn := 3, fwSvn := 64 } };
     let fn : Nat := 0;
     let c := s.customs;
     s.sees fn .customs = true ∧ s.mod.recovery = false ∧ c.fuseSvn ≤ 64) ∧
    (let s : State := tRun;
     let fn : Nat := 0;
     let p : Nat := 0;
     s.sees fn (.part p) = true ∧ p < 16 ∧ s.exists_ p = true) ∧
    (let s : State := { tIn .idle with customs := { slots := [(0, { kind := .host })] } };
     let fn : Nat := 0;
     let p : Nat := 0;
     let slot : BitVec 6 := 0;
     s.sees fn (.part p) = true ∧
       p < 16 ∧
       (s.slotsOf p).contains slot.toNat = true ∧
       s.slotRef slot.toNat = false ∧
       (s.keySlot slot.toNat).kind ≠ .empty) ∧
    (let s : State := { tMs {} { jobwide := true } with convoys := [(0, { switchNew := 1, switchMid := 9 })] };
     let fn : Nat := 0;
     let p : Nat := 0;
     s.sees fn (.part p) = true ∧ p < 16 ∧ s.armOk p = true) ∧
    (let s : State := { tRun with convoys := [(0, { armed := true })] };
     let fn : Nat := 0;
     let p : Nat := 0;
     s.sees fn (.part p) = true ∧ p < 16 ∧ (s.convoy p).held = false) := by
  refine ⟨⟨by decide +kernel, by decide +kernel, by simp [State.enrolStatus, tRun, tTrailer, tTrailerOf, trailerKey, trailerOk, w32]⟩,
    ⟨by decide +kernel, by decide +kernel, by simp [State.releaseStatus, State.operatorOk, trailer_ok, State.releaseBody, tRun]⟩,
    ?_, ?_, ?_, ?_, ?_⟩ <;> decide +kernel

theorem witness_LifecycleComplete :
    (let s : State := { tRun with mod := { state := .run, staged := some {} } };
     let src : Source := .function 0;
     s.mayWrite src .module = true ∧ (s.mod.state = .ready ∨ s.mod.state = .run)) ∧
    (let s : State := { tRun with mod := { state := .ready } };
     let src : Source := .sideband;
     s.mayWrite src .module = true ∧ (s.mod.state = .ready ∨ s.mod.state = .run)) ∧
    (let s : State := { tRun with mod := { state := .fault, fault := 2 }, now := 5 };
     let src : Source := .sideband;
     s.mayWrite src .module = true ∧ s.mod.state = .fault) ∧
    (let s : State := { tP {} with mod := { state := .quiesce, after := .shutdown }, now := 5 };
     s.mod.state = .quiesce ∧ s.quiesced = true ∧ s.mod.after = .shutdown) ∧
    (let s : State := { tP {} with mod := { state := .quiesce, after := .reboot }, now := 5 };
     s.mod.state = .quiesce ∧ s.quiesced = true ∧ s.mod.after = .reboot) ∧
    (let s : State := tRun; s.clocked = true) := by
  refine ⟨?_, ?_, ?_, ?_, ?_, ?_⟩ <;> decide +kernel

theorem witness_LedgerAndFirmwareComplete :
    (let s : State := tRun;
     let fn : Nat := 0;
     let image : FwImage := tFw 64;
     let m := s.mod;
     s.sees fn .module = true ∧ m.fwuBusy = false ∧ s.imageCheck image = scOk) ∧
    (let s : State := { tRun with mod := { state := .run, fwuBusy := true, fwuImage := some (tFw 64) } };
     let m := s.mod;
     s.seraiOn = true ∧ m.fwuBusy = true) ∧
    (let s : State := tRun; s.seraiOn = true) ∧
    (let s : State := { tRun with life := { committing := some ({ seq := 3 }, false) } };
     let r : LifeRec := { seq := 3 };
     let retry : Bool := false;
     s.seraiOn = true ∧ s.life.committing = some (r, retry) ∧ s.life.again = false) ∧
    (let s : State := { tRun with life := { committing := some ({ seq := 3 }, false) } };
     let r : LifeRec := { seq := 3 };
     let retry : Bool := false;
     s.seraiOn = true ∧ s.life.committing = some (r, retry) ∧ retry = false) ∧
    (let s : State := { tRun with life := { committing := some ({ seq := 3 }, true) } };
     let r : LifeRec := { seq := 3 };
     let retry : Bool := true;
     s.seraiOn = true ∧ s.life.committing = some (r, retry) ∧ retry = true ∧ s.life.again = false) ∧
    (let s : State := { tRun with
         life := { cur := { powerOnS := 3600, svc := [(15, { due := 1, kind := 2, valid := true })] } } };
     let k : Nat := 15;
     let v := tabGet ({} : Svc) s.life.cur.svc k;
     s.seraiOn = true ∧ k < 16 ∧ v.valid = true ∧ v.dueNow = false ∧ v.due.toNat * 3600 ≤ s.life.cur.powerOnS.toNat) ∧
    (let s : State := tRun; let fn : Nat := 0; s.sees fn .pf = true) ∧
    (let s : State := tRun; s.life.committing = none) := by
  refine ⟨⟨by decide +kernel, by decide +kernel, by
      have h : imageForm (tFw 64#8) = true := by decide +kernel
      have hv : ¬ (imageSvn (tFw 64#8)).toNat < tRun.customs.fuseSvn := by decide +kernel
      simp [State.imageCheck, tFw_ok, h, hv]⟩,
    ?_, ?_, ?_, ?_, ?_, ?_, ?_, ?_⟩ <;> decide +kernel

theorem witness_InjectionsComplete :
    (let s : State := tRun; let n : Nat := 0; let k : Nat := 0; s.sees 0 (.core n k) = true ∧ n < 12 ∧ k < 22) ∧
    (let s : State := tRun;
     let n : Nat := 0;
     let phys : BitVec 5 := 21;
     s.sees 0 (.die n) = true ∧
       n < 12 ∧
       phys.toNat < 22 ∧
       s.clocked = true ∧
       s.quarantined (22 * n + phys.toNat) = false) ∧
    (let s : State := tRun;
     let n : Nat := 0;
     let kind : BitVec 2 := 2;
     let fn : Nat := 0;
     s.sees fn .pf = true ∧ n < 12 ∧ (kind = 1 ∨ kind = 2)) ∧
    (let s : State := tRun; let n : Nat := 0; let fn : Nat := 0; s.sees fn .pf = true ∧ n < 6) ∧
    (let s : State := tRun;
     let n : Nat := 0;
     let chan : BitVec 4 := 15;
     let fn : Nat := 0;
     s.sees fn .pf = true ∧ n < 6 ∧ bitAt (s.cis n).failed.toNat chan.toNat = false) := by
  refine ⟨?_, ?_, ?_, ?_, ?_⟩ <;> decide +kernel

theorem witness_DetectionComplete :
    (let s : State := tRun;
     let n : Nat := 0;
     let k : Nat := 0;
     let p := 22 * n + k;
     s.clocked = true ∧ n < 12 ∧ k < 22 ∧ s.testable p = true) ∧
    (let s : State := tRun;
     let n : Nat := 0;
     let k : Nat := 0;
     let p := 22 * n + k;
     s.clocked = true ∧ n < 12 ∧ k < 22 ∧ s.quarantined p = false) ∧
    (let s : State := tRun;
     let n : Nat := 0;
     let house : Bool := true;
     s.clocked = true ∧ n < 12 ∧ (house = true ∨ s.pllOn n = true)) ∧
    (let s : State := tRun;
     let n : Nat := 0;
     let house : Bool := false;
     s.clocked = true ∧ n < 12 ∧ (house = true ∨ s.pllOn n = true)) ∧
    (let s : State := tRun;
     let d : Nat := 23;
     let qs := (List.range 16).filter (fun q => s.partOnDie q d);
     s.clocked = true ∧ d < 24 ∧ qs = []) ∧
    (let s : State := tRun;
     let k : Nat := 0;
     let d : Nat := 0;
     let qs := (List.range 16).filter (fun q => s.partOnDie q d);
     s.clocked = true ∧ d < 24 ∧ qs.flatMap s.physOfPart = [k] ∧ ((s.core k).st = .running ∨ (s.core k).st = .done)) := by
  refine ⟨?_, ?_, ?_, ?_, ?_, ?_⟩ <;> decide +kernel

theorem witness_MemoryEventsComplete :
    (let s : State := tRun;
     let m : Nat := 5;
     let chan : BitVec 4 := 15;
     s.clocked = true ∧ m < 6 ∧ bitAt (s.cis m).failed.toNat chan.toNat = false) ∧
    (let s : State := tRun; let n : Nat := 11; s.clocked = true ∧ n < 12 ∧ (s.die n).hbm.failed = false) ∧
    (let s : State := { tRun with mem := { cisErr := [(7, 1)], cisWb := [7] } };
     let word : Nat := 7;
     s.clocked = true ∧ s.mem.cisWb.contains word = true) ∧
    (let s : State := { tRun with mem := { hbmErr := [(7, 1)], hbmWb := [7] } };
     let word : Nat := 7;
     s.clocked = true ∧ s.mem.hbmWb.contains word = true) ∧
    (let s : State := tRun;
     let n : Nat := 11;
     let word : Nat := 7;
     s.clocked = true ∧
       n < 12 ∧
       (s.die n).hbm.patrolEn = true ∧
       (s.die n).hbm.failed = false ∧
       word < stackWords ∧
       tabGet 0 s.mem.hbmErr (n * 2 ^ 34 + word) = 0) ∧
    (let s : State := tRun;
     let m : Nat := 5;
     let word : Nat := 7;
     s.clocked = true ∧
       m < 6 ∧
       (s.cis m).patrolEn = true ∧
       word < cisDieWords ∧
       tabGet 0 s.mem.cisErr (m * cisDieWords + word) = 0) ∧
    (let s : State := tRun; let rx : Nat := 24; let tx : Nat := 3; s.clocked = true ∧ spurEdge rx tx = true) ∧
    (let s : State := tRun;
     let rx : Nat := 24;
     let tx : Nat := 3;
     let fails : Nat := 3;
     s.clocked = true ∧ spurEdge rx tx = true ∧ 1 ≤ fails ∧ fails ≤ 3) ∧
    (let s : State := tRun;
     let rx : Nat := 1;
     let port : Nat := 3;
     let x : Transfer := .corrected;
     s.clocked = true ∧ (meshPeer rx port).isSome = true ∧ s.crosses x rx port = true ∧ x = .corrected) ∧
    (let s : State := tRun;
     let rx : Nat := 1;
     let port : Nat := 3;
     let x : Transfer := .linkFrame;
     s.clocked = true ∧ (meshPeer rx port).isSome = true ∧ s.crosses x rx port = true ∧ x ≠ .corrected) ∧
    (let s : State := tRun;
     let rx : Nat := 1;
     let port : Nat := 3;
     let x : Transfer := .hostCopy tHdr;
     s.clocked = true ∧ (meshPeer rx port).isSome = true ∧ s.crosses x rx port = true ∧ x ≠ .corrected) ∧
    (let s : State := tRun;
     let rx : Nat := 1;
     let port : Nat := 3;
     let x : Transfer := .hostCopy tHdr;
     s.clocked = true ∧ (meshPeer rx port).isSome = true ∧ s.crosses x rx port = true) ∧
    (let s : State := tRun;
     let rx : Nat := 1;
     let port : Nat := 3;
     let x : Transfer := .traceData 0 0 3;
     s.clocked = true ∧ (meshPeer rx port).isSome = true ∧ s.crosses x rx port = true) ∧
    (let s : State := tRun;
     let rx : Nat := 1;
     let port : Nat := 3;
     let x : Transfer := .linkFrame;
     s.clocked = true ∧
       (meshPeer rx port).isSome = true ∧
       s.crosses x rx port = true ∧
       (x = .linkFrame ∨ x = .scrubWrites)) ∧
    (let s : State := tRun;
     let rx : Nat := 1;
     let port : Nat := 3;
     let x : Transfer := .scrubWrites;
     s.clocked = true ∧
       (meshPeer rx port).isSome = true ∧
       s.crosses x rx port = true ∧
       (x = .linkFrame ∨ x = .scrubWrites)) := by
  refine ⟨?_, ?_, ?_, ?_, ?_, ?_, ?_, ?_, ?_, ?_, ?_, ?_, ?_, ?_, ?_⟩ <;> decide +kernel

theorem witness_UpdatesComplete :
    (let s : State := { tRun with
         dies := [(0,
             {
                 upd := {
                   queue := List.replicate 31 {
                     words := [0, 0, 0, 0, 0, 0, 0, 0, 0, 0, 0, 0, 0, 0, 0, 0], part := 0, core := none } } })] };
     let n : Nat := 0;
     let u := (s.die n).upd;
     n < 12 ∧ s.sees 0 (.die n) = true ∧ u.queue.length + u.committed < 32 ∧ s.ownsDie u.submitPart.toNat n = true) ∧
    (let s : State := tRun;
     let fn : Nat := 0;
     let n : Nat := 0;
     n < 12 ∧ s.sees fn (.die n) = true ∧ s.ownsWholeDie fn n = true) ∧
    (let s : State := tRun;
     let fn : Nat := 0;
     let n : Nat := 0;
     let idx : Nat := 63;
     let u := (s.die n).upd;
     n < 12 ∧ s.sees fn (.die n) = true ∧ s.ownsWholeDie fn n = true ∧ u.current = none ∧ u.queue = [] ∧ idx < 64) ∧
    (let s : State := tRun;
     let fn : Nat := 0;
     let n : Nat := 0;
     let w : Word := 64;
     let u := (s.die n).upd;
     n < 12 ∧
       s.sees fn (.die n) = true ∧
       s.ownsWholeDie fn n = true ∧
       u.current = none ∧
       u.queue = [] ∧
       w.toNat % 128 ≤ 64) ∧
    (let s : State := tUpdRun { queue := [tUpd 1 2] };
     let v : State := ((tUpdRun { queue := [tUpd 1 2] }).updRead 0 [(depotBase + 256, 64)]).1;
     let n : Nat := 0;
     let d : UpdDesc := tUpd 1 2;
     let rest : List UpdDesc := [];
     let u := (s.die n).upd;
     n < 12 ∧
       s.pllOn n = true ∧
       u.halt = false ∧
       u.current = none ∧
       u.queue = d :: rest ∧
       u.fenced = false ∧
       s.updFields n d = true ∧
       s.updWindows n d = true ∧
       s.updRead n [(d.param, 64)] = (v, false)) ∧
    (let s : State := tUpdRun { current := some (tUpd 1 1), params := List.replicate 16 0 };
     let n : Nat := 0;
     let d : UpdDesc := tUpd 1 1;
     let u := (s.die n).upd;
     let r := UpdRun.all s n d (s.usesV d);
     n < 12 ∧
       s.pllOn n = true ∧
       u.current = some d ∧
       u.fenced = false ∧
       u.curStatus = 0 ∧
       u.flitLost = false ∧
       r.stop = none) ∧
    (let s : State := tUpdRun { current := some (tUpd 9 2), curStatus := st8 scIllegal };
     let n : Nat := 0;
     let d : UpdDesc := tUpd 9 2;
     let u := (s.die n).upd;
     n < 12 ∧ s.pllOn n = true ∧ u.current = some d ∧ u.fenced = false ∧ u.curStatus = st8 scIllegal) ∧
    (let s : State := { tIn .running with
         houses := [(0, { queue := [{ addr := 0, value := 3, src := .copy 0 4 }] })] };
     let v : State := ((({ tIn .running with
               houses := [(0, { queue := [{ addr := 0, value := 3, src := .copy 0 4 }] })] }).modHouse 0
           (fun h => { h with queue := [] })).houseAdd 0 { addr := 0, value := 3, src := .copy 0 4 }).1;
     let n : Nat := 0;
     let a : Add := { addr := 0, value := 3, src := .copy 0 4 };
     let queue : List Add := [];
     let bad : Bool := false;
     n < 12 ∧
       s.clocked = true ∧
       (s.house n).queue = a :: queue ∧
       (s.modHouse n (fun h => { h with queue := queue })).houseAdd n a = (v, bad)) := by
  refine ⟨?_, ?_, ?_, ?_,
    ⟨by decide +kernel, by decide +kernel, by decide +kernel, by decide +kernel, by decide +kernel, by decide +kernel, by decide +kernel, by decide +kernel, pair_eq (by decide +kernel)⟩,
    ?_, ?_, ?_⟩ <;> decide +kernel

theorem witness_BadBarAccessDiscarded :
    (let s : State := tRun;
     let fn : Nat := 0;
     let off : Nat := 2;
     let n : Nat := 4;
     s.barUp = true ∧ fn ≤ 16 ∧ 0 < n ∧ ((n ≠ 4 ∧ n ≠ 8) ∨ off % n ≠ 0)) := by
  decide +kernel

theorem witness_RegistersComplete :
    (let s : State := tRun;
     let fn : Nat := 0;
     let off : Nat := 0xF0010;
     let r := locate off;
     s.sees fn (r.1.bar r.2) = true ∧ s.mod.recovery = false ∧ off % 4 = 0) ∧
    (let s : State := { tRun with now := 0x500000009 };
     let fn : Nat := 0;
     let off : Nat := 0xF1000;
     let v : DWord := 0x500000009;
     let r := locate off;
     s.sees fn (r.1.bar r.2) = true ∧ s.mod.recovery = false ∧ off % 4 = 0 ∧ s.read64 fn r.1 r.2 = some v) ∧
    (let s : State := { tRun with now := 0x500000009 };
     let fn : Nat := 0;
     let off : Nat := 0xF1000;
     let v : DWord := 0x500000009;
     let r := locate off;
     s.sees fn (r.1.bar r.2) = true ∧ s.mod.recovery = false ∧ off % 8 = 0 ∧ s.read64 fn r.1 r.2 = some v) ∧
    (let s : State := { tRun with now := 0x500000009, fns := [(0, { bound := true, latch := [(0xF1000, 4)] })] };
     let fn : Nat := 0;
     let off : Nat := 0xF1004;
     let lo : Nat := 0xF1000;
     let x : Word := 4;
     let r := locate off;
     s.sees fn (r.1.bar r.2) = true ∧
       s.mod.recovery = false ∧
       off % 4 = 0 ∧
       4 ≤ off ∧
       s.read64 fn r.1 r.2 = none ∧
       (s.fn fn).latch.find? (fun e => e.1 + 4 == off) = some (lo, x)) ∧
    (let s : State := tP { tPart with replays := 3 };
     let u : State := tP tPart;
     let fn : Nat := 0;
     let off : Nat := 0x40010;
     let x : Word := 3;
     let r := locate off;
     s.sees fn (r.1.bar r.2) = true ∧
       s.mod.recovery = false ∧
       off % 4 = 0 ∧
       s.read64 fn r.1 r.2 = none ∧
       ((4 ≤ r.2 → s.read64 fn r.1 (r.2 - 4) = none)) ∧
       (s.fn fn).latch.find? (fun e => e.1 + 4 == off) = none ∧
       s.readClear r.1 r.2 = some (x, u)) ∧
    (let s : State := tRun;
     let fn : Nat := 0;
     let off : Nat := 0;
     let r := locate off;
     s.sees fn (r.1.bar r.2) = true ∧
       s.mod.recovery = false ∧
       off % 4 = 0 ∧
       s.read64 fn r.1 r.2 = none ∧
       ((4 ≤ r.2 → s.read64 fn r.1 (r.2 - 4) = none)) ∧
       (s.fn fn).latch.find? (fun e => e.1 + 4 == off) = none ∧
       s.readClear r.1 r.2 = none ∧
       r.1 ≠ .logbook ∧
       ((∀ p, r.1 ≠ .core p))) ∧
    (let s : State := tRun;
     let fn : Nat := 1;
     let off : Nat := 0x10;
     let r := locate off;
     s.sees fn (r.1.bar r.2) = false ∧ off % 4 = 0) ∧
    (let s : State := tRun;
     let fn : Nat := 1;
     let off : Nat := 0x10;
     let r := locate off;
     s.sees fn (r.1.bar r.2) = false ∧ off % 4 = 0 ∧ s.barUp = true ∧ fn ≤ 16) ∧
    (let s : State := tRun; let fn : Nat := 0; s.sees fn .pf = true ∧ s.mod.recovery = false) ∧
    (let off : Nat := 8; off % 8 = 0) ∧
    (let s : State := tP { tPart with st := .idle };
     let fn : Nat := 0;
     let off : Nat := 8;
     let w : Word := 17;
     let q : Nat := 0;
     let m : Milestones := { jobId := 17 };
     s.sees fn (.part q) = true ∧
       q < 16 ∧
       msDefOff off = true ∧
       ((s.part q).st = .idle ∨ (s.part q).st = .loaded) ∧
       (s.part q).switching = none ∧
       (s.part q).ms.write off w = some m) ∧
    (let s : State := tRun;
     let fn : Nat := 0;
     let off : Nat := 8;
     let q : Nat := 0;
     s.sees fn (.part q) = true ∧ q < 16 ∧ msDefOff off = true ∧ (s.part q).st ≠ .idle ∧ (s.part q).st ≠ .loaded) ∧
    (let s : State := tP { tPart with st := .idle };
     let src : Source := .function 0;
     s.mayWrite src .pf = true ∧ s.noneActive = true) ∧
    (let s : State := tRun; let src : Source := .function 0; s.mayWrite src .pf = true ∧ s.noneActive = false) ∧
    (let s : State := tRun;
     let w : Word := 2000;
     let src : Source := .function 0;
     s.mayWrite src .pf = true ∧ 600 ≤ w.toNat % 65536 ∧ w.toNat % 65536 ≤ 3000) := by
  refine ⟨?_, ?_, ?_, ?_, ?_,
    ⟨by decide +kernel, by decide +kernel, by decide +kernel, by decide +kernel, by decide +kernel, by decide +kernel, by decide +kernel, by decide +kernel, fun p h => by cases h⟩,
    ?_, ?_, ?_, ?_, ?_, ?_, ?_, ?_, ?_⟩ <;> decide +kernel

theorem witness_QueuesComplete :
    (let s : State := { tRun with
         fns := [(0, { bound := true, qmax := 64, queues := [(1, { log2 := 4, cqHead := 3, sqTail := 2 })] })] };
     let fn : Nat := 0;
     let q : Nat := 1;
     let v : Word := 1;
     let y := s.queue fn q;
     s.sees fn (.fnBlock fn) = true ∧
       q < 256 ∧
       v.getLsbD 0 = true ∧
       y.en = false ∧
       q < (s.fn fn).qmax.toNat ∧
       4 ≤ y.log2.toNat ∧
       y.log2.toNat ≤ 16) ∧
    (let s : State := { tRun with
         fns := [(0, { bound := true, qmax := 64, queues := [(1, { en := true, log2 := 4, active := true })] })] };
     let fn : Nat := 0;
     let q : Nat := 1;
     let v : Word := 0;
     s.sees fn (.fnBlock fn) = true ∧ q < 256 ∧ v.getLsbD 0 = false) ∧
    (let s : State := { tRun with
         fns := [(0, { bound := true, qmax := 64, queues := [(1, { en := true, halted := true })] })] };
     let fn : Nat := 0;
     let q : Nat := 1;
     let y := s.queue fn q;
     s.sees fn (.fnBlock fn) = true ∧ q < 256 ∧ y.halted = true) ∧
    (let s : State := { tRun with fns := [(0, { bound := true, qmax := 64, queues := [(1, { en := true })] })] };
     let fn : Nat := 0;
     let q : Nat := 1;
     let tail : Word := 1;
     let descs : List (BitVec 512) := [0];
     let y := s.queue fn q;
     let up := s.bar2 fn q = true ∧ y.en = true ∧ y.error = false;
     up ∧ tail.toNat < y.size ∧ descs.length = (tail.toNat + y.size - y.sqHead) % y.size) ∧
    (let s : State := { tRun with fns := [(0, { bound := true, qmax := 64, queues := [(1, { en := true })] })] };
     let fn : Nat := 0;
     let q : Nat := 1;
     let tail : Word := 16;
     let y := s.queue fn q;
     let up := s.bar2 fn q = true ∧ y.en = true ∧ y.error = false;
     up ∧ y.size ≤ tail.toNat) ∧
    (let s : State := { tRun with
         fns := [(0, { bound := true, qmax := 64, queues := [(1, { en := true, cqTail := 3 })] })] };
     let fn : Nat := 0;
     let q : Nat := 1;
     let head : Word := 1;
     let y := s.queue fn q;
     let up := s.bar2 fn q = true ∧ y.en = true ∧ y.error = false;
     up ∧ head.toNat < y.size ∧ (head.toNat + y.size - y.cqHead) % y.size ≤ y.unread) ∧
    (let s : State := { tRun with fns := [(0, { bound := true, qmax := 64, queues := [(1, { en := true })] })] };
     let fn : Nat := 0;
     let q : Nat := 1;
     let head : Word := 1;
     let y := s.queue fn q;
     let up := s.bar2 fn q = true ∧ y.en = true ∧ y.error = false;
     up ∧ (y.size ≤ head.toNat ∨ y.unread < (head.toNat + y.size - y.cqHead) % y.size)) ∧
    (let s : State := { tRun with fns := [(0, { bound := true, qmax := 64, queues := [(1, { en := true })] })] };
     let fn : Nat := 0;
     let q : Nat := 1;
     let y := s.queue fn q;
     let up := s.bar2 fn q = true ∧ y.en = true ∧ y.error = false;
     up) ∧
    (let s : State := { tRun with
         fns := [(0, { bound := true, qmax := 64, queues := [(1, { en := true, msiPending := true })] })] };
     let fn : Nat := 0;
     let q : Nat := 1;
     let y := s.queue fn q;
     s.barUp = true ∧ y.msiPending = true) ∧
    (let s : State := { tRun with
         fns := [(0,
             {
                 bound := true, qmax := 64, queues := [(1, { en := true })],
                 held := [{ cid := 1, status := 0, kind := 0, queue := 1, result0 := 0, result1 := 0 }] })] };
     let fn : Nat := 0;
     let e : Cqe := { cid := 1, status := 0, kind := 0, queue := 1, result0 := 0, result1 := 0 };
     let rest : List Cqe := [];
     s.barUp = true ∧
       (s.fn fn).held = e :: rest ∧
       (s.queue fn e.queue).takesNotes = true ∧
       0 < (s.queue fn e.queue).freeSlots) := by
  refine ⟨?_, ?_, ?_, ?_, ?_, ?_, ?_, ?_, ?_, ?_⟩ <;> decide +kernel

theorem witness_NicAndResetComplete :
    (let s : State := { { tRun with
           fns := [(0,
               {
                   bound := true, qmax := 64,
                   queues := [(1, { en := true, kind := 1, ring := [(64 <<< 64 : BitVec 512)] })] })] } with
         links := [(0, { st := .up, role := 2 })] };
     let fn : Nat := 0;
     let q : Nat := 1;
     let desc : BitVec 512 := (64 <<< 64 : BitVec 512);
     let data : List Byte := List.replicate 12 0 ++ [0x81] ++ List.replicate 51 0;
     let d := nicDesc desc;
     let s1 := s.takeDesc fn q;
     s.nicTakes fn q 1 desc = true ∧
       data.length = d.len ∧
       s1.nicLink d.link = true ∧
       d.mss = 0 ∧
       d.lenOk = true ∧
       d.tagOk data = true) ∧
    (let s : State := { { tRun with
           fns := [(0,
               {
                   bound := true, qmax := 64,
                   queues := [(1,
                         {
                             en := true, kind := 1,
                             ring := [(154 <<< 64 ||| 64 <<< 96 ||| 1 <<< 120 ||| 54 <<< 128 : BitVec 512)] })] })] } with
         links := [(0, { st := .up, role := 2 })] };
     let fn : Nat := 0;
     let q : Nat := 1;
     let desc : BitVec 512 := (154 <<< 64 ||| 64 <<< 96 ||| 1 <<< 120 ||| 54 <<< 128 : BitVec 512);
     let data : List Byte := List.replicate 12 0 ++ [8, 0, 0x45] ++ List.replicate 8 0 ++ [6] ++ List.replicate 22 0 ++
       [0x50] ++ List.replicate 107 0;
     let h : TcpHdr := ⟨14, false, 20⟩;
     let d := nicDesc desc;
     let tc := (s.queue fn q).tc.toNat;
     let vid := (s.link d.link).vid.toNat;
     let s1 := s.takeDesc fn q;
     let fs := (tcpSegments h d data).map (fun f => tagFrame f d.insertTag tc vid);
     s.nicTakes fn q 1 desc = true ∧
       data.length = d.len ∧
       s1.nicLink d.link = true ∧
       d.mss ≠ 0 ∧
       d.segment data = some h ∧
       fs ≠ []) ∧
    (let s : State := { { tRun with
           fns := [(0,
               {
                   bound := true, qmax := 64,
                   queues := [(1, { en := true, kind := 2, ring := [(9216 <<< 64 : BitVec 512)] })] })] } with
         links := [(0, { st := .up, role := 2 })] };
     let fn : Nat := 0;
     let q : Nat := 1;
     let desc : BitVec 512 := (9216 <<< 64 : BitVec 512);
     let b : RxBuf := {
         addr := w64 (bits desc.toNat 63 0), size := bits desc.toNat 95 64,
         cid := BitVec.ofNat 16 (bits desc.toNat 111 96) };
     s.nicTakes fn q 2 desc = true ∧ 9216 ≤ b.size) ∧
    (let s : State := { tRun with fns := [(1, { bound := true, queues := [(1, { en := true })] })] };
     let fn : Nat := 1;
     s.barUp = true ∧ 1 ≤ fn ∧ fn ≤ 16) ∧
    (let s : State := tRun; s.barUp = true) := by
  refine ⟨?_, ?_, ?_, ?_, ?_⟩ <;> decide +kernel

theorem witness_AttestationSidebandComplete :
    (let s : State := tRun; let fn : Nat := 0; s.doeUp fn = true) ∧
    (let s : State := tRun;
     let offset : Word := 4;
     let r : RegBlock × Nat := (.module, 4);
     s.seraiOn = true ∧ sbReach offset.toNat = some r ∧ s.readClear r.1 r.2 = none) ∧
    (let s : State := tRun;
     let offset : Word := 4;
     let r : RegBlock × Nat := (.module, 4);
     s.seraiOn = true ∧ sbReach offset.toNat = some r) ∧
    (let s : State := { mod := { state := .standby } }; s.mod.state = .standby) := by
  refine ⟨?_, ?_, ?_, ?_⟩ <;> decide +kernel

theorem witness_BringUpComplete :
    (let s : State := { tRun with links := [(4, { st := .up })] };
     let fn : Nat := 0;
     let l : Nat := 4;
     s.clocked = true ∧ l < 36 ∧ s.sees fn .pf = true) ∧
    (let s : State := { tRun with links := [(4, { role := 2 })] };
     let fn : Nat := 0;
     let l : Nat := 4;
     let x := s.link l;
     s.clocked = true ∧ l < 36 ∧ s.sees fn .pf = true ∧ x.st = .disabled ∧ (x.torus || x.switched) = true) ∧
    (let s : State := { tRun with links := [(4, { st := .up, role := 2 })] };
     let fn : Nat := 0;
     let l : Nat := 4;
     let x := s.link l;
     s.clocked = true ∧ l < 36 ∧ s.sees fn .pf = true ∧ x.st ≠ .disabled) ∧
    (let s : State := { tRun with links := [(4, { st := .down, role := 2 })] };
     let l : Nat := 4;
     let x := s.link l;
     s.clocked = true ∧ l < 36 ∧ x.st = .down) ∧
    (let s : State := { tRun with links := [(4, { st := .optics, role := 2 })] };
     let l : Nat := 4;
     let x := s.link l;
     s.clocked = true ∧ l < 36 ∧ x.st = .optics) ∧
    (let s : State := { tRun with links := [(4, { st := .align, role := 1 })] };
     let l : Nat := 4;
     let x := s.link l;
     s.clocked = true ∧ l < 36 ∧ x.st = .align ∧ x.beacons = true) ∧
    (let s : State := { tRun with links := [(4, { st := .align, role := 2 })] };
     let l : Nat := 4;
     let x := s.link l;
     s.clocked = true ∧ l < 36 ∧ x.st = .align ∧ x.beacons = false) ∧
    (let s : State := { tRun with links := [(4, { st := .align })] };
     let l : Nat := 4;
     let x := s.link l;
     s.clocked = true ∧ l < 36 ∧ x.st = .align) ∧
    (let s : State := { tRun with links := [(4, { st := .beacon, role := 1 })] };
     let l : Nat := 4;
     let x := s.link l;
     s.clocked = true ∧ l < 36 ∧ x.st = .beacon ∧ x.seenValid = false) ∧
    (let s : State := { tRun with links := [(4, { st := .up, role := 1 })] };
     let l : Nat := 4;
     let x := s.link l;
     s.clocked = true ∧ l < 36 ∧ (x.st = .up ∨ x.st = .fenced ∨ x.st = .down)) ∧
    (let s : State := { tRun with links := [(4, { st := .beacon, role := 1 })] };
     let l : Nat := 4;
     let x := s.link l;
     s.clocked = true ∧ l < 36 ∧ (x.st = .optics ∨ x.st = .align ∨ x.st = .beacon)) := by
  refine ⟨?_, ?_, ?_, ?_, ?_, ?_, ?_, ?_, ?_, ?_, ?_⟩ <;> decide +kernel

theorem witness_BeaconsComplete :
    (let s : State := { tRun with links := [(4, { st := .up, role := 2, peerValid := true, peerLink := 3 })] };
     let l : Nat := 4;
     let x := s.link l;
     s.clocked = true ∧ l < 36 ∧ x.beacons = true ∧ x.live = true) ∧
    (let s : State := { tRun with links := [(4, { st := .beacon, role := 2, peerValid := true, peerLink := 3 })] };
     let l : Nat := 4;
     let b : Beacon := {
         src := 0, link := 3, speed := 0, role := 1, epoch := 0, digest := 0, peerOk := true, fenced := false };
     let x := s.link l;
     let ok := s.pairMatches b.epoch b.digest = true ∧ s.wiringMatches l b = true;
     s.clocked = true ∧
       l < 36 ∧
       x.beacons = true ∧
       x.live = true ∧
       ok ∧
       b.peerOk = true ∧
       (x.st = .beacon ∨ x.st = .fenced)) ∧
    (let s : State := { tRun with links := [(4, { st := .up, role := 2, peerValid := true, peerLink := 3 })] };
     let l : Nat := 4;
     let b : Beacon := {
         src := 0, link := 3, speed := 0, role := 1, epoch := 0, digest := 0, peerOk := true, fenced := false };
     let x := s.link l;
     let ok := s.pairMatches b.epoch b.digest = true ∧ s.wiringMatches l b = true;
     s.clocked = true ∧ l < 36 ∧ x.beacons = true ∧ x.live = true ∧ ok ∧ (b.peerOk = false ∨ x.st = .up)) ∧
    (let s : State := { tRun with links := [(4, { st := .up, role := 2, peerValid := true, peerLink := 3 })] };
     let l : Nat := 4;
     let b : Beacon := {
         src := 0, link := 3, speed := 0, role := 1, epoch := 7, digest := 1, peerOk := true, fenced := false };
     let x := s.link l;
     s.clocked = true ∧
       l < 36 ∧
       x.beacons = true ∧
       x.st = .up ∧
       s.pairMatches b.epoch b.digest = false ∧
       oneApart b.epoch s.pair.2 = false) ∧
    (let s : State := { tRun with links := [(4, { st := .up, role := 2, peerValid := true, peerLink := 3 })] };
     let l : Nat := 4;
     let b : Beacon := {
         src := 0, link := 2, speed := 0, role := 1, epoch := 0, digest := 0, peerOk := true, fenced := false };
     let x := s.link l;
     s.clocked = true ∧
       l < 36 ∧
       x.beacons = true ∧
       x.st = .up ∧
       s.pairMatches b.epoch b.digest = true ∧
       s.wiringMatches l b = false) ∧
    (let s : State := { tRun with links := [(4, { st := .up, role := 2, peerValid := true, peerLink := 3 })] };
     let l : Nat := 4;
     let b : Beacon := {
         src := 0, link := 3, speed := 0, role := 1, epoch := 1, digest := 1, peerOk := true, fenced := false };
     let x := s.link l;
     s.clocked = true ∧
       l < 36 ∧
       x.beacons = true ∧
       x.st = .up ∧
       s.pairMatches b.epoch b.digest = false ∧
       oneApart b.epoch s.pair.2 = true ∧
       s.wiringMatches l b = true ∧
       x.graceFrom = none) ∧
    (let s : State := { tRun with
         links := [(4, { st := .up, graceFrom := some 0, bcnEpoch := 1, role := 2, peerValid := true, peerLink := 3 })] };
     let l : Nat := 4;
     let x := s.link l;
     s.clocked = true ∧
       l < 36 ∧
       x.beacons = true ∧
       x.st = .up ∧
       x.graceFrom ≠ none ∧
       s.pairMatches x.bcnEpoch x.bcnDigest = false) ∧
    (let s : State := { tRun with
         links := [(4, { st := .up, graceFrom := some 0, role := 2, peerValid := true, peerLink := 3 })] };
     let l : Nat := 4;
     let x := s.link l;
     s.clocked = true ∧
       l < 36 ∧
       x.beacons = true ∧
       x.st = .up ∧
       x.graceFrom ≠ none ∧
       s.pairMatches x.bcnEpoch x.bcnDigest = true) ∧
    (let s : State := { tRun with links := [(4, { st := .fenced, role := 2, peerValid := true, peerLink := 3 })] };
     let l : Nat := 4;
     let x := s.link l;
     s.clocked = true ∧ l < 36 ∧ x.beacons = true ∧ (x.st = .up ∨ x.st = .fenced)) := by
  refine ⟨?_, ?_, ?_, ?_, ?_, ?_, ?_, ?_, ?_⟩ <;> decide +kernel

theorem witness_FlowControlComplete :
    (let s : State := { tRun with
         links := [(4,
             {
                 st := .up, role := 1,
                 replay := [{ laneB := false, msg := { tMsg .arrival with lseq := 5 }, resent := 0 }] })] };
     let l : Nat := 4;
     let x := s.link l;
     s.clocked = true ∧ l < 36 ∧ x.st = .up) ∧
    (let s : State := { tRun with
         links := [(4,
             {
                 st := .up, role := 1,
                 replay := [{ laneB := false, msg := { tMsg .arrival with lseq := 5 }, resent := 7 }] })] };
     let l : Nat := 4;
     let x := s.link l;
     s.clocked = true ∧ l < 36 ∧ x.st = .up ∧ x.replay ≠ [] ∧ ((∀ r ∈ x.replay, r.resent < 8))) ∧
    (let s : State := { tRun with
         links := [(4,
             {
                 st := .up, role := 1,
                 replay := [{ laneB := false, msg := { tMsg .arrival with lseq := 5 }, resent := 8 }] })] };
     let l : Nat := 4;
     let x := s.link l;
     s.clocked = true ∧ l < 36 ∧ x.st = .up ∧ ((∃ r ∈ x.replay, 8 ≤ r.resent))) ∧
    (let s : State := { tRun with links := [(4, { st := .up, role := 1 })] };
     let l : Nat := 4;
     let x := s.link l;
     s.clocked = true ∧ l < 36 ∧ x.live = true ∧ x.torus = true) ∧
    (let s : State := { tRun with links := [(4, { st := .up, role := 1 })] };
     let l : Nat := 4;
     let cred : List (BitVec 16) := [1, 2, 3, 4, 5, 6, 7, 8];
     let x := s.link l;
     s.clocked = true ∧ l < 36 ∧ x.live = true ∧ x.torus = true ∧ cred.length = 8) ∧
    (let s : State := { tRun with links := [(4, { st := .up, role := 2 })] };
     let l : Nat := 4;
     let times : List (BitVec 16) := [9, 9, 9, 9, 9, 9, 9, 9];
     let x := s.link l;
     s.clocked = true ∧ l < 36 ∧ x.live = true ∧ x.torus = false ∧ times.length = 8) ∧
    (let s : State := { tRun with links := [(4, { st := .up, role := 2, paused := 4 })] };
     let l : Nat := 4;
     let prio : Nat := 2;
     let x := s.link l;
     s.clocked = true ∧ l < 36 ∧ prio < 8 ∧ bitAt x.paused.toNat prio = true) ∧
    (let s : State := { tRun with
         links := [(4,
             {
                 st := .up, role := 2, paused := 4,
                 queues := [(2, [{ laneB := false, owner := 31, len := 64, frame := .ether [] }])] })] };
     let l : Nat := 4;
     let prio : Nat := 2;
     let x := s.link l;
     let fs := tabGet [] x.queues prio;
     s.clocked = true ∧
       l < 36 ∧
       prio < 8 ∧
       bitAt x.paused.toNat prio = true ∧
       x.switched = true ∧
       ((∀ f ∈ fs, f.nic = none))) ∧
    (let s : State := { tRun with links := [(4, { st := .up, role := 2, pfcSent := 4 })] };
     let l : Nat := 4;
     let prio : Nat := 2;
     let x := s.link l;
     s.clocked = true ∧
       l < 36 ∧
       x.st = .up ∧
       x.switched = true ∧
       prio < 4 ∧
       bitAt x.pfcTxEn.toNat prio = true ∧
       bitAt x.pfcSent.toNat prio = true) ∧
    (let s : State := { tRun with links := [(4, { st := .up, role := 2, recovering := 4 })] };
     let l : Nat := 4;
     let prio : Nat := 2;
     let x := s.link l;
     s.clocked = true ∧ l < 36 ∧ prio < 8 ∧ bitAt x.recovering.toNat prio = true) := by
  refine ⟨?_, ?_, ?_, ?_, ?_, ?_, ?_, ?_, ?_, ?_⟩ <;> decide +kernel

theorem witness_FramesComplete :
    (let s : State := { tRun with links := [(4, { st := .up, role := 1 })] };
     let l : Nat := 4;
     let g : RirisFrame := {
         cls := 1, ver := 1, first := true, last := true, owner := 0, prio := 4, src := 7, dst := 9, dqp := 3,
         sqp := 9, txseq := 1, code := 0, psn := 0, rkey := 5, roff := 8, oplen := 4, toll := 0, ackpsn := 0,
         payload := [1, 2, 3, 4], tag := 0 };
     let x := s.link l;
     s.clocked = true ∧ l < 36 ∧ x.st = .up ∧ x.torus = true ∧ g.dst.toNat ≠ s.coord) ∧
    (let s : State := { tRun with links := [(4, { st := .up, role := 1 })] };
     let l : Nat := 4;
     let m : MsMsg := { tMsg .arrival with dst := 9 };
     let x := s.link l;
     s.clocked = true ∧ l < 36 ∧ x.st = .up ∧ x.torus = true ∧ m.dst.toNat ≠ s.coord ∧ m.lseq = x.expectLseq) ∧
    (let s : State := { tRun with links := [(4, { st := .up, role := 1 })] };
     let l : Nat := 4;
     let m : MsMsg := { tMsg .arrival with dst := 9, lseq := 3 };
     let x := s.link l;
     s.clocked = true ∧ l < 36 ∧ x.st = .up ∧ x.torus = true ∧ m.dst.toNat ≠ s.coord ∧ m.lseq ≠ x.expectLseq) ∧
    (let s : State := { tRun with mod := { state := .run, inForce := some { switched := true } } };
     let f : Frame := .riris {
         cls := 1, ver := 1, first := true, last := true, owner := 0, prio := 4, src := 7, dst := 9, dqp := 3,
         sqp := 9, txseq := 1, code := 0, psn := 0, rkey := 5, roff := 8, oplen := 4, toll := 0, ackpsn := 0,
         payload := [1, 2, 3, 4], tag := 0 };
     s.clocked = true ∧ s.switchedInst = true ∧ s.passes f = true) ∧
    (let s : State := { tRun with links := [(4, { st := .up, role := 2 })] };
     let l : Nat := 4;
     let bytes : List Byte := List.replicate 12 0 ++ [0x81, 0] ++ List.replicate 50 0;
     let x := s.link l;
     s.clocked = true ∧
       l < 36 ∧
       (x.st = .up ∨ x.st = .fenced) ∧
       x.switched = true ∧
       60 ≤ bytes.length ∧
       bytes.length ≤ 9212 ∧
       isTagged bytes = true ∧
       s.isNicFrame l bytes = true) ∧
    (let s : State := { tRun with
         mod := { state := .run, inForce := some { subnet := true, ipv4 := 0x0A000000 } },
         links := [(4, { st := .up, role := 2 })] };
     let l : Nat := 4;
     let head : List Byte := List.replicate 6 0xFF ++ List.replicate 6 1 ++ [0x81, 0, 0, 0];
     let body : List Byte := [8, 6, 0, 1, 8, 0, 6, 4, 0, 1] ++ List.replicate 6 1 ++ [10, 0, 0, 9] ++
       List.replicate 6 0 ++ [10, 0, 0, 4];
     let reply : Frame := (s.neighbourReply l (head ++ body)).getD (.ether []);
     let x := s.link l;
     s.clocked = true ∧
       l < 36 ∧
       x.st = .up ∧
       x.switched = true ∧
       isTagged (head ++ body) = true ∧
       s.neighbourReply l (head ++ body) = some reply) ∧
    (let s : State := { tRun with links := [(4, { st := .up, role := 2 })] };
     let l : Nat := 4;
     let fcsOk : Bool := false;
     let body : List Byte := List.replicate 70 0;
     let addrs : List Byte := List.replicate 12 0;
     let tag : List Byte := [0x81, 0, 0, 0];
     let x := s.link l;
     let all := addrs ++ tag ++ body;
     s.clocked = true ∧
       l < 36 ∧
       x.live = true ∧
       (fcsOk = false ∨ all.length < 60 ∨ 9212 < all.length ∨ (isTagged all = true ∧
             netNat all 16 2 = 0x88B5 ∧
             0xF5 ≤ netNat all 18 1))) ∧
    (let s : State := { tRun with links := [(4, { st := .up, role := 2 })] };
     let l : Nat := 4;
     let fcsOk : Bool := true;
     let body : List Byte := [0x88, 0xB5, 0xFF] ++ List.replicate 70 0;
     let addrs : List Byte := List.replicate 12 0;
     let tag : List Byte := [0x81, 0, 0, 0];
     let x := s.link l;
     let all := addrs ++ tag ++ body;
     s.clocked = true ∧
       l < 36 ∧
       x.live = true ∧
       (fcsOk = false ∨ all.length < 60 ∨ 9212 < all.length ∨ (isTagged all = true ∧
             netNat all 16 2 = 0x88B5 ∧
             0xF5 ≤ netNat all 18 1))) ∧
    (let s : State := { tRun with links := [(4, { st := .up, role := 1 })] };
     let l : Nat := 4;
     let fcsOk : Bool := true;
     let body : List Byte := [0x08, 0x00] ++ List.replicate 70 0;
     let addrs : List Byte := List.replicate 12 0;
     let tag : List Byte := [0x81, 0, 0, 0];
     let x := s.link l;
     let all := addrs ++ tag ++ body;
     s.clocked = true ∧
       l < 36 ∧
       x.live = true ∧
       macBad fcsOk all = false ∧
       isTagged all = true ∧
       netNat all 16 2 ≠ 0x88B5 ∧
       x.torus = true) := by
  refine ⟨?_, ?_, ?_, ?_, ?_, ?_, ?_, ?_, ?_⟩ <;> decide +kernel

theorem witness_RirisFramesComplete :
    (let s : State := { tW [] [] with
         qps := [(3, { tQp with peer := 7, peerQp := 9 })],
         regions := [(5, { st := .valid, base := 256, size := 64, rights := 7 })],
         customs := { slots := [(0, { kind := .link })] } };
     let f : RirisFrame := tTagged {
         cls := 6, ver := 1, first := true, last := true, owner := 0, prio := 4, src := 7, dst := 0, dqp := 3,
         sqp := 9, txseq := 1, code := 0, psn := 0, rkey := 5, roff := 8, oplen := 4, toll := 0, ackpsn := 0,
         payload := [1, 2, 3, 4], tag := 0 };
     let q := f.dqp.toNat;
     let a := (s.takeIn f).modPorter (homeOf q) (fun p => { p with hits := p.hits + 1 });
     let t := a.modPorter (homeOf q) (fun p => { p with injAuth := false });
     s.comesIn f = true ∧
       s.rxKnown f = true ∧
       (s.qp q).cached = true ∧
       a.tagOk f = true ∧
       (a.porter (homeOf q)).injAuth = false ∧
       (t.qp q).st = .active ∧
       f.cls = 6) ∧
    (let s : State := { tW [] [] with
         qps := [(3, { tQp with peer := 7, peerQp := 9 })],
         regions := [(5, { st := .valid, base := 256, size := 64, rights := 7 })],
         customs := { slots := [(0, { kind := .link })] } };
     let f : RirisFrame := tTagged {
         cls := 7, ver := 1, first := true, last := true, owner := 0, prio := 4, src := 7, dst := 0, dqp := 3,
         sqp := 9, txseq := 1, code := 0, psn := 0, rkey := 5, roff := 8, oplen := 4, toll := 0, ackpsn := 0,
         payload := [1, 2, 3, 4], tag := 0 };
     let q := f.dqp.toNat;
     let a := (s.takeIn f).modPorter (homeOf q) (fun p => { p with hits := p.hits + 1 });
     let t := a.modPorter (homeOf q) (fun p => { p with injAuth := false });
     s.comesIn f = true ∧
       s.rxKnown f = true ∧
       (s.qp q).cached = true ∧
       a.tagOk f = true ∧
       (a.porter (homeOf q)).injAuth = false ∧
       (t.qp q).st = .active ∧
       f.cls = 7) ∧
    (let s : State := { tW [] [] with
         qps := [(3, { tQp with peer := 7, peerQp := 9 })],
         regions := [(5, { st := .valid, base := 256, size := 64, rights := 7 })],
         customs := { slots := [(0, { kind := .link })] } };
     let f : RirisFrame := tTagged {
         cls := 1, ver := 1, first := true, last := true, owner := 0, prio := 4, src := 7, dst := 0, dqp := 3,
         sqp := 9, txseq := 1, code := 0, psn := 0, rkey := 5, roff := 8, oplen := 4, toll := 0, ackpsn := 0,
         payload := [1, 2, 3, 4], tag := 0 };
     let q := f.dqp.toNat;
     let a := (s.takeIn f).modPorter (homeOf q) (fun p => { p with hits := p.hits + 1 });
     let t := a.modPorter (homeOf q) (fun p => { p with injAuth := false });
     let g := openFrame f (a.rxKey q);
     let u := t.takeHeader q g;
     s.comesIn f = true ∧
       s.rxKnown f = true ∧
       (s.qp q).cached = true ∧
       a.tagOk f = true ∧
       (a.porter (homeOf q)).injAuth = false ∧
       (t.qp q).st = .active ∧
       (u.qp q).st = .active ∧
       u.pendingOn q = false ∧
       (u.qp q).behind = [] ∧
       f.psn = (u.qp q).epsn ∧
       f.cls = 1) ∧
    (let s : State := { tW [] [] with
         qps := [(3, { tQp with peer := 7, peerQp := 9 })],
         regions := [(5, { st := .valid, base := 256, size := 64, rights := 7 })],
         customs := { slots := [(0, { kind := .link })] } };
     let f : RirisFrame := tTagged {
         cls := 2, ver := 1, first := true, last := true, owner := 0, prio := 4, src := 7, dst := 0, dqp := 3,
         sqp := 9, txseq := 1, code := 0, psn := 0, rkey := 5, roff := 8, oplen := 4, toll := 0, ackpsn := 0,
         payload := [1, 2, 3, 4], tag := 0 };
     let q := f.dqp.toNat;
     let a := (s.takeIn f).modPorter (homeOf q) (fun p => { p with hits := p.hits + 1 });
     let t := a.modPorter (homeOf q) (fun p => { p with injAuth := false });
     let g := openFrame f (a.rxKey q);
     let u := t.takeHeader q g;
     s.comesIn f = true ∧
       s.rxKnown f = true ∧
       (s.qp q).cached = true ∧
       a.tagOk f = true ∧
       (a.porter (homeOf q)).injAuth = false ∧
       (t.qp q).st = .active ∧
       (u.qp q).st = .active ∧
       u.pendingOn q = false ∧
       (u.qp q).behind = [] ∧
       f.psn = (u.qp q).epsn ∧
       f.cls = 2) ∧
    (let s : State := { tW [] [] with
         qps := [(3, { tQp with peer := 7, peerQp := 9 })],
         regions := [(5, { st := .valid, base := 256, size := 64, rights := 7 })],
         customs := { slots := [(0, { kind := .link })] } };
     let f : RirisFrame := tTagged {
         cls := 3, ver := 1, first := true, last := true, owner := 0, prio := 4, src := 7, dst := 0, dqp := 3,
         sqp := 9, txseq := 1, code := 0, psn := 0, rkey := 5, roff := 8, oplen := 4, toll := 0, ackpsn := 0,
         payload := [1, 2, 3, 4], tag := 0 };
     let q := f.dqp.toNat;
     let a := (s.takeIn f).modPorter (homeOf q) (fun p => { p with hits := p.hits + 1 });
     let t := a.modPorter (homeOf q) (fun p => { p with injAuth := false });
     let g := openFrame f (a.rxKey q);
     let u := t.takeHeader q g;
     s.comesIn f = true ∧
       s.rxKnown f = true ∧
       (s.qp q).cached = true ∧
       a.tagOk f = true ∧
       (a.porter (homeOf q)).injAuth = false ∧
       (t.qp q).st = .active ∧
       (u.qp q).st = .active ∧
       u.pendingOn q = false ∧
       (u.qp q).behind = [] ∧
       f.psn = (u.qp q).epsn ∧
       f.cls = 3) ∧
    (let s : State := { tW [] [] with
         qps := [(3, { tQp with peer := 7, peerQp := 9 })],
         regions := [(5, { st := .valid, base := 256, size := 64, rights := 7 })],
         customs := { slots := [(0, { kind := .link })] } };
     let f : RirisFrame := tTagged {
         cls := 4, ver := 1, first := true, last := true, owner := 0, prio := 4, src := 7, dst := 0, dqp := 3,
         sqp := 9, txseq := 1, code := 0, psn := 0, rkey := 5, roff := 8, oplen := 4, toll := 0, ackpsn := 0,
         payload := [1, 2, 3, 4], tag := 0 };
     let q := f.dqp.toNat;
     let a := (s.takeIn f).modPorter (homeOf q) (fun p => { p with hits := p.hits + 1 });
     let t := a.modPorter (homeOf q) (fun p => { p with injAuth := false });
     let g := openFrame f (a.rxKey q);
     let u := t.takeHeader q g;
     s.comesIn f = true ∧
       s.rxKnown f = true ∧
       (s.qp q).cached = true ∧
       a.tagOk f = true ∧
       (a.porter (homeOf q)).injAuth = false ∧
       (t.qp q).st = .active ∧
       (u.qp q).st = .active ∧
       u.pendingOn q = false ∧
       (u.qp q).behind = [] ∧
       f.psn = (u.qp q).epsn ∧
       f.cls = 4) ∧
    (let s : State := { tW [] [] with
         qps := [(3, { tQp with peer := 7, peerQp := 9 })],
         regions := [(5, { st := .valid, base := 256, size := 64, rights := 7 })],
         customs := { slots := [(0, { kind := .link })] } };
     let f : RirisFrame := tTagged {
         cls := 5, ver := 1, first := true, last := true, owner := 0, prio := 4, src := 7, dst := 0, dqp := 3,
         sqp := 9, txseq := 1, code := 0, psn := 0, rkey := 5, roff := 8, oplen := 4, toll := 0, ackpsn := 0,
         payload := [1, 2, 3, 4], tag := 0 };
     let q := f.dqp.toNat;
     let a := (s.takeIn f).modPorter (homeOf q) (fun p => { p with hits := p.hits + 1 });
     let t := a.modPorter (homeOf q) (fun p => { p with injAuth := false });
     let g := openFrame f (a.rxKey q);
     let u := t.takeHeader q g;
     s.comesIn f = true ∧
       s.rxKnown f = true ∧
       (s.qp q).cached = true ∧
       a.tagOk f = true ∧
       (a.porter (homeOf q)).injAuth = false ∧
       (t.qp q).st = .active ∧
       (u.qp q).st = .active ∧
       u.pendingOn q = false ∧
       (u.qp q).behind = [] ∧
       f.psn = (u.qp q).epsn ∧
       f.cls = 5) ∧
    (let s : State := { tW [] [] with
         qps := [(3, { tQp with peer := 7, peerQp := 9 })],
         regions := [(5, { st := .valid, base := 256, size := 64, rights := 7 })],
         customs := { slots := [(0, { kind := .link })] } };
     let f : RirisFrame := tTagged {
         cls := 0x20, ver := 1, first := true, last := true, owner := 0, prio := 4, src := 7, dst := 0, dqp := 3,
         sqp := 9, txseq := 1, code := 0, psn := 0, rkey := 5, roff := 8, oplen := 4, toll := 0, ackpsn := 0,
         payload := [1, 2, 3, 4], tag := 0 };
     let q := f.dqp.toNat;
     let a := (s.takeIn f).modPorter (homeOf q) (fun p => { p with hits := p.hits + 1 });
     let t := a.modPorter (homeOf q) (fun p => { p with injAuth := false });
     let g := openFrame f (a.rxKey q);
     let u := t.takeHeader q g;
     s.comesIn f = true ∧
       s.rxKnown f = true ∧
       (s.qp q).cached = true ∧
       a.tagOk f = true ∧
       (a.porter (homeOf q)).injAuth = false ∧
       (t.qp q).st = .active ∧
       (u.qp q).st = .active ∧
       u.pendingOn q = false ∧
       (u.qp q).behind = [] ∧
       f.psn = (u.qp q).epsn ∧
       f.cls = 0x20) ∧
    (let s : State := { tW [] [] with
         qps := [(3, { tQp with peer := 7, peerQp := 9 })],
         regions := [(5, { st := .valid, base := 256, size := 64, rights := 7 })],
         customs := { slots := [(0, { kind := .link })] } };
     let q : Nat := 3;
     let f : RirisFrame := {
         cls := 1, ver := 1, first := true, last := true, owner := 0, prio := 4, src := 7, dst := 0, dqp := 3,
         sqp := 9, txseq := 1, code := 0, psn := 0, rkey := 5, roff := 8, oplen := 4, toll := 0, ackpsn := 0,
         payload := [1, 2, 3, 4], tag := 0 };
     let x := s.qp q;
     let p := x.part.toNat;
     let i := f.rkey.toNat % 4096;
     let n := f.payload.length;
     let a := (s.region i).base + f.roff.toNat;
     let w := (s.unclean p).store 0 (some p) a f.payload;
     s.regionAdmits q 1 f.rkey f.roff.toNat n = true ∧ w.2 = false ∧ (f.cls = 1 ∨ f.last = false)) ∧
    (let s : State := { tW [] [] with
         qps := [(3, { tQp with peer := 7, peerQp := 9 })],
         regions := [(5, { st := .valid, base := 256, size := 64, rights := 7 })],
         customs := { slots := [(0, { kind := .link })] } };
     let q : Nat := 3;
     let f : RirisFrame := {
         cls := 2, ver := 1, first := true, last := false, owner := 0, prio := 4, src := 7, dst := 0, dqp := 3,
         sqp := 9, txseq := 1, code := 0, psn := 0, rkey := 5, roff := 8, oplen := 4, toll := 0, ackpsn := 0,
         payload := [1, 2, 3, 4], tag := 0 };
     let x := s.qp q;
     let p := x.part.toNat;
     let i := f.rkey.toNat % 4096;
     let n := f.payload.length;
     let a := (s.region i).base + f.roff.toNat;
     let w := (s.unclean p).store 0 (some p) a f.payload;
     s.regionAdmits q 1 f.rkey f.roff.toNat n = true ∧ w.2 = false ∧ (f.cls = 1 ∨ f.last = false)) ∧
    (let s : State := { tW [] [] with
         qps := [(3, { tQp with peer := 7, peerQp := 9 })],
         regions := [(5, { st := .valid, base := 256, size := 64, rights := 7 })],
         customs := { slots := [(0, { kind := .link })] } };
     let q : Nat := 3;
     let f : RirisFrame := {
         cls := 2, ver := 1, first := true, last := true, owner := 0, prio := 4, src := 7, dst := 0, dqp := 3,
         sqp := 9, txseq := 1, code := 0, psn := 0, rkey := 5, roff := 8, oplen := 4, toll := 0, ackpsn := 0,
         payload := [1, 2, 3, 4], tag := 0 };
     let x := s.qp q;
     let p := x.part.toNat;
     let i := f.rkey.toNat % 4096;
     let n := f.payload.length;
     let a := (s.region i).base + f.roff.toNat;
     let w := (s.unclean p).store 0 (some p) a f.payload;
     s.regionAdmits q 1 f.rkey f.roff.toNat n = true ∧ w.2 = false ∧ f.cls = 2 ∧ f.last = true) ∧
    (let s : State := { tW [] [] with
         qps := [(3, { tQp with peer := 7, peerQp := 9 })],
         regions := [(5, { st := .valid, base := 256, size := 64, rights := 7 })],
         customs := { slots := [(0, { kind := .link })] } };
     let q : Nat := 3;
     let f : RirisFrame := {
         cls := 1, ver := 1, first := true, last := true, owner := 0, prio := 4, src := 7, dst := 0, dqp := 3,
         sqp := 9, txseq := 1, code := 0, psn := 0, rkey := 5, roff := 61, oplen := 4, toll := 0, ackpsn := 0,
         payload := [1, 2, 3, 4], tag := 0 };
     let n := f.payload.length;
     s.regionAdmits q 1 f.rkey f.roff.toNat n = false) ∧
    (let s : State := { { tW [] [] with
           qps := [(3, { tQp with peer := 7, peerQp := 9, nvalid := true, ndie := 1, nbuf := 2 })],
           regions := [(5, { st := .valid, base := 256, size := 64, rights := 7 })],
           customs := { slots := [(0, { kind := .link })] } } with
         dies := [(1, { dbufs := [(2, { owner := 0, base := 0, size := 256, free := 1, tok := 1 })] })] };
     let q : Nat := 3;
     let e : Nat × DepotBuf := (2, { owner := 0, base := 0, size := 256, free := 1, tok := 1 });
     let x := s.qp q;
     let p := x.part.toNat;
     x.nvalid = true ∧
       e.2.tok.toNat < 255 ∧
       (s.die x.ndie.toNat).dbufs.find? (fun d => d.1 == x.nbuf.toNat && d.2.owner == p) = some e) ∧
    (let s : State := { tW [] [] with
         qps := [(3, { tQp with peer := 7, peerQp := 9 })],
         regions := [(5, { st := .valid, base := 256, size := 64, rights := 7 })],
         customs := { slots := [(0, { kind := .link })] } };
     let q : Nat := 3;
     let f : RirisFrame := {
         cls := 3, ver := 1, first := true, last := true, owner := 0, prio := 4, src := 7, dst := 0, dqp := 3,
         sqp := 9, txseq := 1, code := 0, psn := 0, rkey := 5, roff := 0, oplen := 64, toll := 0, ackpsn := 0,
         payload := [], tag := 0 };
     let m := f.oplen.toNat;
     s.regionAdmits q 3 f.rkey f.roff.toNat m = true ∧ 0 < m) ∧
    (let s : State := { tW [] [] with
         qps := [(3, { tQp with peer := 7, peerQp := 9 })],
         regions := [(5, { st := .valid, base := 256, size := 64, rights := 7 })],
         customs := { slots := [(0, { kind := .link })] } };
     let q : Nat := 3;
     let f : RirisFrame := {
         cls := 3, ver := 1, first := true, last := true, owner := 0, prio := 4, src := 7, dst := 0, dqp := 3,
         sqp := 9, txseq := 1, code := 0, psn := 0, rkey := 5, roff := 0, oplen := 65, toll := 0, ackpsn := 0,
         payload := [], tag := 0 };
     let m := f.oplen.toNat;
     s.regionAdmits q 3 f.rkey f.roff.toNat m = false) ∧
    (let s : State := { tW [] [] with
         qps := [(3,
               { tQp with
                   peer := 7, peerQp := 9, reads := [{ core := 0, op := 4, addrs := [(512, 8)], got := 0, need := 8 }] })],
         regions := [(5, { st := .valid, base := 256, size := 64, rights := 7 })],
         customs := { slots := [(0, { kind := .link })] } };
     let q : Nat := 3;
     let f : RirisFrame := {
         cls := 4, ver := 1, first := true, last := true, owner := 0, prio := 4, src := 7, dst := 0, dqp := 3,
         sqp := 9, txseq := 1, code := 0, psn := 0, rkey := 5, roff := 8, oplen := 4, toll := 0, ackpsn := 0,
         payload := [1, 2, 3, 4], tag := 0 };
     let r : Reading := { core := 0, op := 4, addrs := [(512, 8)], got := 0, need := 8 };
     let rest : List Reading := [];
     let x := s.qp q;
     let p := x.part.toNat;
     let n := f.payload.length;
     let b := s.stores r.core (some p) (fillSegs (sliceSegs r.addrs r.got n) f.payload);
     x.reads = r :: rest ∧ r.ended = false ∧ r.got + n < r.need ∧ b.2 = false) ∧
    (let s : State := { tW [] [] with
         qps := [(3, { tQp with peer := 7, peerQp := 9 })],
         regions := [(5, { st := .valid, base := 256, size := 64, rights := 7 })],
         customs := { slots := [(0, { kind := .link })] } };
     let q : Nat := 3;
     let f : RirisFrame := {
         cls := 7, ver := 1, first := true, last := true, owner := 0, prio := 4, src := 7, dst := 0, dqp := 3,
         sqp := 9, txseq := 1, code := 5, psn := 0, rkey := 5, roff := 8, oplen := 0, toll := 0, ackpsn := 0,
         payload := [1, 2, 3, 4], tag := 0 };
     let x := s.qp q;
     x.owns f.psn = false ∧ f.oplen = 0) ∧
    (let s : State := { tW [] [] with
         qps := [(3, { tQp with peer := 7, peerQp := 9, spsn := 1 })],
         regions := [(5, { st := .valid, base := 256, size := 64, rights := 7 })],
         customs := { slots := [(0, { kind := .link })] } };
     let q : Nat := 3;
     let f : RirisFrame := {
         cls := 7, ver := 1, first := true, last := true, owner := 0, prio := 4, src := 7, dst := 0, dqp := 3,
         sqp := 9, txseq := 1, code := 5, psn := 0, rkey := 5, roff := 8, oplen := 0, toll := 0, ackpsn := 0,
         payload := [1, 2, 3, 4], tag := 0 };
     let x := s.qp q;
     x.owns f.psn = true ∧ f.code = 5) ∧
    (let s : State := { { tW [] [] with
           qps := [(3, { tQp with peer := 7, peerQp := 9 })],
           regions := [(5, { st := .valid, base := 256, size := 64, rights := 7 })],
           customs := { slots := [(0, { kind := .link })] } } with
         convoys := [(0, { epoch := 1 })] };
     let q : Nat := 3;
     let code : Nat := 7;
     let f : RirisFrame := {
         cls := 0x20, ver := 1, first := true, last := true, owner := 0, prio := 4, src := 7, dst := 0, dqp := 3,
         sqp := 9, txseq := 1, code := 0, psn := 0, rkey := 5, roff := 8, oplen := 4, toll := 0, ackpsn := 0,
         payload := List.replicate 25 0, tag := 0 };
     let v : State := (s.convoyCheck q f).1;
     s.convoyCheck q f = (v, .refuse code)) ∧
    (let s : State := { { tW [] [] with
           qps := [(3, { tQp with peer := 7, peerQp := 9 })],
           regions := [(5, { st := .valid, base := 256, size := 64, rights := 7 })],
           customs := { slots := [(0, { kind := .link })] } } with
         convoys := [(0, { epoch := 0 })] };
     let q : Nat := 3;
     let f : RirisFrame := {
         cls := 0x20, ver := 1, first := true, last := true, owner := 0, prio := 4, src := 7, dst := 0, dqp := 3,
         sqp := 9, txseq := 1, code := 0, psn := 0, rkey := 5, roff := 8, oplen := 4, toll := 0, ackpsn := 0,
         payload := List.replicate 12 0 ++ [0, 1] ++ List.replicate 11 0, tag := 0 };
     let v : State := (s.convoyCheck q f).1;
     s.convoyCheck q f = (v, .stale)) := by
  refine ⟨⟨by decide +kernel, by decide +kernel, by decide +kernel, tagged_ok (by decide +kernel) (by decide +kernel), by decide +kernel, by decide +kernel, by decide +kernel⟩,
    ⟨by decide +kernel, by decide +kernel, by decide +kernel, tagged_ok (by decide +kernel) (by decide +kernel), by decide +kernel, by decide +kernel, by decide +kernel⟩,
    ⟨by decide +kernel, by decide +kernel, by decide +kernel, tagged_ok (by decide +kernel) (by decide +kernel), by decide +kernel, by decide +kernel, by decide +kernel, by decide +kernel, by decide +kernel, by decide +kernel, by decide +kernel⟩,
    ⟨by decide +kernel, by decide +kernel, by decide +kernel, tagged_ok (by decide +kernel) (by decide +kernel), by decide +kernel, by decide +kernel, by decide +kernel, by decide +kernel, by decide +kernel, by decide +kernel, by decide +kernel⟩,
    ⟨by decide +kernel, by decide +kernel, by decide +kernel, tagged_ok (by decide +kernel) (by decide +kernel), by decide +kernel, by decide +kernel, by decide +kernel, by decide +kernel, by decide +kernel, by decide +kernel, by decide +kernel⟩,
    ⟨by decide +kernel, by decide +kernel, by decide +kernel, tagged_ok (by decide +kernel) (by decide +kernel), by decide +kernel, by decide +kernel, by decide +kernel, by decide +kernel, by decide +kernel, by decide +kernel, by decide +kernel⟩,
    ⟨by decide +kernel, by decide +kernel, by decide +kernel, tagged_ok (by decide +kernel) (by decide +kernel), by decide +kernel, by decide +kernel, by decide +kernel, by decide +kernel, by decide +kernel, by decide +kernel, by decide +kernel⟩,
    ⟨by decide +kernel, by decide +kernel, by decide +kernel, tagged_ok (by decide +kernel) (by decide +kernel), by decide +kernel, by decide +kernel, by decide +kernel, by decide +kernel, by decide +kernel, by decide +kernel, by decide +kernel⟩,
    ?_, ?_, ?_, ?_, ?_, ?_, ?_, ?_, ?_, ?_, ?_, ?_⟩ <;> decide +kernel

theorem witness_ContextsComplete :
    (let s : State := tW [] [];
     let f : RirisFrame := {
         cls := 1, ver := 1, first := true, last := true, owner := 0, prio := 4, src := 7, dst := 0, dqp := 3,
         sqp := 9, txseq := 1, code := 0, psn := 0, rkey := 5, roff := 8, oplen := 4, toll := 0, ackpsn := 0,
         payload := [1, 2, 3, 4], tag := 0 };
     s.clocked = true ∧ s.comesIn f = true ∧ s.rxKnown f = false) ∧
    (let s : State := { tW [] [] with
         qps := [(3, { tQp with cached := false, pinned := false })],
         regions := [(5, { st := .valid, base := 256, size := 64, rights := 7 })],
         customs := { slots := [(0, { kind := .link })] } };
     let f : RirisFrame := {
         cls := 1, ver := 1, first := true, last := true, owner := 0, prio := 4, src := 7, dst := 0, dqp := 3,
         sqp := 9, txseq := 1, code := 0, psn := 0, rkey := 5, roff := 8, oplen := 4, toll := 0, ackpsn := 0,
         payload := [1, 2, 3, 4], tag := 0 };
     let q := f.dqp.toNat;
     let m := homeOf q;
     let t := s.takeIn f;
     s.clocked = true ∧
       s.comesIn f = true ∧
       s.rxKnown f = true ∧
       (s.qp q).cached = false ∧
       (t.porter m).used + units (frameLen f) ≤ 1024) ∧
    (let s : State := { { tW [] [] with
           qps := [(3, { tQp with cached := false, pinned := false })],
           regions := [(5, { st := .valid, base := 256, size := 64, rights := 7 })],
           customs := { slots := [(0, { kind := .link })] } } with
         porters := [(3,
             {
                 parked := List.replicate 1024 {
                   qp := 3,
                   frame := {
                       cls := 1, ver := 1, first := true, last := true, owner := 0, prio := 4, src := 7, dst := 0,
                       dqp := 3, sqp := 9, txseq := 1, code := 0, psn := 0, rkey := 5, roff := 8, oplen := 4,
                       toll := 0, ackpsn := 0, payload := [1, 2, 3, 4], tag := 0 }, since := 0 } })] };
     let f : RirisFrame := {
         cls := 1, ver := 1, first := true, last := true, owner := 0, prio := 4, src := 7, dst := 0, dqp := 3,
         sqp := 9, txseq := 1, code := 0, psn := 0, rkey := 5, roff := 8, oplen := 4, toll := 0, ackpsn := 0,
         payload := [1, 2, 3, 4], tag := 0 };
     let q := f.dqp.toNat;
     let m := homeOf q;
     let t := s.takeIn f;
     s.clocked = true ∧
       s.comesIn f = true ∧
       s.rxKnown f = true ∧
       (s.qp q).cached = false ∧
       1024 < (t.porter m).used + units (frameLen f)) ∧
    (let s : State := { { tW [] [] with
           qps := [(3, { tQp with cached := false, pinned := false })],
           regions := [(5, { st := .valid, base := 256, size := 64, rights := 7 })],
           customs := { slots := [(0, { kind := .link })] } } with
         porters := [(3,
             {
                 fetching := [3],
                 parked := [{
                       qp := 3,
                       frame := {
                           cls := 1, ver := 1, first := true, last := true, owner := 0, prio := 4, src := 7, dst := 0,
                           dqp := 3, sqp := 9, txseq := 1, code := 0, psn := 0, rkey := 5, roff := 8, oplen := 4,
                           toll := 0, ackpsn := 0, payload := [1, 2, 3, 4], tag := 0 }, since := 0 }] })] };
     let s1 : State := ({ { tW [] [] with
             qps := [(3, { tQp with cached := false, pinned := false })],
             regions := [(5, { st := .valid, base := 256, size := 64, rights := 7 })],
             customs := { slots := [(0, { kind := .link })] } } with
           porters := [(3,
               {
                   fetching := [3],
                   parked := [{
                         qp := 3,
                         frame := {
                             cls := 1, ver := 1, first := true, last := true, owner := 0, prio := 4, src := 7,
                             dst := 0, dqp := 3, sqp := 9, txseq := 1, code := 0, psn := 0, rkey := 5, roff := 8,
                             oplen := 4, toll := 0, ackpsn := 0, payload := [1, 2, 3, 4], tag := 0 }, since := 0 }] })] }).modPorter
       3 (fun p => { p with fetching := [] });
     let qp : BitVec 20 := 3;
     let k := qp.toNat;
     let n := homeOf k;
     let s0 := s.modPorter n (fun p => { p with fetching := p.fetching.filter (· != k) });
     s.clocked = true ∧
       (s.porter n).fetching.contains k = true ∧
       s.uncorrIn 0 [(s.poolAddr k, 128)] = false ∧
       s0.makeRoom k = some s1) ∧
    (let s : State := { { tW [] [] with
           qps := [(3, { tQp with cached := false, pinned := false })],
           regions := [(5, { st := .valid, base := 256, size := 64, rights := 7 })],
           customs := { slots := [(0, { kind := .link })] } } with
         porters := [(3,
             {
                 fetching := [3],
                 parked := [{
                       qp := 3,
                       frame := {
                           cls := 1, ver := 1, first := true, last := true, owner := 0, prio := 4, src := 7, dst := 0,
                           dqp := 3, sqp := 9, txseq := 1, code := 0, psn := 0, rkey := 5, roff := 8, oplen := 4,
                           toll := 0, ackpsn := 0, payload := [1, 2, 3, 4], tag := 0 }, since := 0 }] })] };
     let qp : BitVec 20 := 3;
     let k := qp.toNat;
     let n := homeOf k;
     s.clocked = true ∧ (s.porter n).fetching.contains k = true) ∧
    (let s : State := { { tW [] [] with
           qps := [(3, { tQp with cached := false, pinned := false })],
           regions := [(5, { st := .valid, base := 256, size := 64, rights := 7 })],
           customs := { slots := [(0, { kind := .link })] } } with
         porters := [(3,
             {
                 fetching := [3],
                 parked := [{
                       qp := 3,
                       frame := {
                           cls := 1, ver := 1, first := true, last := true, owner := 0, prio := 4, src := 7, dst := 0,
                           dqp := 3, sqp := 9, txseq := 1, code := 0, psn := 0, rkey := 5, roff := 8, oplen := 4,
                           toll := 0, ackpsn := 0, payload := [1, 2, 3, 4], tag := 0 }, since := 0 }] })] };
     let qp : BitVec 20 := 3;
     let e : Parked := {
         qp := 3,
         frame := {
             cls := 1, ver := 1, first := true, last := true, owner := 0, prio := 4, src := 7, dst := 0, dqp := 3,
             sqp := 9, txseq := 1, code := 0, psn := 0, rkey := 5, roff := 8, oplen := 4, toll := 0, ackpsn := 0,
             payload := [1, 2, 3, 4], tag := 0 }, since := 0 };
     let k := qp.toNat;
     let n := homeOf k;
     s.clocked = true ∧ (s.porter n).parked.find? (fun e => e.qp == k) = some e) ∧
    (let s : State := { tW [] [] with
         qps := [(3, { tQp with busy := true })],
         regions := [(5, { st := .valid, base := 256, size := 64, rights := 7 })],
         customs := { slots := [(0, { kind := .link })] } };
     let qp : BitVec 20 := 3;
     let k := qp.toNat;
     s.clocked = true ∧ (s.qp k).st = .active ∧ ((s.qp k).unacked ≠ [] ∨ (s.qp k).busy = true)) ∧
    (let s : State := { tW [] [] with
         qps := [(3,
               { tQp with
                   unacked := [{
                         frame := {
                             cls := 1, ver := 1, first := true, last := true, owner := 0, prio := 4, src := 7,
                             dst := 0, dqp := 3, sqp := 9, txseq := 1, code := 0, psn := 0, rkey := 5, roff := 8,
                             oplen := 4, toll := 0, ackpsn := 0, payload := [1, 2, 3, 4], tag := 0 }, op := .core 0 4 }],
                   spsn := 1 })], regions := [(5, { st := .valid, base := 256, size := 64, rights := 7 })],
         customs := { slots := [(0, { kind := .link })] } };
     let qp : BitVec 20 := 3;
     let k := qp.toNat;
     s.clocked = true ∧
       (s.qp k).st = .active ∧
       ((s.qp k).unacked ≠ [] ∨ (s.qp k).busy = true) ∧
       (s.qp k).busy = false ∧
       (s.qp k).retries < (s.qp k).retryLimit.toNat) ∧
    (let s : State := { tW [] [] with
         qps := [(3, { tQp with ackDue := true })],
         regions := [(5, { st := .valid, base := 256, size := 64, rights := 7 })],
         customs := { slots := [(0, { kind := .link })] } };
     let qp : BitVec 20 := 3;
     let k := qp.toNat;
     s.clocked = true ∧ (s.qp k).st = .active ∧ (s.qp k).ackDue = true) := by
  refine ⟨?_, ?_, ?_, ?_, ?_, ?_, ?_, ?_, ?_⟩ <;> decide +kernel

theorem witness_TimeComplete :
    (let s : State := { tRun with now := 100, links := [(4, { st := .up, role := 1 })], time := {  } };
     let l : Nat := 4;
     s.clocked = true ∧ l < 36 ∧ carriesTime (s.link l).st = true) ∧
    (let s : State := { tRun with
         now := 100, links := [(4, { st := .up, role := 1 })],
         time := { uplink := 4, links := [(4, { sentTx := [9] })] } };
     let l : Nat := 4;
     let f : TimeFrame := {
         src := 0, dst := 0, locked := true, root := true, wall := false, hops := 0, tTx := 5, echoTx := 9,
         echoRx := 2 };
     let e := tabGet ({} : LinkTime) s.time.links l;
     let echo := e.sentTx.any (fun x => x == f.echoTx && decide ((s.now - x).toNat ≤ 1000000));
     s.clocked = true ∧ l < 36 ∧ carriesTime (s.link l).st = true ∧ s.time.uplink.toNat = l ∧ echo = true) ∧
    (let s : State := { tRun with now := 100, links := [(4, { st := .up, role := 1 })], time := { uplink := 5 } };
     let l : Nat := 4;
     let f : TimeFrame := {
         src := 0, dst := 0, locked := true, root := true, wall := false, hops := 0, tTx := 5, echoTx := 9,
         echoRx := 2 };
     let e := tabGet ({} : LinkTime) s.time.links l;
     let echo := e.sentTx.any (fun x => x == f.echoTx && decide ((s.now - x).toNat ≤ 1000000));
     s.clocked = true ∧ l < 36 ∧ carriesTime (s.link l).st = true ∧ (s.time.uplink.toNat ≠ l ∨ echo = false)) ∧
    (let s : State := { tRun with now := 100, links := [(4, { st := .up, role := 1 })], time := { st := .locked } };
     s.clocked = true ∧ s.time.st = .locked ∧ s.time.root = false) ∧
    (let s : State := tRun;
     let diffs : List Int := [-4, 4] ++ List.replicate 23 0;
     s.clocked = true ∧ diffs.length = 25 ∧ ((∀ x ∈ diffs, -4 ≤ x ∧ x ≤ 4))) ∧
    (let s : State := tRun;
     let diffs : List Int := [-5, 5] ++ List.replicate 23 0;
     s.clocked = true ∧ diffs.length = 25) ∧
    (let s : State := { tRun with
         now := 100, links := [(4, { st := .up, role := 1 })], time := { root := true, ptpLocked := true } };
     s.clocked = true) := by
  refine ⟨?_, ?_, ?_, ?_, ?_, ?_, ?_⟩ <;> decide +kernel

theorem witness_PowerComplete :
    (let s : State := tRun; s.seraiOn = true) ∧
    (let s : State := { tRun with
         pwr := {
           curPhase := [(0, { mid := 9, base := [] })],
           phases := [(0, [{ mid := 9, draw := List.replicate 12 7, phase := List.replicate 12 0 }])] } };
     let p : Nat := 0;
     let i : Interval := { mid := 9, base := [] };
     let dies : List PhaseShare := List.replicate 12 {
         draw := 5, intervalCycles := 2, updBusy := true, redLeads := false };
     s.clocked = true ∧ p < 16 ∧ dies.length = 12 ∧ s.pwr.curPhase.find? (fun e => e.1 == p) = some (p, i)) ∧
    (let s : State := tRun; let d : Nat := 3; s.mayDroop d = true) ∧
    (let s : State := { tRun with mod := { state := .fault } }; let d : Nat := 24; s.mayDroop d = true) ∧
    (let s : State := { tRun with pwr := { sense := [(3, { stretch3 := true })] } };
     let d : Nat := 3;
     s.mayDroop d = true ∧ s.stretched d = true) ∧
    (let s : State := { tRun with mod := { state := .fault } }; let d : Nat := 3; d < 25 ∧ s.mod.state = .fault) ∧
    (let s : State := tRun; let d : Nat := 3; let tj : Byte := 101; d < 25 ∧ s.clocked = true ∧ tj.toNat ≤ 110) ∧
    (let s : State := tRun; let d : Nat := 3; let tj : Byte := 111; d < 25 ∧ s.clocked = true ∧ 110 < tj.toNat) ∧
    (let s : State := { mod := { state := .standby } }; (s.mod.state = .off ∨ s.mod.state = .standby)) := by
  refine ⟨?_, ?_, ?_, ?_, ?_, ?_, ?_, ?_, ?_⟩ <;> decide +kernel

theorem witness_PinsComplete :
    (let s : State := { tRun with mod := { state := .off } };
     let mv : Nat := 54000;
     s.mod.state = .off ∧ 47000 ≤ mv ∧ mv ≤ 58000) ∧
    (let s : State := { tRun with mod := { state := .run } }; s.mod.state ≠ .off) ∧
    (let s : State := { tRun with mod := { state := .standby } }; s.mod.state = .standby) ∧
    (let s : State := { tRun with mod := { state := .run } }; s.mod.state = .run ∧ s.barUp = true) ∧
    (let s : State := { tRun with mod := { state := .ready } };
     (s.mod.state = .ready ∨ s.mod.state = .boot ∨ s.mod.state = .quiesce ∨ s.mod.state = .fault)) ∧
    (let s : State := { tRun with mod := { state := .run } };
     let r : Rail := .vsv;
     s.seraiOn = true ∧ railVital r = true) ∧
    (let s : State := { tRun with mod := { state := .run } };
     let r : Rail := .hbm 1;
     s.seraiOn = true ∧ railVital r = false ∧ s.clocked = true) ∧
    (let s : State := { tRun with mod := { state := .run } }; s.seraiOn = true ∧ s.phys.leakN = false) ∧
    (let s : State := { tRun with mod := { state := .boot } };
     let speed : BitVec 3 := 3;
     let width : BitVec 2 := 2;
     s.seraiOn = true ∧ speed.toNat ≤ 3 ∧ width.toNat ≤ 2) ∧
    (let s : State := { tRun with mod := { state := .standby } }; s.mod.state = .standby ∧ s.phys.leakN = false) := by
  refine ⟨?_, ?_, ?_, ?_, ?_, ?_, ?_, ?_, ?_, ?_⟩ <;> decide +kernel

theorem witness_BootComplete :
    (let s : State := {
         mod := { state := .boot, flashValid := true, flash := tFw 3 },
         customs := { fuseSvn := 3, anchorFlash := some (tAnchor, anchorMac tAnchor) } };
     let r : BootReport := {
         recov := true, flashOk := true, failedCores := [21], failedStacks := [], failedChannels := [],
         causewayOk := true };
     s.mod.state = .boot ∧ s.mod.recovery = false ∧ (s.mod.recovStrap = true ∨ r.recov = true ∨ r.flashOk = false)) ∧
    (let s : State := {
         mod := { state := .boot, flashValid := false },
         customs := { fuseSvn := 3, anchorFlash := some (tAnchor, anchorMac tAnchor) } };
     let r : BootReport := {
         recov := false, flashOk := true, failedCores := [21], failedStacks := [], failedChannels := [],
         causewayOk := true };
     let image := s.mod.flash;
     let sig := trailerOk image.trailer 1 fwAnchor image.body;
     let good := s.mod.recovStrap = false ∧ r.recov = false ∧ r.flashOk = true;
     s.mod.state = .boot ∧ s.mod.recovery = false ∧ good ∧ (s.mod.flashValid = false ∨ sig = false)) ∧
    (let s : State := {
         mod := { state := .boot, flashValid := true, flash := tFw 2 },
         customs := { fuseSvn := 3, anchorFlash := some (tAnchor, anchorMac tAnchor) } };
     let r : BootReport := {
         recov := false, flashOk := true, failedCores := [21], failedStacks := [], failedChannels := [],
         causewayOk := true };
     let image := s.mod.flash;
     let sig := trailerOk image.trailer 1 fwAnchor image.body;
     let good := s.mod.recovStrap = false ∧ r.recov = false ∧ r.flashOk = true;
     s.mod.state = .boot ∧
       s.mod.recovery = false ∧
       good ∧
       s.mod.flashValid = true ∧
       sig = true ∧
       (imageSvn image).toNat < s.customs.fuseSvn) ∧
    (let s : State := {
         mod := { state := .boot, flashValid := true, flash := tFw 3 },
         customs := { fuseSvn := 3, anchorFlash := some (tAnchor, anchorMac tAnchor) } };
     let r : BootReport := {
         recov := false, flashOk := true, failedCores := [21], failedStacks := [], failedChannels := [],
         causewayOk := true };
     let image := s.mod.flash;
     let sig := trailerOk image.trailer 1 fwAnchor image.body;
     let good := s.mod.recovStrap = false ∧ r.recov = false ∧ r.flashOk = true;
     s.mod.state = .boot ∧
       s.mod.recovery = false ∧
       good ∧
       s.mod.flashValid = true ∧
       sig = true ∧
       s.customs.fuseSvn ≤ (imageSvn image).toNat) ∧
    (let s : State := {
         mod := { state := .boot, flashValid := true, flash := tFw 3 },
         customs := { fuseSvn := 3, anchorFlash := some (tAnchor, anchorMac tAnchor) } };
     let r : BootReport := {
         recov := false, flashOk := true, failedCores := [21], failedStacks := [], failedChannels := [],
         causewayOk := false };
     let image := s.mod.flash;
     let sig := trailerOk image.trailer 1 fwAnchor image.body;
     let good := s.mod.recovStrap = false ∧ r.recov = false ∧ r.flashOk = true;
     s.mod.state = .boot ∧
       s.mod.recovery = false ∧
       good ∧
       s.mod.flashValid = true ∧
       sig = true ∧
       s.customs.fuseSvn ≤ (imageSvn image).toNat) := by
  refine ⟨?_, ?_,
    ⟨by decide +kernel, by decide +kernel, by decide +kernel, by decide +kernel, tFw_ok _, by decide +kernel⟩,
    ⟨by decide +kernel, by decide +kernel, by decide +kernel, by decide +kernel, tFw_ok _, by decide +kernel⟩,
    ⟨by decide +kernel, by decide +kernel, by decide +kernel, by decide +kernel, tFw_ok _, by decide +kernel⟩⟩ <;> decide +kernel

/-! Statements that share no shape with the commands'. -/

theorem witness_EveryCommandCompletes : State.reset.mem.wf = true := by decide

theorem witness_StepKeepsSafe : State.reset.Safe ∧ (∃ t, step State.reset = .next t)
    ∧ (let s : State := { tRun with pending := [.svnAdvance 0], customs := { fwSvn := 5 } };
       s.Safe ∧ ∃ t, step s = .next t) :=
  ⟨⟨by decide, by decide, by decide⟩, ⟨_, rfl⟩, ⟨by decide, by decide, by decide⟩, ⟨_, rfl⟩⟩

theorem witness_FusesNeverUndone :
    ∃ t, step { tRun with pending := [.svnAdvance 0], customs := { fwSvn := 5 } } = .next t ∧ t.customs.fuseSvn = 5 :=
  ⟨_, rfl, by decide⟩

/-- A byte of each memory, an address of none, and bytes that differ by core, by offset and by memory. -/
theorem witness_BytesReadBack :
    tRun.mem.wf = true ∧ tRun.localWf = true
    ∧ (tRun.cell 0 4096).isSome = true ∧ (tRun.cell 0 (cisBase + 4096)).isSome = true
    ∧ (tRun.cell 0 stallBase).isSome = true ∧ (tRun.cell 0 (depotBase + 0x2000000)).isSome = true
    ∧ tRun.cell 0 portBase = none ∧ tRun.cell 1 stallBase ≠ tRun.cell 0 stallBase
    ∧ tRun.cell 0 (stallBase + 1) ≠ tRun.cell 0 stallBase ∧ tRun.cell 0 stallBase ≠ tRun.cell 0 4096 := by
  decide +kernel

/-- Two bytes of the cistern, the last of a unit and the first of the next; and what they leave as it was. -/
theorem witness_BytesReadBack_stores :
    (∀ e ∈ [(cisBase + 31, [(7 : Byte), 8])], ∀ i, i < e.2.length →
      tRun.cell 0 (e.1 + i) = none ∨ tRun.cell 0 (e.1 + i) ≠ tRun.cell 0 cisBase)
    ∧ tRun.mem.wf = true ∧ tRun.localWf = true
    ∧ tRun.failedChan (cisBase + 31) 2 = none ∧ tRun.failedStack (cisBase + 31) 2 = false
    ∧ (∀ u ∈ unitsOf (cisBase + 31) 2, ∀ i, i < 8 → tRun.markAt 0 (u + 4 * i) = 0)
    ∧ (∀ i, i < 2 → (tRun.cell 0 (cisBase + 31 + i)).isSome = true)
    ∧ (∀ j, j < 2 → ∀ i, i < j → tRun.cell 0 (cisBase + 31 + i) ≠ tRun.cell 0 (cisBase + 31 + j)) := by
  decide +kernel

/-! Well-formedness: each check refuses a term. -/

theorem test_wellFormed : (Instr.copyComplete 239 0).wellFormed = true ∧ (Instr.cmdNop ⟨16, 255, 0, 15⟩).wellFormed = true
    ∧ (Instr.replicaCheck (List.replicate 25 0)).wellFormed = true := by decide

theorem test_illFormed :
    [Instr.svnAdvance 17, .flrVf 0, .queueHaltClear 0 256, .itineraryDone 16, .cmdNop ⟨0, 1, 0, 256⟩, .fence ⟨240, 0⟩,
      .lockstepMismatch 0 22, .hbmReadTimeout 12, .cisternReadTimeout 6 0, .beaconDue 36, .pfcRepeatTimer 0 8,
      .thermalSample 25 0, .meshFlitLoss 0 4 .linkFrame, .msWatchdogFire 0 256, .regionDrained 4096, .serviceDue 16,
      .creditFrameReceived 0 [], .replicaCheck [], .phaseLearn 0 []].all (fun i => !i.wellFormed) = true := by decide

/-! The spec's worked examples. -/

/-- Table 2.13: 5.3 under RNE, and its neighbours in the text. -/
theorem test_narrowFormats :
    (let c := fun f (x : Nat) => (convertTo f 0 .rne (scaleDy 0x3F800000) (f32Val x)).pat
     [1, 2, 3, 4, 5, 6, 7].map (fun f => c f 0x40A9999A) = [0x40AA, 0x454D, 0x4B, 0x45, 0x15, 0x1B, 0x7]
     ∧ c 3 0x43FA0000 = 0x7E ∧ c 3 0x3A83126F = 1 ∧ c 4 0x47C35000 = 0x7C)
    ∧ (convertTo 3 8 .rne (scaleDy 0x3F800000) (f32Val 0x3A83126F)).pat = 0
    ∧ (convertTo 4 0 .rtz (scaleDy 0x3F800000) (f32Val 0x47C35000)).pat = 0x7B := by decide +kernel

/-- 1,000 at scale 4 in E4M3, and −3.5 at scale 2^−10 in a T72 container. -/
theorem test_scaledConversions :
    (convertTo 3 0 .rne (scaleDy 0x40800000) (f32Val 0x447A0000)).pat = 0x78
    ∧ leBytes 12 (convertTo 8 0 .rne (scaleDy 0x3A800000) (f32Val 0xC0600000)).pat
      = [0x00, 0xF2, 0xFF, 0xFF, 0xFF, 0xFF, 0xFF, 0xFF, 0xFF, 0xFF, 0xFF, 0xFF] := by decide +kernel

/-- The known answer of R54. -/
theorem test_philox : srWord 0 0 0 0 = 0x6627E8D5 := by decide +kernel

/-- Table 3.9: the chunk values of a split output. -/
theorem test_chunkValues :
    (let v := fun x => (layoutOf 1).value x
     chunkValue 1 [(v 0x4980, v 0x4980), (v 0x3840, v 0x3880)] = { c := 2 ^ 61 + 1, q := -21, side := 0 }
     ∧ chunkValue 1 [(v 0xC980, v 0x4980)] = { c := -2 ^ 61, q := -21, side := 0 }
     ∧ chunkValue 1 [(v 0x3FA0, v 0x3E80)] = { c := 5 * 2 ^ 59, q := -63, side := 0 }) := by decide +kernel

/-- One SGD-momentum element (chapter 4's example). -/
theorem test_sgdMomentum :
    (sgdMomentum (fun k => [0x3A83126F, 0x3F600000, 0, 0, 0, 0, 0].getD k 0)
      { g := 0x3F000000, w := 0x3F800000, m := 0, v := 0 }).w = 0x3F7FDF3B := by decide +kernel

/-- Table 7.13: three addresses. -/
theorem test_groups :
    (let m : Memory := { hgrps := [(0, { set := 0xFCF, base := 0, size := 36 }), (1, { set := 0x030, base := 360, size := 36 })],
                         cgrps := [(0, { set := 7, base := 0, size := 16 }), (1, { set := 8, base := 1152, size := 16 })] }
     m.hbmKey 0x00000015A40 = some (1 * 2 ^ 36 + 0x2A40) ∧ m.hbmKey 0x05A00003000 = some (5 * 2 ^ 36 + 0x1000)
     ∧ m.cisKey 0x22000007C00 = some ((16 * 1 + 4 * 3 + 3) * 2 ^ 34 + 0x400)) := by decide +kernel

/-- Chapter 10's example: a clamp with g = 2. -/
theorem test_clamp : clampT72 2 0x200000000000000005 = (0x1FFFFFFFFFFFFFFFFF, true) := by decide

/-- Table 11.5: the links of three frames of module 0x0_0013. -/
theorem test_routes :
    (let s : State :=
      { mod := { state := .run, inForce := some { switched := true, coord := 0x13, extents := [16, 16, 16, 16, 4, 4] } }
        lanternCfg := [(0, { extent := 16 })]
        links := (List.range 36).map (fun l => (l, { st := .up, role := if l < 6 then 1 else 2 })) }
     s.route isUp false 0x13 0x14 0xA41 = some 2 ∧ s.route isUp false 0x13 0x23 0x3002 = some 14
     ∧ s.route isUp false 0x13 0x18 0 = some 17) := by decide +kernel

/-- The queue is first in, first out, and an empty one lets a tick of 1 ns pass. -/
theorem test_queue :
    step { tRun with pending := [.leakCleared, .leakDetected] } = .next { tRun with pending := [.leakDetected] }
    ∧ ∃ t, step State.reset = .next t ∧ t.now = 1 :=
  ⟨rfl, _, rfl, by decide⟩

/-- The check value of CRC-32 over the IEEE 802.3 polynomial: the digits 1 to 9 in ASCII give 0xCBF4_3926. -/
theorem test_crc32 : crc32 [49, 50, 51, 52, 53, 54, 55, 56, 57] = 0xCBF43926 := by decide +kernel

end Sys2Proof.Tests
end

section
/-!
PROOFS. BAR0 accesses and the registers without a row of their own (chapters 0 and 14 of the spec): what a write or a
read comes to under the conditions of its rule, what a power operation leaves alone, and the statements O40 and O41.
-/

namespace Sys2Proof.Machine

/-! Writes of BAR0 (R11, R405, R428). -/

/-- A function sees a block only while BAR0 answers it (R405). -/
theorem State.barUp_of_sees {s : State} {fn : Nat} {b : BarBlock} (h : s.sees fn b = true) :
    s.barUp = true ∧ fn ≤ 16 := by
  simp only [State.sees, Bool.and_eq_true, decide_eq_true_eq] at h
  exact h.1

theorem State.barWrite_seen {s : State} {fn off : Nat} (w : Word)
    (h : s.sees fn ((locate off).1.bar (locate off).2) = true) (hr : s.mod.recovery = false) :
    s.barWrite fn off w = s.writeWord32 fn (locate off).1 (locate off).2 w := by
  simp [State.barWrite, State.onBar_sees _ h, hr]

theorem State.barWrite_unseen {s : State} {fn off : Nat} (w : Word)
    (h : s.sees fn ((locate off).1.bar (locate off).2) = false) : s.barWrite fn off w = s := by
  simp only [State.barWrite, State.onBar_unseen _ h]

theorem exec_registerWrite_narrow {off : Nat} (s : State) (fn : Nat) (v : DWord) (h : off % 4 = 0) :
    exec (.registerWrite fn off false v) s = .next (s.barWrite fn off (v.setWidth 32)) := by
  simp [exec, execRegisterWrite, h]

theorem exec_registerWrite_wide {off : Nat} (s : State) (fn : Nat) (v : DWord) (h : off % 8 = 0) :
    exec (.registerWrite fn off true v) s
      = .next ((s.barWrite fn off (v.setWidth 32)).barWrite fn (off + 4) ((v >>> 32).setWidth 32)) := by
  simp [exec, execRegisterWrite, h]

/-- Where PWR_STAT lies (Tables 12.6 and 14.3). -/
theorem locate_pwrStat : locate 0xF0010 = (.power, 0x10) := by decide

/-- PWR_STAT: a one clears THERMAL or DROOP (Table 12.6). -/
theorem State.writeWord32_pwrStat (s : State) (fn : Nat) (w : Word) :
    s.writeWord32 fn .power 0x10 w = { s with pwr := { s.pwr with
      thermal := s.pwr.thermal && !w.getLsbD 2, droop := s.pwr.droop && !w.getLsbD 3 } } := rfl

/-! Reads of BAR0 (R10, R11, R405). -/

/-- A low half latches its high half. -/
theorem State.read32_low {s : State} {fn off : Nat} {v : DWord}
    (h : s.read64 fn (locate off).1 (locate off).2 = some v) :
    s.read32 fn off = (s.modFn fn (fun y => { y with latch := tabSet y.latch off ((v >>> 32).setWidth 32) }),
      v.setWidth 32) := by
  simp only [State.read32, h]
  rfl

/-- A latched high half is returned once. -/
theorem State.read32_latched {s : State} {fn off lo : Nat} {x : Word} (ho : 4 ≤ off)
    (h : s.read64 fn (locate off).1 (locate off).2 = none)
    (hl : (s.fn fn).latch.find? (fun e => e.1 + 4 == off) = some (lo, x)) :
    s.read32 fn off = (s.modFn fn (fun y => { y with latch := tabErase y.latch lo }), x) := by
  simp only [State.read32, h, if_pos ho, hl]

/-- Neither a low half nor a latched high half: the live word, and what reading it does. -/
theorem State.read32_live {s : State} {fn off : Nat}
    (h : s.read64 fn (locate off).1 (locate off).2 = none)
    (hl : (s.fn fn).latch.find? (fun e => e.1 + 4 == off) = none) :
    s.read32 fn off
      = (s.afterRead fn (locate off).1 (locate off).2, s.word fn (locate off).1 (locate off).2) := by
  simp only [State.read32, h, hl, ite_self]

theorem State.word_clears {s u : State} {fn off : Nat} {b : RegBlock} {x : Word} (h : s.read64 fn b off = none)
    (hh : 4 ≤ off → s.read64 fn b (off - 4) = none) (hc : s.readClear b off = some (x, u)) :
    s.word fn b off = x := by
  have hhigh : (if 4 ≤ off then s.read64 fn b (off - 4) else none) = none := by
    split
    case isTrue ho => exact hh ho
    case isFalse => rfl
  simp only [State.word, h, hhigh, hc]

theorem State.word_plain {s : State} {fn off : Nat} {b : RegBlock} (h : s.read64 fn b off = none)
    (hh : 4 ≤ off → s.read64 fn b (off - 4) = none) (hc : s.readClear b off = none) :
    s.word fn b off = s.plainWord fn b off := by
  have hhigh : (if 4 ≤ off then s.read64 fn b (off - 4) else none) = none := by
    split
    case isTrue ho => exact hh ho
    case isFalse => rfl
  simp only [State.word, h, hhigh, hc]

theorem State.afterRead_clears {s u : State} {off : Nat} {b : RegBlock} {x : Word} (fn : Nat)
    (hc : s.readClear b off = some (x, u)) : s.afterRead fn b off = u := by
  simp only [State.afterRead, hc]

/-- A read of a register without RC fields changes something only in the logbook and in a core's window: `hlog` and
`hcore` leave the last branch. -/
theorem State.afterRead_plain {s : State} {off : Nat} {b : RegBlock} (fn : Nat) (hc : s.readClear b off = none)
    (hlog : b ≠ .logbook) (hcore : ∀ p, b ≠ .core p) : s.afterRead fn b off = s := by
  simp only [State.afterRead, hc]

theorem State.barRead_seen {s : State} {fn off : Nat}
    (h : s.sees fn ((locate off).1.bar (locate off).2) = true) :
    s.barRead fn off false = (s.read32 fn off).1.readBack fn ((s.read32 fn off).2.setWidth 64) := by
  simp [State.barRead, State.barUp_of_sees h, State.seenRead, h]

/-- What a function does not see reads as zero (R405). -/
theorem State.barRead_unseen {s : State} {fn off : Nat} (hu : s.barUp = true) (hf : fn ≤ 16)
    (h : s.sees fn ((locate off).1.bar (locate off).2) = false) :
    s.barRead fn off false = s.readBack fn 0 := by
  simp [State.barRead, hu, hf, State.seenRead, h]

/-- A 64-bit read of a 64-bit register is one access (R10). -/
theorem State.barRead_wide {s : State} {fn off : Nat} {v : DWord}
    (h : s.sees fn ((locate off).1.bar (locate off).2) = true)
    (hv : s.read64 fn (locate off).1 (locate off).2 = some v) :
    s.barRead fn off true = s.readBack fn v := by
  simp [State.barRead, State.barUp_of_sees h, h, hv]

theorem exec_registerReadClear_narrow {off : Nat} (s : State) (fn : Nat) (h : off % 4 = 0) :
    exec (.registerReadClear fn { off := off, wide := false }) s = .next (s.barRead fn off false) := by
  simp [exec, execRegisterReadClear, h]

theorem exec_registerReadClear_wide {off : Nat} (s : State) (fn : Nat) (h : off % 8 = 0) :
    exec (.registerReadClear fn { off := off, wide := true }) s = .next (s.barRead fn off true) := by
  simp [exec, execRegisterReadClear, h]

theorem exec_registerLowHalfRead {off : Nat} (s : State) (fn : Nat) (h : off % 4 = 0) :
    exec (.registerLowHalfRead fn off) s = .next (s.barRead fn off false) := by
  simp [exec, execRegisterLowHalfRead, h]

/-- A bad access is judged by its size and alignment alone (R9). -/
theorem exec_bar0BadAccess {s : State} {fn off n : Nat} (write : Bool) (hu : s.barUp = true) (hf : fn ≤ 16)
    (hn : 0 < n) (hbad : (n ≠ 4 ∧ n ≠ 8) ∨ off % n ≠ 0) :
    exec (.bar0BadAccess fn off n write) s
      = .next ((if write then s else s.readBack fn (BitVec.allOnes 64)).logPcie 0x0301 scIllegal fn 0 [w32 off]) :=
  congrArg Host.Outcome.next (if_pos ⟨hu, hf, hn, hbad⟩)

/-! Milestone definitions (R171) and time steps (R356). -/

theorem exec_msDefWrite_taken {s : State} {fn q off : Nat} {w : Word} {m : Milestones}
    (hs : s.sees fn (.part q) = true) (hq : q < 16) (ho : msDefOff off = true)
    (hst : (s.part q).st = .idle ∨ (s.part q).st = .loaded) (hsw : (s.part q).switching = none)
    (hm : (s.part q).ms.write off w = some m) :
    exec (.msDefWrite fn q off w) s = .next (s.modMs q (fun _ => m)) := by
  have hfree : (s.part q).switching.isNone = true := by rw [hsw]; rfl
  simp only [exec, execMsDefWrite, if_pos (And.intro hs (And.intro hq ho)), if_pos (And.intro hst hfree), hm]

theorem exec_msDefWrite_discarded {s : State} {fn q off : Nat} (w : Word) (hs : s.sees fn (.part q) = true)
    (hq : q < 16) (ho : msDefOff off = true) (hidle : (s.part q).st ≠ .idle) (hloaded : (s.part q).st ≠ .loaded) :
    exec (.msDefWrite fn q off w) s = .next (s.logMs q 0x0131 scIllegal
      (if 0x100 ≤ off ∧ off < 0x1100 then some ((off - 0x100) / 16) else none) []) := by
  have hst : ¬ (((s.part q).st = .idle ∨ (s.part q).st = .loaded) ∧ (s.part q).switching.isNone = true) :=
    fun h => h.1.elim hidle hloaded
  simp only [exec, execMsDefWrite, if_pos (And.intro hs (And.intro hq ho)), if_neg hst]

theorem exec_timeStep {s : State} {src : Source} (hi : Word) (h : s.mayWrite src .pf = true) :
    exec (.timeStep src hi) s = .next (s.timeStep hi) :=
  congrArg Host.Outcome.next (if_pos h)

theorem State.timeStep_taken {s : State} (hi : Word) (h : s.noneActive = true) :
    s.timeStep hi = { s with now := s.now + (hi ++ s.time.stepLo : DWord) }.logTime 0x4107 scOk
      (w64words (hi ++ s.time.stepLo)) := if_pos h

theorem State.timeStep_discarded {s : State} (hi : Word) (h : s.noneActive = false) :
    s.timeStep hi = s.logTime 0x4107 scIllegal (w64words (hi ++ s.time.stepLo)) := if_neg (by simp [h])

/-! What the power controller leaves alone (R336, R337). -/

/-- From `s` to `t` only the power block, the logbook and Serai's clock gaps may have changed. -/
def State.PowerOnly (s t : State) : Prop :=
  t = { s with pwr := t.pwr, log := t.log, gapSerai := t.gapSerai }

theorem State.PowerOnly.trans {s t u : State} (h : s.PowerOnly t) (k : t.PowerOnly u) : s.PowerOnly u :=
  calc u = { t with pwr := u.pwr, log := u.log, gapSerai := u.gapSerai } := k
    _ = { s with pwr := u.pwr, log := u.log, gapSerai := u.gapSerai } := by rw [h]

theorem State.powerOnly_pwr (s : State) (p : Power) : s.PowerOnly { s with pwr := p } := rfl

theorem State.logPower_powerOnly (s : State) (code status : Nat) (args : List Word) :
    s.PowerOnly (s.logPower 24 code status args) := by
  simp only [State.logPower, State.logAt, if_true]
  split <;> rfl

theorem State.logPower_pwr (s : State) (code status : Nat) (args : List Word) :
    (s.logPower 24 code status args).pwr = s.pwr := by
  simp only [State.logPower, State.logAt, if_true]
  split <;> rfl

theorem State.checkBreach_powerOnly (s : State) : s.PowerOnly s.checkBreach := by
  simp only [State.checkBreach]
  split
  · exact (s.powerOnly_pwr _).trans (State.logPower_powerOnly _ _ _ _)
  · exact s.powerOnly_pwr _

/-- Of the power block, a breach shows in BREACH alone (R345). -/
theorem State.checkBreach_pwr (s : State) : s.checkBreach.pwr
    = { s.pwr with breach := decide (s.pwr.eff.toNat < s.sealedW + s.pwr.uncoreW.toNat) } := by
  simp only [State.checkBreach]
  split
  · rw [State.logPower_pwr]
  · rfl

theorem State.applyLimit_powerOnly (s : State) (taken : Bool) : s.PowerOnly (s.applyLimit taken) := by
  simp only [State.applyLimit]
  refine State.PowerOnly.trans ?_ (State.checkBreach_powerOnly _)
  have hset := s.powerOnly_pwr { s.pwr with
    eff := BitVec.ofNat 16 s.limitNow, undervolt := s.supplyLimits,
    supplyMv := BitVec.ofNat 16 (min s.phys.vin 65535) }
  split <;> split
  · exact (hset.trans (State.logPower_powerOnly _ _ _ _)).trans (State.logPower_powerOnly _ _ _ _)
  · exact hset.trans (State.logPower_powerOnly _ _ _ _)
  · exact hset.trans (State.logPower_powerOnly _ _ _ _)
  · exact hset

/-- The limit in force is the effective limit of R337, and the budget stays. -/
theorem State.applyLimit_pwr (s : State) (taken : Bool) :
    (s.applyLimit taken).pwr.eff = BitVec.ofNat 16 s.limitNow ∧ (s.applyLimit taken).pwr.budget = s.pwr.budget := by
  simp only [State.applyLimit, State.checkBreach_pwr]
  split <;> split <;> simp only [State.logPower_pwr, and_self]

/-- The limit in force is within the budget and the module's 3,000 W (R337). -/
theorem State.applyLimit_eff_le (s : State) (taken : Bool) :
    (s.applyLimit taken).pwr.eff.toNat ≤ s.pwr.budget.toNat ∧ (s.applyLimit taken).pwr.eff.toNat ≤ 3000 := by
  have hlimit : s.limitNow ≤ s.pwr.budget.toNat ∧ s.limitNow ≤ 3000 := by
    unfold State.limitNow
    omega
  have heff : (s.applyLimit taken).pwr.eff.toNat ≤ s.limitNow := by
    rw [(s.applyLimit_pwr taken).1, BitVec.toNat_ofNat]
    exact Nat.mod_le _ _
  exact ⟨heff.trans hlimit.1, heff.trans hlimit.2⟩

/-- A legal budget is taken and bounds the limit in force (R336). -/
theorem State.writeBudget_taken (s : State) {w : Word} (hlo : 600 ≤ w.toNat % 65536) (hhi : w.toNat % 65536 ≤ 3000) :
    (s.writeBudget w).pwr.budget.toNat = w.toNat % 65536 ∧ (s.writeBudget w).pwr.eff.toNat ≤ w.toNat % 65536
      ∧ (s.writeBudget w).pwr.eff.toNat ≤ 3000 ∧ s.PowerOnly (s.writeBudget w) := by
  have hbudget : (BitVec.ofNat 16 (w.toNat % 65536)).toNat = w.toNat % 65536 := Nat.mod_mod _ _
  simp only [State.writeBudget, if_pos (And.intro hlo hhi)]
  obtain ⟨hle, h3000⟩ := State.applyLimit_eff_le
    { s with pwr := { s.pwr with budget := BitVec.ofNat 16 (w.toNat % 65536) } } true
  rw [(State.applyLimit_pwr _ true).2]
  exact ⟨hbudget, hle.trans_eq hbudget, h3000, (s.powerOnly_pwr _).trans (State.applyLimit_powerOnly _ true)⟩

theorem exec_pwrBudgetWrite {s : State} {src : Source} (w : Word) (h : s.mayWrite src .pf = true) :
    exec (.pwrBudgetWrite src w) s = .next (s.writeBudget w) :=
  congrArg Host.Outcome.next (if_pos h)

/-! The statements. -/

/-- Settles O40: the size and the alignment alone decide (R9). -/
theorem badBarAccessDiscarded : Obligations.BadBarAccessDiscarded := by
  intro s fn off n hu hf hn hbad
  exact ⟨exec_bar0BadAccess false hu hf hn hbad, exec_bar0BadAccess true hu hf hn hbad⟩

/-- Settles O41, clause by clause: each access comes to the block operation that its lemma above names. -/
theorem registersComplete : Obligations.RegistersComplete := by
  intro s u fn off lo v w x src q m
  refine ⟨fun hs hr => ⟨fun ho => ?_, fun ho hv => ?_, fun ho hv => ?_, fun ho h4 hn hl => ?_,
      fun ho hn hh hl => ⟨fun hc => ?_, fun hc hlog hcore => ?_⟩⟩,
    fun hs ho => ⟨?_, fun hu hf => ⟨?_, ?_⟩⟩, fun hs hr => ?_, exec_registerWrite_wide s fn v,
    fun hs hq ho => ⟨exec_msDefWrite_taken hs hq ho, exec_msDefWrite_discarded w hs hq ho⟩,
    fun hm => ⟨fun ha => ?_, fun ha => ?_, fun hlo hhi => ?_⟩⟩
  · rw [exec_registerWrite_narrow s fn v ho, State.barWrite_seen _ hs hr]
  · rw [exec_registerLowHalfRead s fn ho, State.barRead_seen hs, State.read32_low hv]
  · rw [exec_registerReadClear_wide s fn ho, State.barRead_wide hs hv]
  · rw [exec_registerReadClear_narrow s fn ho, State.barRead_seen hs, State.read32_latched h4 hn hl]
  · rw [exec_registerReadClear_narrow s fn ho, State.barRead_seen hs, State.read32_live hn hl,
      State.afterRead_clears fn hc, State.word_clears hn hh hc]
  · rw [exec_registerReadClear_narrow s fn ho, State.barRead_seen hs, State.read32_live hn hl,
      State.afterRead_plain fn hc hlog hcore, State.word_plain hn hh hc]
  · rw [exec_registerWrite_narrow s fn v ho, State.barWrite_unseen _ hs]
  · rw [exec_registerReadClear_narrow s fn ho, State.barRead_unseen hu hf hs]
  · rw [exec_registerLowHalfRead s fn ho, State.barRead_unseen hu hf hs]
  · rw [exec_registerWrite_narrow s fn v (by decide), State.barWrite_seen _ (by rwa [locate_pwrStat]) hr,
      locate_pwrStat, State.writeWord32_pwrStat]
    simp
  · rw [exec_timeStep w hm, State.timeStep_taken w ha]
  · rw [exec_timeStep w hm, State.timeStep_discarded w ha]
  · obtain ⟨hb, hle, h3000, hframe⟩ := s.writeBudget_taken hlo hhi
    exact ⟨s.writeBudget w, exec_pwrBudgetWrite w hm, hb, hle, h3000, hframe⟩

end Sys2Proof.Machine
end

section
/-!
PROOFS. Events of the memories and the causeway (chapters 1 and 7 of the spec): what a logbook entry and a commit of the
lifetime ledger leave alone, what each event comes to under its rule's conditions, and the statement O38.
-/

namespace Sys2Proof.Machine

/-! What a logbook entry and a commit leave alone. -/

/-- Taking a gap mark changes no cistern die. -/
theorem State.takeGap_cis (s : State) (src : LogSrc) (m : Nat) : (s.takeGap src).cis m = s.cis m := by
  cases src <;> rfl

theorem State.takeGap_mod (s : State) (src : LogSrc) : (s.takeGap src).mod = s.mod := by
  cases src <;> rfl

@[simp] theorem State.logCis_cis (s : State) (n code status : Nat) (part : Option Nat) (args : List Word) (m : Nat) :
    (s.logCis n code status part args).cis m = s.cis m := by
  unfold State.logCis State.logAt
  dsimp only
  split
  · exact State.takeGap_cis _ _ m
  · rfl

/-- The HBM controllers keep no gap mark (Table 12.1), so an entry of theirs changes no die. -/
@[simp] theorem State.logHbm_die (s : State) (k code status : Nat) (part : Option Nat) (args : List Word) (n : Nat) :
    (s.logHbm k code status part args).die n = s.die n := by
  unfold State.logHbm State.logAt
  dsimp only
  split <;> rfl

@[simp] theorem State.logSerai_mod (s : State) (code status : Nat) (part : Option Nat) (args : List Word) :
    (s.logSerai code status part args).mod = s.mod := by
  unfold State.logSerai State.logAt
  dsimp only
  split
  · exact State.takeGap_mod _ _
  · rfl

/-- A commit of the lifetime ledger begins in the ledger alone. -/
theorem State.lifeBegin_eq (s : State) : s.lifeBegin = { s with life := s.lifeBegin.life } := by
  unfold State.lifeBegin
  split <;> rfl

@[simp] theorem State.lifeBegin_cis (s : State) (m : Nat) : s.lifeBegin.cis m = s.cis m := by
  rw [State.lifeBegin_eq]
  rfl

@[simp] theorem State.lifeBegin_die (s : State) (n : Nat) : s.lifeBegin.die n = s.die n := by
  rw [State.lifeBegin_eq]
  rfl

/-! Failures of memories (R206, R209). -/

/-- The model's bit of a number is the bit vector's. -/
theorem bitAt_toNat {w : Nat} (v : BitVec w) (i : Nat) : bitAt v.toNat i = v.getLsbD i := by
  rw [BitVec.getLsbD, Nat.testBit_eq_decide_div_mod_eq]
  rfl

/-- Bit `c` once it is set, and once it is cleared. -/
theorem bitAt_set_clear {w c : Nat} (u v : BitVec w) (hc : c < w) :
    bitAt (u ||| BitVec.ofNat w (2 ^ c)).toNat c = true ∧ bitAt (v &&& ~~~BitVec.ofNat w (2 ^ c)).toNat c = false := by
  have hbit : (BitVec.ofNat w (2 ^ c)).getLsbD c = true := by
    rw [BitVec.getLsbD_ofNat, Nat.testBit_two_pow_self, decide_eq_true hc, Bool.and_true]
  simp only [bitAt_toNat, BitVec.getLsbD_or, BitVec.getLsbD_and, BitVec.getLsbD_not, hbit, Bool.or_true, Bool.not_true,
    Bool.and_false, and_self]

/-- Of its cistern die, a channel that fails changes FAILED and READY alone (R206). -/
theorem State.failChannel_cis (s : State) (m c : Nat) :
    (s.failChannel m c).cis m = { s.cis m with
      failed := (s.cis m).failed ||| BitVec.ofNat 16 (2 ^ c),
      ready := (s.cis m).ready &&& ~~~BitVec.ofNat 16 (2 ^ c) } := by
  simp only [State.failChannel, State.lifeBegin_cis, State.modLife_cis, State.logCis_cis, State.modCis_cis, if_true]

/-- A stack that fails is FAILED and no longer READY (R209). -/
theorem State.failStack_hbm (s : State) (n : Nat) :
    ((s.failStack n).die n).hbm.failed = true ∧ ((s.failStack n).die n).hbm.ready = false := by
  simp [State.failStack]

theorem exec_cisternReadTimeout {s : State} {m : Nat} {chan : BitVec 4} (hs : s.clocked = true) (hm : m < 6)
    (hf : bitAt (s.cis m).failed.toNat chan.toNat = false) :
    exec (.cisternReadTimeout m chan) s = .next (s.failChannel m chan.toNat) := by
  simp [exec, execCisternReadTimeout, State.failOnce, hs, hm, hf]

theorem exec_hbmReadTimeout {s : State} {n : Nat} (hs : s.clocked = true) (hn : n < 12)
    (hf : (s.die n).hbm.failed = false) : exec (.hbmReadTimeout n) s = .next (s.failStack n) :=
  congrArg Host.Outcome.next (if_pos ⟨hs, hn, hf⟩)

/-! Corrected words and the patrol (R211, R214, R215). -/

theorem exec_correctedWriteback_cistern {s : State} {word : Nat} (hs : s.clocked = true)
    (hw : s.mem.cisWb.contains word = true) :
    exec (.correctedWriteback true word) s = .next { s with mem := { s.mem with
      cisErr := tabPut 0 s.mem.cisErr word 0, cisWb := s.mem.cisWb.filter (· != word) } } := by
  simp only [exec, execCorrectedWriteback, if_pos hs, if_pos hw, if_true]

theorem exec_correctedWriteback_hbm {s : State} {word : Nat} (hs : s.clocked = true)
    (hw : s.mem.hbmWb.contains word = true) :
    exec (.correctedWriteback false word) s = .next { s with mem := { s.mem with
      hbmErr := tabPut 0 s.mem.hbmErr word 0, hbmWb := s.mem.hbmWb.filter (· != word) } } := by
  simp only [exec, execCorrectedWriteback, if_pos hs, if_pos hw, Bool.false_eq_true, if_false]

theorem exec_patrolRead_hbm {s : State} {n : Nat} (word : Nat) (passEnd : Bool) (hs : s.clocked = true)
    (hn : n < 12) : exec (.patrolRead false n word passEnd) s = .next (s.patrolHbm n word passEnd) := by
  simp only [exec, execPatrolRead, if_pos hs, if_pos hn, Bool.false_eq_true, if_false]

theorem exec_patrolRead_cistern {s : State} {m : Nat} (word : Nat) (passEnd : Bool) (hs : s.clocked = true)
    (hm : m < 6) : exec (.patrolRead true m word passEnd) s = .next (s.patrolCis m word passEnd) := by
  simp only [exec, execPatrolRead, if_pos hs, if_pos hm, if_true]

/-- A word of a stack without a mark is neither corrected nor reported. -/
theorem State.patrolHbm_clean {s : State} {n word : Nat} (passEnd : Bool) (hen : (s.die n).hbm.patrolEn = true)
    (hf : (s.die n).hbm.failed = false) (hw : word < stackWords)
    (hv : tabGet 0 s.mem.hbmErr (n * 2 ^ 34 + word) = 0) :
    let s1 := s.modDie n (fun d => { d with hbm := { d.hbm with
      patrolPos := if passEnd then 0 else BitVec.ofNat 16 (word * 65536 / stackWords), patrolActive := true } })
    s.patrolHbm n word passEnd = if passEnd then s1.logHbm n 0x3005 scOk none [] else s1 := by
  unfold State.patrolHbm
  dsimp only
  rw [if_pos ⟨hen, hf, hw⟩, hv]
  rfl

/-- A word of a cistern die without a mark is neither corrected nor reported, whether its channel has failed or not. -/
theorem State.patrolCis_clean {s : State} {m word : Nat} (passEnd : Bool) (hen : (s.cis m).patrolEn = true)
    (hw : word < cisDieWords) (hv : tabGet 0 s.mem.cisErr (m * cisDieWords + word) = 0) :
    let s1 := s.modCis m (fun x => { x with
      patrolPos := if passEnd then 0 else BitVec.ofNat 16 (word * 65536 / cisDieWords) })
    s.patrolCis m word passEnd = if passEnd then s1.logCis m 0x3105 scOk none [] else s1 := by
  unfold State.patrolCis
  dsimp only
  rw [if_pos ⟨hen, hw⟩, hv, ite_self]
  rfl

/-! Spurs (R222). -/

theorem exec_spurFlitError_corrected {s : State} {rx tx : Nat} (hs : s.clocked = true)
    (he : spurEdge rx tx = true) : exec (.spurFlitError rx tx 0) s = .next (s.flitCorrected rx) :=
  congrArg Host.Outcome.next (if_pos ⟨hs, he⟩)

/-- Up to three failures the flit is sent again. -/
theorem exec_spurFlitError_resent {s : State} {rx tx fails : Nat} (hs : s.clocked = true)
    (he : spurEdge rx tx = true) (hlo : 1 ≤ fails) (hhi : fails ≤ 3) :
    exec (.spurFlitError rx tx fails) s = .next { s with cwy := { (s.flitBad rx 4 true).cwy with
      retry := tabMod 0 s.cwy.retry tx (satAdd · 1) } } := by
  have hsome : ¬ fails = 0 := by omega
  have hfew : fails < 4 := by omega
  simp only [exec, execSpurFlitError, if_pos (And.intro hs he), if_neg hsome, if_pos hfew]
  rfl

theorem exec_spurFlitError_fourth {s : State} {rx tx : Nat} (hs : s.clocked = true) (he : spurEdge rx tx = true) :
    exec (.spurFlitError rx tx 4) s
      = .next (((s.flitBad rx 4 false).logSerai 0x0102 scUncorr none []).enterFault 2) :=
  congrArg Host.Outcome.next (if_pos ⟨hs, he⟩)

/-- Whether the clocks run is read off the module's state (Table 12.2). -/
theorem State.clocked_congr {s t : State} (h : t.mod = s.mod) : t.clocked = s.clocked := by
  simp only [State.clocked, h]

/-- While the clocks run, FAULT is entered with its cause (Table 14.11). -/
theorem State.enterFault_mod {s : State} (cause : Nat) (hs : s.clocked = true) :
    (s.enterFault cause).mod = { s.mod with state := .fault, fault := BitVec.ofNat 4 cause } := by
  simp only [State.enterFault, if_pos hs, State.setMod, State.logSerai_mod]

/-! The mesh (R20, R222). -/

theorem exec_meshFlitLoss_corrected {s : State} {rx port : Nat} (hs : s.clocked = true)
    (hp : (meshPeer rx port).isSome = true) (hx : s.crosses .corrected rx port = true) :
    exec (.meshFlitLoss rx port .corrected) s = .next (s.flitCorrected rx) :=
  congrArg Host.Outcome.next (if_pos ⟨hs, hp, hx⟩)

/-- The state after a flit is lost at a mesh port, before the outcome of its transfer: CWY_UNCORR, CWY_LAST and code
0x0161 (R222). -/
def State.flitLost (s : State) (rx port : Nat) : State :=
  (s.flitBad rx port false).logAt (.die rx) 0x0161 scUncorr none []
    [(s.flitBad rx port false).cwy.lastWord, tabGet 0 (s.flitBad rx port false).cwy.uncorr rx]

theorem exec_meshFlitLoss_lost {s : State} {rx port : Nat} {x : Transfer} (hs : s.clocked = true)
    (hp : (meshPeer rx port).isSome = true) (hx : s.crosses x rx port = true) (hne : x ≠ .corrected) :
    exec (.meshFlitLoss rx port x) s = .next ((s.flitLost rx port).transferLoss x) := by
  simp only [exec, execMeshFlitLoss, if_pos (And.intro hs (And.intro hp hx)), if_neg hne]
  rfl

/-- Lost trace records are counted by their core (Table 7.14). -/
theorem State.transferLoss_traceData (s : State) (n k records : Nat) :
    (s.transferLoss (.traceData n k records)).core (22 * n + k)
      = { s.core (22 * n + k) with trcLost := satAdd (s.core (22 * n + k)).trcLost records } := by
  simp [State.transferLoss]

/-! The statement. -/

/-- Settles O38, clause by clause: each event comes to the operation that its lemma above names. -/
theorem memoryEventsComplete : Obligations.MemoryEventsComplete := by
  intro s m n word rx tx port fails chan passEnd x corrected bad lost hs
  refine ⟨fun hm hf => ?cistern, fun hn hf => ?stack, exec_correctedWriteback_cistern hs,
    exec_correctedWriteback_hbm hs, fun hn hen hf hw hv => ?patrolHbm, fun hm hen hw hv => ?patrolCis,
    fun he => ⟨exec_spurFlitError_corrected hs he, exec_spurFlitError_resent hs he, ?spurFault⟩,
    fun hp hx => ⟨?corrected, exec_meshFlitLoss_lost hs hp hx, ?hostCopy, ?traceData, ?noEffect⟩⟩
  case cistern =>
    refine ⟨_, exec_cisternReadTimeout hs hm hf, rfl, ?_⟩
    rw [s.failChannel_cis m chan.toNat]
    exact bitAt_set_clear _ _ chan.isLt
  case stack =>
    obtain ⟨hfailed, hready⟩ := s.failStack_hbm n
    exact ⟨_, exec_hbmReadTimeout hs hn hf, rfl, hfailed, hready⟩
  case patrolHbm =>
    rw [exec_patrolRead_hbm word passEnd hs hn, State.patrolHbm_clean passEnd hen hf hw hv]
  case patrolCis =>
    rw [exec_patrolRead_cistern word passEnd hs hm, State.patrolCis_clean passEnd hen hw hv]
  case spurFault =>
    have hmod : ((s.flitBad rx 4 false).logSerai 0x0102 scUncorr none []).mod = s.mod := State.logSerai_mod _ _ _ _ _
    have hfault := State.enterFault_mod 2 ((State.clocked_congr hmod).trans hs)
    exact ⟨_, exec_spurFlitError_fourth hs he, congrArg Module.state hfault, congrArg Module.fault hfault⟩
  case corrected =>
    rintro rfl
    exact exec_meshFlitLoss_corrected hs hp hx
  case hostCopy =>
    rintro h rfl
    rfl
  case traceData =>
    rintro a b r rfl
    exact lost.transferLoss_traceData a b r
  case noEffect =>
    rintro (rfl | rfl) <;> rfl

end Sys2Proof.Machine
end

section
/-!
PROOFS. Number formats (chapter 2 of the spec): zeros, DRAW, CONV and VEC under the conditions of their rules, and the
statements O18, O20 and O21.
-/

namespace Sys2Proof.Machine

/-! Zeros (R31). -/

theorem Layout.signBit_pos (l : Layout) : 0 < l.signBit := Nat.two_pow_pos _

/-- Every layout has the zero of each sign: its sign bit alone. -/
theorem Layout.value_zero (l : Layout) (neg : Bool) :
    l.value (if neg then l.signBit else 0) = .fin neg 0 (1 - (l.bias : Int) - l.mbits) := by
  have hpos := l.signBit_pos
  cases neg with
  | false => simp [Layout.value, Nat.pos_iff_ne_zero.mp hpos]
  | true => simp [Layout.value, Nat.mod_eq_of_lt (show l.signBit < 2 * l.signBit by omega)]

/-- A zero is neither tiny nor too large: its sign is all that is written. -/
theorem Layout.convert_zero (l : Layout) (flush : Bool) (r : RMode) (neg : Bool) (d : Nat) :
    l.convert flush r neg 0 d = { pat := if neg then l.signBit else 0 } := by
  simp [Layout.convert, Layout.tiny, Layout.roundMag]

theorem convertTo_zero {fmt : Nat} (flush : Byte) (r : RMode) (s : Dy) (neg : Bool) (e : Int) (h : fmt ≠ fmtT72) :
    convertTo fmt flush r s (.fin neg 0 e) = { pat := if neg then (layoutOf fmt).signBit else 0 } := by
  simp [convertTo, h, Dy.fracDiv, Layout.convert_zero]

/-- Settles O18: a zero's magnitude is zero at every scale, so neither the mode nor the scale is looked at. -/
theorem zerosKeepTheirSign : Obligations.ZerosKeepTheirSign := by
  intro fmt flush r scale neg e hfmt _ l z
  have hne : fmt ≠ fmtT72 := Nat.ne_of_lt hfmt
  rw [convertTo_zero flush r (scaleDy scale) neg e hne]
  exact ⟨rfl, rfl, fun b => ⟨_, l.value_zero b⟩⟩

/-! Issue, and going on. -/

@[simp] theorem State.counted_partNo (s : State) (p l : Nat) : (s.counted p).partNo l = s.partNo l :=
  State.setCore_partNo _ _ _ _

@[simp] theorem State.counted_conv (s : State) (p : Nat) : ((s.counted p).core p).conv = (s.core p).conv := by
  simp [State.counted, Core.issuedTo]

@[simp] theorem State.counted_maskOf (s : State) (p wm : Nat) :
    ((s.counted p).core p).maskOf wm = (s.core p).maskOf wm := by
  simp [State.counted, Core.maskOf, Core.issuedTo]

/-- A write issues at once where no FENCE is in progress (R168). -/
theorem State.issueWrite_unfenced {s : State} {l : Nat} {i : Instr} {p pc : Nat} {stm : BitVec 3} (g : State → State)
    (h : s.Issues l i p pc) (hf : (s.core p).fence = none) : s.issueWrite p stm g = g (s.counted p) := by
  unfold State.issueWrite
  rw [hf]
  exact congrArg g (State.issued_of h)

theorem State.advance_inside {s : State} {p : Nat} {stm : BitVec 3} (h : (s.core p).pc + 1 < (s.core p).insns.length) :
    s.advance p stm = s.modCore p (fun c => { c with pc := c.pc + 1 }) := if_pos h

/-! Drawdowns (R74 to R82). -/

/-- The job of a DRAW before its waybills and scales are read. -/
def Core.drawJob (c : Core) (lrow m1 n1 : BitVec 6) (rmode : BitVec 3) (srbits : BitVec 2) (keep : Bool)
    (wm : BitVec 4) : DrawJob :=
  { lrow := lrow.toNat, m := m1.toNat + 1, n := n1.toNat + 1, keep := keep, dst := noWaybill,
    rnd := { rmode := rmode.toNat, srb := srbits.toNat, conv := c.conv },
    mask := c.maskOf wm.toNat, sa := ⟨1, 0⟩, sb := ⟨1, 0⟩, sd := ⟨1, 0⟩ }

/-- A DRAW that LOAD_ITINERARY would not refuse reads its waybills. -/
theorem exec_draw_legal {s : State} {i : Issue} {p : Nat} {lrow m1 n1 : BitVec 6} {dst : BitVec 14} {rmode : BitVec 3}
    {srbits : BitVec 2} {keep : Bool} {wm : BitVec 4} {image : Bool} {sa sb : BitVec 14}
    (h : s.Issues i.core (.draw i lrow m1 n1 dst rmode srbits keep wm image sa sb) p ((s.core p).pc + 1))
    (hf : (s.core p).fence = none) (hrow : lrow.toNat + (m1.toNat + 1) ≤ 64) (hwm : wm.toNat ≤ 8)
    (hmode : rmodeOk rmode.toNat srbits.toNat = true)
    (himage : image = true → rmode = 0 ∧ srbits = 0 ∧ wm = 0 ∧ sa = 0 ∧ sb = 0) :
    exec (.draw i lrow m1 n1 dst rmode srbits keep wm image sa sb) s
      = .next (if image then (s.counted p).drawImage p (s.partNo i.core) i.stm
            ((s.core p).drawJob lrow m1 n1 rmode srbits keep wm) dst
          else (s.counted p).drawTensor p (s.partNo i.core) i.stm
            ((s.core p).drawJob lrow m1 n1 rmode srbits keep wm) dst sa sb) := by
  have hlegal : ¬ (64 < lrow.toNat + (m1.toNat + 1) ∨ 8 < wm.toNat ∨ rmodeOk rmode.toNat srbits.toNat = false
      ∨ (image = true ∧ ¬(rmode = 0 ∧ srbits = 0 ∧ wm = 0 ∧ sa = 0 ∧ sb = 0))) := by
    rintro (hr | hw | hm | ⟨hi, hn⟩)
    · omega
    · omega
    · exact Bool.false_ne_true (hm.symm.trans hmode)
    · exact hn (himage hi)
  simp only [exec, execDraw, h.1, State.issueWrite_unfenced _ h hf, if_neg hlegal, State.counted_partNo,
    State.counted_conv, State.counted_maskOf, Core.drawJob]

/-- A drawdown into a tensor runs once its waybills and scales are read (R37, R78). -/
theorem State.drawTensor_reads {u : State} {p q : Nat} {stm : BitVec 3} {j : DrawJob} {dst sa sb : BitVec 14}
    {w wa wb : Waybill} {da db dd : Dy} (hw : u.readWb p q stm dst true = (u, some w))
    (ha : u.readWb p q stm sa false = (u, some wa)) (hb : u.readWb p q stm sb false = (u, some wb))
    (hn : w.ext 2 = j.n) (hm : w.ext 0 * w.ext 1 = j.m) (hda : u.scaleOf p q stm wa = (u, some da))
    (hdb : u.scaleOf p q stm wb = (u, some db)) (hdd : u.scaleOf p q stm w = (u, some dd)) :
    u.drawTensor p q stm j dst sa sb = u.runDraw p q stm { j with dst := w, sa := da, sb := db, sd := dd } false := by
  have hshape : ¬ (w.ext 2 ≠ j.n ∨ w.ext 0 * w.ext 1 ≠ j.m) := by simp [hn, hm]
  simp only [State.drawTensor, hw, ha, hb, if_neg hshape, hda, hdb, hdd]

theorem State.drawImage_reads {u : State} {p q : Nat} {stm : BitVec 3} {j : DrawJob} {dst : BitVec 14} {w : Waybill}
    (hw : u.readWb p q stm dst true = (u, some w)) (hshape : imageShape w j.m j.n = true) :
    u.drawImage p q stm j dst = u.runDraw p q stm { j with dst := w } true := by
  simp only [State.drawImage, hw, if_pos hshape]

/-- With its toll paid, records of kind 3 off and all its rows drawn, a drawdown goes on, and its busy bits end. -/
theorem State.runDraw_goesOn {u v z : State} {p q : Nat} {stm : BitVec 3} {j : DrawJob} {image : Bool}
    (hv : u.debitStore p j.dst.rows = some v) (htr : (v.core p).traces 3 = false)
    (hz : (if image then (v.arrBusy p false true).imageRows p q stm j
      else (v.arrBusy p false true).drawRows p q stm j) = (z, true))
    (hpc : (z.core p).pc + 1 < (z.core p).insns.length) :
    u.runDraw p q stm j image = (z.modCore p (fun c => { c with pc := c.pc + 1 })).arrBusy p false false := by
  simp only [State.runDraw, hv, State.traceDraw, State.traceAt_off htr, State.whileBusy, hz, if_true,
    State.advance_inside hpc]

/-- A row without an injection whose entries resolve and whose store succeeds is drawn. -/
theorem State.drawRow_stores {s t : State} {p q : Nat} {stm : BitVec 3} {j : DrawJob} {m : Nat}
    (hinj : (s.core p).lreg.injDraw = false) (hstop : ((s.core p).ledgRun.readRow j.lrow m j.n j.keep).1.stop = none)
    (hstore :
      let rr := (s.core p).ledgRun.readRow j.lrow m j.n j.keep
      let x := (s.talliesAdd p ((tlDRAW, j.n) :: (if j.rnd.isSr then [(tlSR, j.n)] else []))).setLedger p rr.1
      let outs := rr.2.zipIdx.map (fun e => j.convert (s.core p).conv.flush m e.2 e.1)
      (x.drawFlags p j m outs).storeRow p q j m outs = (t, false)) :
    s.drawRow p q stm j m = (t, true) := by
  simp only [State.drawRow, hinj, State.endLedger, hstop, hstore, Bool.false_eq_true, if_false, Bool.not_true]

theorem State.imageRow_stores {s t : State} {p q : Nat} {stm : BitVec 3} {j : DrawJob} {m : Nat}
    (hinj : (s.core p).lreg.injDraw = false) (hstop : ((s.core p).ledgRun.readRow j.lrow m j.n j.keep).1.stop = none)
    (hstore :
      let rr := (s.core p).ledgRun.readRow j.lrow m j.n j.keep
      ((s.talliesAdd p [(tlDRAW, j.n), (tlIMG, j.n)]).setLedger p rr.1).coreWrite p q
        [(j.rowAddr m, rr.2.flatMap LedgerEntry.image)] stm [j.dst.tag] = (t, true)) :
    s.imageRow p q stm j m = (t, true) := by
  simp only [State.imageRow, hinj, State.endLedger, hstop, hstore, Bool.false_eq_true, if_false, Bool.not_true]

theorem State.drawRows_one (s : State) (p q : Nat) (stm : BitVec 3) {j : DrawJob} (hm : j.m = 1) :
    s.drawRows p q stm j = s.drawRow p q stm j 0 := by
  simp [State.drawRows, hm]

theorem State.imageRows_one (s : State) (p q : Nat) (stm : BitVec 3) {j : DrawJob} (hm : j.m = 1) :
    s.imageRows p q stm j = s.imageRow p q stm j 0 := by
  simp [State.imageRows, hm]

/-- The first row lies at the destination's base (R478). -/
theorem DrawJob.rowAddr_zero (j : DrawJob) : j.rowAddr 0 = j.dst.base := by
  simp [DrawJob.rowAddr]

theorem State.arrBusy_injDraw (s : State) (p : Nat) (issue draw : Bool) :
    ((s.arrBusy p issue draw).core p).lreg.injDraw = (s.core p).lreg.injDraw := by
  simp [State.arrBusy]

/-- Settles O20: a DRAW comes to its rows, and one row to one store. -/
theorem drawComplete : Obligations.DrawComplete := by
  refine ⟨?tensor, ?image⟩
  case tensor =>
    intro s v z i p lrow m1 n1 dst sa sb rmode srbits keep wm w wa wb da db dd q c u rnd j d rr x outs y
      hi hf hrow hwm hmode hw ha hb hn hm hda hdb hdd hv htr
    have hrows (t : State) (ht : d.drawRows p q i.stm j = (t, true))
        (hpc : (t.core p).pc + 1 < (t.core p).insns.length) :
        exec (.draw i lrow m1 n1 dst rmode srbits keep wm false sa sb) s
          = .next ((t.modCore p (fun c => { c with pc := c.pc + 1 })).arrBusy p false false) := by
      rw [exec_draw_legal hi hf hrow hwm hmode Bool.false_ne_true.elim]
      exact congrArg Host.Outcome.next
        ((State.drawTensor_reads hw ha hb hn hm hda hdb hdd).trans (State.runDraw_goesOn hv htr ht hpc))
    refine ⟨hrows z, fun hm1 hinj hstop hy => hrows y.1 ?_⟩
    have hone : j.m = 1 := by simp [j, hm1]
    rw [State.drawRows_one d p q i.stm hone]
    exact State.drawRow_stores ((v.arrBusy_injDraw p false true).trans hinj) hstop (Prod.ext rfl hy)
  case image =>
    intro s v y i p lrow n1 dst keep w q c u n d rr x hi hf hrow hw hshape hv htr hinj hstop hy hpc
    rw [exec_draw_legal hi hf hrow (by decide) (by decide) (fun _ => ⟨rfl, rfl, rfl, rfl, rfl⟩)]
    have hdrawn : d.imageRows p q i.stm { c.drawJob lrow 0 n1 0 0 keep 0 with dst := w } = (y, true) := by
      rw [State.imageRows_one d p q i.stm rfl]
      refine State.imageRow_stores ((v.arrBusy_injDraw p false true).trans hinj) hstop ?_
      rw [DrawJob.rowAddr_zero]
      exact hy
    exact congrArg Host.Outcome.next
      ((State.drawImage_reads hw hshape).trans (State.runDraw_goesOn hv htr hdrawn hpc))

/-! CONV (R37 to R48). -/

/-- With its toll paid and its results stored, a conversion goes on. -/
theorem State.runConv_stores {u v y : State} {p q : Nat} {stm : BitVec 3} {a b : Waybill} {rnd : Rounding} {clr : Bool}
    {ss sd : Dy} {els : List Nat} (hv : u.debitStore p b.rows = some v)
    (hy :
      let flush := (v.core p).conv.flush
      let outs := convAll a b flush rnd ss sd els
      let fl := els.any (fun e => (sourceElem a.fmt flush e).2)
      let v0 := if clr then
          v.modCore p (fun c => (c.modRec a.trec (fun _ => {})).modRec b.trec (fun _ => {}))
        else v
      let v1 := v0.modCore p (fun c =>
        (c.modRec a.trec (fun r => r.readFrom fl)).modRec b.trec (fun r => r.writtenAll outs))
      (v1.talliesAdd p ((tlCONV, outs.length) :: (if rnd.isSr then [(tlSR, outs.length)] else []))).coreWrite p q
        (b.storeAll (outs.map (fun o => o.2.pat))) stm [b.tag] = (y, true))
    (hpc : (y.core p).pc + 1 < (y.core p).insns.length) :
    u.runConv p q stm a b rnd clr ss sd els = y.modCore p (fun c => { c with pc := c.pc + 1 }) := by
  simp only [State.runConv, hv, hy, if_true, State.advance_inside hpc]

/-- A CONV runs once its waybills, scales and piece are read. -/
theorem exec_conv_reads {s : State} {i : Issue} {p : Nat} {src dst : BitVec 14} {rmode : BitVec 3}
    {srbits : BitVec 2} {clr : Bool} {a b : Waybill} {ss sd : Dy} {els : List Nat}
    (h : s.Issues i.core (.conv i src dst rmode srbits clr) p ((s.core p).pc + 1)) (hf : (s.core p).fence = none)
    (hmode : rmodeOk rmode.toNat srbits.toNat = true)
    (ha : (s.counted p).readWb p (s.partNo i.core) i.stm src false = (s.counted p, some a))
    (hb : (s.counted p).readWb p (s.partNo i.core) i.stm dst true = (s.counted p, some b)) (hab : a.piece = b.piece)
    (hss : (s.counted p).scaleOf p (s.partNo i.core) i.stm a = (s.counted p, some ss))
    (hsd : (s.counted p).scaleOf p (s.partNo i.core) i.stm b = (s.counted p, some sd))
    (hels : (s.counted p).readPiece p (s.partNo i.core) i.stm a = (s.counted p, some els)) :
    exec (.conv i src dst rmode srbits clr) s
      = .next ((s.counted p).runConv p (s.partNo i.core) i.stm a b
          { rmode := rmode.toNat, srb := srbits.toNat, conv := (s.core p).conv } clr ss sd els) := by
  simp only [exec, execConv, h.1, State.issueWrite_unfenced _ h hf, State.counted_partNo, hmode, Bool.true_eq_false,
    if_false, ha, hb, hab, ne_eq, not_true_eq_false, hss, hsd, hels, State.counted_conv]

/-! VEC (R142, Table 5.6). -/

/-- With its operands read, its toll paid and its results stored, an operation goes on. -/
theorem State.runVec_stores {u v1 v2 v v3 y : State} {p q : Nat} {stm : BitVec 3} {op : Nat} {yrow : Bool} {imm : Word}
    {xw yw zw ww : Waybill} {xs ys ws : List Nat}
    (hx : u.readVec p q stm (vecKind op).t43 xw = (v1, some xs))
    (hys : v1.readVecIf p q stm (vecKind op).t43 (vecKind op).y yw = (v2, some ys))
    (hws : v2.readVecIf p q stm (vecKind op).t43 (vecKind op).w ww = (v, some ws))
    (hv : v.debitStore p (if (vecKind op).wOut then zw.rows ++ ww.rows else zw.rows) = some v3)
    (hy :
      let k := vecKind op
      let rows := xw.ext 0 * xw.ext 1
      let out := vecResults op imm.toNat rows (xw.ext 2) (ww.ext 2) xs
        (if k.y then (if yrow then spread (xw.ext 2) ys else ys) else List.replicate xs.length 0)
        (if k.w then ws else List.replicate (rows * ww.ext 2) 0)
      (v3.tallyAdd p tlVEC (out.1.length + out.2.length)).coreWrite p q
        (zw.storeAll out.1 ++ (if k.wOut then ww.storeAll out.2 else [])) stm [zw.tag] = (y, true))
    (hpc : (y.core p).pc + 1 < (y.core p).insns.length) :
    u.runVec p q stm op yrow imm xw yw zw ww = y.modCore p (fun c => { c with pc := c.pc + 1 }) := by
  simp only [State.runVec, hx, hys, hws, hv, hy, if_true, State.advance_inside hpc]

/-- A VEC runs once its waybills are read and have the shapes of its operation. -/
theorem exec_vec_reads {s : State} {i : Issue} {p : Nat} {vop : Byte} {rx ry rz rw : BitVec 14} {yrow : Bool}
    {imm : Word} {xw yw zw ww : Waybill}
    (h : s.Issues i.core (.vec i vop rx ry rz rw yrow imm) p ((s.core p).pc + 1)) (hf : (s.core p).fence = none)
    (hok : (vecKind vop.toNat).ok = true)
    (hx : (s.counted p).readWb p (s.partNo i.core) i.stm rx false = (s.counted p, some xw))
    (hy : (s.counted p).readWbIf p (s.partNo i.core) i.stm (vecKind vop.toNat).y ry false xw
      = (s.counted p, some yw))
    (hz : (s.counted p).readWb p (s.partNo i.core) i.stm rz true = (s.counted p, some zw))
    (hw : (s.counted p).readWbIf p (s.partNo i.core) i.stm ((vecKind vop.toNat).w || (vecKind vop.toNat).wOut) rw
      (vecKind vop.toNat).wOut xw = (s.counted p, some ww))
    (hshape : vecShape vop.toNat yrow xw yw zw ww = true) :
    exec (.vec i vop rx ry rz rw yrow imm) s
      = .next ((s.counted p).runVec p (s.partNo i.core) i.stm vop.toNat yrow imm xw yw zw ww) := by
  simp only [exec, execVec, h.1, State.issueWrite_unfenced _ h hf, State.counted_partNo, hok, Bool.not_true,
    Bool.false_eq_true, if_false, hx, hy, hz, hw, hshape, if_true]

/-- Settles O21: each comes to its operation on what it has read, and the operation to one store. -/
theorem convVecComplete : Obligations.ConvVecComplete := by
  refine ⟨?conv, ?vec⟩
  case conv =>
    intro s v y i p src dst rmode srbits clr a b ss sd els q u rnd flush outs fl v0 v1
      hi hf hmode ha hb hab hss hsd hels hv hy hpc
    rw [exec_conv_reads hi hf hmode ha hb hab hss hsd hels]
    exact congrArg Host.Outcome.next (State.runConv_stores hv hy hpc)
  case vec =>
    intro s v1 v2 v v3 y i p vop rx ry rz rw yrow imm xw yw zw ww xs ys ws q u k rows out
      hi hf hok hx hyw hz hw hshape hxs hys hws hv hy hpc
    rw [exec_vec_reads hi hf hok hx hyw hz hw hshape]
    exact congrArg Host.Outcome.next (State.runVec_stores hxs hys hws hv hy hpc)

end Sys2Proof.Machine
end

section
/-!
PROOFS. The ledger's arithmetic (chapter 3 of the spec): windows of an integer, pending carries, resolutions and adds, and the
statement O19.
-/

namespace Sys2Proof.Machine

/-! Windows of a number. -/

/-- A word whose bits from `top` up stay, the sign among them, changes as an integer as it does as a number. -/
theorem toInt_ofNat_of_div_eq {w top n : Nat} {l : BitVec w} (htop : top < w) (h : n / 2 ^ top = l.toNat / 2 ^ top) :
    (BitVec.ofNat w n).toInt = l.toInt + ((n : Int) - l.toNat) := by
  have hbelow (k m : Nat) : m < 2 ^ k * 2 ^ top ↔ m / 2 ^ top < 2 ^ k :=
    (Nat.div_lt_iff_lt_mul (Nat.two_pow_pos top)).symm
  have hfull : 2 ^ w = 2 ^ (w - top) * 2 ^ top := by rw [← pow_add, Nat.sub_add_cancel htop.le]
  have hhalf : 2 ^ w = 2 * (2 ^ (w - 1 - top) * 2 ^ top) := by
    rw [← pow_add, ← pow_succ', show w - 1 - top + top + 1 = w by omega]
  have hn : n < 2 ^ w := by rw [hfull, hbelow, h, ← hbelow, ← hfull]; exact l.isLt
  have hsign : 2 * n < 2 ^ w ↔ 2 * l.toNat < 2 ^ w := by
    rw [hhalf, Nat.mul_lt_mul_left two_pos, Nat.mul_lt_mul_left two_pos, hbelow, hbelow, h]
  rw [BitVec.toInt_eq_toNat_cond, BitVec.toInt_eq_toNat_cond, BitVec.toNat_ofNat, Nat.mod_eq_of_lt hn]
  by_cases hl : 2 * l.toNat < 2 ^ w
  · rw [if_pos (hsign.mpr hl), if_pos hl]
    ring
  · rw [if_neg (hsign.not.mpr hl), if_neg hl]
    ring

/-- A number is what lies above, in and below its window of `w` bits from bit `lo`. -/
theorem eq_above_window_below (n lo w : Nat) :
    n = n / 2 ^ (lo + w) * 2 ^ (lo + w) + n / 2 ^ lo % 2 ^ w * 2 ^ lo + n % 2 ^ lo := by
  have hwindow := Nat.div_add_mod (n / 2 ^ lo) (2 ^ w)
  rw [Nat.div_div_eq_div_mul, ← pow_add] at hwindow
  calc n = 2 ^ lo * (n / 2 ^ lo) + n % 2 ^ lo := (Nat.div_add_mod n (2 ^ lo)).symm
    _ = 2 ^ lo * (2 ^ w * (n / 2 ^ (lo + w)) + n / 2 ^ lo % 2 ^ w) + n % 2 ^ lo := by rw [hwindow]
    _ = _ := by rw [pow_add]; ring

/-- Another value in a window leaves what lies above it. -/
theorem div_of_window_set (n : Nat) {lo w x : Nat} (hx : x < 2 ^ w) :
    (n - n / 2 ^ lo % 2 ^ w * 2 ^ lo + x * 2 ^ lo) / 2 ^ (lo + w) = n / 2 ^ (lo + w) := by
  have hsplit := eq_above_window_below n lo w
  have hin : x * 2 ^ lo + n % 2 ^ lo < 2 ^ (lo + w) :=
    calc x * 2 ^ lo + n % 2 ^ lo < x * 2 ^ lo + 2 ^ lo := by
          have := Nat.mod_lt n (Nat.two_pow_pos lo)
          omega
      _ = (x + 1) * 2 ^ lo := by ring
      _ ≤ 2 ^ w * 2 ^ lo := Nat.mul_le_mul_right _ hx
      _ = 2 ^ (lo + w) := by rw [pow_add, Nat.mul_comm]
  have hset : n - n / 2 ^ lo % 2 ^ w * 2 ^ lo + x * 2 ^ lo
      = (x * 2 ^ lo + n % 2 ^ lo) + n / 2 ^ (lo + w) * 2 ^ (lo + w) := by omega
  rw [hset, Nat.add_mul_div_right _ _ (Nat.two_pow_pos _), Nat.div_eq_of_lt hin, Nat.zero_add]

/-- Below 2^w in magnitude, what a window of `w` bits holds of a number is short of it by 2^w where it is negative. -/
theorem toNat_emod_two_pow {x : Int} {w : Nat} (hlo : -(2 ^ w) ≤ x) (hhi : x < 2 ^ w) :
    (((x % 2 ^ w).toNat : Nat) : Int) = x + if x < 0 then 2 ^ w else 0 := by
  rw [Int.toNat_of_nonneg (Int.emod_nonneg x (by positivity))]
  split
  case isTrue hneg => rw [← Int.add_emod_right, Int.emod_eq_of_lt (by omega) (by omega)]
  case isFalse hpos => rw [Int.emod_eq_of_lt (by omega) hhi, add_zero]

/-! Pending carries (R68, R72). -/

theorem LedgerEntry.pendSum_eq_sum (e : LedgerEntry) :
    e.pendSum = ∑ j ∈ Finset.range 10, e.pendAt j * 2 ^ (64 * (j + 1)) :=
  List.sum_eq_foldl.symm

theorem LedgerEntry.value_of_pend_nil {e : LedgerEntry} (h : e.pend = []) : e.value = e.l.toInt := by
  simp [LedgerEntry.value, LedgerEntry.pendSum_eq_sum, LedgerEntry.pendAt, h]

/-- A carry added to one limb's adds its weight to the carries (Table 3.4). -/
theorem LedgerEntry.pendSum_of_carry {e r : LedgerEntry} {hi : Nat} {carry : Int} (hhi : hi < 10)
    (h : ∀ j < 10, r.pendAt j = e.pendAt j + if j = hi then carry else 0) :
    r.pendSum = e.pendSum + carry * 2 ^ (64 * (hi + 1)) := by
  rw [r.pendSum_eq_sum, e.pendSum_eq_sum]
  calc ∑ j ∈ Finset.range 10, r.pendAt j * 2 ^ (64 * (j + 1))
      = ∑ j ∈ Finset.range 10, (e.pendAt j * 2 ^ (64 * (j + 1))
          + if j = hi then carry * 2 ^ (64 * (hi + 1)) else 0) := by
        refine Finset.sum_congr rfl fun j hj => ?_
        rw [h j (Finset.mem_range.mp hj), add_mul, ite_mul, zero_mul]
        split
        case isTrue hj => rw [hj]
        case isFalse => rfl
    _ = _ := by rw [Finset.sum_add_distrib, Finset.sum_ite_eq', if_pos (Finset.mem_range.mpr hhi)]

/-! Resolution (R72, R73). -/

theorem toInt_ofInt_inLedger {v : Int} (h : inLedger v = true) : (BitVec.ofInt 704 v).toInt = v := by
  simp only [inLedger, Bool.and_eq_true, decide_eq_true_eq] at h
  exact BitVec.toInt_ofInt_eq_self (by decide) h.1 h.2

/-- A resolution that succeeds takes the carries into the limbs and leaves the rest. -/
theorem LedgerEntry.resolve_ok {e r : LedgerEntry} (hz : e.z = false) (h : e.resolve = .ok r) :
    inLedger e.value = true ∧ r = { e with l := BitVec.ofInt 704 e.value, pend := [] } := by
  unfold LedgerEntry.resolve at h
  rw [if_neg (by simp [hz])] at h
  split at h
  · cases h
  · rename_i hin
    split at h
    · exact ⟨by simpa using hin, (LedgOut.ok.inj h).symm⟩
    · cases h

theorem LedgerEntry.resolve_exact {e r : LedgerEntry} (hz : e.z = false) (h : e.resolve = .ok r) :
    r.l.toInt = e.value ∧ r.pend = [] ∧ r.z = false := by
  obtain ⟨hin, rfl⟩ := LedgerEntry.resolve_ok hz h
  exact ⟨toInt_ofInt_inLedger hin, rfl, hz⟩

/-! Adds (R71). -/

/-- An add that reaches limb 10 resolves first, so it adds to the value itself. -/
theorem LedgerEntry.addTop_exact {e r : LedgerEntry} {add : Int} {res : Nat} (hz : e.z = false)
    (h : e.addTop add res = .ok r) : r.value = e.value + add ∧ r.z = false := by
  unfold LedgerEntry.addTop at h
  split at h
  case h_1 x hx =>
    obtain ⟨hl, hp, hxz⟩ := LedgerEntry.resolve_exact hz hx
    dsimp only at h
    split at h
    case isTrue hin =>
      have hr := LedgOut.ok.inj h
      have hlimbs : r.l = BitVec.ofInt 704 (x.l.toInt + add) := hr ▸ rfl
      have hnil : r.pend = [] := hr ▸ hp
      rw [LedgerEntry.value_of_pend_nil hnil, hlimbs, toInt_ofInt_inLedger hin, hl]
      exact ⟨rfl, hr ▸ hxz⟩
    case isFalse => cases h
  case h_2 x hx => exact absurd h (hx r)

/-- Width of an add's window in bits. -/
def windowBits (q : Int) : Nat := 64 * (windowHi q - windowLo q + 1)

/-- What an add's window holds before it, and what is added there (R71, step 2). -/
def LedgerEntry.windowOld (e : LedgerEntry) (q : Int) : Nat := e.l.toNat / 2 ^ (64 * windowLo q) % 2 ^ windowBits q

def ChunkVal.windowAdd (v : ChunkVal) : Nat :=
  (v.c * 2 ^ ((v.q + 384).toNat - 64 * windowLo v.q) % 2 ^ windowBits v.q).toNat

/-- The carry that an add leaves pending at its window's highest limb (R71, step 3). -/
def LedgerEntry.windowCarry (e : LedgerEntry) (v : ChunkVal) : Int :=
  ((e.windowOld v.q + v.windowAdd) / 2 ^ windowBits v.q : Nat) - (if v.c < 0 then 1 else 0)

theorem LedgerEntry.addWindow_l (e : LedgerEntry) (v : ChunkVal) (res : Nat) : (e.addWindow v res).l
    = BitVec.ofNat 704 (e.l.toNat - e.windowOld v.q * 2 ^ (64 * windowLo v.q)
        + (e.windowOld v.q + v.windowAdd) % 2 ^ windowBits v.q * 2 ^ (64 * windowLo v.q)) := rfl

theorem LedgerEntry.addWindow_z (e : LedgerEntry) (v : ChunkVal) (res : Nat) : (e.addWindow v res).z = e.z := rfl

theorem LedgerEntry.addWindow_pendAt (e : LedgerEntry) (v : ChunkVal) (res : Nat) {j : Nat} (hj : j < 10) :
    (e.addWindow v res).pendAt j = e.pendAt j + if j = windowHi v.q then e.windowCarry v else 0 := by
  change ((List.range 10).map fun j => e.pendAt j + if j = windowHi v.q then e.windowCarry v else 0).getD j 0 = _
  simp [List.getD, hj]

/-- The window of C × 2^(q + 384) holds its 72 bits and its sign (R71). -/
theorem window_spans {q : Int} (hq : -384 ≤ q) :
    64 * windowLo q ≤ (q + 384).toNat ∧ (q + 384).toNat + 72 < 64 * windowLo q + windowBits q
      ∧ 64 * windowLo q + windowBits q = 64 * (windowHi q + 1) := by
  unfold windowBits windowHi windowLo
  omega

/-- What is added in the window, as an integer. -/
theorem ChunkVal.windowAdd_eq {v : ChunkVal} (hq : -384 ≤ v.q) (hlo : -(2 ^ 72) < v.c) (hhi : v.c < 2 ^ 72) :
    (v.windowAdd : Int) = v.c * 2 ^ ((v.q + 384).toNat - 64 * windowLo v.q)
      + if v.c < 0 then 2 ^ windowBits v.q else 0 := by
  obtain ⟨hle, hspan, _⟩ := window_spans hq
  have hfits : (2 : Int) ^ 72 * 2 ^ ((v.q + 384).toNat - 64 * windowLo v.q) ≤ 2 ^ windowBits v.q := by
    rw [← pow_add]
    exact pow_le_pow_right₀ one_le_two (by omega)
  have hpos : (0 : Int) < 2 ^ ((v.q + 384).toNat - 64 * windowLo v.q) := by positivity
  have hsign : v.c * 2 ^ ((v.q + 384).toNat - 64 * windowLo v.q) < 0 ↔ v.c < 0 := by
    exact ⟨fun h => neg_of_mul_neg_left h hpos.le, fun h => mul_neg_of_neg_of_pos h hpos⟩
  unfold ChunkVal.windowAdd
  rw [toNat_emod_two_pow (by nlinarith) (by nlinarith)]
  simp only [hsign]

/-- What an add puts into its window is short of the sum by its carry's weight. -/
theorem LedgerEntry.windowSum_mod (e : LedgerEntry) {v : ChunkVal} (hq : -384 ≤ v.q) (hlo : -(2 ^ 72) < v.c)
    (hhi : v.c < 2 ^ 72) :
    (((e.windowOld v.q + v.windowAdd) % 2 ^ windowBits v.q : Nat) : Int) - e.windowOld v.q
      = v.c * 2 ^ ((v.q + 384).toNat - 64 * windowLo v.q) - e.windowCarry v * 2 ^ windowBits v.q := by
  have hdiv := congrArg (Nat.cast (R := Int)) (Nat.div_add_mod (e.windowOld v.q + v.windowAdd) (2 ^ windowBits v.q))
  have hadd := ChunkVal.windowAdd_eq hq hlo hhi
  unfold LedgerEntry.windowCarry
  push_cast at hdiv ⊢
  by_cases hneg : v.c < 0
  · rw [if_pos hneg] at hadd ⊢
    linear_combination hdiv + hadd
  · rw [if_neg hneg] at hadd ⊢
    linear_combination hdiv + hadd

/-- In the limbs, an add below limb 10 is short of C × 2^(q + 384) by its carry's weight. -/
theorem LedgerEntry.addWindow_toInt (e : LedgerEntry) {v : ChunkVal} (res : Nat) (hq : -384 ≤ v.q)
    (htop : windowHi v.q < 10) (hlo : -(2 ^ 72) < v.c) (hhi : v.c < 2 ^ 72) :
    (e.addWindow v res).l.toInt
      = e.l.toInt + v.c * 2 ^ (v.q + 384).toNat - e.windowCarry v * 2 ^ (64 * (windowHi v.q + 1)) := by
  obtain ⟨hle, _, hbits⟩ := window_spans hq
  have hold : e.windowOld v.q * 2 ^ (64 * windowLo v.q) ≤ e.l.toNat :=
    (Nat.mul_le_mul_right _ (Nat.mod_le _ _)).trans (Nat.div_mul_le_self _ _)
  have habove : (e.l.toNat - e.windowOld v.q * 2 ^ (64 * windowLo v.q)
        + (e.windowOld v.q + v.windowAdd) % 2 ^ windowBits v.q * 2 ^ (64 * windowLo v.q))
      / 2 ^ (64 * windowLo v.q + windowBits v.q) = e.l.toNat / 2 ^ (64 * windowLo v.q + windowBits v.q) :=
    div_of_window_set e.l.toNat (Nat.mod_lt _ (Nat.two_pow_pos _))
  have hweight : (2 : Int) ^ (64 * (windowHi v.q + 1)) = 2 ^ windowBits v.q * 2 ^ (64 * windowLo v.q) := by
    rw [← hbits, pow_add, mul_comm]
  have hscale : (2 : Int) ^ (v.q + 384).toNat
      = 2 ^ ((v.q + 384).toNat - 64 * windowLo v.q) * 2 ^ (64 * windowLo v.q) := by
    rw [← pow_add, Nat.sub_add_cancel hle]
  rw [e.addWindow_l v res, toInt_ofNat_of_div_eq (by omega) habove, hscale, hweight, Nat.cast_add, Nat.cast_sub hold]
  rw [Nat.cast_mul, Nat.cast_mul, Nat.cast_pow, Nat.cast_ofNat]
  linear_combination (2 : Int) ^ (64 * windowLo v.q) * e.windowSum_mod hq hlo hhi

/-- An add below limb 10 is exact once its carry is counted (R71). -/
theorem LedgerEntry.addWindow_exact (e : LedgerEntry) {v : ChunkVal} (res : Nat) (hq : -384 ≤ v.q)
    (htop : windowHi v.q < 10) (hlo : -(2 ^ 72) < v.c) (hhi : v.c < 2 ^ 72) :
    (e.addWindow v res).value = e.value + v.c * 2 ^ (v.q + 384).toNat := by
  have hlimbs := e.addWindow_toInt res hq htop hlo hhi
  have hcarries := LedgerEntry.pendSum_of_carry htop (fun j hj => e.addWindow_pendAt v res hj)
  unfold LedgerEntry.value
  linear_combination hlimbs + hcarries

/-- The sidecar flags are no part of the value (R67). -/
theorem LedgerEntry.addChunk_exact {e r : LedgerEntry} {v : ChunkVal} (hz : e.z = false) (hq : -384 ≤ v.q)
    (htop : windowHi v.q ≤ 10) (hlo : -(2 ^ 72) < v.c) (hhi : v.c < 2 ^ 72) (h : (e.addChunk v).1 = .ok r) :
    r.value = e.value + v.c * 2 ^ (v.q + 384).toNat ∧ r.z = false := by
  have hopen : e.opened = e := if_neg (by simp [hz])
  unfold LedgerEntry.addChunk at h
  rw [hopen] at h
  dsimp only at h
  split at h
  case isTrue hnone =>
    obtain rfl := LedgOut.ok.inj h
    rw [hnone.1, zero_mul, add_zero]
    exact ⟨rfl, hz⟩
  case isFalse =>
    split at h
    case isTrue => exact LedgerEntry.addTop_exact (e := { e with side := e.side ||| v.side }) hz h
    case isFalse hlow =>
      have hbelow : windowHi v.q < 10 := by omega
      split at h
      case isTrue =>
        obtain rfl := LedgOut.ok.inj h
        exact ⟨LedgerEntry.addWindow_exact _ _ hq hbelow hlo hhi, hz⟩
      case isFalse =>
        split at h
        case h_1 x hx =>
          obtain rfl := LedgOut.ok.inj h
          obtain ⟨hl, hp, hxz⟩ := LedgerEntry.resolve_exact (e := { e with side := e.side ||| v.side }) hz hx
          rw [LedgerEntry.addWindow_exact _ _ hq hbelow hlo hhi, LedgerEntry.value_of_pend_nil hp, hl]
          exact ⟨rfl, hxz⟩
        case h_2 x hx => exact absurd h (hx r)

/-- Settles O19: an add below limb 10 is exact with its carry, and one that reaches limb 10 adds to a resolved value. -/
theorem ledgerAddExact : Obligations.LedgerAddExact := by
  intro e r v hz _ hq htop hlo hhi
  refine ⟨LedgerEntry.addChunk_exact hz hq htop hlo hhi, fun h => ?_⟩
  obtain ⟨hl, hp, _⟩ := LedgerEntry.resolve_exact hz h
  exact ⟨(LedgerEntry.value_of_pend_nil hp).trans hl, hl, hp⟩

end Sys2Proof.Machine
end

section
/-!
PROOFS. Work on a core's ledger (chapter 3 of the spec): what an instruction or a fault changes in its core and leaves alone
elsewhere, what ARRAY and ARRAYI come to under the conditions of their rules, and the statement O17.
-/

namespace Sys2Proof.Machine

/-! What an instruction or a fault does to its core. -/

/-- Core `c` with what core `d` has recorded: its tallies, its trace and its clock gaps. -/
def Core.withRecords (c d : Core) : Core :=
  { c with tally := d.tally, gapLog := d.gapLog, gapTrace := d.gapTrace, trace := d.trace, trcLost := d.trcLost,
           trcDropped := d.trcDropped }

/-- From `s` to `t` only core `p` and the logbook have changed, and core `p` is now `c` but for its records. -/
structure State.CoreBecomes (s : State) (p : Nat) (c : Core) (t : State) : Prop where
  frame : t = { s with cores := t.cores, log := t.log }
  others : ∀ k, k ≠ p → t.core k = s.core k
  own : t.core p = c.withRecords (t.core p)

/-- Core `c` once it works on its ledger, or no longer does (Table 3.12). -/
def Core.busy (c : Core) (issue draw : Bool) : Core :=
  { c with lreg := { c.lreg with issueBusy := issue, drawBusy := draw, resolving := false } }

/-- Core `c` with ledger run `r` stored. -/
def Core.withLedger (c : Core) (r : LedgRun) : Core :=
  { c with ledger := r.tab, ledgerErr := r.err, lreg := { c.lreg with corr := satAdd c.lreg.corr r.corr.length } }

/-- Core `c` at its next instruction. -/
def Core.stepped (c : Core) : Core := { c with pc := c.pc + 1 }

/-- Core `c` after a core fault (R146). -/
def Core.faultedBy (c : Core) (status code : Nat) (own : Bool) (stm : BitVec 3) : Core :=
  { c with st := .faulted, wait := .none, faultStatus := st8 status,
           faultCode := BitVec.ofNat 16 (if code = 0 then 0x1001 else code), faultPc := c.pc, faultStm := stm,
           faultPending := true, faultOwn := own }

theorem State.coreBecomes_self (s : State) (p : Nat) : s.CoreBecomes p (s.core p) s := ⟨rfl, fun _ _ => rfl, rfl⟩

namespace State.CoreBecomes

variable {s t : State} {p : Nat} {c : Core}

/-- A change of the core leaves it as `c'` but for its records: it makes `c'` of `c`, or changes records alone. -/
theorem modCore {c' : Core} {g : Core → Core} (hg : ∀ d, g (c.withRecords d) = c'.withRecords (g (c.withRecords d)))
    (h : s.CoreBecomes p c t) : s.CoreBecomes p c' (t.modCore p g) where
  frame := congrArg (fun x : State => { x with cores := (t.modCore p g).cores }) h.frame
  others k hk := by rw [State.modCore_eq, State.setCore_core, if_neg hk, h.others k hk]
  own := by
    rw [State.modCore_eq, State.setCore_core, if_pos rfl, h.own]
    exact hg _

/-- What is no record reads as in `c`. -/
theorem reads {α : Type} {f : Core → α} (hf : ∀ d, f (c.withRecords d) = f c) (h : s.CoreBecomes p c t) :
    f (t.core p) = f c := (congrArg f h.own).trans (hf _)

theorem setLog (l : Logbook) (h : s.CoreBecomes p c t) : s.CoreBecomes p c { t with log := l } where
  frame := congrArg (fun x : State => { x with log := l }) h.frame
  others := h.others
  own := h.own

/-- An entry of the core takes its gap mark (R358). -/
theorem logAt (code status : Nat) (part : Option Nat) (args snaps : List Word) (h : s.CoreBecomes p c t) :
    s.CoreBecomes p c (t.logAt (.core p) code status part args snaps) := by
  unfold State.logAt
  dsimp only
  split
  · exact (h.setLog _).modCore (c' := c) (g := fun c => { c with gapLog := c.gapLog.taken }) fun _ => rfl
  · exact h.setLog _

theorem logCore (code status : Nat) (args : List Word) (h : s.CoreBecomes p c t) :
    s.CoreBecomes p c (t.logCore p code status args) := h.logAt _ _ _ _ _

theorem eachDo {α : Type} {g : α → State → State}
    (hg : ∀ x t, s.CoreBecomes p c t → s.CoreBecomes p c (g x t)) (l : List α) (h : s.CoreBecomes p c t) :
    s.CoreBecomes p c (Sys2Proof.Machine.eachDo l g t) := by
  induction l generalizing t with
  | nil => exact h
  | cons x l ih => exact ih (hg x t h)

theorem tallyAdd (idx n : Nat) (h : s.CoreBecomes p c t) : s.CoreBecomes p c (t.tallyAdd p idx n) := by
  unfold State.tallyAdd
  dsimp only
  have hset := h.modCore (c' := c) (g := fun c => { c with
    tally := tabSet c.tally idx (tabGet 0 (t.core p).tally idx + BitVec.ofNat 80 n) }) fun _ => rfl
  split
  · exact hset.logCore _ _ _
  · exact hset

theorem talliesAdd (l : List (Nat × Nat)) (h : s.CoreBecomes p c t) : s.CoreBecomes p c (t.talliesAdd p l) :=
  h.eachDo (fun e _ ht => ht.tallyAdd e.1 e.2) l

/-- A record is put into the buffer or dropped and counted (R444). -/
theorem tracePut (r : TraceRec) (h : s.CoreBecomes p c t) : s.CoreBecomes p c (t.tracePut p r) := by
  unfold State.tracePut
  dsimp only
  split
  · exact h.modCore (g := fun c => { c with trace := c.trace ++ [r], gapTrace := c.gapTrace.taken }) fun _ => rfl
  · exact (h.modCore (g := fun c => { c with trcLost := satAdd c.trcLost 1, trcDropped := c.trcDropped + 1 })
      fun _ => rfl).logCore _ _ _

theorem traceLost (h : s.CoreBecomes p c t) : s.CoreBecomes p c (t.traceLost p) := by
  unfold State.traceLost
  dsimp only
  split
  · exact h
  · exact (h.modCore (g := fun c => { c with trcDropped := 0 }) fun _ => rfl).tracePut _

theorem traceAt (k : Nat) (tag : BitVec 16) (stm : BitVec 3) (a b : DWord) (h : s.CoreBecomes p c t) :
    s.CoreBecomes p c (t.traceAt p k tag stm a b) := by
  unfold State.traceAt
  split
  · exact h.traceLost.tracePut _
  · exact h

theorem advance (stm : BitVec 3) (hpc : c.pc + 1 < c.insns.length) (h : s.CoreBecomes p c t) :
    s.CoreBecomes p c.stepped (t.advance p stm) := by
  have hinside : (t.core p).pc + 1 < (t.core p).insns.length := by
    rwa [h.reads (f := Core.pc) fun _ => rfl, h.reads (f := Core.insns) fun _ => rfl]
  rw [State.advance_inside hinside]
  exact h.modCore (g := Core.stepped) fun _ => rfl

/-- A core fault whose code is known to the logbook writes code 0x1001 and a trace record besides (R146). -/
theorem coreFaultSeen (status code : Nat) (isOwn : Bool) (stm : BitVec 3) (h : s.CoreBecomes p c t) :
    s.CoreBecomes p (c.faultedBy status code isOwn stm) (t.coreFaultSeen p status code isOwn stm) :=
  ((h.modCore (g := fun c => c.faultedBy status code isOwn stm) fun _ => rfl).logCore _ _ _).traceAt _ _ _ _ _

theorem arrBusy (issue draw : Bool) (h : s.CoreBecomes p c t) :
    s.CoreBecomes p (c.busy issue draw) (t.arrBusy p issue draw) :=
  h.modCore (g := fun c => c.busy issue draw) fun _ => rfl

theorem setLedger (r : LedgRun) (h : s.CoreBecomes p c t) : s.CoreBecomes p (c.withLedger r) (t.setLedger p r) := by
  have hlogged := (h.modCore (c' := c.withLedger r) (g := fun c => c.withLedger r) fun _ => rfl).eachDo
    (g := fun _ t => t.logLedger p 0x1034 0) (fun _ _ ht => ht.logAt _ _ _ _ _) r.corr
  unfold State.setLedger
  dsimp only
  split
  · exact hlogged
  · exact hlogged.tallyAdd _ _

end State.CoreBecomes

/-! Work on a ledger (R70 to R74). -/

/-- A core after an instruction has left its ledger as `r` and has gone on. -/
def Core.ledgerDone (c : Core) (r : LedgRun) : Core := (((c.busy true false).withLedger r).stepped).busy false false

/-- The work of an array instruction on a ledger, which leaves `r`: stored, and on to the next instruction unless it
stopped. The busy bits stand meanwhile. -/
def State.ledgerWork (s : State) (p : Nat) (stm : BitVec 3) (r : LedgRun) : State :=
  s.whileBusy p true false (fun u =>
    let e := u.endLedger p r stm
    if e.2 then e.1.advance p stm else e.1)

theorem State.CoreBecomes.ledgerWork {s t : State} {p : Nat} {c : Core} {r : LedgRun} (stm : BitVec 3)
    (hstop : r.stop = none) (hpc : c.pc + 1 < c.insns.length) (h : s.CoreBecomes p c t) :
    s.CoreBecomes p (c.ledgerDone r) (t.ledgerWork p stm r) := by
  simp only [State.ledgerWork, State.whileBusy, State.endLedger, hstop, if_true]
  have hstored := (h.arrBusy true false).setLedger r
  exact (hstored.advance (c := (c.busy true false).withLedger r) stm hpc).arrBusy false false

/-- What the statements on array instructions say of the state after one. -/
theorem State.CoreBecomes.ledgerDone_effect {s t : State} {p : Nat} {c : Core} {r : LedgRun}
    (h : s.CoreBecomes p (c.ledgerDone r) t) :
    (t.core p).ledger = r.tab ∧ (t.core p).pc = c.pc + 1 ∧ (t.core p).st = c.st ∧ (t.core p).stall = c.stall
      ∧ (∀ k, k ≠ p → t.core k = s.core k) ∧ t = { s with cores := t.cores, log := t.log } :=
  ⟨h.reads fun _ => rfl, h.reads fun _ => rfl, h.reads (c := c.ledgerDone r) fun _ => rfl,
    h.reads (c := c.ledgerDone r) fun _ => rfl, h.others, h.frame⟩

theorem State.arrBusy_core (s : State) (p : Nat) (issue draw : Bool) :
    (s.arrBusy p issue draw).core p = (s.core p).busy issue draw := by
  simp [State.arrBusy, Core.busy]

/-! ARRAY and ARRAYI (R58 to R64, R94 to R101). -/

/-- The ledger of a core for an issue of `tiles`: each tile without ACC fresh (R70, R74). -/
def Core.tilesRun (c : Core) (tiles : List Tile) : LedgRun :=
  tiles.foldl (fun r t => if t.acc then r else r.fresh t.lrow t.m t.n) c.ledgRun

theorem Core.busy_tilesRun (c : Core) (issue draw : Bool) (tiles : List Tile) :
    (c.busy issue draw).tilesRun tiles = c.tilesRun tiles := rfl

/-- Without an injection, the chunks of an issue are all its work (R58, R92). -/
theorem State.runTiles_uninjected {s : State} {p : Nat} (stm : BitVec 3) (tiles : List Tile)
    (jobs : List (Tile × Operand × Operand × Nat)) (first : Nat) (hinj : (s.core p).lreg.injChunk = false) :
    s.runTiles p stm tiles jobs first = s.ledgerWork p stm (((s.core p).tilesRun tiles).addOrder jobs) := by
  have hnone : ((s.arrBusy p true false).core p).injected first = none :=
    (congrArg (Core.injected · first) (s.arrBusy_core p true false)).trans (if_neg (by simp [Core.busy, hinj]))
  have hrun : ((s.arrBusy p true false).core p).tilesRun tiles = (s.core p).tilesRun tiles := by
    rw [State.arrBusy_core, Core.busy_tilesRun]
  unfold State.runTiles State.whileBusy
  dsimp only
  rw [hnone, ← hrun]
  rfl

/-- An issue of tiles whose operands are read, its records and tallies made, adds its chunks and goes on. -/
theorem State.CoreBecomes.runTiles {s t : State} {p : Nat} {c : Core} {tiles : List Tile}
    {jobs : List (Tile × Operand × Operand × Nat)} (stm : BitVec 3) (first : Nat) (hinj : c.lreg.injChunk = false)
    (hpc : c.pc + 1 < c.insns.length) (hstop : ((c.tilesRun tiles).addOrder jobs).stop = none)
    (h : s.CoreBecomes p c t) :
    s.CoreBecomes p (c.ledgerDone ((c.tilesRun tiles).addOrder jobs)) (t.runTiles p stm tiles jobs first) := by
  have hrun : (t.core p).tilesRun tiles = c.tilesRun tiles := h.reads (f := (Core.tilesRun · tiles)) fun _ => rfl
  have hinj' : (t.core p).lreg.injChunk = false := (h.reads (f := fun c => c.lreg.injChunk) fun _ => rfl).trans hinj
  rw [State.runTiles_uninjected stm tiles jobs first hinj', hrun]
  exact h.ledgerWork stm hstop hpc

theorem State.CoreBecomes.traceArray {s t : State} {p : Nat} {c : Core} (stm : BitVec 3) (tile : Tile) (w : Waybill)
    (chunks : Nat) (h : s.CoreBecomes p c t) : s.CoreBecomes p c (t.traceArray p stm tile w chunks) :=
  h.traceAt _ _ _ _ _

theorem State.CoreBecomes.tallyIssue {s t : State} {p : Nat} {c : Core} (w : Waybill) (mode m n : Nat)
    (h : s.CoreBecomes p c t) : s.CoreBecomes p c (t.tallyIssue p w mode m n) := h.talliesAdd _

/-- Counting an instruction as issued is a record of the core (R435). -/
theorem State.coreBecomes_counted (s : State) (p : Nat) : s.CoreBecomes p (s.core p) (s.counted p) :=
  (s.coreBecomes_self p).modCore (g := fun c => c.issuedTo c.pc) fun _ => rfl

theorem exec_array_issues {s : State} {i : Issue} {p pc : Nat} {a b : BitVec 14} {pmode : BitVec 3} {acc : Bool}
    {lrow m1 n1 : BitVec 6} (h : s.Issues i.core (.array i a b pmode acc lrow m1 n1) p pc) (hmode : pmode.toNat < 3) :
    exec (.array i a b pmode acc lrow m1 n1) s = .next ((s.counted p).arrayIssue p (s.partNo i.core) i.stm
      { pmode := pmode.toNat, lrow := lrow.toNat, m := m1.toNat + 1, n := n1.toNat + 1, acc := acc } a b) := by
  have hissued : s.issued p = s.counted p := State.issued_of h
  simp only [exec, execArray, h.1, hissued, State.counted_partNo, if_pos hmode]

theorem exec_array_images {s : State} {i : Issue} {p pc : Nat} {a : BitVec 14} {acc : Bool} {lrow m1 n1 : BitVec 6}
    (h : s.Issues i.core (.array i a 0 3 acc lrow m1 n1) p pc) :
    exec (.array i a 0 3 acc lrow m1 n1) s = .next ((s.counted p).imageIssue p (s.partNo i.core) i.stm
      { pmode := 3, lrow := lrow.toNat, m := m1.toNat + 1, n := n1.toNat + 1, acc := acc } a) := by
  have hissued : s.issued p = s.counted p := State.issued_of h
  have hmode : ¬ (3 : BitVec 3).toNat < 3 := by decide
  simp only [exec, execArray, h.1, hissued, State.counted_partNo, if_neg hmode, and_self, if_true]
  rfl

theorem State.arrayIssue_reads {u v : State} {p q : Nat} {stm : BitVec 3} {t : Tile} {a b : BitVec 14}
    {o : Operand × Operand} (h : u.tileOperands p q stm t a b = (v, some o)) :
    u.arrayIssue p q stm t a b = ((v.traceArray p stm t o.1.w o.1.w.chunks).tallyIssue p o.1.w t.mode t.m t.n).runTiles
      p stm [t] (chunkJobs t o) t.lrow := by
  simp only [State.arrayIssue, h]

/-- The ledger of a core after an IMAGE_ADD of `images` (R77). -/
def Core.imagesRun (c : Core) (t : Tile) (images : List LedgImage) : LedgRun :=
  ((tileIdx t.lrow t.m t.n).zip images).foldl (fun r e => r.addImage e.1 e.2) (c.tilesRun [t])

theorem Core.busy_imagesRun (c : Core) (issue draw : Bool) (t : Tile) (images : List LedgImage) :
    (c.busy issue draw).imagesRun t images = c.imagesRun t images := rfl

/-- The trace record and the tallies of an IMAGE_ADD (R436, Table 15.4). -/
def State.imageBooks (s : State) (p : Nat) (stm : BitVec 3) (t : Tile) (w : Waybill) : State :=
  (s.traceArray p stm t w 0).talliesAdd p [(tlARRAY, t.m * ((96 * t.n + 255) / 256)), (tlIMG, t.m * t.n)]

/-- The images that a piece holds for a tile (R77). -/
def State.pieceImages (s : State) (p : Nat) (w : Waybill) (t : Tile) : List LedgImage :=
  (chunksOf 96 (s.pieceBytes p w) (t.m * t.n)).map parseImage

/-- The images of a piece that is read are all the work of an IMAGE_ADD (R77). -/
theorem State.imageIssue_reads {u : State} {p q : Nat} {stm : BitVec 3} {t : Tile} {a : BitVec 14} {w : Waybill}
    (hw : u.readWb p q stm a false = (u, some w)) (hshape : imageShape w t.m t.n = true) (hrow : t.lrow + t.m ≤ 64)
    (hread : u.coreRead p q w.rows stm [w.tag] = (u, true)) :
    u.imageIssue p q stm t a = (u.imageBooks p stm t w).ledgerWork p stm
      (((u.imageBooks p stm t w).core p).imagesRun t (u.pieceImages p w t)) := by
  have hfits : ¬ ((!imageShape w t.m t.n) = true ∨ 64 < t.lrow + t.m) := by
    rintro (h | h)
    · simp [hshape] at h
    · omega
  have hrun : (((u.imageBooks p stm t w).arrBusy p true false).core p).imagesRun t (u.pieceImages p w t)
      = ((u.imageBooks p stm t w).core p).imagesRun t (u.pieceImages p w t) := by
    rw [State.arrBusy_core, Core.busy_imagesRun]
  simp only [State.imageIssue, hw, if_neg hfits, hread, Bool.not_true, Bool.false_eq_true, if_false]
  rw [← hrun]
  rfl

theorem State.CoreBecomes.imageIssue {s u : State} {p q : Nat} {c : Core} {stm : BitVec 3} {t : Tile} {a : BitVec 14}
    {w : Waybill} (hw : u.readWb p q stm a false = (u, some w)) (hshape : imageShape w t.m t.n = true)
    (hrow : t.lrow + t.m ≤ 64) (hread : u.coreRead p q w.rows stm [w.tag] = (u, true))
    (hpc : c.pc + 1 < c.insns.length) (hstop : (c.imagesRun t (u.pieceImages p w t)).stop = none)
    (h : s.CoreBecomes p c u) :
    s.CoreBecomes p (c.ledgerDone (c.imagesRun t (u.pieceImages p w t))) (u.imageIssue p q stm t a) := by
  have hbooks : s.CoreBecomes p c (u.imageBooks p stm t w) := (h.traceArray stm t w 0).talliesAdd _
  rw [State.imageIssue_reads hw hshape hrow hread, hbooks.reads (f := (Core.imagesRun · t _)) fun _ => rfl]
  exact hbooks.ledgerWork stm hstop hpc

theorem exec_arrayi_reads {s v v2 : State} {i : Issue} {p pc : Nat} {dxA dxB dwA dwB : BitVec 14} {dxAcc dwAcc : Bool}
    {dxM1 dwM1 : BitVec 5} {dxN1 dwN1 : BitVec 6} {tx tw : Tile} {ox ow : Operand × Operand}
    (h : s.Issues i.core (.arrayi i dxA dxB dwA dwB dxAcc dwAcc dxM1 dwM1 dxN1 dwN1) p pc)
    (htx : tx = { pmode := 1, lrow := 0, m := dxM1.toNat + 1, n := dxN1.toNat + 1, acc := dxAcc })
    (htw : tw = { pmode := 2, lrow := 32, m := dwM1.toNat + 1, n := dwN1.toNat + 1, acc := dwAcc })
    (hx : (s.counted p).tileOperands p (s.partNo i.core) i.stm tx dxA dxB = (v, some ox))
    (hw : v.tileOperands p (s.partNo i.core) i.stm tw dwA dwB = (v2, some ow)) :
    exec (.arrayi i dxA dxB dwA dwB dxAcc dwAcc dxM1 dwM1 dxN1 dwN1) s
      = .next (((((v2.traceArray p i.stm tx ox.1.w ox.1.w.chunks).traceArray p i.stm tw ow.1.w ow.1.w.chunks).tallyIssue
          p ox.1.w tlDX tx.m tx.n).tallyIssue p ow.1.w tlDW tw.m tw.n).runTiles p i.stm [tx, tw]
          (alternate (chunkJobs tx ox) (chunkJobs tw ow)) 0) := by
  have hissued : s.issued p = s.counted p := State.issued_of h
  subst htx htw
  simp only [exec, execArrayi, h.1, hissued, State.counted_partNo, hx, hw]

/-- Settles O17: each instruction comes to its work on the ledger, after records that change nothing else. -/
theorem arrayComplete : Obligations.ArrayComplete := by
  refine ⟨?array, ?arrayi⟩
  case array =>
    intro s v i p a b pmode acc lrow m1 n1 o w q u t r0 r ims ri hi _
    refine ⟨fun hmode ho hinj _ hpc hstop => ?tile, fun hmode hb hw hshape hrow hread hstop => ?images⟩
    case tile =>
      have hrecords :=
        ((v.coreBecomes_self p).traceArray i.stm t o.1.w o.1.w.chunks).tallyIssue o.1.w t.mode t.m t.n
      have hdone := hrecords.runTiles (tiles := [t]) (jobs := chunkJobs t o) i.stm t.lrow hinj hpc hstop
      exact ⟨_, (exec_array_issues hi hmode).trans (congrArg Host.Outcome.next (State.arrayIssue_reads ho)),
        hdone.ledgerDone_effect⟩
    case images =>
      subst hmode hb
      have hcounted := s.coreBecomes_counted p
      have hri : ri = (s.core p).imagesRun t ims := hcounted.reads (f := (Core.imagesRun · t ims)) fun _ => rfl
      rw [hri] at hstop ⊢
      have hdone := hcounted.imageIssue hw hshape hrow hread hi.2.2 hstop
      exact ⟨_, exec_array_images hi, hdone.ledgerDone_effect⟩
  case arrayi =>
    intro s v v2 i p dxA dxB dwA dwB dxAcc dwAcc dxM1 dwM1 dxN1 dwN1 ox ow q tx tw rx rw r hi hx hw hinj _ hpc hstop
    have hrecords := ((((v2.coreBecomes_self p).traceArray i.stm tx ox.1.w ox.1.w.chunks).traceArray i.stm tw ow.1.w
      ow.1.w.chunks).tallyIssue ox.1.w tlDX tx.m tx.n).tallyIssue ow.1.w tlDW tw.m tw.n
    have hdone := hrecords.runTiles (tiles := [tx, tw]) i.stm 0 hinj hpc hstop
    exact ⟨_, exec_arrayi_reads hi rfl rfl hx hw, hdone.ledgerDone_effect⟩

end Sys2Proof.Machine
end

section
/-!
PROOFS. The PF's fault injections (chapters 3, 5, 7 and 9 of the spec) and the statement O36.
-/

namespace Sys2Proof.Machine

/-! Injections of the PF (R92, R156, R206, R219, R220, R281). -/

theorem exec_resInject {s : State} {n k : Nat} (target : BitVec 2) (hs : s.sees 0 (.core n k) = true) (hn : n < 12)
    (hk : k < 22) :
    exec (.resInject 0 n k target) s
      = .next (s.modCore (22 * n + k) (fun c => { c with lreg := { c.lreg with
          injChunk := c.lreg.injChunk || decide (target = 1),
          injDraw := c.lreg.injDraw || decide (target = 2) } })) := by
  simp only [exec, execResInject, hn, hk, and_self, if_true, State.onBar_sees _ hs]

theorem exec_quarInject {s : State} {n : Nat} {phys : BitVec 5} (hs : s.sees 0 (.die n) = true) (hn : n < 12)
    (hp : phys.toNat < 22) (hc : s.clocked = true) (hq : s.quarantined (22 * n + phys.toNat) = false) :
    exec (.quarInject 0 n phys) s = .next
      ((s.coreFaultSeen (22 * n + phys.toNat) scUncorr 0x1002 true 0).takeFault (22 * n + phys.toNat)) := by
  simp only [exec, execQuarInject, hn, hp, hc, and_self, if_true, State.onBar_sees _ hs, hq,
    Bool.false_eq_true, if_false]

theorem exec_hbmInject {s : State} {fn n : Nat} {kind : BitVec 2} (hs : s.sees fn .pf = true) (hn : n < 12)
    (hk : kind = 1 ∨ kind = 2) :
    exec (.hbmInject fn n kind) s = .next (s.modDie n (fun d => { d with hbm := { d.hbm with inject := kind } })) := by
  simp only [exec, execHbmInject, if_pos (And.intro hn hk), State.onBar_sees _ hs]

theorem exec_cisInjectError {s : State} {fn m : Nat} (dbl : Bool) (chan : BitVec 4) (hs : s.sees fn .pf = true)
    (hm : m < 6) :
    exec (.cisInjectError fn m dbl chan) s
      = .next (s.modCis m (fun x => { x with inject := tabSet x.inject chan.toNat (if dbl then 2 else 1) })) := by
  simp only [exec, execCisInjectError, if_pos hm, State.onBar_sees _ hs]

theorem exec_cisInjectFail {s : State} {fn m : Nat} {chan : BitVec 4} (hs : s.sees fn .pf = true) (hm : m < 6)
    (hf : bitAt (s.cis m).failed.toNat chan.toNat = false) :
    exec (.cisInjectFail fn m chan) s = .next (s.failChannel m chan.toNat) := by
  simp only [exec, execCisInjectFail, if_pos hm, State.onBar_sees _ hs, State.failOnce, hf,
    Bool.false_eq_true, if_false]

theorem exec_porterInjectAuth {s : State} {fn m : Nat} (hs : s.sees fn .pf = true) (hm : m < 6) :
    exec (.porterInjectAuth fn m) s = .next (s.modPorter m (fun p => { p with injAuth := true })) := by
  simp only [exec, execPorterInjectAuth, State.onBar_sees _ hs, if_pos hm]

theorem exec_porterInjectDrop {s : State} {fn m : Nat} (hs : s.sees fn .pf = true) (hm : m < 6) :
    exec (.porterInjectDrop fn m) s = .next (s.modPorter m (fun p => { p with injDrop := true })) := by
  simp only [exec, execPorterInjectDrop, State.onBar_sees _ hs, if_pos hm]

/-- Settles O36, clause by clause: each injection comes to the change that its lemma above names. -/
theorem injectionsComplete : Obligations.InjectionsComplete := by
  intro s n k target kind dbl chan phys fn
  refine ⟨exec_resInject target, fun hs hn hp hc hq => ?quarantine, fun hs => ⟨exec_hbmInject hs, fun hm =>
    ⟨exec_cisInjectError dbl chan hs hm, fun hf => ?channel, exec_porterInjectAuth hs hm,
      exec_porterInjectDrop hs hm⟩⟩⟩
  case quarantine =>
    have hfault := (s.coreBecomes_self (22 * n + phys.toNat)).coreFaultSeen scUncorr 0x1002 true 0
    exact ⟨exec_quarInject hs hn hp hc hq, hfault.reads fun _ => rfl, hfault.reads fun _ => rfl,
      hfault.reads fun _ => rfl⟩
  case channel =>
    refine ⟨_, exec_cisInjectFail hs hm hf, rfl, ?_⟩
    rw [s.failChannel_cis n chan.toNat]
    exact bitAt_set_clear _ _ chan.isLt

end Sys2Proof.Machine
end

section
/-!
PROOFS. The update engine and the counting houses (chapters 4 and 10 of the spec): what stores, reads and logbook
entries leave of an update engine, what each command comes to under its rule's conditions, and the statement O39.
-/

namespace Sys2Proof.Machine

/-! What leaves the update engines as they are. -/

/-- An update engine but for the gap marks of its logbook records (R358). -/
def UpdEngine.untimed (u : UpdEngine) : UpdEngine := { u with gap := {} }

/-- From `s` to `t` no update engine has changed but for its gap marks. -/
def State.SameEngines (s t : State) : Prop := ∀ k, (t.die k).upd.untimed = (s.die k).upd.untimed

namespace State.SameEngines

variable {s t : State}

/-- What is no gap mark reads as before. -/
theorem reads {α : Type} {f : UpdEngine → α} (hf : ∀ u, f u.untimed = f u) (h : s.SameEngines t) (k : Nat) :
    f (t.die k).upd = f (s.die k).upd := by
  rw [← hf (t.die k).upd, h k, hf]

theorem of_dies {u : State} (hd : u.dies = t.dies) (h : s.SameEngines t) : s.SameEngines u := by
  intro k
  unfold State.die
  rw [hd]
  exact h k

theorem modDie {n : Nat} {g : Die → Die} (hg : ∀ d, (g d).upd.untimed = d.upd.untimed) (h : s.SameEngines t) :
    s.SameEngines (t.modDie n g) := by
  intro k
  rw [State.modDie_eq, State.setDie_die]
  split
  · next hk => rw [hg, hk, h n]
  · exact h k

theorem eachDo {α : Type} {g : α → State → State} (hg : ∀ x t, s.SameEngines t → s.SameEngines (g x t)) (l : List α)
    (h : s.SameEngines t) : s.SameEngines (Sys2Proof.Machine.eachDo l g t) := by
  induction l generalizing t with
  | nil => exact h
  | cons x l ih => exact ih (hg x t h)

/-- Writes in a row, each with the news of whether one has failed. -/
theorem foldWrites {α : Type} {w : State → α → State × Bool} (hw : ∀ x t, s.SameEngines t → s.SameEngines (w t x).1)
    (l : List α) {acc : State × Bool} (h : s.SameEngines acc.1) :
    s.SameEngines (l.foldl (fun acc x => ((w acc.1 x).1, acc.2 || (w acc.1 x).2)) acc).1 := by
  induction l generalizing acc with
  | nil => exact h
  | cons x l ih => exact ih (hw x acc.1 h)

/-- Of an update engine an entry takes the gap mark alone (R358). -/
theorem logAt (src : LogSrc) (code status : Nat) (part : Option Nat) (args snaps : List Word) (h : s.SameEngines t) :
    s.SameEngines (t.logAt src code status part args snaps) := by
  unfold State.logAt
  dsimp only
  split
  · cases src with
    | upd n => exact modDie (t := { t with log := _ }) (fun _ => rfl) h
    | core => exact h
    | die => exact h
    | hbmCtl => exact h
    | serai => exact h
  · exact h

theorem lifeBegin (h : s.SameEngines t) : s.SameEngines t.lifeBegin := by
  rw [State.lifeBegin_eq]
  exact h

/-! Notes and events to the host (R415). -/

theorem cqInterrupt (f q : Nat) (h : s.SameEngines t) : s.SameEngines (t.cqInterrupt f q) := by
  unfold State.cqInterrupt
  extract_lets y due
  split
  · exact h
  · split <;> exact h

theorem cqWrite (f q : Nat) (e : Cqe) (h : s.SameEngines t) : s.SameEngines (t.cqWrite f q e) := by
  unfold State.cqWrite
  extract_lets y a next s1 y1
  exact (h.of_dies (u := s1.setQueue f q y1) (by simp [s1, State.hostWrite])).cqInterrupt f q

theorem dropNote (f q : Nat) (h : s.SameEngines t) : s.SameEngines (t.dropNote f q) :=
  logAt (t := t.modFn f _) .serai _ _ _ _ _ h

theorem deliver (f : Nat) (e : Cqe) (h : s.SameEngines t) : s.SameEngines (t.deliver f e) := by
  unfold State.deliver
  dsimp only
  split
  · exact h.dropNote f _
  · split
    · exact h.cqWrite f _ e
    · split
      · exact h
      · exact h.dropNote f _

theorem event (code status : Nat) (part : Option Nat) (addr : Nat) (h : s.SameEngines t) :
    s.SameEngines (t.event code status part addr) := by
  unfold State.event State.eventTo
  split
  · exact h.deliver _ _
  · split
    · exact (h.deliver _ _).deliver _ _
    · exact h.deliver _ _

/-! Reads and their errors (R206 to R213). -/

theorem correctHbm (word : Nat) (h : s.SameEngines t) : s.SameEngines (t.correctHbm word) := by
  have hnoted := h.modDie (n := 4 * word / 2 ^ 36) (g := fun d => { d with hbm :=
    { (d.hbm.noteErr (4 * word % 2 ^ 36) 1 ((t.mem.hbmAddr (4 * word)).bind t.ownerOf)) with
      corr := satAdd d.hbm.corr 1 } }) fun _ => rfl
  exact logAt (t := { (t.modDie _ _).modLife _ with mem := _ }) _ _ _ _ _ _ hnoted

theorem uncorrHbm (word kind : Nat) (h : s.SameEngines t) : s.SameEngines (t.uncorrHbm word kind) := by
  have hnoted := h.modDie (n := 4 * word / 2 ^ 36) (g := fun d => { d with hbm :=
    { (d.hbm.noteErr (4 * word % 2 ^ 36) kind ((t.mem.hbmAddr (4 * word)).bind t.ownerOf)) with
      uncorr := satAdd d.hbm.uncorr 1 } }) fun _ => rfl
  exact (logAt (t := (t.modDie _ _).modLife _) _ _ _ _ _ _ hnoted).event _ _ _ _

theorem correctCis (word : Nat) (h : s.SameEngines t) : s.SameEngines (t.correctCis word) :=
  logAt (t := { (t.modCis _ _).modLife _ with mem := _ }) _ _ _ _ _ _ h

theorem failChannel (m c : Nat) (h : s.SameEngines t) : s.SameEngines (t.failChannel m c) :=
  lifeBegin (t := (State.logCis (t.modCis m _) m _ _ _ _).modLife _) (logAt (t := t.modCis m _) _ _ _ _ _ _ h)

theorem uncorrCis (word kind : Nat) (h : s.SameEngines t) : s.SameEngines (t.uncorrCis word kind) := by
  unfold State.uncorrCis
  extract_lets ch m c off addr owner code times s1 s2 s3
  have hlogged : s.SameEngines s3 := (logAt (t := s2) _ _ _ _ _ _ h).event _ _ _ _
  split
  · exact hlogged.failChannel m c
  · exact hlogged

theorem readWord1 (p a : Nat) (h : s.SameEngines t) : s.SameEngines (t.readWord1 p a) := by
  unfold State.readWord1
  split
  · split
    · split
      · exact h.correctHbm _
      · split
        · exact h.uncorrHbm _ 2
        · exact h
    · exact h
  · split
    · split
      · exact h.correctCis _
      · split
        · exact h.uncorrCis _ 2
        · exact h
    · exact h
  · split
    · exact h.logAt _ _ _ _ _ _
    · split
      · exact (h.logAt _ _ _ _ _ _).event _ _ _ _
      · exact h
  · split
    · exact h.logAt _ _ _ _ _ _
    · split
      · exact (h.logAt _ _ _ _ _ _).event _ _ _ _
      · exact h
  · exact h
  · exact h

/-! Writes (R207, R212, R390). -/

theorem setByte (p a : Nat) (v : Byte) (h : s.SameEngines t) : s.SameEngines (t.setByte p a v) := by
  unfold State.setByte
  split
  · split <;> exact h
  · split <;> exact h
  · exact h
  · exact h.modDie fun _ => rfl
  · exact h
  · exact h

theorem setMark (p a : Nat) (v : BitVec 2) (h : s.SameEngines t) : s.SameEngines (t.setMark p a v) := by
  unfold State.setMark
  split
  · split <;> exact h
  · split <;> exact h
  · exact h
  · exact h.modDie fun _ => rfl
  · exact h
  · exact h

theorem dropWb (w : Nat) (h : s.SameEngines t) : s.SameEngines (t.dropWb w) := by
  unfold State.dropWb
  split
  · split <;> exact h
  · split <;> exact h
  · exact h

theorem inject (p w : Nat) (h : s.SameEngines t) : s.SameEngines (t.inject p w) := by
  unfold State.inject
  split
  · split
    · extract_lets n v
      split
      · exact h
      · exact setMark p w v (h.modDie fun _ => rfl)
    · exact h
  · split
    · extract_lets ch v
      split
      · exact h
      · exact setMark (t := t.modCis _ _) p w v h
    · exact h
  · exact h

theorem setBytes (p : Nat) (l : List (Nat × Byte)) (h : s.SameEngines t) :
    s.SameEngines (Sys2Proof.Machine.eachDo l (fun e t => t.setByte p e.1 e.2) t) :=
  h.eachDo (fun e _ ht => ht.setByte p e.1 e.2) l

theorem writeWord (p a : Nat) (data : List Byte) (w : Nat) (h : s.SameEngines t) :
    s.SameEngines (t.writeWord p a data w).1 := by
  unfold State.writeWord
  extract_lets put
  split
  · exact (((h.dropWb w).setBytes p _).setMark p w 0).inject p w
  · split
    · exact h.readWord1 p w
    · exact (((h.readWord1 p w).setBytes p _).dropWb w).setMark p w 0

theorem writeList (p a : Nat) (data : List Byte) (ws : List Nat) (h : s.SameEngines t) :
    s.SameEngines (t.writeList p a data ws).1 :=
  foldWrites (w := fun t w => t.writeWord p a data w) (fun w _ ht => ht.writeWord p a data w) ws h

theorem writeUnit (p a : Nat) (data : List Byte) (u : Nat) (h : s.SameEngines t) :
    s.SameEngines (t.writeUnit p a data u).1 := by
  unfold State.writeUnit
  extract_lets ws bad s1 s2 s3
  have hread : s.SameEngines s1 := h.eachDo (fun w _ ht => ht.readWord1 p w) bad
  split
  · exact h.writeList p a data ws
  · split
    · exact hread
    · exact ((hread.eachDo (fun w _ ht => (ht.dropWb w).setMark p w 0) ws).setBytes p _).eachDo
        (fun w _ ht => ht.inject p w) _

theorem store (p : Nat) (part : Option Nat) (a : Nat) (data : List Byte) (h : s.SameEngines t) :
    s.SameEngines (t.store p part a data).1 := by
  unfold State.store State.writeWords
  split
  · exact h
  · split
    · exact logAt (t := t.modCis _ _) _ _ _ _ _ _ h
    · split
      · exact h
      · split
        · exact foldWrites (w := fun t u => t.writeUnit p a data u) (fun u _ ht => ht.writeUnit p a data u) _ h
        · exact h.writeList p a data _

theorem stores (p : Nat) (part : Option Nat) (ws : List (Nat × List Byte)) (h : s.SameEngines t) :
    s.SameEngines (t.stores p part ws).1 :=
  foldWrites (w := fun t e => t.store p part e.1 e.2) (fun e _ ht => ht.store p part e.1 e.2) ws h

/-! Completion records (R118, R120). -/

theorem setTok (p : Nat) (b : Buf) (n : Nat) (h : s.SameEngines t) : s.SameEngines (t.setTok p b n) := by
  cases b with
  | stall => exact h
  | depot => exact h.modDie fun _ => rfl

theorem recordPost (n b : Nat) (d : UpdDesc) (h : s.SameEngines t) : s.SameEngines (t.recordPost n b d) := by
  unfold State.recordPost State.post
  by_cases hroom : t.tok (22 * n) (.depot n b) + 1 ≤ 255
  · rw [if_pos hroom]
    exact h.setTok _ _ _
  · rw [if_neg hroom]
    exact h.logAt _ _ _ _ _ _

theorem updDone (n : Nat) (d : UpdDesc) (status nf : Nat) (h : s.SameEngines t) :
    s.SameEngines (t.updDone n d status nf) := by
  unfold State.updDone
  split
  · exact h
  · exact (h.stores _ _ _).recordPost n _ d

end State.SameEngines

/-! The engine's controls (R117, R126, R129). -/

@[simp] theorem State.modUpd_upd (s : State) (n : Nat) (g : UpdEngine → UpdEngine) :
    ((s.modUpd n g).die n).upd = g (s.die n).upd := by
  simp [State.modUpd]

@[simp] theorem State.modUpd_modUpd (s : State) (n : Nat) (g h : UpdEngine → UpdEngine) :
    (s.modUpd n g).modUpd n h = s.modUpd n (fun u => h (g u)) := by
  simp [State.modUpd]

theorem exec_updSubmit_queues {s : State} {n : Nat} (word15 : Word) (hn : n < 12) (hs : s.sees 0 (.die n) = true)
    (hroom : (s.die n).upd.queue.length + (s.die n).upd.committed < 32)
    (hown : s.ownsDie (s.die n).upd.submitPart.toNat n = true) :
    exec (.updSubmit 0 n word15) s = .next (s.modUpd n (fun u => { u with
      submit := tabSet u.submit 15 word15,
      queue := u.queue ++ [{ words := (List.range 15).map (tabGet 0 (s.die n).upd.submit) ++ [word15],
                             part := (s.die n).upd.submitPart.toNat, core := none }] })) := by
  have htaken : ¬ (32 ≤ (s.die n).upd.queue.length + (s.die n).upd.committed
      ∨ s.ownsDie (s.die n).upd.submitPart.toNat n = false) := by
    rintro (hfull | hforeign)
    · omega
    · simp [hown] at hforeign
  simp only [exec, execUpdSubmit, hn, and_self, if_true, State.onBar_sees _ hs, if_neg htaken, State.modUpd_modUpd]

theorem exec_updHalt {s : State} {fn n : Nat} (halt : Bool) (hn : n < 12) (hs : s.sees fn (.die n) = true)
    (hown : s.ownsWholeDie fn n = true) :
    exec (.updHalt fn n halt) s = .next (s.modUpd n (fun u => { u with halt := halt })) := by
  simp only [exec, execUpdHalt, if_pos hn, State.onBar_sees _ hs, if_pos hown]

/-- While the engine is empty, UPD_UCODE takes words and, at index 64, the length (R126). -/
theorem exec_updUcodeWrite {s : State} {fn n idx : Nat} (w : Word) (hn : n < 12) (hi : idx ≤ 64)
    (hs : s.sees fn (.die n) = true) (hown : s.ownsWholeDie fn n = true) (hcur : (s.die n).upd.current = none)
    (hq : (s.die n).upd.queue = []) :
    exec (.updUcodeWrite fn n idx w) s
      = .next (if idx < 64 then s.modUpd n (fun u => { u with ucode := tabSet u.ucode idx w })
          else if 64 < w.toNat % 128 then s else s.modUpd n (fun u => { u with ucodeLen := w.setWidth 7 })) := by
  simp only [exec, execUpdUcodeWrite, hn, hi, and_self, if_true, State.onBar_sees _ hs, hown, hcur, hq,
    Option.isSome_none, Bool.false_eq_true, ne_eq, not_true_eq_false, Bool.true_eq_false, or_self, if_false]

/-! Descriptors (R117 to R125). -/

theorem exec_updateEngineTake_reads {s v : State} {n : Nat} {d : UpdDesc} {rest : List UpdDesc} (hn : n < 12)
    (hclk : s.pllOn n = true) (hhalt : (s.die n).upd.halt = false) (hcur : (s.die n).upd.current = none)
    (hq : (s.die n).upd.queue = d :: rest) (hfenced : (s.die n).upd.fenced = false) (hfields : s.updFields n d = true)
    (hwindows : s.updWindows n d = true) (hread : s.updRead n [(d.param, 64)] = (v, false)) :
    exec (.updateEngineTake n) s = .next (v.modUpd n (fun u => { u with
      queue := rest, current := some d, curStatus := st8 scOk,
      params := (List.range 16).map (fun k => s.updVal n (d.param + 4 * k) 4) })) := by
  simp only [exec, execUpdateEngineTake, hclk, hn, hhalt, hcur, and_self, if_true, hq, hfenced, hfields, hwindows,
    hread, Bool.not_true, Bool.false_eq_true, if_false]

/-- An engine that has completed the descriptor of number `seq`, `nf` of whose elements were not finite (R120). -/
def UpdEngine.freed (u : UpdEngine) (seq : Word) (nf : Nat) : UpdEngine :=
  { u with current := none, curStatus := 0, flitLost := false, params := [], doneSeq := seq,
           nfCount := satAdd u.nfCount nf }

/-- After a completion that faults no partition, the record and the entry leave the engine freed. -/
theorem State.updFinish_sameEngines (s : State) (n : Nat) (d : UpdDesc) {status : Nat} (nf : Nat)
    (h : status ≠ scUncorr) : (s.modUpd n (fun u => u.freed d.seq nf)).SameEngines (s.updFinish n d status nf) := by
  unfold State.updFinish
  extract_lets s1 s2 code s3 st
  have hdone : s1.SameEngines s2 := State.SameEngines.updDone n d status nf (fun _ => rfl)
  rw [if_neg (fun hc => h hc.1)]
  unfold s3
  split
  · exact hdone
  · exact hdone.logAt _ _ _ _ _ _

theorem State.updFinish_frees (s : State) (n : Nat) (d : UpdDesc) {status : Nat} (nf : Nat) (h : status ≠ scUncorr) :
    ((s.updFinish n d status nf).die n).upd.current = none ∧ ((s.updFinish n d status nf).die n).upd.doneSeq = d.seq
      ∧ ((s.updFinish n d status nf).die n).upd.nfCount = satAdd (s.die n).upd.nfCount nf := by
  have hfreed := s.modUpd_upd n (fun u => u.freed d.seq nf)
  have hkept := s.updFinish_sameEngines n d nf h
  exact ⟨(hkept.reads (f := UpdEngine.current) (fun _ => rfl) n).trans (congrArg UpdEngine.current hfreed),
    (hkept.reads (f := UpdEngine.doneSeq) (fun _ => rfl) n).trans (congrArg UpdEngine.doneSeq hfreed),
    (hkept.reads (f := UpdEngine.nfCount) (fun _ => rfl) n).trans (congrArg UpdEngine.nfCount hfreed)⟩

theorem exec_updateEngineComplete_runs {s : State} {n : Nat} {d : UpdDesc} (hclk : s.pllOn n = true)
    (hcur : (s.die n).upd.current = some d) (hfenced : (s.die n).upd.fenced = false)
    (hok : (s.die n).upd.curStatus = 0) (hflit : (s.die n).upd.flitLost = false)
    (hstop : (UpdRun.all s n d (s.usesV d)).stop = none) :
    exec (.updateEngineComplete n) s = .next ((UpdRun.all s n d (s.usesV d)).s.updFinish n d scOk
      (UpdRun.all s n d (s.usesV d)).nf) := by
  simp only [exec, execUpdateEngineComplete, hclk, if_true, hcur, hok, hfenced, hstop, hflit, ne_eq,
    not_true_eq_false, Bool.false_eq_true, or_self, if_false]

theorem exec_updateEngineComplete_refuses {s : State} {n : Nat} {d : UpdDesc} {status : Nat} (hclk : s.pllOn n = true)
    (hcur : (s.die n).upd.current = some d) (hfenced : (s.die n).upd.fenced = false)
    (hst : (s.die n).upd.curStatus = st8 status) (hpos : 0 < status) (hbyte : status < 256) :
    exec (.updateEngineComplete n) s = .next (s.updFinish n d status 0) := by
  have hnat : (st8 status).toNat = status := by simp [Nat.mod_eq_of_lt hbyte]
  have hne : st8 status ≠ 0 := fun h => by simp [h] at hnat; omega
  simp only [exec, execUpdateEngineComplete, hclk, if_true, hcur, hst, hfenced, ne_eq, hne, not_false_eq_true,
    true_or, Bool.false_eq_true, if_false, hnat]

/-! Counting houses (R302 to R304). -/

theorem exec_countingHouseAdd_head {s v : State} {n : Nat} {a : Add} {queue : List Add} {bad : Bool} (hn : n < 12)
    (hclk : s.clocked = true) (hq : (s.house n).queue = a :: queue)
    (hadd : (s.modHouse n (fun h => { h with queue := queue })).houseAdd n a = (v, bad)) :
    exec (.countingHouseAdd n) s
      = .next (((v.modHouse n (fun h => h.giveBack a.src)).addSource bad a.src).framesDone.issueWaiting) := by
  simp only [exec, execCountingHouseAdd, hclk, hn, and_self, if_true, hq, hadd]

/-- Settles O39, command by command: the parameters are read when a descriptor is taken, its elements at its completion
(log entry 22), and what a completion leaves of its engine is `State.updFinish_frees`. -/
theorem updatesComplete : Obligations.UpdatesComplete := by
  intro s v fn n idx w word15 halt d rest a queue bad u ws r hn
  refine ⟨exec_updSubmit_queues word15 hn, fun hs hown => ⟨exec_updHalt halt hn hs hown, fun hcur hq => ?ucode⟩,
    fun hclk => ⟨exec_updateEngineTake_reads hn hclk, fun hcur hfenced => ?complete⟩,
    exec_countingHouseAdd_head hn⟩
  case ucode =>
    refine ⟨fun hidx => ?_, fun hlen => ?_⟩
    · rw [exec_updUcodeWrite w hn (Nat.le_of_lt hidx) hs hown hcur hq, if_pos hidx]
    · rw [exec_updUcodeWrite w hn (Nat.le_refl 64) hs hown hcur hq, if_neg (Nat.lt_irrefl 64),
        if_neg (Nat.not_lt.mpr hlen)]
  case complete =>
    refine ⟨fun hok hflit hstop => ?_, fun hill => ?_⟩
    · exact ⟨_, exec_updateEngineComplete_runs hclk hcur hfenced hok hflit hstop, rfl,
        r.s.updFinish_frees n d r.nf (by decide)⟩
    · obtain ⟨hfree, hseq, _⟩ := s.updFinish_frees n d (status := scIllegal) 0 (by decide)
      exact ⟨_, exec_updateEngineComplete_refuses hclk hcur hfenced hill (by decide) (by decide), rfl, hfree, hseq⟩

end Sys2Proof.Machine
end

section
/-!
PROOFS. COPY and its completion (chapters 4 and 5 of the spec): what starting an operation changes in its core and in
the counting houses, what an operation's end comes to, and the statement O13.
-/

namespace Sys2Proof.Machine

/-! Operations of the core porter, from issue on (R137, R144). -/

/-- Core `c` with its toll balances at `tolls`. -/
def Core.withTolls (c : Core) (tolls : Tab Nat) : Core := { c with tolls := tolls }

/-- Core `c` with one operation more. -/
def Core.withOp (c : Core) (o : PorterOp) : Core := { c with nextOp := c.nextOp + 1, ops := c.ops ++ [o] }

/-- The operation that core `c` starts. -/
def Core.newOp (c : Core) (act : PorterDo) (stm : BitVec 3) (reads : List (Nat × Nat)) (post : Option Buf)
    (bytes : Nat) (tag : BitVec 16) : PorterOp :=
  { id := c.nextOp, act := act, pc := c.pc, stm := stm, reads := reads, post := post, bytes := bytes, tag := tag }

namespace State.CoreBecomes

variable {s t : State} {p : Nat} {c : Core}

theorem tallyTier (idx : Option Nat) (n : Nat) (h : s.CoreBecomes p c t) :
    s.CoreBecomes p c (t.tallyTier p idx n) := by
  cases idx with
  | none => exact h
  | some i => exact h.tallyAdd i n

/-- Debits change the toll balances alone (R144). -/
theorem debit {l : List (Nat × Nat)} {v : State} (hv : t.debit p l = some v) (h : s.CoreBecomes p c t) :
    s.CoreBecomes p (c.withTolls (v.core p).tolls) v := by
  induction l generalizing t c with
  | nil =>
    obtain rfl : t = v := Option.some.inj hv
    rw [h.reads (f := Core.tolls) fun _ => rfl]
    exact h
  | cons e l ih =>
    obtain ⟨key, n⟩ := e
    unfold State.debit at hv
    extract_lets b at hv
    split at hv
    · exact ih (c := c.withTolls (tabSet c.tolls key (b - n))) hv
        (h.modCore (g := fun c => c.withTolls (tabSet c.tolls key (b - n))) fun _ => rfl)
    · cases hv

theorem startOp (act : PorterDo) (stm : BitVec 3) (reads : List (Nat × Nat)) (post : Option Buf) (bytes : Nat)
    (tag : BitVec 16) (h : s.CoreBecomes p c t) :
    s.CoreBecomes p (c.withOp (c.newOp act stm reads post bytes tag)) (t.startOp p act stm reads post bytes tag) := by
  have hop : (t.core p).newOp act stm reads post bytes tag = c.newOp act stm reads post bytes tag :=
    h.reads (f := (Core.newOp · act stm reads post bytes tag)) fun _ => rfl
  rw [← hop]
  exact h.modCore (g := fun c => c.withOp ((t.core p).newOp act stm reads post bytes tag)) fun _ => rfl

/-- Work in the counting houses adds to the frame what stands in them. -/
theorem withHouses {u : State} (hu : u = { t with houses := u.houses }) (h : s.CoreBecomes p c t) :
    ({ s with houses := u.houses } : State).CoreBecomes p c u := by
  rw [hu]
  exact ⟨congrArg (fun x : State => { x with houses := u.houses }) h.frame, h.others, h.own⟩

/-- What the statements on COPY say of the state after one. -/
theorem opStarted_effect {o : PorterOp} {tolls : Tab Nat} (hst : c.st = .running)
    (h : s.CoreBecomes p ((c.withTolls tolls).withOp o).stepped t) :
    (t.core p).pc = c.pc + 1 ∧ (t.core p).st = .running ∧ (t.core p).ops = c.ops ++ [o] ∧ (t.core p).tolls = tolls
      ∧ (t.core p).stall = c.stall ∧ (t.core p).ledger = c.ledger ∧ (∀ k, k ≠ p → t.core k = s.core k)
      ∧ t = { s with cores := t.cores, log := t.log } := by
  have hrunning := h.reads (f := Core.st) fun _ => rfl
  have hstall := h.reads (f := Core.stall) fun _ => rfl
  have hledger := h.reads (f := Core.ledger) fun _ => rfl
  exact ⟨h.reads fun _ => rfl, hrunning.trans hst, h.reads fun _ => rfl, h.reads fun _ => rfl, hstall, hledger,
    h.others, h.frame⟩

end State.CoreBecomes

/-! Changes of the counting houses alone (R302, R303). -/

theorem eachDo_houses_eq {α : Type} {g : α → State → State} (hg : ∀ e t, g e t = { t with houses := (g e t).houses })
    (l : List α) (s : State) : eachDo l g s = { s with houses := (eachDo l g s).houses } := by
  induction l generalizing s with
  | nil => rfl
  | cons e l ih =>
    exact (ih (g e s)).trans
      (congrArg (fun x : State => { x with houses := (eachDo l g (g e s)).houses }) (hg e s))

theorem State.queueAdds_eq (s : State) (src : AddSrc) (l : List (Nat × BitVec 72)) :
    s.queueAdds src l = { s with houses := (s.queueAdds src l).houses } :=
  eachDo_houses_eq (fun _ _ => rfl) l s

/-- The bytes that the tolls of a COPY with ADD cover beyond its elements stay free in the houses' core pools
(R302). -/
def State.keepSpare (s r : State) (l : List (Nat × BitVec 72)) : State :=
  eachDo (r.houseDebits l) (fun e t => t.modHouse (e.1 % 2 ^ 20) (fun h =>
    { h with coreFree := h.coreFree + 256 * e.2 - r.bytesOn (e.1 % 2 ^ 20) l })) s

theorem State.keepSpare_eq (s r : State) (l : List (Nat × BitVec 72)) :
    s.keepSpare r l = { s with houses := (s.keepSpare r l).houses } :=
  eachDo_houses_eq (fun _ _ => rfl) (r.houseDebits l) s

/-! The three ways of a COPY (R113, R117, R137). -/

section

variable {s u r v : State} {p : Nat} {c : Core} {stm : BitVec 3} {ws wd : Waybill} {post : Option Buf} {bs : List Byte}
  {l : List (Nat × BitVec 72)}

/-- A COPY between stall, depots, HBM and cistern holds the bytes of its source. -/
theorem State.CoreBecomes.copyGo_bytes (hr : r = u.tallyTier p (rdTally (tierOf ws.base)) ws.bytes)
    (hport : tierOf wd.base ≠ .port) (hv : r.debit p (r.depotDebits wd.rows) = some v)
    (hpc : c.pc + 1 < c.insns.length) (h : s.CoreBecomes p c u) :
    s.CoreBecomes p ((c.withTolls (v.core p).tolls).withOp
      (c.newOp (.copy (fillSegs wd.rows bs)) stm ws.rows post wd.bytes wd.tag)).stepped
      (u.copyGo p stm ws wd false post bs) := by
  subst hr
  simp only [State.copyGo, Bool.false_eq_true, if_false, if_neg hport, hv]
  exact ((((h.tallyTier _ _).debit hv).startOp _ _ _ _ _ _).tallyTier _ _).advance stm hpc

/-- A COPY to an update port holds the descriptor. -/
theorem State.CoreBecomes.copyGo_descriptor (hr : r = u.tallyTier p (rdTally (tierOf ws.base)) ws.bytes)
    (hport : tierOf wd.base = .port) (hv : r.debit p [(tollKey 1 ((wd.base - portBase) / 0x10000), 1)] = some v)
    (hpc : c.pc + 1 < c.insns.length) (h : s.CoreBecomes p c u) :
    s.CoreBecomes p ((c.withTolls (v.core p).tolls).withOp
      (c.newOp (.descriptor ((wd.base - portBase) / 0x10000) (descWords bs)) stm ws.rows post 64 wd.tag)).stepped
      (u.copyGo p stm ws wd false post bs) := by
  subst hr
  simp only [State.copyGo, Bool.false_eq_true, if_false, if_pos hport, hv]
  exact (((h.tallyTier _ _).debit hv).startOp _ _ _ _ _ _).advance stm hpc

/-- Where its toll is paid, a COPY with ADD puts its elements into the counting houses' queues. -/
theorem State.copyGo_adds_eq (hr : r = u.tallyTier p (rdTally (tierOf ws.base)) ws.bytes) (hl : l = addList wd.rows bs)
    (hv : r.debit p (r.houseDebits l) = some v) :
    u.copyGo p stm ws wd true post bs
      = ((((v.keepSpare r l).startOp p (.add l.length) stm ws.rows post wd.bytes wd.tag).queueAdds
          (.copy p ((v.keepSpare r l).core p).nextOp) l).tallyTier p (wrTally .hbm) wd.bytes).advance p stm := by
  subst hr hl
  simp only [State.copyGo, if_true, hv]
  rfl

/-- A COPY with ADD holds the number of its adds, which stand in the counting houses. -/
theorem State.CoreBecomes.copyGo_adds (hr : r = u.tallyTier p (rdTally (tierOf ws.base)) ws.bytes)
    (hl : l = addList wd.rows bs) (hv : r.debit p (r.houseDebits l) = some v) (hpc : c.pc + 1 < c.insns.length)
    (h : s.CoreBecomes p c u) :
    ({ s with houses := (u.copyGo p stm ws wd true post bs).houses } : State).CoreBecomes p
      ((c.withTolls (v.core p).tolls).withOp (c.newOp (.add l.length) stm ws.rows post wd.bytes wd.tag)).stepped
      (u.copyGo p stm ws wd true post bs) := by
  have hpaid : s.CoreBecomes p (c.withTolls (v.core p).tolls) v := (hr ▸ h.tallyTier _ _).debit hv
  have hkept := hpaid.withHouses (v.keepSpare_eq r l)
  have hadded := (hkept.startOp (.add l.length) stm ws.rows post wd.bytes wd.tag).withHouses
    (State.queueAdds_eq _ (.copy p ((v.keepSpare r l).core p).nextOp) l)
  have hdone := (hadded.tallyTier (wrTally .hbm) wd.bytes).advance
    (c := (c.withTolls (v.core p).tolls).withOp (c.newOp (.add l.length) stm ws.rows post wd.bytes wd.tag)) stm hpc
  rw [State.copyGo_adds_eq hr hl hv, congrArg State.houses hdone.frame]
  exact hdone

end

/-! Issue of a COPY (R137). -/

theorem State.issuing_running {s : State} {l p : Nat} {i : Instr} (h : s.issuing l i = some p) :
    (s.core p).st = .running := by
  unfold State.issuing at h
  split at h
  · cases h
  · extract_lets q at h
    split at h
    · next hcan =>
      obtain rfl := Option.some.inj h
      exact hcan.2.1
    · cases h

@[simp] theorem State.counted_pieceBytes (s : State) (p : Nat) (w : Waybill) :
    (s.counted p).pieceBytes p w = s.pieceBytes p w := by
  unfold State.pieceBytes State.counted
  simp only [State.bytesAt_setCore s p ((s.core p).issuedTo (s.core p).pc) _ _ rfl]

/-- A COPY whose waybills are read, whose pieces fit and whose source can be read goes with the source's bytes. -/
theorem exec_copy_reads {s : State} {i : Issue} {p pc : Nat} {src dst pbuf : BitVec 14} {post add : Bool}
    {ws wd : Waybill} {b : Buf} (h : s.Issues i.core (.copy i src dst pbuf post add) p pc)
    (hf : (s.core p).fence = none)
    (hsrc : (s.counted p).readWb p (s.partNo i.core) i.stm src false = (s.counted p, some ws))
    (hdst : (s.counted p).readWb p (s.partNo i.core) i.stm dst true = (s.counted p, some wd))
    (hpost : post = true → (s.counted p).bufRef p (s.partNo i.core) i.stm pbuf = some b)
    (hshape : copyShape ws wd add = true) (hfail : (s.counted p).failedIn ws.rows = none)
    (hread : (s.counted p).coreRead p (s.partNo i.core) ws.rows i.stm [ws.tag] = (s.counted p, true)) :
    exec (.copy i src dst pbuf post add) s
      = .next ((s.counted p).copyGo p i.stm ws wd add (if post then some b else none) (s.pieceBytes p ws)) := by
  have hwith (o : Option Buf) : (s.counted p).copyWith p (s.partNo i.core) i.stm ws wd add o
      = (s.counted p).copyGo p i.stm ws wd add o (s.pieceBytes p ws) := by
    simp only [State.copyWith, hshape, Bool.not_true, Bool.false_eq_true, if_false, hfail, hread, if_true,
      State.counted_pieceBytes]
  simp only [exec, execCopy, h.1, State.issueWrite_unfenced _ h hf, State.counted_partNo, hsrc, hdst, hwith]
  cases post with
  | false => rfl
  | true => simp only [hpost rfl, if_true]

/-! The end of a local operation (R137, R143). -/

theorem Core.op_id {c : Core} {id : Nat} {o : PorterOp} (h : c.op id = some o) : o.id = id := by
  simpa using List.find?_some h

/-- With records of kind PORTER off, an operation that has not failed ends, and its token is posted. -/
theorem State.copyEnd_ok {s : State} {p : Nat} (o : PorterOp) (htr : (s.core p).traces 4 = false) :
    s.copyEnd p o false = (s.endOp p o.id).postDone p o := by
  have hoff : ((s.endOp p o.id).core p).traces 4 = false := by
    simpa [State.endOp, Core.traces] using htr
  simp only [State.copyEnd, State.tracePorter, hoff, Bool.false_eq_true, if_false]

theorem State.postDone_none {s : State} {p : Nat} {o : PorterOp} (h : o.post = none) : s.postDone p o = s := by
  simp only [State.postDone, h]

/-- A token is posted where the count has room (R143). -/
theorem State.postDone_some {s : State} {p : Nat} {o : PorterOp} {b : Buf} (h : o.post = some b)
    (hroom : s.tok p b < 255) :
    s.postDone p o = (s.setTok p b (s.tok p b + 1)).tallyAdd p tlTOKPOSTS 1 := by
  have hfits : s.tok p b + 1 ≤ 255 := hroom
  simp only [State.postDone, h, State.post, if_pos hfits]

theorem State.tok_endOp (s : State) (p id : Nat) (b : Buf) : (s.endOp p id).tok p b = s.tok p b :=
  s.tok_setCore p _ b rfl

theorem exec_copyComplete_stores {s t : State} {core p op : Nat} {o : PorterOp} {wr : List (Nat × List Byte)}
    (hclk : s.clockedPhys core = some p) (hop : (s.core p).op op = some o) (hst : o.status = 0)
    (hact : o.act = .copy wr) (hstores : s.stores p (s.partOf core) wr = (t, false)) :
    exec (.copyComplete core op) s = .next (t.copyEnd p o false) := by
  simp [exec, execCopyComplete, hclk, hop, hact, hst, hstores]

/-- With no add left, a COPY with ADD ends (R113). -/
theorem exec_copyComplete_added {s : State} {core p op : Nat} {o : PorterOp} (hclk : s.clockedPhys core = some p)
    (hop : (s.core p).op op = some o) (hst : o.status = 0) (hact : o.act = .add 0) :
    exec (.copyComplete core op) s = .next (s.copyEnd p o false) := by
  simp [exec, execCopyComplete, hclk, hop, hact, hst]

theorem exec_copyComplete_posts {s : State} {core p op n : Nat} {o : PorterOp} {words : List Word}
    (hclk : s.clockedPhys core = some p) (hop : (s.core p).op op = some o) (hact : o.act = .descriptor n words) :
    exec (.copyComplete core op) s = .next ((s.postDescriptor p n words).copyEnd p o false) := by
  simp only [exec, execCopyComplete, hclk, hop, hact]

/-- Settles O13: what a COPY starts, by its three ways, with the source's bytes captured at issue (log entry 11), and
what its completion comes to. -/
theorem copyComplete : Obligations.CopyComplete := by
  refine ⟨?issue, ?done⟩
  case issue =>
    intro s v i p src dst pbuf post add ws wd b c q u r bs n l ops hi hf hsrc hdst hpost hshape hfail hread
    have hexec := exec_copy_reads hi hf hsrc hdst hpost hshape hfail hread
    have hcounted := s.coreBecomes_counted p
    have hrun := State.issuing_running hi.1
    refine ⟨fun hadd hport hv => ?bytes, fun hadd hport hv => ?descriptor, fun hadd hv => ?adds⟩
    case bytes =>
      subst hadd
      exact ⟨_, hexec, (hcounted.copyGo_bytes rfl hport hv hi.2.2).opStarted_effect hrun⟩
    case descriptor =>
      subst hadd
      exact ⟨_, hexec, (hcounted.copyGo_descriptor rfl hport hv hi.2.2).opStarted_effect hrun⟩
    case adds =>
      subst hadd
      exact ⟨_, hexec, (hcounted.copyGo_adds rfl rfl hv hi.2.2).opStarted_effect hrun⟩
  case done =>
    intro s core p op n o wr words b r hclk hop htr hst
    have hid : o.id = op := Core.op_id hop
    have hend {t : State} (ht : (t.core p).traces 4 = false) : t.copyEnd p o false = (t.endOp p op).postDone p o :=
      hid ▸ State.copyEnd_ok o ht
    have hstored (ha : o.act = .copy wr) (hbad : r.2 = false) (ht : (r.1.core p).traces 4 = false) :
        exec (.copyComplete core op) s = .next ((r.1.endOp p op).postDone p o) := by
      rw [exec_copyComplete_stores hclk hop hst ha (Prod.ext rfl hbad), hend ht]
    refine ⟨fun ha hbad ht hnone => ?_, fun ha hbad ht hsome hroom => ?_, fun ha hnone => ?_, fun ha hnone => ?_⟩
    · rw [hstored ha hbad ht, State.postDone_none hnone]
    · rw [hstored ha hbad ht, State.postDone_some hsome (by rwa [State.tok_endOp]), State.tok_endOp]
    · rw [exec_copyComplete_added hclk hop hst ha, hend htr, State.postDone_none hnone]
    · rw [exec_copyComplete_posts hclk hop ha, hend (t := s.postDescriptor p n words) htr, State.postDone_none hnone]
      rfl

end Sys2Proof.Machine
end

section
/-!
PROOFS. Control instructions (chapter 5 of the spec): what an instruction that goes on, branches or opens and closes loops
comes to under its conditions of issue, and the statements O1 and O2.
-/

namespace Sys2Proof.Machine

/-! Going on after issue. -/

theorem State.goto_inside {s : State} {p pc : Nat} {stm : BitVec 3} (h : pc < (s.core p).insns.length) :
    s.goto p pc stm = s.modCore p (fun c => { c with pc := pc }) := if_pos h

theorem State.counted_core (s : State) (p : Nat) : (s.counted p).core p = (s.core p).issuedTo (s.core p).pc := by
  simp [State.counted]

/-- A change of a core after its instruction has been counted. -/
theorem State.counted_modCore (s : State) (p : Nat) (g : Core → Core) :
    (s.counted p).modCore p g = s.setCore p (g ((s.core p).issuedTo (s.core p).pc)) := by
  simp [State.counted]

theorem State.issued_counted {s : State} {l : Nat} {i : Instr} {p pc : Nat} (h : s.Issues l i p pc) :
    s.issued p = s.counted p := State.issued_of h

theorem State.Issues.lt_length {s : State} {l : Nat} {i : Instr} {p pc : Nat} (h : s.Issues l i p pc) :
    pc < (s.core p).insns.length := by
  obtain ⟨-, -, hlt⟩ := h
  exact hlt

theorem State.Issues.inside {s : State} {l : Nat} {i : Instr} {p pc : Nat} (h : s.Issues l i p pc) :
    pc < ((s.counted p).core p).insns.length := by
  rw [State.counted_core]
  exact h.lt_length

theorem State.counted_goto {s : State} {l : Nat} {i : Instr} {p pc : Nat} {stm : BitVec 3} (h : s.Issues l i p pc) :
    (s.counted p).goto p pc stm = s.setCore p ((s.core p).issuedTo pc) := by
  rw [State.goto_inside h.inside, State.counted_modCore]
  rfl

theorem State.counted_advance {s : State} {l : Nat} {i : Instr} {p : Nat} {stm : BitVec 3}
    (h : s.Issues l i p ((s.core p).pc + 1)) :
    (s.counted p).advance p stm = s.setCore p ((s.core p).issuedTo ((s.core p).pc + 1)) := by
  unfold State.advance
  rw [State.counted_core]
  exact State.counted_goto h

/-! NOP, JUMP, BRFLAG and REGWR (R137, R140, R141). -/

theorem exec_nop_issues {s : State} {i : Issue} {p : Nat} (h : s.Issues i.core (.nop i) p ((s.core p).pc + 1)) :
    exec (.nop i) s = .next (s.setCore p ((s.core p).issuedTo ((s.core p).pc + 1))) := by
  simp only [exec, execNop, h.1, State.issued_counted h, State.counted_advance h]

theorem exec_jump_issues {s : State} {i : Issue} {p : Nat} {target : BitVec 14}
    (h : s.Issues i.core (.jump i target) p target.toNat) :
    exec (.jump i target) s = .next (s.setCore p ((s.core p).issuedTo target.toNat)) := by
  simp only [exec, execJump, h.1, State.issued_counted h, State.counted_goto h]

theorem exec_brflag_taken {s : State} {i : Issue} {p : Nat} {trec : BitVec 6} {mask : BitVec 3} {sense : Bool}
    {target : BitVec 14} (h : s.Issues i.core (.brflag i trec mask sense target) p target.toNat)
    (hb : (((s.core p).recd trec.toNat).any mask == sense) = true) :
    exec (.brflag i trec mask sense target) s = .next (s.setCore p ((s.core p).issuedTo target.toNat)) := by
  simp only [exec, execBrflag, h.1, State.issued_counted h, State.branch, hb, if_true, State.counted_goto h]

theorem exec_brflag_inLine {s : State} {i : Issue} {p : Nat} {trec : BitVec 6} {mask : BitVec 3} {sense : Bool}
    {target : BitVec 14} (h : s.Issues i.core (.brflag i trec mask sense target) p ((s.core p).pc + 1))
    (hb : (((s.core p).recd trec.toNat).any mask == sense) = false) :
    exec (.brflag i trec mask sense target) s
      = .next (s.setCore p ((s.core p).issuedTo ((s.core p).pc + 1))) := by
  simp only [exec, execBrflag, h.1, State.issued_counted h, State.branch, hb, Bool.false_eq_true, if_false,
    State.counted_advance h]

/-- A register write and the count of its instruction change different parts of a core. -/
theorem Core.issuedTo_regWrite (c : Core) (pc off : Nat) (v : Word) :
    (c.issuedTo pc).regWrite off v = (c.regWrite off v).issuedTo pc := by
  unfold Core.regWrite Core.setX
  split_ifs <;> rfl

theorem Core.regWrite_insns (c : Core) (off : Nat) (v : Word) : (c.regWrite off v).insns = c.insns := by
  unfold Core.regWrite Core.setX
  split_ifs <;> rfl

theorem exec_regwr_issues {s : State} {i : Issue} {p : Nat} {offset : BitVec 16} {xi : BitVec 4} {imm : Word}
    (h : s.Issues i.core (.regwr i offset xi imm) p ((s.core p).pc + 1)) (hok : regwrOk offset.toNat = true) :
    exec (.regwr i offset xi imm) s
      = .next (s.setCore p (((s.core p).regWrite offset.toNat (imm + (s.core p).x xi.toNat)).issuedTo
          ((s.core p).pc + 1))) := by
  simp only [exec, execRegwr, h.1, State.issued_counted h, hok, if_true, State.counted_modCore,
    Core.issuedTo_regWrite]
  rw [State.set_advance _ (by rw [Core.issuedTo_insns, Core.regWrite_insns]; exact h.lt_length)]
  rfl

/-- Settles O1: each instruction goes on from the state in which it has been counted. -/
theorem nopJumpBrflagRegwrComplete : Obligations.NopJumpBrflagRegwrComplete :=
  ⟨fun _ _ _ _ _ _ _ => ⟨exec_nop_issues, exec_jump_issues, exec_brflag_taken, exec_brflag_inLine⟩,
    fun _ _ _ _ _ _ => exec_regwr_issues⟩

/-! Loops (R139). -/

/-- The loop stack's new entry for a loop opened at the pc. -/
def Core.pushLoop (c : Core) (xi : BitVec 4) (step : Word) (count : Nat) : Core :=
  { c with loops := { start := c.pc + 1, xi := xi, step := step, left := count } :: c.loops }

/-- What ENDLOOP does to a core but for its pc: the loop's XREG moves by STEP, and the stack becomes `loops`. -/
def Core.endBody (c : Core) (e : LoopEntry) (loops : List LoopEntry) : Core :=
  { c.setX e.xi.toNat (c.x e.xi.toNat + e.step) with loops := loops }

theorem Core.endBody_insns (c : Core) (e : LoopEntry) (loops : List LoopEntry) :
    (c.endBody e loops).insns = c.insns := c.setX_insns _ _

theorem Core.issuedTo_endBody (c : Core) (pc : Nat) (e : LoopEntry) (loops : List LoopEntry) :
    (c.issuedTo pc).endBody e loops = (c.endBody e loops).issuedTo pc := by
  unfold Core.endBody Core.setX
  split_ifs <;> rfl

theorem State.openLoop_skips {s : State} {p : Nat} (stm : BitVec 3) (xi : BitVec 4) (step : Word) :
    s.openLoop p stm xi step 0 = s.goto p (s.core p).skipLoop stm := by
  simp only [State.openLoop, if_true]

theorem State.openLoop_pushes {s : State} {p n : Nat} {stm : BitVec 3} {xi : BitVec 4} {step : Word} (hn : n ≠ 0)
    (hroom : (s.core p).loops.length < 4) :
    s.openLoop p stm xi step n = (s.modCore p (fun c => c.pushLoop xi step n)).advance p stm := by
  have hfits : ¬ 4 ≤ (s.core p).loops.length := Nat.not_le.mpr hroom
  simp only [State.openLoop, if_neg hn, if_neg hfits]
  rfl

theorem State.endLoop_again {s : State} {p : Nat} {stm : BitVec 3} {e : LoopEntry} {rest : List LoopEntry}
    (hl : (s.core p).loops = e :: rest) (hleft : 1 < e.left) :
    s.endLoop p stm
      = (s.modCore p (fun c => c.endBody e ({ e with left := e.left - 1 } :: rest))).goto p e.start stm := by
  simp only [State.endLoop, hl, if_pos hleft]
  rfl

theorem State.endLoop_last {s : State} {p : Nat} {stm : BitVec 3} {e : LoopEntry} {rest : List LoopEntry}
    (hl : (s.core p).loops = e :: rest) (hleft : e.left ≤ 1) :
    s.endLoop p stm = (s.modCore p (fun c => c.endBody e rest)).advance p stm := by
  simp only [State.endLoop, hl, if_neg (Nat.not_lt.mpr hleft)]
  rfl

theorem Core.issuedTo_skipLoop (c : Core) : (c.issuedTo c.pc).skipLoop = c.skipLoop := rfl

/-- A counted core opens a loop of one or more iterations. -/
theorem State.counted_openLoop {s : State} {l : Nat} {i : Instr} {p n : Nat} {stm : BitVec 3} {xi : BitVec 4}
    {step : Word} (h : s.Issues l i p ((s.core p).pc + 1)) (hn : n ≠ 0) (hroom : (s.core p).loops.length < 4) :
    (s.counted p).openLoop p stm xi step n
      = s.setCore p (((s.core p).pushLoop xi step n).issuedTo ((s.core p).pc + 1)) := by
  rw [State.openLoop_pushes hn (by rwa [State.counted_core]), State.counted_modCore]
  exact State.set_advance _ h.lt_length

/-- A counted core skips a loop of no iterations. -/
theorem State.counted_skipLoop {s : State} {l : Nat} {i : Instr} {p : Nat} {stm : BitVec 3} {xi : BitVec 4}
    {step : Word} (h : s.Issues l i p (s.core p).skipLoop) :
    (s.counted p).openLoop p stm xi step 0 = s.setCore p ((s.core p).issuedTo (s.core p).skipLoop) := by
  rw [State.openLoop_skips, State.counted_core, Core.issuedTo_skipLoop, State.counted_goto h]

theorem exec_loop_opens {s : State} {i : Issue} {p : Nat} {xi : BitVec 4} {step count : Word}
    (h : s.Issues i.core (.loop i xi step count) p ((s.core p).pc + 1)) (hn : count ≠ 0)
    (hroom : (s.core p).loops.length < 4) :
    exec (.loop i xi step count) s
      = .next (s.setCore p (((s.core p).pushLoop xi step count.toNat).issuedTo ((s.core p).pc + 1))) := by
  have hcount : count.toNat ≠ 0 := fun hz => hn (BitVec.eq_of_toNat_eq hz)
  simp only [exec, execLoop, h.1, State.issued_counted h, State.counted_openLoop h hcount hroom]

theorem exec_loop_skips {s : State} {i : Issue} {p : Nat} {xi : BitVec 4} {step : Word}
    (h : s.Issues i.core (.loop i xi step 0) p (s.core p).skipLoop) :
    exec (.loop i xi step 0) s = .next (s.setCore p ((s.core p).issuedTo (s.core p).skipLoop)) := by
  simp only [exec, execLoop, h.1, State.issued_counted h]
  exact congrArg Host.Outcome.next (State.counted_skipLoop h)

theorem exec_endloop_again {s : State} {i : Issue} {p : Nat} {e : LoopEntry} {rest : List LoopEntry}
    (h : s.Issues i.core (.endloop i) p e.start) (hl : (s.core p).loops = e :: rest) (hleft : 1 < e.left) :
    exec (.endloop i) s
      = .next (s.setCore p (((s.core p).endBody e ({ e with left := e.left - 1 } :: rest)).issuedTo e.start)) := by
  have hloops : ((s.counted p).core p).loops = e :: rest := by rwa [State.counted_core]
  simp only [exec, execEndloop, h.1, State.issued_counted h, State.endLoop_again hloops hleft,
    State.counted_modCore, Core.issuedTo_endBody]
  rw [State.set_goto _ (by rw [Core.issuedTo_insns, Core.endBody_insns]; exact h.lt_length)]
  rfl

theorem exec_endloop_last {s : State} {i : Issue} {p : Nat} {e : LoopEntry} {rest : List LoopEntry}
    (h : s.Issues i.core (.endloop i) p ((s.core p).pc + 1)) (hl : (s.core p).loops = e :: rest)
    (hleft : e.left ≤ 1) :
    exec (.endloop i) s = .next (s.setCore p (((s.core p).endBody e rest).issuedTo ((s.core p).pc + 1))) := by
  have hloops : ((s.counted p).core p).loops = e :: rest := by rwa [State.counted_core]
  simp only [exec, execEndloop, h.1, State.issued_counted h, State.endLoop_last hloops hleft,
    State.counted_modCore, Core.issuedTo_endBody]
  rw [State.set_advance _ (by rw [Core.issuedTo_insns, Core.endBody_insns]; exact h.lt_length)]
  rfl

/-! Counts and branches from memory (R139, R140). -/

theorem State.counted_coreRead {s : State} {p q a n : Nat} {stm : BitVec 3} (h : s.ReadsClean p q a n) :
    (s.counted p).coreRead p q [(a, n)] stm = (s.counted p, true) := State.coreRead_clean (h.setCore _ rfl)

theorem State.counted_wordAt (s : State) (p a : Nat) : (s.counted p).wordAt p a = s.wordAt p a :=
  s.wordAt_setCore p _ a rfl

theorem State.counted_wordAddr (s : State) (p : Nat) (xa : BitVec 4) (addr : BitVec 44) :
    ((s.counted p).core p).wordAddr xa addr = addr.toNat + 4 * ((s.core p).x xa.toNat).toNat := by
  rw [State.counted_core]
  rfl

/-- A LOOPM whose word is readable and at most MAX opens the loop that the word counts. -/
theorem exec_loopm_reads {s : State} {i : Issue} {p pc n : Nat} {xi xa : BitVec 4} {addr : BitVec 44}
    {step : BitVec 16} {max : Word} (h : s.Issues i.core (.loopm i xi xa addr step max) p pc)
    (hread : s.ReadsClean p (s.partNo i.core) (addr.toNat + 4 * ((s.core p).x xa.toNat).toNat) 4)
    (hn : s.wordAt p (addr.toNat + 4 * ((s.core p).x xa.toNat).toNat) = n) (hmax : n ≤ max.toNat) :
    exec (.loopm i xi xa addr step max) s
      = .next ((s.counted p).openLoop p i.stm xi (step.signExtend 32) n) := by
  simp only [exec, execLoopm, h.1, State.issued_counted h, State.counted_partNo, State.counted_wordAddr,
    State.counted_coreRead hread, State.counted_wordAt, hn, Bool.not_true, Bool.false_eq_true, if_false,
    if_neg (Nat.not_lt.mpr hmax)]

/-- A BRMEM whose word is readable branches on it. -/
theorem exec_brmem_reads {s : State} {i : Issue} {p pc : Nat} {xa : BitVec 4} {addr : BitVec 44} {sense : Bool}
    {target : BitVec 14} (h : s.Issues i.core (.brmem i xa addr sense target) p pc)
    (hread : s.ReadsClean p (s.partNo i.core) (addr.toNat + 4 * ((s.core p).x xa.toNat).toNat) 4) :
    exec (.brmem i xa addr sense target) s
      = .next ((s.counted p).branch p i.stm
          ((s.wordAt p (addr.toNat + 4 * ((s.core p).x xa.toNat).toNat) != 0) == sense) target) := by
  simp only [exec, execBrmem, h.1, State.issued_counted h, State.counted_partNo, State.counted_wordAddr,
    State.counted_coreRead hread, State.counted_wordAt, Bool.not_true, Bool.false_eq_true, if_false]

/-- Settles O2: the loop stack's operations on the state in which the instruction has been counted, and for LOOPM and
BRMEM the word that a clean read gives. -/
theorem loopsComplete : Obligations.LoopsComplete := by
  refine ⟨?stack, ?memory⟩
  case stack =>
    intro s i p xi step count e rest
    exact ⟨exec_loop_opens, exec_loop_skips, exec_endloop_again, exec_endloop_last⟩
  case memory =>
    intro s i p xi xa addr step max sense target c a n hread
    refine ⟨fun h hn hmax hroom => ?opens, fun h hn => ?skips, fun h hb => ?taken, fun h hb => ?inLine⟩
    case opens =>
      rw [exec_loopm_reads h hread rfl hmax, State.counted_openLoop h hn hroom]
      rfl
    case skips =>
      rw [exec_loopm_reads h hread hn (Nat.zero_le _), State.counted_skipLoop h]
    case taken =>
      rw [exec_brmem_reads h hread, State.branch, if_pos (beq_iff_eq.mpr hb), State.counted_goto h]
    case inLine =>
      rw [exec_brmem_reads h hread, State.branch, if_neg (fun hc => hb (beq_iff_eq.mp hc)), State.counted_advance h]

end Sys2Proof.Machine
end

section
/-!
PROOFS. Tokens, deadlines and tolls (chapter 5 of the spec): what a wait's end and a deadline come to where trace records
are off, and the statements O3 and O4.
-/

namespace Sys2Proof.Machine

/-! Token counts and the rest of a core. -/

/-- Core `c` with the stall buffer table `l`. -/
def Core.withSbufs (c : Core) (l : Tab StallBuf) : Core := { c with sbufs := l }

/-- Core `c` once its wait is over. -/
def Core.unwaiting (c : Core) : Core := { c with wait := .none }

/-- A count is taken or left, and the rest of the core changes, in either order. -/
theorem State.setTok_modCore (s : State) (p : Nat) (b : Buf) (n : Nat) {g : Core → Core}
    (hg : ∀ c l, g (c.withSbufs l) = (g c).withSbufs l) :
    (s.modCore p g).setTok p b n = (s.setTok p b n).modCore p g := by
  have hsame : g (s.core p) = (g (s.core p)).withSbufs (s.core p).sbufs := hg (s.core p) (s.core p).sbufs
  have hkeep : (g (s.core p)).sbufs = (s.core p).sbufs := by
    rw [hsame]
    rfl
  obtain ⟨l, hl⟩ := s.setTok_core p b n
  have hcore : (s.setTok p b n).core p = (s.core p).withSbufs l := hl
  rw [State.modCore_eq, State.setTok_setCore _ _ _ _ _ hkeep, State.modCore_eq, hcore, hg]
  rfl

theorem State.setTok_reads {α : Type} {f : Core → α} (hf : ∀ c l, f (Core.withSbufs c l) = f c) (s : State) (p : Nat)
    (b : Buf) (n : Nat) : f ((s.setTok p b n).core p) = f (s.core p) := by
  obtain ⟨l, hl⟩ := s.setTok_core p b n
  exact (congrArg f hl).trans (hf _ l)

theorem State.takeTokens_reads {α : Type} {f : Core → α} (hf : ∀ c l, f (Core.withSbufs c l) = f c) (s : State)
    (p : Nat) (b : Buf) (n : Nat) (consume : Bool) : f ((s.takeTokens p b n consume).core p) = f (s.core p) := by
  unfold State.takeTokens
  split
  · exact State.setTok_reads hf s p b _
  · rfl

theorem State.counted_tok (s : State) (p : Nat) (b : Buf) : (s.counted p).tok p b = s.tok p b :=
  s.tok_setCore p _ b rfl

theorem State.counted_missing (s : State) (p : Nat) (b : Buf) : (s.counted p).missing p b = s.missing p b :=
  s.missing_setCore p _ b rfl

theorem State.counted_bufRef (s : State) (p q : Nat) (stm : BitVec 3) (r : BitVec 14) :
    (s.counted p).bufRef p q stm r = s.bufRef p q stm r := s.bufRef_setCore p q _ stm r rfl rfl

/-- Counting an instruction leaves the tokens that it takes. -/
theorem State.counted_setTok (s : State) (p : Nat) (b : Buf) (n : Nat) :
    (s.counted p).setTok p b n = (s.setTok p b n).counted p :=
  s.setTok_modCore p b n (g := fun c => c.issuedTo c.pc) fun _ _ => rfl

theorem State.counted_takeTokens (s : State) (p : Nat) (b : Buf) (n : Nat) (consume : Bool) :
    (s.counted p).takeTokens p b n consume = (s.takeTokens p b n consume).counted p := by
  unfold State.takeTokens
  split
  · rw [State.counted_tok, State.counted_setTok]
  · rfl

/-! Going on, and waits, with trace records of kind 1 off. -/

theorem State.counted_advance_inside {s : State} {p : Nat} {stm : BitVec 3}
    (h : (s.core p).pc + 1 < (s.core p).insns.length) :
    (s.counted p).advance p stm = s.modCore p (fun c => c.issuedTo (c.pc + 1)) := by
  have hinside : ((s.counted p).core p).pc + 1 < ((s.counted p).core p).insns.length := by
    rwa [State.counted_core]
  rw [State.advance_inside hinside, State.counted_modCore]
  rfl

/-- A counted core begins a wait. -/
theorem State.counted_beginWait {s : State} {p : Nat} (w : WaitOn) (stm : BitVec 3)
    (h : (s.core p).traces 1 = false) :
    (s.counted p).beginWait p w stm = s.setCore p { (s.core p).issuedTo (s.core p).pc with
      wait := w, waitSince := s.dieNow (p / 22), waitStm := stm } := by
  have htr : ((s.counted p).core p).traces 1 = false := by rwa [State.counted_core]
  rw [State.beginWait_off htr, State.counted_core]
  exact State.setCore_setCore _ _ _ _

/-- A wait ends and the core goes on. -/
theorem State.endWait_advance {s : State} {p : Nat} {stm : BitVec 3} (htr : (s.core p).traces 1 = false)
    (h : (s.core p).pc + 1 < (s.core p).insns.length) :
    (s.endWait p).advance p stm = s.modCore p (fun c => { c with wait := .none, pc := c.pc + 1 }) := by
  rw [State.endWait_off htr]
  exact State.set_advance _ h

/-- A tally that does not pass its 64 bits (R435). -/
theorem State.tallyAdd_plain {s : State} {p idx n : Nat}
    (h : (tabGet 0 (s.core p).tally idx).toNat % 2 ^ 64 + n < 2 ^ 64) :
    s.tallyAdd p idx n
      = s.modCore p (fun c => { c with tally := tabSet c.tally idx (tabGet 0 c.tally idx + BitVec.ofNat 80 n) }) :=
  if_neg (Nat.not_le.mpr h)

/-! TOKWAIT and TOKPOST (R143). -/

theorem exec_tokwait_goes {s : State} {i : Issue} {p : Nat} {buf : BitVec 14} {n : BitVec 8} {consume : Bool} {b : Buf}
    (h : s.Issues i.core (.tokwait i buf n consume) p ((s.core p).pc + 1))
    (hb : s.bufRef p (s.partNo i.core) i.stm buf = some b) (hm : s.missing p b = false) (hn : n.toNat ≤ s.tok p b) :
    exec (.tokwait i buf n consume) s
      = .next ((s.takeTokens p b n.toNat consume).modCore p (fun c => c.issuedTo (c.pc + 1))) := by
  have hinside : ((s.takeTokens p b n.toNat consume).core p).pc + 1
      < ((s.takeTokens p b n.toNat consume).core p).insns.length := by
    rw [State.takeTokens_reads (f := Core.pc) fun _ _ => rfl, State.takeTokens_reads (f := Core.insns) fun _ _ => rfl]
    exact h.lt_length
  simp only [exec, execTokwait, h.1, State.issued_counted h, State.counted_partNo, State.counted_bufRef, hb,
    State.counted_missing, hm, Bool.false_eq_true, if_false, State.counted_tok, if_pos hn, State.counted_takeTokens,
    State.counted_advance_inside hinside]

theorem exec_tokwait_waits {s : State} {i : Issue} {p pc : Nat} {buf : BitVec 14} {n : BitVec 8} {consume : Bool}
    {b : Buf} (h : s.Issues i.core (.tokwait i buf n consume) p pc)
    (hb : s.bufRef p (s.partNo i.core) i.stm buf = some b) (hm : s.missing p b = false) (hn : s.tok p b < n.toNat)
    (htr : (s.core p).traces 1 = false) :
    exec (.tokwait i buf n consume) s
      = .next (s.setCore p { (s.core p).issuedTo (s.core p).pc with
          wait := .token b n.toNat consume, waitSince := s.dieNow (p / 22), waitStm := i.stm }) := by
  simp only [exec, execTokwait, h.1, State.issued_counted h, State.counted_partNo, State.counted_bufRef, hb,
    State.counted_missing, hm, Bool.false_eq_true, if_false, State.counted_tok, if_neg (Nat.not_le.mpr hn),
    State.counted_beginWait _ _ htr]

theorem exec_tokwaitSatisfied_ends {s : State} {core p m : Nat} {b : Buf} {consume : Bool}
    (hw : s.waiting core = some p) (hwait : (s.core p).wait = .token b m consume) (hm : m ≤ s.tok p b)
    (htr : (s.core p).traces 1 = false) (hpc : (s.core p).pc + 1 < (s.core p).insns.length) :
    exec (.tokwaitSatisfied core) s
      = .next ((s.takeTokens p b m consume).modCore p (fun c => { c with wait := .none, pc := c.pc + 1 })) := by
  have htraces := s.takeTokens_reads (f := (Core.traces · 1)) (fun _ _ => rfl) p b m consume
  have hlen := s.takeTokens_reads (f := Core.insns) (fun _ _ => rfl) p b m consume
  have hat := s.takeTokens_reads (f := Core.pc) (fun _ _ => rfl) p b m consume
  simp only [exec, execTokwaitSatisfied, hw, hwait, if_pos hm]
  rw [State.endWait_advance (htraces.trans htr) (by rwa [hlen, hat])]

theorem exec_tokpost_posts {s : State} {i : Issue} {p : Nat} {buf : BitVec 14} {n : BitVec 8} {b : Buf}
    (h : s.Issues i.core (.tokpost i buf n) p ((s.core p).pc + 1))
    (hb : s.bufRef p (s.partNo i.core) i.stm buf = some b) (hf : (s.core p).fence = none)
    (hn : s.tok p b + n.toNat ≤ 255) (ht : (tabGet 0 (s.core p).tally tlTOKPOSTS).toNat % 2 ^ 64 + 1 < 2 ^ 64) :
    exec (.tokpost i buf n) s
      = .next ((s.setTok p b (s.tok p b + n.toNat)).modCore p (fun c => { c.issuedTo (c.pc + 1) with
          tally := tabSet (c.issuedTo c.pc).tally tlTOKPOSTS (tabGet 0 c.tally tlTOKPOSTS + 1) })) := by
  obtain ⟨f, hcore⟩ := s.setTok_core p b (s.tok p b + n.toNat)
  have hother (c : Core) : tabGet 0 (c.issuedTo c.pc).tally tlTOKPOSTS = tabGet 0 c.tally tlTOKPOSTS :=
    (tabGet_tabSet _ _ _ _ _).trans (if_neg (by decide))
  have hroom : (tabGet 0 (((s.setTok p b (s.tok p b + n.toNat)).counted p).core p).tally tlTOKPOSTS).toNat % 2 ^ 64 + 1
      < 2 ^ 64 := by
    rw [State.counted_core, hother, hcore]
    exact ht
  simp only [exec, execTokpost, h.1, State.issueWrite_unfenced _ h hf, State.counted_partNo, State.counted_bufRef, hb,
    State.post, State.counted_tok, if_pos hn, State.counted_setTok, State.tallyAdd_plain hroom, State.counted_modCore,
    hother]
  rw [State.set_advance _ (by rw [hcore]; exact h.lt_length)]
  rfl

/-! DLBR (R140, R205). -/

theorem exec_dlbr_inLine {s : State} {i : Issue} {p : Nat} {buf : BitVec 14} {n : BitVec 8} {dl : BitVec 24}
    {target : BitVec 14} {b : Buf} (h : s.Issues i.core (.dlbr i buf n dl target) p ((s.core p).pc + 1))
    (hb : s.bufRef p (s.partNo i.core) i.stm buf = some b) (hm : s.missing p b = false) (hn : n.toNat ≤ s.tok p b) :
    exec (.dlbr i buf n dl target) s = .next (s.setCore p ((s.core p).issuedTo ((s.core p).pc + 1))) := by
  simp only [exec, execDlbr, h.1, State.issued_counted h, State.counted_partNo, State.counted_bufRef, hb,
    State.counted_missing, hm, Bool.false_eq_true, if_false, State.counted_tok, if_pos hn, State.counted_advance h]

theorem exec_dlbr_waits {s : State} {i : Issue} {p pc : Nat} {buf : BitVec 14} {n : BitVec 8} {dl : BitVec 24}
    {target : BitVec 14} {b : Buf} (h : s.Issues i.core (.dlbr i buf n dl target) p pc)
    (hb : s.bufRef p (s.partNo i.core) i.stm buf = some b) (hm : s.missing p b = false) (hn : s.tok p b < n.toNat)
    (hdl : dl ≠ 0) (htr : (s.core p).traces 1 = false) :
    exec (.dlbr i buf n dl target) s
      = .next (s.setCore p { (s.core p).issuedTo (s.core p).pc with
          wait := .deadline b n.toNat (s.now + dl.setWidth 64) target.toNat,
          waitSince := s.dieNow (p / 22), waitStm := i.stm }) := by
  simp only [exec, execDlbr, h.1, State.issued_counted h, State.counted_partNo, State.counted_bufRef, hb,
    State.counted_missing, hm, Bool.false_eq_true, if_false, State.counted_tok, if_neg (Nat.not_le.mpr hn), if_neg hdl,
    State.counted_beginWait _ _ htr]
  rfl

theorem exec_dlbrTokenReached_ends {s : State} {core p m tgt : Nat} {b : Buf} {till : DWord}
    (hw : s.waiting core = some p) (hwait : (s.core p).wait = .deadline b m till tgt) (hm : m ≤ s.tok p b)
    (htr : (s.core p).traces 1 = false) (hpc : (s.core p).pc + 1 < (s.core p).insns.length) :
    exec (.dlbrTokenReached core) s
      = .next (s.setCore p { s.core p with wait := .none, pc := (s.core p).pc + 1 }) := by
  simp only [exec, execDlbrTokenReached, hw, hwait, if_pos hm, State.endWait_advance htr hpc, State.modCore_eq]

theorem eachDo_fixed {α : Type} {g : α → State → State} {s : State} {l : List α} (h : ∀ x ∈ l, g x s = s) :
    eachDo l g s = s := by
  induction l with
  | nil => rfl
  | cons x l ih =>
    have hstep : eachDo (x :: l) g s = eachDo l g (g x s) := rfl
    rw [hstep, h x List.mem_cons_self]
    exact ih fun y hy => h y (List.mem_cons_of_mem x hy)

theorem State.cancelCopies_none {s : State} {p : Nat} {b : Buf} (h : ∀ o ∈ (s.core p).ops, o.post ≠ some b) :
    s.cancelCopies p b = s := by
  refine if_neg ?_
  simp only [List.any_eq_true, Bool.and_eq_true, decide_eq_true_eq, not_exists]
  rintro o ⟨hmem, -, hpost⟩
  exact h o hmem hpost

/-- A deadline with no COPY outstanding to the buffer cancels nothing (R140). -/
theorem State.deadlineBranch_none {s : State} {p : Nat} {b : Buf} (stm : BitVec 3) (target : Nat)
    (h : ∀ k, ∀ o ∈ (s.core k).ops, o.post ≠ some b) :
    s.deadlineBranch p b stm target = (s.logCore p 0x100B scDeadline []).goto p target stm := by
  cases b with
  | stall k => simp only [State.deadlineBranch, State.cancelCopies_none (h p)]
  | depot d k =>
    simp only [State.deadlineBranch]
    rw [eachDo_fixed fun k _ => State.cancelCopies_none (h k)]

/-- What no listed core has outstanding, none has. -/
theorem State.noPost_of_cores {s : State} {b : Buf} (h : ∀ e ∈ s.cores, ∀ o ∈ e.2.ops, o.post ≠ some b) (k : Nat) :
    ∀ o ∈ (s.core k).ops, o.post ≠ some b := by
  have hall := tabGet_all {} (fun c : Core => c.ops.all (fun o => decide (o.post ≠ some b))) s.cores k rfl (by
    simpa only [List.all_eq_true, decide_eq_true_eq] using h)
  intro o ho
  exact of_decide_eq_true (List.all_eq_true.mp hall o ho)

theorem exec_dlbrDeadlineExpiry_branches {s : State} {core p m tgt : Nat} {b : Buf} {till : DWord}
    (hw : s.waiting core = some p) (hwait : (s.core p).wait = .deadline b m till tgt) (hm : s.tok p b < m)
    (htr : (s.core p).traces 1 = false) (htgt : tgt < (s.core p).insns.length)
    (hops : ∀ e ∈ s.cores, ∀ o ∈ e.2.ops, o.post ≠ some b) :
    exec (.dlbrDeadlineExpiry core) s
      = .next (((s.setCore p (s.core p).unwaiting).logCore p 0x100B scDeadline []).modCore p
          (fun c => { c with pc := tgt })) := by
  have hend : s.endWait p = s.setCore p (s.core p).unwaiting := State.endWait_off htr
  have hown : (s.setCore p (s.core p).unwaiting).core p = (s.core p).unwaiting := by simp
  have hnone (k : Nat) : ∀ o ∈ ((s.setCore p (s.core p).unwaiting).core k).ops, o.post ≠ some b := by
    rw [State.setCore_core]
    split
    · exact State.noPost_of_cores hops p
    · exact State.noPost_of_cores hops k
  have hlogged := ((s.setCore p (s.core p).unwaiting).coreBecomes_self p).logCore 0x100B scDeadline []
  have hinsns := hlogged.reads (f := Core.insns) fun _ => rfl
  rw [hown] at hinsns
  simp only [exec, execDlbrDeadlineExpiry, hw, hwait, if_neg (Nat.not_le.mpr hm), hend,
    State.deadlineBranch_none _ _ hnone]
  rw [State.goto_inside (by rw [hinsns]; exact htgt)]

/-- Settles O3: each wait ends, goes on or branches as the count of its buffer says. -/
theorem tokenWaitsComplete : Obligations.TokenWaitsComplete :=
  ⟨fun _ _ _ _ _ _ _ _ _ => ⟨exec_tokwait_goes, exec_tokwait_waits, exec_tokwaitSatisfied_ends, exec_tokpost_posts⟩,
    fun _ _ _ _ _ _ _ _ _ _ _ _ =>
      ⟨fun htr hb hm h => ⟨exec_dlbr_inLine h hb hm, fun hn hdl => exec_dlbr_waits h hb hm hn hdl htr⟩,
        fun htr hw hwait => ⟨fun hm hpc => exec_dlbrTokenReached_ends hw hwait hm htr hpc,
          fun hm htgt hops => exec_dlbrDeadlineExpiry_branches hw hwait hm htr htgt hops⟩⟩⟩

/-! Tolls (R144, R145, Table 5.7). -/

theorem exec_release_frees {s : State} {i : Issue} {p d k : Nat} {buf : BitVec 14}
    (h : s.Issues i.core (.release i buf) p ((s.core p).pc + 1))
    (hb : s.bufRef p (s.partNo i.core) i.stm buf = some (.depot d k)) :
    exec (.release i buf) s
      = .next ((s.modDie d (fun x => x.modBuf k (fun y => { y with free := y.size / 256 }))).modCore p
          (fun c => c.issuedTo (c.pc + 1))) := by
  simp only [exec, execRelease, h.1, State.issued_counted h, State.counted_partNo, State.counted_bufRef, hb]
  exact congrArg Host.Outcome.next (State.counted_advance_inside
    (s := s.modDie d (fun x => x.modBuf k (fun y => { y with free := y.size / 256 }))) h.lt_length)

theorem exec_tollreq_waits {s : State} {i : Issue} {p pc : Nat} {cls : BitVec 4} {target : BitVec 20}
    {amount : BitVec 24} (h : s.Issues i.core (.tollreq i cls target amount) p pc)
    (hcheck : s.tollCheck p (s.partNo i.core) cls.toNat target.toNat amount.toNat = 0)
    (hcached : cls = 3 → (s.qp target.toNat).cached = true) (htr : (s.core p).traces 1 = false) :
    exec (.tollreq i cls target amount) s
      = .next { s.setCore p { (s.core p).issuedTo (s.core p).pc with
            wait := .toll cls.toNat target.toNat amount.toNat, waitSince := s.dieNow (p / 22), waitStm := i.stm } with
          tollWait := s.tollWait ++ [p] } := by
  have hno : ¬ (cls = 3 ∧ (s.qp target.toNat).cached = false) := by
    rintro ⟨hc, hf⟩
    rw [hcached hc] at hf
    cases hf
  simp only [exec, execTollreq, h.1, hcheck, ne_eq, not_true_eq_false, if_false, if_neg hno, State.issued_counted h,
    State.counted_beginWait _ _ htr, State.setCore_tollWait]

theorem State.tollTake_core (s : State) (cls target amount p : Nat) :
    (s.tollTake cls target amount).core p = s.core p := by
  unfold State.tollTake
  split <;> rfl

theorem State.tollTake_tollWait (s : State) (cls target amount : Nat) :
    (s.tollTake cls target amount).tollWait = s.tollWait := by
  unfold State.tollTake
  split <;> rfl

/-- A core's balance once a toll is granted (R144), before its wait ends. -/
def Core.granted (c : Core) (cls target amount : Nat) : Core :=
  { c with tolls := tabSet c.tolls (tollKey cls target) (tabGet 0 c.tolls (tollKey cls target) + amount) }

/-- The state once a receiver has granted a toll and the core no longer waits in its order (R145). -/
def State.tollGranted (s : State) (p cls target amount : Nat) : State :=
  let u := s.tollTake cls target amount
  { u with tollWait := u.tollWait.filter (· != p) }

theorem State.tollGranted_eq (s : State) (p cls target amount : Nat) :
    s.tollGranted p cls target amount
      = { s.tollTake cls target amount with tollWait := s.tollWait.filter (· != p) } := by
  simp only [State.tollGranted, State.tollTake_tollWait]

theorem State.tollGranted_core (s : State) (p cls target amount : Nat) :
    (s.tollGranted p cls target amount).core p = s.core p := s.tollTake_core cls target amount p

theorem exec_tollGrant_grants {s : State} {core p cl tgt amt : Nat} (hw : s.waiting core = some p)
    (hwait : (s.core p).wait = .toll cl tgt amt) (hfirst : s.firstFor p = true) (hroom : s.tollRoom cl tgt amt = true)
    (htr : (s.core p).traces 1 = false) (hpc : (s.core p).pc + 1 < (s.core p).insns.length) :
    exec (.tollGrant core) s
      = .next ((s.tollGranted p cl tgt amt).modCore p (fun c =>
          { c.granted cl tgt amt with wait := .none, pc := c.pc + 1 })) := by
  have hexec : exec (.tollGrant core) s = .next ((((s.tollGranted p cl tgt amt).modCore p (fun c =>
      c.granted cl tgt amt)).endWait p).advance p (s.core p).waitStm) := by
    simp only [exec, execTollGrant, hw, hwait, hfirst, hroom, and_self, if_true]
    rfl
  have hown : ((s.tollGranted p cl tgt amt).modCore p (fun c => c.granted cl tgt amt)).core p
      = (s.core p).granted cl tgt amt := by
    simp [State.tollGranted_core]
  rw [hexec, State.endWait_advance (by rw [hown]; exact htr) (by rw [hown]; exact hpc), State.modCore_eq,
    State.modCore_eq, State.setCore_setCore, State.setCore_core, if_pos rfl]
  rfl

/-- Settles O4: a release, a request and a grant change the receiver and the core that they name. -/
theorem tollsComplete : Obligations.TollsComplete := by
  intro s i core p d k buf cls target amount cl tgt amt
  refine ⟨exec_release_frees, exec_tollreq_waits, fun hw hwait hfirst hroom htr hpc => ?grant⟩
  case grant =>
    rw [exec_tollGrant_grants hw hwait hfirst hroom htr hpc, State.tollGranted_eq]
    rfl

end Sys2Proof.Machine
end

section
/-!
PROOFS. What reports leave alone: entries of Serai and of the dies' other units, completions and messages to the host, and
milestone messages, which change only what is kept of them. Host commands that are rejected (chapter 14 of the spec), and
the statement O26.
-/

namespace Sys2Proof.Machine

/-! Reports. -/

/-- From `s` to `t` at most what reports leave has changed: the host's rings and messages, the logbook with Serai's gap
mark, frames on the links and their times. -/
def State.ReportsOnly (s t : State) : Prop :=
  t = { s with fns := t.fns, host := t.host, log := t.log, links := t.links, time := t.time, gapSerai := t.gapSerai }

/-- The message of a written completion entry changes its queue's times of messages and the host's list of them. -/
theorem State.cqInterrupt_cases {P : State → Prop} {s : State} {f q : Nat} (hsilent : P s)
    (hsent : ∀ last pending msgs, P { s.setQueue f q { s.queue f q with lastMsi := last, msiPending := pending } with
      host := { s.host with msix := msgs } }) : P (s.cqInterrupt f q) := by
  unfold State.cqInterrupt
  dsimp only
  split_ifs
  · exact hsilent
  · exact hsent _ _ _
  · exact hsent _ _ _

/-- From `s` to `t` at most the functions' queues and the host's memory and messages have changed. -/
def State.HostOnly (s t : State) : Prop := t = { s with fns := t.fns, host := t.host }

namespace State.HostOnly

variable {s t u : State}

theorem refl (s : State) : s.HostOnly s := rfl

theorem trans (h : s.HostOnly t) (k : t.HostOnly u) : s.HostOnly u :=
  Eq.trans k (congrArg (fun x : State => { x with fns := u.fns, host := u.host }) h)

theorem setQueue (f q : Nat) (y : Queue) (h : s.HostOnly t) : s.HostOnly (t.setQueue f q y) :=
  h.trans (u := t.setQueue f q y) rfl

theorem msix (f v : Nat) (h : s.HostOnly t) : s.HostOnly (t.msix f v) := h.trans (u := t.msix f v) rfl

theorem hostWrite (a : Nat) (bs : List Byte) (h : s.HostOnly t) : s.HostOnly (t.hostWrite a bs) :=
  h.trans (u := t.hostWrite a bs) rfl

theorem partChanged (q : Nat) (h : s.HostOnly t) : s.HostOnly (t.partChanged q) := by
  unfold State.partChanged
  split
  · exact h.msix _ _
  · exact h

theorem cqInterrupt (f q : Nat) (h : s.HostOnly t) : s.HostOnly (t.cqInterrupt f q) :=
  State.cqInterrupt_cases h fun _ _ _ => h.trans rfl

theorem cqWrite (f q : Nat) (e : Cqe) (h : s.HostOnly t) : s.HostOnly (t.cqWrite f q e) := by
  unfold State.cqWrite
  exact ((h.hostWrite _ _).setQueue f q _).cqInterrupt f q

theorem completeKind (f q : Nat) (cid : BitVec 16) (kind : BitVec 3) (status : Nat) (r0 r1 : DWord)
    (h : s.HostOnly t) : s.HostOnly (t.completeKind f q cid kind status r0 r1) := by
  unfold State.completeKind
  dsimp only
  split
  · exact (h.setQueue f q _).cqWrite f q _
  · exact h.setQueue f q _

theorem complete (c : CmdRef) (status : Nat) (r0 r1 : DWord) (h : s.HostOnly t) :
    s.HostOnly (t.complete c status r0 r1) := h.completeKind _ _ _ _ _ _ _

end State.HostOnly

namespace State.ReportsOnly

variable {s t u : State}

theorem refl (s : State) : s.ReportsOnly s := rfl

theorem trans (h : s.ReportsOnly t) (k : t.ReportsOnly u) : s.ReportsOnly u :=
  Eq.trans k (congrArg (fun x : State => { x with
    fns := u.fns, host := u.host, log := u.log, links := u.links, time := u.time, gapSerai := u.gapSerai }) h)

/-- What does not read a report reads as before. -/
theorem reads {α : Type} {f : State → α}
    (hf : f { s with fns := t.fns, host := t.host, log := t.log, links := t.links, time := t.time,
                     gapSerai := t.gapSerai } = f s) (h : s.ReportsOnly t) : f t = f s := (congrArg f h).trans hf

theorem eachDo {α : Type} {g : α → State → State} (hg : ∀ x t, s.ReportsOnly t → s.ReportsOnly (g x t)) (l : List α)
    (h : s.ReportsOnly t) : s.ReportsOnly (Sys2Proof.Machine.eachDo l g t) := by
  induction l generalizing t with
  | nil => exact h
  | cons x l ih => exact ih (hg x t h)

theorem host (h : s.ReportsOnly t) (k : t.HostOnly u) : s.ReportsOnly u := by
  obtain ⟨fns, host, rfl⟩ : ∃ fns host, u = { t with fns := fns, host := host } := ⟨_, _, k⟩
  exact h.trans rfl

theorem setQueue (f q : Nat) (y : Queue) (h : s.ReportsOnly t) : s.ReportsOnly (t.setQueue f q y) :=
  h.host ((HostOnly.refl t).setQueue f q y)

theorem msix (f v : Nat) (h : s.ReportsOnly t) : s.ReportsOnly (t.msix f v) := h.host ((HostOnly.refl t).msix f v)

theorem partChanged (q : Nat) (h : s.ReportsOnly t) : s.ReportsOnly (t.partChanged q) :=
  h.host ((HostOnly.refl t).partChanged q)

theorem completeKind (f q : Nat) (cid : BitVec 16) (kind : BitVec 3) (status : Nat) (r0 r1 : DWord)
    (h : s.ReportsOnly t) : s.ReportsOnly (t.completeKind f q cid kind status r0 r1) :=
  h.host ((HostOnly.refl t).completeKind _ _ _ _ _ _ _)

theorem complete (c : CmdRef) (status : Nat) (r0 r1 : DWord) (h : s.ReportsOnly t) :
    s.ReportsOnly (t.complete c status r0 r1) := h.completeKind _ _ _ _ _ _ _

theorem setLink (l : Nat) (x : Link) (h : s.ReportsOnly t) : s.ReportsOnly (t.setLink l x) :=
  h.trans (u := t.setLink l x) rfl

theorem modLink (l : Nat) (g : Link → Link) (h : s.ReportsOnly t) : s.ReportsOnly (t.modLink l g) := h.setLink _ _

theorem logSerai (code status : Nat) (part : Option Nat) (args snaps : List Word) (h : s.ReportsOnly t) :
    s.ReportsOnly (t.logAt .serai code status part args snaps) := by
  refine h.trans ?_
  unfold State.logAt
  dsimp only
  split <;> rfl

theorem logDie (d code status : Nat) (part : Option Nat) (args snaps : List Word) (h : s.ReportsOnly t) :
    s.ReportsOnly (t.logAt (.die d) code status part args snaps) := by
  refine h.trans ?_
  unfold State.logAt
  dsimp only
  split <;> rfl

theorem logPart (q code status : Nat) (who : Option Nat) (h : s.ReportsOnly t) :
    s.ReportsOnly (t.logPart q code status who) := h.logSerai _ _ _ _ _

/-! Messages. -/

theorem nicSent (r : Option (Nat × Nat × BitVec 16)) (h : s.ReportsOnly t) : s.ReportsOnly (t.nicSent r) := by
  cases r with
  | none => exact h
  | some r => exact h.completeKind _ _ _ _ _ _ _

theorem noteSent (l : Nat) (f : Frame) (h : s.ReportsOnly t) : s.ReportsOnly (t.noteSent l f) := by
  unfold State.noteSent
  split
  · exact h.trans rfl
  · exact h

theorem putOut (l q : Nat) (laneB : Bool) (f : Frame) (h : s.ReportsOnly t) : s.ReportsOnly (t.putOut l q laneB f) := by
  unfold State.putOut
  exact h.modLink l _

theorem emit (l q : Nat) (f : QFrame) (h : s.ReportsOnly t) : s.ReportsOnly (t.emit l q f) :=
  ((h.putOut l q _ _).modLink l _).noteSent l _

theorem freeUnits (l i n : Nat) (h : s.ReportsOnly t) : s.ReportsOnly (t.freeUnits l i n) := by
  unfold State.freeUnits
  dsimp only
  split
  · exact ((h.modLink l _).modLink l _).modLink l _
  · exact h.modLink l _

theorem unhold (e : Option (Nat × Nat × Nat)) (h : s.ReportsOnly t) : s.ReportsOnly (t.unhold e) := by
  cases e with
  | none => exact h
  | some e => exact h.freeUnits _ _ _

/-- A queued frame leaves on its link. -/
theorem sendQueued (l q : Nat) (f : QFrame) (h : s.ReportsOnly t) :
    s.ReportsOnly ((((t.modLink l (fun y => { y with queues := tabMod [] y.queues q (fun fs => fs.erase f) })).emit
      l q f).unhold f.held).nicSent f.nic) := (((h.modLink l _).emit l q f).unhold _).nicSent _

theorem drainLink (l : Nat) (h : s.ReportsOnly t) : s.ReportsOnly (t.drainLink l) := by
  unfold State.drainLink
  dsimp only
  split
  · exact h
  · split
    · exact h.sendQueued l _ _
    · split
      · exact (h.modLink l _).putOut l 7 _ _
      · split
        · exact h.sendQueued l _ _
        · exact h

theorem noLink (l : Nat) (e : Option (Nat × Nat × Nat)) (h : s.ReportsOnly t) : s.ReportsOnly (t.noLink l e) :=
  ((h.modLink l _).logDie _ _ _ _ _ _).unhold e

theorem sendMsg (m : MsMsg) (h : s.ReportsOnly t) : s.ReportsOnly (t.sendMsg m) := by
  unfold State.sendMsg State.sendFrame
  split
  · exact h
  · split
    · exact (h.modLink _ _).drainLink _
    · exact h.noLink _ _

theorem msUp (q : Nat) (m : MsMsg) (h : s.ReportsOnly t) : s.ReportsOnly (t.msUp q m) := h.sendMsg _

theorem msDown (q : Nat) (m : MsMsg) (h : s.ReportsOnly t) : s.ReportsOnly (t.msDown q m) :=
  h.eachDo (fun _ _ ht => ht.sendMsg _) _

end State.ReportsOnly

/-! Rejected host commands (R149, R412). -/

theorem State.takeDesc_reports (s : State) (f q : Nat) : s.ReportsOnly (s.takeDesc f q) :=
  (ReportsOnly.refl s).setQueue f q _

/-- What of a queue the module's completions leave as it was: all but its ring positions, its count of descriptors in
flight and the times of its messages. -/
def Queue.settings (y : Queue) : Queue :=
  { y with cqTail := 0, phase := true, taken := 0, active := false, lastMsi := none, msiPending := false }

theorem State.setQueue_queue (s : State) (f q : Nat) (y : Queue) (f' q' : Nat) :
    (s.setQueue f q y).queue f' q' = if f' = f ∧ q' = q then y else s.queue f' q' := by
  by_cases hf : f' = f
  · subst hf
    simp [State.queue, Fn.queue, Fn.setQueue, tabGet_tabSet]
  · simp [State.queue, hf]

theorem State.setQueue_settings {s : State} {f q : Nat} {y : Queue} (h : y.settings = (s.queue f q).settings)
    (f' q' : Nat) : ((s.setQueue f q y).queue f' q').settings = (s.queue f' q').settings := by
  rw [State.setQueue_queue]
  split
  · next heq => rw [h, heq.1, heq.2]
  · rfl

theorem State.cqInterrupt_settings (s : State) (f q f' q' : Nat) :
    ((s.cqInterrupt f q).queue f' q').settings = (s.queue f' q').settings :=
  State.cqInterrupt_cases (P := fun t => (t.queue f' q').settings = (s.queue f' q').settings) rfl
    fun last pending _ =>
      s.setQueue_settings (y := { s.queue f q with lastMsi := last, msiPending := pending }) rfl f' q'

/-- The queue after an entry of its completion ring has been written (R411). -/
def Queue.cqNext (y : Queue) : Queue :=
  { y with cqTail := (y.cqTail + 1) % y.size, phase := if (y.cqTail + 1) % y.size = 0 then !y.phase else y.phase }

theorem Queue.cqNext_settings (y : Queue) : y.cqNext.settings = y.settings := rfl

/-- A completion entry in the host's memory, before its message. -/
def State.cqStored (s : State) (f q : Nat) (e : Cqe) : State :=
  s.hostWrite ((s.queue f q).cqBase.toNat + 32 * (s.queue f q).cqTail)
    (e.bytes (s.queue f q).phase (s.queue f q).sqHead s.now)

theorem State.cqWrite_eq (s : State) (f q : Nat) (e : Cqe) :
    s.cqWrite f q e = ((s.cqStored f q e).setQueue f q (s.queue f q).cqNext).cqInterrupt f q := rfl

theorem State.cqStored_queue (s : State) (f q : Nat) (e : Cqe) (f' q' : Nat) :
    (s.cqStored f q e).queue f' q' = s.queue f' q' := by
  simp only [State.cqStored, State.hostWrite, State.queue, State.fn]

theorem State.cqWrite_settings (s : State) (f q : Nat) (e : Cqe) (f' q' : Nat) :
    ((s.cqWrite f q e).queue f' q').settings = (s.queue f' q').settings := by
  have hq := s.cqStored_queue f q e
  rw [State.cqWrite_eq, State.cqInterrupt_settings,
    State.setQueue_settings ((Queue.cqNext_settings _).trans (congrArg Queue.settings (hq f q).symm)), hq]

theorem State.complete_settings (s : State) (c : CmdRef) (status : Nat) (r0 r1 : DWord) (f' q' : Nat) :
    ((s.complete c status r0 r1).queue f' q').settings = (s.queue f' q').settings := by
  have hfreed := s.setQueue_settings (f := c.fn) (q := c.q)
    (y := ({ s.queue c.fn c.q with taken := (s.queue c.fn c.q).taken - 1 } : Queue).refresh) rfl f' q'
  unfold State.complete State.completeKind
  dsimp only
  split
  · exact (State.cqWrite_settings _ _ _ _ f' q').trans hfreed
  · exact hfreed

/-- The entry of code 0x0110 and the completion with STATE_ILLEGAL of a rejected command. -/
def State.rejectNoted (s : State) (c : CmdRef) (p : Nat) : State :=
  (s.logAt .serai 0x0110 scIllegal (if p < 16 then some p else none)
    [w32 c.code, w32 c.q, w32 (s.part p).st.code] [(s.part p).statWord, (s.part p).rpWord]).complete c scIllegal 0 0

/-- The queue of a rejected command halts where HALT_ON_REJECT is set (R412). -/
def State.rejectHalted (s : State) (c : CmdRef) (halts : Bool) : State :=
  if halts then (s.modQueue c.fn c.q (fun y => { y with halted := true })).msix0 c.fn else s

theorem State.rejectNoted_reports (s : State) (c : CmdRef) (p : Nat) : s.ReportsOnly (s.rejectNoted c p) :=
  ((ReportsOnly.refl s).logSerai _ _ _ _ _).complete _ _ _ _

theorem State.rejectHalted_reports (s : State) (c : CmdRef) (halts : Bool) : s.ReportsOnly (s.rejectHalted c halts) := by
  unfold State.rejectHalted
  split
  · exact ((ReportsOnly.refl s).setQueue _ _ _).msix _ _
  · exact ReportsOnly.refl s

theorem State.logSerai_queue (s : State) (code status : Nat) (part : Option Nat) (args snaps : List Word) (f q : Nat) :
    (s.logAt .serai code status part args snaps).queue f q = s.queue f q := by
  unfold State.logAt
  dsimp only
  split <;> rfl

theorem State.reject_eq (s : State) (c : CmdRef) (p : Nat) :
    s.reject c p = (s.rejectNoted c p).rejectHalted c (s.queue c.fn c.q).haltOnReject := by
  have hhalt : ((s.rejectNoted c p).queue c.fn c.q).haltOnReject = (s.queue c.fn c.q).haltOnReject := by
    have hset := congrArg Queue.haltOnReject (State.complete_settings (s.logAt .serai 0x0110 scIllegal
      (if p < 16 then some p else none) [w32 c.code, w32 c.q, w32 (s.part p).st.code]
      [(s.part p).statWord, (s.part p).rpWord]) c scIllegal 0 0 c.fn c.q)
    rw [State.logSerai_queue] at hset
    exact hset
  rw [← hhalt]
  rfl

/-- The conditions under which a command is taken and judged by its partition's state (R148, R405, R412, R428). -/
def State.Taken (s : State) (h : CmdHdr) (code flags args : Nat) : Prop :=
  s.takes h (descOf h code flags args) = true ∧ s.mod.recovery = false ∧ s.unbound h.fn = false
    ∧ s.exists_ h.part = true ∧ (h.fn = 0 ∨ (s.fn h.fn).part.toNat = h.part)

theorem State.Taken.accepts {s : State} {h : CmdHdr} {code flags args : Nat} (a : s.Taken h code flags args)
    (hl : (s.part h.part).legal code (bitAt flags 1) = true) : s.Accepts h code flags args := by
  obtain ⟨h1, h2, h3, h4, h5⟩ := a
  exact ⟨h1, h2, h3, h4, h5, hl⟩

/-- A command that its partition's state does not allow is taken and rejected, whatever its effect would be. -/
theorem State.hostCmd_rejects {s : State} {h : CmdHdr} {code flags args : Nat} (act : State → CmdRef → State)
    (a : s.Taken h code flags args) (hl : (s.part h.part).legal code (bitAt flags 1) = false) :
    s.hostCmd h code flags args act
      = ((s.takeDesc h.fn h.q).reject (CmdHdr.ref h code) h.part).settleQueue h.fn h.q := by
  obtain ⟨h1, h2, h3, h4, h5⟩ := a
  have h6 : ¬ (h.fn ≠ 0 ∧ (s.fn h.fn).part.toNat ≠ h.part) := fun hne => h5.elim hne.1 hne.2
  simp only [State.hostCmd, h1, h2, h3, h4, hl, if_true, if_neg h6, Bool.not_true, Bool.false_eq_true, if_false]

/-- A rejection of a command just taken. -/
theorem State.takeDesc_reject (s : State) (h : CmdHdr) (code : Nat) :
    (s.takeDesc h.fn h.q).reject (CmdHdr.ref h code) h.part
      = ((s.takeDesc h.fn h.q).rejectNoted (CmdHdr.ref h code) h.part).rejectHalted (CmdHdr.ref h code)
          (s.queue h.fn h.q).haltOnReject := by
  rw [State.reject_eq]
  congr 1
  have htaken := (s.setQueue_queue h.fn h.q (Queue.refresh { s.queue h.fn h.q with
    sqHead := ((s.queue h.fn h.q).sqHead + 1) % (s.queue h.fn h.q).size, ring := (s.queue h.fn h.q).ring.tail,
    taken := (s.queue h.fn h.q).taken + 1 }) h.fn h.q).trans (if_pos ⟨rfl, rfl⟩)
  have hset := congrArg Queue.haltOnReject htaken
  exact hset

/-- A command whose effect is its rejection ends as one that is not allowed. -/
theorem State.hostCmd_refuses {s : State} {h : CmdHdr} {code flags args : Nat} {act : State → CmdRef → State}
    (a : s.Taken h code flags args)
    (hr : (s.part h.part).legal code (bitAt flags 1) = false
      ∨ act (s.takeDesc h.fn h.q) (CmdHdr.ref h code) = (s.takeDesc h.fn h.q).reject (CmdHdr.ref h code) h.part) :
    s.hostCmd h code flags args act
      = (((s.takeDesc h.fn h.q).rejectNoted (CmdHdr.ref h code) h.part).rejectHalted (CmdHdr.ref h code)
          (s.queue h.fn h.q).haltOnReject).settleQueue h.fn h.q := by
  rw [← State.takeDesc_reject]
  cases hl : (s.part h.part).legal code (bitAt flags 1) with
  | false => exact State.hostCmd_rejects act a hl
  | true =>
    rcases hr with hf | heff
    · rw [hl] at hf
      cases hf
    · rw [State.hostCmd_accepts act (a.accepts hl), heff]

theorem State.rejected_reports (s : State) (h : CmdHdr) (code : Nat) :
    s.ReportsOnly (((s.takeDesc h.fn h.q).rejectNoted (CmdHdr.ref h code) h.part).rejectHalted (CmdHdr.ref h code)
      (s.queue h.fn h.q).haltOnReject) :=
  ((s.takeDesc_reports h.fn h.q).trans (State.rejectNoted_reports _ _ _)).trans (State.rejectHalted_reports _ _ _)

/-- A command for a region passes the guard of the entry's owner and stops at that of its state. -/
theorem State.reject_of_guards {owned : Bool} {st : Prop} [Decidable st] {denied refused done : State}
    (hown : owned = true) (hst : st) :
    (if (!owned) = true then denied else if st then refused else done) = refused := by
  rw [hown, if_neg (by decide), if_pos hst]

/-- Settles O26: a command that is not allowed, or whose effect is its rejection, leaves a report and nothing else. -/
theorem rejectedCommandsOnlyComplete : Obligations.RejectedCommandsOnlyComplete := by
  intro s h image base size re die buf n rkey rights slot blob taken legal t u v done token reg i
  have hrefuse (code flags args : Nat) (act : State → CmdRef → State) (a : taken code flags args)
      (hr : legal code flags = false ∨ act t (CmdHdr.ref h code) = t.reject (CmdHdr.ref h code) h.part) :
      .next (s.hostCmd h code flags args act) = done code := congrArg Host.Outcome.next (State.hostCmd_refuses a hr)
  refine ⟨fun a hl => hrefuse _ _ _ _ a (.inl hl), fun a hl => hrefuse _ _ _ _ a (.inl hl),
    fun a hl => hrefuse _ _ _ _ a (.inl hl), fun a hl => hrefuse _ _ _ _ a (.inl hl),
    fun a hl => hrefuse _ _ _ _ a (.inl hl), fun a hl => hrefuse _ _ _ _ a (hl.imp_right fun hnone => ?token),
    fun a hl => hrefuse _ _ _ _ a (hl.imp_right fun hreg => ?register),
    fun a hown hst => hrefuse _ _ _ _ a (.inr ?revoke), fun a hl => hrefuse _ _ _ _ a (.inl hl),
    fun a hl => hrefuse _ _ _ _ a (.inl hl), fun code => ?frame⟩
  case token =>
    simp only [hnone]
  case register =>
    obtain ⟨hown, hst⟩ := hreg
    exact State.reject_of_guards hown hst
  case revoke => exact State.reject_of_guards hown hst
  case frame =>
    have hv : s.ReportsOnly (v code) := s.rejected_reports h code
    exact ⟨hv.reads (f := State.mem) rfl, hv.reads (f := State.cores) rfl, hv.reads (f := State.parts) rfl,
      hv.reads (f := State.regions) rfl, hv.reads (f := State.cusParts) rfl, hv.reads (f := State.mod) rfl⟩

end Sys2Proof.Machine
end

section
/-!
PROOFS. What Serai does with a core's fault, and the statement O7 (Table 5.8, R146, R157, R158).
-/

namespace Sys2Proof.Machine

/-- A core fault that is pending, taken: the fault no longer waits, and its partition answers it. -/
theorem State.coreFaultReport_eq {s : State} {n k : Nat} (hclk : s.clocked = true) (hk : k < 22) (hn : n < 12) :
    exec (.coreFaultReport n k) s = .next (s.takeFault (22 * n + k)) := by
  simp only [exec, execCoreFaultReport, if_pos (And.intro hclk (And.intro hk hn))]

theorem State.takeFault_part {s : State} {p q : Nat} (hpend : (s.core p).faultPending = true)
    (hq : s.partOfPhys p = some q) :
    s.takeFault p = (s.setCore p { s.core p with faultPending := false }).partFault q p (s.core p).faultStatus.toNat
      ((s.core p).faultOwn && decide ((s.core p).faultStatus = st8 scUncorr)) := by
  simp only [State.takeFault, hpend, hq, if_true]

theorem State.takeFault_none {s : State} {p : Nat} (hpend : (s.core p).faultPending = true)
    (hq : s.partOfPhys p = none) (hown : (s.core p).faultOwn = false) :
    s.takeFault p = s.setCore p { s.core p with faultPending := false } := by
  simp only [State.takeFault, hpend, hq, hown, if_true, Bool.false_eq_true, if_false]

/-- Whether a state's partition answers a core fault: it runs or recovers, and no context switch of it goes on. -/
def Part.answersFaults (x : Part) : Prop := (x.st = .running ∨ x.st = .recovering) ∧ x.switching = none

theorem Part.answersFaults.passes {x : Part} (h : x.answersFaults) :
    ¬ (x.st = .idle ∨ x.st = .halted ∨ x.st = .loaded ∨ x.switching.isSome) := by
  obtain ⟨hst, hsw⟩ := h
  rw [hsw]
  rcases hst with hst | hst <;> simp [hst]

theorem State.partFault_halts {s : State} {q p status : Nat} {quar : Bool} (h : (s.part q).answersFaults)
    (hne : status ≠ scUncorr) : s.partFault q p status quar = s.enterHalted q status := by
  simp only [State.partFault, if_neg h.passes, if_pos hne]

theorem State.partFault_recovers {s : State} {q p : Nat} {quar : Bool} (h : (s.part q).answersFaults)
    (hrec : (s.part q).recovery = none) :
    s.partFault q p scUncorr quar = s.beginRecovery q p scUncorr (if quar then [p] else []) := by
  simp only [State.partFault, if_neg h.passes, hrec, ne_eq, not_true_eq_false, if_false]

theorem State.partFault_joins {s : State} {q p : Nat} {quar : Bool} {r : Recovery} (h : (s.part q).answersFaults)
    (hrec : (s.part q).recovery = some r) (hcall : r.recalled = false) :
    s.partFault q p scUncorr quar = s.modPart q (fun x => { x with
      recovery := some { r with quarantine := r.quarantine ++ (if quar then [p] else []) } }) := by
  simp only [State.partFault, if_neg h.passes, hrec, hcall, ne_eq, not_true_eq_false, if_false, Bool.not_false, if_true]

theorem st8_scUncorr_toNat : (st8 scUncorr).toNat = scUncorr := by decide

theorem ne_scUncorr_toNat {b : Byte} (h : b ≠ st8 scUncorr) : b.toNat ≠ scUncorr :=
  fun heq => h (BitVec.eq_of_toNat_eq (heq.trans st8_scUncorr_toNat.symm))

/-- Settles O7: the fault is taken from its core, and the partition's answer is the branch of its state and status. -/
theorem coreFaultReportComplete : Obligations.CoreFaultReportComplete := by
  intro s n k q r p c own s1 hclk hk hn hpend
  have hexec : exec (.coreFaultReport n k) s = .next (s.takeFault p) := State.coreFaultReport_eq hclk hk hn
  have hpart : s1.part q = s.part q := State.setCore_part _ _ _ _
  have htaken (hq : s.partOfPhys p = some q) :
      exec (.coreFaultReport n k) s = .next (s1.partFault q p c.faultStatus.toNat own) :=
    hexec.trans (congrArg _ (State.takeFault_part hpend hq))
  have hstatus (heq : c.faultStatus = st8 scUncorr) : c.faultStatus.toNat = scUncorr := by
    rw [heq, st8_scUncorr_toNat]
  have hrec (r : Option Recovery) (h : (s.part q).recovery = r) : (s1.part q).recovery = r := by rw [hpart, h]
  have hanswers (h : (s.part q).answersFaults) : (s1.part q).answersFaults := by rw [hpart]; exact h
  refine ⟨fun hno hown => ?_, fun hq hst hsw => ⟨fun hne => ?_, fun heq hnone => ?_⟩,
    fun hq hst hsw heq hsome hcall => ?_⟩
  · rw [hexec, State.takeFault_none hpend hno hown]
  · rw [htaken hq, State.partFault_halts (hanswers ⟨.inl hst, hsw⟩) (ne_scUncorr_toNat hne)]
  · rw [htaken hq, hstatus heq, State.partFault_recovers (hanswers ⟨.inl hst, hsw⟩) (hrec _ hnone)]
  · rw [htaken hq, hstatus heq, State.partFault_joins (hanswers ⟨.inr hst, hsw⟩) (hrec _ hsome) hcall]

end Sys2Proof.Machine
end

section
/-!
PROOFS. What a change of a partition's state does beside it: the marks of the clocks that it stops or starts (R334, R358),
and a report (R414).
-/

namespace Sys2Proof.Machine

/-- What every application of `g` keeps, the whole pass keeps. -/
theorem eachDo_induct {α : Type} {P : State → Prop} {g : α → State → State} {l : List α} {s : State}
    (hg : ∀ x ∈ l, ∀ t, P t → P (g x t)) (h : P s) : P (eachDo l g s) := by
  induction l generalizing s with
  | nil => exact h
  | cons x l ih => exact ih (fun y hy => hg y (List.mem_cons_of_mem x hy)) (hg x List.mem_cons_self s h)

/-- A die with another gap mark of its update engines' records. -/
def Die.withUpdGap (d : Die) (g : Gap) : Die := { d with upd := { d.upd with gap := g } }

/-- From `s` to `t` at most the gap marks of cores and update engines and what reports leave have changed. -/
structure State.Signals (s t : State) : Prop where
  frame : t = { s with cores := t.cores, dies := t.dies, fns := t.fns, host := t.host, log := t.log, links := t.links,
                       time := t.time, gapSerai := t.gapSerai }
  core (p : Nat) : ∃ g, t.core p = (s.core p).modGaps g
  die (n : Nat) : ∃ g, t.die n = (s.die n).withUpdGap g

namespace State.Signals

variable {s t u : State}

theorem refl (s : State) : s.Signals s := ⟨rfl, fun _ => ⟨id, rfl⟩, fun n => ⟨(s.die n).upd.gap, rfl⟩⟩

theorem trans (h : s.Signals t) (k : t.Signals u) : s.Signals u where
  frame := Eq.trans k.frame (congrArg (fun x : State => { x with
    cores := u.cores, dies := u.dies, fns := u.fns, host := u.host, log := u.log, links := u.links, time := u.time,
    gapSerai := u.gapSerai }) h.frame)
  core p := by
    obtain ⟨g, hg⟩ := h.core p
    obtain ⟨g', hg'⟩ := k.core p
    exact ⟨g' ∘ g, by rw [hg', hg]; rfl⟩
  die n := by
    obtain ⟨g, hg⟩ := h.die n
    obtain ⟨g', hg'⟩ := k.die n
    exact ⟨g', by rw [hg', hg]; rfl⟩

theorem reports (h : s.ReportsOnly t) : s.Signals t where
  frame := by
    obtain ⟨fns, host, log, links, time, gap, rfl⟩ : ∃ fns host log links time gap, t = { s with
      fns := fns, host := host, log := log, links := links, time := time, gapSerai := gap } := ⟨_, _, _, _, _, _, h⟩
    rfl
  core p := ⟨id, h.reads (f := fun x => x.core p) rfl⟩
  die n := ⟨(s.die n).upd.gap, h.reads (f := fun x => x.die n) rfl⟩

/-- What reads none of it reads as before. -/
theorem reads {α : Type} {f : State → α}
    (hf : f { s with cores := t.cores, dies := t.dies, fns := t.fns, host := t.host, log := t.log, links := t.links,
                     time := t.time, gapSerai := t.gapSerai } = f s) (h : s.Signals t) : f t = f s :=
  (congrArg f h.frame).trans hf

theorem part (h : s.Signals t) (r : Nat) : t.part r = s.part r := h.reads (f := fun x => x.part r) rfl

theorem mem (h : s.Signals t) : t.mem = s.mem := h.reads (f := State.mem) rfl

theorem mod (h : s.Signals t) : t.mod = s.mod := h.reads (f := State.mod) rfl

theorem modGaps (p : Nat) (g : Gap → Gap) (h : s.Signals t) : s.Signals (t.modCore p (fun c => c.modGaps g)) := by
  refine h.trans ⟨rfl, fun k => ?_, fun n => ⟨(t.die n).upd.gap, rfl⟩⟩
  rw [State.modCore_eq, State.setCore_core]
  split
  · next heq => exact ⟨g, by rw [heq]⟩
  · exact ⟨id, rfl⟩

theorem modUpdGap (n : Nat) (g : Die → Gap) (h : s.Signals t) :
    s.Signals (t.modDie n (fun d => d.withUpdGap (g d))) := by
  refine h.trans ⟨rfl, fun p => ⟨id, rfl⟩, fun k => ?_⟩
  rw [State.modDie_eq, State.setDie_die]
  split
  · next heq => exact ⟨g (t.die n), by rw [heq]⟩
  · exact ⟨(t.die k).upd.gap, rfl⟩

theorem gateCores (q : Nat) (on : Bool) (h : s.Signals t) : s.Signals (t.gateCores q on) := by
  unfold State.gateCores
  exact eachDo_induct (P := fun u => s.Signals u) (fun p _ u hu => hu.modGaps p _) h

theorem gateUpd (old : State) (h : s.Signals t) : s.Signals (t.gateUpd old) := by
  unfold State.gateUpd
  exact eachDo_induct (P := fun u => s.Signals u) (fun n _ u hu =>
    hu.modUpdGap n fun d => if t.pllOn n then d.upd.gap.start t.now else d.upd.gap.stop t.now) h

end State.Signals

/-- A partition in a state, with its reason and status (Table 5.16). -/
def Part.inState (x : Part) (st : PartSt) (reason status : Nat) : Part :=
  { x with st := st, reason := if st = .paused then BitVec.ofNat 4 reason else 0,
           status := if st = .halted then st8 status else 0 }

/-- The clocks of a partition's cores and update engines follow its new state. -/
def State.gatedSt (s : State) (q : Nat) (st : PartSt) (reason status : Nat) : State :=
  ((s.modPart q (fun x => x.inState st reason status)).gateCores q st.clocked).gateUpd s

theorem State.setPartSt_eq (s : State) (q : Nat) (st : PartSt) (reason status : Nat) :
    s.setPartSt q st reason status
      = if (s.part q).statWord = ((s.modPart q (fun x => x.inState st reason status)).part q).statWord
          then s.gatedSt q st reason status
        else (s.gatedSt q st reason status).partChanged q := rfl

theorem State.setPartSt_signals (s : State) (q : Nat) (st : PartSt) (reason status : Nat) :
    (s.modPart q (fun x => x.inState st reason status)).Signals (s.setPartSt q st reason status) := by
  have hgated : (s.modPart q (fun x => x.inState st reason status)).Signals (s.gatedSt q st reason status) :=
    ((State.Signals.refl _).gateCores q st.clocked).gateUpd s
  rw [State.setPartSt_eq]
  split
  · exact hgated
  · exact hgated.trans (.reports ((State.ReportsOnly.refl _).partChanged q))

theorem State.setPartSt_part (s : State) (q : Nat) (st : PartSt) (reason status r : Nat) :
    (s.setPartSt q st reason status).part r = if r = q then (s.part q).inState st reason status else s.part r := by
  rw [(s.setPartSt_signals q st reason status).part, State.modPart_eq, State.setPart_part]

theorem State.setPartSt_part_self (s : State) (q : Nat) (st : PartSt) (reason status : Nat) :
    (s.setPartSt q st reason status).part q = (s.part q).inState st reason status := by
  rw [State.setPartSt_part, if_pos rfl]

theorem State.setPartSt_core (s : State) (q : Nat) (st : PartSt) (reason status p : Nat) :
    ∃ g, (s.setPartSt q st reason status).core p = (s.core p).modGaps g :=
  (s.setPartSt_signals q st reason status).core p

/-- A partition whose START has completed, and one whose PAUSE has. -/
def Part.noStart (x : Part) : Part := { x with start := none }

def Part.noPause (x : Part) : Part := { x with pause := none }

theorem State.finishStart_part (s : State) (q status r : Nat) :
    (s.finishStart q status).part r = if r = q then (s.part q).noStart else s.part r := by
  unfold State.finishStart
  split
  · next hnone =>
    split
    · next heq =>
      rw [heq, Part.noStart, ← hnone]
    · rfl
  · rw [((State.ReportsOnly.refl _).complete _ _ _ _).reads (f := fun x => x.part r) rfl, State.modPart_eq,
      State.setPart_part]
    rfl

theorem State.finishPause_part (s : State) (q status r : Nat) :
    (s.finishPause q status).part r = if r = q then (s.part q).noPause else s.part r := by
  unfold State.finishPause
  split
  · next hnone =>
    split
    · next heq =>
      rw [heq, Part.noPause, ← hnone]
    · rfl
  · rw [((State.ReportsOnly.refl _).complete _ _ _ _).reads (f := fun x => x.part r) rfl, State.modPart_eq,
      State.setPart_part]
    rfl

/-- From `s` to `t` at most partitions, gap marks and what reports leave have changed. -/
def State.PartsMove (s t : State) : Prop := ∃ parts, ({ s with parts := parts } : State).Signals t

namespace State.PartsMove

variable {s t u : State}

theorem refl (s : State) : s.PartsMove s := ⟨s.parts, .refl s⟩

theorem signals (h : s.PartsMove t) (k : t.Signals u) : s.PartsMove u := by
  obtain ⟨parts, h⟩ := h
  exact ⟨parts, h.trans k⟩

theorem reports (h : s.PartsMove t) (k : t.ReportsOnly u) : s.PartsMove u := h.signals (.reports k)

theorem setPart (q : Nat) (x : Part) (h : s.PartsMove t) : s.PartsMove (t.setPart q x) := by
  obtain ⟨parts, h⟩ := h
  exact ⟨tabSet t.parts q x, congrArg (fun y : State => { y with parts := tabSet t.parts q x }) h.frame, h.core, h.die⟩

theorem modPart (q : Nat) (g : Part → Part) (h : s.PartsMove t) : s.PartsMove (t.modPart q g) := h.setPart q _

theorem gateUpd (old : State) (h : s.PartsMove t) : s.PartsMove (t.gateUpd old) :=
  h.signals ((Signals.refl t).gateUpd old)

theorem setPartSt (q : Nat) (st : PartSt) (reason status : Nat) (h : s.PartsMove t) :
    s.PartsMove (t.setPartSt q st reason status) := (h.modPart q _).signals (t.setPartSt_signals q st reason status)

theorem complete (c : CmdRef) (status : Nat) (r0 r1 : DWord) (h : s.PartsMove t) :
    s.PartsMove (t.complete c status r0 r1) := h.reports ((ReportsOnly.refl t).complete c status r0 r1)

theorem finishStart (q status : Nat) (h : s.PartsMove t) : s.PartsMove (t.finishStart q status) := by
  unfold State.finishStart
  split
  · exact h
  · exact (h.modPart q _).complete _ _ _ _

theorem finishPause (q status : Nat) (h : s.PartsMove t) : s.PartsMove (t.finishPause q status) := by
  unfold State.finishPause
  split
  · exact h
  · exact (h.modPart q _).complete _ _ _ _

theorem holdAt (r : Nat) (v : Bool) (h : s.PartsMove t) : s.PartsMove (t.holdAt r v) := h.setPart r _

/-- A hold or its withdrawal moves milestone blocks and sends messages (R181). -/
theorem msHold (q : Nat) (v : Bool) (h : s.PartsMove t) : s.PartsMove (t.msHold q v) := by
  unfold State.msHold
  split
  · exact h
  · dsimp only
    split
    · refine PartsMove.reports (t := eachDo _ _ _) ?_ ((ReportsOnly.refl _).msDown q _)
      exact eachDo_induct (P := s.PartsMove) (fun r _ u hu => hu.holdAt r v) (h.modPart q _)
    · exact (h.modPart q _).reports ((ReportsOnly.refl _).msUp q _)

theorem core (h : s.PartsMove t) (p : Nat) : ∃ g, t.core p = (s.core p).modGaps g := by
  obtain ⟨parts, h⟩ := h
  exact h.core p

theorem die (h : s.PartsMove t) (n : Nat) : ∃ g, t.die n = (s.die n).withUpdGap g := by
  obtain ⟨parts, h⟩ := h
  exact h.die n

theorem mem (h : s.PartsMove t) : t.mem = s.mem := by
  obtain ⟨parts, h⟩ := h
  exact h.mem

theorem mod (h : s.PartsMove t) : t.mod = s.mod := by
  obtain ⟨parts, h⟩ := h
  exact h.mod

end State.PartsMove

end Sys2Proof.Machine
end

section
/-!
PROOFS. Messages of a job that come down its tree to a module that hosts none of its nodes, and the statement O12 (R159,
R175, R181 to R183).
-/

namespace Sys2Proof.Machine

/-! Messages from the node above. -/

/-- A message for this module whose frame comes in order acts. -/
theorem State.onMsg_inOrder {s : State} {m : MsMsg} {k : MsKind} {act : State → State} (hclk : s.clocked = true)
    (hdst : m.dst.toNat = s.coord) (hkind : m.kind = k) (hin : (s.msIn m).2 = true) :
    s.onMsg m k act = act (s.msIn m).1 := by
  have hhere : s.msHere m k = true := by simp only [State.msHere, hclk, hdst, hkind, decide_true, Bool.and_true]
  simp only [State.onMsg, hhere, hin, if_true]

/-- A module that hosts no node of a job has nobody to pass its messages to. -/
theorem State.passDown_unhosted {s : State} {m : MsMsg} {q : Nat} (hjob : s.jobOf m.job = [q])
    (hhost : (s.ms q).hosted = []) : s.passDown m = s := by
  simp only [State.passDown, hjob, State.msDown, hhost, List.flatMap_nil]
  rfl

/-- A broadcast that comes from the node above acts on the job's one partition here. -/
theorem State.broadcast_below {s : State} {m : MsMsg} {q : Nat} {act : Nat → State → State} (hjob : s.jobOf m.job = [q])
    (hctx : m.ctx = (s.ms q).ctx) (hcount : m.rcount = (s.ms q).rcount) (hfrom : s.fromParent q m = true)
    (hhost : (s.ms q).hosted = []) : s.broadcast m act = act q s := by
  have hcur : s.msCurrent q m = true := by simp only [State.msCurrent, hctx, hcount, beq_self_eq_true, Bool.and_true]
  have hdown : s.passDown { m with ctx := (s.ms q).ctx } = s := State.passDown_unhosted hjob hhost
  simp only [State.broadcast, hjob, hcur, hfrom, hdown, or_true, if_true, Bool.true_eq_false, if_false]
  rfl

/-- Which physical cores a partition has depends on its configuration and on the core maps. -/
theorem State.physOfPart_congr {s t : State} {q : Nat} (hcfg : (t.part q).cfg = (s.part q).cfg)
    (hphys : t.physOf = s.physOf) : t.physOfPart q = s.physOfPart q := by
  have howns : t.ownsCore q = s.ownsCore q := by
    funext l
    rw [State.ownsCore, State.ownsCore, hcfg]
  rw [State.physOfPart, State.physOfPart, State.coresOf, State.coresOf, hphys, howns]

/-- A partition whose job is abandoned (R183). -/
def Part.abandoned (x : Part) : Part :=
  { x with ms := { x.ms with abandoned := true, hold := 0, replayReq := false }, heldCores := [] }

/-- An abandon where no core waits on a milestone. -/
theorem State.abandonAt_idle {s : State} {q : Nat} (hwait : ∀ p ∈ s.physOfPart q, (s.core p).waitsAny q = false) :
    s.abandonAt q = s.modPart q Part.abandoned := by
  have hphys : (s.modPart q Part.abandoned).physOfPart q = s.physOfPart q :=
    State.physOfPart_congr (by rw [State.modPart_eq, State.setPart_part, if_pos rfl]; rfl) rfl
  have hnone : ((s.modPart q Part.abandoned).physOfPart q).filter
      (fun p => ((s.modPart q Part.abandoned).core p).waitsAny q) = [] := by
    rw [hphys]
    exact List.filter_eq_nil_iff.mpr fun p hp => ne_true_of_eq_false (hwait p hp)
  unfold State.abandonAt
  change eachDo (((s.modPart q Part.abandoned).physOfPart q).filter
    (fun p => ((s.modPart q Part.abandoned).core p).waitsAny q)) _ (s.modPart q Part.abandoned) = _
  rw [hnone]
  rfl

/-! Recoveries that a replay request starts (R159, R182). -/

theorem State.recallCores_part (s : State) (q r : Nat) : (s.recallCores q).part r = s.part r :=
  eachDo_induct (P := fun t => t.part r = s.part r) (l := s.physOfPart q) (g := fun p t => t.modCore p Core.recall)
    (fun _ _ _ ht => ht) rfl

/-- A partition that starts a recovery (R157, R158). -/
def Part.recoveringBy (x : Part) (r : Recovery) (job : Bool) : Part :=
  { x with rpTries := x.rpTries + 1, replays := satAdd x.replays 1, recovery := some r, fromJob := job }

/-- A partition whose objects are back at the generations of the replay point (R181, R182). -/
def Part.rewound (x : Part) (req : Bool) : Part :=
  { x with
    pendSnaps := [], heldCores := [],
    ms := { x.ms with
      rcount := x.ms.rcount + 1, replayReq := x.ms.replayReq || req,
      objs := x.ms.objs.map (fun e => (e.1, { e.2 with
        gen := tabGet 0 x.rpGens e.1, arrived := [], coming := [], nodes := [], since := none,
        fired := false, phase := 0, due := none })) } }

theorem State.msRewind_eq (s : State) (q : Nat) (req : Bool) : s.msRewind q req = s.modPart q (fun x => x.rewound req) :=
  rfl

theorem State.msHold_same {s : State} {q : Nat} {v : Bool} (h : (s.part q).holding = v) : s.msHold q v = s := by
  rw [State.msHold, if_pos h]

/-- What a replay request makes of a partition that holds no job. -/
theorem State.enterRecovering_part {s : State} {q status : Nat} (htries : (s.part q).rpTries ≠ 3)
    (hhold : (s.part q).holding = false) :
    (s.enterRecovering q status [] none).part q
      = (((s.part q).recoveringBy { status := st8 status, core := none, quarantine := [], recalled := false }
          true).inState .recovering 0 0).rewound true := by
  have heq : s.enterRecovering q status [] none
      = ((((s.modPart q (fun x => x.recoveringBy
          { status := st8 status, core := none, quarantine := [], recalled := false } true)).setPartSt q
            .recovering 0 0).recallCores q).dropQueued q).msRewind q true := by
    simp only [State.enterRecovering, if_neg htries, State.msHold_same hhold, Option.isSome_none, Bool.false_eq_true,
      if_false]
    rfl
  have hdrop (t : State) : (t.dropQueued q).part q = t.part q := rfl
  rw [heq, State.msRewind_eq, State.modPart_eq, State.setPart_part, if_pos rfl, hdrop, State.recallCores_part,
    State.setPartSt_part_self, State.modPart_eq, State.setPart_part, if_pos rfl]

/-- A replay point that a request names: either nothing is adopted, or the snapshots held for it come into force. -/
theorem State.adoptPoint_cases {P : State → Prop} {s : State} {q : Nat} {mid gen : BitVec 16} (hkeep : P s)
    (htake : ∀ o vr snaps, P (s.takeReplayPoint q o gen vr snaps)) : P (s.adoptPoint q mid gen) := by
  unfold State.adoptPoint
  split
  · exact hkeep
  · split
    · split
      · exact htake _ _ _
      · exact hkeep
    · exact hkeep

/-- What the adoption of a replay point leaves of a partition as it is. -/
theorem State.adoptPoint_part (s : State) (q : Nat) (mid gen : BitVec 16) :
    ((s.adoptPoint q mid gen).part q).st = (s.part q).st
      ∧ ((s.adoptPoint q mid gen).part q).switching = (s.part q).switching
      ∧ ((s.adoptPoint q mid gen).part q).holding = (s.part q).holding
      ∧ ((s.adoptPoint q mid gen).part q).ms = (s.part q).ms := by
  refine State.adoptPoint_cases (P := fun t => (t.part q).st = (s.part q).st
    ∧ (t.part q).switching = (s.part q).switching ∧ (t.part q).holding = (s.part q).holding
    ∧ (t.part q).ms = (s.part q).ms) ⟨rfl, rfl, rfl, rfl⟩ fun o vr snaps => ?_
  unfold State.takeReplayPoint
  dsimp only
  rw [State.modPart_eq, State.modConvoy_part, State.setPart_part, if_pos rfl]
  exact ⟨rfl, rfl, rfl, rfl⟩

/-- A replay request puts a running partition into its recovery to the adopted point. -/
theorem State.replayPart_running {s : State} {q status : Nat} {mid gen : BitVec 16} (hst : (s.part q).st = .running)
    (hsw : (s.part q).switching = none) :
    s.replayPart q status mid gen = (s.adoptPoint q mid gen).enterRecovering q status [] none := by
  obtain ⟨hst', hsw', -, -⟩ := s.adoptPoint_part q mid gen
  rw [hst] at hst'
  rw [hsw] at hsw'
  simp only [State.replayPart, hst', hsw']

/-- A new replay request from the node above reaches the job's one partition here. -/
theorem State.replayRequest_below {s : State} {m : MsMsg} {q : Nat} (hclk : s.clocked = true)
    (hdst : m.dst.toNat = s.coord) (hkind : m.kind = .replayRequest) (hin : (s.msIn m).2 = true)
    (hjob : (s.msIn m).1.jobOf m.job = [q]) (hfrom : (s.msIn m).1.fromParent q m = true)
    (hhost : ((s.msIn m).1.ms q).hosted = []) (hcount : m.rcount = ((s.msIn m).1.ms q).rcount + 1) :
    execMsReplayRequest m s = .next ((s.msIn m).1.replayAt q m) := by
  rw [execMsReplayRequest, State.onMsg_inOrder hclk hdst hkind hin]
  simp only [hjob, ← hcount, hfrom, State.passDown_unhosted hjob hhost, decide_true, Bool.true_eq_false, if_false,
    true_or, if_true]
  rfl

/-- Settles O12: the message acts on the one partition of its job here; a replay request is a recovery to the adopted
point. -/
theorem jobComplete : Obligations.JobComplete := by
  constructor
  · intro s m q s1 hclk hdst hin hjob hctx hcount hfrom hhost
    have hact (k : MsKind) (act : Nat → State → State) (hkind : m.kind = k) :
        s.onMsg m k (fun t => t.broadcast m act) = act q s1 := by
      rw [State.onMsg_inOrder hclk hdst hkind hin, State.broadcast_below hjob hctx hcount hfrom hhost]
    refine ⟨fun hkind hwait => ?_, fun hkind => ?_, fun hkind => ?_⟩
    · rw [exec, execMsAbandon, hact _ _ hkind, State.abandonAt_idle hwait]
      rfl
    · rw [exec, execMsHold, hact _ _ hkind]
      simp only [State.holdAt, true_or, if_true]
    · rw [exec, execMsWithdrawal, hact _ _ hkind]
      simp only [State.holdAt, Bool.false_eq_true, false_or, if_false]
  · intro s m q s1 a hclk hdst hin hkind hjob hfrom hhost hcount hst hsw _ hhold htries
    obtain ⟨-, -, hhold', hms⟩ := s1.adoptPoint_part q m.mid m.gen
    have hreplay : s1.replayAt q m = a.enterRecovering q m.status.toNat [] none :=
      (if_pos hcount).trans (State.replayPart_running hst hsw)
    have hexec : exec (.msReplayRequest m) s = .next (a.enterRecovering q m.status.toNat [] none) := by
      rw [exec, State.replayRequest_below hclk hdst hkind hin hjob hfrom hhost hcount, hreplay]
    have hpart := State.enterRecovering_part (status := m.status.toNat) htries (hhold'.trans hhold)
    refine ⟨_, hexec, ?_⟩
    rw [State.ms, hpart]
    refine ⟨rfl, rfl, congrArg (fun y : Milestones => y.rcount + 1) hms, Bool.or_true _, fun e he => ?_⟩
    obtain ⟨e', -, rfl⟩ := List.mem_map.mp he
    exact ⟨rfl, rfl, rfl⟩

end Sys2Proof.Machine
end

section
/-!
PROOFS. Passes over a partition's cores, the control commands that take effect (R148, R151 to R154), and the statement
O25.
-/

namespace Sys2Proof.Machine

/-- What an application for one listed `x` brings about and no other application undoes, the whole pass brings about,
where every application keeps `I`. -/
theorem eachDo_establishes {α : Type} {I P : State → Prop} {g : α → State → State} {l : List α} {s : State} {x : α}
    (hI : ∀ y ∈ l, ∀ t, I t → I (g y t)) (hset : ∀ t, I t → P (g x t)) (hP : ∀ y ∈ l, ∀ t, I t → P t → P (g y t))
    (hx : x ∈ l) (h : I s) : P (eachDo l g s) := by
  induction l generalizing s with
  | nil => cases hx
  | cons y l ih =>
    have htail (z : α) (hz : z ∈ l) : z ∈ y :: l := List.mem_cons_of_mem y hz
    have hnext : I (g y s) := hI y List.mem_cons_self s h
    rcases List.mem_cons.mp hx with heq | hmem
    · have hfirst : P (g y s) := heq ▸ hset s h
      have hpass : I (eachDo l g (g y s)) ∧ P (eachDo l g (g y s)) :=
        eachDo_induct (P := fun t => I t ∧ P t)
          (fun z hz t ht => ⟨hI z (htail z hz) t ht.1, hP z (htail z hz) t ht.1 ht.2⟩) ⟨hnext, hfirst⟩
      exact hpass.2
    · exact ih (fun z hz => hI z (htail z hz)) (fun z hz => hP z (htail z hz)) hmem hnext

/-- From `s` to `t` at most cores, the module's totals and what an entry of Serai leaves have changed. -/
def State.CoresOnly (s t : State) : Prop :=
  t = { s with cores := t.cores, totals := t.totals, log := t.log, gapSerai := t.gapSerai }

namespace State.CoresOnly

variable {s t u : State}

theorem refl (s : State) : s.CoresOnly s := rfl

theorem trans (h : s.CoresOnly t) (k : t.CoresOnly u) : s.CoresOnly u :=
  Eq.trans k (congrArg (fun x : State => { x with
    cores := u.cores, totals := u.totals, log := u.log, gapSerai := u.gapSerai }) h)

/-- What reads none of it reads as before. -/
theorem reads {α : Type} {f : State → α}
    (hf : f { s with cores := t.cores, totals := t.totals, log := t.log, gapSerai := t.gapSerai } = f s)
    (h : s.CoresOnly t) : f t = f s := (congrArg f h).trans hf

theorem part (h : s.CoresOnly t) (r : Nat) : t.part r = s.part r := h.reads (f := fun x => x.part r) rfl

theorem physOf (h : s.CoresOnly t) (l : Nat) : t.physOf l = s.physOf l := h.reads (f := fun x => x.physOf l) rfl

theorem modCore (p : Nat) (g : Core → Core) (h : s.CoresOnly t) : s.CoresOnly (t.modCore p g) :=
  h.trans (u := t.modCore p g) rfl

theorem totalAdd (p i : Nat) (h : s.CoresOnly t) : s.CoresOnly (t.totalAdd p i) := by
  refine h.trans ?_
  unfold State.totalAdd State.logAt
  dsimp only
  split
  · split <;> rfl
  · rfl

theorem clearTallies (p : Nat) (h : s.CoresOnly t) : s.CoresOnly (t.clearTallies p) := by
  unfold State.clearTallies State.totalsAdd
  exact (CoresOnly.modCore p _ (eachDo_induct (P := s.CoresOnly) (fun i _ u hu => hu.totalAdd p i) h)).modCore p _

end State.CoresOnly

/-! START (R151, R154). -/

/-- A used core at its load-time values, issuing. -/
def Core.started (c : Core) : Core := { c with st := .running, wait := .none, pc := 0, loops := [] }

/-- One used core of START: it issues, and its snapshot belongs to the replay point. -/
def State.startCore (s : State) (q l : Nat) : State :=
  match s.physOf l with
  | none => s
  | some p => (s.modCore p Core.started).modPart q (fun x => { x with
      snapshots := tabSet x.snapshots l ((s.modCore p Core.started).core p).snapshot })

/-- The partition's cores with their tallies started again (R438). -/
def State.talliesRestarted (s : State) (q : Nat) : State :=
  eachDo (s.physOfPart q)
    (fun p t => (t.clearTallies p).modCore p (fun c => { c with tallySeq := c.tallySeq + 1 })) s

theorem State.startCores_eq (s : State) (q : Nat) :
    s.startCores q = eachDo (s.part q).usedCores (fun l t => t.startCore q l) (s.talliesRestarted q) := rfl

theorem State.talliesRestarted_coresOnly (s : State) (q : Nat) : s.CoresOnly (s.talliesRestarted q) :=
  eachDo_induct (P := s.CoresOnly) (fun p _ _ ht => (ht.clearTallies p).modCore p _) (.refl s)

theorem State.startCore_physOf (s : State) (q l k : Nat) : (s.startCore q l).physOf k = s.physOf k := by
  unfold State.startCore
  split <;> rfl

/-- The snapshots apart, starting a core leaves the partitions as they are. -/
theorem State.startCore_part (s : State) (q l r : Nat) :
    ∃ snaps, (s.startCore q l).part r = { s.part r with snapshots := snaps } := by
  unfold State.startCore
  split
  · exact ⟨_, rfl⟩
  · rw [State.modPart_eq, State.setPart_part]
    split
    · next heq => exact ⟨_, by rw [heq]; rfl⟩
    · exact ⟨_, rfl⟩

theorem State.startCores_part (s : State) (q r : Nat) :
    ∃ snaps, (s.startCores q).part r = { s.part r with snapshots := snaps } := by
  rw [State.startCores_eq]
  refine eachDo_induct (P := fun t => ∃ snaps, t.part r = { s.part r with snapshots := snaps }) (fun l _ t ht => ?_)
    ⟨_, (s.talliesRestarted_coresOnly q).part r⟩
  obtain ⟨snaps, hsnaps⟩ := ht
  obtain ⟨snaps', hsnaps'⟩ := t.startCore_part q l r
  exact ⟨snaps', by rw [hsnaps', hsnaps]⟩

/-- Does a core issue from its first instruction? -/
def Core.atStart (c : Core) : Prop := c.st = .running ∧ c.pc = 0

theorem State.startCore_atStart {s : State} {q l p : Nat} (h : s.physOf l = some p ∨ (s.core p).atStart) :
    ((s.startCore q l).core p).atStart := by
  unfold State.startCore
  split
  · next hnone =>
    rw [hnone] at h
    exact h.elim (fun hp => nomatch hp) id
  · next k hk =>
    rw [State.modPart_eq, State.setPart_core, State.modCore_eq, State.setCore_core]
    split
    · exact ⟨rfl, rfl⟩
    · next hne =>
      rw [hk] at h
      exact h.resolve_left fun hp => hne (Option.some.inj hp).symm

theorem State.startCores_atStart {s : State} {q l p : Nat} (hl : l ∈ (s.part q).usedCores) (hp : s.physOf l = some p) :
    ((s.startCores q).core p).atStart := by
  rw [State.startCores_eq]
  exact eachDo_establishes (I := fun t => t.physOf l = s.physOf l) (P := fun t => (t.core p).atStart)
    (fun k _ t ht => (t.startCore_physOf q k l).trans ht)
    (fun t ht => State.startCore_atStart (.inl (ht.trans hp))) (fun k _ t _ ht => State.startCore_atStart (.inr ht)) hl
    ((s.talliesRestarted_coresOnly q).physOf l)

/-- A partition that a START has taken, with START as its replay point (R154). -/
def Part.startedBy (x : Part) (c : CmdRef) (now : DWord) : Part :=
  { x with start := some c, snapshots := [], pendSnaps := [], rpStart := true, rpValid := false, rpMid := 0,
           rpVr := false, rpTries := 0, rpGen := 0, rpTime := now, rpGens := x.ms.objs.map (fun e => (e.1, e.2.gen)), heldCores := [],
           fromJob := false }

/-- A partition at START, before its cores issue. -/
def State.startBase (s : State) (q : Nat) (c : CmdRef) : State :=
  (s.modPart q (fun x => x.startedBy c s.now)).modConvoy q (fun x => { x with rpEpoch := x.epoch })

theorem State.startPart_eq (s : State) (q : Nat) (c : CmdRef) :
    s.startPart q c = ((s.startBase q c).startCores q).setPartSt q .running 0 0 := rfl

theorem State.startBase_part (s : State) (q : Nat) (c : CmdRef) :
    (s.startBase q c).part q = (s.part q).startedBy c s.now := by
  rw [State.startBase, State.modPart_eq, State.modConvoy_part, State.setPart_part, if_pos rfl]

theorem State.startPart_part (s : State) (q : Nat) (c : CmdRef) :
    ∃ snaps, (s.startPart q c).part q
      = { (s.part q).startedBy c s.now with snapshots := snaps }.inState .running 0 0 := by
  obtain ⟨snaps, hsnaps⟩ := (s.startBase q c).startCores_part q q
  exact ⟨snaps, by rw [State.startPart_eq, State.setPartSt_part_self, hsnaps, State.startBase_part]⟩

theorem State.startPart_atStart {s : State} {q l p : Nat} {c : CmdRef} (hl : l ∈ (s.part q).usedCores)
    (hp : s.physOf l = some p) : ((s.startPart q c).core p).atStart := by
  have hused : ((s.startBase q c).part q).usedCores = (s.part q).usedCores := by
    rw [State.startBase_part]
    rfl
  obtain ⟨g, hg⟩ := ((s.startBase q c).startCores q).setPartSt_core q .running 0 0 p
  rw [State.startPart_eq, hg]
  exact State.startCores_atStart (s := s.startBase q c) (hused ▸ hl) hp

/-- A load that succeeds completes with OK and the image's family. -/
theorem State.complete_loaded {r : State × Nat} {c : CmdRef} {family : DWord} (hok : r.2 = scOk) :
    r.1.complete c r.2 (if r.2 = scOk then family else 0) 0 = r.1.complete c scOk family 0 := by
  rw [hok, if_pos rfl]

/-- Settles O25: each command is taken and has its effect; START's is that of its passes over the cores. -/
theorem controlCommandsComplete : Obligations.ControlCommandsComplete := by
  intro s h image resume die buf n l p e q t done ref img
  have heffect {code flags args : Nat} {act : State → CmdRef → State} (x : State) (a : s.Accepts h code flags args)
      (hx : act t (ref code) = x) : .next (s.hostCmd h code flags args act) = done x := by
    rw [State.hostCmd_accepts act a]
    exact congrArg done hx
  refine ⟨fun a => heffect _ a rfl, fun a hok => heffect _ a ?load, fun a => ⟨heffect _ a rfl, ?start⟩,
    fun a => heffect _ a rfl, fun a => heffect _ a rfl, fun a => heffect _ a rfl,
    fun a hfind htok => heffect _ a ?token⟩
  case load => exact State.complete_loaded hok
  case start =>
    obtain ⟨snaps, hsnaps⟩ := t.startPart_part q (ref 2)
    rw [hsnaps]
    exact ⟨rfl, rfl, rfl, State.startPart_atStart⟩
  case token =>
    have hbuf : (t.die die.toNat).dbufs.find? (fun e => e.1 == buf.toNat && e.2.owner == h.part) = some e := hfind
    simp only [hbuf, State.post, if_pos htok]

end Sys2Proof.Machine
end

section
/-!
PROOFS. The end of a context switch and of the recall of a recovery (R151 to R153, R156, R157, R160), and the statement
O27.
-/

namespace Sys2Proof.Machine

/-! What a context switch clears (R152). -/

/-- Is a core as a context switch leaves it, the gap marks of its records apart? -/
def Core.IsCleared (c : Core) (st : CoreSt) : Prop := ∃ (old : Core) (g : Gap → Gap), c = (old.cleared st).modGaps g

theorem Core.cleared_isCleared (c : Core) (st : CoreSt) : (c.cleared st).IsCleared st := ⟨c, id, rfl⟩

theorem Core.IsCleared.modGaps {c : Core} {st : CoreSt} (h : c.IsCleared st) (g : Gap → Gap) :
    (c.modGaps g).IsCleared st := by
  obtain ⟨old, g', rfl⟩ := h
  exact ⟨old, g ∘ g', rfl⟩

/-- The work on a core whose clock is gated runs between its start and its stop (R334). -/
theorem State.withClock_cases {P : State → Prop} {s : State} {p : Nat} {g : State → State} (hon : P (g s))
    (hoff : P ((g (s.modCore p (fun c => c.modGaps (fun x => x.start s.now)))).modCore p
      (fun c => c.modGaps (fun x => x.stop s.now)))) : P (s.withClock p g) := by
  unfold State.withClock
  dsimp only
  split
  · split
    · exact hoff
    · exact hon
  · exact hoff

theorem State.CoresOnly.clearCore {s t : State} (p : Nat) (st : CoreSt) (h : s.CoresOnly t) :
    s.CoresOnly (t.clearCore p st) :=
  State.withClock_cases (P := s.CoresOnly) ((h.clearTallies p).modCore p _)
    ((((h.modCore p _).clearTallies p).modCore p _).modCore p _)

theorem State.modCore_core_self (s : State) (p : Nat) (g : Core → Core) : (s.modCore p g).core p = g (s.core p) := by
  rw [State.modCore_eq, State.setCore_core, if_pos rfl]

theorem State.modCore_core_ne {s : State} {p k : Nat} (g : Core → Core) (hne : k ≠ p) :
    (s.modCore p g).core k = s.core k := by
  rw [State.modCore_eq, State.setCore_core, if_neg hne]

theorem State.clearCore_isCleared (s : State) (p : Nat) (st : CoreSt) : ((s.clearCore p st).core p).IsCleared st := by
  refine State.withClock_cases (P := fun t => (t.core p).IsCleared st) ?_ ?_
  · rw [State.modCore_core_self]
    exact Core.cleared_isCleared _ st
  · rw [State.modCore_core_self, State.modCore_core_self]
    exact (Core.cleared_isCleared _ st).modGaps _

theorem State.totalAdd_core (s : State) (p i k : Nat) : (s.totalAdd p i).core k = s.core k := by
  unfold State.totalAdd State.logAt
  dsimp only
  split
  · split <;> rfl
  · rfl

theorem State.clearTallies_core {s : State} {p k : Nat} (hne : k ≠ p) : (s.clearTallies p).core k = s.core k := by
  unfold State.clearTallies State.totalsAdd
  rw [State.modCore_core_ne _ hne, State.modCore_core_ne _ hne]
  exact eachDo_induct (P := fun t => t.core k = s.core k) (fun i _ t ht => (t.totalAdd_core p i k).trans ht) rfl

theorem State.clearCore_core {s : State} {p k : Nat} (st : CoreSt) (hne : k ≠ p) :
    (s.clearCore p st).core k = s.core k := by
  refine State.withClock_cases (P := fun t => t.core k = s.core k) ?_ ?_
  · rw [State.modCore_core_ne _ hne, State.clearTallies_core hne]
  · rw [State.modCore_core_ne _ hne, State.modCore_core_ne _ hne, State.clearTallies_core hne,
      State.modCore_core_ne _ hne]

/-- A partition's cores cleared. -/
def State.coresCleared (s : State) (q : Nat) : State := eachDo (s.physOfPart q) (fun p t => t.clearCore p .idle) s

theorem State.coresCleared_coresOnly (s : State) (q : Nat) : s.CoresOnly (s.coresCleared q) :=
  eachDo_induct (P := s.CoresOnly) (fun p _ _ ht => ht.clearCore p _) (.refl s)

theorem State.coresCleared_core {s : State} {q p : Nat} (hp : p ∈ s.physOfPart q) :
    ((s.coresCleared q).core p).IsCleared .idle :=
  eachDo_establishes (I := fun _ => True) (P := fun t => (t.core p).IsCleared .idle) (fun _ _ _ _ => trivial)
    (fun t _ => t.clearCore_isCleared p .idle)
    (fun k _ t _ ht => by
      by_cases heq : p = k
      · exact heq ▸ t.clearCore_isCleared p .idle
      · rw [State.clearCore_core .idle heq]
        exact ht)
    hp trivial

/-- Has a partition no depot buffers on a die? -/
def Die.NoBufs (d : Die) (q : Nat) : Prop := ∀ e ∈ d.dbufs, e.2.owner ≠ q

theorem Die.NoBufs.withUpdGap {d : Die} {q : Nat} (h : d.NoBufs q) (g : Gap) : (d.withUpdGap g).NoBufs q := h

theorem Die.dropBufs_noBufs (d : Die) (q : Nat) : (d.dropBufs q).NoBufs q := by
  intro e he
  have hmem : e ∈ d.dbufs.filter (fun e => e.2.owner != q) := he
  simpa using (List.mem_filter.mp hmem).2

/-- From `s` to `t` at most dies have changed. -/
def State.DiesOnly (s t : State) : Prop := t = { s with dies := t.dies }

theorem State.DiesOnly.trans {s t u : State} (h : s.DiesOnly t) (k : t.DiesOnly u) : s.DiesOnly u :=
  Eq.trans k (congrArg (fun x : State => { x with dies := u.dies }) h)

theorem State.DiesOnly.modDie {s t : State} (n : Nat) (g : Die → Die) (h : s.DiesOnly t) : s.DiesOnly (t.modDie n g) :=
  h.trans (u := t.modDie n g) rfl

/-- What reads no die reads as before. -/
theorem State.DiesOnly.reads {α : Type} {f : State → α} {s t : State}
    (hf : ∀ dies, f { s with dies := dies } = f s) (h : s.DiesOnly t) : f t = f s := (congrArg f h).trans (hf _)

theorem State.dropDepots_diesOnly (s : State) (q : Nat) : s.DiesOnly (s.dropDepots q) :=
  eachDo_induct (P := s.DiesOnly) (fun n _ _ ht => ht.modDie n _) rfl

theorem State.dropDepots_noBufs {s : State} {q n : Nat} (hn : n < 12) : ((s.dropDepots q).die n).NoBufs q :=
  eachDo_establishes (I := fun _ => True) (P := fun t => (t.die n).NoBufs q) (fun _ _ _ _ => trivial)
    (fun t _ => by
      rw [State.modDie_eq, State.setDie_die, if_pos rfl]
      exact (t.die n).dropBufs_noBufs q)
    (fun k _ t _ ht => by
      rw [State.modDie_eq, State.setDie_die]
      split
      · exact (t.die k).dropBufs_noBufs q
      · exact ht)
    (List.mem_range.mpr hn) trivial

/-- From `s` to `t` at most what Customs holds and what an entry of Serai leaves have changed. -/
def State.CustomsOnly (s t : State) : Prop :=
  t = { s with customs := t.customs, cusParts := t.cusParts, log := t.log, gapSerai := t.gapSerai }

theorem State.CustomsOnly.trans {s t u : State} (h : s.CustomsOnly t) (k : t.CustomsOnly u) : s.CustomsOnly u :=
  Eq.trans k (congrArg (fun x : State => { x with
    customs := u.customs, cusParts := u.cusParts, log := u.log, gapSerai := u.gapSerai }) h)

theorem State.CustomsOnly.reads {α : Type} {f : State → α} {s t : State}
    (hf : f { s with customs := t.customs, cusParts := t.cusParts, log := t.log, gapSerai := t.gapSerai } = f s)
    (h : s.CustomsOnly t) : f t = f s := (congrArg f h).trans hf

theorem State.emptySlot_customsOnly (s : State) (q i : Nat) : s.CustomsOnly (s.emptySlot q i) := by
  unfold State.emptySlot State.logCus State.logAt
  dsimp only
  split <;> rfl

theorem State.clearKeys_customsOnly (s : State) (q : Nat) : s.CustomsOnly (s.clearKeys q) := by
  unfold State.clearKeys
  have hslots (l : List Nat) : s.CustomsOnly (eachDo l (fun i t => t.emptySlot q i) s) :=
    eachDo_induct (fun i _ t ht => ht.trans (t.emptySlot_customsOnly q i)) rfl
  exact (hslots _).trans rfl

/-! The end of a context switch (R152, R153). -/

/-- A partition's cores, depot buffers and keys cleared. -/
def State.bodyCleared (s : State) (q : Nat) : State := ((s.coresCleared q).dropDepots q).clearKeys q

theorem State.clearKeys_core (s : State) (q p : Nat) : (s.clearKeys q).core p = s.core p :=
  (s.clearKeys_customsOnly q).reads (f := fun x => x.core p) rfl

theorem State.clearKeys_die (s : State) (q n : Nat) : (s.clearKeys q).die n = s.die n :=
  (s.clearKeys_customsOnly q).reads (f := fun x => x.die n) rfl

theorem State.dropDepots_core (s : State) (q p : Nat) : (s.dropDepots q).core p = s.core p :=
  (s.dropDepots_diesOnly q).reads (f := fun x => x.core p) fun _ => rfl

theorem State.bodyCleared_core {s : State} {q p : Nat} (hp : p ∈ s.physOfPart q) :
    ((s.bodyCleared q).core p).IsCleared .idle := by
  rw [State.bodyCleared, State.clearKeys_core, State.dropDepots_core]
  exact State.coresCleared_core hp

theorem State.bodyCleared_die {s : State} {q n : Nat} (hn : n < 12) : ((s.bodyCleared q).die n).NoBufs q := by
  rw [State.bodyCleared, State.clearKeys_die]
  exact State.dropDepots_noBufs hn

theorem State.clearKeys_kept (s : State) (q : Nat) :
    (s.clearKeys q).parts = s.parts ∧ (s.clearKeys q).mem = s.mem ∧ (s.clearKeys q).mod = s.mod :=
  have h := s.clearKeys_customsOnly q
  ⟨h.reads (f := State.parts) rfl, h.reads (f := State.mem) rfl, h.reads (f := State.mod) rfl⟩

theorem State.dropDepots_kept (s : State) (q : Nat) :
    (s.dropDepots q).parts = s.parts ∧ (s.dropDepots q).mem = s.mem ∧ (s.dropDepots q).mod = s.mod :=
  have h := s.dropDepots_diesOnly q
  ⟨h.reads (f := State.parts) fun _ => rfl, h.reads (f := State.mem) fun _ => rfl,
    h.reads (f := State.mod) fun _ => rfl⟩

theorem State.coresCleared_kept (s : State) (q : Nat) :
    (s.coresCleared q).parts = s.parts ∧ (s.coresCleared q).mem = s.mem ∧ (s.coresCleared q).mod = s.mod :=
  have h := s.coresCleared_coresOnly q
  ⟨h.reads (f := State.parts) rfl, h.reads (f := State.mem) rfl, h.reads (f := State.mod) rfl⟩

theorem State.bodyCleared_kept (s : State) (q : Nat) :
    (s.bodyCleared q).parts = s.parts ∧ (s.bodyCleared q).mem = s.mem ∧ (s.bodyCleared q).mod = s.mod := by
  obtain ⟨hparts, hmem, hmod⟩ := ((s.coresCleared q).dropDepots q).clearKeys_kept q
  obtain ⟨hparts', hmem', hmod'⟩ := (s.coresCleared q).dropDepots_kept q
  obtain ⟨hparts'', hmem'', hmod''⟩ := s.coresCleared_kept q
  exact ⟨hparts.trans (hparts'.trans hparts''), hmem.trans (hmem'.trans hmem''), hmod.trans (hmod'.trans hmod'')⟩

/-- A partition whose context switch has ended. -/
def Part.switchedOut (x : Part) : Part := ((x.switched.inState .idle 0 0).noStart).noPause

/-- The cleared state with the partition's convoys and Serai's view of it cleared too. -/
def State.switchBase (s : State) (q : Nat) : State :=
  ((s.bodyCleared q).modConvoy q Convoy.switched).modPart q Part.switched

theorem State.finishSwitch_eq (s : State) (q : Nat) :
    s.finishSwitch q = ((((s.switchBase q).gateUpd s).setPartSt q .idle 0 0).finishStart q scAbandoned).finishPause q
      scAbandoned := rfl

theorem State.finishSwitch_moves (s : State) (q : Nat) : (s.switchBase q).PartsMove (s.finishSwitch q) :=
  ((((State.PartsMove.refl _).gateUpd s).setPartSt q .idle 0 0).finishStart q scAbandoned).finishPause q scAbandoned

theorem State.bodyCleared_part (s : State) (q r : Nat) : (s.bodyCleared q).part r = s.part r :=
  congrArg (fun parts => (tabGet {} parts r : Part)) (s.bodyCleared_kept q).1

theorem State.switchBase_part (s : State) (q r : Nat) :
    (s.switchBase q).part r = if r = q then (s.part q).switched else s.part r := by
  rw [State.switchBase, State.modPart_eq, State.setPart_part, State.modConvoy_part, State.modConvoy_part,
    State.bodyCleared_part, State.bodyCleared_part]

theorem State.finishSwitch_part (s : State) (q r : Nat) :
    (s.finishSwitch q).part r = if r = q then (s.part q).switchedOut else s.part r := by
  have hbase (k : Nat) : ((s.switchBase q).gateUpd s).part k = if k = q then (s.part q).switched else s.part k :=
    (((State.Signals.refl _).gateUpd s).part k).trans (s.switchBase_part q k)
  rw [State.finishSwitch_eq, State.finishPause_part, State.finishStart_part, if_pos rfl, State.finishStart_part,
    State.setPartSt_part, if_pos rfl, State.setPartSt_part, hbase, if_pos rfl, hbase]
  split <;> rfl

theorem State.switchBase_mod (s : State) (q : Nat) : (s.switchBase q).mod = (s.bodyCleared q).mod := by
  rw [State.switchBase, State.modPart_eq, State.setPart_mod, State.modConvoy_mod]

theorem State.switchBase_mem (s : State) (q : Nat) : (s.switchBase q).mem = (s.bodyCleared q).mem := by
  rw [State.switchBase, State.modPart_eq, State.setPart_mem, State.modConvoy_mem]

theorem State.switchBase_core (s : State) (q p : Nat) : (s.switchBase q).core p = (s.bodyCleared q).core p := by
  rw [State.switchBase, State.modPart_eq, State.setPart_core, State.modConvoy_core]

theorem State.switchBase_die (s : State) (q n : Nat) : (s.switchBase q).die n = (s.bodyCleared q).die n := by
  rw [State.switchBase, State.modPart_eq, State.setPart_die, State.modConvoy_die]

theorem State.finishSwitch_mod (s : State) (q : Nat) : (s.finishSwitch q).mod = s.mod := by
  obtain ⟨-, -, hmod⟩ := s.bodyCleared_kept q
  rw [(s.finishSwitch_moves q).mod, State.switchBase_mod, hmod]

theorem State.finishSwitch_mem (s : State) (q : Nat) : (s.finishSwitch q).mem = s.mem := by
  obtain ⟨-, hmem, -⟩ := s.bodyCleared_kept q
  rw [(s.finishSwitch_moves q).mem, State.switchBase_mem, hmem]

theorem State.finishSwitch_core {s : State} {q p : Nat} (hp : p ∈ s.physOfPart q) :
    ((s.finishSwitch q).core p).IsCleared .idle := by
  obtain ⟨g, hg⟩ := (s.finishSwitch_moves q).core p
  rw [hg, State.switchBase_core]
  exact (State.bodyCleared_core hp).modGaps g

theorem State.finishSwitch_die {s : State} {q n : Nat} (hn : n < 12) : ((s.finishSwitch q).die n).NoBufs q := by
  obtain ⟨g, hg⟩ := (s.finishSwitch_moves q).die n
  rw [hg, State.switchBase_die]
  exact (State.bodyCleared_die hn).withUpdGap g

/-- The end of the switch that a STOP began, where no manifest takes the partition. -/
theorem State.switchDone_stop {s : State} {q : Nat} {c : CmdRef} (hsw : (s.part q).switching = some (.stop c))
    (htake : s.mod.taking.contains q = false) : s.switchDone q = (s.finishSwitch q).complete c scOk 0 0 := by
  have htake' : (s.finishSwitch q).mod.taking.contains q = false := by rw [State.finishSwitch_mod, htake]
  simp only [State.switchDone, hsw, htake', Bool.false_eq_true, if_false]

end Sys2Proof.Machine
end

section
/-!
PROOFS. The end of the recall of a recovery (R156, R157, R160), and the statement O27.
-/

namespace Sys2Proof.Machine

/-! Quarantines only add to the marked cores (R156). -/

/-- Is every core quarantined in `s` quarantined in `t`? -/
def State.QuarKept (s t : State) : Prop :=
  ∀ n i, (s.die n).quar.getLsbD i = true → (t.die n).quar.getLsbD i = true

namespace State.QuarKept

variable {s t u : State}

theorem refl (s : State) : s.QuarKept s := fun _ _ h => h

theorem trans (h : s.QuarKept t) (k : t.QuarKept u) : s.QuarKept u := fun n i hq => k n i (h n i hq)

theorem sameDies (hd : ∀ n, u.die n = t.die n) (h : s.QuarKept t) : s.QuarKept u := fun n i hq => by
  rw [hd]
  exact h n i hq

theorem modDie (n : Nat) {g : Die → Die}
    (hg : ∀ d i, d.quar.getLsbD i = true → (g d).quar.getLsbD i = true) (h : s.QuarKept t) :
    s.QuarKept (t.modDie n g) := by
  intro k i hq
  rw [State.modDie_eq, State.setDie_die]
  split
  · next heq => exact hg _ i (heq ▸ h k i hq)
  · exact h k i hq

theorem logCore (p code status : Nat) (args : List Word) (h : s.QuarKept t) :
    s.QuarKept (t.logCore p code status args) :=
  h.sameDies fun n => by
    unfold State.logCore State.logAt
    dsimp only
    split <;> rfl

theorem coresOnly (k : t.CoresOnly u) (h : s.QuarKept t) : s.QuarKept u :=
  h.sameDies fun n => k.reads (f := fun x => x.die n) rfl

theorem modCore (p : Nat) (g : Core → Core) (h : s.QuarKept t) : s.QuarKept (t.modCore p g) := h

theorem lifeQuarantine (p : Nat) (h : s.QuarKept t) : s.QuarKept (t.lifeQuarantine p) := by
  have hbegun (g : LifeRec → LifeRec) : s.QuarKept (t.modLife g).lifeBegin :=
    h.sameDies fun n => State.lifeBegin_die _ n
  unfold State.lifeQuarantine
  dsimp only
  split
  · exact (hbegun _).modDie _ fun _ _ hd => hd
  · exact hbegun _

theorem remap (n j : Nat) (old : Core) (h : s.QuarKept t) : s.QuarKept (t.remap n j old) := by
  unfold State.remap
  split
  · exact h.modDie n fun _ _ hd => hd
  · next k _ =>
    have hmap : s.QuarKept (t.modDie n (fun d => { d with coreMap := d.coreMap.set j (some k) })) :=
      h.modDie n fun _ _ hd => hd
    refine logCore _ _ _ _ ?_
    split
    · exact hmap
    · exact hmap.modCore _ _

end State.QuarKept

/-- The core cleared and marked, before its number moves to a spare. -/
def State.quarMarked (s : State) (p : Nat) : State :=
  (((s.logCore p 0x1002 scUncorr []).clearCore p .quarantined).modDie (p / 22)
    (fun d => { d with quar := d.quar ||| BitVec.ofNat 22 (2 ^ (p % 22)) }))

theorem State.quarMarked_kept (s : State) (p : Nat) : s.QuarKept (s.quarMarked p) :=
  (((State.QuarKept.refl s).logCore p 0x1002 scUncorr []).coresOnly
    ((State.CoresOnly.refl _).clearCore p .quarantined)).modDie _ fun d i hd => by
      rw [BitVec.getLsbD_or, hd, Bool.true_or]

theorem State.quarMarked_marks (s : State) (p : Nat) : ((s.quarMarked p).die (p / 22)).quar.getLsbD (p % 22) = true := by
  have hlt : p % 22 < 22 := Nat.mod_lt _ (by decide)
  rw [State.quarMarked, State.modDie_eq, State.setDie_die, if_pos rfl, BitVec.getLsbD_or, BitVec.getLsbD_ofNat,
    Nat.testBit_two_pow_self, decide_eq_true hlt, Bool.and_true, Bool.or_true]

/-- A quarantine of a core that is not quarantined yet. -/
theorem State.quarantine_cases {P : State → Prop} {s : State} {p : Nat}
    (hdone : (s.die (p / 22)).quar.getLsbD (p % 22) = true → P s)
    (hnew : ∀ t, (s.quarMarked p).QuarKept t → P t) : P (s.quarantine p) := by
  unfold State.quarantine
  split
  · next hq => exact hdone hq
  · dsimp only
    have hlife : (s.quarMarked p).QuarKept ((s.quarMarked p).lifeQuarantine p) :=
      (State.QuarKept.refl _).lifeQuarantine p
    split
    · exact hnew _ hlife
    · exact hnew _ (hlife.remap _ _ _)

theorem State.quarantine_kept (s : State) (p : Nat) : s.QuarKept (s.quarantine p) :=
  State.quarantine_cases (fun _ => .refl s) fun _ ht => (s.quarMarked_kept p).trans ht

theorem State.quarantine_marks (s : State) (p : Nat) :
    ((s.quarantine p).die (p / 22)).quar.getLsbD (p % 22) = true :=
  State.quarantine_cases (P := fun t => (t.die (p / 22)).quar.getLsbD (p % 22) = true) id
    fun _ ht => ht _ _ (s.quarMarked_marks p)

/-! The steps of the end of a recall (R157). -/

/-- Step 3: the listed cores quarantined. -/
def State.recallMarked (s : State) (r : Recovery) : State := eachDo r.quarantine (fun p t => t.quarantine p) s

theorem State.recallMarked_marks {s : State} {r : Recovery} {p : Nat} (hp : p ∈ r.quarantine) :
    ((s.recallMarked r).die (p / 22)).quar.getLsbD (p % 22) = true :=
  eachDo_establishes (I := fun _ => True) (P := fun t => (t.die (p / 22)).quar.getLsbD (p % 22) = true)
    (fun _ _ _ _ => trivial) (fun t _ => t.quarantine_marks p) (fun k _ t _ ht => t.quarantine_kept k _ _ ht) hp trivial

/-- Step 4 on the partition's cores. -/
def State.coresStep4 (s : State) (q : Nat) : State := eachDo (s.physOfPart q) (fun p t => t.modCore p Core.step4) s

/-- Step 4 on the dies' depot buffers. -/
def State.diesStep4 (s : State) (q : Nat) : State :=
  eachDo (List.range 12) (fun n t => t.modDie n (fun d => d.step4 q)) s

/-- Step 4 on the partition's queue pairs. -/
def State.qpsStep4 (s : State) (q : Nat) : State :=
  { s with qps := s.qps.map (fun e =>
      (e.1, if e.2.part.toNat = q then { e.2 with
        reserved := 0, reads := e.2.reads.map (fun r => { r with ended := true }) } else e.2)) }

def State.recallStep4 (s : State) (q : Nat) : State :=
  (((s.coresStep4 q).diesStep4 q).modConvoy q Convoy.recovered).qpsStep4 q

/-- One core back to its snapshot. -/
def State.restoreCore (s : State) (e : Nat × Snapshot) : State :=
  match s.physOf e.1 with
  | some p => s.modCore p (fun c => c.restore e.2)
  | none => s

/-- Step 5: the cores of the replay point's snapshots issue again. -/
def State.recallRestored (s : State) (q : Nat) : State :=
  eachDo (s.part q).snapshots (fun e t => t.restoreCore e) s

/-- A partition whose recall has ended. -/
def Part.recalledBy (x : Part) (r : Recovery) : Part := { x with recovery := some { r with recalled := true } }

/-- A partition whose recovery ends with its recall. -/
def Part.recovered (x : Part) : Part := { x with recovery := none, ms := { x.ms with replayReq := false } }

/-- How the recall leaves the partition (R160). -/
def State.recallEnd (s : State) (q : Nat) (r : Recovery) : State :=
  if s.sparesExhausted q then ((s.setPartSt q .paused 1 0).logPart q 0x1006 scOk r.core).msHold q true
  else if (s.part q).rpStart then (s.modPart q Part.recovered).setPartSt q .running 0 0
  else s

/-- The state that the ending of a recall starts from. -/
def State.recallBase (s : State) (q : Nat) (r : Recovery) : State :=
  (((s.recallMarked r).recallStep4 q).recallRestored q).modPart q (fun x => x.recalledBy r)

theorem State.finishRecall_eq (s : State) (q : Nat) (r : Recovery) :
    s.finishRecall q r = (s.recallBase q r).recallEnd q r := rfl

/-! Dies. -/

theorem State.coresStep4_coresOnly (s : State) (q : Nat) : s.CoresOnly (s.coresStep4 q) :=
  eachDo_induct (P := s.CoresOnly) (fun p _ _ ht => ht.modCore p _) (.refl s)

theorem State.restoreCore_coresOnly (s : State) (e : Nat × Snapshot) : s.CoresOnly (s.restoreCore e) := by
  unfold State.restoreCore
  split
  · exact (State.CoresOnly.refl s).modCore _ _
  · exact .refl s

theorem State.recallRestored_coresOnly (s : State) (q : Nat) : s.CoresOnly (s.recallRestored q) :=
  eachDo_induct (P := s.CoresOnly) (fun e _ t ht => ht.trans (t.restoreCore_coresOnly e)) (.refl s)

/-- Step 4 leaves core maps and quarantines as they are. -/
theorem State.diesStep4_die (s : State) (q n : Nat) :
    ((s.diesStep4 q).die n).coreMap = (s.die n).coreMap ∧ ((s.diesStep4 q).die n).quar = (s.die n).quar := by
  refine eachDo_induct (P := fun t => (t.die n).coreMap = (s.die n).coreMap ∧ (t.die n).quar = (s.die n).quar)
    (fun k _ t ht => ?_) ⟨rfl, rfl⟩
  rw [State.modDie_eq, State.setDie_die]
  split
  · next heq => exact heq ▸ ht
  · exact ht

theorem State.diesStep4_diesOnly (s : State) (q : Nat) : s.DiesOnly (s.diesStep4 q) :=
  eachDo_induct (P := s.DiesOnly) (fun n _ _ ht => ht.modDie n _) rfl

theorem State.qpsStep4_core (s : State) (q p : Nat) : (s.qpsStep4 q).core p = s.core p := rfl

theorem State.qpsStep4_die (s : State) (q n : Nat) : (s.qpsStep4 q).die n = s.die n := rfl

theorem State.qpsStep4_part (s : State) (q r : Nat) : (s.qpsStep4 q).part r = s.part r := rfl

theorem State.diesStep4_core (s : State) (q p : Nat) : (s.diesStep4 q).core p = s.core p :=
  (s.diesStep4_diesOnly q).reads (f := fun x => x.core p) fun _ => rfl

theorem State.diesStep4_part (s : State) (q r : Nat) : (s.diesStep4 q).part r = s.part r :=
  (s.diesStep4_diesOnly q).reads (f := fun x => x.part r) fun _ => rfl

theorem State.recallStep4_core (s : State) (q p : Nat) : (s.recallStep4 q).core p = (s.coresStep4 q).core p := by
  rw [State.recallStep4, State.qpsStep4_core, State.modConvoy_core, State.diesStep4_core]

theorem State.recallStep4_part (s : State) (q r : Nat) : (s.recallStep4 q).part r = s.part r := by
  rw [State.recallStep4, State.qpsStep4_part, State.modConvoy_part, State.diesStep4_part,
    (s.coresStep4_coresOnly q).part]

theorem State.recallStep4_die (s : State) (q n : Nat) :
    ((s.recallStep4 q).die n).coreMap = (s.die n).coreMap ∧ ((s.recallStep4 q).die n).quar = (s.die n).quar := by
  have hcores : (s.coresStep4 q).die n = s.die n := (s.coresStep4_coresOnly q).reads (f := fun x => x.die n) rfl
  rw [State.recallStep4, State.qpsStep4_die, State.modConvoy_die, ← hcores]
  exact (s.coresStep4 q).diesStep4_die q n

theorem State.recallStep4_physOf (s : State) (q l : Nat) : (s.recallStep4 q).physOf l = s.physOf l := by
  rw [State.physOf, State.physOf, (s.recallStep4_die q _).1]

/-- The ending of a recall moves the partition and reports. -/
theorem State.recallEnd_moves (s : State) (q : Nat) (r : Recovery) : s.PartsMove (s.recallEnd q r) := by
  unfold State.recallEnd
  split
  · exact (((State.PartsMove.refl s).setPartSt q .paused 1 0).reports
      ((State.ReportsOnly.refl _).logPart q 0x1006 scOk r.core)).msHold q true
  · split
    · exact ((State.PartsMove.refl s).modPart q _).setPartSt q .running 0 0
    · exact .refl s

theorem Die.withUpdGap_quar (d : Die) (g : Gap) : (d.withUpdGap g).quar = d.quar := rfl

theorem State.finishRecall_marks {s : State} {q p : Nat} {r : Recovery} (hp : p ∈ r.quarantine) :
    ((s.finishRecall q r).die (p / 22)).quar.getLsbD (p % 22) = true := by
  obtain ⟨g, hg⟩ := ((s.recallBase q r).recallEnd_moves q r).die (p / 22)
  have hbase : ((s.recallBase q r).die (p / 22)).quar = ((s.recallMarked r).die (p / 22)).quar := by
    rw [State.recallBase, State.modPart_eq, State.setPart_die,
      (State.recallRestored_coresOnly _ q).reads (f := fun x => x.die (p / 22)) rfl, (State.recallStep4_die _ q _).2]
  rw [State.finishRecall_eq, hg, Die.withUpdGap_quar, hbase]
  exact State.recallMarked_marks hp

/-! Cores. -/

/-- Are a core's tokens, MISSING marks and tolls zero and its ledger's entries marked with Z (R157, step 4)? -/
def Core.Step4 (c : Core) : Prop :=
  c.tolls = [] ∧ (∀ e ∈ c.sbufs, e.2.tok = 0 ∧ e.2.missing = false) ∧ ∀ e ∈ c.ledger, e.2.z = true

theorem Core.Step4.modGaps {c : Core} (h : c.Step4) (g : Gap → Gap) : (c.modGaps g).Step4 := h

theorem Core.step4_step4 (c : Core) : c.step4.Step4 := by
  refine ⟨rfl, fun e he => ?_, fun e he => ?_⟩
  · obtain ⟨e', -, rfl⟩ := List.mem_map.mp he
    exact ⟨rfl, rfl⟩
  · obtain ⟨e', -, rfl⟩ := List.mem_map.mp he
    rfl

theorem State.coresStep4_core {s : State} {q p : Nat} (hp : p ∈ s.physOfPart q) : ((s.coresStep4 q).core p).Step4 :=
  eachDo_establishes (I := fun _ => True) (P := fun t => (t.core p).Step4) (fun _ _ _ _ => trivial)
    (fun t _ => by
      rw [State.modCore_core_self]
      exact Core.step4_step4 _)
    (fun k _ t _ ht => by
      by_cases heq : p = k
      · rw [heq, State.modCore_core_self]
        exact Core.step4_step4 _
      · rw [State.modCore_core_ne _ heq]
        exact ht)
    hp trivial

theorem State.restoreCore_step4 {s : State} {p : Nat} (e : Nat × Snapshot) (h : (s.core p).Step4) :
    ((s.restoreCore e).core p).Step4 := by
  unfold State.restoreCore
  split
  · next k _ =>
    by_cases heq : p = k
    · rw [← heq, State.modCore_core_self]
      exact h
    · rw [State.modCore_core_ne _ heq]
      exact h
  · exact h

theorem State.recallRestored_step4 {s : State} {q p : Nat} (h : (s.core p).Step4) :
    ((s.recallRestored q).core p).Step4 :=
  eachDo_induct (P := fun t => (t.core p).Step4) (fun e _ _ ht => State.restoreCore_step4 e ht) h

/-- Does a core issue from a snapshot (R154)? -/
def Core.ResumesAt (c : Core) (n : Snapshot) : Prop :=
  c.st = .running ∧ c.wait = .none ∧ c.pc = n.pc ∧ c.loops = n.loops ∧ c.xreg = n.xreg ∧ c.streams = n.streams
    ∧ c.conv = n.conv ∧ c.recs = n.recs ∧ c.wmask = n.wmask

theorem Core.ResumesAt.modGaps {c : Core} {n : Snapshot} (h : c.ResumesAt n) (g : Gap → Gap) :
    (c.modGaps g).ResumesAt n := h

theorem Core.restore_resumesAt (c : Core) (n : Snapshot) : (c.restore n).ResumesAt n :=
  ⟨rfl, rfl, rfl, rfl, rfl, rfl, rfl, rfl, rfl⟩

theorem State.restoreCore_resumesAt {s : State} {p : Nat} {e : Nat × Snapshot} (hp : s.physOf e.1 = some p) :
    ((s.restoreCore e).core p).ResumesAt e.2 := by
  unfold State.restoreCore
  simp only [hp]
  rw [State.modCore_core_self]
  exact Core.restore_resumesAt _ _

theorem State.restoreCore_core {s : State} {p : Nat} {e : Nat × Snapshot} (hp : s.physOf e.1 ≠ some p) :
    (s.restoreCore e).core p = s.core p := by
  unfold State.restoreCore
  split
  · next k hk => exact State.modCore_core_ne _ fun heq => hp (heq ▸ hk)
  · rfl

/-- A core with one snapshot of the replay point issues from that. -/
theorem State.recallRestored_resumesAt {s : State} {q l p : Nat} {n : Snapshot}
    (hmem : (l, n) ∈ (s.part q).snapshots) (hp : s.physOf l = some p)
    (hone : ∀ e ∈ (s.part q).snapshots, s.physOf e.1 = some p → e = (l, n)) :
    ((s.recallRestored q).core p).ResumesAt n :=
  eachDo_establishes (I := fun t => ∀ k, t.physOf k = s.physOf k) (P := fun t => (t.core p).ResumesAt n)
    (fun e _ t ht k => ((t.restoreCore_coresOnly e).physOf k).trans (ht k))
    (fun t ht => State.restoreCore_resumesAt (e := (l, n)) ((ht l).trans hp))
    (fun e he t ht hres => by
      by_cases hek : t.physOf e.1 = some p
      · obtain rfl := hone e he ((ht e.1).symm.trans hek)
        exact State.restoreCore_resumesAt hek
      · rw [State.restoreCore_core hek]
        exact hres)
    hmem fun _ => rfl

/-! The three endings. -/

theorem State.recallMarked_none {s : State} {r : Recovery} (h : r.quarantine = []) : s.recallMarked r = s := by
  rw [State.recallMarked, h]
  rfl

theorem State.recallBase_part {s : State} {q : Nat} {r : Recovery} (h : r.quarantine = []) :
    (s.recallBase q r).part q = (s.part q).recalledBy r := by
  rw [State.recallBase, State.modPart_eq, State.setPart_part, if_pos rfl, (State.recallRestored_coresOnly _ q).part,
    State.recallStep4_part, State.recallMarked_none h]

theorem State.recallBase_physOf {s : State} {q : Nat} {r : Recovery} (h : r.quarantine = []) (l : Nat) :
    (s.recallBase q r).physOf l = s.physOf l := by
  rw [State.recallBase, State.modPart_eq, State.setPart_physOf, (State.recallRestored_coresOnly _ q).physOf,
    State.recallStep4_physOf, State.recallMarked_none h]

theorem State.recallBase_core {s : State} {q : Nat} {r : Recovery} (h : r.quarantine = []) (p : Nat) :
    (s.recallBase q r).core p = ((s.recallStep4 q).recallRestored q).core p := by
  rw [State.recallBase, State.modPart_eq, State.setPart_core, State.recallMarked_none h]

theorem State.recallBase_sparesExhausted {s : State} {q : Nat} {r : Recovery} (h : r.quarantine = []) :
    (s.recallBase q r).sparesExhausted q = s.sparesExhausted q := by
  have hphys : (s.recallBase q r).physOf = s.physOf := funext (State.recallBase_physOf h)
  rw [State.sparesExhausted, State.sparesExhausted, State.recallBase_part h, hphys]
  rfl

/-- Holds leave the states of partitions as they are. -/
theorem State.msHold_part (s : State) (q r : Nat) (v : Bool) :
    ((s.msHold q v).part r).st = (s.part r).st ∧ ((s.msHold q v).part r).reason = (s.part r).reason := by
  have hmod (t : State) (k : Nat) (g : Part → Part) (hg : ∀ x : Part, (g x).st = x.st ∧ (g x).reason = x.reason)
      (ht : (t.part r).st = (s.part r).st ∧ (t.part r).reason = (s.part r).reason) :
      ((t.modPart k g).part r).st = (s.part r).st ∧ ((t.modPart k g).part r).reason = (s.part r).reason := by
    rw [State.modPart_eq, State.setPart_part]
    split
    · next heq => exact ⟨(hg _).1.trans (heq ▸ ht.1), (hg _).2.trans (heq ▸ ht.2)⟩
    · exact ht
  have hheld := hmod s q (fun x => { x with holding := v }) (fun _ => ⟨rfl, rfl⟩) ⟨rfl, rfl⟩
  unfold State.msHold
  split
  · exact ⟨rfl, rfl⟩
  · dsimp only
    split
    · unfold State.holdJob
      rw [((State.ReportsOnly.refl _).msDown q _).reads (f := fun x => x.part r) rfl]
      exact eachDo_induct (P := fun t => (t.part r).st = (s.part r).st ∧ (t.part r).reason = (s.part r).reason)
        (fun k _ t ht => hmod t k _ (fun _ => ⟨rfl, rfl⟩) ht) hheld
    · rw [((State.ReportsOnly.refl _).msUp q _).reads (f := fun x => x.part r) rfl]
      exact hheld

theorem State.recallEnd_pauses {s : State} {q : Nat} {r : Recovery} (h : s.sparesExhausted q = true) :
    ((s.recallEnd q r).part q).st = .paused ∧ ((s.recallEnd q r).part q).reason = 1 := by
  unfold State.recallEnd
  rw [if_pos h]
  obtain ⟨hst, hreason⟩ := ((s.setPartSt q .paused 1 0).logPart q 0x1006 scOk r.core).msHold_part q q true
  rw [hst, hreason, ((State.ReportsOnly.refl _).logPart q 0x1006 scOk r.core).reads (f := fun x => x.part q) rfl,
    State.setPartSt_part_self]
  exact ⟨rfl, rfl⟩

theorem State.recallEnd_runs {s : State} {q : Nat} {r : Recovery} (h : s.sparesExhausted q = false)
    (hstart : (s.part q).rpStart = true) :
    (s.recallEnd q r).part q = (s.part q).recovered.inState .running 0 0 := by
  unfold State.recallEnd
  rw [if_neg (ne_true_of_eq_false h), if_pos hstart, State.setPartSt_part_self, State.modPart_eq, State.setPart_part,
    if_pos rfl]

theorem State.recallEnd_waits {s : State} {q : Nat} {r : Recovery} (h : s.sparesExhausted q = false)
    (hstart : (s.part q).rpStart = false) : s.recallEnd q r = s := by
  unfold State.recallEnd
  rw [if_neg (ne_true_of_eq_false h), if_neg (ne_true_of_eq_false hstart)]

/-- A core of the partition after a recall that quarantines none. -/
theorem State.finishRecall_step4 {s : State} {q p : Nat} {r : Recovery} (h : r.quarantine = [])
    (hp : p ∈ s.physOfPart q) : ((s.finishRecall q r).core p).Step4 := by
  obtain ⟨g, hg⟩ := ((s.recallBase q r).recallEnd_moves q r).core p
  have hbase : ((s.recallBase q r).core p).Step4 := by
    rw [State.recallBase_core h]
    refine State.recallRestored_step4 ?_
    rw [State.recallStep4_core]
    exact State.coresStep4_core hp
  rw [State.finishRecall_eq, hg]
  exact hbase.modGaps g

theorem State.finishRecall_resumesAt {s : State} {q l p : Nat} {n : Snapshot} {r : Recovery} (h : r.quarantine = [])
    (hmem : (l, n) ∈ (s.part q).snapshots) (hp : s.physOf l = some p)
    (hone : ∀ e ∈ (s.part q).snapshots, s.physOf e.1 = some p → e = (l, n)) :
    ((s.finishRecall q r).core p).ResumesAt n := by
  obtain ⟨g, hg⟩ := ((s.recallBase q r).recallEnd_moves q r).core p
  have hbase : ((s.recallBase q r).core p).ResumesAt n := by
    rw [State.recallBase_core h]
    refine State.recallRestored_resumesAt (l := l) ?_ ?_ ?_
    · rw [State.recallStep4_part]
      exact hmem
    · rw [State.recallStep4_physOf]
      exact hp
    · intro e
      rw [State.recallStep4_part, State.recallStep4_physOf]
      exact hone e
  rw [State.finishRecall_eq, hg]
  exact hbase.modGaps g

theorem State.finishRecall_runs {s : State} {q : Nat} {r : Recovery} (h : r.quarantine = [])
    (hspares : s.sparesExhausted q = false) (hstart : (s.part q).rpStart = true) :
    (s.finishRecall q r).part q = ((s.part q).recalledBy r).recovered.inState .running 0 0 := by
  have hpart : (s.recallBase q r).part q = (s.part q).recalledBy r := State.recallBase_part h
  rw [State.finishRecall_eq, State.recallEnd_runs ((State.recallBase_sparesExhausted h).trans hspares)
    (hpart ▸ hstart), hpart]

theorem State.finishRecall_waits {s : State} {q : Nat} {r : Recovery} (h : r.quarantine = [])
    (hspares : s.sparesExhausted q = false) (hstart : (s.part q).rpStart = false) :
    (s.finishRecall q r).part q = (s.part q).recalledBy r := by
  have hpart : (s.recallBase q r).part q = (s.part q).recalledBy r := State.recallBase_part h
  rw [State.finishRecall_eq, State.recallEnd_waits ((State.recallBase_sparesExhausted h).trans hspares)
    (hpart ▸ hstart), hpart]

/-- A partition's state after the switch that a STOP began, with the STOP completed. -/
theorem State.stopped_part (s : State) (q r : Nat) (c : CmdRef) :
    (((s.finishSwitch q).complete c scOk 0 0).part r) = if r = q then (s.part q).switchedOut else s.part r := by
  rw [((State.ReportsOnly.refl _).complete c scOk 0 0).reads (f := fun x => x.part r) rfl, State.finishSwitch_part]

theorem State.stopped_core {s : State} {q p : Nat} (c : CmdRef) (hp : p ∈ s.physOfPart q) :
    (((s.finishSwitch q).complete c scOk 0 0).core p).IsCleared .idle := by
  rw [((State.ReportsOnly.refl _).complete c scOk 0 0).reads (f := fun x => x.core p) rfl]
  exact State.finishSwitch_core hp

theorem State.stopped_die {s : State} {q n : Nat} (c : CmdRef) (hn : n < 12) :
    (((s.finishSwitch q).complete c scOk 0 0).die n).NoBufs q := by
  rw [((State.ReportsOnly.refl _).complete c scOk 0 0).reads (f := fun x => x.die n) rfl]
  exact State.finishSwitch_die hn

theorem State.stopped_mem (s : State) (q : Nat) (c : CmdRef) :
    ((s.finishSwitch q).complete c scOk 0 0).mem = s.mem := by
  rw [((State.ReportsOnly.refl _).complete c scOk 0 0).reads (f := State.mem) rfl, State.finishSwitch_mem]

/-- Settles O27: the end of a switch clears the partition; the end of a recall restores it to its replay point. -/
theorem switchesComplete : Obligations.SwitchesComplete := by
  intro s q c r old hclk
  constructor
  · intro hq hrecalled hsw htake
    have hexec : exec (.contextSwitchDone q) s = .next ((s.finishSwitch q).complete c scOk 0 0) := by
      simp only [exec, execContextSwitchDone, if_pos (And.intro hclk (And.intro hq hrecalled)),
        State.switchDone_stop hsw htake]
    refine ⟨_, hexec, rfl, ?_⟩
    rw [(s.stopped_part q q c).trans (if_pos rfl)]
    refine ⟨rfl, rfl, rfl, rfl, rfl, rfl, rfl, rfl, rfl, rfl, rfl, rfl, rfl, rfl, rfl, fun p hp => ?_,
      fun n hn => State.stopped_die c hn, fun k hk => (s.stopped_part q k c).trans (if_neg hk), s.stopped_mem q c⟩
    obtain ⟨c', g, hcleared⟩ := State.stopped_core c hp
    rw [hcleared]
    exact ⟨rfl, rfl, rfl, rfl, rfl, rfl, rfl, rfl, rfl, rfl⟩
  · intro hrec hcall hlocal
    have hexec : exec (.recoveryRecallDone q) s = .next (s.finishRecall q r) := by
      have hrec' : (s.part q).recovery = some r := hrec
      simp only [exec, execRecoveryRecallDone, hrec', if_pos (And.intro hclk (And.intro hcall hlocal))]
    refine ⟨_, hexec, fun p hp => State.finishRecall_marks hp, fun hnone => ⟨
      fun p hp => State.finishRecall_step4 hnone hp, fun l p n hmem hp hone => State.finishRecall_resumesAt hnone hmem hp hone,
      ?paused, ?running, ?waiting⟩⟩
    case paused =>
      intro hspares
      rw [State.finishRecall_eq]
      exact State.recallEnd_pauses ((State.recallBase_sparesExhausted hnone).trans hspares)
    case running =>
      intro hspares hstart
      rw [State.ms, State.finishRecall_runs hnone hspares hstart]
      exact ⟨rfl, rfl, rfl⟩
    case waiting =>
      intro hspares hstart
      rw [State.finishRecall_waits hnone hspares hstart]
      exact ⟨rfl, rfl⟩

end Sys2Proof.Machine
end

section
/-!
PROOFS. The end of an itinerary and notes to the host (R147, R151, R411, R415), and the statement O6.
-/

namespace Sys2Proof.Machine

/-! What a completion writes (R411). -/

theorem State.cqInterrupt_mem (s : State) (f q : Nat) : (s.cqInterrupt f q).host.mem = s.host.mem :=
  State.cqInterrupt_cases (P := fun t => t.host.mem = s.host.mem) rfl fun _ _ _ => rfl

theorem State.cqStored_mem (s : State) (f q : Nat) (e : Cqe) :
    (s.cqStored f q e).host.mem
      = tabPutList 0 s.host.mem ((s.queue f q).cqBase.toNat + 32 * (s.queue f q).cqTail)
          (e.bytes (s.queue f q).phase (s.queue f q).sqHead s.now) := by
  simp only [State.cqStored, State.hostWrite]

theorem State.setQueue_host (s : State) (f q : Nat) (y : Queue) : (s.setQueue f q y).host = s.host := rfl

theorem State.cqWrite_mem (s : State) (f q : Nat) (e : Cqe) :
    (s.cqWrite f q e).host.mem
      = tabPutList 0 s.host.mem ((s.queue f q).cqBase.toNat + 32 * (s.queue f q).cqTail)
          (e.bytes (s.queue f q).phase (s.queue f q).sqHead s.now) := by
  rw [State.cqWrite_eq, State.cqInterrupt_mem, State.setQueue_host, State.cqStored_mem]

theorem State.setQueue_queue_ne {s : State} {f q f' q' : Nat} (y : Queue) (h : f' ≠ f ∨ q' ≠ q) :
    (s.setQueue f q y).queue f' q' = s.queue f' q' := by
  rw [State.setQueue_queue, if_neg (by tauto)]

theorem State.cqInterrupt_queue {s : State} {f q f' q' : Nat} (h : f' ≠ f ∨ q' ≠ q) :
    (s.cqInterrupt f q).queue f' q' = s.queue f' q' :=
  State.cqInterrupt_cases (P := fun t => t.queue f' q' = s.queue f' q') rfl fun _ _ _ => State.setQueue_queue_ne _ h

theorem State.cqWrite_queue {s : State} {f q f' q' : Nat} (e : Cqe) (h : f' ≠ f ∨ q' ≠ q) :
    (s.cqWrite f q e).queue f' q' = s.queue f' q' := by
  rw [State.cqWrite_eq, State.cqInterrupt_queue h, State.setQueue_queue_ne _ h, State.cqStored_queue]

/-- The queue with one descriptor less in flight. -/
def Queue.released (y : Queue) : Queue := { y with taken := y.taken - 1 }.refresh

/-- The entry that completes a command. -/
def CmdRef.entry (c : CmdRef) (status : Nat) (r0 r1 : DWord) : Cqe :=
  { cid := c.cid, status := st8 status, kind := 0, queue := c.q, result0 := r0, result1 := r1 }

theorem State.complete_eq (s : State) (c : CmdRef) (status : Nat) (r0 r1 : DWord) :
    s.complete c status r0 r1
      = if (s.queue c.fn c.q).en && !(s.queue c.fn c.q).error then
          (s.setQueue c.fn c.q (s.queue c.fn c.q).released).cqWrite c.fn c.q (c.entry status r0 r1)
        else s.setQueue c.fn c.q (s.queue c.fn c.q).released := rfl

theorem State.complete_queue {s : State} {c : CmdRef} {status : Nat} {r0 r1 : DWord} {f q : Nat}
    (h : f ≠ c.fn ∨ q ≠ c.q) : (s.complete c status r0 r1).queue f q = s.queue f q := by
  rw [State.complete_eq]
  split
  · rw [State.cqWrite_queue _ h, State.setQueue_queue_ne _ h]
  · exact State.setQueue_queue_ne _ h

/-- The completion entry of a command in the host's memory. -/
theorem State.complete_mem {s : State} {c : CmdRef} {status : Nat} {r0 r1 : DWord}
    (hen : (s.queue c.fn c.q).en = true) (herr : (s.queue c.fn c.q).error = false) :
    (s.complete c status r0 r1).host.mem
      = tabPutList 0 s.host.mem ((s.queue c.fn c.q).cqBase.toNat + 32 * (s.queue c.fn c.q).cqTail)
          ((c.entry status r0 r1).bytes (s.queue c.fn c.q).phase (s.queue c.fn c.q).sqHead s.now) := by
  have hwritten : ((s.queue c.fn c.q).en && !(s.queue c.fn c.q).error) = true := by rw [hen, herr]; rfl
  rw [State.complete_eq, if_pos hwritten, State.cqWrite_mem, State.setQueue_queue, if_pos ⟨rfl, rfl⟩,
    State.setQueue_host]
  rfl

/-! Notes (R415). -/

theorem State.setCore_cqInterrupt (s : State) (p : Nat) (c : Core) (f q : Nat) :
    (s.setCore p c).cqInterrupt f q = (s.cqInterrupt f q).setCore p c := by
  simp only [State.cqInterrupt, apply_ite (fun t : State => t.setCore p c)]
  rfl

theorem State.setCore_cqStored (s : State) (p : Nat) (c : Core) (f q : Nat) (e : Cqe) :
    (s.setCore p c).cqStored f q e = (s.cqStored f q e).setCore p c := by
  simp only [State.cqStored, State.hostWrite, State.setCore]
  rfl

theorem State.setQueue_setCore (s : State) (p : Nat) (c : Core) (f q : Nat) (y : Queue) :
    (s.setCore p c).setQueue f q y = (s.setQueue f q y).setCore p c := rfl

theorem State.setCore_cqWrite (s : State) (p : Nat) (c : Core) (f q : Nat) (e : Cqe) :
    (s.setCore p c).cqWrite f q e = (s.cqWrite f q e).setCore p c := by
  rw [State.cqWrite_eq, State.cqWrite_eq, ← State.setCore_cqInterrupt, State.setCore_cqStored, State.setQueue_setCore,
    State.setCore_queue]

theorem State.setCore_logSeraiAt (s : State) (p : Nat) (c : Core) (code status : Nat) (part : Option Nat)
    (args snaps : List Word) :
    (s.setCore p c).logAt .serai code status part args snaps
      = (s.logAt .serai code status part args snaps).setCore p c := by
  simp only [State.logAt, apply_ite (fun t : State => t.setCore p c)]
  rfl

theorem State.setCore_dropNote (s : State) (p : Nat) (c : Core) (f q : Nat) :
    (s.setCore p c).dropNote f q = (s.dropNote f q).setCore p c :=
  State.setCore_logSeraiAt (s.modFn f (fun x => { x with evtDrops := satAdd x.evtDrops 1 })) p c _ _ _ _ _

/-- A delivery neither reads nor changes a core. -/
theorem State.setCore_deliver (s : State) (p : Nat) (c : Core) (f : Nat) (e : Cqe) :
    (s.setCore p c).deliver f e = (s.deliver f e).setCore p c := by
  simp only [State.deliver, State.setCore_queue, State.setCore_cqWrite, State.setCore_dropNote,
    apply_ite (fun t : State => t.setCore p c)]
  rfl

theorem State.deliver_written {s : State} {f : Nat} {e : Cqe} (hq : (s.queue f e.queue).takesNotes = true)
    (hheld : (s.fn f).held = []) (hfree : 0 < (s.queue f e.queue).freeSlots) :
    s.deliver f e = s.cqWrite f e.queue e := by
  simp only [State.deliver, hq, hheld, hfree, Bool.not_true, Bool.false_eq_true, if_false, List.isEmpty_nil,
    decide_true, Bool.and_self, if_true]

/-- Where a note must wait, it is not written. -/
theorem State.deliver_waits {s : State} {f : Nat} {e : Cqe}
    (hfull : (s.fn f).held ≠ [] ∨ (s.queue f e.queue).freeSlots = 0) :
    ¬ ((s.fn f).held.isEmpty && decide (0 < (s.queue f e.queue).freeSlots)) = true := by
  rw [Bool.and_eq_true, List.isEmpty_iff, decide_eq_true_iff]
  rintro ⟨hnil, hfree⟩
  rcases hfull with hheld | hnone
  · exact hheld hnil
  · omega

theorem State.deliver_held {s : State} {f : Nat} {e : Cqe} (hq : (s.queue f e.queue).takesNotes = true)
    (hfull : (s.fn f).held ≠ [] ∨ (s.queue f e.queue).freeSlots = 0) (hlen : (s.fn f).held.length < 64) :
    s.deliver f e = s.modFn f (fun x => { x with held := x.held ++ [e] }) := by
  simp only [State.deliver, hq, if_neg (State.deliver_waits hfull), if_pos hlen, Bool.not_true, Bool.false_eq_true,
    if_false]

theorem State.deliver_dropped {s : State} {f : Nat} {e : Cqe}
    (h : (s.queue f e.queue).takesNotes = false
      ∨ ((s.fn f).held ≠ [] ∨ (s.queue f e.queue).freeSlots = 0) ∧ 64 ≤ (s.fn f).held.length) :
    s.deliver f e = s.dropNote f e.queue := by
  unfold State.deliver
  dsimp only
  split
  · rfl
  · next hq =>
    obtain ⟨hfull, hlen⟩ := h.resolve_left fun hno => hq (by rw [hno]; rfl)
    rw [if_neg (State.deliver_waits hfull), if_neg (Nat.not_lt.mpr hlen)]

/-- The note of a HOSTNOTE (R415). -/
def hostNote (queue : BitVec 8) (payload : Word) (core part pc : Nat) : Cqe :=
  { cid := 0xFFFF, status := 0, kind := 1, queue := queue.toNat,
    result0 := w64 (payload.toNat + 2 ^ 32 * core + 2 ^ 40 * part), result1 := w64 pc }

/-- A HOSTNOTE that issues delivers its note and goes on. -/
theorem exec_hostnote_delivers {s : State} {i : Issue} {p : Nat} {queue : BitVec 8} {payload : Word}
    (h : s.Issues i.core (.hostnote i queue payload) p ((s.core p).pc + 1)) (hf : (s.core p).fence = none) :
    exec (.hostnote i queue payload) s
      = .next ((s.deliver (s.fnOfPart (s.partNo i.core))
          (hostNote queue payload i.core (s.partNo i.core) (s.core p).pc)).setCore p
            ((s.core p).issuedTo ((s.core p).pc + 1))) := by
  have hpc : ((s.counted p).core p).pc = (s.core p).pc := by rw [State.counted_core]; rfl
  have hfn : (s.counted p).fnOfPart (s.partNo i.core) = s.fnOfPart (s.partNo i.core) := State.setCore_fnOfPart _ _ _ _
  have hinside : ((s.core p).issuedTo (s.core p).pc).pc + 1 < ((s.core p).issuedTo (s.core p).pc).insns.length :=
    h.lt_length
  have hdone : ((s.counted p).deliver (s.fnOfPart (s.partNo i.core))
      (hostNote queue payload i.core (s.partNo i.core) (s.core p).pc)).advance p i.stm
        = (s.deliver (s.fnOfPart (s.partNo i.core))
          (hostNote queue payload i.core (s.partNo i.core) (s.core p).pc)).setCore p
            ((s.core p).issuedTo ((s.core p).pc + 1)) := by
    rw [State.counted, State.setCore_deliver, State.set_advance _ hinside]
    rfl
  simp only [exec, execHostnote, h.1, State.issueWrite_unfenced _ h hf, State.counted_partNo, hpc, hfn]
  exact congrArg Host.Outcome.next hdone

/-- With a FENCE in progress it waits for it (R168). -/
theorem exec_hostnote_waits {s : State} {i : Issue} {p pc : Nat} {queue : BitVec 8} {payload : Word}
    (h : s.Issues i.core (.hostnote i queue payload) p pc) (hf : (s.core p).fence ≠ none)
    (htr : (s.core p).traces 1 = false) :
    exec (.hostnote i queue payload) s
      = .next (s.setCore p { s.core p with wait := .fence, waitSince := s.dieNow (p / 22), waitStm := i.stm }) := by
  obtain ⟨fence, hfence⟩ := Option.ne_none_iff_exists'.mp hf
  simp only [exec, execHostnote, h.1, State.issueWrite, hfence, State.beginWait_off htr]

/-! The end of an itinerary (R147, R151). -/

/-- From `s` to `t` at most gap marks of cores, partitions and the host's messages have changed. -/
def State.Signalled (s t : State) : Prop :=
  t = { s with cores := t.cores, parts := t.parts, host := { s.host with msix := t.host.msix } }

namespace State.Signalled

variable {s t u : State}

theorem refl (s : State) : s.Signalled s := rfl

theorem trans (h : s.Signalled t) (k : t.Signalled u) : s.Signalled u :=
  Eq.trans k (congrArg (fun x : State => { x with
    cores := u.cores, parts := u.parts, host := { x.host with msix := u.host.msix } }) h)

theorem reads {α : Type} {f : State → α}
    (hf : ∀ cores parts msix,
      f { s with cores := cores, parts := parts, host := { s.host with msix := msix } } = f s)
    (h : s.Signalled t) : f t = f s := (congrArg f h).trans (hf _ _ _)

theorem modCore (p : Nat) (g : Core → Core) (h : s.Signalled t) : s.Signalled (t.modCore p g) :=
  h.trans (u := t.modCore p g) rfl

theorem modPart (q : Nat) (g : Part → Part) (h : s.Signalled t) : s.Signalled (t.modPart q g) :=
  h.trans (u := t.modPart q g) rfl

theorem gateCores (q : Nat) (on : Bool) (h : s.Signalled t) : s.Signalled (t.gateCores q on) := by
  unfold State.gateCores
  exact eachDo_induct (P := s.Signalled) (fun p _ _ hu => hu.modCore p _) h

theorem partChanged (q : Nat) (h : s.Signalled t) : s.Signalled (t.partChanged q) := by
  unfold State.partChanged
  split
  · next f _ => exact h.trans (u := t.msix0 f) rfl
  · exact h

end State.Signalled

/-- A change that keeps every PLL as it is leaves CK_UPD alone (R333). -/
theorem State.gateUpd_same {s old : State} (h : ∀ n, old.pllOn n = s.pllOn n) : s.gateUpd old = s := by
  have hnone : (List.range 12).filter (fun n => old.pllOn n != s.pllOn n) = [] :=
    List.filter_eq_nil_iff.mpr fun n _ => by rw [h n, bne_self_eq_false]; exact Bool.false_ne_true
  rw [State.gateUpd, hnone]
  rfl

/-- Which PLLs run depends on the partitions' states and images. -/
theorem State.pllOn_congr {s t : State} (hclk : t.clocked = s.clocked)
    (hpart : ∀ r, (t.part r).pll = (s.part r).pll ∧ (t.part r).usedCores = (s.part r).usedCores) (n : Nat) :
    t.pllOn n = s.pllOn n := by
  unfold State.pllOn
  rw [hclk]
  congr 1
  exact congrArg (List.any _) (funext fun r => by rw [(hpart r).1, (hpart r).2])

/-- From RUNNING to LOADED the PLLs run on (R334). -/
theorem Part.loaded_pll {x : Part} (hst : x.st = .running) (hsw : x.switching = none) :
    (x.inState .loaded 0 0).pll = x.pll := by
  have hsw' : (x.inState .loaded 0 0).switching = none := hsw
  have hst' : (x.inState .loaded 0 0).st = .loaded := rfl
  simp only [Part.pll, hsw, hsw', hst, hst']

theorem State.setLoaded_signalled {s : State} {q : Nat} (hst : (s.part q).st = .running)
    (hsw : (s.part q).switching = none) : s.Signalled (s.setPartSt q .loaded 0 0) := by
  have hgated : s.Signalled (((s.modPart q (fun x => x.inState .loaded 0 0)).gateCores q false)) :=
    ((State.Signalled.refl s).modPart q _).gateCores q false
  have hparts (r : Nat) : ((s.modPart q (fun x => x.inState .loaded 0 0)).gateCores q false).part r
      = if r = q then (s.part q).inState .loaded 0 0 else s.part r := by
    rw [((State.Signals.refl _).gateCores q false).part, State.modPart_eq, State.setPart_part]
  have hpll (n : Nat) : s.pllOn n = ((s.modPart q (fun x => x.inState .loaded 0 0)).gateCores q false).pllOn n := by
    refine (State.pllOn_congr (hgated.reads fun _ _ _ => rfl) (fun r => ?_) n).symm
    rw [hparts]
    split
    · next heq =>
      rw [heq]
      exact ⟨Part.loaded_pll hst hsw, rfl⟩
    · exact ⟨rfl, rfl⟩
  have hall : s.Signalled (s.gatedSt q .loaded 0 0) := by
    rw [State.gatedSt]
    exact (State.gateUpd_same hpll).symm ▸ hgated
  rw [State.setPartSt_eq]
  split
  · exact hall
  · exact hall.partChanged q

theorem State.finishStart_eq {s : State} {q status : Nat} {c : CmdRef} (h : (s.part q).start = some c) :
    s.finishStart q status
      = (s.modPart q Part.noStart).complete c status ((s.part q).rpWord.setWidth 64) 0 := by
  simp only [State.finishStart, h]
  rfl

theorem State.itineraryDone_part (s : State) (q r : Nat) :
    (s.itineraryDone q).part r = if r = q then ((s.part q).inState .loaded 0 0).noStart else s.part r := by
  rw [State.itineraryDone, State.finishStart_part, State.setPartSt_part, if_pos rfl, State.setPartSt_part]
  split <;> rfl

theorem State.itineraryDone_core (s : State) (q p : Nat) : ∃ g, (s.itineraryDone q).core p = (s.core p).modGaps g :=
  (((State.PartsMove.refl s).setPartSt q .loaded 0 0).finishStart q scOk).core p

/-- A partition's state before the completion of its START. -/
def State.loadedBase (s : State) (q : Nat) : State := (s.setPartSt q .loaded 0 0).modPart q Part.noStart

theorem State.itineraryDone_eq {s : State} {q : Nat} {c : CmdRef} (h : (s.part q).start = some c) :
    s.itineraryDone q = (s.loadedBase q).complete c scOk ((s.part q).rpWord.setWidth 64) 0 := by
  have hpart : (s.setPartSt q .loaded 0 0).part q = (s.part q).inState .loaded 0 0 := s.setPartSt_part_self q _ _ _
  have hstart : ((s.setPartSt q .loaded 0 0).part q).start = some c := by
    rw [hpart]
    exact h
  rw [State.itineraryDone, State.finishStart_eq hstart, hpart]
  rfl

section Loaded

variable {s : State} {q : Nat} (hst : (s.part q).st = .running) (hsw : (s.part q).switching = none)
include hst hsw

theorem State.loadedBase_signalled : s.Signalled (s.loadedBase q) := (State.setLoaded_signalled hst hsw).modPart q _

theorem State.loadedBase_queue (f k : Nat) : (s.loadedBase q).queue f k = s.queue f k :=
  (State.loadedBase_signalled hst hsw).reads (f := fun x => x.queue f k) fun _ _ _ => rfl

theorem State.loadedBase_hostMem : (s.loadedBase q).host.mem = s.host.mem :=
  (State.loadedBase_signalled hst hsw).reads (f := fun x => x.host.mem) fun _ _ _ => rfl

theorem State.loadedBase_now : (s.loadedBase q).now = s.now :=
  (State.loadedBase_signalled hst hsw).reads (f := State.now) fun _ _ _ => rfl

/-- Beside cores, partitions, queues and the host, a completed START changes nothing. -/
theorem State.loadedCompleted_frame {t : State} (h : (s.loadedBase q).HostOnly t) :
    t = { s with cores := t.cores, parts := t.parts, host := t.host, fns := t.fns } := by
  obtain ⟨cores, parts, host, hbase⟩ : ∃ cores parts host,
      s.loadedBase q = { s with cores := cores, parts := parts, host := host } :=
    ⟨_, _, _, State.loadedBase_signalled hst hsw⟩
  obtain ⟨fns, host', rfl⟩ : ∃ fns host', t = { s.loadedBase q with fns := fns, host := host' } := ⟨_, _, h⟩
  rw [hbase]

end Loaded

/-- Settles O6: the end of an itinerary is a change of state and a completion; a HOSTNOTE is a delivery. -/
theorem endAndNotesComplete : Obligations.EndAndNotesComplete := by
  constructor
  · intro s part c y x e hclk hst hsw hdone hstart
    have hexec : exec (.itineraryDone part) s = .next (s.itineraryDone part) :=
      congrArg Host.Outcome.next (if_pos ⟨hclk, hst, hsw, hdone⟩)
    have hcomplete := State.itineraryDone_eq hstart
    refine ⟨_, hexec, (s.itineraryDone_part part part).trans (if_pos rfl), fun hen herr => ?mem,
      fun r hr => (s.itineraryDone_part part r).trans (if_neg hr), s.itineraryDone_core part, fun f q hfq => ?queue,
      ?frame⟩
    case mem =>
      have hq := State.loadedBase_queue hst hsw c.fn c.q
      rw [hcomplete, State.complete_mem (hq ▸ hen) (hq ▸ herr), hq, State.loadedBase_hostMem hst hsw,
        State.loadedBase_now hst hsw]
      rfl
    case queue => rw [hcomplete, State.complete_queue hfq, State.loadedBase_queue hst hsw]
    case frame =>
      rw [hcomplete]
      exact State.loadedCompleted_frame hst hsw ((State.HostOnly.refl _).complete _ _ _ _)
  · intro s i p queue payload q f y full e next h
    have hissue (hf : (s.core p).fence = none) (t : State) (ht : s.deliver f e = t) : next t :=
      (exec_hostnote_delivers h hf).trans (congrArg (fun u : State =>
        (.next (u.setCore p ((s.core p).issuedTo ((s.core p).pc + 1))) : Host.Outcome State Fault Refusal)) ht)
    refine ⟨fun hf => ⟨fun hq hheld hfree => ⟨hissue hf _ (State.deliver_written hq hheld hfree), s.cqWrite_mem f _ e⟩,
      fun hq hfull hlen => hissue hf _ (State.deliver_held hq hfull hlen),
      fun hdrop => hissue hf _ (State.deliver_dropped hdrop)⟩, fun hf htr => exec_hostnote_waits h hf htr⟩

end Sys2Proof.Machine
end

section
/-!
PROOFS. Fences and the end of a core's instructions (chapter 5 of the spec), and the statement O5.
-/

namespace Sys2Proof.Machine

/-! FENCE, FENCE_COMPLETE and HALT (R147, R168, R170). -/

theorem exec_fence_covers {s : State} {i : Issue} {p : Nat}
    (h : s.Issues i.core (.fence i) p ((s.core p).pc + 1)) :
    exec (.fence i) s = .next (s.setCore p { (s.core p).issuedTo ((s.core p).pc + 1) with
      fence := some ((s.core p).ops.map (fun o => o.id)) }) := by
  simp only [exec, execFence, h.1, State.issued_counted h, State.counted_modCore]
  exact congrArg Host.Outcome.next (State.set_advance _ h.lt_length)

/-- A FENCE is complete once no operation that it covers is outstanding (R168). -/
theorem Core.fenceDone {c : Core} {l : List Nat} (h : ∀ o ∈ c.ops, o.id ∉ l) :
    c.ops.all (fun o => !l.contains o.id) = true := by
  simpa using h

/-- Core `c` with no FENCE in progress. -/
def Core.unfenced (c : Core) : Core := { c with fence := none }

/-- A wait for the FENCE ends with it. -/
theorem exec_fenceComplete_wakes {s : State} {core p : Nat} {l : List Nat} (hw : s.waiting core = some p)
    (hf : (s.core p).fence = some l) (hops : ∀ o ∈ (s.core p).ops, o.id ∉ l) (htr : (s.core p).traces 1 = false)
    (hwait : (s.core p).wait = .fence) :
    exec (.fenceComplete core) s = .next (s.setCore p (s.core p).unfenced.unwaiting) := by
  have hexec : exec (.fenceComplete core) s = .next ((s.setCore p (s.core p).unfenced).endWait p) := by
    simp only [exec, execFenceComplete, hw, hf, Core.fenceDone hops, if_true, hwait]
    rfl
  have hcore : (s.setCore p (s.core p).unfenced).core p = (s.core p).unfenced := by
    rw [State.setCore_core, if_pos rfl]
  rw [hexec, State.endWait_off (by rwa [hcore]), hcore, State.setCore_setCore]
  rfl

/-- Where the core does not wait for its FENCE, the FENCE alone ends. -/
theorem exec_fenceComplete_ends {s : State} {core p : Nat} {l : List Nat} (hw : s.waiting core = some p)
    (hf : (s.core p).fence = some l) (hops : ∀ o ∈ (s.core p).ops, o.id ∉ l) (hwait : (s.core p).wait ≠ .fence) :
    exec (.fenceComplete core) s = .next (s.setCore p (s.core p).unfenced) := by
  simp only [exec, execFenceComplete, hw, hf, Core.fenceDone hops, if_true]
  rfl

theorem exec_halt_done {s : State} {i : Issue} {p : Nat} (h : s.Issues i.core (.halt i) p (s.core p).pc) :
    exec (.halt i) s = .next (s.setCore p { (s.core p).issuedTo (s.core p).pc with st := .done }) := by
  simp only [exec, execHalt, h.1, State.issued_counted h, State.counted_modCore]

/-- Settles O5: a fence covers what is outstanding, ends with it and ends a wait on it; HALT ends the core's run. -/
theorem fenceHaltComplete : Obligations.FenceHaltComplete :=
  fun _ _ _ _ _ => ⟨exec_fence_covers,
    fun hw hf hops htr => ⟨exec_fenceComplete_wakes hw hf hops htr, exec_fenceComplete_ends hw hf hops⟩,
    exec_halt_done⟩

end Sys2Proof.Machine
end

section
/-!
PROOFS. MSARRIVE, local arrivals and the releases that nothing else acts at (chapter 6 of the spec), and the statements
O8 and O9.
-/

namespace Sys2Proof.Machine

/-! Objects. -/

/-- An object that core `l` is on its way to (R172). -/
def MsObj.expecting (y : MsObj) (l : Nat) : MsObj := { y with coming := y.coming ++ [l] }

/-- An object whose counter has taken the arrival of core `l` (R173). -/
def MsObj.counting (y : MsObj) (l : Nat) (now : DWord) : MsObj :=
  { (y.started now) with
    coming := y.coming.filter (· != l), arrived := y.arrived ++ [l], phase := if y.phase = 0 then 1 else y.phase }

theorem State.modObj_ms (s : State) (q o : Nat) (g : MsObj → MsObj) :
    (s.modObj q o g).ms q = { s.ms q with objs := tabSet (s.ms q).objs o (g (s.obj q o)) } := by
  simp only [State.modObj, State.ms, State.obj, State.modMs_eq, State.setPart_part, if_true]

theorem State.modObj_obj (s : State) (q o : Nat) (g : MsObj → MsObj) : (s.modObj q o g).obj q o = g (s.obj q o) := by
  rw [State.obj, State.modObj_ms, Milestones.obj, tabGet_tabSet, if_pos rfl]

theorem MsObj.started_jobwide (y : MsObj) (now : DWord) : (y.started now).jobwide = y.jobwide := by
  unfold MsObj.started
  split <;> rfl

theorem State.modObj_part (s : State) (q o : Nat) (g : MsObj → MsObj) :
    ∃ m, (s.modObj q o g).part q = { s.part q with ms := m } :=
  ⟨(s.modObj q o g).ms q, by simp only [State.modObj, State.ms, State.modMs_eq, State.setPart_part, if_true]⟩

theorem State.modObj_ownFold (s : State) (q o : Nat) (g : MsObj → MsObj) :
    (s.modObj q o g).ownFold q = s.ownFold q := by
  obtain ⟨m, hm⟩ := s.modObj_part q o g
  simp only [State.ownFold, State.jobPairOf, hm]
  rfl

/-! MSARRIVE (R154, R172). -/

/-- An arrival of core `l` at object `o` is on its way to Serai; at a replay point its snapshot is taken first. -/
def State.arrivalSent (s : State) (q l o : Nat) (rp vr : Bool) (n : Snapshot) : State :=
  (if rp then s.modPart q (fun y => y.takeSnap o l vr n) else s).modObj q o (fun y => y.expecting l)

theorem State.arrivalSent_core (s : State) (q l o : Nat) (rp vr : Bool) (n : Snapshot) (p : Nat) :
    (s.arrivalSent q l o rp vr n).core p = s.core p := by
  cases rp <;> rfl

theorem State.arrivalSent_dieNow (s : State) (q l o : Nat) (rp vr : Bool) (n : Snapshot) (d : Nat) :
    (s.arrivalSent q l o rp vr n).dieNow d = s.dieNow d := by
  cases rp <;> rfl

/-- Counting an instruction leaves the arrival that it sends. -/
theorem State.counted_arrivalSent (s : State) (p q l o : Nat) (rp vr : Bool) (n : Snapshot) :
    (s.counted p).arrivalSent q l o rp vr n = (s.arrivalSent q l o rp vr n).counted p := by
  cases rp <;> rfl

/-- With records of kind MILESTONE off, an arrival is sent and the core waits or goes on. -/
theorem State.arriveNew_off {s : State} {p : Nat} (q l o : Nat) (wait rp vr : Bool) (stm : BitVec 3)
    (h : (s.core p).traces 5 = false) :
    s.arriveNew p q l o wait rp vr stm
      = if wait then (s.arrivalSent q l o rp vr (s.core p).snapshot).beginWait p (.milestone q o none) stm
        else (s.arrivalSent q l o rp vr (s.core p).snapshot).advance p stm := by
  have hoff (a : DWord) : (s.arrivalSent q l o rp vr (s.core p).snapshot).traceAt p 5 0 stm a 0
      = s.arrivalSent q l o rp vr (s.core p).snapshot :=
    State.traceAt_off (by rwa [State.arrivalSent_core])
  rw [← hoff (msTraceA (s.obj q o).mid (s.obj q o).gen false)]
  rfl

/-- The first MSARRIVE of a core to a generation, where VR stands outside loops. -/
theorem State.arrive_first {s : State} {p q l o : Nat} {wait rp vr : Bool} {stm : BitVec 3}
    (harr : l ∉ (s.obj q o).arrived) (hcom : l ∉ (s.obj q o).coming) (hvr : vr = true → (s.core p).loops = []) :
    s.arrive p q l o wait rp vr stm = s.arriveNew p q l o wait rp vr stm := by
  have hloops : (vr && !(s.core p).loops.isEmpty) = false := by
    cases vr with
    | false => rfl
    | true => rw [hvr rfl]; rfl
  simp only [State.arrive, List.contains_eq_mem, harr, hcom, decide_false, Bool.or_self, hloops, Bool.false_eq_true,
    if_false]

/-- What MSARRIVE asks of its core and object in order to send an arrival (R172). -/
structure State.Arrives (s : State) (l p o : Nat) (mid : BitVec 16) (rp vr : Bool) : Prop where
  fence : (s.core p).fence = none
  traces : (s.core p).traces 5 = false
  replay : vr = true → rp = true ∧ (s.core p).loops = []
  found : (s.ms (s.partNo l)).find mid = some o
  member : l ∈ (s.ms (s.partNo l)).coresOf o
  live : (s.ms (s.partNo l)).abandoned = false
  first : l ∉ (s.obj (s.partNo l) o).arrived ∧ l ∉ (s.obj (s.partNo l) o).coming

/-- MSARRIVE sends its arrival from the state in which it has been counted. -/
theorem exec_msarrive_sends {s : State} {i : Issue} {p o pc : Nat} {mid : BitVec 16} {wait rp vr : Bool}
    (ha : s.Arrives i.core p o mid rp vr) (h : s.Issues i.core (.msarrive i mid wait rp vr) p pc) :
    exec (.msarrive i mid wait rp vr) s
      = .next (if wait then
          ((s.arrivalSent (s.partNo i.core) i.core o rp vr (s.core p).snapshot).counted p).beginWait p
            (.milestone (s.partNo i.core) o none) i.stm
        else ((s.arrivalSent (s.partNo i.core) i.core o rp vr (s.core p).snapshot).counted p).advance p i.stm) := by
  obtain ⟨hfence, htr, hreplay, hfound, hmember, hlive, harr, hcom⟩ := ha
  have hmark : (vr && !rp) = false := by
    cases vr with
    | false => rfl
    | true => rw [(hreplay rfl).1]; rfl
  have hms : (s.counted p).ms (s.partNo i.core) = s.ms (s.partNo i.core) := rfl
  have hobj : (s.counted p).obj (s.partNo i.core) o = s.obj (s.partNo i.core) o := rfl
  have hloops : ((s.counted p).core p).loops = (s.core p).loops := by rw [State.counted_core]; rfl
  have hoff : ((s.counted p).core p).traces 5 = false := by rwa [State.counted_core]
  have hsnap : ((s.counted p).core p).snapshot = (s.core p).snapshot := by rw [State.counted_core]; rfl
  have hnew : (s.counted p).arrive p (s.partNo i.core) i.core o wait rp vr i.stm
      = (s.counted p).arriveNew p (s.partNo i.core) i.core o wait rp vr i.stm :=
    State.arrive_first harr hcom fun hv => hloops.trans (hreplay hv).2
  simp only [exec, execMsarrive, h.1, State.issueWrite_unfenced _ h hfence, State.counted_partNo, hmark, hms, hfound,
    List.contains_eq_mem, hmember, decide_true, Bool.not_true, hlive, Bool.false_eq_true, if_false, hnew,
    State.arriveNew_off _ _ _ _ _ _ _ hoff, hsnap, State.counted_arrivalSent]

theorem exec_msarrive_goesOn {s : State} {i : Issue} {p o : Nat} {mid : BitVec 16} {rp vr : Bool}
    (ha : s.Arrives i.core p o mid rp vr) (h : s.Issues i.core (.msarrive i mid false rp vr) p ((s.core p).pc + 1)) :
    exec (.msarrive i mid false rp vr) s
      = .next ((s.arrivalSent (s.partNo i.core) i.core o rp vr (s.core p).snapshot).setCore p
          ((s.core p).issuedTo ((s.core p).pc + 1))) := by
  have hcore := s.arrivalSent_core (s.partNo i.core) i.core o rp vr (s.core p).snapshot p
  rw [exec_msarrive_sends ha h, if_neg Bool.false_ne_true,
    State.counted_advance_inside (by rw [hcore]; exact h.lt_length), State.modCore_eq, hcore]

theorem exec_msarrive_waits {s : State} {i : Issue} {p o : Nat} {mid : BitVec 16} {rp vr : Bool}
    (ha : s.Arrives i.core p o mid rp vr) (htr : (s.core p).traces 1 = false)
    (h : s.Issues i.core (.msarrive i mid true rp vr) p (s.core p).pc) :
    exec (.msarrive i mid true rp vr) s
      = .next ((s.arrivalSent (s.partNo i.core) i.core o rp vr (s.core p).snapshot).setCore p
          { (s.core p).issuedTo (s.core p).pc with
            wait := .milestone (s.partNo i.core) o none, waitSince := s.dieNow (p / 22), waitStm := i.stm }) := by
  have hcore := s.arrivalSent_core (s.partNo i.core) i.core o rp vr (s.core p).snapshot p
  rw [exec_msarrive_sends ha h, if_pos rfl, State.counted_beginWait _ _ (by rw [hcore]; exact htr), hcore,
    State.arrivalSent_dieNow]

/-- Settles O8: the core's snapshot, which stays pending until the release (log entry 26), and its arrival, then its
wait or its next instruction. -/
theorem msarriveComplete : Obligations.MsarriveComplete := by
  intro s i p o mid rp vr q c arr snap hfence htr1 htr5 hreplay hfound hmember hlive harr hcom
  have ha : s.Arrives i.core p o mid rp vr := ⟨hfence, htr5, hreplay, hfound, hmember, hlive, harr, hcom⟩
  exact ⟨exec_msarrive_goesOn ha, exec_msarrive_waits ha htr1⟩

/-! Local arrivals (R173). -/

/-- Serai has counted the arrival of core `l` at object `o`. -/
def State.arrivalCounted (s : State) (q o l : Nat) : State := s.modObj q o (fun y => y.counting l s.now)

theorem exec_msLocalArrival_counts {s : State} {q o l : Nat} (hclk : s.clocked = true)
    (hcom : (s.obj q o).coming.contains l = true) :
    exec (.msLocalArrival q o l) s = .next (s.countArrival q o l) := by
  simp only [exec, execMsLocalArrival, hclk, hcom, Bool.and_self, if_true]

theorem State.countArrival_partial {s : State} {q o l : Nat} (h : (s.arrivalCounted q o l).localFull q o = false) :
    s.countArrival q o l = s.arrivalCounted q o l := if_neg (ne_true_of_eq_false h)

/-- The complete generation of a module-local object is due for its release. -/
theorem State.localComplete_moduleLocal {s : State} {q o : Nat} (h : (s.obj q o).jobwide = false) :
    s.localComplete q o = s.setDue q o (s.ownFold q) := by
  simp only [State.localComplete, State.sendLocal, h, Bool.false_eq_true, false_and, if_false, Bool.not_false, if_true]

theorem State.countArrival_full {s : State} {q o l : Nat} (h : (s.arrivalCounted q o l).localFull q o = true)
    (hlocal : (s.obj q o).jobwide = false) :
    s.countArrival q o l = (s.arrivalCounted q o l).setDue q o (s.ownFold q) := by
  have hjobwide : ((s.arrivalCounted q o l).obj q o).jobwide = false := by
    rw [State.arrivalCounted, State.modObj_obj]
    exact (MsObj.started_jobwide _ _).trans hlocal
  have hfold : (s.arrivalCounted q o l).ownFold q = s.ownFold q := s.modObj_ownFold q o _
  rw [← hfold, ← State.localComplete_moduleLocal hjobwide]
  exact if_pos h

/-! Releases with OK that nothing else acts at (R173). -/

/-- No convoy switch, replay point, PAUSE or manifest acts at a release of object `o` to partition `q`. -/
structure State.PlainRelease (s : State) (q o : Nat) : Prop where
  convoy : (s.convoy q).armed = false
  replay : ∀ e ∈ (s.part q).pendSnaps, e.1 ≠ o
  pause : (s.part q).pause = none
  switching : (s.part q).switching = none
  running : (s.part q).st = .running
  inForce : s.mod.inForce = none
  staged : s.mod.staged = none

theorem State.PlainRelease.modObj {s : State} {q o : Nat} (g : MsObj → MsObj) (h : s.PlainRelease q o) :
    (s.modObj q o g).PlainRelease q o := by
  obtain ⟨m, hm⟩ := s.modObj_part q o g
  obtain ⟨hconvoy, hreplay, hpause, hswitching, hrunning, hinForce, hstaged⟩ := h
  exact ⟨hconvoy, by rwa [hm], by rwa [hm], by rwa [hm], by rwa [hm], hinForce, hstaged⟩

theorem State.manifestRelease_none {s : State} {q : Nat} {mid gen : BitVec 16} (hforce : s.mod.inForce = none)
    (hstaged : s.mod.staged = none) : s.manifestRelease q mid gen = s := by
  simp only [State.manifestRelease, State.lateSwitch, hforce, State.earlySwitch, hstaged]

theorem State.takePause_none {s : State} {q : Nat} (h : (s.part q).pause = none) : s.takePause q = s := by
  simp only [State.takePause, h, Option.isSome_none, Bool.false_eq_true, false_and, if_false]

/-- A plain release starts the partition's next interval and wakes its waiters. -/
theorem State.releaseOk_plain {s : State} {q o : Nat} {gen : BitVec 16} {waiters : List Nat} (h : s.PlainRelease q o) :
    s.releaseOk q o gen waiters
      = eachDo waiters (fun p t => t.wake p q o gen) (s.startPhase q (s.obj q o).mid) := by
  obtain ⟨hconvoy, hreplay, hpause, hswitching, hrunning, hforce, hstaged⟩ := h
  have hfind : (s.part q).pendSnaps.find? (fun e => e.1 == o) = none := by simpa using hreplay
  have hpart : (s.startPhase q (s.obj q o).mid).part q = s.part q := rfl
  simp only [State.releaseOk, hconvoy, Bool.false_eq_true, false_and, if_false, hfind,
    State.manifestRelease_none (s := s.startPhase q (s.obj q o).mid) hforce hstaged,
    State.takePause_none (s := s.startPhase q (s.obj q o).mid) hpause, hpart, hswitching, Option.isSome_none, hrunning,
    reduceCtorEq]

theorem State.release_plain {s : State} {q o : Nat} (hlive : (s.ms q).abandoned = false) (h : s.PlainRelease q o) :
    s.release q o scOk none
      = eachDo (s.msWaiters q o) (fun p t => t.wake p q o (s.obj q o).gen)
          ((s.modObj q o MsObj.released).startPhase q (s.obj q o).mid) := by
  have hmid : ((s.modObj q o MsObj.released).obj q o).mid = (s.obj q o).mid := by rw [State.modObj_obj]; rfl
  have hok : s.release q o scOk none
      = (s.modObj q o MsObj.released).releaseOk q o (s.obj q o).gen (s.msWaiters q o) := by
    simp only [State.release, hlive, Bool.false_eq_true, if_false, if_true, decide_true]
    rfl
  rw [hok, State.releaseOk_plain (h.modObj _), hmid]

/-! The cores that a release wakes (R172, R173). -/

/-- Core `c` waits on object `o` with no further MSARRIVE to make, and goes on without trace records. -/
def Core.Wakes (c : Core) (q o : Nat) : Prop :=
  c.wait = .milestone q o none ∧ c.traces 1 = false ∧ c.traces 5 = false ∧ c.pc + 1 < c.insns.length

/-- Core `c` after its release. -/
def Core.woken (c : Core) : Core := { c with wait := .none, pc := c.pc + 1 }

theorem State.wake_goesOn {s : State} {p q o : Nat} {gen : BitVec 16} (h : (s.core p).Wakes q o) :
    s.wake p q o gen = s.modCore p Core.woken := by
  obtain ⟨hwait, htr1, htr5, hpc⟩ := h
  simp only [State.wake, hwait, State.traceAt_off htr5]
  exact State.endWait_advance htr1 hpc

/-- A release wakes each of its waiters, in order. -/
theorem State.eachDo_wake {q o : Nat} {gen : BitVec 16} {l : List Nat} {s : State} (hl : l.Nodup)
    (h : ∀ p ∈ l, (s.core p).Wakes q o) :
    eachDo l (fun p t => t.wake p q o gen) s = eachDo l (fun p t => t.modCore p Core.woken) s := by
  induction l generalizing s with
  | nil => rfl
  | cons p l ih =>
    obtain ⟨hp, hl⟩ := List.nodup_cons.mp hl
    have hrest : ∀ k ∈ l, ((s.modCore p Core.woken).core k).Wakes q o := fun k hk => by
      have hne : k ≠ p := fun he => hp (he ▸ hk)
      rw [State.modCore_eq, State.setCore_core, if_neg hne]
      exact h k (List.mem_cons_of_mem p hk)
    calc eachDo (p :: l) (fun p t => t.wake p q o gen) s
        = eachDo l (fun p t => t.wake p q o gen) (s.wake p q o gen) := rfl
      _ = eachDo l (fun p t => t.wake p q o gen) (s.modCore p Core.woken) := by
          rw [State.wake_goesOn (h p List.mem_cons_self)]
      _ = eachDo (p :: l) (fun p t => t.modCore p Core.woken) s := ih hl hrest

/-- The release that is due of a module-local object whose counters agree (R178). -/
theorem exec_msRelease_moduleLocal {s : State} {q o : Nat} {f : Fold} (hclk : s.clocked = true)
    (hdue : (s.obj q o).due = some f) (hfold : f.mismatch = false) (hlocal : (s.obj q o).jobwide = false)
    (hlive : (s.ms q).abandoned = false) : exec (.msRelease (.own q o)) s = .next (s.release q o scOk none) := by
  simp only [exec, execMsRelease, hclk, if_true, hdue, State.rootRelease, hlive, Bool.false_eq_true, if_false, hlocal,
    Fold.status, hfold]

/-- Settles O9: an arrival counted, the release that it makes due (log entry 26), and the cores that the release
wakes. -/
theorem localMilestonesComplete : Obligations.LocalMilestonesComplete := by
  intro s q o l f x s1 hclk
  refine ⟨fun hcom hfull => ?_, fun hcom hfull hlocal => ?_, ?_⟩
  · rw [exec_msLocalArrival_counts hclk hcom]
    exact congrArg Host.Outcome.next (State.countArrival_partial hfull)
  · rw [exec_msLocalArrival_counts hclk hcom]
    exact congrArg Host.Outcome.next (State.countArrival_full hfull hlocal)
  · intro hdue hfold hlocal hlive hconvoy hreplay hpause hswitching hrunning hforce hstaged hnodup hwakes
    rw [exec_msRelease_moduleLocal hclk hdue hfold hlocal hlive,
      State.release_plain hlive ⟨hconvoy, hreplay, hpause, hswitching, hrunning, hforce, hstaged⟩]
    exact congrArg Host.Outcome.next (State.eachDo_wake hnodup hwakes)

end Sys2Proof.Machine
end

section
/-!
PROOFS. Arrivals, releases and watchdog notices of a job that come as messages, and the watchdog (chapter 6 of the
spec), and the statements O10 and O11.
-/

namespace Sys2Proof.Machine

/-! Messages (R235). -/

/-- A message for this module whose frame is out of order is only acknowledged. -/
theorem State.onMsg_outOfOrder {s : State} {m : MsMsg} {k : MsKind} {act : State → State} (hclk : s.clocked = true)
    (hdst : m.dst.toNat = s.coord) (hkind : m.kind = k) (hout : (s.msIn m).2 = false) :
    s.onMsg m k act = (s.msIn m).1 := by
  have hhere : s.msHere m k = true := by simp only [State.msHere, hclk, hdst, hkind, decide_true, Bool.and_true]
  simp only [State.onMsg, hhere, hout, if_true, Bool.false_eq_true, if_false]

/-- A message names the present generation, context and recovery count of object `o`, to which its MID belongs
(R175). -/
structure State.Names (s : State) (q o : Nat) (m : MsMsg) : Prop where
  found : (s.ms q).find m.mid = some o
  gen : m.gen = (s.obj q o).gen
  ctx : m.ctx = (s.obj q o).ctx
  rcount : m.rcount = (s.ms q).rcount

/-! Arrival messages (R174, R175). -/

/-- An object whose node of level `l` has counted the children's arrivals `cs`. -/
def MsObj.childCounted (y : MsObj) (now : DWord) (l : Nat) (cs : List ChildArrival) : MsObj :=
  { (y.started now) with nodes := tabSet y.nodes l cs, phase := if y.phase = 0 then 1 else y.phase }

/-- A child's first arrival at a node that waits for more is counted there. -/
theorem State.nodeArrival_counts {s : State} {q o l fuel : Nat} {src : BitVec 20} {f : Fold}
    (hnew : ∀ e ∈ tabGet [] (s.obj q o).nodes l, e.src ≠ src)
    (hmore : (tabGet [] (s.obj q o).nodes l).length + 1 < ((s.ms q).node l).children.toNat) :
    s.nodeArrival q o src f l (fuel + 1)
      = s.modObj q o (fun y =>
          y.childCounted s.now l (tabGet [] (s.obj q o).nodes l ++ [{ src := src, fold := f }])) := by
  have hfirst : (tabGet [] (s.obj q o).nodes l).any (fun c => c.src == src) = false := by simpa using hnew
  have hlen : (tabGet [] (s.obj q o).nodes l ++ [({ src := src, fold := f } : ChildArrival)]).length
      < ((s.ms q).node l).children.toNat := by rwa [List.length_append]
  simp only [State.nodeArrival, hfirst, Bool.false_eq_true, if_false, if_pos hlen]
  rfl

/-- An arrival message that names its object goes to the node of its child's level. -/
theorem State.arrivalAt_named {s : State} {q o : Nat} {m : MsMsg} (h : s.Names q o m)
    (hhost : ((s.ms q).node (s.childLevel m.src.toNat)).host = true) :
    s.arrivalAt q m = s.nodeArrival q o m.src
      { digest := m.foldDigest, epoch := m.foldEpoch, mod := m.foldMod, mismatch := m.mismatch }
      (s.childLevel m.src.toNat) 7 := by
  obtain ⟨hfound, hgen, hctx, hcount⟩ := h
  simp only [State.arrivalAt, hfound, ← hgen, ← hctx, ← hcount, and_self, if_true, hhost]

theorem exec_msArrivalMsg_inOrder {s : State} {m : MsMsg} {q : Nat} (hclk : s.clocked = true)
    (hdst : m.dst.toNat = s.coord) (hkind : m.kind = .arrival) (hin : (s.msIn m).2 = true)
    (hjob : (s.msIn m).1.jobOf m.job = [q]) (hhosts : ((s.msIn m).1.ms q).hosted ≠ []) :
    exec (.msArrivalMsg m) s = .next ((s.msIn m).1.arrivalAt q m) := by
  have hsome : ((s.msIn m).1.ms q).hosted.isEmpty = false := List.isEmpty_eq_false_iff.mpr hhosts
  rw [exec, execMsArrivalMsg, State.onMsg_inOrder hclk hdst hkind hin, hjob]
  exact congrArg Host.Outcome.next (if_neg (ne_true_of_eq_false hsome))

/-! Release messages (R173, R175). -/

/-- A module that hosts no node of a partition's job sends nothing down. -/
theorem State.msDown_unhosted {s : State} {m : MsMsg} {q : Nat} (h : (s.ms q).hosted = []) : s.msDown q m = s := by
  simp only [State.msDown, h, List.flatMap_nil]
  rfl

/-- A release message with OK that names its object releases it. -/
theorem State.releaseAt_named {s : State} {q o : Nat} {m : MsMsg} (h : s.Names q o m) (hok : m.status = 0)
    (hfold : m.mismatch = false) : s.releaseAt q m = s.release q o scOk none := by
  obtain ⟨hfound, hgen, hctx, hcount⟩ := h
  simp only [State.releaseAt, hfound, ← hgen, ← hctx, ← hcount, and_self, if_true, Fold.modOf, hfold, hok,
    Bool.false_eq_true, false_and, if_false]
  rfl

theorem exec_msRelease_message {s : State} {m : MsMsg} {q : Nat} (hclk : s.clocked = true)
    (hdst : m.dst.toNat = s.coord) (hkind : m.kind = .release) (hin : (s.msIn m).2 = true)
    (hjob : (s.msIn m).1.jobOf m.job = [q]) (hhost : ((s.msIn m).1.ms q).hosted = []) :
    exec (.msRelease (.message m)) s = .next ((s.msIn m).1.releaseAt q m) := by
  simp only [exec, execMsRelease]
  rw [State.onMsg_inOrder hclk hdst hkind hin, hjob, List.find?_singleton]
  cases (s.msIn m).1.releaseCurrent q m with
  | true => exact congrArg (fun t => Host.Outcome.next (State.releaseAt t q m)) (State.msDown_unhosted hhost)
  | false => rfl

/-- Settles O10: a message in order acts on the one object that it names, an arrival at the node of its child's level
(R327, log entry 26); one out of order does not. -/
theorem milestoneMessagesComplete : Obligations.MilestoneMessagesComplete := by
  intro s m q o s1 l cs c hclk hdst
  refine ⟨fun hout => ⟨fun hkind => ?_, fun hkind => ?_⟩, fun hin hjob hfound hgen hctx hcount => ⟨?_, ?_⟩⟩
  · exact congrArg Host.Outcome.next (State.onMsg_outOfOrder hclk hdst hkind hout)
  · exact congrArg Host.Outcome.next (State.onMsg_outOfOrder hclk hdst hkind hout)
  · intro hkind hhosts hhost hnew hmore
    rw [exec_msArrivalMsg_inOrder hclk hdst hkind hin hjob hhosts,
      State.arrivalAt_named ⟨hfound, hgen, hctx, hcount⟩ hhost, State.nodeArrival_counts hnew hmore]
    rfl
  · intro hkind hok hfold hhost hlive hconvoy hreplay hpause hswitching hrunning hforce hstaged hnone
    rw [exec_msRelease_message hclk hdst hkind hin hjob hhost,
      State.releaseAt_named ⟨hfound, hgen, hctx, hcount⟩ hok hfold,
      State.release_plain hlive ⟨hconvoy, hreplay, hpause, hswitching, hrunning, hforce, hstaged⟩, hnone]
    rfl

/-! The watchdog and its notice (R179, R180). -/

/-- The watchdog of object `o` has recorded who has not arrived, reported it and stopped the waiting cores. -/
def State.watchdogStopped (s : State) (q o : Nat) : State :=
  (((s.recordMiss q o).modObj q o (fun y => { y with fired := true })).logMs q 0x0130 scWatchdog
    (some o) []).stopWaiters q o (s.obj q o).gen scWatchdog

theorem exec_msWatchdogFire_fires {s : State} {q o : Nat} (hclk : s.clocked = true)
    (hvalid : (s.obj q o).valid = true) (hsince : (s.obj q o).since.isSome = true) (hfired : (s.obj q o).fired = false)
    (hdue : (s.obj q o).due = none) (hhold : (s.ms q).hold = 0) (hreplay : (s.ms q).replayReq = false) :
    exec (.msWatchdogFire q o) s = .next
      (if (s.obj q o).jobwide then (s.watchdogStopped q o).noticeRoot q o else s.watchdogStopped q o) := by
  have hfires : s.clocked ∧ (s.obj q o).valid ∧ (s.obj q o).since.isSome ∧ (s.obj q o).fired = false
      ∧ (s.obj q o).due.isNone ∧ (s.ms q).hold = 0 ∧ (s.ms q).replayReq = false :=
    ⟨hclk, hvalid, hsince, hfired, Option.isNone_iff_eq_none.mpr hdue, hhold, hreplay⟩
  exact congrArg Host.Outcome.next (if_pos hfires)

/-- A notice of the present generation at the root releases it with WATCHDOG. -/
theorem State.noticeAt_root {s : State} {q o : Nat} {m : MsMsg} (h : s.Names q o m) (hroot : (s.ms q).rootHere = true)
    (hdue : (s.obj q o).due = none) : s.noticeAt q m = s.rootRelease q o scWatchdog (s.ownFold q) := by
  obtain ⟨hfound, hgen, hctx, hcount⟩ := h
  simp only [State.noticeAt, hfound, ← hgen, ← hctx, ← hcount, true_or, and_self, if_true, hroot, Bool.true_eq_false,
    if_false, hdue, Option.isNone_none]

theorem exec_msWatchdogNotice_inOrder {s : State} {m : MsMsg} {q : Nat} (hclk : s.clocked = true)
    (hdst : m.dst.toNat = s.coord) (hkind : m.kind = .watchdogNotice) (hin : (s.msIn m).2 = true)
    (hjob : (s.msIn m).1.jobOf m.job = [q]) : exec (.msWatchdogNotice m) s = .next ((s.msIn m).1.noticeAt q m) := by
  rw [exec, execMsWatchdogNotice, State.onMsg_inOrder hclk hdst hkind hin, hjob]

/-- Settles O11: the watchdog's record and its notice, and the release that the notice brings at the root. -/
theorem watchdogComplete : Obligations.WatchdogComplete := by
  intro s m q o x u s1
  refine ⟨exec_msWatchdogFire_fires, fun hclk hdst hkind hin hjob hroot hfound hctx hcount hgen hdue => ?notice⟩
  case notice =>
    rw [exec_msWatchdogNotice_inOrder hclk hdst hkind hin hjob,
      State.noticeAt_root ⟨hfound, hgen, hctx, hcount⟩ hroot hdue]

end Sys2Proof.Machine
end

section
/-!
PROOFS. The state after reset (chapters 7, 8, 12 and 14 of the spec), and the statement O57.
-/

namespace Sys2Proof.Machine

theorem reset_safe : State.reset.Safe := ⟨by decide, by decide, by decide⟩

@[simp] theorem reset_fn (f : Nat) : State.reset.fn f = fnReset f := rfl

/-- Only the PF has queues before a manifest (Table 14.14). -/
theorem fnReset_qmax_vf {f : Nat} (hf : 1 ≤ f) : (fnReset f).qmax = 0 := by
  rw [fnReset, if_neg (by omega)]

/-- No function has a queue that has been set up. -/
@[simp] theorem fnReset_queues (f : Nat) : (fnReset f).queues = [] := by
  unfold fnReset
  split <;> rfl

theorem reset_queue (f q : Nat) : State.reset.queue f q = {} := by
  rw [State.queue, reset_fn, Fn.queue, fnReset_queues]
  rfl

/-- Settles O57: what no table lists has its reset value, for every link, function and queue. -/
theorem resetIsSafe : Obligations.ResetIsSafe := by
  refine ⟨reset_safe, rfl, fun l => ⟨rfl, rfl, rfl, rfl, rfl⟩, rfl, rfl, rfl, rfl, rfl, rfl, rfl, rfl,
    fun f hf => fnReset_qmax_vf hf, fun f q => ?queue⟩
  case queue => rw [reset_queue]

end Sys2Proof.Machine
end

section
/-!
PROOFS. Placements (chapter 7 of the spec): what each command of a partition's placement registers comes to under its
rule's conditions, and the statement O31.
-/

namespace Sys2Proof.Machine

/-- A partition's memory block reads back as it was changed. -/
@[simp] theorem State.modPartMem_mem (s : State) (q : Nat) (g : PartMem → PartMem) :
    ((s.modPartMem q g).part q).mem = g (s.part q).mem := by
  simp [State.modPartMem]

/-- Of a change of a partition's memory block only what it makes of that block counts. -/
theorem State.modPartMem_congr {s : State} {q : Nat} {g g' : PartMem → PartMem}
    (h : g (s.part q).mem = g' (s.part q).mem) : s.modPartMem q g = s.modPartMem q g' := by
  simp only [State.modPartMem, State.modPart_eq, h]

/-- A range that passes the checks of Table 7.3 is entered at the index that the registers name (R199), and CLEAN is
taken (R395). -/
theorem exec_placementPlace_enters {s : State} {fn q : Nat} (hsees : s.sees fn (.part q) = true)
    (hfree : (s.part q).mem.plcBusy = false)
    (hok : s.placeCheck q (s.part q).mem.plcIdx.toNat (s.part q).mem.plcBase.toNat (4096 * (s.part q).mem.plcSize.toNat)
      (s.part q).mem.plcClass.toNat = scOk) :
    exec (.placementPlace fn q) s
      = .next (((s.placeResult q scOk).modPartMem q (fun x => { x with
          placements := tabSet x.placements (s.part q).mem.plcIdx.toNat
            { base := (s.part q).mem.plcBase.toNat, size := 4096 * (s.part q).mem.plcSize.toNat,
              cls := (s.part q).mem.plcClass } })).unclean q) := by
  simp only [exec, execPlacementPlace, State.onBar_sees _ hsees, hfree, hok, Bool.false_eq_true, if_false, if_true]
  refine congrArg (fun t : State => Host.Outcome.next (t.unclean q)) (State.modPartMem_congr ?_)
  simp only [State.placeResult, State.modPartMem_mem]

theorem exec_placementRemove_marks {s : State} {fn q : Nat} (hsees : s.sees fn (.part q) = true)
    (hfree : (s.part q).mem.plcBusy = false)
    (hany : (s.part q).mem.placements.any (fun e => e.1 == (s.part q).mem.plcIdx.toNat) = true) :
    exec (.placementRemove fn q) s
      = .next (s.modPartMem q (fun x => { x with removing := some (s.part q).mem.plcIdx.toNat, plcBusy := true })) := by
  simp only [exec, execPlacementRemove, State.onBar_sees _ hsees, hfree, hany, Bool.false_eq_true, if_false, if_true]

theorem exec_placementReadBack_shows {s : State} {fn q i : Nat} {e : Placement} (hsees : s.sees fn (.part q) = true)
    (hfree : (s.part q).mem.plcBusy = false)
    (hfind : (s.part q).mem.placements.find? (fun e => e.1 == (s.part q).mem.plcIdx.toNat) = some (i, e)) :
    exec (.placementReadBack fn q) s
      = .next ((s.modPartMem q (fun x => { x with
          plcBase := BitVec.ofNat 44 e.base, plcSize := w32 (e.size / 4096), plcClass := e.cls,
          plcValid := true })).placeResult q scOk) := by
  simp only [exec, execPlacementReadBack, State.onBar_sees _ hsees, hfree, hfind, Bool.false_eq_true, if_false]

theorem exec_placementRemoveDone_scrubs {s : State} {q i : Nat} {e : Placement} (hclk : s.clocked = true)
    (hremoving : (s.part q).mem.removing = some i)
    (hfind : (s.part q).mem.placements.find? (fun e => e.1 == i) = some (i, e))
    (hidle : s.rangeBusy e.base e.size = false) :
    exec (.placementRemoveDone q) s
      = .next ((((s.scrubRange e.base e.size).modPartMem q (fun x => { x with
          placements := tabErase x.placements i, removing := none })).placeResult q scOk).logPlace q 0x0141 scOk) := by
  simp only [exec, execPlacementRemoveDone, hclk, if_true, hremoving, hfind, hidle, Bool.false_eq_true, if_false]

/-- Settles O31, command by command: PLACE and REMOVE at the index that the registers name, the end of a removal at the
index that it marked. -/
theorem placementsComplete : Obligations.PlacementsComplete := by
  intro s fn q i e m size
  exact ⟨fun hsees hfree => ⟨exec_placementPlace_enters hsees hfree, exec_placementRemove_marks hsees hfree,
    exec_placementReadBack_shows hsees hfree⟩, exec_placementRemoveDone_scrubs⟩

end Sys2Proof.Machine
end

section
/-!
PROOFS. Host copies, keys and scrubs (chapters 7 and 13 of the spec): what taking CLEAN from a partition leaves alone,
what a copy without failures comes to, and the statement O28.
-/

namespace Sys2Proof.Machine

/-! Taking CLEAN from a partition (R395). -/

/-- CLEAN apart, the state is as before. -/
theorem State.unclean_eq (s : State) (q : Nat) : s.unclean q = { s with cusParts := (s.unclean q).cusParts } := by
  unfold State.unclean
  split <;> rfl

@[simp] theorem State.unclean_protected (s : State) (q p : Nat) :
    ((s.unclean q).cus p).protected_ = (s.cus p).protected_ := by
  unfold State.unclean
  split
  · rw [State.modCus_cus]
    split
    · next hp => rw [hp]
    · rfl
  · rfl

@[simp] theorem State.unclean_admitted (s : State) (q p : Nat) (byCore store : Bool) (a n : Nat) :
    (s.unclean q).admitted p byCore store a n = s.admitted p byCore store a n := by
  rw [State.unclean_eq]
  rfl

@[simp] theorem State.unclean_copyLost (s : State) (q : Nat) (c : CmdRef) : (s.unclean q).copyLost c = s.copyLost c := by
  rw [State.unclean_eq]
  rfl

@[simp] theorem State.unclean_keySlot (s : State) (q i : Nat) : (s.unclean q).keySlot i = s.keySlot i := by
  rw [State.unclean_eq]
  rfl

@[simp] theorem State.unclean_slotIn (s : State) (q p i : Nat) : (s.unclean q).slotIn p i = s.slotIn p i := by
  rw [State.unclean_eq]
  rfl

/-! Copies without failures (R207, R388). -/

theorem State.copyData_kept {s : State} {c : CmdRef} (a : Nat) (data : List Byte) (h : s.copyLost c = false) :
    s.copyData c a data = s.copyWrite a data := if_neg (by simp [h])

/-- A copy in that has written every byte completes with OK. -/
theorem State.endCopyIn_moved (s : State) (c : CmdRef) (n : Nat) :
    s.endCopyIn c { moved := n } = s.complete c scOk (w64 n) 0 := rfl

/-- A copy out that loses no flit, and meets no uncorrectable word and nothing FAILED, sends the range whole. -/
theorem State.copyOut_whole {s : State} {c : CmdRef} {a n : Nat} (host : Nat) (key : Option (BitVec 256 × Nat))
    (hlost : s.copyLost c = false) (hclean : s.uncorrIn 0 (State.lines a n) = false)
    (hhealthy : ∀ r ∈ State.lines a n, s.lineFailed r = false) :
    s.copyOut c host a n key
      = ((s.touchRead 0 (State.lines a n)).hostWrite host (outBytes key (s.bytesAt 0 a n)), scOk, w64 n) := by
  have hall : (State.lines a n).filter (fun r => !s.lineFailed r) = State.lines a n :=
    List.filter_eq_self.mpr fun r hr => by rw [hhealthy r hr]; rfl
  simp only [State.copyOut, hall, hlost, hclean, bne_self_eq_false, Bool.and_false, Bool.or_false, Bool.false_eq_true,
    if_false, if_true]

theorem State.bytesAt_length (s : State) (p a n : Nat) : (s.bytesAt p a n).length = n := by
  simp [State.bytesAt]

/-! The commands. -/

theorem exec_copyIn_plain {s u : State} {h : CmdHdr} {host : DWord} {dev : BitVec 48} {len stream : Word}
    {slot : BitVec 6} {data : List Byte} (chunks : List Chunk)
    (a : s.Accepts h 0x07 0 (copyArgs host dev len slot stream.toNat)) (hlen : data.length = len.toNat)
    (hplain : ((s.takeDesc h.fn h.q).cus h.part).protected_ = false)
    (hadm : (s.takeDesc h.fn h.q).admitted h.part false true dev.toNat len.toNat = true)
    (hlost : (s.takeDesc h.fn h.q).copyLost (CmdHdr.ref h 7) = false)
    (hwrite : ((s.takeDesc h.fn h.q).unclean h.part).copyWrite dev.toNat data = (u, { moved := len.toNat })) :
    exec (.copyIn h host dev len false slot stream data chunks) s
      = .next (((u.dropLost (CmdHdr.ref h 7)).complete (CmdHdr.ref h 7) scOk (w64 len.toNat) 0).settleQueue
          h.fn h.q) := by
  have hkept : ((s.takeDesc h.fn h.q).unclean h.part).copyLost (CmdHdr.ref h 7) = false := by
    rw [State.unclean_copyLost, hlost]
  simp only [exec, execCopyIn, hlen, beq_self_eq_true, Bool.false_eq_true, if_false, if_true,
    State.hostCmd_accepts (flags := b2n false) _ a, State.unclean_protected, hplain, State.unclean_admitted, hadm,
    Bool.not_false, Bool.not_true, Bool.true_and, Bool.false_and, Bool.or_self, State.copyData_kept _ _ hkept, hwrite,
    State.endCopyIn_moved]

theorem exec_copyIn_protected {s u : State} {h : CmdHdr} {host : DWord} {dev : BitVec 48} {len stream : Word}
    {slot : BitVec 6} (data : List Byte) {chunks : List Chunk}
    (a : s.Accepts h 0x07 1 (copyArgs host dev len slot stream.toNat)) (hfit : chunksFit len.toNat chunks = true)
    (hslot : (s.takeDesc h.fn h.q).slotIn h.part slot.toNat = true)
    (hadm : (s.takeDesc h.fn h.q).admitted h.part false true dev.toNat len.toNat = true)
    (hwrite : ((s.takeDesc h.fn h.q).unclean h.part).copyChunks (CmdHdr.ref h 7)
        ((s.takeDesc h.fn h.q).keySlot slot.toNat).keyA stream.toNat dev.toNat 0 chunks {}
      = (u, { moved := len.toNat }, true)) :
    exec (.copyIn h host dev len true slot stream data chunks) s
      = .next (((u.dropLost (CmdHdr.ref h 7)).complete (CmdHdr.ref h 7) scOk (w64 len.toNat) 0).settleQueue
          h.fn h.q) := by
  simp only [exec, execCopyIn, hfit, Bool.false_eq_true, if_false, if_true,
    State.hostCmd_accepts (flags := b2n true) _ a, State.unclean_slotIn, hslot, State.unclean_admitted, hadm,
    Bool.not_true, Bool.true_and, Bool.false_and, Bool.or_self, State.unclean_keySlot, hwrite, State.endCopyIn_moved]

theorem exec_copyOut_plain {s : State} {h : CmdHdr} {host : DWord} {dev : BitVec 48} {len : Word} {slot : BitVec 6}
    (a : s.Accepts h 0x08 0 (copyArgs host dev len slot 0))
    (hplain : ((s.takeDesc h.fn h.q).cus h.part).protected_ = false)
    (hadm : (s.takeDesc h.fn h.q).admitted h.part false false dev.toNat len.toNat = true)
    (hlost : (s.takeDesc h.fn h.q).copyLost (CmdHdr.ref h 8) = false)
    (hclean : (s.takeDesc h.fn h.q).uncorrIn 0 (State.lines dev.toNat len.toNat) = false)
    (hhealthy : ∀ r ∈ State.lines dev.toNat len.toNat, (s.takeDesc h.fn h.q).lineFailed r = false) :
    exec (.copyOut h host dev len false slot) s
      = .next (((((s.takeDesc h.fn h.q).touchRead 0 (State.lines dev.toNat len.toNat)).hostWrite host.toNat
          ((s.takeDesc h.fn h.q).bytesAt 0 dev.toNat len.toNat)).complete (CmdHdr.ref h 8) scOk (w64 len.toNat) 0
        ).settleQueue h.fn h.q) := by
  simp only [exec, execCopyOut, State.hostCmd_accepts (flags := b2n false) _ a, hplain, hadm, Bool.not_true,
    Bool.false_eq_true, if_false, State.copyOut_whole _ _ hlost hclean hhealthy, outBytes]

/-- Under a HOST slot whose stream numbers have not run out (R388). -/
theorem State.copyOutSealed_whole {s v : State} {q : Nat} {c : CmdRef} (host : Nat) {a n i : Nat}
    (hv : s.setKeySlot i { s.keySlot i with stream := (s.keySlot i).stream + 1 } = v)
    (hslot : (s.slotsOf q).contains i = true) (hkind : (s.keySlot i).kind = .host)
    (hstream : (s.keySlot i).stream ≤ 0xFFFFFFFF) (hadm : s.admitted q false false a n = true)
    (hlost : v.copyLost c = false) (hclean : v.uncorrIn 0 (State.lines a n) = false)
    (hhealthy : ∀ r ∈ State.lines a n, v.lineFailed r = false) :
    s.copyOutSealed q c host a n i
      = ((v.touchRead 0 (State.lines a n)).hostWrite host (sealAll (s.keySlot i).keyA (s.keySlot i).stream (chunkCount n)
          (s.bytesAt 0 a n) 0)).complete c scOk (w64 n) (w64 (s.keySlot i).stream) := by
  have hweight : decide ((s.keySlot i).kind = .weight) = false := by rw [hkind]; rfl
  have hhost : decide ((s.keySlot i).kind = .host) = true := decide_eq_true hkind
  have hbytes : v.bytesAt 0 a n = s.bytesAt 0 a n := by rw [← hv, State.setKeySlot_bytesAt]
  simp only [State.copyOutSealed, hslot, hweight, hhost, hadm, Bool.and_false, Bool.and_true, Bool.not_true,
    Bool.or_self, Bool.false_eq_true, if_false, if_neg (Nat.not_lt.mpr hstream), hv,
    State.copyOut_whole host _ hlost hclean hhealthy, outBytes, hbytes, State.bytesAt_length]

theorem exec_copyOut_protected {s v : State} {h : CmdHdr} {host : DWord} {dev : BitVec 48} {len : Word} {slot : BitVec 6}
    (a : s.Accepts h 0x08 1 (copyArgs host dev len slot 0)) {t : State} (ht : s.takeDesc h.fn h.q = t)
    (hv : t.setKeySlot slot.toNat { t.keySlot slot.toNat with stream := (t.keySlot slot.toNat).stream + 1 } = v)
    (hslot : (t.slotsOf h.part).contains slot.toNat = true) (hkind : (t.keySlot slot.toNat).kind = .host)
    (hstream : (t.keySlot slot.toNat).stream ≤ 0xFFFFFFFF)
    (hadm : t.admitted h.part false false dev.toNat len.toNat = true) (hlost : v.copyLost (CmdHdr.ref h 8) = false)
    (hclean : v.uncorrIn 0 (State.lines dev.toNat len.toNat) = false)
    (hhealthy : ∀ r ∈ State.lines dev.toNat len.toNat, v.lineFailed r = false) :
    exec (.copyOut h host dev len true slot) s
      = .next ((((v.touchRead 0 (State.lines dev.toNat len.toNat)).hostWrite host.toNat
          (sealAll (t.keySlot slot.toNat).keyA (t.keySlot slot.toNat).stream (chunkCount len.toNat)
            (t.bytesAt 0 dev.toNat len.toNat) 0)).complete (CmdHdr.ref h 8) scOk (w64 len.toNat)
          (w64 (t.keySlot slot.toNat).stream)).settleQueue h.fn h.q) := by
  simp only [exec, execCopyOut, State.hostCmd_accepts (flags := b2n true) _ a, if_true, ht,
    State.copyOutSealed_whole host.toNat hv hslot hkind hstream hadm hlost hclean hhealthy]

theorem exec_installKey_installs {s : State} {h : CmdHdr} {blob : KeyBlob} {es : List KeyEntry}
    (a : s.Accepts h 0x0B 0 (2 ^ 64 * (blob.len % 2 ^ 32)))
    (hok : (s.takeDesc h.fn h.q).blobCheck h.part blob = .ok es) :
    exec (.installKey h blob) s
      = .next (((((s.takeDesc h.fn h.q).installKeys h.part es (blob.flags.getLsbD 0)).logCus 0x0207 scOk (some h.part) []
          ).complete (CmdHdr.ref h 0x0B) scOk 0 0).settleQueue h.fn h.q) := by
  simp only [exec, execInstallKey, State.hostCmd_accepts _ a, State.takeBlob, hok]

theorem exec_scrubDone_completes {s : State} {part : Nat} {c : CmdRef} (hclk : s.clocked = true) (hpart : part < 16)
    (hscrub : (s.cus part).scrub = some c) :
    exec (.scrubDone part) s
      = .next ((((((eachDo (s.scrubRanges part) (fun r t => t.scrubRange r.1 r.2) s).freshCisKeys part).modCus part
          (fun x => { x with scrub := none, clean := true })).refreshScrubbing).logCus 0x020B scOk (some part) []
        ).complete c scOk 0 0) := by
  simp only [exec, execScrubDone, hscrub, hclk, hpart, and_self, if_true]

/-- Settles O28, command by command: each comes to its operations on the state in which its descriptor has been taken. -/
theorem dataCommandsComplete : Obligations.DataCommandsComplete := by
  intro s u h host dev len stream slot data chunks blob es c part q n t done ref segs bs k v
  refine ⟨exec_copyIn_plain chunks, exec_copyIn_protected data, exec_copyOut_plain,
    fun a => exec_copyOut_protected a rfl rfl, exec_installKey_installs, fun a => ?scrub, exec_scrubDone_completes⟩
  case scrub => exact congrArg Host.Outcome.next (State.hostCmd_accepts _ a)

end Sys2Proof.Machine
end

section
/-!
PROOFS. A store that loses its last unit (chapter 7 of the spec): in a state whose two cistern groups put two internal
addresses on one place, the injection that the partial first unit takes makes the partial last unit uncorrectable; and
the statement O60, which that refutes.
-/

namespace Sys2Proof.Machine

/-! Marks of the cistern that whole writes leave (R212, R220, R390). -/

/-- What a table holds at another key than the one written. -/
theorem tabGet_tabPut_of_ne {α : Type} [DecidableEq α] (d : α) (t : Tab α) (v : α) {k i : Nat} (h : i ≠ k) :
    tabGet d (tabPut d t k v) i = tabGet d t i := by
  induction t with
  | nil => by_cases hv : v = d <;> simp [tabPut, tabGet, hv, h]
  | cons e t ih =>
    obtain ⟨j, w⟩ := e
    by_cases hlt : k < j
    · by_cases hv : v = d <;> simp [tabPut, tabGet, hlt, hv, h]
    · by_cases hkj : k = j
      · subst hkj
        by_cases hv : v = d <;> simp [tabPut, tabGet, hv, h]
      · simp [tabPut, tabGet, hlt, hkj, ih]

/-- Where an address of the cistern lies is said by the groups alone. -/
theorem Memory.cisKey_of_cgrps {m m' : Memory} (h : m.cgrps = m'.cgrps) (a : Nat) : m.cisKey a = m'.cisKey a := by
  rw [Memory.cisKey, Memory.cisKey, h]

/-- From `s` to `t` the cistern's groups, its words' marks and its dies are as they were. -/
structure State.SameMarks (s t : State) : Prop where
  groups : t.mem.cgrps = s.mem.cgrps
  marks : t.mem.cisErr = s.mem.cisErr
  dies : t.cisDies = s.cisDies

theorem State.setByte_sameMarks (s : State) (p a : Nat) (b : Byte) : s.SameMarks (s.setByte p a b) := by
  unfold State.setByte
  split
  · split <;> exact ⟨rfl, rfl, rfl⟩
  · split <;> exact ⟨rfl, rfl, rfl⟩
  all_goals exact ⟨rfl, rfl, rfl⟩

theorem State.dropWb_sameMarks (s : State) (w : Nat) : s.SameMarks (s.dropWb w) := by
  unfold State.dropWb
  split
  · split <;> exact ⟨rfl, rfl, rfl⟩
  · split <;> exact ⟨rfl, rfl, rfl⟩
  · exact ⟨rfl, rfl, rfl⟩

/-- A mark that is set changes no cistern word's mark, or that of the word that holds the address. -/
theorem State.setMark_cases (s : State) (p w : Nat) (u : BitVec 2) : s.SameMarks (s.setMark p w u)
    ∨ ∃ k, s.mem.cisKey w = some k
      ∧ s.setMark p w u = { s with mem := { s.mem with cisErr := tabPut 0 s.mem.cisErr (k / 4) u } } := by
  unfold State.setMark
  split
  · left
    split <;> exact ⟨rfl, rfl, rfl⟩
  · split
    · next k hk => exact .inr ⟨k, hk, rfl⟩
    · exact .inl ⟨rfl, rfl, rfl⟩
  all_goals exact .inl ⟨rfl, rfl, rfl⟩

/-- The cistern's groups are `g`, and its word of number `j` has the mark `v`. -/
structure State.CisMark (g : Tab Group) (j : Nat) (v : BitVec 2) (t : State) : Prop where
  groups : t.mem.cgrps = g
  mark : tabGet 0 t.mem.cisErr j = v

/-- Under the groups `g` the address `w` does not lie in the cistern's word of number `j`. -/
def MissesWord (g : Tab Group) (j w : Nat) : Prop := ∀ k, Memory.cisKey { cgrps := g } w = some k → k / 4 ≠ j

namespace State.CisMark

variable {g : Tab Group} {j : Nat} {v : BitVec 2} {t : State}

theorem of_sameMarks {u : State} (hu : t.SameMarks u) (h : t.CisMark g j v) : u.CisMark g j v :=
  ⟨hu.groups.trans h.groups, by rw [hu.marks, h.mark]⟩

/-- The mark of another word. -/
theorem setMark (p : Nat) {w : Nat} (u : BitVec 2) (hw : MissesWord g j w) (h : t.CisMark g j v) :
    (t.setMark p w u).CisMark g j v := by
  obtain hsame | ⟨k, hk, hset⟩ := t.setMark_cases p w u
  · exact h.of_sameMarks hsame
  · have hne : k / 4 ≠ j := hw k ((Memory.cisKey_of_cgrps h.groups.symm w).trans hk)
    rw [hset]
    exact ⟨h.groups, (tabGet_tabPut_of_ne 0 _ u hne.symm).trans h.mark⟩

/-- An injection that another word takes. -/
theorem inject (p : Nat) {w : Nat} (hw : MissesWord g j w) (h : t.CisMark g j v) : (t.inject p w).CisMark g j v := by
  unfold State.inject
  split
  · split
    · extract_lets n u
      split
      · exact h
      · exact setMark (t := t.modDie _ _) p u hw ⟨h.groups, h.mark⟩
    · exact h
  · split
    · extract_lets ch u
      split
      · exact h
      · exact setMark (t := t.modCis _ _) p u hw ⟨h.groups, h.mark⟩
    · exact h
  · exact h

/-- Another word, wholly written. -/
theorem writeWord (p : Nat) {a : Nat} {data : List Byte} {w : Nat} (hwhole : wholeWord a data.length w = true)
    (hw : MissesWord g j w) (h : t.CisMark g j v) : (t.writeWord p a data w).1.CisMark g j v := by
  rw [State.writeWord, if_pos hwhole]
  exact ((eachDo_induct (fun e _ t ht => ht.of_sameMarks (t.setByte_sameMarks p e.1 e.2))
    (h.of_sameMarks (t.dropWb_sameMarks w))).setMark p 0 hw).inject p hw

/-- A unit of other words, wholly written. -/
theorem writeUnit (p : Nat) {a : Nat} {data : List Byte} {u : Nat} (hcover : a ≤ u ∧ u + 32 ≤ a + data.length)
    (hw : ∀ i, i < 8 → MissesWord g j (u + 4 * i)) (h : t.CisMark g j v) :
    (t.writeUnit p a data u).1.CisMark g j v := by
  rw [State.writeUnit, if_pos hcover]
  refine List.foldlRecOn (motive := fun acc : State × Bool => acc.1.CisMark g j v) _ _ h fun acc hacc w hmem => ?_
  obtain ⟨i, hi, rfl⟩ := List.mem_map.mp hmem
  have hlt : i < 8 := List.mem_range.mp hi
  refine hacc.writeWord p ?_ (hw i hlt)
  simp only [wholeWord, Bool.and_eq_true, decide_eq_true_eq]
  omega

end State.CisMark

/-! Partial units (R212, R390). -/

/-- A partial unit with a word in double error is not written. -/
theorem State.writeUnit_uncorrectable {s : State} {p a : Nat} {data : List Byte} {u i : Nat}
    (hpart : ¬ (a ≤ u ∧ u + 32 ≤ a + data.length)) (hi : i < 8) (hmark : s.markAt p (u + 4 * i) = 2) :
    (s.writeUnit p a data u).2 = true := by
  have hbad : (((List.range 8).map fun i => u + 4 * i).filter fun w => decide (s.markAt p w ≠ 0)).any
      (fun w => decide (s.markAt p w = 2)) = true := by
    refine List.any_eq_true.mpr ⟨u + 4 * i, List.mem_filter.mpr ⟨?_, ?_⟩, decide_eq_true hmark⟩
    · exact List.mem_map.mpr ⟨i, List.mem_range.mpr hi, rfl⟩
    · rw [hmark]
      rfl
  rw [State.writeUnit, if_neg hpart]
  simp only [hbad, if_true]

/-- The words of a unit without their marks, and the bytes of a write put into it. -/
def State.unitPut (s : State) (p a : Nat) (data : List Byte) (u : Nat) : State :=
  eachDo (((List.range 8).map fun i => u + 4 * i).flatMap (wordBytes a data)) (fun e t => t.setByte p e.1 e.2)
    (eachDo ((List.range 8).map fun i => u + 4 * i) (fun w t => (t.dropWb w).setMark p w 0) s)

/-- A partial unit without an error is put, and its whole words take the armed injections. -/
theorem State.writeUnit_clean {s : State} {p a : Nat} {data : List Byte} {u : Nat}
    (hpart : ¬ (a ≤ u ∧ u + 32 ≤ a + data.length)) (hclean : ∀ w, s.markAt p w = 0) :
    (s.writeUnit p a data u).1
      = eachDo (((List.range 8).map fun i => u + 4 * i).filter (wholeWord a data.length)) (fun w t => t.inject p w)
          (s.unitPut p a data u) := by
  have hbad : (((List.range 8).map fun i => u + 4 * i).filter fun w => decide (s.markAt p w ≠ 0)) = [] :=
    List.filter_eq_nil_iff.mpr fun w _ => by simp [hclean w]
  rw [State.writeUnit, if_neg hpart]
  simp only [hbad]
  rfl

/-! Two groups on one place. -/

/-- 24 GiB of the cistern's addresses from `base` GiB on, at the first GiB of channel 0 of every package. -/
def groupFrom (base : Nat) : Group := { set := 1, base := base, size := 1 }

/-- Such a group from 1 GiB on, and, where that does not cover, one from 0 on: both over the same places. -/
def doubledGroups : Tab Group := [(0, groupFrom 1), (1, groupFrom 0)]

/-- The cistern so mapped, with a double-bit injection armed on channel 0 of its first die (R220). -/
def doubledState : State := { mem := { cgrps := doubledGroups }, cisDies := [(0, { inject := [(0, 2)] })] }

/-- The place of the `o`-th byte of such a group (R192). -/
def doubledPlace (o : Nat) : Nat := 4 * (o / 1024 % 24) * 2 ^ 34 + (o / 1024 / 24 * 1024 + o % 1024)

theorem groupFrom_positions (base : Nat) : setBits 4 (groupFrom base).set = [0] :=
  show setBits 4 1 = [0] by decide

theorem groupFrom_covers (base o : Nat) :
    (groupFrom base).coversC (cisBase + o) = (decide (base * 2 ^ 30 ≤ o) && decide (o < (base + 24) * 2 ^ 30)) := by
  simp only [Group.coversC, groupFrom_positions, List.length_singleton]
  simp [groupFrom, gib]

theorem groupFrom_place (base o : Nat) :
    ((groupFrom base).locC (cisBase + o)).1 * 2 ^ 34 + ((groupFrom base).locC (cisBase + o)).2
      = doubledPlace (o - base * 2 ^ 30) := by
  have hoff : cisBase + o - cisBase - base * gib = o - base * 2 ^ 30 := by
    rw [Nat.add_sub_cancel_left, gib]
  have hchan : (o - base * 2 ^ 30) / 1024 % 24 / 24 = 0 := by omega
  simp only [Group.locC, groupFrom_positions]
  simp only [groupFrom, hoff, List.length_cons, List.length_nil, Nat.zero_add, Nat.mul_one, hchan, List.getD_cons_zero,
    doubledPlace]
  omega

theorem doubledPlace_injective {o o' : Nat} (ho : o < 2 ^ 30) (ho' : o' < 2 ^ 30)
    (h : doubledPlace o = doubledPlace o') : o = o' := by
  unfold doubledPlace at h
  omega

/-- The places of word 7 are the bytes 28 to 31. -/
theorem doubledPlace_word7 {o : Nat} (ho : o < 2 ^ 30) (h : doubledPlace o / 4 = 7) : o < 32 := by
  unfold doubledPlace at h
  omega

/-- The first GiB of the cistern's addresses and what follows it share their places. -/
theorem cisKey_doubled {m : Memory} (hm : m.cgrps = doubledGroups) {o : Nat} (ho : o < 2 ^ 30 + 32) :
    m.cisKey (cisBase + o) = some (doubledPlace (o % 2 ^ 30)) := by
  have hsecond : (groupFrom 0).coversC (cisBase + o) = true := by
    rw [groupFrom_covers, Bool.and_eq_true, decide_eq_true_eq, decide_eq_true_eq]
    omega
  rw [Memory.cisKey, hm, doubledGroups]
  by_cases hlow : o < 2 ^ 30
  · have hfirst : (groupFrom 1).coversC (cisBase + o) = false := by
      rw [groupFrom_covers, Bool.and_eq_false_imp]
      intro hle
      have := of_decide_eq_true hle
      omega
    have hmod : o % 2 ^ 30 = o - 0 * 2 ^ 30 := by omega
    simp only [List.find?, hfirst, hsecond, groupFrom_place, hmod]
  · have hfirst : (groupFrom 1).coversC (cisBase + o) = true := by
      rw [groupFrom_covers, Bool.and_eq_true, decide_eq_true_eq, decide_eq_true_eq]
      omega
    have hmod : o % 2 ^ 30 = o - 1 * 2 ^ 30 := by omega
    simp only [List.find?, hfirst, groupFrom_place, hmod]

theorem tierOf_doubled {o : Nat} (ho : o < 2 ^ 30 + 32) : tierOf (cisBase + o) = .cistern := by
  unfold tierOf
  rw [if_neg (by simp [cisBase]; omega), if_neg (by omega), if_pos (by simp [cisBase]; omega)]

theorem missesWord_doubled {o : Nat} (hlow : 32 ≤ o) (ho : o < 2 ^ 30) : MissesWord doubledGroups 7 (cisBase + o) := by
  intro k hk hword
  rw [cisKey_doubled rfl (by omega), Nat.mod_eq_of_lt ho] at hk
  have := doubledPlace_word7 ho (by rw [Option.some.inj hk]; exact hword)
  omega

theorem markAt_doubledState (p a : Nat) : doubledState.markAt p a = 0 := by
  unfold State.markAt
  split
  · split <;> rfl
  · split <;> rfl
  all_goals rfl

theorem failedChan_doubledState (a n : Nat) : doubledState.failedChan a n = none := by
  refine List.find?_eq_none.mpr fun ch _ => ?_
  have hnone : (doubledState.cis (ch / 16)).failed = 0 := by
    unfold State.cis doubledState tabGet
    split <;> rfl
  simp [State.chanFailed, hnone, bitAt]

theorem failedStack_doubledState (n : Nat) : doubledState.failedStack (cisBase + 28) n = false := by
  simp [State.failedStack, State.stacksOf, tierOf_doubled (o := 28)]

/-! The store. -/

theorem State.markAt_cistern {s : State} {p a k : Nat} (ht : tierOf a = .cistern) (hk : s.mem.cisKey a = some k) :
    s.markAt p a = tabGet 0 s.mem.cisErr (k / 4) := by
  simp only [State.markAt, ht, hk]

/-- An armed injection marks a whole word of its channel (R220). -/
theorem State.inject_cistern {s : State} {p w k : Nat} {v : BitVec 2} (ht : tierOf w = .cistern)
    (hk : s.mem.cisKey w = some k) (hv : tabGet 0 (s.cis (k / 2 ^ 34 / 16)).inject (k / 2 ^ 34 % 16) = v) (hne : v ≠ 0) :
    (s.inject p w).mem = { s.mem with cisErr := tabPut 0 s.mem.cisErr (k / 4) v } := by
  simp only [State.inject, State.setMark, ht, hk, hv, hne, if_false, State.modCis_mem]

/-- The doubled cistern without a mark, its injection still armed. -/
structure State.Armed (t : State) : Prop where
  groups : t.mem.cgrps = doubledGroups
  clear : t.mem.cisErr = []
  armed : tabGet 0 (t.cis 0).inject 0 = 2

namespace State.Armed

variable {t : State}

theorem of_sameMarks {u : State} (hu : t.SameMarks u) (h : t.Armed) : u.Armed :=
  ⟨hu.groups.trans h.groups, hu.marks.trans h.clear, by rw [State.cis, hu.dies]; exact h.armed⟩

theorem clearMark (p w : Nat) (h : t.Armed) : (t.setMark p w 0).Armed := by
  obtain hsame | ⟨k, -, hset⟩ := t.setMark_cases p w 0
  · exact h.of_sameMarks hsame
  · have hclear : tabPut 0 t.mem.cisErr (k / 4) 0 = [] := by rw [h.clear]; rfl
    rw [hset]
    exact ⟨h.groups, hclear, h.armed⟩

theorem unitPut (p a : Nat) (data : List Byte) (u : Nat) (h : t.Armed) : (t.unitPut p a data u).Armed :=
  eachDo_induct (fun e _ t ht => ht.of_sameMarks (t.setByte_sameMarks p e.1 e.2))
    (eachDo_induct (fun w _ t ht => (ht.of_sameMarks (t.dropWb_sameMarks w)).clearMark p w) h)

/-- The word at 28 takes the injection. -/
theorem inject (p : Nat) (h : t.Armed) : (t.inject p (cisBase + 28)).CisMark doubledGroups 7 2 := by
  have hmem := State.inject_cistern (p := p) (tierOf_doubled (o := 28) (by omega))
    (cisKey_doubled h.groups (by omega)) h.armed (by decide)
  exact ⟨by rw [hmem]; exact h.groups, by rw [hmem, h.clear]; rfl⟩

end State.Armed

section

variable {d : List Byte} (hd : d.length = 2 ^ 30 - 24)

include hd

/-- The first unit of the store leaves a double error in the word that its last unit shares. -/
theorem writeUnit_doubled_first (p : Nat) :
    (doubledState.writeUnit p (cisBase + 28) d cisBase).1.CisMark doubledGroups 7 2 := by
  have hwhole : ((List.range 8).map fun i => cisBase + 4 * i).filter (wholeWord (cisBase + 28) d.length)
      = [cisBase + 28] := by
    rw [hd]
    decide
  have harmed : doubledState.Armed := ⟨rfl, rfl, rfl⟩
  rw [State.writeUnit_clean (by omega) (markAt_doubledState p), hwhole]
  exact (harmed.unitPut p _ d _).inject p

theorem writeUnit_doubled_last {t : State} (p : Nat) (h : t.CisMark doubledGroups 7 2) :
    (t.writeUnit p (cisBase + 28) d (cisBase + 2 ^ 30)).2 = true := by
  refine State.writeUnit_uncorrectable (i := 7) (by omega) (by omega) ?_
  rw [Nat.add_assoc, State.markAt_cistern (tierOf_doubled (by omega)) (cisKey_doubled h.groups (by omega))]
  exact h.mark

/-- The units between lie in other words, and are wholly covered. -/
theorem writeUnits_doubled_between (p : Nat) {n : Nat} (hn : n ≤ 2 ^ 25 - 1) {acc : State × Bool}
    (h : acc.1.CisMark doubledGroups 7 2) :
    (((List.range n).map fun i => cisBase + 32 * (i + 1)).foldl
      (fun acc u => ((acc.1.writeUnit p (cisBase + 28) d u).1, acc.2 || (acc.1.writeUnit p (cisBase + 28) d u).2))
      acc).1.CisMark doubledGroups 7 2 := by
  refine List.foldlRecOn (motive := fun acc : State × Bool => acc.1.CisMark doubledGroups 7 2) _ _ h
    fun acc hacc u hu => ?_
  obtain ⟨i, hi, rfl⟩ := List.mem_map.mp hu
  have hlt : i < n := List.mem_range.mp hi
  refine hacc.writeUnit p (by omega) fun k hk => ?_
  rw [Nat.add_assoc]
  exact missesWord_doubled (by omega) (by omega)

theorem unitsOf_doubled {n : Nat} (hn : n = 2 ^ 25 - 1) : unitsOf (cisBase + 28) d.length
    = cisBase :: ((List.range n).map fun i => cisBase + 32 * (i + 1)) ++ [cisBase + 2 ^ 30] := by
  have hfirst : (cisBase + 28) / 32 = cisBase / 32 := by simp [cisBase]
  have hcount : (cisBase + 28 + d.length - 1) / 32 + 1 - cisBase / 32 = n + 1 + 1 := by
    simp only [cisBase]
    omega
  have hbase (i : Nat) : 32 * (cisBase / 32 + i) = cisBase + 32 * i := by
    simp only [cisBase]
    omega
  have hlast : 32 * (n + 1) = 2 ^ 30 := by omega
  rw [unitsOf, if_neg (by omega), hfirst, hcount, List.range_succ, List.range_succ_eq_map]
  simp only [List.map_append, List.map_cons, List.map_map, List.map_nil, hbase, hlast, Function.comp_def, Nat.mul_zero,
    Nat.add_zero, Nat.succ_eq_add_one]

/-- The store fails in its last unit. -/
theorem store_doubled (p : Nat) (part : Option Nat) : (doubledState.store p part (cisBase + 28) d).2 = true := by
  have hne : d.isEmpty = false := by
    rw [List.isEmpty_eq_false_iff, ← List.length_pos_iff]
    omega
  have htier : tierOf (cisBase + 28) = .cistern := tierOf_doubled (by omega)
  obtain ⟨n, hn⟩ : ∃ n, n = 2 ^ 25 - 1 := ⟨_, rfl⟩
  simp only [State.store, hne, failedChan_doubledState, failedStack_doubledState, State.writeWords, htier,
    unitsOf_doubled hd hn, List.foldl_append, List.foldl_cons, List.foldl_nil, Bool.false_eq_true, if_false, if_true, Bool.or_eq_true]
  exact .inr (writeUnit_doubled_last hd p
    (writeUnits_doubled_between hd p (Nat.le_of_eq hn) (writeUnit_doubled_first hd p)))

end

theorem cell_doubled (p : Nat) {o : Nat} (ho : o < 2 ^ 30 + 32) :
    doubledState.cell p (cisBase + o) = some (.cistern (doubledPlace (o % 2 ^ 30))) := by
  simp only [State.cell, tierOf_doubled ho, cisKey_doubled (m := doubledState.mem) rfl ho, Option.map_some]

/-- Of less than 1 GiB from one address on, no two bytes share a place. -/
theorem cell_doubled_ne (p : Nat) {o o' : Nat} (hlt : o < o') (hnear : o' < o + 2 ^ 30) (ho' : o' < 2 ^ 30 + 32) :
    doubledState.cell p (cisBase + o) ≠ doubledState.cell p (cisBase + o') := by
  rw [cell_doubled p (by omega), cell_doubled p ho']
  intro heq
  have hplace := doubledPlace_injective (by omega) (by omega) (Cell.cistern.inj (Option.some.inj heq))
  omega

/-- Refutes O60: in `doubledState` no channel or stack has failed, no word is in error and every byte of a store of
2^30 − 24 bytes has a place of its own, yet the store fails. Its partial first unit takes the armed injection at a word
that lies where a word of its partial last unit does, outside the bytes stored. The two groups overlap, which R193 lets
no manifest do; the statement asks no valid groups of its state. -/
theorem not_bytesReadBack : ¬ Obligations.BytesReadBack := by
  rintro ⟨-, hstores⟩
  obtain ⟨d, hd⟩ : ∃ d : List Byte, d.length = 2 ^ 30 - 24 := ⟨List.replicate _ 0, List.length_replicate⟩
  have hmapped (i : Nat) (hi : i < d.length) : (doubledState.cell 0 (cisBase + 28 + i)).isSome = true := by
    rw [Nat.add_assoc, cell_doubled 0 (by omega)]
    rfl
  have hapart (i j : Nat) (hij : i < j) (hj : j < d.length) :
      doubledState.cell 0 (cisBase + 28 + i) ≠ doubledState.cell 0 (cisBase + 28 + j) := by
    rw [Nat.add_assoc, Nat.add_assoc]
    exact cell_doubled_ne 0 (by omega) (by omega) (by omega)
  obtain ⟨hdone, -⟩ := (hstores doubledState 0 none).2 (cisBase + 28) d (by decide) (by decide)
    (failedChan_doubledState _ _) (failedStack_doubledState _) (fun _ _ _ _ => markAt_doubledState 0 _) hmapped hapart
  rw [store_doubled hd] at hdone
  exact Bool.noConfusion hdone

end Sys2Proof.Machine
end

section
/-!
PROOFS. The state of a link and its reason (chapter 8 of the spec): what leaves them alone, what each event of bring-up
comes to under its rule's conditions, and the statement O45.
-/

namespace Sys2Proof.Machine

/-! What is done on a link (R353). -/

/-- An event of a link acts while the module's clocks run, and the upstream link is then chosen anew. -/
theorem State.onLink_next {s : State} {l : Nat} {ok : Link → Bool} (g : State → State) (hclk : s.clocked = true)
    (hl : l < 36) (hok : ok (s.link l) = true) :
    (.next (s.onLink l ok g) : Host.Outcome State Fault Refusal) = .next (g s).refreshUplink :=
  congrArg Host.Outcome.next (if_pos ⟨hclk, hl, hok⟩)

theorem Link.isSt_of_eq {x : Link} {st : LinkSt} (h : x.st = st) : x.isSt st = true := decide_eq_true h

theorem Link.not_isSt_of_ne {x : Link} {st : LinkSt} (h : x.st ≠ st) : (!x.isSt st) = true := by
  simp [Link.isSt, h]

theorem Link.live_iff {x : Link} : x.live = true ↔ x.st = .beacon ∨ x.st = .up ∨ x.st = .fenced := by
  simp [Link.live, carriesTime]

/-! What leaves the links' states as they are. -/

/-- A link's state with its reason (Table 8.9). -/
def Link.phase (x : Link) : LinkSt × BitVec 3 := (x.st, x.reason)

theorem Link.keep_phase (x : Link) (q : QFrame) (f : Frame) : (x.keep q f).phase = x.phase := by
  unfold Link.keep
  split
  · split <;> rfl
  · rfl

/-- From `s` to `t` every link has kept its state and its reason. -/
def State.KeepsPhases (s t : State) : Prop := ∀ k, (t.link k).phase = (s.link k).phase

namespace State.KeepsPhases

variable {s t u : State}

theorem refl (s : State) : s.KeepsPhases s := fun _ => rfl

theorem of_links (hu : u.links = t.links) (h : s.KeepsPhases t) : s.KeepsPhases u := by
  intro k
  unfold State.link
  rw [hu]
  exact h k

theorem modLink (l : Nat) (g : Link → Link) (h : s.KeepsPhases t)
    (hg : ∀ x, (g x).phase = x.phase := by exact fun _ => rfl) : s.KeepsPhases (t.modLink l g) := by
  intro k
  rw [State.modLink_eq, State.setLink_link]
  split
  · next hk => rw [hg, hk, h l]
  · exact h k

theorem logLink (l code status : Nat) (h : s.KeepsPhases t) : s.KeepsPhases (t.logLink l code status) := by
  refine h.of_links ?_
  unfold State.logLink State.logAt
  dsimp only
  split <;> rfl

theorem nicSent (r : Option (Nat × Nat × BitVec 16)) (h : s.KeepsPhases t) : s.KeepsPhases (t.nicSent r) := by
  cases r with
  | none => exact h
  | some r => exact h.of_links (congrArg State.links ((HostOnly.refl t).completeKind _ _ _ _ _ _ _))

theorem noteSent (l : Nat) (f : Frame) (h : s.KeepsPhases t) : s.KeepsPhases (t.noteSent l f) := by
  refine h.of_links ?_
  unfold State.noteSent
  split <;> rfl

theorem putOut (l q : Nat) (laneB : Bool) (f : Frame) (h : s.KeepsPhases t) : s.KeepsPhases (t.putOut l q laneB f) :=
  h.modLink l _

theorem emit (l q : Nat) (f : QFrame) (h : s.KeepsPhases t) : s.KeepsPhases (t.emit l q f) := by
  refine ((h.putOut l q _ _).modLink l _ ?_).noteSent l _
  exact fun _ => (Link.keep_phase _ f _).trans rfl

theorem outside (l : Nat) (f : Frame) (h : s.KeepsPhases t) : s.KeepsPhases (t.outside l f) := h.modLink l _

theorem freeUnits (l i n : Nat) (h : s.KeepsPhases t) : s.KeepsPhases (t.freeUnits l i n) := by
  unfold State.freeUnits
  dsimp only
  split
  · exact ((h.modLink l _).outside l _).modLink l _
  · exact h.modLink l _

theorem unhold (e : Option (Nat × Nat × Nat)) (h : s.KeepsPhases t) : s.KeepsPhases (t.unhold e) := by
  cases e with
  | none => exact h
  | some e => exact h.freeUnits _ _ _

/-- A queued frame leaves on its link. -/
theorem sendQueued (l q : Nat) (f : QFrame) (h : s.KeepsPhases t) :
    s.KeepsPhases ((((t.modLink l (fun y => { y with queues := tabMod [] y.queues q (fun fs => fs.erase f) })).emit
      l q f).unhold f.held).nicSent f.nic) :=
  (((h.modLink l _).emit l q f).unhold _).nicSent _

theorem drainLink (l : Nat) (h : s.KeepsPhases t) : s.KeepsPhases (t.drainLink l) := by
  unfold State.drainLink
  dsimp only
  split
  · exact h
  · split
    · exact h.sendQueued l _ _
    · split
      · exact (h.modLink l _).putOut l 7 _ _
      · split
        · exact h.sendQueued l _ _
        · exact h

theorem enqueue (l q : Nat) (f : QFrame) (h : s.KeepsPhases t) : s.KeepsPhases (t.enqueue l q f) :=
  (h.modLink l _).drainLink l

theorem noLink (l : Nat) (e : Option (Nat × Nat × Nat)) (h : s.KeepsPhases t) : s.KeepsPhases (t.noLink l e) :=
  ((h.modLink l _).logLink l _ _).unhold e

/-- The frames of a link that has left UP move to other links, none of which changes its state (R240). -/
theorem moveFrames (l : Nat) (h : s.KeepsPhases t) : s.KeepsPhases (t.moveFrames l) := by
  unfold State.moveFrames
  dsimp only
  refine eachDo_induct (P := s.KeepsPhases) (fun e _ u hu => ?_) (h.modLink l _)
  split
  · exact hu.enqueue _ _ _
  · exact hu.noLink _ _

end State.KeepsPhases

/-! The state that a link enters, and its reason (R236, R238, R239). -/

theorem State.modLink_phase (s : State) (l : Nat) (g : Link → Link) :
    ((s.modLink l g).link l).phase = (g (s.link l)).phase := by
  rw [State.modLink_eq, State.setLink_link, if_pos rfl]

theorem State.linkDown_phase (s : State) (l reason : Nat) :
    ((s.linkDown l reason).link l).phase = (.down, BitVec.ofNat 3 reason) := by
  unfold State.linkDown
  extract_lets x s1 s2
  have hentry : (s1.link l).phase = (.down, BitVec.ofNat 3 reason) := s.modLink_phase l _
  have hlogged : s1.KeepsPhases s2 := by
    simp only [s2]
    split
    · exact (KeepsPhases.refl s1).logLink l _ _
    · exact KeepsPhases.refl s1
  split
  · exact (hlogged.moveFrames l l).trans hentry
  · exact (hlogged l).trans hentry

theorem State.attemptFailed_phase (s : State) (l reason : Nat) :
    ((s.attemptFailed l reason).link l).phase = (.down, BitVec.ofNat 3 reason) := by
  have hdown := KeepsPhases.refl (s.linkDown l reason)
  have hnoted := (hdown.modLink l (fun x => { x with failedAt := some s.now })).logLink l 0x2009 scOk
  refine Eq.trans ?_ (s.linkDown_phase l reason)
  unfold State.attemptFailed
  dsimp only
  split
  · exact hnoted l
  · split
    · exact hnoted l
    · exact hdown l

theorem State.linkDisable_phase (s : State) (l : Nat) : ((s.linkDisable l).link l).phase = (.disabled, 0) := by
  unfold State.linkDisable
  extract_lets x s1
  have hentry : (s1.link l).phase = (.disabled, 0) := s.modLink_phase l _
  split
  · exact ((KeepsPhases.refl s1).moveFrames l l).trans hentry
  · exact hentry

theorem State.linkUp_phase (s : State) (l : Nat) : ((s.linkUp l).link l).phase = (.up, 0) := by
  unfold State.linkUp
  extract_lets x s1 s2
  have hentry : (s1.link l).phase = (.up, 0) := (s.forgetHeld l).modLink_phase l _
  have hlogged : s1.KeepsPhases s2 := (KeepsPhases.refl s1).logLink l _ _
  refine Eq.trans (KeepsPhases.drainLink l ?_ l) hentry
  split
  · exact hlogged.logLink l _ _
  · exact hlogged

theorem State.linkFence_phase (s : State) (l reason code status : Nat) :
    ((s.linkFence l reason code status).link l).phase = (.fenced, BitVec.ofNat 3 reason) := by
  unfold State.linkFence
  extract_lets x s1
  have hentry : (s1.link l).phase = (.fenced, BitVec.ofNat 3 reason) :=
    ((KeepsPhases.refl _).logLink l code status l).trans (s.modLink_phase l _)
  split
  · exact ((KeepsPhases.refl s1).moveFrames l l).trans hentry
  · exact hentry

/-! MAC_CTL (R236, R239). -/

section

variable {s : State} {l : Nat} (hclk : s.clocked = true) (hl : l < 36)
include hclk hl

theorem exec_linkAdminDown_disables {fn : Nat} (hsees : s.sees fn .pf = true) :
    exec (.linkAdminDown fn l) s
      = .next (((s.modLink l (fun y => { y with adminUp := false })).linkDisable l).refreshUplink) :=
  (congrArg Host.Outcome.next (State.onBar_sees _ hsees)).trans (State.onLink_next _ hclk hl rfl)

/-- A link that is DISABLED and has a role goes to DOWN (Table 8.4). -/
theorem exec_linkAdminUp_downs {fn : Nat} (hsees : s.sees fn .pf = true) (hst : (s.link l).st = .disabled)
    (hrole : ((s.link l).torus || (s.link l).switched) = true) :
    exec (.linkAdminUp fn l) s
      = .next (((s.modLink l (fun y => { y with adminUp := true })).modLink l
          (fun y => { y with st := .down })).refreshUplink) := by
  have henabled : (s.modLink l (fun y => { y with adminUp := true })).enableLink l
      = (s.modLink l (fun y => { y with adminUp := true })).modLink l (fun y => { y with st := .down }) := by
    refine if_pos ?_
    rw [State.modLink_eq, State.setLink_link, if_pos rfl]
    exact ⟨hst, rfl, hrole⟩
  rw [← henabled]
  exact (congrArg Host.Outcome.next (State.onBar_sees _ hsees)).trans (State.onLink_next _ hclk hl rfl)

theorem exec_retrain_downs {fn : Nat} (hsees : s.sees fn .pf = true) (hst : (s.link l).st ≠ .disabled) :
    exec (.retrain fn l) s = .next (s.linkDown l 0).refreshUplink :=
  (congrArg Host.Outcome.next (State.onBar_sees _ hsees)).trans
    (State.onLink_next _ hclk hl (Link.not_isSt_of_ne hst))

/-! Bring-up (R236, Table 8.4). -/

theorem exec_alignDone_beacons (hst : (s.link l).st = .align) (hbeacons : (s.link l).beacons = true) :
    exec (.alignDone l) s
      = .next (s.modLink l (fun y => { y with st := .beacon, lasers := true, seenValid := false })).refreshUplink := by
  have hnow : ((s.linkTo l .beacon).modLink l (fun x => { x with seenValid := false }))
      = s.modLink l (fun y => { y with st := .beacon, lasers := true, seenValid := false }) := by
    simp [State.linkTo]
  refine (State.onLink_next _ hclk hl (Link.isSt_of_eq hst)).trans ?_
  rw [if_pos hbeacons, hnow]

/-- Where no beacons are exchanged the link enters UP at once. -/
theorem exec_alignDone_ups (hst : (s.link l).st = .align) (hbeacons : (s.link l).beacons = false) :
    exec (.alignDone l) s = .next (s.linkUp l).refreshUplink := by
  refine (State.onLink_next _ hclk hl (Link.isSt_of_eq hst)).trans ?_
  rw [if_neg (ne_true_of_eq_false hbeacons)]

theorem exec_beaconWaitTimeout_fails (hst : (s.link l).st = .beacon) (hseen : (s.link l).seenValid = false) :
    exec (.beaconWaitTimeout l) s = .next (s.attemptFailed l 7).refreshUplink :=
  State.onLink_next _ hclk hl (by simp [Link.isSt, hst, hseen])

/-- The PCS takes a link that bring-up has left, or has not begun, to DOWN. -/
theorem exec_pcs_downs (hst : (s.link l).st = .up ∨ (s.link l).st = .fenced ∨ (s.link l).st = .down) :
    exec (.pcsAlignmentLost l) s = .next (s.linkDown l 4).refreshUplink
      ∧ exec (.pcsHighSer l) s = .next (s.linkDown l 5).refreshUplink := by
  have hon : (!(s.link l).isSt .disabled) = true :=
    Link.not_isSt_of_ne (by rcases hst with h | h | h <;> simp [h])
  have hdown (reason : Nat) : s.pcsDown l reason = s.linkDown l reason :=
    if_neg (by rcases hst with h | h | h <;> simp [h])
  rw [← hdown, ← hdown]
  exact ⟨State.onLink_next _ hclk hl hon, State.onLink_next _ hclk hl hon⟩

/-- During bring-up the loss of the PCS is a failed attempt (log entry 46). -/
theorem exec_pcs_fails (hst : (s.link l).st = .optics ∨ (s.link l).st = .align ∨ (s.link l).st = .beacon) :
    exec (.pcsAlignmentLost l) s = .next (s.attemptFailed l 4).refreshUplink
      ∧ exec (.pcsHighSer l) s = .next (s.attemptFailed l 5).refreshUplink := by
  have hon : (!(s.link l).isSt .disabled) = true :=
    Link.not_isSt_of_ne (by rcases hst with h | h | h <;> simp [h])
  have hfailed (reason : Nat) : s.pcsDown l reason = s.attemptFailed l reason := if_pos hst
  rw [← hfailed, ← hfailed]
  exact ⟨State.onLink_next _ hclk hl hon, State.onLink_next _ hclk hl hon⟩

end

/-- Settles O45: what a link enters it is in, and each event of bring-up comes to that entry (log entry 46). -/
theorem bringUpComplete : Obligations.BringUpComplete := by
  intro s fn l x adm next
  refine ⟨fun r => ?entered, fun hclk hl => ⟨fun hsees => ⟨exec_linkAdminDown_disables hclk hl hsees,
    exec_linkAdminUp_downs hclk hl hsees, exec_retrain_downs hclk hl hsees⟩, fun hst => ?retry, fun hst => ?optics,
    fun hst => ⟨exec_alignDone_beacons hclk hl hst, exec_alignDone_ups hclk hl hst, ?align⟩,
    exec_beaconWaitTimeout_fails hclk hl, exec_pcs_downs hclk hl, exec_pcs_fails hclk hl⟩⟩
  case entered =>
    obtain ⟨hdown, hdownReason⟩ := Prod.ext_iff.mp (s.linkDown_phase l r)
    obtain ⟨hfailed, hfailedReason⟩ := Prod.ext_iff.mp (s.attemptFailed_phase l r)
    exact ⟨hdown, hdownReason, hfailed, hfailedReason, congrArg Prod.fst (s.linkDisable_phase l),
      congrArg Prod.fst (s.linkUp_phase l)⟩
  case retry => exact State.onLink_next _ hclk hl (Link.isSt_of_eq hst)
  case optics =>
    exact ⟨State.onLink_next _ hclk hl (Link.isSt_of_eq hst), State.onLink_next _ hclk hl (Link.isSt_of_eq hst)⟩
  case align => exact State.onLink_next _ hclk hl (Link.isSt_of_eq hst)

end Sys2Proof.Machine
end

section
/-!
PROOFS. Beacons (chapter 8 of the spec): what each received beacon and each of their timeouts comes to under its rule's
conditions, and the statement O46.
-/

namespace Sys2Proof.Machine

/-! Received beacons (R237, R238). -/

/-- The state in which a received beacon has been counted and kept (Table 8.9). -/
def State.beaconKept (s : State) (l : Nat) (b : Beacon) : State := (s.countRx l).modLink l (fun y => y.see b)

/-- The link as a received beacon leaves it: counted, and with what the beacon says. -/
theorem State.beaconKept_link (s : State) (l : Nat) (b : Beacon) :
    (s.beaconKept l b).link l = { (s.link l).see b with rxFrames := (s.link l).rxFrames + 1 } := by
  simp [State.beaconKept, State.countRx, Link.see]

/-- Counting and keeping a beacon leaves the link's wiring as it is. -/
theorem State.beaconKept_wiringMatches (s : State) (l : Nat) (b : Beacon) :
    (s.beaconKept l b).wiringMatches l b = s.wiringMatches l b := by
  unfold State.wiringMatches State.peerOf
  rw [State.beaconKept_link]
  rfl

/-- A beacon of another pair fences the link, unless the epochs are one apart (R238). -/
theorem State.beaconBad_pair {s : State} {l : Nat} {b : Beacon} (hpair : s.pairMatches b.epoch b.digest = false)
    (hapart : oneApart b.epoch s.pair.2 = false) : s.beaconBad l b = s.linkFence l 1 0x2003 scManifest := by
  simp only [State.beaconBad, hpair, hapart, Bool.not_false, Bool.and_self, if_true]

/-- A beacon of the module's pair from a wrong neighbour fences the link. -/
theorem State.beaconBad_wiring {s : State} {l : Nat} {b : Beacon} (hpair : s.pairMatches b.epoch b.digest = true)
    (hwiring : s.wiringMatches l b = false) : s.beaconBad l b = s.linkFence l 2 0x2004 scManifest := by
  simp only [State.beaconBad, hpair, hwiring, Bool.not_true, Bool.not_false, Bool.false_and, Bool.false_eq_true,
    if_false, if_true]

/-- A beacon of a pair one epoch apart from the right neighbour begins a grace where none lasts. -/
theorem State.beaconBad_grace {s : State} {l : Nat} {b : Beacon} (hpair : s.pairMatches b.epoch b.digest = false)
    (hapart : oneApart b.epoch s.pair.2 = true) (hwiring : s.wiringMatches l b = true)
    (hgrace : (s.link l).graceFrom = none) :
    s.beaconBad l b = s.modLink l (fun x => { x with graceFrom := some s.now }) := by
  simp only [State.beaconBad, hpair, hapart, hwiring, hgrace, Bool.not_true, Bool.not_false, Bool.and_false,
    Option.isSome_none, Bool.false_eq_true, if_false]

section

variable {s : State} {l : Nat} (hclk : s.clocked = true) (hl : l < 36) (hbeacons : (s.link l).beacons = true)
include hclk hl hbeacons

/-- A beacon that matches ends a grace; with PEER_OK it takes a link that is not UP to UP (R238). -/
theorem exec_beaconReceived_matches {b : Beacon} (hlive : (s.link l).live = true)
    (hpair : s.pairMatches b.epoch b.digest = true) (hwiring : s.wiringMatches l b = true) :
    let s2 := (s.beaconKept l b).modLink l (fun y => { y with peerOkAt := some s.now, graceFrom := none })
    exec (.beaconReceived l b) s
      = .next (if b.peerOk = true ∧ ((s.link l).st = .beacon ∨ (s.link l).st = .fenced)
          then s2.linkUp l else s2).refreshUplink := by
  refine (State.onLink_next _ hclk hl (by simp [hlive, hbeacons])).trans ?_
  dsimp only
  rw [if_pos (by simp [hpair, hwiring])]
  rfl

/-- A beacon that does not match, on a link in UP, is judged by its pair and its wiring (R238). -/
theorem exec_beaconReceived_bad {b : Beacon} (hst : (s.link l).st = .up)
    (hbad : (s.pairMatches b.epoch b.digest && s.wiringMatches l b) = false) :
    exec (.beaconReceived l b) s = .next ((s.beaconKept l b).beaconBad l b).refreshUplink := by
  have hlive : (s.link l).live = true := Link.live_iff.mpr (.inr (.inl hst))
  refine (State.onLink_next _ hclk hl (by simp [hlive, hbeacons])).trans ?_
  dsimp only
  rw [if_neg (ne_true_of_eq_false hbad), if_pos hst]
  rfl

theorem exec_beaconDue_sends (hlive : (s.link l).live = true) :
    exec (.beaconDue l) s = .next (s.emitNow l (.beacon (s.beacon l))).refreshUplink :=
  State.onLink_next _ hclk hl (by simp [hlive, hbeacons])

theorem exec_beaconLossTimeout_fences (hst : (s.link l).st = .up ∨ (s.link l).st = .fenced) :
    exec (.beaconLossTimeout l) s = .next (s.linkFence l 3 0x2005 scWatchdog).refreshUplink :=
  State.onLink_next _ hclk hl (by rcases hst with h | h <;> simp [Link.isSt, h, hbeacons])

omit hbeacons

/-- At the end of its grace a link is judged by the last pair that it received (R238). -/
theorem exec_beaconGraceExpiry_judges (hst : (s.link l).st = .up) (hgrace : (s.link l).graceFrom ≠ none) :
    exec (.beaconGraceExpiry l) s
      = .next (if s.pairMatches (s.link l).bcnEpoch (s.link l).bcnDigest = true
          then s.modLink l (fun y => { y with graceFrom := none })
          else s.linkFence l 1 0x2003 scManifest).refreshUplink :=
  State.onLink_next _ hclk hl (by simp [Link.isSt, hst, Option.isSome_iff_ne_none, hgrace])

end

/-- Settles O46: a received beacon is judged by its pair before its wiring (log entry 46), and a fence is entered by
the one operation. -/
theorem beaconsComplete : Obligations.BeaconsComplete := by
  intro s l b x s1 s2 ok next
  refine ⟨fun r c st => ?fence, fun hclk hl hbeacons => ⟨fun hlive => ⟨exec_beaconDue_sends hclk hl hbeacons hlive,
    fun ⟨hpair, hwiring⟩ hpeer hst => ?ups, fun ⟨hpair, hwiring⟩ hstays => ?stays⟩,
    fun hst => ⟨fun hpair hapart => ?pair, fun hpair hwiring => ?wiring, fun hpair hapart hwiring hgrace => ?grace,
      fun hgrace hpair => ?graceFences, fun hgrace hpair => ?graceEnds⟩,
    exec_beaconLossTimeout_fences hclk hl hbeacons⟩⟩
  case fence => exact Prod.ext_iff.mp (s.linkFence_phase l r c st)
  case ups =>
    rw [exec_beaconReceived_matches hclk hl hbeacons hlive hpair hwiring, if_pos ⟨hpeer, hst⟩]
    rfl
  case stays =>
    have hnotUp : ¬ (b.peerOk = true ∧ (x.st = .beacon ∨ x.st = .fenced)) := by
      rintro ⟨hpeer, hst⟩
      rcases hstays with hno | hup
      · exact ne_true_of_eq_false hno hpeer
      · rcases hst with hst | hst <;> exact LinkSt.noConfusion (hup.symm.trans hst)
    rw [exec_beaconReceived_matches hclk hl hbeacons hlive hpair hwiring, if_neg hnotUp]
    rfl
  case pair =>
    rw [exec_beaconReceived_bad hclk hl hbeacons hst (by simp [hpair]),
      State.beaconBad_pair (s := s.beaconKept l b) hpair hapart]
    rfl
  case wiring =>
    rw [exec_beaconReceived_bad hclk hl hbeacons hst (by simp [hwiring]),
      State.beaconBad_wiring (s := s.beaconKept l b) hpair ((s.beaconKept_wiringMatches l b).trans hwiring)]
    rfl
  case grace =>
    have hstands : ((s.beaconKept l b).link l).graceFrom = none := by
      rw [State.beaconKept_link]
      exact hgrace
    have hfrom := (s.beaconKept_wiringMatches l b).trans hwiring
    rw [exec_beaconReceived_bad hclk hl hbeacons hst (by simp [hpair]),
      State.beaconBad_grace (s := s.beaconKept l b) hpair hapart hfrom hstands]
    rfl
  case graceFences =>
    rw [exec_beaconGraceExpiry_judges hclk hl hst hgrace, if_neg (ne_true_of_eq_false hpair)]
  case graceEnds => rw [exec_beaconGraceExpiry_judges hclk hl hst hgrace, if_pos hpair]

end Sys2Proof.Machine
end

section
/-!
PROOFS. Flow control (chapter 8 of the spec): what each acknowledgement, credit frame, PFC frame and timeout comes to
under its rule's conditions, and the statement O47.
-/

namespace Sys2Proof.Machine

/-! Milestone frames in the replay buffer (R235). -/

/-- A frame stays that ACKSEQ does not acknowledge: half of the sequence space or more behind it. -/
theorem Link.ackedTo_replay (x : Link) (ackseq : BitVec 16) :
    (x.ackedTo ackseq).replay = x.replay.filter (fun r => decide (32768 ≤ (ackseq - r.msg.lseq).toNat)) := by
  simp [Link.ackedTo, msAcked, ← decide_not]

/-- Each frame that is sent again is one that was there, with one more resend counted. -/
theorem Link.mem_retransmit_replay {x : Link} {r : ReplayFrame} (h : r ∈ x.retransmit.replay) :
    ∃ r0 ∈ x.replay, r = { r0 with resent := r0.resent + 1 } := by
  obtain ⟨r0, hmem, heq⟩ := List.mem_map.mp h
  exact ⟨r0, hmem, heq.symm⟩

section

variable {s : State} {l : Nat} (hclk : s.clocked = true) (hl : l < 36)
include hclk hl

theorem exec_controlRetxTimeout_resends (hst : (s.link l).st = .up) (hne : (s.link l).replay ≠ [])
    (hfew : ∀ r ∈ (s.link l).replay, r.resent < 8) :
    exec (.controlRetxTimeout l) s = .next ((s.modLink l Link.retransmit).drainLink l).refreshUplink := by
  have hnone : ¬ (s.link l).replay.any (fun r => decide (8 ≤ r.resent)) = true := by
    simpa using hfew
  refine (State.onLink_next _ hclk hl (by simp [Link.isSt, hst, hne])).trans ?_
  rw [if_neg hnone]

/-- A frame that has been sent again eight times takes its link down. -/
theorem exec_controlRetxTimeout_downs (hst : (s.link l).st = .up) (hmany : ∃ r ∈ (s.link l).replay, 8 ≤ r.resent) :
    exec (.controlRetxTimeout l) s = .next ((s.logLink l 0x2008 scTimeout).linkDown l 6).refreshUplink := by
  obtain ⟨r, hmem, hr⟩ := hmany
  have hany : (s.link l).replay.any (fun r => decide (8 ≤ r.resent)) = true :=
    List.any_eq_true.mpr ⟨r, hmem, decide_eq_true hr⟩
  refine (State.onLink_next _ hclk hl (by simp [Link.isSt, hst, List.ne_nil_of_mem hmem])).trans ?_
  rw [if_pos hany]

/-! Credits (R243). -/

theorem exec_creditFrameTimer_sends (hlive : (s.link l).live = true) (htorus : (s.link l).torus = true) :
    exec (.creditFrameTimer l) s = .next (s.sendCredit l).refreshUplink :=
  State.onLink_next _ hclk hl (by simp [hlive, htorus])

/-- A credit frame is counted, and each of the eight pairs of queue and lane takes the credits returned to it. -/
theorem exec_creditFrameReceived_credits {cred : List (BitVec 16)} (hlive : (s.link l).live = true)
    (htorus : (s.link l).torus = true) (hlen : cred.length = 8) :
    exec (.creditFrameReceived l cred) s
      = .next ((s.modLink l (fun y => (List.range 8).foldl (fun y i => y.credited cred i)
          { y with rxFrames := y.rxFrames + 1 })).drainLink l).refreshUplink := by
  refine (State.onLink_next _ hclk hl (by simp [hlive, htorus, hlen])).trans ?_
  simp only [State.countRx, State.modLink_eq, State.setLink_link, if_true, State.setLink_setLink]

/-! Priority flow control (R244, R245). -/

/-- A PFC frame is counted, and pauses or resumes each priority on which PFC is honoured. -/
theorem exec_pfcFrameReceived_pauses {enable : Byte} {times : List (BitVec 16)} (hlive : (s.link l).live = true)
    (htorus : (s.link l).torus = false) (hlen : times.length = 8) :
    exec (.pfcFrameReceived l enable times) s
      = .next ((s.modLink l (fun y => (List.range 8).foldl (fun y p => y.pfc enable times p)
          { y with rxFrames := y.rxFrames + 1 })).drainLink l).refreshUplink := by
  refine (State.onLink_next _ hclk hl (by simp [hlive, hlen])).trans ?_
  simp only [htorus, State.countRx, State.modLink_eq, State.setLink_link, State.setLink_setLink, Bool.false_eq_true,
    if_false, if_true]

theorem exec_pfcPauseExpiry_resumes {prio : Nat} (hprio : prio < 8)
    (hpaused : bitAt (s.link l).paused.toNat prio = true) :
    exec (.pfcPauseExpiry l prio) s
      = .next ((s.modLink l (fun y => { y with paused := setB y.paused prio false })).drainLink l).refreshUplink :=
  State.onLink_next _ hclk hl (by simp [hprio, hpaused])

/-- The queue of a priority that is paused too long is emptied; without a NIC frame in it no send ends with that. -/
theorem exec_pfcWatchdogFire_empties {prio : Nat} (hprio : prio < 8)
    (hpaused : bitAt (s.link l).paused.toNat prio = true) (hswitched : (s.link l).switched = true)
    (hnic : ∀ f ∈ tabGet [] (s.link l).queues prio, f.nic = none) :
    exec (.pfcWatchdogFire l prio) s
      = .next ((s.modLink l (fun y => { y with
          queues := tabSet y.queues prio [],
          wdDrops := y.wdDrops + BitVec.ofNat 64 (tabGet [] (s.link l).queues prio).length,
          paused := setB y.paused prio false, storm := setB y.storm prio true,
          recovering := setB y.recovering prio true })).logLink l 0x2007 scWatchdog).refreshUplink := by
  refine (State.onLink_next _ hclk hl (by simp [hprio, hpaused, hswitched])).trans ?_
  dsimp only
  rw [eachDo_fixed fun f hf => by rw [hnic f hf]; rfl]

theorem exec_pfcRepeatTimer_asks {prio : Nat} (hst : (s.link l).st = .up) (hswitched : (s.link l).switched = true)
    (hprio : prio < 4) (hen : bitAt (s.link l).pfcTxEn.toNat prio = true)
    (hsent : bitAt (s.link l).pfcSent.toNat prio = true) :
    exec (.pfcRepeatTimer l prio) s = .next (s.pfcAsk l prio).refreshUplink :=
  State.onLink_next _ hclk hl (by simp [Link.mayPfc, Link.isSt, hst, hswitched, hprio, hen, hsent])

theorem exec_pfcRecoveryEnd_honours {prio : Nat} (hprio : prio < 8)
    (hrec : bitAt (s.link l).recovering.toNat prio = true) :
    exec (.pfcRecoveryEnd l prio) s
      = .next (s.modLink l (fun y => { y with recovering := setB y.recovering prio false })).refreshUplink :=
  State.onLink_next _ hclk hl (by simp [hprio, hrec])

end

/-- Settles O47, event by event: each comes to the change of its link that its lemma above names. -/
theorem flowControlComplete : Obligations.FlowControlComplete := by
  intro s l prio ackseq cred times enable x fs next hclk hl
  exact ⟨fun hst => ⟨State.onLink_next _ hclk hl (Link.isSt_of_eq hst), x.ackedTo_replay ackseq,
      fun hne hfew => ⟨exec_controlRetxTimeout_resends hclk hl hst hne hfew, fun _ => Link.mem_retransmit_replay⟩,
      exec_controlRetxTimeout_downs hclk hl hst⟩,
    fun hlive htorus => ⟨exec_creditFrameTimer_sends hclk hl hlive htorus,
      exec_creditFrameReceived_credits hclk hl hlive htorus⟩,
    exec_pfcFrameReceived_pauses hclk hl,
    fun hprio hpaused => ⟨exec_pfcPauseExpiry_resumes hclk hl hprio hpaused,
      exec_pfcWatchdogFire_empties hclk hl hprio hpaused⟩,
    exec_pfcRepeatTimer_asks hclk hl,
    exec_pfcRecoveryEnd_honours hclk hl⟩

end Sys2Proof.Machine
end

section
/-!
PROOFS. Received frames (chapter 8 of the spec): what becomes of those for other modules, for the NIC function and for
the link's own address, and of those that are discarded; and the statement O48.
-/

namespace Sys2Proof.Machine

/-! Frames for other modules (R231, R232, R235, R243). -/

/-- A frame that travels by destination is for another module when its destination is one. -/
theorem State.passes_riris {s : State} {g : RirisFrame} (h : g.dst.toNat ≠ s.coord) : s.passes (.riris g) = true :=
  bne_iff_ne.mpr h

theorem State.passes_milestone {s : State} {m : MsMsg} (h : m.dst.toNat ≠ s.coord) : s.passes (.milestone m) = true :=
  bne_iff_ne.mpr h

/-- A TORUS link has receive buffers for the queues from 4 on (R243). -/
theorem State.place_torus {s : State} {l : Nat} (q : Nat) (laneB : Bool) (len : Nat) (h : (s.link l).torus = true) :
    s.place l q laneB len = if 4 ≤ q then some (l, 2 * (q - 4) + b2n laneB, frameUnits len) else none := by
  simp only [State.place, h, Bool.true_and, decide_eq_true_eq]

/-- The milestone frame that is next in order is acknowledged by its own LSEQ (R235). -/
theorem State.msAccept_inOrder {s : State} {l : Nat} {m : MsMsg} (h : m.lseq = (s.link l).expectLseq) :
    (s.countRx l).msAccept l m
      = ((s.countRx l).modLink l (fun y => { y with expectLseq := y.expectLseq + 1 })).emitNow l (.ctlAck m.lseq) := by
  have hnext : (s.countRx l).inOrder l m = true := by simp [State.inOrder, State.countRx, h]
  rw [State.msAccept, if_pos hnext, State.sendCtlAck]
  simp [State.countRx, h]

/-- Any other is answered with the last LSEQ that came in order. -/
theorem State.msAccept_outOfOrder {s : State} {l : Nat} {m : MsMsg} (h : m.lseq ≠ (s.link l).expectLseq) :
    (s.countRx l).msAccept l m = (s.countRx l).emitNow l (.ctlAck ((s.link l).expectLseq - 1)) := by
  have hlate : ¬ (s.countRx l).inOrder l m = true := by simp [State.inOrder, State.countRx, h]
  rw [State.msAccept, if_neg hlate, State.sendCtlAck]
  simp [State.countRx]

theorem State.forwardOn_milestone_inOrder {s : State} {l : Nat} (laneB : Bool) {m : MsMsg}
    (htorus : (s.link l).torus = true) (h : m.lseq = (s.link l).expectLseq) :
    s.forwardOn l laneB false (.milestone m)
      = (((s.countRx l).modLink l (fun y => { y with expectLseq := y.expectLseq + 1 })).emitNow l
          (.ctlAck m.lseq)).sendFrame (some l) laneB false (some (l, 6 + b2n laneB, frameUnits msLen))
            (.milestone m) := by
  have hnext : s.inOrder l m = true := beq_iff_eq.mpr h
  simp only [State.forwardOn, hnext, if_true, State.msAccept_inOrder h, State.place_torus _ _ _ htorus]
  rfl

/-- A milestone frame out of order leaves its place in the receive buffer. -/
theorem State.forwardOn_milestone_outOfOrder {s : State} {l : Nat} (laneB : Bool) {m : MsMsg}
    (htorus : (s.link l).torus = true) (h : m.lseq ≠ (s.link l).expectLseq) :
    s.forwardOn l laneB false (.milestone m)
      = (((s.countRx l).emitNow l (.ctlAck ((s.link l).expectLseq - 1))).freeUnits l (6 + b2n laneB)
          (frameUnits msLen)).drainLink l := by
  have hlate : s.inOrder l m = false := beq_eq_false_iff_ne.mpr h
  simp only [State.forwardOn, hlate, Bool.false_eq_true, if_false, State.msAccept_outOfOrder h,
    State.place_torus _ _ _ htorus]
  rfl

section

variable {s : State} {l : Nat} (hclk : s.clocked = true) (hl : l < 36)
include hclk

/-- In a switched installation a frame of this module for another is sent by R320. -/
theorem exec_switchedFrameSend_own {f : Frame} (hinst : s.switchedInst = true) (hpasses : s.passes f = true) :
    exec (.switchedFrameSend none f) s = .next (s.sendFrame none false false none f) :=
  congrArg Host.Outcome.next (if_pos ⟨hclk, hinst, hpasses⟩)

include hl

theorem exec_frameForward_passes {f : Frame} (laneB : Bool) (hst : (s.link l).st = .up)
    (htorus : (s.link l).torus = true) (hpasses : s.passes f = true) :
    exec (.frameForward l laneB f) s = .next (s.forwardOn l laneB false f).refreshUplink :=
  State.onLink_next _ hclk hl (by simp [Link.isSt, hst, htorus, hpasses])

/-! Ethernet frames (R227, R230, R246). -/

theorem exec_nicFrameReceived_takes {bytes : List Byte} (hst : (s.link l).st = .up ∨ (s.link l).st = .fenced)
    (hswitched : (s.link l).switched = true) (hmin : 60 ≤ bytes.length) (hmax : bytes.length ≤ 9212)
    (htagged : isTagged bytes = true) (hnic : s.isNicFrame l bytes = true) :
    exec (.nicFrameReceived l bytes) s
      = .next ((if netNat bytes 14 1 / 32 < 4
          then (s.countRx l).bufferNic l (netNat bytes 14 1 / 32) (bytes.length + 4)
          else s.countRx l).nicReceive l bytes).refreshUplink := by
  have hcarried : ((s.link l).isSt .up || (s.link l).isSt .fenced) = true := by simpa [Link.isSt] using hst
  exact State.onLink_next _ hclk hl (by simp [hcarried, hswitched, hmin, hmax, htagged, hnic])

theorem exec_arpNdFrame_answers {head body : List Byte} {reply : Frame} (hst : (s.link l).st = .up)
    (hswitched : (s.link l).switched = true) (htagged : isTagged (head ++ body) = true)
    (hreply : s.neighbourReply l (head ++ body) = some reply) :
    exec (.arpNdFrame l head body) s = .next ((s.countRx l).emitNow l reply).refreshUplink := by
  refine (State.onLink_next _ hclk hl (by simp [Link.isSt, hst, hswitched, htagged])).trans ?_
  rw [hreply]

/-- A frame that cannot be accepted, or that its link does not carry, is counted in the one counter or the other. -/
theorem exec_frameDiscarded_counts {fcsOk : Bool} {addrs tag body : List Byte} (hlive : (s.link l).live = true)
    (hdrop : (macBad fcsOk (addrs ++ tag ++ body) || (foreign (addrs ++ tag ++ body) && (s.link l).torus)) = true) :
    exec (.frameDiscarded l fcsOk addrs tag body) s
      = .next ((if fcsOk then s.countRx l else s).modLink l (fun y =>
          if macBad fcsOk (addrs ++ tag ++ body) then { y with rxErr := y.rxErr + 1 }
          else { y with nicDrops := y.nicDrops + 1 })).refreshUplink :=
  State.onLink_next _ hclk hl (by rw [hlive, hdrop]; rfl)

end

/-- What R227 and R234 do not accept: a bad FCS, a length outside 64 to 9,216 bytes, a reserved class. -/
theorem macBad_of {fcsOk : Bool} {b : List Byte}
    (h : fcsOk = false ∨ b.length < 60 ∨ 9212 < b.length
      ∨ (isTagged b = true ∧ netNat b 16 2 = 0x88B5 ∧ 0xF5 ≤ netNat b 18 1)) : macBad fcsOk b = true := by
  rcases h with hfcs | hshort | hlong | ⟨htagged, het, hcls⟩
  · simp [macBad, hfcs]
  · have hmin : b.length + 4 < 64 := by omega
    simp [macBad, hmin]
  · have hmax : 9216 < b.length + 4 := by omega
    simp [macBad, hmax]
  · simp [macBad, htagged, het, hcls]

/-- Settles O48: a forwarded frame keeps its place in its class's receive buffer until it leaves, and one that is
discarded gives it back (log entry 39); a frame without a tag is not accepted (log entry 76). -/
theorem framesComplete : Obligations.FramesComplete := by
  intro s l laneB fcsOk g m f reply bytes head body addrs tag x next lane acked all hclk
  refine ⟨fun hl hst htorus => ⟨fun hdst => ?riris, fun hdst => ⟨fun hseq => ?inOrder, fun hseq => ?outOfOrder⟩⟩,
    exec_switchedFrameSend_own hclk, fun hl => exec_nicFrameReceived_takes hclk hl,
    fun hl => exec_arpNdFrame_answers hclk hl,
    fun hl hlive => ⟨fun hbad => ?bad, fun hok htagged het htorus => ?foreign⟩⟩
  case riris =>
    have hheld := State.place_torus g.prio.toNat laneB (s.qframe l (.riris g)).len htorus
    rw [exec_frameForward_passes hclk hl laneB hst htorus (State.passes_riris hdst)]
    simp only [State.forwardOn, hheld]
    rfl
  case inOrder =>
    rw [exec_frameForward_passes hclk hl laneB hst htorus (State.passes_milestone hdst),
      State.forwardOn_milestone_inOrder laneB htorus hseq]
  case outOfOrder =>
    rw [exec_frameForward_passes hclk hl laneB hst htorus (State.passes_milestone hdst),
      State.forwardOn_milestone_outOfOrder laneB htorus hseq]
  case bad =>
    have hmac : macBad fcsOk (addrs ++ tag ++ body) = true := macBad_of hbad
    rw [exec_frameDiscarded_counts hclk hl hlive (by rw [hmac, Bool.true_or])]
    simp only [hmac, if_true]
    rfl
  case foreign =>
    have hmac : macBad fcsOk (addrs ++ tag ++ body) = false := hok
    have hforeign : foreign (addrs ++ tag ++ body) = true := by
      rw [foreign, htagged, Bool.true_and]
      exact bne_iff_ne.mpr het
    rw [exec_frameDiscarded_counts hclk hl hlive (by rw [hforeign, htorus, Bool.true_and, Bool.or_true])]
    simp only [hmac, Bool.false_eq_true, if_false]
    rfl

end Sys2Proof.Machine
end

section
/-!
PROOFS. NIC rings and function-level resets (chapters 8 and 14 of the spec): what each descriptor and each reset comes
to under its rule's conditions, and the statement O43.
-/

namespace Sys2Proof.Machine

/-! NIC rings (R247, R416, R417). -/

/-- Taking a descriptor leaves the links as they are. -/
theorem State.takeDesc_nicLink (s : State) (fn q l : Nat) : (s.takeDesc fn q).nicLink l = s.nicLink l := rfl

theorem exec_nicSendDescriptor_whole {s : State} {fn q : Nat} {desc : BitVec 512} {data : List Byte}
    (htakes : s.nicTakes fn q 1 desc = true) (hlen : data.length = (nicDesc desc).len)
    (hlink : (s.takeDesc fn q).nicLink (nicDesc desc).link = true) (hmss : (nicDesc desc).mss = 0)
    (hlenOk : (nicDesc desc).lenOk = true) (htagOk : (nicDesc desc).tagOk data = true) :
    exec (.nicSendDescriptor fn q desc data) s
      = .next ((s.takeDesc fn q).nicFrames (nicDesc desc).link (s.queue fn q).tc.toNat (fn, q, (nicDesc desc).cid)
          [tagFrame data (nicDesc desc).insertTag (s.queue fn q).tc.toNat (s.link (nicDesc desc).link).vid.toNat]) := by
  rw [State.takeDesc_nicLink] at hlink
  simp only [exec, execNicSendDescriptor, htakes, hlen, hlink, hmss, hlenOk, htagOk, and_self, Bool.and_self,
    Bool.not_true, Bool.false_eq_true, if_false, if_true]

/-- With MSS the frames are the segments of the send, in order. -/
theorem exec_nicSendDescriptor_segments {s : State} {fn q : Nat} {desc : BitVec 512} {data : List Byte} {h : TcpHdr}
    {fs : List (List Byte)} (htakes : s.nicTakes fn q 1 desc = true) (hlen : data.length = (nicDesc desc).len)
    (hlink : (s.takeDesc fn q).nicLink (nicDesc desc).link = true) (hmss : (nicDesc desc).mss ≠ 0)
    (hseg : (nicDesc desc).segment data = some h)
    (hfs : fs = (tcpSegments h (nicDesc desc) data).map (fun f => tagFrame f (nicDesc desc).insertTag
      (s.queue fn q).tc.toNat (s.link (nicDesc desc).link).vid.toNat))
    (hsome : fs ≠ []) :
    exec (.nicSendDescriptor fn q desc data) s
      = .next ((s.takeDesc fn q).nicFrames (nicDesc desc).link (s.queue fn q).tc.toNat
          (fn, q, (nicDesc desc).cid) fs) := by
  rw [State.takeDesc_nicLink] at hlink
  have hfull : fs.isEmpty = false := List.isEmpty_eq_false_iff.mpr hsome
  simp only [exec, execNicSendDescriptor, htakes, hlen, hlink, hmss, hseg, ← hfs, hfull, and_self, Bool.not_true,
    Bool.false_eq_true, if_false, if_true]

/-- A buffer that holds the largest frame is posted. -/
theorem exec_nicRxBufferPost_posts {s : State} {fn q : Nat} {desc : BitVec 512}
    (htakes : s.nicTakes fn q 2 desc = true) (hsize : 9216 ≤ bits desc.toNat 95 64) :
    exec (.nicRxBufferPost fn q desc) s
      = .next ((s.takeDesc fn q).modQueue fn q (fun y => { y with rxBufs := y.rxBufs ++
          [{ addr := w64 (bits desc.toNat 63 0), size := bits desc.toNat 95 64,
             cid := BitVec.ofNat 16 (bits desc.toNat 111 96) }] })) := by
  have hroom : ¬ bits desc.toNat 95 64 < 9216 := Nat.not_lt.mpr hsize
  simp only [exec, execNicRxBufferPost, htakes, if_true, if_neg hroom]

/-! Function-level resets (R407). -/

/-- Does a function hold no notes, and is none of its queues enabled? -/
def Fn.Silent (x : Fn) : Prop := x.held = [] ∧ ∀ e ∈ x.queues, e.2.en = false

theorem Fn.reset_silent (x : Fn) : x.reset.Silent := by
  refine ⟨rfl, fun e he => ?_⟩
  obtain ⟨e0, -, rfl⟩ := List.mem_map.mp he
  rfl

/-- A pass of resets leaves every function in its range silent. -/
theorem State.resetFns_silent (s : State) {f n : Nat} (hf : f < n) :
    ((eachDo (List.range n) (fun f t => t.modFn f Fn.reset) s).fn f).Silent := by
  refine eachDo_establishes (I := fun _ => True) (P := fun t => (t.fn f).Silent) (x := f) (fun _ _ _ _ => trivial)
    (fun t _ => ?own) (fun k _ t _ ht => ?others) (List.mem_range.mpr hf) trivial
  case own =>
    rw [State.modFn_eq, State.setFn_fn, if_pos rfl]
    exact (t.fn f).reset_silent
  case others =>
    rw [State.modFn_eq, State.setFn_fn]
    split
    · exact (t.fn k).reset_silent
    · exact ht

/-- An entry of Serai leaves the functions as they are. -/
theorem State.logSeraiAt_fn (s : State) (code status : Nat) (part : Option Nat) (args snaps : List Word) (f : Nat) :
    (s.logAt .serai code status part args snaps).fn f = s.fn f := by
  unfold State.logAt
  dsimp only
  split <;> rfl

theorem exec_flrVf_resets {s : State} {fn : Nat} (hup : s.barUp = true) (hlo : 1 ≤ fn) (hhi : fn ≤ 16) :
    exec (.flrVf fn) s
      = .next (((if (s.fn fn).bound ∧ s.clocked then s.stopPart (s.fn fn).part.toNat .flr else s).modFn fn
          Fn.reset).logPcie 0x0305 scOk fn 0 []) :=
  congrArg Host.Outcome.next (if_pos ⟨hup, hlo, hhi⟩)

theorem exec_flrPf_resets {s : State} (hup : s.barUp = true) : exec .flrPf s = .next s.resetPf :=
  congrArg Host.Outcome.next (if_pos hup)

theorem State.resetPf_silent (s : State) {f : Nat} (hf : f < 17) : (s.resetPf.fn f).Silent := by
  rw [State.resetPf, State.logPcie, State.logSeraiAt_fn]
  exact State.resetFns_silent _ hf

/-- Settles O43: a send is queued as the headers that it carries say (log entry 44), and a reset leaves its functions
silent, with one entry of code 0x0305, the PF's for function 0 (log entry 45). -/
theorem nicAndResetComplete : Obligations.NicAndResetComplete := by
  intro s fn q desc data h d tc vid s1 b fs x
  exact ⟨fun htakes hlen hlink => ⟨exec_nicSendDescriptor_whole htakes hlen hlink,
      fun hmss hseg => exec_nicSendDescriptor_segments htakes hlen hlink hmss hseg rfl⟩,
    exec_nicRxBufferPost_posts,
    fun hup hlo hhi => ⟨exec_flrVf_resets hup hlo hhi, x.reset_silent⟩,
    fun hup => ⟨s.resetPf, exec_flrPf_resets hup, rfl, fun _ => s.resetPf_silent⟩⟩

end Sys2Proof.Machine
end

section
/-!
PROOFS. REMOTE (chapter 9 of the spec): what each kind of operation starts under its rule's conditions, how one whose
last frame is acknowledged ends, and the statement O14.
-/

namespace Sys2Proof.Machine

/-! Issue (R256 to R258). -/

theorem State.counted_nextOp (s : State) (p : Nat) : ((s.counted p).core p).nextOp = (s.core p).nextOp := by
  rw [State.counted_core]
  rfl

/-- A WRITE or WRITE_NOTIFY whose piece is read and whose toll is paid sends the piece's frames. -/
theorem State.remoteWrite_paid {u v : State} {p part q kind : Nat} {stm : BitVec 3} {w : Waybill} {f : RirisFrame}
    {fs : List RirisFrame} (hread : u.coreRead p part w.rows stm [w.tag] = (u, true))
    (hv : (u.tallyTier p (rdTally (tierOf w.base)) w.bytes).debit p [(tollKey 3 q, units w.bytes)] = some v)
    (hfs : dataFrames { f with oplen := w32 w.bytes } (v.qp q).mtuBytes (u.pieceBytes p w) = fs) :
    u.remoteWrite p part q stm w f kind = v.sendOp p q (.remote q kind fs.length) stm w.rows w.bytes w.tag fs := by
  simp only [State.remoteWrite, hread, Bool.not_true, Bool.false_eq_true, if_false, hv, hfs]

/-- The class of a REMOTE that carries a piece is one above its kind (Table 9.4). -/
theorem remoteClass_of_le_one {kind : BitVec 2} (h : kind.toNat ≤ 1) :
    kind ≠ 2 ∧ kind ≠ 3 ∧ (if kind = 0 then 1 else 2) = kind.toNat + 1 := by
  revert kind
  decide

section

variable {s : State} {i : Issue} {p pc : Nat} {loc : BitVec 14} {qp : BitVec 20} {rkey : Word} {roff : BitVec 44}
  {kind : BitVec 2} {w : Waybill} (hf : (s.core p).fence = none) (hq : s.checkQp (s.partNo i.core) qp.toNat = .ok)

include hf hq

theorem exec_remote_notifies (h : s.Issues i.core (.remote i loc qp rkey roff 3) p pc) :
    exec (.remote i loc qp rkey roff 3) s
      = .next ((s.counted p).sendOp p qp.toNat (.remote qp.toNat 3 1) i.stm [] 0 0
          [{ (s.counted p).mkFrame qp.toNat 5 with rkey := rkey, roff := roff.setWidth 48 }]) := by
  simp only [exec, execRemote, h.1, hq, State.issueWrite_unfenced _ h hf, if_true]

theorem exec_remote_reads (h : s.Issues i.core (.remote i loc qp rkey roff 2) p pc)
    (hw : (s.counted p).readWb p (s.partNo i.core) i.stm loc true = (s.counted p, some w)) (hpos : w.bytes ≠ 0)
    (hlt : w.bytes < 2 ^ 32) :
    exec (.remote i loc qp rkey roff 2) s
      = .next ((s.counted p).remoteRead p qp.toNat i.stm w
          { (s.counted p).mkFrame qp.toNat 3 with rkey := rkey, roff := roff.setWidth 48 }) := by
  have hfits : ¬ (w.bytes = 0 ∨ 2 ^ 32 ≤ w.bytes) := by omega
  have hkind : ¬ (2 : BitVec 2) = 3 := by decide
  simp only [exec, execRemote, h.1, hq, State.issueWrite_unfenced _ h hf, if_neg hkind, decide_true, hw, if_neg hfits,
    if_true]

theorem exec_remote_writes (hkind : kind.toNat ≤ 1) (h : s.Issues i.core (.remote i loc qp rkey roff kind) p pc)
    (hw : (s.counted p).readWb p (s.partNo i.core) i.stm loc false = (s.counted p, some w)) (hpos : w.bytes ≠ 0)
    (hlt : w.bytes < 2 ^ 32) :
    exec (.remote i loc qp rkey roff kind) s
      = .next ((s.counted p).remoteWrite p (s.partNo i.core) qp.toNat i.stm w
          { (s.counted p).mkFrame qp.toNat (kind.toNat + 1) with rkey := rkey, roff := roff.setWidth 48 }
          kind.toNat) := by
  have hfits : ¬ (w.bytes = 0 ∨ 2 ^ 32 ≤ w.bytes) := by omega
  obtain ⟨hread, hnotify, hclass⟩ := remoteClass_of_le_one hkind
  simp only [exec, execRemote, h.1, hq, State.issueWrite_unfenced _ h hf, if_neg hnotify, hread, decide_false, hw,
    if_neg hfits, if_false, hclass]

end

/-! The end (R260). -/

/-- With records of kind PORTER off, an operation ends without one. -/
theorem State.endOp_untraced {s : State} {p : Nat} (id opcode qp : Nat) (o : PorterOp)
    (h : (s.core p).traces 4 = false) : (s.endOp p id).tracePorter p opcode qp o = s.endOp p id := by
  have hoff : ((s.endOp p id).core p).traces 4 = false := by
    simpa [State.endOp, Core.traces] using h
  simp only [State.tracePorter, hoff, Bool.false_eq_true, if_false]

theorem exec_remoteComplete_ends {s : State} {core p op q kind : Nat} {o : PorterOp}
    (hclk : s.clockedPhys core = some p) (hop : (s.core p).op op = some o) (hact : o.act = .remote q kind 0)
    (hok : o.status = 0) (htr : (s.core p).traces 4 = false) :
    exec (.remoteComplete core op) s = .next (s.endOp p op) := by
  simp only [exec, execRemoteComplete, hclk, hop, hact, hok, true_or, if_true, State.endOp_untraced op 0x21 q o htr]

/-- Settles O14: what a REMOTE starts by its kind, its data frames made of the piece's bytes as they are at issue (log
entry 11), and how it ends. -/
theorem remoteComplete : Obligations.RemoteComplete := by
  intro s v i p core op loc qp rkey roff kind w o q c part x u frame
  refine ⟨fun hf hq => ⟨exec_remote_notifies hf hq, fun h hw hpos hlt => ?read,
    fun hkind h hw hpos hlt hread hv => ?write⟩, exec_remoteComplete_ends⟩
  case read =>
    rw [exec_remote_reads hf hq h hw hpos hlt, State.remoteRead, State.counted_nextOp]
  case write =>
    rw [exec_remote_writes hf hq hkind h hw hpos hlt, State.remoteWrite_paid hread hv rfl]

end Sys2Proof.Machine
end

section
/-!
PROOFS. Reads and writes of the memories and the events that they post (chapters 7 and 14 of the spec): all that they
change.
-/

namespace Sys2Proof.Machine

namespace State.ReportsOnly

variable {s t : State}

theorem dropNote (f q : Nat) (h : s.ReportsOnly t) : s.ReportsOnly (t.dropNote f q) :=
  logSerai (t := t.modFn f _) _ _ _ _ _ (h.trans rfl)

/-- A note or an event that is written, held or dropped (R415). -/
theorem deliver (f : Nat) (e : Cqe) (h : s.ReportsOnly t) : s.ReportsOnly (t.deliver f e) := by
  unfold State.deliver
  dsimp only
  split_ifs
  · exact h.dropNote f _
  · exact h.host ((HostOnly.refl t).cqWrite f _ e)
  · exact h.trans rfl
  · exact h.dropNote f _

theorem event (code status : Nat) (part : Option Nat) (addr : Nat) (h : s.ReportsOnly t) :
    s.ReportsOnly (t.event code status part addr) := by
  unfold State.event
  split
  · exact h.deliver _ _
  · split
    · exact (h.deliver _ _).deliver _ _
    · exact h.deliver _ _

end State.ReportsOnly

/-- From `s` to `t` at most what an access to a memory changes has changed: the memories and what controls them, the
lifetime ledger, and what reports leave. -/
def State.AccessOnly (s t : State) : Prop :=
  t = { s with mem := t.mem, cores := t.cores, dies := t.dies, cisDies := t.cisDies, life := t.life, fns := t.fns,
               host := t.host, log := t.log, links := t.links, time := t.time, gapSerai := t.gapSerai }

namespace State.AccessOnly

variable {s t u : State}

theorem refl (s : State) : s.AccessOnly s := rfl

theorem trans (h : s.AccessOnly t) (k : t.AccessOnly u) : s.AccessOnly u :=
  Eq.trans k (congrArg (fun x : State => { x with
    mem := u.mem, cores := u.cores, dies := u.dies, cisDies := u.cisDies, life := u.life, fns := u.fns, host := u.host,
    log := u.log, links := u.links, time := u.time, gapSerai := u.gapSerai }) h)

/-- The queue pairs are no part of it. -/
theorem qps (h : s.AccessOnly t) : t.qps = s.qps := Eq.trans (congrArg State.qps h) rfl

theorem reports (h : s.AccessOnly t) (k : t.ReportsOnly u) : s.AccessOnly u := by
  obtain ⟨fns, host, log, links, time, gap, rfl⟩ : ∃ fns host log links time gap, u = { t with
    fns := fns, host := host, log := log, links := links, time := time, gapSerai := gap } := ⟨_, _, _, _, _, _, k⟩
  exact h.trans rfl

theorem event (code status : Nat) (part : Option Nat) (addr : Nat) (h : s.AccessOnly t) :
    s.AccessOnly (t.event code status part addr) := h.reports ((ReportsOnly.refl t).event _ _ _ _)

/-- An entry takes the gap mark of its source, a core's or an update engine's among them (R358). -/
theorem logAt (src : LogSrc) (code status : Nat) (part : Option Nat) (args snaps : List Word) (h : s.AccessOnly t) :
    s.AccessOnly (t.logAt src code status part args snaps) := by
  refine h.trans ?_
  unfold State.logAt
  dsimp only
  split
  · cases src <;> rfl
  · rfl

theorem lifeBegin (h : s.AccessOnly t) : s.AccessOnly t.lifeBegin := by
  rw [State.lifeBegin_eq]
  exact h.trans rfl

/-! Reads and their errors (R206 to R213). -/

theorem correctHbm (word : Nat) (h : s.AccessOnly t) : s.AccessOnly (t.correctHbm word) :=
  logAt (t := { (t.modDie _ _).modLife _ with mem := _ }) _ _ _ _ _ _ (h.trans rfl)

theorem uncorrHbm (word kind : Nat) (h : s.AccessOnly t) : s.AccessOnly (t.uncorrHbm word kind) :=
  (logAt (t := (t.modDie _ _).modLife _) _ _ _ _ _ _ (h.trans rfl)).event _ _ _ _

theorem correctCis (word : Nat) (h : s.AccessOnly t) : s.AccessOnly (t.correctCis word) :=
  logAt (t := { (t.modCis _ _).modLife _ with mem := _ }) _ _ _ _ _ _ (h.trans rfl)

theorem failChannel (m c : Nat) (h : s.AccessOnly t) : s.AccessOnly (t.failChannel m c) := by
  unfold State.failChannel
  extract_lets s1 s2
  have hlogged : s.AccessOnly s2 := logAt (t := s1) _ _ _ _ _ _ (h.trans rfl)
  exact lifeBegin (t := s2.modLife _) (hlogged.trans rfl)

theorem uncorrCis (word kind : Nat) (h : s.AccessOnly t) : s.AccessOnly (t.uncorrCis word kind) := by
  unfold State.uncorrCis
  extract_lets ch m c off addr owner code times s1 s2 s3
  have hlogged : s.AccessOnly s3 := (logAt (t := s2) _ _ _ _ _ _ (h.trans rfl)).event _ _ _ _
  split
  · exact hlogged.failChannel m c
  · exact hlogged

theorem readWord1 (p a : Nat) (h : s.AccessOnly t) : s.AccessOnly (t.readWord1 p a) := by
  unfold State.readWord1
  split
  · split
    · split_ifs
      · exact h.correctHbm _
      · exact h.uncorrHbm _ 2
      · exact h
    · exact h
  · split
    · split_ifs
      · exact h.correctCis _
      · exact h.uncorrCis _ 2
      · exact h
    · exact h
  · split_ifs
    · exact h.logAt _ _ _ _ _ _
    · exact (h.logAt _ _ _ _ _ _).event _ _ _ _
    · exact h
  · split_ifs
    · exact h.logAt _ _ _ _ _ _
    · exact (h.logAt _ _ _ _ _ _).event _ _ _ _
    · exact h
  · exact h
  · exact h

/-! Writes (R207, R212, R390). -/

theorem setByte (p a : Nat) (v : Byte) (h : s.AccessOnly t) : s.AccessOnly (t.setByte p a v) := by
  refine h.trans ?_
  unfold State.setByte
  split
  · split <;> rfl
  · split <;> rfl
  all_goals rfl

theorem setMark (p a : Nat) (v : BitVec 2) (h : s.AccessOnly t) : s.AccessOnly (t.setMark p a v) := by
  refine h.trans ?_
  unfold State.setMark
  split
  · split <;> rfl
  · split <;> rfl
  all_goals rfl

theorem dropWb (w : Nat) (h : s.AccessOnly t) : s.AccessOnly (t.dropWb w) := by
  refine h.trans ?_
  unfold State.dropWb
  split
  · split <;> rfl
  · split <;> rfl
  · rfl

theorem inject (p w : Nat) (h : s.AccessOnly t) : s.AccessOnly (t.inject p w) := by
  unfold State.inject
  split
  · split
    · extract_lets n v
      split
      · exact h
      · exact setMark (t := t.modDie _ _) p w v (h.trans rfl)
    · exact h
  · split
    · extract_lets ch v
      split
      · exact h
      · exact setMark (t := t.modCis _ _) p w v (h.trans rfl)
    · exact h
  · exact h

theorem setBytes (p : Nat) (l : List (Nat × Byte)) (h : s.AccessOnly t) :
    s.AccessOnly (eachDo l (fun e t => t.setByte p e.1 e.2) t) :=
  eachDo_induct (fun e _ _ ht => ht.setByte p e.1 e.2) h

theorem writeWord (p a : Nat) (data : List Byte) (w : Nat) (h : s.AccessOnly t) :
    s.AccessOnly (t.writeWord p a data w).1 := by
  unfold State.writeWord
  dsimp only
  split_ifs
  · exact (((h.dropWb w).setBytes p _).setMark p w 0).inject p w
  · exact h.readWord1 p w
  · exact (((h.readWord1 p w).setBytes p _).dropWb w).setMark p w 0

theorem writeList (p a : Nat) (data : List Byte) (ws : List Nat) (h : s.AccessOnly t) :
    s.AccessOnly (t.writeList p a data ws).1 :=
  List.foldlRecOn (motive := fun acc : State × Bool => s.AccessOnly acc.1) _ _ h
    fun _ hacc w _ => hacc.writeWord p a data w

theorem writeUnit (p a : Nat) (data : List Byte) (u : Nat) (h : s.AccessOnly t) :
    s.AccessOnly (t.writeUnit p a data u).1 := by
  unfold State.writeUnit
  extract_lets ws bad s1 s2 s3
  have hread : s.AccessOnly s1 := eachDo_induct (fun w _ _ ht => ht.readWord1 p w) h
  have hcleared : s.AccessOnly s2 := eachDo_induct (fun w _ _ ht => (ht.dropWb w).setMark p w 0) hread
  split_ifs
  · exact h.writeList p a data ws
  · exact hread
  · exact eachDo_induct (fun w _ _ ht => ht.inject p w) (hcleared.setBytes p _)

theorem writeWords (p a : Nat) (data : List Byte) (h : s.AccessOnly t) : s.AccessOnly (t.writeWords p a data).1 := by
  unfold State.writeWords
  split
  · exact List.foldlRecOn (motive := fun acc : State × Bool => s.AccessOnly acc.1) _ _ h
      fun _ hacc u _ => hacc.writeUnit p a data u
  · exact h.writeList p a data _

theorem store (p : Nat) (part : Option Nat) (a : Nat) (data : List Byte) (h : s.AccessOnly t) :
    s.AccessOnly (t.store p part a data).1 := by
  unfold State.store
  split
  · exact h
  · split
    · exact logAt (t := t.modCis _ _) _ _ _ _ _ _ (h.trans rfl)
    · split
      · exact h
      · exact h.writeWords p a data

end State.AccessOnly

/-- Stores leave the queue pairs as they are. -/
theorem State.store_qps (s : State) (p : Nat) (part : Option Nat) (a : Nat) (data : List Byte) :
    (s.store p part a data).1.qps = s.qps := ((AccessOnly.refl s).store p part a data).qps

end Sys2Proof.Machine
end

section
/-!
PROOFS. Regions and queue-pair pages (chapter 9 of the spec): what each command and each operation of Table 9.2 comes to
under the conditions of its rule, and the statements O29 and O32.
-/

namespace Sys2Proof.Machine

/-! Regions (R270 to R274). -/

/-- A REGISTER_REGION that passes the checks of R271 makes its entry VALID. -/
theorem exec_registerRegion_registers {s : State} {h : CmdHdr} {rkey : Word} {base size : BitVec 48} {rights : BitVec 3}
    {slot : BitVec 6}
    (a : s.Accepts h 0x09 0 (rkey.toNat + 2 ^ 64 * base.toNat + 2 ^ 128 * size.toNat + 2 ^ 192 * rights.toNat
      + 2 ^ 200 * slot.toNat))
    (howned : (s.takeDesc h.fn h.q).regionOwned h.part (rkey.toNat % 4096) = true)
    (hst : ((s.takeDesc h.fn h.q).region (rkey.toNat % 4096)).st = .invalid) (htag : rkey.toNat / 4096 ≠ 0)
    (hbase : base.toNat % 4096 = 0) (hsize : size.toNat % 4096 = 0) (hpos : size ≠ 0) (hrights : rights ≠ 0)
    (hslot : (s.takeDesc h.fn h.q).linkSlot h.part slot.toNat = true)
    (hwindow : (s.takeDesc h.fn h.q).oneWindow h.part base.toNat size.toNat = true) :
    exec (.registerRegion h rkey base size rights slot) s
      = .next (((((s.takeDesc h.fn h.q).modRegion (rkey.toNat % 4096) (fun _ =>
          { st := .valid, tag := (rkey >>> 12).setWidth 20, part := BitVec.ofNat 4 h.part, base := base.toNat,
            size := size.toNat, rights := rights, keyslot := slot })).complete (CmdHdr.ref h 9) scOk 0 0).logRegion
          h.part 0x2107 rkey).settleQueue h.fn h.q) := by
  have hlegal : ¬ (rkey.toNat / 4096 = 0 ∨ base.toNat % 4096 ≠ 0 ∨ size.toNat % 4096 ≠ 0 ∨ size = 0 ∨ rights = 0
      ∨ (s.takeDesc h.fn h.q).linkSlot h.part slot.toNat = false) := by
    simp only [htag, hbase, hsize, hpos, hrights, hslot, ne_eq, not_true_eq_false, Bool.true_eq_false, or_self,
      not_false_eq_true]
  simp only [exec, execRegisterRegion, State.hostCmd_accepts _ a, howned, hst, hwindow, if_neg hlegal, Bool.not_true,
    Bool.false_eq_true, ne_eq, not_true_eq_false, if_false]

/-- From the revoke on, responses of the region that have not been read are not sent (R273). -/
theorem exec_revokeRegion_drains {s : State} {h : CmdHdr} {rkey : Word} (a : s.Accepts h 0x0A 0 rkey.toNat)
    (howned : (s.takeDesc h.fn h.q).regionOwned h.part (rkey.toNat % 4096) = true)
    (hst : ((s.takeDesc h.fn h.q).region (rkey.toNat % 4096)).st = .valid)
    (htag : ((s.takeDesc h.fn h.q).region (rkey.toNat % 4096)).tag.toNat = rkey.toNat / 4096) :
    exec (.revokeRegion h rkey) s
      = .next ((((s.takeDesc h.fn h.q).modRegion (rkey.toNat % 4096) (fun r =>
          { r with st := .draining, revoke := some (CmdHdr.ref h 0x0A) })).skipResponses
            (rkey.toNat % 4096)).settleQueue h.fn h.q) := by
  simp only [exec, execRevokeRegion, State.hostCmd_accepts _ a, howned, hst, htag, Bool.not_true, Bool.false_eq_true,
    ne_eq, not_true_eq_false, if_false]

/-- Settles O29: an entry becomes VALID, DRAINING and INVALID again, the last with code 0x2108 also where no revoke
waits for it (log entry 34). -/
theorem regionsComplete : Obligations.RegionsComplete := by
  intro s h rkey base size rights slot i c q t done k x s1
  refine ⟨exec_registerRegion_registers, exec_revokeRegion_drains, fun hclk hst hnone hrev => ?revoked,
    fun hclk hst hnone hrev => ?unasked⟩
  case revoked => simp only [exec, execRegionDrained, x, s1, hclk, hst, hnone, hrev, and_self, if_true]
  case unasked => simp only [exec, execRegionDrained, x, s1, hclk, hst, hnone, hrev, and_self, if_true]

/-! Contexts (R252, R253). -/

theorem State.privBytes_qps (s : State) (n : Nat) : (s.privBytes n).1.qps = s.qps := by
  induction n generalizing s with
  | zero => rfl
  | succ n ih => exact ih s.useFree

/-- A context's bytes go to the pool; the contexts stay as they are. -/
theorem State.writeContext_qps (s : State) (q : Nat) : (s.writeContext q).qps = s.qps := by
  unfold State.writeContext
  dsimp only
  split
  · rw [State.store_qps, State.privBytes_qps]
  · rfl

@[simp] theorem State.writeContext_qp (s : State) (q k : Nat) : (s.writeContext q).qp k = s.qp k := by
  rw [State.qp, State.qp, State.writeContext_qps]

@[simp] theorem State.dropParked_qp (s : State) (q k : Nat) : (s.dropParked q).qp k = s.qp k := rfl

/-- DESTROY leaves the context FREE, and neither pinned nor cached (log entry 31). -/
theorem State.qpDestroy_frees (s : State) (q : Nat) :
    ((s.qpDestroy q).qp q).st = .free ∧ ((s.qpDestroy q).qp q).pinned = false
      ∧ ((s.qpDestroy q).qp q).cached = false := by
  simp [State.qpDestroy, State.evict, State.qpStop]

/-! Operations through a page (Table 9.2). -/

/-- An operation that ends with OK writes nothing into the logbook. -/
theorem State.pageEnd_ok (s : State) (m p q : Nat) :
    s.pageEnd m p q scOk = s.modPage m p (fun x => { x with busy := false, busyOp := 0, status := st8 scOk }) := by
  simp only [State.pageEnd, if_true]

@[simp] theorem State.pageEnd_ok_qp (s : State) (m p q k : Nat) : (s.pageEnd m p q scOk).qp k = s.qp k := by
  rw [State.pageEnd_ok]
  rfl

/-- An operation on a queue pair of the page's range and lantern that is not being fetched, in a state that allows it,
is carried out at once (R253). -/
theorem State.pageCmd_does {s : State} {m p op : Nat} (hclk : s.clocked = true) (hm : m < 6) (hp : p < 16)
    (hidle : (s.page m p).busy = false) (hown : s.ownsQp p (s.page m p).idx.toNat = true)
    (hhome : homeOf (s.page m p).idx.toNat = m) (hheld : (s.porter m).fetching.contains (s.page m p).idx.toNat = false)
    (hallow : (s.qp (s.page m p).idx.toNat).allows op = true) :
    s.pageCmd m p op = s.pageDo m p (s.page m p).idx.toNat op := by
  have htaken : s.clocked = true ∧ m < 6 ∧ p < 16 ∧ (s.page m p).busy = false := ⟨hclk, hm, hp, hidle⟩
  have howned : ¬ (s.ownsQp p (s.page m p).idx.toNat = false ∨ homeOf (s.page m p).idx.toNat ≠ m) := by
    simp [hown, hhome]
  simp only [State.pageCmd, if_pos htaken, State.pageRun, if_neg howned, hallow, hheld, Bool.true_eq_false,
    Bool.false_eq_true, if_false]

theorem State.pageDo_create {s : State} {m p q : Nat} (h : s.createCheck m p q = scOk) :
    s.pageDo m p q 1
      = ((s.setQp q ((s.page m p).create p (s.poolTxseq p q) s.now)).writeContext q).pageEnd m p q scOk := if_pos h

/-- PIN of a cached context within the partition's quota. -/
theorem State.pageDo_pin {s : State} {m p q : Nat} (hc : (s.qp q).cached = true)
    (hquota : s.pinnedOn m p < s.pinMax m p) :
    s.pageDo m p q 3 = (s.modQp q (fun x => { x with pinned := true })).pageEnd m p q scOk := by
  simp only [State.pageDo, State.pageDoPin, if_neg (Nat.not_le.mpr hquota), hc, if_true]

/-- Settles O32: CREATE and DESTROY leave their context uncached, and CREATE takes TXSEQ from the pool's bytes
(log entry 31). -/
theorem queuePairsComplete : Obligations.QueuePairsComplete := by
  intro s fn m p q x new hsees hclk hm hp hidle hown hhome hheld
  have hdo {op : Nat} (hallow : x.allows op = true) :
      (.next (s.onBar fn (.part p) (fun s => s.pageCmd m p op)) : Host.Outcome State Fault Refusal)
        = .next (s.pageDo m p q op) :=
    congrArg Host.Outcome.next ((State.onBar_sees _ hsees).trans
      (State.pageCmd_does hclk hm hp hidle hown hhome hheld hallow))
  refine ⟨fun hst hok => ⟨?create, rfl, rfl, rfl, rfl, rfl⟩,
    fun hst => ⟨?destroy, fun hc hquota => ?pin, fun hpin => ?unpin⟩,
    fun hst => ⟨?reset, rfl, rfl, rfl, rfl⟩, hdo (op := 6) rfl⟩
  case create => exact (hdo (op := 1) (decide_eq_true hst)).trans (congrArg Host.Outcome.next (State.pageDo_create hok))
  case destroy =>
    refine ⟨_, hdo (op := 2) (decide_eq_true hst), rfl, ?_⟩
    simpa [State.pageDo] using s.qpDestroy_frees q
  case pin => exact (hdo (op := 3) (decide_eq_true hst)).trans (congrArg Host.Outcome.next (State.pageDo_pin hc hquota))
  case unpin => exact hdo (op := 4) (by simp [Qp.allows, hst, hpin])
  case reset => exact hdo (op := 5) (decide_eq_true hst)

end Sys2Proof.Machine
end

section
/-!
PROOFS. Riris frames (chapters 9 and 10 of the spec): how a frame of a cached queue pair comes to be processed, what
each class then does under its rule's conditions, and the statement O49.
-/

namespace Sys2Proof.Machine

/-! From the link to the class (R262, R268, R277, R279, R297). -/

/-- A frame that finds its context in the cache is counted as a hit. -/
theorem State.rxFrame_hits {s : State} {classes : List Byte} {f : RirisFrame} (hin : s.comesIn f = true)
    (hknown : s.rxKnown f = true) (hcached : (s.qp f.dqp.toNat).cached = true) (hcls : classes.contains f.cls = true) :
    s.rxFrame classes f
      = ((s.takeIn f).modPorter (homeOf f.dqp.toNat) (fun p => { p with hits := p.hits + 1 })).rxCached f :=
  if_pos ⟨hin, hknown, hcls, hcached⟩

/-- A frame whose tag verifies, and which no injection spoils, is opened (R277, R281). -/
theorem State.rxCached_opens {a : State} {f : RirisFrame} (htag : a.tagOk f = true)
    (hsound : (a.porter (homeOf f.dqp.toNat)).injAuth = false) :
    a.rxCached f
      = (a.modPorter (homeOf f.dqp.toNat) (fun p => { p with injAuth := false })).rxAuthed f.dqp.toNat
          (openFrame f (a.rxKey f.dqp.toNat)) := by
  simp only [State.rxCached, hsound, htag, Bool.false_eq_true, if_false, if_true]

section

variable {t : State} {q : Nat} {g : RirisFrame}

theorem State.rxAuthed_ack (hact : (t.qp q).st = .active) (hcls : g.cls = 6) : t.rxAuthed q g = t.takeHeader q g := by
  simp [State.rxAuthed, hact, hcls]

theorem State.rxAuthed_nak (hact : (t.qp q).st = .active) (hcls : g.cls = 7) : t.rxAuthed q g = t.rxNak q g := by
  simp [State.rxAuthed, hact, hcls]

theorem State.rxSeq_next (hidle : t.pendingOn q = false) (hbehind : (t.qp q).behind = [])
    (hpsn : g.psn = (t.qp q).epsn) :
    t.rxSeq q g = t.rxProcess q g := by
  simp [State.rxSeq, hidle, hbehind, hpsn, b2n, w32]

/-- The next sequenced frame of an ACTIVE pair is processed once its header's toll and acknowledgement are taken. -/
theorem State.rxAuthed_next (hact : (t.qp q).st = .active) (hack : g.cls ≠ 6) (hnak : g.cls ≠ 7)
    (hstill : ((t.takeHeader q g).qp q).st = .active) (hidle : (t.takeHeader q g).pendingOn q = false)
    (hbehind : ((t.takeHeader q g).qp q).behind = []) (hpsn : g.psn = ((t.takeHeader q g).qp q).epsn) :
    t.rxAuthed q g = (t.takeHeader q g).rxProcess q g := by
  have hseq : (g.cls != 6 && g.cls != 7) = true := by
    rw [bne_iff_ne.mpr hack, bne_iff_ne.mpr hnak]
    rfl
  have hlive : ¬ (t.qp q).st = .error := by
    rw [hact]
    decide
  simp only [State.rxAuthed, if_neg hlive, if_neg hnak, hseq, hstill, if_true, State.rxSeq_next hidle hbehind hpsn]

theorem State.rxProcess_write (h : g.cls = 1) : t.rxProcess q g = t.rxWrite q g := by
  rw [State.rxProcess, h]
  rfl

theorem State.rxProcess_writeNotify (h : g.cls = 2) : t.rxProcess q g = t.rxWrite q g := by
  rw [State.rxProcess, h]
  rfl

theorem State.rxProcess_readReq (h : g.cls = 3) : t.rxProcess q g = t.rxReadReq q g := by
  rw [State.rxProcess, h]
  rfl

theorem State.rxProcess_readResp (h : g.cls = 4) : t.rxProcess q g = t.rxReadResp q g := by
  rw [State.rxProcess, h]
  rfl

theorem State.rxProcess_notify (h : g.cls = 5) : t.rxProcess q g = t.notifyEnd q g := by
  rw [State.rxProcess, h]
  rfl

theorem State.rxProcess_convoy (h : g.cls = 0x20) : t.rxProcess q g = t.rxConvoy q g := by
  rw [State.rxProcess, h]
  rfl

end

/-! WRITE, WRITE_NOTIFY and NOTIFY (R261, R270, R275). -/

section

variable {s : State} {q : Nat} {f : RirisFrame}

/-- A WRITE that its region admits stores its payload, where the store takes it whole. -/
theorem State.rxWrite_stores (hadm : s.regionAdmits q 1 f.rkey f.roff.toNat f.payload.length = true)
    (hok : ((s.unclean (s.qp q).part.toNat).store 0 (some (s.qp q).part.toNat)
      ((s.region (f.rkey.toNat % 4096)).base + f.roff.toNat) f.payload).2 = false)
    (hplain : f.cls = 1 ∨ f.last = false) :
    s.rxWrite q f
      = ((s.unclean (s.qp q).part.toNat).store 0 (some (s.qp q).part.toNat)
          ((s.region (f.rkey.toNat % 4096)).base + f.roff.toNat) f.payload).1.consume q f 0 := by
  have hnote : ¬ (f.cls = 2 ∧ f.last = true) := by
    rintro ⟨hcls, hlast⟩
    obtain h | h := hplain
    · exact absurd (h.symm.trans hcls) (by decide)
    · exact Bool.false_ne_true (h.symm.trans hlast)
  simp only [State.rxWrite, hadm, hok, Bool.true_eq_false, Bool.false_eq_true, if_false, if_neg hnote]

/-- The last frame of a WRITE_NOTIFY then posts its token. -/
theorem State.rxWrite_notifies (hadm : s.regionAdmits q 1 f.rkey f.roff.toNat f.payload.length = true)
    (hok : ((s.unclean (s.qp q).part.toNat).store 0 (some (s.qp q).part.toNat)
      ((s.region (f.rkey.toNat % 4096)).base + f.roff.toNat) f.payload).2 = false)
    (hcls : f.cls = 2) (hlast : f.last = true) :
    s.rxWrite q f
      = ((s.unclean (s.qp q).part.toNat).store 0 (some (s.qp q).part.toNat)
          ((s.region (f.rkey.toNat % 4096)).base + f.roff.toNat) f.payload).1.notifyEnd q f := by
  simp only [State.rxWrite, hadm, hok, hcls, hlast, Bool.true_eq_false, Bool.false_eq_true, and_self, if_false, if_true]

theorem State.rxWrite_refused (hadm : s.regionAdmits q 1 f.rkey f.roff.toNat f.payload.length = false) :
    s.rxWrite q f = (s.reportViolation q f).consume q f 3 := if_pos hadm

/-- The report of a violation stores nothing. -/
theorem State.reportViolation_mem (s : State) (q : Nat) (f : RirisFrame) : (s.reportViolation q f).mem = s.mem := by
  unfold State.reportViolation
  extract_lets p s1 s2
  have hlogged : s1.ReportsOnly s2 := (ReportsOnly.refl s1).logDie _ _ _ _ _ _
  have hkept := (hlogged.event 0x2105 scAccess (some p) 0).reads (f := State.mem) rfl
  exact hkept

/-- A depot buffer of the loaded itinerary takes a token while its count has room (R143, R261). -/
theorem State.postDepot_posts {part die num : Nat} {e : Nat × DepotBuf}
    (hbuf : (s.die die).dbufs.find? (fun d => d.1 == num && d.2.owner == part) = some e) (hroom : e.2.tok.toNat < 255) :
    s.postDepot part die num = (s.modDie die (fun d => d.modBuf num (fun b => { b with tok := b.tok + 1 })), 0) := by
  have hfits : e.2.tok.toNat + 1 ≤ 255 := hroom
  simp only [State.postDepot, hbuf, if_pos hfits]

theorem State.notifyEnd_posts {e : Nat × DepotBuf} (hvalid : (s.qp q).nvalid = true) (hroom : e.2.tok.toNat < 255)
    (hbuf : (s.die (s.qp q).ndie.toNat).dbufs.find? (fun d => d.1 == (s.qp q).nbuf.toNat
      && d.2.owner == (s.qp q).part.toNat) = some e) :
    s.notifyEnd q f
      = (s.modDie (s.qp q).ndie.toNat
          (fun d => d.modBuf (s.qp q).nbuf.toNat (fun b => { b with tok := b.tok + 1 }))).consume q f 0 := by
  have hposted : s.notify q = (s.modDie (s.qp q).ndie.toNat
      (fun d => d.modBuf (s.qp q).nbuf.toNat (fun b => { b with tok := b.tok + 1 })), 0) := by
    simp only [State.notify, hvalid, if_true, State.postDepot_posts hbuf hroom]
  simp [State.notifyEnd, hposted]

/-! READ_REQ and READ_RESP (R259, R260, R270). -/

theorem respFrames_isEmpty {i part roff mtu total n : Nat} {rkey : Word} (hpos : 0 < total) :
    (respFrames i part roff mtu total rkey 0 (n + 1)).isEmpty = false := by
  simp only [respFrames, if_neg (Nat.not_le.mpr hpos), List.isEmpty_cons]

/-- A READ_REQ that its region admits queues the frames of its response. -/
theorem State.rxReadReq_responds (hadm : s.regionAdmits q 3 f.rkey f.roff.toNat f.oplen.toNat = true)
    (hpos : 0 < f.oplen.toNat) :
    s.rxReadReq q f
      = ((s.modRegion (f.rkey.toNat % 4096) (fun r => { r with inflight := r.inflight + 1 })).consume q f 0).queueSend q
          (respFrames (f.rkey.toNat % 4096) (s.qp q).part.toNat f.roff.toNat (s.qp q).mtuBytes f.oplen.toNat f.rkey 0
            (f.oplen.toNat / (s.qp q).mtuBytes + 1)) := by
  simp only [State.rxReadReq, hadm, respFrames_isEmpty hpos, Bool.true_eq_false, Bool.false_eq_true, if_false]

theorem State.rxReadReq_refused (hadm : s.regionAdmits q 3 f.rkey f.roff.toNat f.oplen.toNat = false) :
    s.rxReadReq q f = (s.reportViolation q f).consume q f 3 := if_pos hadm

/-- Bytes of a READ that do not end it go to its local ranges, where the stores take them. -/
theorem State.rxReadResp_stores {r : Reading} {rest : List Reading} (hreads : (s.qp q).reads = r :: rest)
    (hlive : r.ended = false) (hmore : r.got + f.payload.length < r.need)
    (hok : (s.stores r.core (some (s.qp q).part.toNat)
      (fillSegs (sliceSegs r.addrs r.got f.payload.length) f.payload)).2 = false) :
    s.rxReadResp q f
      = (((s.stores r.core (some (s.qp q).part.toNat)
            (fillSegs (sliceSegs r.addrs r.got f.payload.length) f.payload)).1.tallyAdd r.core tlRXREMOTE
              f.payload.length).modQp q (fun x => { x with
                reads := { r with got := r.got + f.payload.length } :: rest })).consume q f 0 := by
  have hpart : decide (r.need ≤ r.got + f.payload.length) = false := decide_eq_false (Nat.not_le.mpr hmore)
  simp only [State.rxReadResp, hreads, hlive, hpart, hok, Bool.false_eq_true, Bool.or_self, if_false]

/-! NAKs and convoy frames (R264, R297). -/

theorem State.rxNak_ignored (hout : (s.qp q).owns f.psn = false) (hrun : f.oplen = 0) : s.rxNak q f = s := by
  simp [State.rxNak, hout, hrun]

/-- NAK STATE fails the pair's operations and stops it in ERROR, without code 0x210A (log entry 29). -/
theorem State.rxNak_state (hown : (s.qp q).owns f.psn = true) (hcode : f.code = 5) :
    s.rxNak q f = ((s.setQp q { s.qp q with lastNak := 5 }).failAll q scAbandoned).qpStop q .error := by
  simp [State.rxNak, hown, hcode]

theorem State.rxConvoy_refused {v : State} {code : Nat} (h : s.convoyCheck q f = (v, .refuse code)) :
    s.rxConvoy q f = v.consume q f code := by
  simp only [State.rxConvoy, h]

theorem State.rxConvoy_stale {v : State} (h : s.convoyCheck q f = (v, .stale)) : s.rxConvoy q f = v.consume q f 0 := by
  simp only [State.rxConvoy, h]

end

/-- Settles O49: a frame comes to its class once it is opened and in sequence, and every opened frame's toll and
acknowledgement are taken (log entry 29); then class by class. -/
theorem ririsFramesComplete : Obligations.RirisFramesComplete := by
  refine ⟨?received, ?classes⟩
  case received =>
    intro s f q a t g u hin hknown hcached htag hsound hact
    have hopened {c : Byte} (hcls : f.cls = c) : s.rxFrame [c] f = t.rxAuthed q g :=
      (State.rxFrame_hits hin hknown hcached (by simp [hcls])).trans (State.rxCached_opens htag hsound)
    refine ⟨fun hcls => congrArg Host.Outcome.next ((hopened hcls).trans (State.rxAuthed_ack hact hcls)),
      fun hcls => congrArg Host.Outcome.next ((hopened hcls).trans (State.rxAuthed_nak hact hcls)),
      fun hstill hidle hbehind hpsn => ?sequenced⟩
    have hnext {c : Byte} {v : State} (hack : c ≠ 6) (hnak : c ≠ 7) (hclass : g.cls = c → u.rxProcess q g = v)
        (hcls : f.cls = c) : (.next (s.rxFrame [c] f) : Host.Outcome State Fault Refusal) = .next v :=
      congrArg Host.Outcome.next ((hopened hcls).trans ((State.rxAuthed_next (g := g) hact (hcls ▸ hack) (hcls ▸ hnak)
        hstill hidle hbehind hpsn).trans (hclass hcls)))
    exact ⟨hnext (by decide) (by decide) State.rxProcess_write,
      hnext (by decide) (by decide) State.rxProcess_writeNotify,
      hnext (by decide) (by decide) State.rxProcess_readReq,
      hnext (by decide) (by decide) State.rxProcess_readResp,
      hnext (by decide) (by decide) State.rxProcess_notify,
      hnext (by decide) (by decide) State.rxProcess_convoy⟩
  case classes =>
    intro s v q code f r rest e x p i n a w done b m
    exact ⟨rfl, fun hadm hok => ⟨State.rxWrite_stores hadm hok, State.rxWrite_notifies hadm hok⟩,
      fun hadm => ⟨State.rxWrite_refused hadm, s.reportViolation_mem q f⟩, State.notifyEnd_posts,
      State.rxReadReq_responds, State.rxReadReq_refused, State.rxReadResp_stores, State.rxNak_ignored,
      State.rxNak_state, State.rxConvoy_refused, State.rxConvoy_stale⟩

end Sys2Proof.Machine
end

section
/-!
PROOFS. Unknown frames, context misses and fetches, and the queue pairs' timers (chapter 9 of the spec): what each event
comes to under its rule's conditions, and the statement O50.
-/

namespace Sys2Proof.Machine

/-! Frames without a cached context (R255, R268). -/

theorem exec_ririsUnknownFrame_counts {s : State} {f : RirisFrame} (hin : s.comesIn f = true)
    (hknown : s.rxKnown f = false) : exec (.ririsUnknownFrame f) s = .next ((s.takeIn f).rxUnknown f) :=
  congrArg Host.Outcome.next (if_pos ⟨hin, hknown⟩)

theorem exec_contextMiss_misses {s : State} {f : RirisFrame} (hin : s.comesIn f = true) (hknown : s.rxKnown f = true)
    (hcold : (s.qp f.dqp.toNat).cached = false) : exec (.contextMiss f) s = .next ((s.takeIn f).rxMiss f) :=
  congrArg Host.Outcome.next (if_pos ⟨hin, hknown, hcold⟩)

/-- With room in the miss buffer the frame is parked and its context fetched. -/
theorem State.rxMiss_parks {t : State} {f : RirisFrame}
    (hroom : (t.porter (homeOf f.dqp.toNat)).used + units (frameLen f) ≤ 1024) :
    t.rxMiss f
      = (t.modPorter (homeOf f.dqp.toNat) (fun p => { p with
          parked := p.parked ++ [{ qp := f.dqp.toNat, frame := f, since := t.now }] })).startFetch f.dqp.toNat :=
  if_pos hroom

/-- Without, it is answered with NAK CONTEXT_BUSY. -/
theorem State.rxMiss_busy {t : State} {f : RirisFrame}
    (hfull : 1024 < (t.porter (homeOf f.dqp.toNat)).used + units (frameLen f)) :
    t.rxMiss f
      = ((t.modPorter (homeOf f.dqp.toNat) (fun p => { p with busyNaks := p.busyNaks + 1 })).logQp f.dqp.toNat 0x2101
          scBusy [f.src.setWidth 32, f.sqp.setWidth 32, f.psn, f.rkey]).busyReply f :=
  if_neg (Nat.not_le.mpr hfull)

theorem exec_parkedFrameTimeout_drops {s : State} {qp : BitVec 20} {e : Parked}
    (he : (s.porter (homeOf qp.toNat)).parked.find? (fun e => e.qp == qp.toNat) = some e) :
    exec (.parkedFrameTimeout qp) s
      = .next ((s.modPorter (homeOf qp.toNat) (fun p => { p with
          parked := takeParked qp.toNat p.parked, parkDrops := p.parkDrops + 1 })).logQp qp.toNat 0x2102 scOk
            [e.frame.src.setWidth 32, e.frame.sqp.setWidth 32, e.frame.psn, e.frame.rkey]) := by
  simp only [exec, execParkedFrameTimeout, he, frameArgs]

/-! Fetches (R268, R269). -/

/-- Porter's fetch of context `q` is over. -/
def State.fetched (s : State) (q : Nat) : State :=
  s.modPorter (homeOf q) (fun p => { p with fetching := p.fetching.filter (· != q) })

theorem exec_contextFetchDone_ends {s : State} (qp : BitVec 20) (bad : Bool) (hclk : s.clocked = true) :
    exec (.contextFetchDone qp bad) s = .next (s.fetchEnd qp.toNat bad) := congrArg Host.Outcome.next (if_pos hclk)

/-- The context is installed where a slot of the cache is or becomes free; an operation that waits for it runs before
the parked frames (log entry 31). -/
theorem State.fetchEnd_installs {s s1 : State} {q : Nat} (hheld : (s.porter (homeOf q)).fetching.contains q = true)
    (hclean : s.uncorrIn 0 [(s.poolAddr q, 128)] = false) (hroom : (s.fetched q).makeRoom q = some s1) :
    s.fetchEnd q false
      = (((((s1.touchRead 0 [(s1.poolAddr q, 128)]).modQp q (fun x => { x with
          cached := true, used := s.now })).pageResume q false).rxParked q).wakeContext q) := by
  rw [State.fetched] at hroom
  simp only [State.fetchEnd, hheld, hclean, hroom, Bool.true_eq_false, Bool.false_eq_true, or_self, if_false]

theorem State.fetchEnd_fails {s : State} {q : Nat} (hheld : (s.porter (homeOf q)).fetching.contains q = true) :
    s.fetchEnd q true = (((s.fetched q).fetchBad q).pageResume q true).wakeContext q := by
  simp only [State.fetchEnd, State.fetched, hheld, Bool.true_eq_false, if_false, true_or, if_true]

/-! Timers (R262, R263). -/

theorem exec_qpRetryTimeout_expires {s : State} {qp : BitVec 20} (hclk : s.clocked = true)
    (hact : (s.qp qp.toNat).st = .active) (hwaits : (s.qp qp.toNat).unacked ≠ [] ∨ (s.qp qp.toNat).busy = true) :
    exec (.qpRetryTimeout qp) s = .next (s.qpExpire qp.toNat) :=
  congrArg Host.Outcome.next (if_pos ⟨hclk, hact, hwaits.imp_left List.isEmpty_eq_false_iff.mpr⟩)

/-- Below the retry limit every unacknowledged frame is sent again. -/
theorem State.qpExpire_resends {s : State} {q : Nat} (hidle : (s.qp q).busy = false)
    (hleft : (s.qp q).retries < (s.qp q).retryLimit.toNat) :
    s.qpExpire q = (s.setQp q { s.qp q with retries := (s.qp q).retries + 1 }).resend q (s.qp q).unacked := by
  have hunder : ¬ (s.qp q).retryLimit.toNat < (s.qp q).retries + 1 := Nat.not_lt.mpr hleft
  simp only [State.qpExpire, hidle, Bool.false_eq_true, if_false, if_neg hunder]

theorem exec_ackDelayExpiry_acks {s : State} {qp : BitVec 20} (hclk : s.clocked = true)
    (hact : (s.qp qp.toNat).st = .active) (hdue : (s.qp qp.toNat).ackDue = true) :
    exec (.ackDelayExpiry qp) s = .next (s.sendAck qp.toNat) := congrArg Host.Outcome.next (if_pos ⟨hclk, hact, hdue⟩)

/-- Settles O50, event by event. -/
theorem contextsComplete : Obligations.ContextsComplete := by
  intro s s1 f qp e q m t k n s0 hclk
  refine ⟨exec_ririsUnknownFrame_counts, fun hin hknown hcold => ?miss, fun hheld hclean hroom => ?installed,
    fun hheld => ?failed, exec_parkedFrameTimeout_drops,
    fun hact hwaits => ⟨exec_qpRetryTimeout_expires hclk hact hwaits, State.qpExpire_resends⟩,
    exec_ackDelayExpiry_acks hclk⟩
  case miss =>
    rw [exec_contextMiss_misses hin hknown hcold]
    exact ⟨fun hroom => congrArg Host.Outcome.next (State.rxMiss_parks hroom),
      fun hfull => congrArg Host.Outcome.next (State.rxMiss_busy hfull)⟩
  case installed => rw [exec_contextFetchDone_ends qp false hclk, State.fetchEnd_installs hheld hclean hroom]
  case failed =>
    exact (exec_contextFetchDone_ends qp true hclk).trans (congrArg Host.Outcome.next (State.fetchEnd_fails hheld))

end Sys2Proof.Machine
end

section
/-!
PROOFS. CONVOY (chapter 10 of the spec): the clamp of an element to the bound of its guard, what a CONVOY comes to under
R284's conditions, how one whose last frame is acknowledged ends, and the statements O15 and O16.
-/

namespace Sys2Proof.Machine

/-! The clamp (R285). -/

/-- The bound of R285 for guard `g`. -/
def guardBound (g : Nat) : Int := 2 ^ (71 - g) - 1

theorem guardBound_nonneg (g : Nat) : 0 ≤ guardBound g :=
  Int.le_sub_one_of_lt (by positivity)

/-- The bound and its negative are values of T72. -/
theorem guardBound_lt (g : Nat) : guardBound g < 2 ^ 71 :=
  Int.sub_one_lt_of_le (pow_le_pow_right₀ (by decide) (Nat.sub_le 71 g))

theorem toInt_ofInt_of_abs_le_guardBound {g : Nat} {x : Int} (hlo : -guardBound g ≤ x) (hhi : x ≤ guardBound g) :
    (BitVec.ofInt 72 x).toInt = x := by
  have hlt := guardBound_lt g
  exact BitVec.toInt_ofInt_eq_self (by decide) (by omega) (by omega)

section

variable {g : Nat} {v : BitVec 72}

theorem clampT72_within (h : -guardBound g ≤ v.toInt ∧ v.toInt ≤ guardBound g) : clampT72 g v = (v, false) :=
  (if_neg (not_lt.mpr h.2)).trans (if_neg (not_lt.mpr h.1))

theorem clampT72_above (h : guardBound g < v.toInt) :
    (clampT72 g v).1.toInt = guardBound g ∧ (clampT72 g v).2 = true := by
  have hnonneg := guardBound_nonneg g
  have hclamp : clampT72 g v = (BitVec.ofInt 72 (guardBound g), true) := if_pos h
  rw [hclamp]
  exact ⟨toInt_ofInt_of_abs_le_guardBound (by omega) le_rfl, rfl⟩

theorem clampT72_below (h : v.toInt < -guardBound g) :
    (clampT72 g v).1.toInt = -guardBound g ∧ (clampT72 g v).2 = true := by
  have hnonneg := guardBound_nonneg g
  have hnotAbove : ¬ guardBound g < v.toInt := by omega
  have hclamp : clampT72 g v = (BitVec.ofInt 72 (-guardBound g), true) := (if_neg hnotAbove).trans (if_pos h)
  rw [hclamp]
  exact ⟨toInt_ofInt_of_abs_le_guardBound le_rfl (by omega), rfl⟩

end

/-- What is sent keeps to the bound. -/
theorem clampT72_bounded (g : Nat) (v : BitVec 72) :
    -guardBound g ≤ (clampT72 g v).1.toInt ∧ (clampT72 g v).1.toInt ≤ guardBound g := by
  have hnonneg := guardBound_nonneg g
  rcases lt_or_ge (guardBound g) v.toInt with habove | hle
  · rw [(clampT72_above habove).1]
    omega
  · rcases lt_or_ge v.toInt (-guardBound g) with hbelow | hge
    · rw [(clampT72_below hbelow).1]
      omega
    · rw [clampT72_within ⟨hge, hle⟩]
      exact ⟨hge, hle⟩

/-- Settles O16: an element lies within the bound, above it or below it, and the bound is a value of T72. -/
theorem convoyClamp : Obligations.ConvoyClamp :=
  fun g v _ => ⟨clampT72_within, clampT72_above, clampT72_below, clampT72_bounded g v⟩

/-! Issue (R257, R284, R285). -/

/-- R284's checks look at no core. -/
theorem State.counted_convoyOk (s : State) (p part : Nat) (w : Waybill) (tag : BitVec 16) (contrib : BitVec 24)
    (guard : BitVec 7) (e : Nat) :
    (s.counted p).convoyOk part w tag contrib guard e = s.convoyOk part w tag contrib guard e := rfl

/-- A CONVOY that passes R284's checks is sent, once no write into its source is outstanding (log entry 79). -/
theorem exec_convoy_sends {s : State} {i : Issue} {p pc e : Nat} {src : BitVec 14} {tag : BitVec 16} {qp : BitVec 20}
    {contrib : BitVec 24} {guard : BitVec 7} {w : Waybill}
    (h : s.Issues i.core (.convoy i src tag qp contrib guard) p pc) (hf : (s.core p).fence = none)
    (hq : s.checkQp (s.partNo i.core) qp.toNat = .ok) (hpin : (s.qp qp.toNat).pinned = true)
    (hw : (s.counted p).readWb p (s.partNo i.core) i.stm src false = (s.counted p, some w))
    (he : (s.counted p).readScale p (s.partNo i.core) i.stm w = (s.counted p, some e))
    (hok : (s.counted p).convoyOk (s.partNo i.core) w tag contrib guard e = true) :
    exec (.convoy i src tag qp contrib guard) s
      = .next (if s.stallWriting p w.rows then s
          else (s.counted p).convoyGo p (s.partNo i.core) qp.toNat i.stm w tag contrib guard e) := by
  rw [State.counted_convoyOk] at hok
  simp only [exec, execConvoy, h.1, hq, hpin, Bool.not_true, Bool.false_eq_true, if_false,
    State.issueWrite_unfenced _ h hf, hw, he, hok, if_true]

/-! The end (R286). -/

/-- A contribution whose last frame is acknowledged ends, and its core's last tag and status are set. -/
theorem exec_convoyComplete_ends {s : State} {core p op q : Nat} {o : PorterOp} {tag : BitVec 16} {clamped : Bool}
    (hclk : s.clockedPhys core = some p) (hop : (s.core p).op op = some o) (hact : o.act = .convoy q tag clamped 0)
    (hok : o.status = 0) (htr : (s.core p).traces 4 = false) :
    exec (.convoyComplete core op) s
      = .next ((s.endOp p op).modCore p (fun c => { c with
          cvLastTag := tag, cvLastStatus := if clamped then st8 scOvf else 0 })) := by
  have hnofault : ¬ (0 : BitVec 8) ≠ 0 := by decide
  simp only [exec, execConvoyComplete, hclk, hop, hact, hok, true_or, if_true, if_neg hnofault,
    State.endOp_untraced op 0x22 q o htr]

/-- Settles O15: what a CONVOY starts, or waits for (log entry 79), and how it ends. -/
theorem convoyComplete : Obligations.ConvoyComplete := by
  intro s i p core op src tag qp contrib guard w e o q clamped c part x u
  refine ⟨exec_convoy_sends, fun hclk hop hact hok htr => ?_⟩
  rw [exec_convoyComplete_ends hclk hop hact hok htr]
  simp [State.endOp, c]

end Sys2Proof.Machine
end

section
/-!
PROOFS. What a step does whatever the command and the state: every command answers a next state and keeps what `Keeps`
names, and the statements O55, O56, O58 and O59 (chapters 0, 13 and 15 of the spec).
-/

namespace Sys2Proof.Machine

/-! An update of one part of the state that `Keeps` does not speak of. -/

section

variable {s t : State}

theorem Keeps.withMod (x : Module) (h : Keeps s t) : Keeps s { t with mod := x } :=
  h.trans ⟨rfl, le_rfl, le_rfl, id, id, id⟩

theorem Keeps.withPhys (x : Physical) (h : Keeps s t) : Keeps s { t with phys := x } :=
  h.trans ⟨rfl, le_rfl, le_rfl, id, id, id⟩

theorem Keeps.withPwr (x : Power) (h : Keeps s t) : Keeps s { t with pwr := x } :=
  h.trans ⟨rfl, le_rfl, le_rfl, id, id, id⟩

theorem Keeps.withCwy (x : Causeway) (h : Keeps s t) : Keeps s { t with cwy := x } :=
  h.trans ⟨rfl, le_rfl, le_rfl, id, id, id⟩

theorem Keeps.withLife (x : Life) (h : Keeps s t) : Keeps s { t with life := x } :=
  h.trans ⟨rfl, le_rfl, le_rfl, id, id, id⟩

theorem Keeps.withTollWait (x : List Nat) (h : Keeps s t) : Keeps s { t with tollWait := x } :=
  h.trans ⟨rfl, le_rfl, le_rfl, id, id, id⟩

/-- Customs may raise the fused SVN, to 64 at most (R376). -/
theorem Keeps.withCustoms (x : Customs) (hle : t.customs.fuseSvn ≤ x.fuseSvn)
    (hmax : t.customs.fuseSvn ≤ 64 → x.fuseSvn ≤ 64) (h : Keeps s t) : Keeps s { t with customs := x } :=
  h.trans ⟨rfl, le_rfl, hle, hmax, id, id⟩

end

/-! The shapes in which a command's effect comes: what it does under its condition keeps what `Keeps` names, and so does
leaving the state alone. -/

/-- A command of state `s` answers a next state, which keeps what `Keeps` names. -/
def State.Completes (s : State) (o : Host.Outcome State Fault Refusal) : Prop := ∃ t, o = .next t ∧ Keeps s t

namespace State.Completes

variable {s t : State} {g : State → State}

theorem next (h : Keeps s t) : s.Completes (.next t) := ⟨t, rfl, h⟩

theorem guarded {c : Prop} [Decidable c] (h : Keeps s t) : s.Completes (.next (if c then t else s)) :=
  next (h.ite (.refl s))

theorem onBar {fn : Nat} {b : BarBlock} (hg : ∀ t, Keeps s t → Keeps s (g t)) :
    s.Completes (.next (s.onBar fn b g)) :=
  next (State.onBar_keeps _ _ _ (.refl s) hg)

theorem onLink {l : Nat} {ok : Link → Bool} (hg : ∀ t, Keeps s t → Keeps s (g t)) :
    s.Completes (.next (s.onLink l ok g)) :=
  next (State.onLink_keeps _ _ _ (.refl s) hg)

theorem onMsg {m : MsMsg} {k : MsKind} (hg : ∀ t, Keeps s t → Keeps s (g t)) :
    s.Completes (.next (s.onMsg m k g)) :=
  next (State.onMsg_keeps _ _ _ (.refl s) hg)

theorem cusCmd {fn : Nat} (hg : ∀ t, Keeps s t → Keeps s (g t)) : s.Completes (.next (s.cusCmd fn g)) :=
  next (State.cusCmd_keeps _ _ (.refl s) hg)

theorem hostCmd {x : CmdHdr} {code flags args : Nat} {act : State → CmdRef → State}
    (hact : ∀ t c, Keeps s t → Keeps s (act t c)) : s.Completes (.next (s.hostCmd x code flags args act)) :=
  next (State.hostCmd_keeps _ _ _ _ _ hact (.refl s))

end State.Completes

/-! Instructions of a core (chapters 5 to 10). -/

theorem execNop_completes (s : State) (iss) : s.Completes (execNop iss s) :=
  .next (by grind [Keeps.refl, State.issued_keeps, State.advance_keeps])

theorem execLoop_completes (s : State) (iss xi step count) : s.Completes (execLoop iss xi step count s) :=
  .next (by grind [Keeps.refl, State.issued_keeps, State.openLoop_keeps])

theorem execLoopm_completes (s : State) (iss xi xa addr step max) : s.Completes (execLoopm iss xi xa addr step max s)
    :=
  .next (by grind [Keeps.refl, State.issued_keeps, State.coreRead_keeps, State.coreFault_keeps, State.openLoop_keeps])

theorem execEndloop_completes (s : State) (iss) : s.Completes (execEndloop iss s) :=
  .next (by grind [Keeps.refl, State.issued_keeps, State.endLoop_keeps])

theorem execJump_completes (s : State) (iss target) : s.Completes (execJump iss target s) :=
  .next (by grind [Keeps.refl, State.issued_keeps, State.goto_keeps])

theorem execBrflag_completes (s : State) (iss trec mask sense target) : s.Completes (execBrflag iss trec mask sense
    target s) :=
  .next (by grind [Keeps.refl, State.issued_keeps, State.branch_keeps])

theorem execBrmem_completes (s : State) (iss xa addr sense target) : s.Completes (execBrmem iss xa addr sense target
    s) :=
  .next (by grind [Keeps.refl, State.issued_keeps, State.coreRead_keeps, State.branch_keeps])

theorem execDlbr_completes (s : State) (iss buf n dl target) : s.Completes (execDlbr iss buf n dl target s) :=
  .next (by grind [Keeps.refl, State.issued_keeps, State.refFault_keeps, State.missBranch_keeps, State.advance_keeps,
    State.deadlineBranch_keeps, State.beginWait_keeps])

theorem execDlbrTokenReached_completes (s : State) (core) : s.Completes (execDlbrTokenReached core s) :=
  .next (by grind [Keeps.refl, State.endWait_keeps, State.advance_keeps])

theorem execDlbrDeadlineExpiry_completes (s : State) (core) : s.Completes (execDlbrDeadlineExpiry core s) :=
  .next (by grind [Keeps.refl, State.endWait_keeps, State.advance_keeps, State.deadlineBranch_keeps])

theorem execHalt_completes (s : State) (iss) : s.Completes (execHalt iss s) :=
  .next (by grind [Keeps.refl, State.issued_keeps, State.modCore_keeps])

theorem execItineraryDone_completes (s : State) (part) : s.Completes (execItineraryDone part s) :=
  .next (by grind [Keeps.refl, State.itineraryDone_keeps])

theorem execRegwr_completes (s : State) (iss offset xi imm) : s.Completes (execRegwr iss offset xi imm s) :=
  .next (by grind [Keeps.refl, State.issued_keeps, State.modCore_keeps, State.advance_keeps, State.refFault_keeps])

theorem execTokwait_completes (s : State) (iss buf n consume) : s.Completes (execTokwait iss buf n consume s) :=
  .next (by grind [Keeps.refl, State.consume_keeps, State.issued_keeps, State.refFault_keeps, State.coreFault_keeps,
    State.takeTokens_keeps, State.advance_keeps, State.beginWait_keeps])

theorem execTokwaitSatisfied_completes (s : State) (core) : s.Completes (execTokwaitSatisfied core s) :=
  .next (by grind [Keeps.refl, State.consume_keeps, State.takeTokens_keeps, State.endWait_keeps, State.advance_keeps])

theorem execTokpost_completes (s : State) (iss buf n) : s.Completes (execTokpost iss buf n s) := by
  refine .next ?_
  split
  · exact .refl s
  · refine State.issueWrite_keeps _ _ _ (.refl s) fun t ht => ?_
    grind [State.refFault_keeps, State.post_keeps, State.tallyAdd_keeps, State.advance_keeps, State.coreFault_keeps]

theorem execRelease_completes (s : State) (iss buf) : s.Completes (execRelease iss buf s) :=
  .next (by grind [Keeps.refl, State.release_keeps, State.issued_keeps, State.modDie_keeps, State.advance_keeps,
    State.refFault_keeps])

theorem execTollreq_completes (s : State) (iss cls target amount) : s.Completes (execTollreq iss cls target amount s)
    :=
  .next (by grind [Keeps.refl, State.issued_keeps, State.coreFault_keeps, State.waitContext_keeps,
    State.beginWait_keeps, Keeps.withTollWait])

theorem execTollGrant_completes (s : State) (core) : s.Completes (execTollGrant core s) := by
  have htake := fun cls target amount p g =>
    State.modCore_keeps p g (State.tollTake_keeps cls target amount (.refl s))
  refine .next ?_
  dsimp only
  repeat' split
  any_goals apply State.advance_keeps
  all_goals grind [Keeps.refl, Keeps.withTollWait, State.endWait_keeps]

theorem execFence_completes (s : State) (iss) : s.Completes (execFence iss s) :=
  .next (by grind [Keeps.refl, State.issued_keeps, State.modCore_keeps, State.advance_keeps])

theorem execFenceComplete_completes (s : State) (core) : s.Completes (execFenceComplete core s) :=
  .next (by grind [Keeps.refl, State.modCore_keeps, State.endWait_keeps])

theorem execMsarrive_completes (s : State) (iss mid wait rp vr) : s.Completes (execMsarrive iss mid wait rp vr s) :=
  .next (by grind [Keeps.refl, State.issueWrite_keeps, State.refFault_keeps, State.msIllegal_keeps,
    State.modCore_keeps, State.msFault_keeps, State.arrive_keeps])

theorem execHostnote_completes (s : State) (iss queue payload) : s.Completes (execHostnote iss queue payload s) :=
  .next (by grind [Keeps.refl, State.issueWrite_keeps, State.deliver_keeps, State.advance_keeps])

theorem execCopy_completes (s : State) (iss src dst pbuf post add) :
    s.Completes (execCopy iss src dst pbuf post add s) := by
  refine .next ?_
  split
  · exact .refl s
  · refine State.issueWrite_keeps _ _ _ (.refl s) fun t ht => ?_
    dsimp only
    repeat' split
    all_goals grind [State.readWb_keeps, State.refFault_keeps, State.copyWith_keeps]

theorem execCopyComplete_completes (s : State) (core op) : s.Completes (execCopyComplete core op s) := by
  refine .next ?_
  repeat' split
  all_goals grind [Keeps.refl, State.stores_keeps, State.copyEnd_keeps, State.postDescriptor_keeps]

theorem execRemote_completes (s : State) (iss loc qp rkey roff kind) : s.Completes (execRemote iss loc qp rkey roff
    kind s) :=
  .next (by grind [Keeps.refl, State.issued_keeps, State.qpRefused_keeps, State.waitContext_keeps,
    State.issueWrite_keeps, State.sendOp_keeps, State.readWb_keeps, State.remoteRead_keeps, State.remoteWrite_keeps])

theorem execRemoteComplete_completes (s : State) (core op) : s.Completes (execRemoteComplete core op s) := by
  refine .next ?_
  repeat' split
  all_goals grind [Keeps.refl, State.endOp_keeps, State.tracePorter_keeps, State.opFault_keeps]

theorem execConvoy_completes (s : State) (iss src tag qp contrib guard) :
    s.Completes (execConvoy iss src tag qp contrib guard s) := by
  have hrefused {p stm} : Keeps s ((s.issued p).qpRefused p stm) :=
    State.qpRefused_keeps _ _ _ (State.issued_keeps _ (.refl s))
  refine .next ?_
  split
  · exact .refl s
  dsimp only
  split
  · exact hrefused
  · exact hrefused
  split
  · exact hrefused
  · refine State.issueWrite_keeps _ _ _ (.refl s) fun t ht => ?_
    have hscale {q stm w src out} (p : Nat) : Keeps s ((t.readWb p q stm src out).1.readScale p q stm w).1 :=
      State.readScale_keeps _ _ _ _ (State.readWb_keeps _ _ _ _ _ ht)
    split
    · exact State.readWb_keeps _ _ _ _ _ ht
    split
    · exact hscale _
    split
    · exact .refl s
    split
    · exact State.convoyGo_keeps _ _ _ _ _ _ _ _ _ (hscale _)
    · exact State.coreFault_keeps _ _ _ _ _ _ _ (hscale _)

theorem execConvoyComplete_completes (s : State) (core op) : s.Completes (execConvoyComplete core op s) := by
  refine .next ?_
  repeat' split
  all_goals grind [Keeps.refl, State.endOp_keeps, State.tracePorter_keeps, State.modCore_keeps, State.opFault_keeps]

theorem execArray_completes (s : State) (iss a b pmode acc lrow m1 n1) : s.Completes (execArray iss a b pmode acc
    lrow m1 n1 s) :=
  .next (by grind [Keeps.refl, State.issued_keeps, State.arrayIssue_keeps, State.imageIssue_keeps,
    State.refFault_keeps])

theorem execArrayi_completes (s : State) (iss dxA dxB dwA dwB dxAcc dwAcc dxM1 dwM1 dxN1 dwN1) :
    s.Completes (execArrayi iss dxA dxB dwA dwB dxAcc dwAcc dxM1 dwM1 dxN1 dwN1 s) := by
  refine .next ?_
  dsimp only
  repeat' split
  any_goals apply State.runTiles_keeps
  any_goals apply State.tallyIssue_keeps
  any_goals apply State.tallyIssue_keeps
  all_goals grind [Keeps.refl, State.issued_keeps, State.tileOperands_keeps, State.traceArray_keeps]

theorem execDraw_completes (s : State) (iss lrow m1 n1 dst rmode srbits keep wm image sa sb) : s.Completes (execDraw
    iss lrow m1 n1 dst rmode srbits keep wm image sa sb s) :=
  .next (by grind [Keeps.refl, State.issueWrite_keeps, State.refFault_keeps, State.drawImage_keeps,
    State.drawTensor_keeps])

theorem execConv_completes (s : State) (iss src dst rmode srbits clrrec) :
    s.Completes (execConv iss src dst rmode srbits clrrec s) := by
  refine .next ?_
  split
  · exact .refl s
  · refine State.issueWrite_keeps _ _ _ (.refl s) fun t ht => ?_
    dsimp only
    have hwb {q stm ref ref' out out'} (p : Nat) : Keeps s ((t.readWb p q stm ref out).1.readWb p q stm ref' out').1 :=
      State.readWb_keeps _ _ _ _ _ (State.readWb_keeps _ _ _ _ _ ht)
    split
    · exact State.refFault_keeps _ _ _ _ ht
    split
    · exact State.readWb_keeps _ _ _ _ _ ht
    split
    · exact hwb _
    split
    · exact State.refFault_keeps _ _ _ _ (hwb _)
    split
    · exact State.scaleOf_keeps _ _ _ _ (hwb _)
    split
    · exact State.scaleOf_keeps _ _ _ _ (State.scaleOf_keeps _ _ _ _ (hwb _))
    have hels {q stm w w' w'' src src' out out'} (p : Nat) : Keeps s
        ((((t.readWb p q stm src out).1.readWb p q stm src' out').1.scaleOf p q stm w).1.scaleOf p q stm w'
          |>.1.readPiece p q stm w'').1 :=
      State.readPiece_keeps _ _ _ _ (State.scaleOf_keeps _ _ _ _ (State.scaleOf_keeps _ _ _ _ (hwb _)))
    split
    · exact hels _
    · exact State.runConv_keeps _ _ _ _ _ _ _ _ _ _ (hels _)

theorem execVec_completes (s : State) (iss vop x y z w yrow imm) :
    s.Completes (execVec iss vop x y z w yrow imm s) := by
  refine .next ?_
  split
  · exact .refl s
  · refine State.issueWrite_keeps _ _ _ (.refl s) fun t ht => ?_
    dsimp only
    repeat' split
    all_goals grind [State.refFault_keeps, State.readWb_keeps, State.readWbIf_keeps, State.runVec_keeps]

theorem execTally_completes (s : State) (iss mask dst) : s.Completes (execTally iss mask dst s) := by
  refine .next ?_
  split
  · exact .refl s
  · refine State.issueWrite_keeps _ _ _ (.refl s) fun t ht => ?_
    dsimp only
    repeat' split
    all_goals grind [State.refFault_keeps, State.coreFault_keeps, State.debitStore_keeps, State.tollShort_keeps,
      State.modCore_keeps, State.coreWrite_keeps, State.advance_keeps]

theorem execTrace_completes (s : State) (iss mark payload) : s.Completes (execTrace iss mark payload s) :=
  .next (by grind [Keeps.refl, State.issued_keeps, State.traceAt_keeps, State.advance_keeps])

/-! Commands of the host (chapter 14). -/

theorem execLoadItinerary_completes (s : State) (h image resume) : s.Completes (execLoadItinerary h image resume s) :=
  .hostCmd fun _ _ h => by grind [State.unclean_keeps, State.load_keeps, State.complete_keeps]

theorem execPause_completes (s : State) (h) : s.Completes (execPause h s) :=
  .hostCmd fun _ _ h => by grind [State.modPart_keeps]

theorem execResume_completes (s : State) (h) : s.Completes (execResume h s) :=
  .hostCmd fun _ _ h => by grind [State.setPartSt_keeps, State.runLoaded_keeps, State.msHold_keeps,
    State.wakeHeld_keeps, State.complete_keeps]

theorem execPostToken_completes (s : State) (h die buf n) : s.Completes (execPostToken h die buf n s) :=
  .hostCmd fun _ _ h => by grind [State.reject_keeps, State.post_keeps, State.complete_keeps]

theorem execCopyIn_completes (s : State) (h host dev len protect slot stream data chunks) : s.Completes (execCopyIn h
    host dev len protect slot stream data chunks s) :=
  .next (by grind [Keeps.refl, State.hostCmd_keeps, State.unclean_keeps, State.protectRefuse_keeps,
    State.complete_keeps, State.copyData_keeps, State.dropLost_keeps, State.endCopyIn_keeps, State.copyChunks_keeps,
    State.logCus_keeps])

theorem execCopyOut_completes (s : State) (h host dev len protect slot) : s.Completes (execCopyOut h host dev len
    protect slot s) :=
  .hostCmd fun _ _ h => by grind [State.copyOutSealed_keeps, State.protectRefuse_keeps, State.complete_keeps,
    State.copyOut_keeps]

theorem execRegisterRegion_completes (s : State) (h rkey base size rights slot) : s.Completes (execRegisterRegion h
    rkey base size rights slot s) :=
  .hostCmd fun _ _ h => by grind [State.complete_keeps, State.reject_keeps, State.modRegion_keeps,
    State.logRegion_keeps]

theorem execRevokeRegion_completes (s : State) (h rkey) : s.Completes (execRevokeRegion h rkey s) :=
  .hostCmd fun _ _ h => by grind [State.complete_keeps, State.reject_keeps, State.modRegion_keeps,
    State.skipResponses_keeps]

theorem execRegionDrained_completes (s : State) (idx) : s.Completes (execRegionDrained idx s) :=
  .next (by grind [Keeps.refl, State.modRegion_keeps, State.complete_keeps, State.logRegion_keeps])

theorem execInstallKey_completes (s : State) (h blob) : s.Completes (execInstallKey h blob s) :=
  .hostCmd fun _ _ h => by grind [State.takeBlob_keeps, State.complete_keeps]

theorem execScrub_completes (s : State) (h) : s.Completes (execScrub h s) :=
  .hostCmd fun _ _ h => by grind [State.modCus_keeps, State.refreshScrubbing_keeps]

theorem execApplyManifest_completes (s : State) (h len obj) : s.Completes (execApplyManifest h len obj s) :=
  .next (by grind [Keeps.refl, State.takeDesc_keeps, State.complete_keeps, State.reject_keeps, State.stage_keeps,
    State.refuseManifest_keeps, State.settleQueue_keeps])

/-! Registers of BAR0: manifests, placements, queue pairs, Customs, lifecycle (chapters 7, 9, 13 and 14). -/

theorem execManifestActivation_completes (s : State) : s.Completes (execManifestActivation s) :=
  .next (by grind [Keeps.refl, State.activate_keeps])

theorem execManifestSwitchTimeout_completes (s : State) (part) : s.Completes (execManifestSwitchTimeout part s) :=
  .next (by grind [Keeps.refl, State.beginSwitch_keeps, Keeps.withMod])

theorem execPlacementPlace_completes (s : State) (fn part) : s.Completes (execPlacementPlace fn part s) :=
  .onBar fun _ h => by grind [State.placeResult_keeps, State.modPartMem_keeps, State.unclean_keeps,
    State.logPlace_keeps]

theorem execPlacementRemove_completes (s : State) (fn part) : s.Completes (execPlacementRemove fn part s) :=
  .onBar fun _ h => by grind [State.modPartMem_keeps, State.placeResult_keeps]

theorem execPlacementRemoveDone_completes (s : State) (part) : s.Completes (execPlacementRemoveDone part s) := by
  refine .next ?_
  dsimp only
  repeat' split
  all_goals grind [Keeps.refl, State.scrubRange_keeps, State.modPartMem_keeps, State.placeResult_keeps,
    State.logPlace_keeps]

theorem execPlacementReadBack_completes (s : State) (fn part) : s.Completes (execPlacementReadBack fn part s) :=
  .onBar fun _ h => by grind [State.modPartMem_keeps, State.placeResult_keeps]

theorem execAnchorEnrol_completes (s : State) (fn obj) : s.Completes (execAnchorEnrol fn obj s) :=
  .cusCmd fun _ h => by grind [State.setAnchor_keeps, State.cusStatus_keeps, State.logCus_keeps]

theorem execAnchorRelease_completes (s : State) (fn obj) : s.Completes (execAnchorRelease fn obj s) := by
  refine .cusCmd fun t h => State.logCus_keeps _ _ _ _ (State.cusStatus_keeps _ (.ite ?_ h))
  exact (State.setAnchor_keeps none h).trans ⟨rfl, le_rfl, le_rfl, id, id, id⟩

theorem execSvnAdvance_completes (s : State) (fn) : s.Completes (execSvnAdvance fn s) :=
  .cusCmd fun _ h => by grind [Keeps.withCustoms, State.cusStatus_keeps, State.logCus_keeps]

theorem execKeygen_completes (s : State) (fn part) : s.Completes (execKeygen fn part s) :=
  .guarded (State.onBar_keeps _ _ _ (.refl s) fun _ h => by grind [State.random_keeps, State.modCus_keeps,
    State.cuspStatus_keeps])

theorem execKeySlotEmpty_completes (s : State) (fn part slot) : s.Completes (execKeySlotEmpty fn part slot s) :=
  .guarded (State.onBar_keeps _ _ _ (.refl s) fun _ h => by grind [State.emptySlot_keeps, State.cuspStatus_keeps])

theorem execCvSwitchArm_completes (s : State) (fn part) : s.Completes (execCvSwitchArm fn part s) :=
  .guarded (State.onBar_keeps _ _ _ (.refl s) fun _ h => by grind [State.modConvoy_keeps, State.switchDiscard_keeps])

theorem execCvSwitchDisarm_completes (s : State) (fn part) : s.Completes (execCvSwitchDisarm fn part s) :=
  .guarded (State.onBar_keeps _ _ _ (.refl s) fun _ h => by grind [State.switchDiscard_keeps, State.modConvoy_keeps])

theorem execQuiesceDone_completes (s : State) : s.Completes (execQuiesceDone s) :=
  .next (by grind [Keeps.refl, State.powerCut_keeps, State.boot_keeps])

theorem execFirmwareUpdate_completes (s : State) (fn image) : s.Completes (execFirmwareUpdate fn image s) :=
  .onBar fun _ h => by grind [State.fwuEnd_keeps, Keeps.withMod]

theorem execFirmwareUpdateDone_completes (s : State) (ok) : s.Completes (execFirmwareUpdateDone ok s) :=
  .next (by grind [Keeps.refl, State.fwuEnd_keeps, Keeps.withMod])

theorem execServiceDue_completes (s : State) (k) : s.Completes (execServiceDue k s) :=
  .next (by grind [Keeps.refl, State.modLife_keeps, State.logPower_keeps])

/-! Registers of BAR0: tallies, trace, injections, engines (chapters 3, 4 and 15). -/

theorem execTallySnap_completes (s : State) (fn n k) : s.Completes (execTallySnap fn n k s) :=
  .guarded (State.onBar_keeps _ _ _ (.refl s) fun _ h => by grind [State.setCore_keeps])

theorem execTotalSnap_completes (s : State) (fn) : s.Completes (execTotalSnap fn s) :=
  .onBar fun _ h => h.trans ⟨rfl, le_rfl, le_rfl, id, id, id⟩

theorem execTallyTotalUpdate_completes (s : State) : s.Completes (execTallyTotalUpdate s) :=
  .next (by grind [Keeps.refl, eachDo_keeps, State.totalsAdd_keeps])

theorem execTraceTallyPeriod_completes (s : State) (n k) : s.Completes (execTraceTallyPeriod n k s) :=
  .next (by grind [Keeps.refl, eachDo_keeps, State.tallyTrace_keeps, State.modCore_keeps])

theorem execTraceDrain_completes (s : State) (n k count) : s.Completes (execTraceDrain n k count s) :=
  .next (by grind [Keeps.refl, times_keeps, State.drainOne_keeps])

theorem execLinkAdminDown_completes (s : State) (fn link) : s.Completes (execLinkAdminDown fn link s) :=
  .onBar fun _ h => State.onLink_keeps _ _ _ h fun _ h => by grind [State.modLink_keeps, State.linkDisable_keeps]

theorem execLinkAdminUp_completes (s : State) (fn link) : s.Completes (execLinkAdminUp fn link s) :=
  .onBar fun _ h => State.onLink_keeps _ _ _ h fun _ h => by grind [State.modLink_keeps, State.enableLink_keeps]

theorem execQuarInject_completes (s : State) (fn n phys) : s.Completes (execQuarInject fn n phys s) :=
  .next (by grind [Keeps.refl, State.onBar_keeps, State.coreFaultSeen_keeps, State.takeFault_keeps])

theorem execResInject_completes (s : State) (fn n k target) : s.Completes (execResInject fn n k target s) :=
  .guarded (State.onBar_keeps _ _ _ (.refl s) fun _ h => by grind [State.modCore_keeps])

theorem execHbmInject_completes (s : State) (fn n kind) : s.Completes (execHbmInject fn n kind s) :=
  .guarded (State.onBar_keeps _ _ _ (.refl s) fun _ h => by grind [State.modDie_keeps, State.inject_keeps])

theorem execCisInjectError_completes (s : State) (fn m dbl chan) : s.Completes (execCisInjectError fn m dbl chan s) :=
  .guarded (State.onBar_keeps _ _ _ (.refl s) fun _ h => by grind [State.modCis_keeps, State.inject_keeps])

theorem execPorterInjectAuth_completes (s : State) (fn m) : s.Completes (execPorterInjectAuth fn m s) :=
  .onBar fun _ h => by grind [State.modPorter_keeps]

theorem execPorterInjectDrop_completes (s : State) (fn m) : s.Completes (execPorterInjectDrop fn m s) :=
  .onBar fun _ h => by grind [State.modPorter_keeps]

theorem execUpdSubmit_completes (s : State) (fn n word15) : s.Completes (execUpdSubmit fn n word15 s) :=
  .guarded (State.onBar_keeps _ _ _ (.refl s) fun _ h => by grind [State.modUpd_keeps, State.logUpd_keeps])

theorem execUpdHalt_completes (s : State) (fn n v) : s.Completes (execUpdHalt fn n v s) :=
  .guarded (State.onBar_keeps _ _ _ (.refl s) fun _ h => by grind [State.modUpd_keeps])

theorem execUpdUcodeWrite_completes (s : State) (fn n idx v) : s.Completes (execUpdUcodeWrite fn n idx v s) :=
  .guarded (State.onBar_keeps _ _ _ (.refl s) fun _ h => by grind [State.logUpd_keeps, State.modUpd_keeps])

theorem execUpdateEngineTake_completes (s : State) (n) : s.Completes (execUpdateEngineTake n s) :=
  .next (by grind [Keeps.refl, State.modUpd_keeps, State.updRead_keeps])

theorem execUpdateEngineComplete_completes (s : State) (n) : s.Completes (execUpdateEngineComplete n s) := by
  refine .next ?_
  dsimp only
  repeat' split
  all_goals grind [Keeps.refl, State.updFinish_keeps, UpdRun.all_keeps, UpdRun.partly_keeps]

theorem execCountingHouseAdd_completes (s : State) (n) : s.Completes (execCountingHouseAdd n s) := by
  refine .next ?_
  dsimp only
  repeat' split
  all_goals grind [Keeps.refl, State.modHouse_keeps, State.houseAdd_keeps, State.addSource_keeps,
    State.framesDone_keeps, State.issueWaiting_keeps]

/-! Queues, the sideband and attestation (chapters 13, 14 and 16). -/

theorem execMsDefWrite_completes (s : State) (fn part off v) : s.Completes (execMsDefWrite fn part off v s) :=
  .next (by grind [Keeps.refl, State.modMs_keeps, State.logMs_keeps])

theorem execLogCursorWrite_completes (s : State) (fn wide high v) : s.Completes (execLogCursorWrite fn wide high v s)
    :=
  .onBar fun _ h => by grind [State.modView_keeps]

theorem execLogAutoAdvance_completes (s : State) (fn) : s.Completes (execLogAutoAdvance fn s) :=
  .onBar fun _ h => by grind [State.readBack_keeps, State.windowEnd_keeps]

theorem execQueueEnable_completes (s : State) (fn q v) : s.Completes (execQueueEnable fn q v s) :=
  .guarded (State.onBar_keeps _ _ _ (.refl s) fun _ h => by grind [State.setQueue_keeps, State.msix0_keeps])

theorem execQueueDisable_completes (s : State) (fn q v) : s.Completes (execQueueDisable fn q v s) :=
  .guarded (State.onBar_keeps _ _ _ (.refl s) fun _ h => by grind [State.modQueue_keeps])

theorem execQueueHaltClear_completes (s : State) (fn q) : s.Completes (execQueueHaltClear fn q s) :=
  .guarded (State.onBar_keeps _ _ _ (.refl s) fun _ h => by grind [State.modQueue_keeps, State.msix0_keeps,
    State.settleQueue_keeps])

theorem execDoorbellSqTail_completes (s : State) (fn q tail descs) : s.Completes (execDoorbellSqTail fn q tail descs
    s) :=
  .next (by grind [Keeps.refl, State.queueError_keeps, State.modQueue_keeps, State.settleQueue_keeps])

theorem execDoorbellCqHead_completes (s : State) (fn q head) : s.Completes (execDoorbellCqHead fn q head s) :=
  .next (by grind [Keeps.refl, State.queueError_keeps, State.modQueue_keeps, State.cqInterrupt_keeps,
    State.settleQueue_keeps])

theorem execQueueRingError_completes (s : State) (fn q) : s.Completes (execQueueRingError fn q s) :=
  .next (by grind [Keeps.refl, State.queueError_keeps])

theorem execMsixCoalesceExpiry_completes (s : State) (fn q) : s.Completes (execMsixCoalesceExpiry fn q s) :=
  .next (by grind [Keeps.refl, State.setQueue_keeps, State.msix_keeps])

theorem execEventDeliverDeferred_completes (s : State) (fn) : s.Completes (execEventDeliverDeferred fn s) :=
  .next (by grind [Keeps.refl, State.modFn_keeps, State.dropNote_keeps, State.cqWrite_keeps])

theorem execNicSendDescriptor_completes (s : State) (fn q desc data) : s.Completes (execNicSendDescriptor fn q desc
    data s) :=
  .next (by grind [Keeps.refl, State.takeDesc_keeps, State.completeKind_keeps, State.nicFrames_keeps,
    State.nicSent_keeps, State.logLink_keeps])

theorem execNicRxBufferPost_completes (s : State) (fn q desc) : s.Completes (execNicRxBufferPost fn q desc s) :=
  .next (by grind [Keeps.refl, State.takeDesc_keeps, State.completeKind_keeps, State.modQueue_keeps])

theorem execBar0BadAccess_completes (s : State) (fn off bytes write) : s.Completes (execBar0BadAccess fn off bytes
    write s) :=
  .next (by grind [Keeps.refl, State.readBack_keeps, State.logPcie_keeps])

theorem execRegisterReadClear_completes (s : State) (fn rd) : s.Completes (execRegisterReadClear fn rd s) :=
  .next (by grind [Keeps.refl, State.barRead_keeps])

theorem execRegisterWrite_completes (s : State) (fn off wide v) : s.Completes (execRegisterWrite fn off wide v s) :=
  .next (by grind [Keeps.refl, State.barWrite_keeps])

theorem execFlrVf_completes (s : State) (v) : s.Completes (execFlrVf v s) :=
  .next (by grind [Keeps.refl, State.stopPart_keeps, State.modFn_keeps, State.logPcie_keeps])

theorem execSpdmGetCertificate_completes (s : State) (fn slot off len) : s.Completes (execSpdmGetCertificate fn slot
    off len s) :=
  .next (by grind [Keeps.refl, State.respond_keeps])

theorem execSpdmChallenge_completes (s : State) (fn slot nonce) : s.Completes (execSpdmChallenge fn slot nonce s) :=
  .next (by grind [Keeps.refl, State.useFree_keeps, State.respond_keeps])

theorem execGetMeasurements_completes (s : State) (fn index signed nonce) : s.Completes (execGetMeasurements fn index
    signed nonce s) :=
  .next (by grind [Keeps.refl, State.useFree_keeps, State.respond_keeps])

theorem execSidebandRead_completes (s : State) (seq offset) : s.Completes (execSidebandRead seq offset s) :=
  .next (by grind [Keeps.refl, State.sbAnswer_keeps, State.sbRefuse_keeps, State.sbRead_keeps])

theorem execSidebandWrite_completes (s : State) (seq offset value) : s.Completes (execSidebandWrite seq offset value
    s) :=
  .next (by grind [Keeps.refl, State.sbAnswer_keeps, State.sbWriteReg_keeps])

theorem execSidebandWake_completes (s : State) (seq) : s.Completes (execSidebandWake seq s) :=
  .next (by grind [Keeps.refl, State.useFree_keeps, State.boot_keeps, State.sbAnswer_keeps])

/-! Frames and links (chapters 8 to 10). -/

theorem execRirisUnknownFrame_completes (s : State) (f) : s.Completes (execRirisUnknownFrame f s) :=
  .guarded (by grind [Keeps.refl, State.takeIn_keeps, State.rxUnknown_keeps])

theorem execContextMiss_completes (s : State) (f) : s.Completes (execContextMiss f s) :=
  .guarded (by grind [Keeps.refl, State.takeIn_keeps, State.rxMiss_keeps])

theorem execParkedFrameTimeout_completes (s : State) (qp) : s.Completes (execParkedFrameTimeout qp s) :=
  .next (by grind [Keeps.refl, State.modPorter_keeps, State.logQp_keeps])

theorem execQpRetryTimeout_completes (s : State) (qp) : s.Completes (execQpRetryTimeout qp s) :=
  .next (by grind [Keeps.refl, State.qpExpire_keeps])

theorem execAckDelayExpiry_completes (s : State) (qp) : s.Completes (execAckDelayExpiry qp s) :=
  .next (by grind [Keeps.refl, State.sendAck_keeps])

theorem execSwitchedFrameSend_completes (s : State) (fromPlane f) : s.Completes (execSwitchedFrameSend fromPlane f s)
    :=
  .next (by grind [Keeps.refl, State.sendFrame_keeps, State.onLink_keeps, State.forwardOn_keeps])

theorem execBeaconReceived_completes (s : State) (link b) : s.Completes (execBeaconReceived link b s) :=
  .onLink fun _ h => by grind [State.countRx_keeps, State.modLink_keeps, State.linkUp_keeps, State.beaconBad_keeps]

theorem execBeaconGraceExpiry_completes (s : State) (link) : s.Completes (execBeaconGraceExpiry link s) :=
  .onLink fun _ h => by grind [State.modLink_keeps, State.linkFence_keeps]

theorem execAlignDone_completes (s : State) (link) : s.Completes (execAlignDone link s) :=
  .onLink fun _ h => by grind [State.linkTo_keeps, State.modLink_keeps, State.linkUp_keeps]

theorem execControlAckReceived_completes (s : State) (link ackseq) : s.Completes (execControlAckReceived link ackseq
    s) :=
  .onLink fun _ h => by grind [State.countRx_keeps, State.modLink_keeps, State.drainLink_keeps]

theorem execControlRetxTimeout_completes (s : State) (link) : s.Completes (execControlRetxTimeout link s) :=
  .onLink fun _ h => by grind [State.logLink_keeps, State.linkDown_keeps, State.modLink_keeps, State.drainLink_keeps]

theorem execCreditFrameReceived_completes (s : State) (link cred) : s.Completes (execCreditFrameReceived link cred s)
    :=
  .onLink fun _ h => by grind [State.countRx_keeps, State.modLink_keeps, State.drainLink_keeps]

theorem execPfcFrameReceived_completes (s : State) (link enable times) : s.Completes (execPfcFrameReceived link
    enable times s) :=
  .onLink fun _ h => by grind [times_keeps, State.countRx_keeps, State.modLink_keeps, State.drainLink_keeps]

theorem execPfcPauseExpiry_completes (s : State) (link prio) : s.Completes (execPfcPauseExpiry link prio s) :=
  .onLink fun _ h => by grind [State.modLink_keeps, State.drainLink_keeps]

theorem execPfcWatchdogFire_completes (s : State) (link prio) : s.Completes (execPfcWatchdogFire link prio s) :=
  .onLink fun _ h => by grind [State.modLink_keeps, eachDo_keeps, State.nicSent_keeps, State.logLink_keeps]

theorem execPfcRecoveryEnd_completes (s : State) (link prio) : s.Completes (execPfcRecoveryEnd link prio s) :=
  .onLink fun _ h => by grind [State.modLink_keeps]

theorem execNicFrameReceived_completes (s : State) (link bytes) : s.Completes (execNicFrameReceived link bytes s) :=
  .onLink fun _ h => by grind [State.countRx_keeps, State.bufferNic_keeps, State.nicReceive_keeps]

theorem execArpNdFrame_completes (s : State) (link head body) : s.Completes (execArpNdFrame link head body s) :=
  .next (by grind [Keeps.refl, State.onLink_keeps, State.countRx_keeps, State.emitNow_keeps])

/-! Time and milestones (chapters 6 and 12). -/

theorem execTimeFrameDue_completes (s : State) (link) : s.Completes (execTimeFrameDue link s) :=
  .next (by grind [Keeps.refl, State.enqueue_keeps])

theorem execTimeFrameReceived_completes (s : State) (link t) : s.Completes (execTimeFrameReceived link t s) :=
  .next (by grind [Keeps.refl, State.gotFrame_keeps, State.modTime_keeps, State.measure_keeps])

theorem execTimeReferenceLoss_completes (s : State) : s.Completes (execTimeReferenceLoss s) :=
  .next (by grind [Keeps.refl, State.modTime_keeps, State.logTime_keeps])

theorem execReplicaCheck_completes (s : State) (diffs) : s.Completes (execReplicaCheck diffs s) :=
  .next (by grind [Keeps.refl, eachDo_keeps, State.realign_keeps, Keeps.withPwr])

theorem execPtpLockChange_completes (s : State) (locked) : s.Completes (execPtpLockChange locked s) :=
  .next (by grind [Keeps.refl, State.modTime_keeps, State.rootReference_keeps, State.logTime_keeps])

theorem execMsArrivalMsg_completes (s : State) (m) : s.Completes (execMsArrivalMsg m s) :=
  .onMsg fun _ h => by grind [eachDo_keeps, State.arrivalAt_keeps]

theorem execMsRelease_completes (s : State) (r) : s.Completes (execMsRelease r s) :=
  .next (by grind [Keeps.refl, State.onMsg_keeps, State.rootRelease_keeps, eachDo_keeps, State.releaseAt_keeps,
    State.msDown_keeps])

theorem execMsWatchdogFire_completes (s : State) (part obj) : s.Completes (execMsWatchdogFire part obj s) := by
  have hmissed := State.logMs_keeps 0x0130 scWatchdog (some obj) [] (q := part) <|
    State.modObj_keeps part obj (fun y => { y with fired := true }) (State.recordMiss_keeps part obj (.refl s))
  exact .guarded (by grind [State.stopWaiters_keeps, State.noticeRoot_keeps])

theorem execMsWatchdogNotice_completes (s : State) (m) : s.Completes (execMsWatchdogNotice m s) :=
  .onMsg fun _ h => by grind [State.noticeAt_keeps]

theorem execMsAbandon_completes (s : State) (m) : s.Completes (execMsAbandon m s) :=
  .onMsg fun _ h => by grind [State.broadcast_keeps, State.abandonAt_keeps]

theorem execMsHold_completes (s : State) (m) : s.Completes (execMsHold m s) :=
  .onMsg fun _ h => by grind [State.broadcast_keeps, State.holdAt_keeps]

theorem execMsWithdrawal_completes (s : State) (m) : s.Completes (execMsWithdrawal m s) :=
  .onMsg fun _ h => by grind [State.broadcast_keeps, State.holdAt_keeps]

theorem execMsReplayRequest_completes (s : State) (m) : s.Completes (execMsReplayRequest m s) :=
  .onMsg fun _ h => by grind [State.passDown_keeps, State.passUp_keeps, eachDo_keeps, State.replayAt_keeps]

/-! Errors, tests, power and the module (chapters 7, 12, 15 and 16). -/

theorem execSpurFlitError_completes (s : State) (rx tx failures) : s.Completes (execSpurFlitError rx tx failures s) :=
  .next (by grind [Keeps.refl, State.flitCorrected_keeps, State.flitBad_keeps, State.logSerai_keeps,
    State.enterFault_keeps, Keeps.withCwy])

theorem execMeshFlitLoss_completes (s : State) (die port t) : s.Completes (execMeshFlitLoss die port t s) :=
  .next (by grind [Keeps.refl, State.flitCorrected_keeps, State.flitBad_keeps, State.logAt_keeps,
    State.transferLoss_keeps])

theorem Memory.clearMarks_wf {m : Memory} (word : Nat) (wb : List Nat) (h : m.wf = true) :
    ({ m with cisErr := tabPut 0 m.cisErr word 0, cisWb := wb } : Memory).wf = true
      ∧ ({ m with hbmErr := tabPut 0 m.hbmErr word 0, hbmWb := wb } : Memory).wf = true := by
  obtain ⟨hhbm, hhbmErr, hcis, hdef, hcisErr⟩ := (Memory.wf_iff m).1 h
  exact ⟨(Memory.wf_iff _).2 ⟨hhbm, hhbmErr, hcis, hdef, tabPut_wf _ _ _ _ hcisErr⟩,
    (Memory.wf_iff _).2 ⟨hhbm, tabPut_wf _ _ _ _ hhbmErr, hcis, hdef, hcisErr⟩⟩

theorem execCorrectedWriteback_completes (s : State) (cistern word) :
    s.Completes (execCorrectedWriteback cistern word s) := by
  have hcis := fun wb => Keeps.setMem (.refl s) _ fun h => (Memory.clearMarks_wf word wb h).1
  have hhbm := fun wb => Keeps.setMem (.refl s) _ fun h => (Memory.clearMarks_wf word wb h).2
  exact .guarded (.ite (.ite (hcis _) (.refl s)) (.ite (hhbm _) (.refl s)))

theorem execPatrolRead_completes (s : State) (cistern unit word passEnd) : s.Completes (execPatrolRead cistern unit
    word passEnd s) :=
  .next (by grind [Keeps.refl, State.patrolCis_keeps, State.patrolHbm_keeps])

theorem execPeriodicCoreTest_completes (s : State) (n k pass cycles) : s.Completes (execPeriodicCoreTest n k pass
    cycles s) :=
  .next (by grind [Keeps.refl, State.withClock_keeps, State.tallyAdd_keeps, State.traceAt_keeps, State.modCore_keeps,
    State.modDie_keeps, State.checkFailed_keeps])

theorem execPeriodicEngineTest_completes (s : State) (n house pass) : s.Completes (execPeriodicEngineTest n house
    pass s) :=
  .next (by grind [Keeps.refl, State.modDie_keeps, State.logEngine_keeps])

theorem execLockstepMismatch_completes (s : State) (n k) : s.Completes (execLockstepMismatch n k s) :=
  .next (by grind [Keeps.refl, State.checkFailed_keeps])

theorem execClockMonitorFault_completes (s : State) (c) : s.Completes (execClockMonitorFault c s) :=
  .next (by grind [Keeps.refl, State.checkFailed_keeps, State.logAt_keeps, eachDo_keeps, State.coreFaultSeen_keeps,
    State.enterFault_keeps])

theorem execPowerRecompute_completes (s : State) (m) : s.Completes (execPowerRecompute m s) :=
  .next (by grind [Keeps.refl, State.takeMeasure_keeps, State.checkBreach_keeps, eachDo_keeps,
    State.sealedFreq_keeps, State.openFreq_keeps])

theorem execPhaseLearn_completes (s : State) (part dies) : s.Completes (execPhaseLearn part dies s) :=
  .next (by grind [Keeps.refl, State.useFree_keeps, eachDo_keeps, State.showPhase_keeps, Keeps.withPwr])

theorem execSupplyVoltageChange_completes (s : State) (mv) : s.Completes (execSupplyVoltageChange mv s) :=
  .next (by grind [Keeps.refl, State.applyLimit_keeps, Keeps.withPhys])

theorem execThermalSample_completes (s : State) (d tj) : s.Completes (execThermalSample d tj s) :=
  .next (by grind [Keeps.refl, State.takeTj_keeps, State.throttle_keeps, State.logPower_keeps,
    State.enterFault_keeps])

theorem execDroopCrossing_completes (s : State) (d six) : s.Completes (execDroopCrossing d six s) :=
  .next (by grind [Keeps.refl, eachDo_keeps, State.modCore_keeps, State.logDroop_keeps, Keeps.withPwr])

theorem execDroopStretchEnd_completes (s : State) (d cycles) : s.Completes (execDroopStretchEnd d cycles s) :=
  .next (by grind [Keeps.refl, eachDo_keeps, State.talliesAdd_keeps, Keeps.withPwr])

theorem Logbook.program_fits {l : Logbook} (h : l.fits = true) : l.program.fits = true := by
  simp only [Logbook.fits, Logbook.program, Bool.and_eq_true, decide_eq_true_eq, List.length_drop] at h ⊢
  exact ⟨h.1, by omega⟩

theorem execLogArchiveProgram_completes (s : State) : s.Completes (execLogArchiveProgram s) :=
  .guarded (Keeps.setLog (.refl s) _ Logbook.program_fits)

theorem execPowerPresent_completes (s : State) (mv) : s.Completes (execPowerPresent mv s) :=
  .guarded ⟨rfl, le_rfl, le_rfl, id, id, id⟩

theorem execPowerLost_completes (s : State) : s.Completes (execPowerLost s) :=
  .next (by grind [Keeps.refl, State.goOff_keeps])

theorem execOvervoltage_completes (s : State) : s.Completes (execOvervoltage s) :=
  .next (by grind [Keeps.refl, State.goOff_keeps])

theorem execPerst_completes (s : State) : s.Completes (execPerst s) :=
  .next (by grind [Keeps.refl, State.resetPf_keeps, Keeps.withMod])

theorem execMrst_completes (s : State) : s.Completes (execMrst s) :=
  .next (by grind [Keeps.refl, State.powerCut_keeps])

theorem execLeakDetected_completes (s : State) : s.Completes (execLeakDetected s) :=
  .next (by grind [Keeps.refl, State.logPhys_keeps, Keeps.withPhys])

theorem execPcieLinkTrained_completes (s : State) (speed width) : s.Completes (execPcieLinkTrained speed width s) :=
  .next (by grind [Keeps.refl, State.logPcie_keeps, Keeps.withMod])

theorem execRecoveryRecallDone_completes (s : State) (part) : s.Completes (execRecoveryRecallDone part s) :=
  .next (by grind [Keeps.refl, State.finishRecall_keeps])

theorem execReassignmentScrubDone_completes (s : State) : s.Completes (execReassignmentScrubDone s) :=
  .next (by grind [Keeps.refl, State.endReassign_keeps])

theorem execScrubDone_completes (s : State) (part) : s.Completes (execScrubDone part s) := by
  refine .next ?_
  dsimp only
  repeat' split
  any_goals apply State.complete_keeps
  any_goals apply State.logCus_keeps
  all_goals grind [Keeps.refl, eachDo_keeps, State.scrubRange_keeps, State.freshCisKeys_keeps, State.modCus_keeps,
    State.refreshScrubbing_keeps]

theorem execFrameDiscarded_completes (s : State) (link fcsOk addrs tag body) : s.Completes (execFrameDiscarded link
    fcsOk addrs tag body s) :=
  .next (by grind [Keeps.refl, State.onLink_keeps, State.countRx_keeps, State.modLink_keeps])

theorem execLeakCleared_completes (s : State) : s.Completes (execLeakCleared s) :=
  .next (by grind [Keeps.refl, Keeps.withPhys])

theorem execLifetimeCommitDone_completes (s : State) (ok) : s.Completes (execLifetimeCommitDone ok s) := by
  have hfree := State.useFree_keeps (.refl s)
  refine .next ?_
  dsimp only
  repeat' split
  · exact .refl s
  · exact .refl s
  · exact State.lifeNext_keeps (Keeps.withLife _ (.refl s))
  · exact State.lifeNext_keeps (State.logPower_keeps _ _ _ _ (Keeps.withLife _ (Keeps.withLife _ hfree)))
  · exact Keeps.withLife _ (Keeps.withLife _ hfree)

/-! The statements. -/

/-- Every command answers a next state and keeps what `Keeps` names: one arm for each row of the opcode table. -/
theorem exec_completes (c : Instr) (s : State) : s.Completes (exec c s) := by
  cases c with
  | nop iss => exact execNop_completes s _
  | loop iss xi step count => exact execLoop_completes s _ _ _ _
  | loopm iss xi xa addr step max => exact execLoopm_completes s _ _ _ _ _ _
  | endloop iss => exact execEndloop_completes s _
  | jump iss target => exact execJump_completes s _ _
  | brflag iss trec mask sense target => exact execBrflag_completes s _ _ _ _ _
  | brmem iss xa addr sense target => exact execBrmem_completes s _ _ _ _ _
  | dlbr iss buf n dl target => exact execDlbr_completes s _ _ _ _ _
  | dlbrTokenReached core => exact execDlbrTokenReached_completes s _
  | dlbrDeadlineExpiry core => exact execDlbrDeadlineExpiry_completes s _
  | halt iss => exact execHalt_completes s _
  | itineraryDone part => exact execItineraryDone_completes s _
  | regwr iss offset xi imm => exact execRegwr_completes s _ _ _ _
  | tokwait iss buf n consume => exact execTokwait_completes s _ _ _ _
  | tokwaitSatisfied core => exact execTokwaitSatisfied_completes s _
  | tokpost iss buf n => exact execTokpost_completes s _ _ _
  | release iss buf => exact execRelease_completes s _ _
  | tollreq iss cls target amount => exact execTollreq_completes s _ _ _ _
  | tollGrant core => exact execTollGrant_completes s _
  | fence iss => exact execFence_completes s _
  | fenceComplete core => exact execFenceComplete_completes s _
  | msarrive iss mid wait rp vr => exact execMsarrive_completes s _ _ _ _ _
  | hostnote iss queue payload => exact execHostnote_completes s _ _ _
  | copy iss src dst pbuf post add => exact execCopy_completes s _ _ _ _ _ _
  | copyComplete core op => exact execCopyComplete_completes s _ _
  | remote iss loc qp rkey roff kind => exact execRemote_completes s _ _ _ _ _ _
  | remoteComplete core op => exact execRemoteComplete_completes s _ _
  | convoy iss src tag qp contrib guard => exact execConvoy_completes s _ _ _ _ _ _
  | convoyComplete core op => exact execConvoyComplete_completes s _ _
  | array iss a b pmode acc lrow m1 n1 => exact execArray_completes s _ _ _ _ _ _ _ _
  | arrayi iss dxA dxB dwA dwB dxAcc dwAcc dxM1 dwM1 dxN1 dwN1 => exact execArrayi_completes s _ _ _ _ _ _ _ _ _ _ _
  | draw iss lrow m1 n1 dst rmode srbits keep wm image sa sb => exact execDraw_completes s _ _ _ _ _ _ _ _ _ _ _ _
  | conv iss src dst rmode srbits clrrec => exact execConv_completes s _ _ _ _ _ _
  | vec iss vop x y z w yrow imm => exact execVec_completes s _ _ _ _ _ _ _ _
  | tally iss mask dst => exact execTally_completes s _ _ _
  | trace iss mark payload => exact execTrace_completes s _ _ _
  | coreFaultReport n k => exact .guarded (State.takeFault_keeps _ (.refl s))
  | cmdNop h => exact .hostCmd fun _ _ h => State.complete_keeps _ _ _ _ h
  | loadItinerary h image resume => exact execLoadItinerary_completes s _ _ _
  | start h => exact .hostCmd fun _ _ h => State.startPart_keeps _ _ h
  | pause h => exact execPause_completes s _
  | resume h => exact execResume_completes s _
  | stop h => exact .hostCmd fun _ _ h => State.beginSwitch_keeps _ _ h
  | contextSwitchDone part => exact .guarded (State.switchDone_keeps _ (.refl s))
  | postToken h die buf n => exact execPostToken_completes s _ _ _ _
  | copyIn h host dev len protect slot stream data chunks => exact execCopyIn_completes s _ _ _ _ _ _ _ _ _
  | copyOut h host dev len protect slot => exact execCopyOut_completes s _ _ _ _ _ _
  | registerRegion h rkey base size rights slot => exact execRegisterRegion_completes s _ _ _ _ _ _
  | revokeRegion h rkey => exact execRevokeRegion_completes s _ _
  | regionDrained idx => exact execRegionDrained_completes s _
  | installKey h blob => exact execInstallKey_completes s _ _
  | scrub h => exact execScrub_completes s _
  | applyManifest h len obj => exact execApplyManifest_completes s _ _ _
  | manifestActivation => exact execManifestActivation_completes s
  | manifestSwitchTimeout part => exact execManifestSwitchTimeout_completes s _
  | manifestCancel fn => exact .onBar fun _ h => State.manCancel_keeps h
  | placementPlace fn part => exact execPlacementPlace_completes s _ _
  | placementRemove fn part => exact execPlacementRemove_completes s _ _
  | placementRemoveDone part => exact execPlacementRemoveDone_completes s _
  | placementReadBack fn part => exact execPlacementReadBack_completes s _ _
  | qpCreate fn m part => exact .onBar fun _ h => State.pageCmd_keeps _ _ _ h
  | qpDestroy fn m part => exact .onBar fun _ h => State.pageCmd_keeps _ _ _ h
  | qpPin fn m part => exact .onBar fun _ h => State.pageCmd_keeps _ _ _ h
  | qpUnpin fn m part => exact .onBar fun _ h => State.pageCmd_keeps _ _ _ h
  | qpReset fn m part => exact .onBar fun _ h => State.pageCmd_keeps _ _ _ h
  | qpReadBack fn m part => exact .onBar fun _ h => State.pageCmd_keeps _ _ _ h
  | anchorEnrol fn obj => exact execAnchorEnrol_completes s _ _
  | anchorRelease fn obj => exact execAnchorRelease_completes s _ _
  | svnAdvance fn => exact execSvnAdvance_completes s _
  | keygen fn part => exact execKeygen_completes s _ _
  | keySlotEmpty fn part slot => exact execKeySlotEmpty_completes s _ _ _
  | cvSwitchArm fn part => exact execCvSwitchArm_completes s _ _
  | cvSwitchDisarm fn part => exact execCvSwitchDisarm_completes s _ _
  | shutdown src => exact .guarded (State.shutdownOp_keeps (.refl s))
  | reboot src => exact .guarded (State.rebootOp_keeps (.refl s))
  | quiesceDone => exact execQuiesceDone_completes s
  | firmwareUpdate fn image => exact execFirmwareUpdate_completes s _ _
  | firmwareUpdateDone ok => exact execFirmwareUpdateDone_completes s _
  | lifetimeCommitCmd fn => exact .onBar fun _ h => State.lifeBegin_keeps h
  | lifetimeCommitTimer => exact .guarded (State.lifeBegin_keeps (.refl s))
  | serviceDue k => exact execServiceDue_completes s _
  | tallySnap fn n k => exact execTallySnap_completes s _ _ _
  | totalSnap fn => exact execTotalSnap_completes s _
  | tallyTotalUpdate => exact execTallyTotalUpdate_completes s
  | traceTallyPeriod n k => exact execTraceTallyPeriod_completes s _ _
  | traceDrain n k count => exact execTraceDrain_completes s _ _ _
  | linkAdminDown fn link => exact execLinkAdminDown_completes s _ _
  | linkAdminUp fn link => exact execLinkAdminUp_completes s _ _
  | retrain fn link => exact .onBar fun _ h => State.onLink_keeps _ _ _ h fun _ h => State.linkDown_keeps _ _ h
  | quarInject fn n phys => exact execQuarInject_completes s _ _ _
  | resInject fn n k target => exact execResInject_completes s _ _ _ _
  | hbmInject fn n kind => exact execHbmInject_completes s _ _ _
  | cisInjectError fn m dbl chan => exact execCisInjectError_completes s _ _ _ _
  | cisInjectFail fn m chan => exact .guarded (State.onBar_keeps _ _ _ (.refl s) fun _ h => State.failOnce_keeps _ _
    h)
  | porterInjectAuth fn m => exact execPorterInjectAuth_completes s _ _
  | porterInjectDrop fn m => exact execPorterInjectDrop_completes s _ _
  | updSubmit fn n word15 => exact execUpdSubmit_completes s _ _ _
  | updHalt fn n v => exact execUpdHalt_completes s _ _ _
  | updUcodeWrite fn n idx v => exact execUpdUcodeWrite_completes s _ _ _ _
  | updateEngineTake n => exact execUpdateEngineTake_completes s _
  | updateEngineComplete n => exact execUpdateEngineComplete_completes s _
  | countingHouseAdd n => exact execCountingHouseAdd_completes s _
  | msDefWrite fn part off v => exact execMsDefWrite_completes s _ _ _ _
  | timeStep src hi => exact .guarded (State.timeStep_keeps _ (.refl s))
  | pwrBudgetWrite src v => exact .guarded (State.writeBudget_keeps _ (.refl s))
  | logCursorWrite fn wide high v => exact execLogCursorWrite_completes s _ _ _ _
  | logAutoAdvance fn => exact execLogAutoAdvance_completes s _
  | queueEnable fn q v => exact execQueueEnable_completes s _ _ _
  | queueDisable fn q v => exact execQueueDisable_completes s _ _ _
  | queueHaltClear fn q => exact execQueueHaltClear_completes s _ _
  | doorbellSqTail fn q tail descs => exact execDoorbellSqTail_completes s _ _ _ _
  | doorbellCqHead fn q head => exact execDoorbellCqHead_completes s _ _ _
  | queueRingError fn q => exact execQueueRingError_completes s _ _
  | msixCoalesceExpiry fn q => exact execMsixCoalesceExpiry_completes s _ _
  | eventDeliverDeferred fn => exact execEventDeliverDeferred_completes s _
  | nicSendDescriptor fn q desc data => exact execNicSendDescriptor_completes s _ _ _ _
  | nicRxBufferPost fn q desc => exact execNicRxBufferPost_completes s _ _ _
  | bar0BadAccess fn off bytes write => exact execBar0BadAccess_completes s _ _ _ _
  | registerLowHalfRead fn off => exact .guarded (State.barRead_keeps _ _ _ (.refl s))
  | registerReadClear fn rd => exact execRegisterReadClear_completes s _ _
  | registerWrite fn off wide v => exact execRegisterWrite_completes s _ _ _ _
  | flrVf v => exact execFlrVf_completes s _
  | flrPf => exact .guarded (State.resetPf_keeps (.refl s))
  | spdmGetVersion fn => exact .next (State.respond_keeps _ _ (.refl s))
  | spdmGetCapabilities fn => exact .next (State.respond_keeps _ _ (.refl s))
  | spdmNegotiateAlgorithms fn ed25519 sha384 => exact .next (State.respond_keeps _ _ (.refl s))
  | spdmGetDigests fn => exact .next (State.respond_keeps _ _ (.refl s))
  | spdmGetCertificate fn slot off len => exact execSpdmGetCertificate_completes s _ _ _ _
  | spdmChallenge fn slot nonce => exact execSpdmChallenge_completes s _ _ _
  | getMeasurements fn index signed nonce => exact execGetMeasurements_completes s _ _ _ _
  | spdmUnsupported fn request => exact .next (State.respond_keeps _ _ (.refl s))
  | sidebandRead seq offset => exact execSidebandRead_completes s _ _
  | sidebandWrite seq offset value => exact execSidebandWrite_completes s _ _ _
  | sidebandWake seq => exact execSidebandWake_completes s _
  | ririsWrite f => exact .next (State.rxFrame_keeps _ _ (.refl s))
  | ririsWriteNotify f => exact .next (State.rxFrame_keeps _ _ (.refl s))
  | ririsReadReq f => exact .next (State.rxFrame_keeps _ _ (.refl s))
  | ririsReadResp f => exact .next (State.rxFrame_keeps _ _ (.refl s))
  | ririsNotify f => exact .next (State.rxFrame_keeps _ _ (.refl s))
  | ririsAck f => exact .next (State.rxFrame_keeps _ _ (.refl s))
  | ririsNak f => exact .next (State.rxFrame_keeps _ _ (.refl s))
  | ririsUnknownFrame f => exact execRirisUnknownFrame_completes s _
  | convoyFrame f => exact .next (State.rxFrame_keeps _ _ (.refl s))
  | contextMiss f => exact execContextMiss_completes s _
  | contextFetchDone qp uncorrectable => exact .guarded (State.fetchEnd_keeps _ _ (.refl s))
  | parkedFrameTimeout qp => exact execParkedFrameTimeout_completes s _
  | qpRetryTimeout qp => exact execQpRetryTimeout_completes s _
  | ackDelayExpiry qp => exact execAckDelayExpiry_completes s _
  | frameForward link laneB f => exact .onLink fun _ h => State.forwardOn_keeps _ _ _ _ h
  | switchedFrameSend fromPlane f => exact execSwitchedFrameSend_completes s _ _
  | beaconDue link => exact .onLink fun _ h => State.emitNow_keeps _ _ h
  | beaconReceived link b => exact execBeaconReceived_completes s _ _
  | beaconLossTimeout link => exact .onLink fun _ h => State.linkFence_keeps _ _ _ _ h
  | beaconGraceExpiry link => exact execBeaconGraceExpiry_completes s _
  | linkRetryTimer link => exact .onLink fun _ h => State.linkTo_keeps _ _ h
  | opticsPowerOk link => exact .onLink fun _ h => State.linkTo_keeps _ _ h
  | opticsTimeout link => exact .onLink fun _ h => State.attemptFailed_keeps _ _ h
  | alignDone link => exact execAlignDone_completes s _
  | alignTimeout link => exact .onLink fun _ h => State.attemptFailed_keeps _ _ h
  | beaconWaitTimeout link => exact .onLink fun _ h => State.attemptFailed_keeps _ _ h
  | pcsAlignmentLost link => exact .onLink fun _ h => State.pcsDown_keeps _ _ h
  | pcsHighSer link => exact .onLink fun _ h => State.pcsDown_keeps _ _ h
  | controlAckReceived link ackseq => exact execControlAckReceived_completes s _ _
  | controlRetxTimeout link => exact execControlRetxTimeout_completes s _
  | creditFrameReceived link cred => exact execCreditFrameReceived_completes s _ _
  | creditFrameTimer link => exact .onLink fun _ h => State.sendCredit_keeps _ h
  | pfcFrameReceived link enable times => exact execPfcFrameReceived_completes s _ _ _
  | pfcPauseExpiry link prio => exact execPfcPauseExpiry_completes s _ _
  | pfcRepeatTimer link prio => exact .onLink fun _ h => State.pfcAsk_keeps _ _ h
  | pfcWatchdogFire link prio => exact execPfcWatchdogFire_completes s _ _
  | pfcRecoveryEnd link prio => exact execPfcRecoveryEnd_completes s _ _
  | nicFrameReceived link bytes => exact execNicFrameReceived_completes s _ _
  | arpNdFrame link head body => exact execArpNdFrame_completes s _ _ _
  | timeFrameDue link => exact execTimeFrameDue_completes s _
  | timeFrameReceived link t => exact execTimeFrameReceived_completes s _ _
  | timeReferenceLoss => exact execTimeReferenceLoss_completes s
  | replicaCheck diffs => exact execReplicaCheck_completes s _
  | ptpLockChange locked => exact execPtpLockChange_completes s _
  | msLocalArrival part obj core => exact .guarded (State.countArrival_keeps _ _ _ (.refl s))
  | msArrivalMsg m => exact execMsArrivalMsg_completes s _
  | msRelease r => exact execMsRelease_completes s _
  | msWatchdogFire part obj => exact execMsWatchdogFire_completes s _ _
  | msWatchdogNotice m => exact execMsWatchdogNotice_completes s _
  | msAbandon m => exact execMsAbandon_completes s _
  | msHold m => exact execMsHold_completes s _
  | msWithdrawal m => exact execMsWithdrawal_completes s _
  | msReplayRequest m => exact execMsReplayRequest_completes s _
  | spurFlitError rx tx failures => exact execSpurFlitError_completes s _ _ _
  | meshFlitLoss die port t => exact execMeshFlitLoss_completes s _ _ _
  | correctedWriteback cistern word => exact execCorrectedWriteback_completes s _ _
  | patrolRead cistern unit word passEnd => exact execPatrolRead_completes s _ _ _ _
  | cisternReadTimeout m chan => exact .guarded (State.failOnce_keeps _ _ (.refl s))
  | hbmReadTimeout n => exact .guarded (State.failStack_keeps _ (.refl s))
  | periodicCoreTest n k pass cycles => exact execPeriodicCoreTest_completes s _ _ _ _
  | periodicEngineTest n house pass => exact execPeriodicEngineTest_completes s _ _ _
  | lockstepMismatch n k => exact execLockstepMismatch_completes s _ _
  | clockMonitorFault c => exact execClockMonitorFault_completes s _
  | firmwareWatchdog => exact .next (State.enterFault_keeps _ (.refl s))
  | powerRecompute m => exact execPowerRecompute_completes s _
  | phaseLearn part dies => exact execPhaseLearn_completes s _ _
  | supplyVoltageChange mv => exact execSupplyVoltageChange_completes s _
  | thermalSample d tj => exact execThermalSample_completes s _ _
  | droopCrossing d six => exact execDroopCrossing_completes s _ _
  | droopStretchEnd d cycles => exact execDroopStretchEnd_completes s _ _
  | logArchiveProgram => exact execLogArchiveProgram_completes s
  | powerPresent mv => exact execPowerPresent_completes s _
  | powerLost => exact execPowerLost_completes s
  | overvoltage => exact execOvervoltage_completes s
  | wake recov => exact .guarded (State.boot_keeps _ (.refl s))
  | bootDone r => exact .guarded (State.bootEnd_keeps _ (.refl s))
  | perst => exact execPerst_completes s
  | mrst => exact execMrst_completes s
  | leakDetected => exact execLeakDetected_completes s
  | railFault r => exact .next (State.railFault_keeps _ (.refl s))
  | pcieLinkTrained speed width => exact execPcieLinkTrained_completes s _ _
  | recoveryRecallDone part => exact execRecoveryRecallDone_completes s _
  | reassignmentScrubDone => exact execReassignmentScrubDone_completes s
  | scrubDone part => exact execScrubDone_completes s _
  | frameDiscarded link fcsOk addrs tag body => exact execFrameDiscarded_completes s _ _ _ _ _
  | leakCleared => exact execLeakCleared_completes s
  | lifetimeCommitDone ok => exact execLifetimeCommitDone_completes s _

/-- A step takes the command in front, if there is one, off the queue, and keeps the rest of it. -/
theorem step_keeps {s t : State} (h : step s = .next t) : Keeps { s with pending := s.pending.tail } t := by
  unfold step at h
  split at h
  next hidle =>
    cases h
    have hsame : { s with pending := s.pending.tail } = s := by rw [hidle, List.tail_nil, ← hidle]
    rw [hsame]
    exact tick_keeps (.refl s)
  next c cs hfront =>
    obtain ⟨u, hu, hkeeps⟩ := exec_completes c { s with pending := cs }
    rw [hu] at h
    cases h
    rwa [hfront, List.tail_cons]

/-- Settles O56. -/
theorem everyCommandCompletes : Obligations.EveryCommandCompletes := by
  intro c s
  obtain ⟨t, ht, hkeeps⟩ := exec_completes c s
  exact ⟨t, ht, hkeeps.pending, hkeeps.free, hkeeps.mem⟩

/-- Settles O58: a step keeps each of the three parts of safety. -/
theorem stepKeepsSafe : Obligations.StepKeepsSafe := by
  intro s t hsafe hstep
  obtain ⟨hmem, hfuse, hlog⟩ := hsafe
  have hkeeps := step_keeps hstep
  exact ⟨hkeeps.mem hmem, hkeeps.fuseMax hfuse, hkeeps.log hlog⟩

/-- Settles O59. -/
theorem fusesNeverUndone : Obligations.FusesNeverUndone := fun _ _ hstep => (step_keeps hstep).fuse

/-- Settles O55: the two cases of the queue are the two arms of `step`. -/
theorem stepRunsFront : Obligations.StepRunsFront := fun _ _ _ => ⟨rfl, rfl⟩

end Sys2Proof.Machine
end

section
/-!
PROOFS. What an entry of Serai's, a change of the module's state and a boot leave alone (chapters 14 and 15 of the
spec); the lifecycle, the lifetime ledger and the firmware update (chapters 12 and 14), and the statements O34 and O35.
-/

namespace Sys2Proof.Machine

/-! Entries of Serai's and changes of the module's state (R431, R434). -/

/-- An entry of Serai's changes the logbook and Serai's gap mark alone. -/
theorem State.logSeraiAt_shape (s : State) (code status : Nat) (part : Option Nat) (args snaps : List Word) :
    ∃ l g, s.logAt .serai code status part args snaps = { s with log := l, gapSerai := g } := by
  unfold State.logAt
  dsimp only
  split
  · exact ⟨_, _, rfl⟩
  · exact ⟨_, s.gapSerai, rfl⟩

theorem State.logSerai_shape (s : State) (code status : Nat) (part : Option Nat) (args : List Word) :
    ∃ l g, s.logSerai code status part args = { s with log := l, gapSerai := g } := s.logSeraiAt_shape _ _ _ _ _

/-- A power code of no die is Serai's. -/
theorem State.logPower_shape (s : State) (code status : Nat) (args : List Word) :
    ∃ l g, s.logPower 24 code status args = { s with log := l, gapSerai := g } := s.logSeraiAt_shape _ _ _ _ _

theorem State.setMod_shape (s : State) (m : ModSt) :
    ∃ l g, s.setMod m = { s with mod := { s.mod with state := m }, log := l, gapSerai := g } :=
  State.logSerai_shape _ _ _ _ _

/-- While the clocks run, FAULT is entered with its cause and FAULT# low (Table 14.11, R469). -/
theorem State.enterFault_shape {s : State} (cause : Nat) (h : s.clocked = true) :
    ∃ l g, s.enterFault cause = { s with
      mod := { s.mod with state := .fault, fault := BitVec.ofNat 4 cause }, phys := { s.phys with faultN := true },
      log := l, gapSerai := g } := by
  rw [State.enterFault, if_pos h]
  exact State.setMod_shape _ _

/-- The state with which a boot begins, before its entry and the limit of the supply. -/
def State.bootBase (s : State) (recov : Bool) : State :=
  let s1 := s.powerCut true .boot
  { s1 with
    mod := { s1.mod with bootStep := 1, recovStrap := recov },
    phys := { s1.phys with mainRails := true, faultN := false, faultHeld := false } }

theorem State.boot_shape (s : State) (recov : Bool) :
    ∃ p l g, s.boot recov = { s.bootBase recov with pwr := p, log := l, gapSerai := g } := by
  obtain ⟨l, g, hlog⟩ := (s.bootBase recov).logSerai_shape 0x0101 scOk none []
  have hstart : s.startBoot recov = { s.bootBase recov with log := l, gapSerai := g } := hlog
  rw [State.boot, hstart]
  exact ⟨_, _, _, State.applyLimit_powerOnly _ false⟩

/-! SHUTDOWN, REBOOT and the end of QUIESCE (R431, Table 14.11). -/

theorem exec_shutdown_quiesces {s : State} {src : Source} (hw : s.mayWrite src .module = true)
    (h : s.mod.state = .ready ∨ s.mod.state = .run) :
    exec (.shutdown src) s = .next (s.enterQuiesce .shutdown)
      ∧ exec (.reboot src) s = .next (s.enterQuiesce .reboot) := by
  have hmay : s.mayQuiesce = true := by simpa [State.mayQuiesce] using h
  simp only [exec, execShutdown, execReboot, State.shutdownOp, State.rebootOp, hw, hmay, if_true, and_self]

theorem exec_reboot_fault {s : State} {src : Source} (hw : s.mayWrite src .module = true)
    (h : s.mod.state = .fault) : exec (.reboot src) s = .next (s.boot false) := by
  have hmay : s.mayQuiesce = false := by simp [State.mayQuiesce, h]
  simp [exec, execReboot, State.rebootOp, hw, hmay, h]

theorem exec_quiesceDone_shutdown {s : State} (hst : s.mod.state = .quiesce) (hq : s.quiesced = true)
    (hafter : s.mod.after = .shutdown) : exec .quiesceDone s = .next (s.powerCut true .standby) := by
  simp only [exec, execQuiesceDone, if_pos (And.intro hst hq), hafter]

theorem exec_quiesceDone_reboot {s : State} (hst : s.mod.state = .quiesce) (hq : s.quiesced = true)
    (hafter : s.mod.after = .reboot) : exec .quiesceDone s = .next (s.boot false) := by
  simp only [exec, execQuiesceDone, if_pos (And.intro hst hq), hafter]

theorem State.cancelStaged_mod (s : State) :
    s.cancelStaged.mod.state = s.mod.state ∧ s.cancelStaged.mod.after = s.mod.after
      ∧ s.cancelStaged.mod.staged = none := by
  unfold State.cancelStaged
  split
  case h_1 =>
    rw [State.logSerai_mod]
    exact ⟨rfl, rfl, rfl⟩
  case h_2 hnone => exact ⟨rfl, rfl, hnone⟩

theorem State.HostOnly.mod_eq {s t : State} (h : s.HostOnly t) : t.mod = s.mod := by
  have hframe : t = { s with fns := t.fns, host := t.host } := h
  rw [hframe]

theorem State.complete_mod (s : State) (c : CmdRef) (st : Nat) (r0 r1 : DWord) :
    (s.complete c st r0 r1).mod = s.mod := ((HostOnly.refl s).complete c st r0 r1).mod_eq

theorem State.abandonStop_mod (s : State) (q : Nat) : (s.abandonStop q).mod = s.mod := by
  unfold State.abandonStop
  split
  · exact State.complete_mod _ _ _ _ _
  · rfl

theorem State.abandonScrub_mod (s : State) (q : Nat) : (s.abandonScrub q).mod = s.mod := by
  unfold State.abandonScrub
  split
  · exact State.complete_mod _ _ _ _ _
  · rfl

theorem State.abandonRevoke_mod (s : State) (i : Nat) : (s.abandonRevoke i).mod = s.mod := by
  unfold State.abandonRevoke
  split
  · exact State.complete_mod _ _ _ _ _
  · rfl

/-- Commands in flight complete (Table 14.11), which leaves the module block as it was. -/
theorem State.abandonCommands_mod (s : State) : s.abandonCommands.mod = s.mod := by
  simp only [State.abandonCommands, State.refreshScrubbing]
  refine eachDo_induct (P := fun t => t.mod = s.mod) (fun r _ t ht => ?_)
    (eachDo_induct (P := fun t => t.mod = s.mod) (fun i _ t ht => ?_)
      (eachDo_induct (P := fun t => t.mod = s.mod) (fun q _ t ht => ?_) rfl))
  · exact ((HostOnly.refl t).completeKind _ _ _ _ _ _ _).mod_eq.trans ht
  · exact (State.abandonRevoke_mod t i).trans ht
  · exact (State.abandonScrub_mod _ q).trans ((State.abandonStop_mod t q).trans ht)

/-- Entry to QUIESCE (R431): no manifest is staged, and what follows is kept. -/
theorem State.quiesceEntered_mod (s : State) (after : AfterQuiesce) :
    let t := ({ s with mod := { s.mod with after := after } }.setMod .quiesce).cancelStaged.abandonCommands
    t.mod.state = .quiesce ∧ t.mod.after = after ∧ t.mod.staged = none := by
  intro t
  obtain ⟨l, g, hset⟩ := State.setMod_shape { s with mod := { s.mod with after := after } } .quiesce
  obtain ⟨hstate, hafter, hstaged⟩ := State.cancelStaged_mod
    ({ s with mod := { s.mod with after := after } }.setMod .quiesce)
  simp only [t, State.abandonCommands_mod]
  exact ⟨hstate.trans (by rw [hset]), hafter.trans (by rw [hset]), hstaged⟩

/-- Settles O34. -/
theorem lifecycleComplete : Obligations.LifecycleComplete := by
  intro s src
  refine ⟨fun hw => ⟨fun hrun => ?quiesces, fun hfault => ?rebootsFault⟩,
    fun hst hq => ⟨fun hafter => ?standby, fun hafter => ?reboots⟩, fun hclk => ?watchdog⟩
  case quiesces =>
    obtain ⟨hshut, hreboot⟩ := exec_shutdown_quiesces hw hrun
    exact ⟨hshut, hreboot, s.quiesceEntered_mod⟩
  case rebootsFault =>
    obtain ⟨p, l, g, hboot⟩ := s.boot_shape false
    rw [exec_reboot_fault hw hfault, hboot]
    exact ⟨_, rfl, rfl, rfl, rfl, rfl, rfl, rfl, rfl, rfl, rfl, rfl, rfl⟩
  case standby =>
    rw [exec_quiesceDone_shutdown hst hq hafter]
    exact ⟨_, rfl, rfl, rfl, rfl, rfl, rfl, rfl, rfl, rfl, rfl, rfl, rfl⟩
  case reboots =>
    obtain ⟨p, l, g, hboot⟩ := s.boot_shape false
    rw [exec_quiesceDone_reboot hst hq hafter, hboot]
    exact ⟨rfl, rfl⟩
  case watchdog =>
    obtain ⟨l, g, hfault⟩ := State.enterFault_shape 4 hclk
    exact ⟨_, congrArg Host.Outcome.next hfault, rfl, rfl, rfl, rfl⟩

/-! The firmware update (R426, R427). -/

theorem exec_firmwareUpdate_begins {s : State} {fn : Nat} {image : FwImage} (hs : s.sees fn .module = true)
    (hidle : s.mod.fwuBusy = false) (hok : s.imageCheck image = scOk) :
    exec (.firmwareUpdate fn image) s = .next { s with
      mod := { s.mod with fwuBusy := true, fwuProgress := 0, fwuImage := some image } } := by
  simp only [exec, execFirmwareUpdate, State.onBar_sees _ hs, hidle, Bool.false_eq_true, if_false, if_pos hok]

theorem exec_firmwareUpdateDone_ends {s : State} (ok : Bool) (hs : s.seraiOn = true) (hbusy : s.mod.fwuBusy = true) :
    ∃ l g, exec (.firmwareUpdateDone ok) s = .next { s with
      mod := { s.mod with
        flashValid := ok, flash := s.mod.fwuImage.getD s.mod.flash, fwuProgress := 100, fwuBusy := false,
        fwuStatus := st8 (if ok then scOk else scUncorr), fwuImage := none },
      log := l, gapSerai := g } := by
  obtain ⟨l, g, hlog⟩ := State.logSerai_shape { s with mod := { s.mod with
    flashValid := ok, flash := s.mod.fwuImage.getD s.mod.flash, fwuProgress := 100, fwuBusy := false,
    fwuStatus := st8 (if ok then scOk else scUncorr), fwuImage := none } } 0x0104 (if ok then scOk else scUncorr)
    none []
  refine ⟨l, g, ?_⟩
  simp only [exec, execFirmwareUpdateDone, if_pos (And.intro hs hbusy)]
  exact congrArg Host.Outcome.next hlog

/-! The lifetime ledger (R360 to R363). -/

theorem exec_lifetimeCommitTimer {s : State} (hs : s.seraiOn = true) :
    exec .lifetimeCommitTimer s = .next s.lifeBegin := congrArg Host.Outcome.next (if_pos hs)

theorem exec_lifetimeCommitCmd {s : State} {fn : Nat} (hs : s.sees fn .pf = true) :
    exec (.lifetimeCommitCmd fn) s = .next s.lifeBegin := congrArg Host.Outcome.next (State.onBar_sees _ hs)

theorem State.lifeBegin_idle {s : State} (h : s.life.committing = none) :
    s.lifeBegin.life.committing = some (s.life.snapshot s.now, false) := by
  simp only [State.lifeBegin, h]

theorem State.lifeNext_idle {s : State} (h : s.life.again = false) : s.lifeNext = s := by
  rw [State.lifeNext, h]
  rfl

/-- A slot's bank is the parity of its record's number (R360). -/
theorem lifeSlot_bank (k : Nat) (retry : Bool) : decide (64 ≤ lifeSlot k retry) = (k % 2 == 1) := by
  have hslot : (k / 2 + b2n retry) % 64 < 64 := Nat.mod_lt _ (by decide)
  have hpar := Nat.mod_two_eq_zero_or_one k
  simp only [lifeSlot, beq_eq_decide]
  exact decide_eq_decide.mpr (by omega)

/-- The retry of a commit goes to another slot (R361). -/
theorem lifeSlot_retry_ne (k : Nat) : lifeSlot k false ≠ lifeSlot k true := by
  simp only [lifeSlot, b2n]
  simp
  omega

theorem tabGet_tabErase_of_ne {α : Type} (d : α) (t : Tab α) {k i : Nat} (h : i ≠ k) :
    tabGet d (tabErase t k) i = tabGet d t i := by
  induction t with
  | nil => rfl
  | cons e t ih =>
    obtain ⟨j, w⟩ := e
    unfold tabErase
    by_cases hk : k = j
    · simp [hk, tabGet, hk ▸ h]
    · simp [hk, tabGet, ih]

theorem exec_lifetimeCommitDone_ok {s : State} {r : LifeRec} {retry : Bool} (hs : s.seraiOn = true)
    (hc : s.life.committing = some (r, retry)) (ha : s.life.again = false) :
    exec (.lifetimeCommitDone true) s = .next { s with life := { s.life with
      committing := none, committed := r, bank := r.seq.toNat % 2 == 1,
      slots := tabSet s.life.slots (lifeSlot r.seq.toNat retry) (.valid r) } } := by
  simp only [exec, execLifetimeCommitDone, hc, hs, Bool.not_true, Bool.false_eq_true, if_false, if_true]
  rw [State.lifeNext_idle (by exact ha), lifeSlot_bank]

theorem exec_lifetimeCommitDone_again {s : State} {r : LifeRec} (hs : s.seraiOn = true)
    (hc : s.life.committing = some (r, false)) :
    exec (.lifetimeCommitDone false) s = .next { s.useFree with life := { s.life with
      slots := tabErase (tabSet s.life.slots (lifeSlot r.seq.toNat false) (tornSlot r (s.freeVal.getLsbD 0)))
        (lifeSlot r.seq.toNat true),
      committing := some (r, true) } } := by
  simp only [exec, execLifetimeCommitDone, hc, hs, Bool.not_true, Bool.false_eq_true, if_false, Life.erase]

theorem exec_lifetimeCommitDone_fails {s : State} {r : LifeRec} (hs : s.seraiOn = true)
    (hc : s.life.committing = some (r, true)) (ha : s.life.again = false) :
    ∃ l g, exec (.lifetimeCommitDone false) s = .next { s.useFree with
      life := { s.life with
        slots := tabSet s.life.slots (lifeSlot r.seq.toNat true) (tornSlot r (s.freeVal.getLsbD 0)),
        committing := none, writeFail := true },
      log := l, gapSerai := g } := by
  obtain ⟨l, g, hlog⟩ := State.logPower_shape { s.useFree with life := { s.life with
    slots := tabSet s.life.slots (lifeSlot r.seq.toNat true) (tornSlot r (s.freeVal.getLsbD 0)),
    committing := none, writeFail := true } } 0x4007 scUncorr []
  refine ⟨l, g, ?_⟩
  simp only [exec, execLifetimeCommitDone, hc, hs, Bool.not_true, Bool.false_eq_true, if_false, if_true]
  rw [hlog, State.lifeNext_idle (by exact ha)]

theorem exec_serviceDue {s : State} {k : Nat} (hk : k < 16) (hs : s.seraiOn = true)
    (hv : (tabGet ({} : Svc) s.life.cur.svc k).valid = true)
    (hd : (tabGet ({} : Svc) s.life.cur.svc k).dueNow = false)
    (hdue : (tabGet ({} : Svc) s.life.cur.svc k).due.toNat * 3600 ≤ s.life.cur.powerOnS.toNat) :
    exec (.serviceDue k) s = .next ((s.modLife (fun x => { x with
      svc := tabSet x.svc k { tabGet ({} : Svc) s.life.cur.svc k with dueNow := true } })).logPower 24 0x4009 scOk
      [w32 k]) :=
  congrArg Host.Outcome.next (if_pos ⟨hk, hs, hv, hd, hdue⟩)

/-- Settles O35. -/
theorem ledgerAndFirmwareComplete : Obligations.LedgerAndFirmwareComplete := by
  intro s fn k image ok r retry at_ m v
  refine ⟨exec_firmwareUpdate_begins, fun hs => ⟨fun hbusy => ?updated, exec_lifetimeCommitTimer hs,
    fun hc => ⟨fun ha => exec_lifetimeCommitDone_ok hs hc ha, fun hfirst => ?again, fun hretry ha => ?fails⟩,
    fun hk hv hd hdue => exec_serviceDue hk hs hv hd hdue⟩, exec_lifetimeCommitCmd,
    fun hc => ⟨_, State.lifeBegin_idle hc⟩⟩
  case updated =>
    obtain ⟨l, g, hdone⟩ := exec_firmwareUpdateDone_ends ok hs hbusy
    exact ⟨_, hdone, rfl, rfl, rfl, apply_ite st8 _ _ _, rfl, rfl⟩
  case again =>
    subst hfirst
    refine ⟨_, exec_lifetimeCommitDone_again hs hc, rfl, ⟨if s.freeVal.getLsbD 0 then some r.seq else none, ?_⟩, rfl⟩
    exact (tabGet_tabErase_of_ne _ _ (lifeSlot_retry_ne _)).trans ((tabGet_tabSet _ _ _ _ _).trans (if_pos rfl))
  case fails =>
    subst hretry
    obtain ⟨l, g, hdone⟩ := exec_lifetimeCommitDone_fails hs hc ha
    exact ⟨_, hdone, rfl, rfl, rfl⟩

end Sys2Proof.Machine
end

section
/-!
PROOFS. The supply, the pins and the rails (chapters 14 and 16 of the spec), and the statement O53.
-/

namespace Sys2Proof.Machine

/-! In which states Serai runs, and the clocks (Tables 12.1 and 12.2). -/

theorem State.seraiOn_iff (s : State) : s.seraiOn = true ↔ s.mod.state ≠ .off ∧ s.mod.state ≠ .standby := by
  unfold State.seraiOn
  cases s.mod.state <;> decide

theorem State.seraiOn_of_clocked {s : State} (h : s.clocked = true) : s.seraiOn = true := by
  unfold State.clocked at h
  unfold State.seraiOn
  revert h
  cases s.mod.state <;> decide

/-! The supply and the pins (R407, R457, R465, R469). -/

theorem exec_powerPresent {s : State} {mv : Nat} (hoff : s.mod.state = .off) (hlo : 47000 ≤ mv) (hhi : mv ≤ 58000) :
    exec (.powerPresent mv) s = .next { s with
      mod := { s.mod with state := .standby },
      phys := { s.phys with vin := mv, seat := true, inputOn := true, stbyOk := true } } := by
  have hvin : vinPresent mv = true := by simp [vinPresent, hlo, hhi]
  exact congrArg Host.Outcome.next (if_pos ⟨hoff, hvin⟩)

theorem exec_powerLost {s : State} (h : s.mod.state ≠ .off) : exec .powerLost s = .next s.goOff :=
  congrArg Host.Outcome.next (if_neg h)

theorem exec_overvoltage {s : State} (h : s.mod.state ≠ .off) : exec .overvoltage s = .next s.goOff :=
  congrArg Host.Outcome.next (if_neg h)

theorem exec_mrst {s : State} (h : s.mod.state ≠ .off) : exec .mrst s = .next (s.powerCut true .standby) :=
  congrArg Host.Outcome.next (if_neg h)

theorem exec_wake {s : State} (recov : Bool) (h : s.mod.state = .standby) :
    exec (.wake recov) s = .next (s.boot recov) := congrArg Host.Outcome.next (if_pos h)

theorem exec_perst_run {s : State} (hst : s.mod.state = .run) (hup : s.barUp = true) :
    exec .perst s = .next s.resetPf := by
  simp only [exec, execPerst, hst, hup, if_true]

theorem exec_perst_else {s : State}
    (h : s.mod.state = .ready ∨ s.mod.state = .boot ∨ s.mod.state = .quiesce ∨ s.mod.state = .fault) :
    exec .perst s = .next { s with mod := { s.mod with pcieDown := true } } := by
  rcases h with hst | hst | hst | hst <;> simp only [exec, execPerst, hst]

/-! The rails (R467). -/

theorem State.railFault_serai {s : State} (r : Rail) (hs : s.seraiOn = true) :
    s.railFault r = if railVital r then s.vitalFault r else s.otherFault r := by
  unfold State.seraiOn at hs
  unfold State.railFault
  revert hs
  cases s.mod.state <;> simp

theorem exec_railFault_vital {s : State} {r : Rail} (hs : s.seraiOn = true) (hr : railVital r = true) :
    exec (.railFault r) s = .next (s.vitalFault r) :=
  congrArg Host.Outcome.next ((State.railFault_serai r hs).trans (if_pos hr))

theorem exec_railFault_other {s : State} {r : Rail} (hs : s.seraiOn = true) (hr : railVital r = false) :
    exec (.railFault r) s = .next (s.otherFault r) :=
  congrArg Host.Outcome.next ((State.railFault_serai r hs).trans (if_neg (by simp [hr])))

/-- A rail of a memory takes READY from its stack or channels alone. -/
theorem State.memoryRail_shape (s : State) (r : Rail) :
    ∃ dies cis, s.memoryRail r = { s with dies := dies, cisDies := cis } := by
  cases r
  case hbm n => exact ⟨_, s.cisDies, rfl⟩
  case lpddr =>
    exact ⟨s.dies, eachDo_induct (P := fun t => ∃ cis, t = { s with cisDies := cis })
      (fun m _ t ht => by obtain ⟨cis, rfl⟩ := ht; exact ⟨_, rfl⟩) ⟨_, rfl⟩⟩
  all_goals exact ⟨s.dies, s.cisDies, rfl⟩

/-- A fault of a rail that is not vital is FAULT with cause 3, with the rail off (R467). -/
theorem State.otherFault_shape {s : State} (r : Rail) (hclk : s.clocked = true) :
    ∃ dies cis l g, s.otherFault r = { s with
      mod := { s.mod with state := .fault, fault := 3 },
      phys := { s.phys with railsOff := railNumber r :: s.phys.railsOff, faultN := true },
      dies := dies, cisDies := cis, log := l, gapSerai := g } := by
  obtain ⟨l, g, hlog⟩ := s.logSeraiAt_shape 0x4011 scUncorr none [Config.railArg (railNumber r)]
    [s.modStat, w32 s.pwr.supplyMv.toNat, s.pwr.statWord]
  obtain ⟨dies, cis, hmem⟩ := State.memoryRail_shape { s with log := l, gapSerai := g } r
  obtain ⟨l', g', hfault⟩ := State.enterFault_shape (s := { s with
    log := l, gapSerai := g, dies := dies, cisDies := cis,
    phys := { s.phys with railsOff := railNumber r :: s.phys.railsOff } }) 3 hclk
  refine ⟨dies, cis, l', g', ?_⟩
  rw [State.otherFault, State.logPhys, hlog, hmem]
  exact hfault

/-! The leak sensor (R475) and the PCIe link (R402). -/

theorem exec_leakDetected_serai {s : State} (hs : s.seraiOn = true) (hl : s.phys.leakN = false) :
    exec .leakDetected s = .next (({ s with phys := { s.phys with leakN := true } }).logPhys 0x4012 scOk []) := by
  have hfree : ¬ (s.mod.state = .off ∨ s.phys.leakN = true) := by
    rintro (hoff | hleak)
    · exact (s.seraiOn_iff.mp hs).1 hoff
    · exact Bool.false_ne_true (hl.symm.trans hleak)
  have hon : ({ s with phys := { s.phys with leakN := true } } : State).seraiOn = true := hs
  exact congrArg Host.Outcome.next ((if_neg hfree).trans (if_pos hon))

theorem exec_leakDetected_standby {s : State} (hst : s.mod.state = .standby) (hl : s.phys.leakN = false) :
    exec .leakDetected s = .next { s with phys := { s.phys with leakN := true } } := by
  simp [exec, execLeakDetected, State.seraiOn, hst, hl]

theorem exec_pcieLinkTrained_shape {s : State} {speed : BitVec 3} {width : BitVec 2} (hs : s.seraiOn = true)
    (hspeed : speed.toNat ≤ 3) (hwidth : width.toNat ≤ 2) :
    ∃ l g, exec (.pcieLinkTrained speed width) s = .next { s with
      mod := { s.mod with
        pcieDown := false, pcieSpeed := speed, pcieWidth := width,
        bootStep := if s.mod.state = .boot ∧ s.mod.bootStep.toNat < 3 then 3 else s.mod.bootStep },
      log := l, gapSerai := g } := by
  simp only [exec, execPcieLinkTrained, if_pos (And.intro hs (And.intro hspeed hwidth))]
  split
  · exact ⟨s.log, s.gapSerai, rfl⟩
  · obtain ⟨l, g, hlog⟩ := State.logSeraiAt_shape { s with mod := { s.mod with
      pcieDown := false, pcieSpeed := speed, pcieWidth := width,
      bootStep := if s.mod.state = .boot ∧ s.mod.bootStep.toNat < 3 then 3 else s.mod.bootStep } } 0x0302 scOk _ [] _
    exact ⟨l, g, congrArg Host.Outcome.next hlog⟩

/-- Settles O53. -/
theorem pinsComplete : Obligations.PinsComplete := by
  intro s mv recov r speed width
  refine ⟨exec_powerPresent, fun h => ⟨exec_powerLost h, exec_overvoltage h, rfl, rfl, rfl, rfl, rfl, rfl, exec_mrst h,
      rfl, rfl, rfl, rfl⟩, fun hst => ?woken, exec_perst_run, exec_perst_else,
    fun hs => ⟨fun hr => ⟨_, exec_railFault_vital hs hr, rfl, rfl, rfl, rfl⟩, fun hr hclk => ?other,
      exec_leakDetected_serai hs, fun hspeed hwidth => ?trained⟩, exec_leakDetected_standby, rfl⟩
  case woken =>
    obtain ⟨p, l, g, hboot⟩ := s.boot_shape recov
    rw [exec_wake recov hst, hboot]
    exact ⟨_, rfl, rfl, rfl, rfl, rfl, rfl, rfl⟩
  case other =>
    obtain ⟨dies, cis, l, g, hfault⟩ := State.otherFault_shape r hclk
    rw [exec_railFault_other hs hr, hfault]
    exact ⟨_, rfl, rfl, rfl, rfl, rfl⟩
  case trained =>
    obtain ⟨l, g, htrained⟩ := exec_pcieLinkTrained_shape hs hspeed hwidth
    refine ⟨_, htrained, rfl, rfl, rfl, fun hboot => ?_, rfl, rfl, rfl⟩
    have hstep : ∀ b : BitVec 4, 3 ≤ (if b.toNat < 3 then 3 else b).toNat := by decide
    simpa only [hboot, true_and] using hstep s.mod.bootStep

end Sys2Proof.Machine
end

section
/-!
PROOFS. The time base (chapter 12 of the spec): time frames, the loss of the reference, replica checks and PTP, and the
statement O51.
-/

namespace Sys2Proof.Machine

/-! Time frames (R354, R355). -/

theorem exec_timeFrameDue {s : State} {l : Nat} (hclk : s.clocked = true) (hl : l < 36)
    (ht : carriesTime (s.link l).st = true) :
    exec (.timeFrameDue l) s
      = .next (s.enqueue l 7 { s.qframe l (.time (s.timeFrame l)) with laneB := s.laneOut none false l }) :=
  congrArg Host.Outcome.next (if_pos ⟨hclk, hl, ht⟩)

/-- The state after a time frame is received on link `l` and kept for the echo (R354). -/
def State.timeKept (s : State) (l : Nat) (f : TimeFrame) : State :=
  (s.gotFrame l 7 (s.laneOut none false l) timeLen).modTime (fun x => { x with
    links := tabSet x.links l { tabGet ({} : LinkTime) s.time.links l with echoTx := f.tTx, echoRx := s.now } })

/-- Does a time frame echo one that was sent on its link within the last 1 ms (R355)? -/
def State.echoes (s : State) (l : Nat) (f : TimeFrame) : Bool :=
  (tabGet ({} : LinkTime) s.time.links l).sentTx.any
    (fun x => x == f.echoTx && decide ((s.now - x).toNat ≤ 1000000))

theorem exec_timeFrameReceived {s : State} {l : Nat} (f : TimeFrame) (hclk : s.clocked = true) (hl : l < 36)
    (ht : carriesTime (s.link l).st = true) :
    exec (.timeFrameReceived l f) s = .next (if s.time.uplink.toNat = l ∧ s.echoes l f = true
      then (s.timeKept l f).measure f s.now else s.timeKept l f) :=
  congrArg Host.Outcome.next (if_pos ⟨hclk, hl, ht⟩)

/-! The reference (R352, R353). -/

theorem exec_timeReferenceLoss {s : State} (hs : s.seraiOn = true) (hst : s.time.st = .locked)
    (hroot : s.time.root = false) :
    exec .timeReferenceLoss s
      = .next ((s.modTime (fun t => { t with st := .holdover, good := 0 })).logTime 0x4102 scWatchdog []) :=
  congrArg Host.Outcome.next (if_pos ⟨hst, hroot, hs⟩)

theorem exec_ptpLockChange {s : State} (locked : Bool) (hs : s.seraiOn = true) :
    let t := (s.modTime (fun t => { t with ptpLocked := locked })).rootReference
    exec (.ptpLockChange locked) s
      = .next (if s.time.usesPtp && !locked then t.logTime 0x4106 scWatchdog [] else t) := by
  unfold State.seraiOn at hs
  simp only [exec, execPtpLockChange]
  revert hs
  cases s.mod.state <;> simp

/-! Replicas (R351). -/

/-- The difference of one replica is recorded. -/
def State.noteReplica (s : State) (d : Nat) (x : Int) : State :=
  { s with pwr := { s.pwr with sense := tabMod {} s.pwr.sense d (fun y => { y with replicaDiff := x }) } }

theorem exec_replicaCheck {s : State} {diffs : List Int} (hs : s.seraiOn = true) (hlen : diffs.length = 25) :
    exec (.replicaCheck diffs) s = .next (eachDo diffs.zipIdx (fun (e : Int × Nat) t =>
      if e.1 < -4 ∨ 4 < e.1 then t.realign e.2 else t.noteReplica e.2 e.1) s) :=
  congrArg Host.Outcome.next (if_pos ⟨hs, hlen⟩)

/-- Each difference stands at its own die. -/
theorem State.eachDo_noteReplica (l : List Int) (k : Nat) (s : State) :
    let t := eachDo (l.zipIdx k) (fun (e : Int × Nat) t => t.noteReplica e.2 e.1) s
    t = { s with pwr := { s.pwr with sense := t.pwr.sense } }
      ∧ (∀ d, d < k → (t.sense d).replicaDiff = (s.sense d).replicaDiff)
      ∧ ∀ i, i < l.length → (t.sense (k + i)).replicaDiff = l.getD i 0 := by
  induction l generalizing k s with
  | nil => exact ⟨rfl, fun _ _ => rfl, fun i hi => absurd hi (Nat.not_lt_zero i)⟩
  | cons x l ih =>
    obtain ⟨hframe, hbelow, hat⟩ := ih (k + 1) (s.noteReplica k x)
    have hself : ((s.noteReplica k x).sense k).replicaDiff = x := by
      simp [State.noteReplica, State.sense, tabMod, tabGet_tabSet]
    have hother : ∀ d, d ≠ k → (s.noteReplica k x).sense d = s.sense d := fun d hd => by
      simp [State.noteReplica, State.sense, tabMod, tabGet_tabSet, hd]
    refine ⟨hframe, fun d hd => ?_, fun i hi => ?_⟩
    · exact (hbelow d (by omega)).trans (by rw [hother d (by omega)])
    · cases i with
      | zero => exact (hbelow k (by omega)).trans hself
      | succ i =>
        have hnext := hat i (Nat.lt_of_succ_lt_succ hi)
        rwa [Nat.add_right_comm] at hnext

/-- Replicas within 4 ns are left as they are. -/
theorem exec_replicaCheck_aligned {s : State} {diffs : List Int} (hs : s.seraiOn = true) (hlen : diffs.length = 25)
    (hnear : ∀ x ∈ diffs, -4 ≤ x ∧ x ≤ 4) :
    exec (.replicaCheck diffs) s
      = .next (eachDo diffs.zipIdx (fun (e : Int × Nat) t => t.noteReplica e.2 e.1) s) := by
  have hcongr : ∀ (l : List (Int × Nat)) (t : State), (∀ e ∈ l, -4 ≤ e.1 ∧ e.1 ≤ 4) →
      eachDo l (fun (e : Int × Nat) t => if e.1 < -4 ∨ 4 < e.1 then t.realign e.2 else t.noteReplica e.2 e.1) t
        = eachDo l (fun (e : Int × Nat) t => t.noteReplica e.2 e.1) t := by
    intro l t hl
    refine List.foldl_ext _ _ _ fun u e he => if_neg ?_
    have hrange := hl e he
    omega
  rw [exec_replicaCheck hs hlen, hcongr]
  exact fun e he => hnear e.1 (List.fst_mem_of_mem_zipIdx he)

/-- Settles O51. -/
theorem timeComplete : Obligations.TimeComplete := by
  intro s l f diffs locked e lane s1 echo s2 hclk
  have hs := State.seraiOn_of_clocked hclk
  refine ⟨fun hl ht => ⟨exec_timeFrameDue hclk hl ht, fun hup hecho => ?measured, fun hnot => ?kept⟩,
    exec_timeReferenceLoss hs, fun hlen hnear => ?aligned, exec_replicaCheck hs, exec_ptpLockChange locked hs⟩
  case measured =>
    exact (exec_timeFrameReceived f hclk hl ht).trans (congrArg Host.Outcome.next (if_pos ⟨hup, hecho⟩))
  case kept =>
    have hneg : ¬ (s.time.uplink.toNat = l ∧ s.echoes l f = true) := by
      rintro ⟨hup, hecho⟩
      exact hnot.elim (fun hne => hne hup) (fun hfalse => Bool.false_ne_true (hfalse.symm.trans hecho))
    exact (exec_timeFrameReceived f hclk hl ht).trans (congrArg Host.Outcome.next (if_neg hneg))
  case aligned =>
    obtain ⟨hframe, -, hat⟩ := State.eachDo_noteReplica diffs 0 s
    refine ⟨_, exec_replicaCheck_aligned hs hlen hnear, fun d hd => ?_, hframe⟩
    have hdiff := hat d (hlen ▸ hd)
    rwa [Nat.zero_add] at hdiff

end Sys2Proof.Machine
end

section
/-!
PROOFS. Power (chapter 12 of the spec): measurement, learned draws, droop, temperature and the supply, and the statement
O52.
-/

namespace Sys2Proof.Machine

/-! Measurement (R335, R338) and droop (R347, R348). -/

theorem exec_powerRecompute {s : State} (m : PowerMeasure) (hs : s.seraiOn = true) :
    let sb := (s.takeMeasure m).checkBreach
    let plls := (List.range 12).filter sb.pllOn
    let opens := plls.filter (fun n => !sb.dieSealed n)
    exec (.powerRecompute m) s = .next (eachDo plls (fun n t =>
      if sb.dieSealed n then
        t.sealedFreq (decide (sb.pwr.eff.toNat < m.inputW) && opens.all (fun n => sb.freqHeld n == 1200)) n
      else t.openFreq sb.openPool ((opens.map (sb.weight sb.maxScale)).foldl (· + ·) 0) sb.maxScale n) sb) :=
  congrArg Host.Outcome.next (if_pos hs)

theorem exec_droopCrossing {s : State} {d : Nat} (six : Bool) (h : s.mayDroop d = true) :
    let t := { s with pwr := { s.pwr with droop := true, sense := tabMod {} s.pwr.sense d (fun x =>
      { x with stretch3 := true, stretch6 := x.stretch6 || six }) } }
    exec (.droopCrossing d six) s = .next ((if d < 12 then
      eachDo (List.range 22) (fun k t => t.modCore (22 * d + k) Core.markStretch) t else t).logDroop d) :=
  congrArg Host.Outcome.next (if_pos h)

theorem exec_droopStretchEnd {s : State} {d : Nat} (cycles : Nat) (h : s.mayDroop d = true)
    (hst : s.stretched d = true) :
    let t := { s with pwr := { s.pwr with sense := tabMod {} s.pwr.sense d (fun x =>
      { x with stretch3 := false, stretch6 := false }) } }
    exec (.droopStretchEnd d cycles) s = .next (if d < 12 then
      eachDo (t.clockedCores d) (fun p t => t.talliesAdd p [(0, cycles), (1, cycles)]) t else t) :=
  congrArg Host.Outcome.next (if_pos ⟨h, hst⟩)

/-! Phases (R339). -/

/-- The phase that PWR_DIE of a die shows. -/
def State.phaseShown (s : State) (n : Nat) : BitVec 3 := (tabGet ({} : DiePower) s.pwr.dies n).phase

theorem State.traceAt_frame (s : State) (p k : Nat) (tag : BitVec 16) (stm : BitVec 3) (a b : DWord) :
    s.traceAt p k tag stm a b
      = { s with cores := (s.traceAt p k tag stm a b).cores, log := (s.traceAt p k tag stm a b).log } :=
  ((s.coreBecomes_self p).traceAt k tag stm a b).frame

/-- PWR_DIE of a die shows the class; a change appears in trace besides. -/
theorem State.showPhase_shape (s : State) (q n : Nat) (x : BitVec 3) :
    ∃ dies cores log, s.showPhase q n x = { s with pwr := { s.pwr with dies := dies }, cores := cores, log := log }
      ∧ ∀ k, (tabGet ({} : DiePower) dies k).phase = if k = n then x else s.phaseShown k := by
  unfold State.showPhase
  split
  case isTrue hsame =>
    refine ⟨_, _, _, rfl, fun k => ?_⟩
    split
    case isTrue hk => exact hk ▸ hsame
    case isFalse => rfl
  case isFalse =>
    let dies := tabMod {} s.pwr.dies n (fun d => { d with phase := x })
    obtain ⟨cores, log, htraced⟩ := eachDo_induct
      (P := fun t => ∃ cores log, t = { s with pwr := { s.pwr with dies := dies }, cores := cores, log := log })
      (l := (s.physOfPart q).filter (fun p => p / 22 == n)) (g := fun p t => t.traceAt p 8 0 0 (x.setWidth 64) 0)
      (s := { s with pwr := { s.pwr with dies := dies } })
      (fun p _ t ht => by
        obtain ⟨cores, log, rfl⟩ := ht
        exact ⟨_, _, State.traceAt_frame _ _ _ _ _ _ _⟩)
      ⟨_, _, rfl⟩
    refine ⟨dies, cores, log, htraced, fun k => ?_⟩
    simp only [dies, tabMod, tabGet_tabSet, State.phaseShown]
    split <;> rfl

/-- Showing the class of one die leaves the learned draws, the intervals and the free values alone. -/
def State.PhasesOnly (s t : State) : Prop :=
  t.pwr.phases = s.pwr.phases ∧ t.pwr.curPhase = s.pwr.curPhase ∧ t.free = s.free

theorem State.showPhase_phasesOnly (s : State) (q n : Nat) (x : BitVec 3) : s.PhasesOnly (s.showPhase q n x) := by
  obtain ⟨dies, cores, log, hshown, -⟩ := s.showPhase_shape q n x
  rw [hshown]
  exact ⟨rfl, rfl, rfl⟩

theorem State.showPhase_phaseShown (s : State) (q n k : Nat) (x : BitVec 3) :
    (s.showPhase q n x).phaseShown k = if k = n then x else s.phaseShown k := by
  obtain ⟨dies, cores, log, hshown, hphase⟩ := s.showPhase_shape q n x
  rw [hshown]
  exact hphase k

/-- The classes of several dies are shown, each at its own. -/
theorem State.eachDo_showPhase (s : State) (q : Nat) (l : List Nat) (x : Nat → BitVec 3) :
    let t := eachDo l (fun n t => t.showPhase q n (x n)) s
    s.PhasesOnly t ∧ ∀ n ∈ l, t.phaseShown n = x n := by
  refine ⟨eachDo_induct (P := s.PhasesOnly) (fun n _ t ht => ?_) ⟨rfl, rfl, rfl⟩, fun n hn => ?_⟩
  · obtain ⟨hphases, hcur, hfree⟩ := t.showPhase_phasesOnly q n (x n)
    exact ⟨hphases.trans ht.1, hcur.trans ht.2.1, hfree.trans ht.2.2⟩
  · refine eachDo_establishes (I := fun _ => True) (P := fun t => t.phaseShown n = x n) (fun _ _ _ _ => trivial)
      (fun t _ => ?_) (fun k _ t _ ht => ?_) hn trivial
    · rw [State.showPhase_phaseShown, if_pos rfl]
    · rw [State.showPhase_phaseShown]
      split
      case isTrue hk => rw [hk]
      case isFalse => exact ht

/-- The state at the end of an interval, before PWR_DIE shows the classes `cs` (R339). -/
def State.phaseLearned (s : State) (p : Nat) (i : Interval) (dies : List PhaseShare) (cs : List (BitVec 3)) : State :=
  { s.useFree with pwr := { s.pwr with
    phases := tabSet s.pwr.phases p
      ((tabGet [] s.pwr.phases p).map (fun e => if e.mid = i.mid then e.learned dies cs else e)),
    curPhase := tabErase s.pwr.curPhase p } }

theorem exec_phaseLearn {s : State} {p : Nat} {i : Interval} {dies : List PhaseShare} (hclk : s.clocked = true)
    (hp : p < 16) (hlen : dies.length = 12) (hi : s.pwr.curPhase.find? (fun e => e.1 == p) = some (p, i)) :
    let cs := dies.zipIdx.map (fun (x : PhaseShare × Nat) =>
      shareClass x.1 ((s.dieTally x.2).since (i.base.getD x.2 {})) (s.freeVal.setWidth 3))
    exec (.phaseLearn p dies) s = .next (eachDo ((List.range 12).filter (s.ownsDie p))
      (fun n t => t.showPhase p n (cs.getD n 0)) (s.phaseLearned p i dies cs)) := by
  simp only [exec, execPhaseLearn, hi, if_pos (And.intro hclk (And.intro hp hlen))]
  rfl

/-! Temperature (R349). -/

/-- An entry changes the logbook, and a gap mark of its source. -/
theorem State.logAt_mod (s : State) (src : LogSrc) (code status : Nat) (part : Option Nat) (args snaps : List Word) :
    (s.logAt src code status part args snaps).mod = s.mod := by
  unfold State.logAt
  dsimp only
  split
  · exact State.takeGap_mod _ _
  · rfl

theorem State.takeTj_mod (s : State) (d : Nat) (tj : Byte) : (s.takeTj d tj).mod = s.mod := by
  unfold State.takeTj
  dsimp only
  split <;> rfl

theorem State.throttle_mod (s : State) (d : Nat) (tj : Byte) : (s.throttle d tj).mod = s.mod := by
  unfold State.throttle
  dsimp only
  split
  · exact State.logAt_mod _ _ _ _ _ _ _
  · split <;> rfl

theorem exec_thermalSample_fault {s : State} {d : Nat} (tj : Byte) (hd : d < 25) (hst : s.mod.state = .fault) :
    exec (.thermalSample d tj) s = .next (s.takeTj d tj) := by
  simp [exec, execThermalSample, State.seraiOn, State.clocked, hst, hd]

/-- The state after a temperature is kept and a compute die throttled. -/
def State.tempered (s : State) (d : Nat) (tj : Byte) : State :=
  if d < 12 then (s.takeTj d tj).throttle d tj else s.takeTj d tj

theorem State.tempered_mod (s : State) (d : Nat) (tj : Byte) : (s.tempered d tj).mod = s.mod := by
  unfold State.tempered
  split
  · exact (State.throttle_mod _ _ _).trans (s.takeTj_mod d tj)
  · exact s.takeTj_mod d tj

theorem exec_thermalSample {s : State} {d : Nat} (tj : Byte) (hd : d < 25) (hclk : s.clocked = true) :
    exec (.thermalSample d tj) s = .next (if 110 < tj.toNat then
      ((s.tempered d tj).logPower d 0x4006 scUncorr []).enterFault 1 else s.tempered d tj) := by
  simp only [exec, execThermalSample, State.seraiOn_of_clocked hclk, hclk, hd, and_true, if_true]
  rfl

theorem State.tempered_fault {s : State} (d : Nat) (tj : Byte) (hclk : s.clocked = true) :
    let t := ((s.tempered d tj).logPower d 0x4006 scUncorr []).enterFault 1
    t.mod.state = .fault ∧ t.mod.fault = 1 := by
  have hmod : ((s.tempered d tj).logPower d 0x4006 scUncorr []).mod = s.mod :=
    (State.logAt_mod _ _ _ _ _ _ _).trans (s.tempered_mod d tj)
  intro t
  have hfault : t.mod = _ := State.enterFault_mod 1 ((State.clocked_congr hmod).trans hclk)
  rw [hfault]
  exact ⟨rfl, rfl⟩

/-! The supply (R337). -/

theorem exec_supplyVoltageChange_off {s : State} (mv : Nat) (h : s.mod.state = .off ∨ s.mod.state = .standby) :
    exec (.supplyVoltageChange mv) s = .next { s with phys := { s.phys with vin := mv } } := by
  rcases h with hst | hst <;> simp only [exec, execSupplyVoltageChange, hst]

theorem exec_supplyVoltageChange_on {s : State} (mv : Nat) (hs : s.seraiOn = true) :
    exec (.supplyVoltageChange mv) s
      = .next (({ s with phys := { s.phys with vin := mv } } : State).applyLimit false) := by
  unfold State.seraiOn at hs
  simp only [exec, execSupplyVoltageChange]
  revert hs
  cases s.mod.state <;> simp

/-- Settles O52. -/
theorem powerComplete : Obligations.PowerComplete := by
  intro s m p mv d cycles i dies six tj classes sb plls opens total short v s2 s3
  refine ⟨fun hs => ⟨exec_powerRecompute m hs, rfl, rfl⟩, fun hclk hp hlen hi => ?learned,
    fun hmay => ⟨exec_droopCrossing six hmay, exec_droopStretchEnd cycles hmay⟩,
    fun hd => ⟨exec_thermalSample_fault tj hd, fun hclk => ⟨fun hcool => ?cool, fun hhot => ?hot⟩⟩,
    exec_supplyVoltageChange_off mv, fun hs => ?supply⟩
  case learned =>
    obtain ⟨⟨hphases, hcur, hfree⟩, hshown⟩ := (s.phaseLearned p i dies classes).eachDo_showPhase p
      ((List.range 12).filter (s.ownsDie p)) (fun n => classes.getD n 0)
    refine ⟨_, exec_phaseLearn hclk hp hlen hi, ?_, hcur, hfree, fun n hn hown => hshown n ?_⟩
    · rw [hphases, State.phaseLearned, tabGet_tabSet, if_pos rfl]
    · exact List.mem_filter.mpr ⟨List.mem_range.mpr hn, hown⟩
  case cool =>
    exact (exec_thermalSample tj hd hclk).trans (congrArg Host.Outcome.next (if_neg (Nat.not_lt.mpr hcool)))
  case hot =>
    exact ⟨_, (exec_thermalSample tj hd hclk).trans (congrArg Host.Outcome.next (if_pos hhot)),
      State.tempered_fault d tj hclk⟩
  case supply =>
    have hframe := v.applyLimit_powerOnly false
    refine ⟨_, exec_supplyVoltageChange_on mv hs, ?_, (v.applyLimit_pwr false).1, ?_⟩
    · exact congrArg (fun t : State => t.phys.vin) hframe
    · obtain ⟨p, l, g, hshape⟩ : ∃ p l g, v.applyLimit false = { v with pwr := p, log := l, gapSerai := g } :=
        ⟨_, _, _, hframe⟩
      rw [hshape]

end Sys2Proof.Machine
end

section
/-!
PROOFS. Observation (chapter 15 of the spec): TALLY and TRACE, samples, totals and the trace drain, the logbook, and the
statements O22, O23 and O24.
-/

namespace Sys2Proof.Machine

/-! The logbook (R450, R451). -/

theorem exec_logCursorWrite {s : State} {fn : Nat} (wide high : Bool) (v : DWord) (hs : s.sees fn .logbook = true) :
    exec (.logCursorWrite fn wide high v) s = .next (
      if wide then s.modView fn (fun y => y.copy s.log (s.viewRing fn) v.toNat)
      else if high then s.modView fn (fun y => y.copy s.log (s.viewRing fn)
        ((v.setWidth 32).toNat * 2 ^ 32 + ((s.fn fn).view.heldLow.getD ((s.fn fn).view.cursor.setWidth 32)).toNat))
      else s.modView fn (fun y => { y with heldLow := some (v.setWidth 32) })) :=
  congrArg Host.Outcome.next (State.onBar_sees _ hs)

theorem exec_logAutoAdvance {s : State} {fn : Nat} (hs : s.sees fn .logbook = true) :
    exec (.logAutoAdvance fn) s
      = .next ((s.readBack fn ((s.fn fn).view.lastWord.setWidth 64)).windowEnd fn) :=
  congrArg Host.Outcome.next (State.onBar_sees _ hs)

theorem State.readBack_windowEnd (s : State) (fn : Nat) (v : DWord) :
    (s.readBack fn v).windowEnd fn = if (s.fn fn).view.auto then
      (s.readBack fn v).modView fn (fun y => y.copy s.log (s.viewRing fn)
        ((s.fn fn).view.cursor.toNat + (s.fn fn).view.valid.toNat))
      else s.readBack fn v := rfl

theorem exec_logArchiveProgram {s : State} (h : 3 ≤ s.log.staging.length) :
    exec .logArchiveProgram s = .next { s with log := s.log.program } :=
  congrArg Host.Outcome.next (if_pos (Or.inl h))

/-- Three entries in the staging store fill a unit. -/
theorem Logbook.program_full {l : Logbook} (h : 3 ≤ l.staging.length) :
    l.program = { l with
      staging := l.staging.drop 3, archSeq := l.archSeq + 3, archPos := l.archPos + 1,
      units := (l.archSeq, l.staging.take 3)
        :: l.units.take (archiveUnits - sectorUnits + l.archPos % sectorUnits) } := by
  simp only [Logbook.program, List.length_take_of_le h]

/-- Settles O24. -/
theorem logbookComplete : Obligations.LogbookComplete := by
  intro s fn v high x ring
  refine ⟨fun hs => ⟨exec_logCursorWrite true high v hs, exec_logCursorWrite false false v hs,
    exec_logCursorWrite false true v hs, fun hauto => ?kept, fun hauto => ?advanced⟩, fun hfull => ?programmed⟩
  case kept =>
    refine (exec_logAutoAdvance hs).trans (congrArg Host.Outcome.next ?_)
    rw [State.readBack_windowEnd]
    exact if_neg (by rw [hauto]; decide)
  case advanced =>
    refine (exec_logAutoAdvance hs).trans (congrArg Host.Outcome.next ?_)
    rw [State.readBack_windowEnd]
    exact if_pos hauto
  case programmed =>
    rw [exec_logArchiveProgram hfull, Logbook.program_full hfull]

/-! TALLY and TRACE (R439, R440, R442). -/

theorem exec_tally {s v y : State} {i : Issue} {p : Nat} {mask : Word} {dst : BitVec 14} {b : Buf}
    (h : s.Issues i.core (.tally i mask dst) p ((s.core p).pc + 1)) (hf : (s.core p).fence = none)
    (hb : (s.counted p).bufRef p (s.partNo i.core) i.stm dst = some b)
    (hn : 64 + 16 * (selected mask).length ≤ ((s.counted p).bufRange p b).2)
    (hv : (s.counted p).debitStore p
      [(((s.counted p).bufRange p b).1, 64 + 16 * (selected mask).length)] = some v)
    (hy : (v.modCore p (fun c => { c with
        gapTally := c.gapTally.taken, stretchTally := v.afterSample p c.stretchTally mask })).coreWrite p
      (s.partNo i.core) [(((s.counted p).bufRange p b).1, v.tallyRecord p i.core mask)] i.stm = (y, true))
    (hin : (y.core p).pc + 1 < (y.core p).insns.length) :
    exec (.tally i mask dst) s = .next (y.modCore p (fun c => { c with pc := c.pc + 1 })) := by
  have hy' : (v.modCore p (fun c => { c with
        gapTally := c.gapTally.taken, stretchTally := v.afterSample p (v.core p).stretchTally mask })).coreWrite p
      (s.partNo i.core) [(((s.counted p).bufRange p b).1, v.tallyRecord p i.core mask)] i.stm = (y, true) := hy
  simp only [exec, execTally, h.1, State.issueWrite_unfenced _ h hf, State.counted_partNo, hb,
    if_neg (Nat.not_lt.mpr hn), hv, hy', if_true, State.advance_inside hin]

/-- A core with a record at the end of its buffer, whose gap mark the record has taken. -/
def Core.traced (c : Core) (r : TraceRec) : Core := { c with trace := c.trace ++ [r], gapTrace := c.gapTrace.taken }

/-- A record that has room, with no record dropped before it, goes to the end of the core's buffer (R442). -/
theorem State.tracePut_room {s : State} {p : Nat} {r : TraceRec} (h : traceFill ((s.core p).trace ++ [r]) ≤ 2048) :
    s.tracePut p r = s.setCore p ((s.core p).traced r) := if_pos h

theorem State.traceLost_none {s : State} {p : Nat} (h : (s.core p).trcDropped = 0) : s.traceLost p = s :=
  if_pos (Or.inl h)

theorem State.traceAt_room {s : State} {p k : Nat} {tag : BitVec 16} {stm : BitVec 3} {a b : DWord}
    (hk : (s.core p).traces k = true) (hd : (s.core p).trcDropped = 0)
    (hroom : traceFill ((s.core p).trace ++ [s.traceRec p k tag (s.core p).pc stm a b]) ≤ 2048) :
    s.traceAt p k tag stm a b = s.setCore p ((s.core p).traced (s.traceRec p k tag (s.core p).pc stm a b)) := by
  unfold State.traceAt
  rw [if_pos hk, State.traceLost_none hd]
  exact State.tracePut_room hroom

theorem Core.traces_mark (c : Core) : c.traces 0 = c.trcEn := by
  unfold Core.traces
  rw [beq_self_eq_true, Bool.true_or, Bool.and_true]

theorem exec_trace {s : State} {i : Issue} {p : Nat} (mark : BitVec 16) (payload : Word)
    (h : s.Issues i.core (.trace i mark payload) p ((s.core p).pc + 1)) :
    exec (.trace i mark payload) s
      = .next (((s.counted p).traceAt p 0 mark i.stm (payload.setWidth 64) 0).advance p i.stm) := by
  simp only [exec, execTrace, h.1, State.issued_counted h]

/-- Settles O22. -/
theorem tallyTraceComplete : Obligations.TallyTraceComplete := by
  intro s v y i p mask dst b mark payload q u c r n x
  refine ⟨fun h hf hb hn hv hy hin => exec_tally h hf hb hn hv hy hin, fun h hoff => ?off, fun h hon hd hroom => ?put⟩
  case off =>
    rw [exec_trace mark payload h, State.traceAt_off ((Core.traces_mark _).trans hoff), State.counted_advance h]
  case put =>
    have hc : u.core p = (s.core p).issuedTo (s.core p).pc := State.counted_core s p
    have hin : (u.core p).pc + 1 < (u.core p).insns.length := hc ▸ h.lt_length
    rw [exec_trace mark payload h, State.traceAt_room ((Core.traces_mark _).trans hon) hd hroom]
    have hpc : c.pc = (s.core p).pc := (congrArg Core.pc hc).trans rfl
    rw [← hpc]
    exact congrArg Host.Outcome.next ((State.set_advance (c.traced _) hin).trans
      (State.setCore_setCore s p _ _))

/-! Samples and totals (R439, R441). -/

theorem exec_tallySnap {s : State} {fn n k : Nat} (hn : n < 12) (hk : k < 22) (hs : s.sees fn (.core n k) = true) :
    let p := 22 * n + k
    let c := s.core p
    let g := c.gapSnap.mark.getD (0, 0)
    exec (.tallySnap fn n k) s = .next (s.setCore p { c with
      snap := { seq := c.tallySeq, time := s.dieNow n, gapStart := g.1, gapNs := g.2, vals := c.tally,
                mark := s.sampleMark p c.stretchSnap 0xFFFFFFFF c.gapSnap.mark.isSome },
      gapSnap := c.gapSnap.taken, stretchSnap := s.afterSample p c.stretchSnap 0xFFFFFFFF }) :=
  congrArg Host.Outcome.next ((if_pos ⟨hn, hk⟩).trans (State.onBar_sees _ hs))

theorem exec_totalSnap {s : State} {fn : Nat} (hs : s.sees fn .pf = true) :
    exec (.totalSnap fn) s = .next { s with totSnap := s.totals, totTime := s.now } :=
  congrArg Host.Outcome.next (State.onBar_sees _ hs)

/-- What tally `i` of a core has grown by since it was last added to the total (R441). -/
def State.grown (s : State) (p i : Nat) : BitVec 80 := tabGet 0 (s.core p).tally i - tabGet 0 (s.core p).tallyAdded i

theorem State.grown_congr {s t : State} {p : Nat} (h : t.core p = s.core p) (i : Nat) : t.grown p i = s.grown p i := by
  unfold State.grown
  rw [h]

theorem State.logAt_totals (s : State) (src : LogSrc) (code status : Nat) (part : Option Nat)
    (args snaps : List Word) : (s.logAt src code status part args snaps).totals = s.totals := by
  unfold State.logAt
  dsimp only
  split
  · cases src <;> rfl
  · rfl

theorem eachDo_cons {α : Type} (x : α) (l : List α) (g : α → State → State) (s : State) :
    eachDo (x :: l) g s = eachDo l g (g x s) := rfl

theorem State.totalAdd_totals (s : State) (p i : Nat) :
    (s.totalAdd p i).totals = tabPut 0 s.totals i (tabGet 0 s.totals i + s.grown p i) := by
  unfold State.totalAdd
  dsimp only
  split
  · exact State.logAt_totals _ _ _ _ _ _ _
  · rfl

theorem State.eachDo_totalAdd_core (l : List Nat) (s : State) (p k : Nat) :
    (eachDo l (fun i t => t.totalAdd p i) s).core k = s.core k :=
  eachDo_induct (P := fun t => t.core k = s.core k) (fun i _ t ht => (t.totalAdd_core p i k).trans ht) rfl

theorem State.totalsAdd_core_ne (s : State) {p k : Nat} (hne : k ≠ p) : (s.totalsAdd p).core k = s.core k :=
  (State.modCore_core_ne _ hne).trans (State.eachDo_totalAdd_core _ s p k)

theorem State.totalsAdd_core_self (s : State) (p : Nat) :
    (s.totalsAdd p).core p = { s.core p with tallyAdded := (s.core p).tally } := by
  unfold State.totalsAdd
  rw [State.modCore_core_self, State.eachDo_totalAdd_core]

theorem State.modCore_totals (s : State) (p : Nat) (g : Core → Core) : (s.modCore p g).totals = s.totals := rfl

theorem State.totalsAdd_totals (s : State) (p : Nat) :
    (s.totalsAdd p).totals = (eachDo (List.range 32) (fun i t => t.totalAdd p i) s).totals :=
  State.modCore_totals _ p _

theorem State.totalsAdd_rising {s : State} (p : Nat) (h : tabRising 0 s.totals = true) :
    tabRising 0 (s.totalsAdd p).totals = true := by
  rw [State.totalsAdd_totals]
  exact eachDo_induct (P := fun t => tabRising 0 t.totals = true)
    (fun i _ t ht => by
      rw [State.totalAdd_totals]
      exact tabPut_rising _ _ _ _ 0 (Nat.zero_le i) ht) h

/-- Adding the tallies of a list, each once, adds to each of their totals what the tally has grown by. -/
theorem State.eachDo_totalAdd_total {l : List Nat} {s : State} (p i : Nat) (hl : l.Nodup)
    (h : tabRising 0 s.totals = true) :
    tabGet 0 (eachDo l (fun j t => t.totalAdd p j) s).totals i
      = if i ∈ l then tabGet 0 s.totals i + s.grown p i else tabGet 0 s.totals i := by
  induction l generalizing s with
  | nil => simp [eachDo]
  | cons j l ih =>
    obtain ⟨hj, hl⟩ := List.nodup_cons.mp hl
    have htotals := s.totalAdd_totals p j
    have hrising : tabRising 0 (s.totalAdd p j).totals = true := by
      rw [htotals]
      exact tabPut_rising _ _ _ _ 0 (Nat.zero_le j) h
    have hget : tabGet 0 (s.totalAdd p j).totals i
        = if i = j then tabGet 0 s.totals j + s.grown p j else tabGet 0 s.totals i := by
      rw [htotals, tabGet_tabPut _ _ _ _ _ 0 h (Nat.zero_le j)]
    refine (ih hl hrising).trans ?_
    rw [State.grown_congr (s.totalAdd_core p j p), hget]
    by_cases hij : i = j
    · subst hij
      simp [hj]
    · simp [hij]

theorem State.totalsAdd_total {s : State} (p : Nat) {i : Nat} (hi : i < 32) (h : tabRising 0 s.totals = true) :
    tabGet 0 (s.totalsAdd p).totals i = tabGet 0 s.totals i + s.grown p i := by
  rw [State.totalsAdd_totals, State.eachDo_totalAdd_total p i List.nodup_range h, if_pos (List.mem_range.mpr hi)]

/-- Over a list of cores, each once, a total takes what each core's tally has grown by. -/
theorem State.eachDo_totalsAdd_total {l : List Nat} {s : State} {i : Nat} (hl : l.Nodup) (hi : i < 32)
    (h : tabRising 0 s.totals = true) :
    tabGet 0 (eachDo l (fun p t => t.totalsAdd p) s).totals i
      = l.foldl (fun a p => a + s.grown p i) (tabGet 0 s.totals i) := by
  induction l generalizing s with
  | nil => rfl
  | cons p l ih =>
    obtain ⟨hp, hl⟩ := List.nodup_cons.mp hl
    have hrest : ∀ k ∈ l, ∀ a : BitVec 80, a + (s.totalsAdd p).grown k i = a + s.grown k i := fun k hk a => by
      have hne : k ≠ p := fun he => hp (he ▸ hk)
      rw [State.grown_congr (s.totalsAdd_core_ne hne)]
    rw [eachDo_cons]
    calc tabGet 0 (eachDo l (fun p t => t.totalsAdd p) (s.totalsAdd p)).totals i
        = l.foldl (fun a k => a + (s.totalsAdd p).grown k i) (tabGet 0 (s.totalsAdd p).totals i) :=
          ih hl (State.totalsAdd_rising p h)
      _ = l.foldl (fun a k => a + s.grown k i) (tabGet 0 s.totals i + s.grown p i) := by
          rw [State.totalsAdd_total p hi h]
          exact List.foldl_ext _ _ _ fun a k hk => hrest k hk a

theorem State.totalsAdd_tally (s : State) (p k : Nat) : ((s.totalsAdd p).core k).tally = (s.core k).tally := by
  by_cases hk : k = p
  · subst hk
    rw [State.totalsAdd_core_self]
  · rw [State.totalsAdd_core_ne s hk]

theorem State.CoresOnly.totalsAdd {s t : State} (p : Nat) (h : s.CoresOnly t) : s.CoresOnly (t.totalsAdd p) :=
  (eachDo_induct (P := s.CoresOnly) (fun i _ _ hu => hu.totalAdd p i) h).modCore p _

theorem State.eachDo_totalsAdd_tally (l : List Nat) (s : State) (k : Nat) :
    ((eachDo l (fun p t => t.totalsAdd p) s).core k).tally = (s.core k).tally :=
  eachDo_induct (P := fun t => (t.core k).tally = (s.core k).tally)
    (fun p _ t ht => (t.totalsAdd_tally p k).trans ht) rfl

/-- After the pass every core of the list has been added up to its tally. -/
theorem State.eachDo_totalsAdd_added {l : List Nat} (s : State) {k : Nat} (hk : k ∈ l) :
    ((eachDo l (fun p t => t.totalsAdd p) s).core k).tallyAdded = (s.core k).tally := by
  refine eachDo_establishes (I := fun t => (t.core k).tally = (s.core k).tally)
    (P := fun t => (t.core k).tallyAdded = (s.core k).tally)
    (fun p _ t ht => (t.totalsAdd_tally p k).trans ht)
    (fun t ht => by rw [State.totalsAdd_core_self]; exact ht) (fun p _ t ht hadded => ?_) hk rfl
  by_cases hkp : k = p
  · subst hkp
    rw [State.totalsAdd_core_self]
    exact ht
  · rw [State.totalsAdd_core_ne t hkp]
    exact hadded

/-! Periodic samples and the trace drain (R442, R443). -/

theorem traceFill_concat_congr (l : List TraceRec) {r r' : TraceRec} (h : r'.gap = r.gap) :
    traceFill (l ++ [r']) = traceFill (l ++ [r]) := by
  simp only [traceFill, List.map_append, List.map_cons, List.map_nil, h]

theorem exec_traceTallyPeriod_one {s : State} {n k i : Nat} (hclk : s.clocked = true) (hn : n < 12) (hk : k < 22) :
    let p := 22 * n + k
    let c := s.core p
    let v := tabGet 0 c.tally i
    let r6 := s.traceRec p 6 0 c.pc 0 (v.setWidth 64) (w64 (v.toNat / 2 ^ 64 + 65536 * i + 2 ^ 24 * c.tallySeq.toNat))
    c.traces 6 = true → selected c.trcTmask = [i] → c.trcDropped = 0 → traceFill (c.trace ++ [r6]) ≤ 2048 →
    exec (.traceTallyPeriod n k) s = .next (s.setCore p { c with
      trace := c.trace ++ [{ r6 with
        tmark := s.sampleMark p c.stretchTrace c.trcTmask false ||| (if r6.gap.isSome then 2 else 0) }],
      gapTrace := c.gapTrace.taken, stretchTrace := s.afterSample p c.stretchTrace c.trcTmask }) := by
  intro p c v r6 htr hsel hd hroom
  have hroom' (m : BitVec 4) : traceFill ((s.core p).trace ++ [{ r6 with tmark := m }]) ≤ 2048 :=
    (traceFill_concat_congr c.trace (r := r6) (r' := { r6 with tmark := m }) rfl).trans_le hroom
  have hone (m : BitVec 4) : s.tallyTrace p m i
      = s.setCore p (c.traced { r6 with tmark := m ||| (if r6.gap.isSome then 2 else 0) }) := by
    unfold State.tallyTrace
    rw [State.traceLost_none hd]
    exact State.tracePut_room (hroom' _)
  refine congrArg Host.Outcome.next ((if_pos ⟨hclk, hn, hk, htr⟩).trans ?_)
  rw [hsel]
  change (s.tallyTrace p _ i).modCore p _ = _
  rw [hone, State.modCore_eq, State.setCore_core, if_pos rfl, State.setCore_setCore]
  rfl

theorem exec_traceDrain_one {s : State} {n k q : Nat} {r : TraceRec} {rest : List TraceRec} (hclk : s.clocked = true)
    (hn : n < 12) (hk : k < 22) (hq : s.partOfPhys (22 * n + k) = some q)
    (hr : (s.core (22 * n + k)).trace = r :: rest) :
    exec (.traceDrain n k 1) s = .next (s.drainOne (22 * n + k) q) := by
  have hcount : min 1 (s.core (22 * n + k)).trace.length = 1 := by
    rw [hr, List.length_cons]
    omega
  refine congrArg Host.Outcome.next ((if_pos ⟨hclk, hn, hk⟩).trans ?_)
  rw [hq]
  change times (min 1 (s.core (22 * n + k)).trace.length) _ s = _
  rw [hcount]
  rfl

/-- A record that leaves the buffer goes to its place, through the queue pair or to the module's own memory. -/
theorem State.drainOne_placed {s : State} {p q : Nat} {r : TraceRec} {rest : List TraceRec} {segs : List (Nat × Nat)}
    (hr : (s.core p).trace = r :: rest) (hen : (s.part q).trp.en = true) (hseg : (s.part q).trp.seg ≠ 0)
    (hplace : (s.part q).trp.place (p / 22) r.bytes.length = some segs) :
    let s1 := s.modCore p (fun c => { c with trace := rest })
    let at_ := (sliceAt segs r.bytes).map (fun e => ((s.part q).trp.base.toNat + e.1, e.2))
    let step := fun (x : Part) => { x with trp := x.trp.step (p / 22) r.bytes.length }
    s.drainOne p q =
      if (s.part q).trp.remote then
        if s.traceQpOk q then (s1.traceSend q (p / 22) (sliceAt segs r.bytes)).modPart q step else s.traceRefused p q
      else if at_.any (fun e => !s.admitted q false true e.1 e.2.length) then s.traceRefused p q
      else (s1.stores p (some q) at_).1.modPart q step := by
  simp only [State.drainOne, hr, hen, hseg, hplace, Bool.not_true, Bool.false_eq_true, or_self, if_false]

/-- Settles O23. -/
theorem samplesAndTraceComplete : Obligations.SamplesAndTraceComplete := by
  refine ⟨fun s fn n k i => ?samples, fun s n k q i r rest segs => ?trace⟩
  case samples =>
    refine ⟨fun hn hk hs => exec_tallySnap hn hk hs, exec_totalSnap, fun hnodup hrising hi => ?_⟩
    exact ⟨_, rfl, State.eachDo_totalsAdd_total hnodup hi hrising, s.eachDo_totalsAdd_tally _,
      fun p hp => s.eachDo_totalsAdd_added hp,
      eachDo_induct (P := s.CoresOnly) (fun p _ _ ht => ht.totalsAdd p) (State.CoresOnly.refl s)⟩
  case trace =>
    intro p c m v r6 t s1 pieces at_ step hclk hn hk
    refine ⟨exec_traceTallyPeriod_one hclk hn hk, fun hq hr hen hseg hplace => ?_⟩
    have hdie : p / 22 = n := by omega
    have hdrain := (exec_traceDrain_one hclk hn hk hq hr).trans
      (congrArg Host.Outcome.next (State.drainOne_placed hr hen hseg (hdie.symm ▸ hplace)))
    rw [show (22 * n + k) / 22 = n from hdie] at hdrain
    refine ⟨fun hlocal hadm => hdrain.trans (congrArg Host.Outcome.next ?_),
      fun hremote hqp => hdrain.trans (congrArg Host.Outcome.next ((if_pos hremote).trans (if_pos hqp)))⟩
    refine (if_neg (Bool.eq_false_iff.mp hlocal)).trans (if_neg ?_)
    simp only [List.any_eq_true, Bool.not_eq_true', not_exists, not_and, Bool.not_eq_false]
    exact hadm

end Sys2Proof.Machine
end

section
/-!
PROOFS. Fault detection, attestation and the management sideband (chapters 13, 15 and 16 of the spec): the statements
O37 and O44.
-/

namespace Sys2Proof.Machine

/-! Core and engine tests, lockstep and clock monitors (R452 to R456). -/

/-- A test of a core counts its cycles in tally 31, with a trace record. -/
def State.coreTested (s : State) (p cycles : Nat) (fails : Bool) : State :=
  (s.tallyAdd p tlTEST cycles).traceAt p 9 0 0 (w64 (b2n fails)) (w64 cycles)

theorem exec_periodicCoreTest {s : State} {n k : Nat} (pass : Bool) (cycles : Nat) (hclk : s.clocked = true)
    (hn : n < 12) (hk : k < 22) (ht : s.testable (22 * n + k) = true) :
    exec (.periodicCoreTest n k pass cycles) s = .next (s.withClock (22 * n + k) (fun x =>
      let t := x.coreTested (22 * n + k) cycles (!pass)
      if pass then t.modCore (22 * n + k) (fun c => { c with lastTest := x.dieNow n })
      else (t.modDie n (fun d => { d with safeFails := satAdd d.safeFails 1 })).checkFailed (22 * n + k) 0x1042
        (t.testArgs (22 * n + k)))) :=
  congrArg Host.Outcome.next (if_pos ⟨hclk, hn, hk, ht⟩)

/-- The core's last pass is at its die's time, whether its clock ran or was started for the test. -/
theorem State.withClock_lastTest (s : State) (p n : Nat) (g : State → State) :
    ((s.withClock p (fun x => (g x).modCore p (fun c => { c with lastTest := x.dieNow n }))).core p).lastTest
      = s.dieNow n := by
  refine State.withClock_cases (P := fun t => (t.core p).lastTest = s.dieNow n) ?_ ?_
  · rw [State.modCore_core_self]
  · rw [State.modCore_core_self, State.modCore_core_self]
    rfl

theorem exec_lockstepMismatch {s : State} {n k : Nat} (hclk : s.clocked = true) (hn : n < 12) (hk : k < 22)
    (hq : s.quarantined (22 * n + k) = false) :
    exec (.lockstepMismatch n k) s = .next (s.checkFailed (22 * n + k) 0x1043 []) :=
  congrArg Host.Outcome.next (if_pos ⟨hclk, hn, hk, hq⟩)

theorem exec_clockMonitorFault_core {s : State} {n k : Nat} (hclk : s.clocked = true) (hn : n < 12) (hk : k < 22)
    (hq : s.quarantined (22 * n + k) = false) :
    exec (.clockMonitorFault (.coreArith n k)) s = .next (s.checkFailed (22 * n + k) 0x1045 []) :=
  congrArg Host.Outcome.next ((if_pos hclk).trans (if_pos ⟨hn, hk, hq⟩))

/-- A core of a die whose clock stopped faults where it runs or has finished (R455). -/
def State.clockStopped (t : State) (p : Nat) : State :=
  if (t.core p).st = .running ∨ (t.core p).st = .done then
    t.coreFaultSeen p scUncorr 0x4010 false (t.core p).waitStm
  else t

theorem exec_clockMonitorFault_die {s : State} {d : Nat} (hclk : s.clocked = true) (hd : d < 24) :
    exec (.clockMonitorFault (.die d)) s
      = .next (eachDo (((List.range 16).filter (fun q => s.partOnDie q d)).flatMap s.physOfPart)
          (fun p t => t.clockStopped p) (s.logAt (.die d) 0x4010 scUncorr none [] [])) :=
  congrArg Host.Outcome.next ((if_pos hclk).trans (if_pos hd))

/-- An entry of a die leaves the cores' states alone. -/
theorem State.logDie_core (s : State) (d code status : Nat) (part : Option Nat) (args snaps : List Word) (k : Nat) :
    (s.logAt (.die d) code status part args snaps).core k = s.core k := by
  unfold State.logAt
  dsimp only
  split <;> rfl

theorem exec_periodicEngineTest_pass {s : State} {n : Nat} {house : Bool} (hclk : s.clocked = true) (hn : n < 12)
    (hrun : house = true ∨ s.pllOn n = true) :
    exec (.periodicEngineTest n house true) s = .next (s.modDie n (fun d =>
      if house then { d with lastChTest := s.dieNow n } else { d with lastUpdTest := s.dieNow n })) :=
  congrArg Host.Outcome.next (if_pos ⟨hclk, hn, (Bool.or_eq_true _ _).mpr hrun⟩)

theorem exec_periodicEngineTest_fail {s : State} {n : Nat} {house : Bool} (hclk : s.clocked = true) (hn : n < 12)
    (hrun : house = true ∨ s.pllOn n = true) :
    let t := s.modDie n (fun d => { d with
      safeFails := satAdd d.safeFails 1, chFenced := d.chFenced || house,
      upd := { d.upd with fenced := d.upd.fenced || !house } })
    exec (.periodicEngineTest n house false) s = .next (t.logEngine n house (if house then 0x1202 else 0x1106) scUncorr
      (w64words (if house then (s.die n).lastChTest else (s.die n).lastUpdTest) ++ w64words (t.engineReplay n))) :=
  congrArg Host.Outcome.next (if_pos ⟨hclk, hn, (Bool.or_eq_true _ _).mpr hrun⟩)

/-- Settles O37. -/
theorem detectionComplete : Obligations.DetectionComplete := by
  intro s n k cycles d house p tested stopped qs hclk
  refine ⟨fun hn hk ht => ?coreTest, fun hn hk hq => ⟨exec_lockstepMismatch hclk hn hk hq,
    exec_clockMonitorFault_core hclk hn hk hq⟩, fun hn hrun => ⟨exec_periodicEngineTest_pass hclk hn hrun,
    exec_periodicEngineTest_fail hclk hn hrun⟩, fun hd hnone => ?empty, fun hd hone hst => ?one⟩
  case coreTest =>
    exact ⟨⟨_, exec_periodicCoreTest true cycles hclk hn hk ht, by simp only [if_true]; rfl,
      s.withClock_lastTest p n (fun x => x.coreTested p cycles false)⟩,
      (exec_periodicCoreTest false cycles hclk hn hk ht).trans (by simp only [Bool.false_eq_true, if_false]; rfl)⟩
  case empty =>
    refine (exec_clockMonitorFault_die hclk hd).trans (congrArg Host.Outcome.next ?_)
    rw [show (List.range 16).filter (fun q => s.partOnDie q d) = [] from hnone]
    rfl
  case one =>
    refine (exec_clockMonitorFault_die hclk hd).trans (congrArg Host.Outcome.next ?_)
    rw [show ((List.range 16).filter (fun q => s.partOnDie q d)).flatMap s.physOfPart = [k] from hone]
    refine if_pos ?_
    rw [State.logDie_core]
    exact hst

/-! The SPDM responder (R380 to R382). -/

theorem State.respond_up {s : State} {fn : Nat} (h : s.doeUp fn = true) (r : SpdmResp) :
    s.respond fn r = { s with host := { s.host with doe := tabSet s.host.doe fn r } } := if_pos h

/-! The management sideband (R429, R472). -/

theorem exec_sidebandRead_on {s : State} (seq offset : Word) (h : s.seraiOn = true) :
    exec (.sidebandRead seq offset) s = .next (s.sbRead seq offset) := by
  unfold State.seraiOn at h
  simp only [exec, execSidebandRead]
  revert h
  cases s.mod.state <;> simp

theorem State.sbRead_plain {s : State} (seq : Word) {offset : Word} {r : RegBlock × Nat}
    (hr : sbReach offset.toNat = some r) (hrc : s.readClear r.1 r.2 = none) :
    s.sbRead seq offset = s.sbAnswer (sbResponse 1 scOk seq offset (s.sbWord r.1 r.2)) := by
  simp only [State.sbRead, hr, hrc]

theorem exec_sidebandWrite_reached {s : State} (seq : Word) {offset : Word} (value : Word) {r : RegBlock × Nat}
    (h : s.seraiOn = true) (hr : sbReach offset.toNat = some r) :
    exec (.sidebandWrite seq offset value) s
      = .next ((s.sbWriteReg r.1 r.2 value).sbAnswer (sbResponse 2 scOk seq offset value)) := by
  unfold State.seraiOn at h
  simp only [exec, execSidebandWrite, hr]
  revert h
  cases s.mod.state <;> simp

theorem exec_sidebandRead_standby {s : State} (seq : Word) (h : s.mod.state = .standby) :
    exec (.sidebandRead seq 0) s = .next (s.sbAnswer (sbResponse 1 scOk seq 0 s.modStat)) := by
  simp only [exec, execSidebandRead, h, if_true]

theorem exec_sidebandWrite_standby {s : State} (seq offset value : Word) (h : s.mod.state = .standby) :
    exec (.sidebandWrite seq offset value) s = .next (s.sbAnswer (sbResponse 2 scIllegal seq offset value)) := by
  simp only [exec, execSidebandWrite, h]

theorem exec_sidebandWake_standby {s : State} (seq : Word) (h : s.mod.state = .standby) :
    exec (.sidebandWake seq) s = .next ((s.useFree.boot false).sbAnswer
      (sbResponse 3 scOk seq (s.freeVal.setWidth 32) ((s.freeVal >>> 32).setWidth 32))) := by
  simp only [exec, execSidebandWake, h]

/-- A boot keeps TIME_NOW and the host's memory, and an answer on the sideband changes neither. -/
theorem State.boot_sbAnswer (s : State) (bs : List Byte) :
    ((s.boot false).sbAnswer bs).mod.state = .boot ∧ ((s.boot false).sbAnswer bs).mod.bootStep = 1
      ∧ ((s.boot false).sbAnswer bs).now = s.now ∧ ((s.boot false).sbAnswer bs).host.mem = s.host.mem := by
  obtain ⟨p, l, g, hshape⟩ := s.boot_shape false
  rw [hshape]
  exact ⟨rfl, rfl, rfl, rfl⟩

/-- Settles O44. -/
theorem attestationSidebandComplete : Obligations.AttestationSidebandComplete := by
  refine ⟨fun s fn off len a b signed nonce index req => ?responder, fun s seq offset value r => ?sideband⟩
  case responder =>
    intro say p d bs hup
    have hup' : s.useFree.doeUp fn = true := hup
    have hsay (x : SpdmResp) : .next (s.respond fn x) = say s x :=
      congrArg Host.Outcome.next (State.respond_up hup x)
    have hsay' (x : SpdmResp) : .next (s.useFree.respond fn x) = say s.useFree x :=
      congrArg Host.Outcome.next (State.respond_up hup' x)
    exact ⟨hsay _, hsay _, hsay _, hsay _, hsay _, hsay' _, hsay' _, hsay _⟩
  case sideband =>
    refine ⟨fun hon hr => ⟨fun hrc => ?_, exec_sidebandWrite_reached seq value hon hr⟩, fun hst =>
      ⟨exec_sidebandRead_standby seq hst, exec_sidebandWrite_standby seq offset value hst,
        _, exec_sidebandWake_standby seq hst, s.useFree.boot_sbAnswer _⟩⟩
    rw [exec_sidebandRead_on seq offset hon, State.sbRead_plain seq hr hrc]

end Sys2Proof.Machine
end

section
/-!
PROOFS. Queues (R408 to R415): the statement O42.
-/

namespace Sys2Proof.Machine

/-! QUEUE_CTL (R408, R412). -/

theorem State.setQueue_queue_self (s : State) (f q : Nat) (y : Queue) : (s.setQueue f q y).queue f q = y := by
  rw [State.setQueue_queue, if_pos ⟨rfl, rfl⟩]

theorem Queue.enable_unread (y : Queue) : y.enable.unread = 0 := by
  unfold Queue.unread
  rw [show y.enable.cqTail = 0 from rfl, show y.enable.cqHead = 0 from rfl, Nat.zero_add, Nat.sub_zero, Nat.mod_self]

theorem exec_queueEnable_starts {s : State} {fn q : Nat} {v : Word} (hs : s.sees fn (.fnBlock fn) = true) (hq : q < 256)
    (hv : v.getLsbD 0 = true) (hen : (s.queue fn q).en = false) (hmax : q < (s.fn fn).qmax.toNat)
    (hlo : 4 ≤ (s.queue fn q).log2.toNat) (hhi : (s.queue fn q).log2.toNat ≤ 16) :
    let t := s.setQueue fn q ((s.queue fn q).ctl v).enable
    exec (.queueEnable fn q v) s = .next (if (s.queue fn q).error then t.msix0 fn else t) := by
  refine congrArg Host.Outcome.next ((if_pos ⟨hv, hq⟩).trans ((State.onBar_sees _ hs).trans ?_))
  exact (if_neg (by rw [hen]; decide)).trans (if_pos ⟨hmax, hlo, hhi⟩)

theorem exec_queueDisable_stops {s : State} {fn q : Nat} {v : Word} (hs : s.sees fn (.fnBlock fn) = true) (hq : q < 256)
    (hv : v.getLsbD 0 = false) :
    exec (.queueDisable fn q v) s
      = .next (s.modQueue fn q (fun y => ({ y.ctl v with en := false }).refresh)) :=
  congrArg Host.Outcome.next ((if_pos ⟨hv, hq⟩).trans (State.onBar_sees _ hs))

theorem exec_queueHaltClear {s : State} {fn q : Nat} (hs : s.sees fn (.fnBlock fn) = true) (hq : q < 256)
    (hh : (s.queue fn q).halted = true) :
    exec (.queueHaltClear fn q) s
      = .next (((s.modQueue fn q (fun y => { y with halted := false })).msix0 fn).settleQueue fn q) :=
  congrArg Host.Outcome.next ((if_pos hq).trans ((State.onBar_sees _ hs).trans (if_pos hh)))

/-! Doorbells and ring errors (R409, R413). -/

section

variable {s : State} {fn q : Nat}

theorem exec_doorbellSqTail_rings {tail : Word} {descs : List (BitVec 512)}
    (hup : s.bar2 fn q = true ∧ (s.queue fn q).en = true ∧ (s.queue fn q).error = false)
    (htail : tail.toNat < (s.queue fn q).size)
    (hdescs : descs.length = (tail.toNat + (s.queue fn q).size - (s.queue fn q).sqHead) % (s.queue fn q).size) :
    exec (.doorbellSqTail fn q tail descs) s
      = .next ((s.modQueue fn q (fun y => { y with sqTail := tail.toNat, ring := descs })).settleQueue fn q) :=
  congrArg Host.Outcome.next ((if_pos hup).trans ((if_neg (Nat.not_le.mpr htail)).trans (if_pos hdescs)))

theorem exec_doorbellSqTail_outside {tail : Word} (descs : List (BitVec 512))
    (hup : s.bar2 fn q = true ∧ (s.queue fn q).en = true ∧ (s.queue fn q).error = false)
    (htail : (s.queue fn q).size ≤ tail.toNat) :
    exec (.doorbellSqTail fn q tail descs) s = .next (s.queueError fn q) :=
  congrArg Host.Outcome.next ((if_pos hup).trans (if_pos htail))

theorem exec_doorbellCqHead_moves {head : Word}
    (hup : s.bar2 fn q = true ∧ (s.queue fn q).en = true ∧ (s.queue fn q).error = false)
    (hhead : head.toNat < (s.queue fn q).size)
    (hread : (head.toNat + (s.queue fn q).size - (s.queue fn q).cqHead) % (s.queue fn q).size ≤ (s.queue fn q).unread) :
    let t := s.modQueue fn q (fun y => { y with cqHead := head.toNat })
    exec (.doorbellCqHead fn q head) s
      = .next ((if 0 < (t.queue fn q).unread then t.cqInterrupt fn q else t).settleQueue fn q) :=
  congrArg Host.Outcome.next ((if_pos hup).trans
    (if_neg (not_or.mpr ⟨Nat.not_le.mpr hhead, Nat.not_lt.mpr hread⟩)))

theorem exec_doorbellCqHead_outside {head : Word}
    (hup : s.bar2 fn q = true ∧ (s.queue fn q).en = true ∧ (s.queue fn q).error = false)
    (h : (s.queue fn q).size ≤ head.toNat ∨ (s.queue fn q).unread
      < (head.toNat + (s.queue fn q).size - (s.queue fn q).cqHead) % (s.queue fn q).size) :
    exec (.doorbellCqHead fn q head) s = .next (s.queueError fn q) :=
  congrArg Host.Outcome.next ((if_pos hup).trans (if_pos h))

theorem exec_queueRingError
    (hup : s.bar2 fn q = true ∧ (s.queue fn q).en = true ∧ (s.queue fn q).error = false) :
    exec (.queueRingError fn q) s = .next (s.queueError fn q) := congrArg Host.Outcome.next (if_pos hup)

/-- The entry and the message leave the queue as it is: in ERROR. -/
theorem State.queueError_error : ((s.queueError fn q).queue fn q).error = true := by
  have hlog (t : State) (args : List Word) : ((t.logPcie 0x0303 0x05 fn q args).msix0 fn).queue fn q = t.queue fn q :=
    congrArg (fun x => Fn.queue x q) (State.logSeraiAt_fn _ _ _ _ _ _ _)
  unfold State.queueError
  rw [hlog]
  exact congrArg Queue.error (s.setQueue_queue_self fn q _)

/-! Messages and held notes (R414, R415). -/

theorem exec_msixCoalesceExpiry_sends (hbar : s.barUp = true) (hp : (s.queue fn q).msiPending = true) :
    exec (.msixCoalesceExpiry fn q) s = .next
      ((s.setQueue fn q { s.queue fn q with lastMsi := some s.now, msiPending := false }).msix fn (q + 1)) :=
  congrArg Host.Outcome.next (if_pos ⟨hbar, hp⟩)

theorem exec_eventDeliverDeferred_writes {e : Cqe} {rest : List Cqe} (hbar : s.barUp = true)
    (hheld : (s.fn fn).held = e :: rest) (htakes : (s.queue fn e.queue).takesNotes = true)
    (hfree : 0 < (s.queue fn e.queue).freeSlots) :
    exec (.eventDeliverDeferred fn) s
      = .next ((s.modFn fn (fun x => { x with held := rest })).cqWrite fn e.queue e) := by
  simp only [exec, execEventDeliverDeferred, hbar, if_true, hheld, htakes, hfree, Bool.not_true, Bool.false_eq_true,
    if_false]

end

/-- Settles O42. -/
theorem queuesComplete : Obligations.QueuesComplete := by
  intro s fn q v tail head descs e rest y s1 s2 up
  have hself : s1.queue fn q = (y.ctl v).enable := s.setQueue_queue_self fn q _
  refine ⟨fun hs hq => ⟨fun hv hen hmax hlo hhi => ⟨exec_queueEnable_starts hs hq hv hen hmax hlo hhi, ?started⟩,
      exec_queueDisable_stops hs hq, exec_queueHaltClear hs hq⟩,
    exec_doorbellSqTail_rings, fun hup => exec_doorbellSqTail_outside descs hup, exec_doorbellCqHead_moves,
    exec_doorbellCqHead_outside, fun hup => ⟨exec_queueRingError hup, State.queueError_error, rfl⟩,
    exec_msixCoalesceExpiry_sends, exec_eventDeliverDeferred_writes⟩
  case started =>
    rw [hself]
    exact ⟨rfl, rfl, Queue.enable_unread _, rfl, rfl⟩

end Sys2Proof.Machine
end

section
/-!
PROOFS. The end of boot (R373, R375 to R378, R428 to R430): the statement O54.
-/

namespace Sys2Proof.Machine

/-! What training and self-test change: cores, dies, the lifetime ledger and the logbook. -/

/-- From `s` to `t` at most cores, dies, the lifetime ledger, the logbook and Serai's gap mark have changed. -/
def State.UnitsOnly (s t : State) : Prop :=
  t = { s with cores := t.cores, dies := t.dies, cisDies := t.cisDies, life := t.life, log := t.log,
               gapSerai := t.gapSerai }

namespace State.UnitsOnly

variable {s t u : State}

theorem refl (s : State) : s.UnitsOnly s := rfl

theorem trans (h : s.UnitsOnly t) (k : t.UnitsOnly u) : s.UnitsOnly u :=
  Eq.trans k (congrArg (fun x : State => { x with
    cores := u.cores, dies := u.dies, cisDies := u.cisDies, life := u.life, log := u.log, gapSerai := u.gapSerai }) h)

theorem customs (h : s.UnitsOnly t) : t.customs = s.customs := (congrArg State.customs h).trans rfl

theorem mod (h : s.UnitsOnly t) : t.mod = s.mod := (congrArg State.mod h).trans rfl

theorem modCore (p : Nat) (g : Core → Core) (h : s.UnitsOnly t) : s.UnitsOnly (t.modCore p g) :=
  h.trans (u := t.modCore p g) rfl

theorem modDie (n : Nat) (g : Die → Die) (h : s.UnitsOnly t) : s.UnitsOnly (t.modDie n g) :=
  h.trans (u := t.modDie n g) rfl

theorem modCis (m : Nat) (g : CisDie → CisDie) (h : s.UnitsOnly t) : s.UnitsOnly (t.modCis m g) :=
  h.trans (u := t.modCis m g) rfl

theorem modLife (g : LifeRec → LifeRec) (h : s.UnitsOnly t) : s.UnitsOnly (t.modLife g) :=
  h.trans (u := t.modLife g) rfl

theorem lifeBegin (h : s.UnitsOnly t) : s.UnitsOnly t.lifeBegin := by
  refine h.trans ?_
  rw [t.lifeBegin_eq]
  rfl

theorem logAt (src : LogSrc) (code status : Nat) (part : Option Nat) (args snaps : List Word) (h : s.UnitsOnly t) :
    s.UnitsOnly (t.logAt src code status part args snaps) := by
  refine h.trans ?_
  unfold State.logAt
  dsimp only
  split
  · cases src <;> rfl
  · rfl

theorem failStack (n : Nat) (h : s.UnitsOnly t) : s.UnitsOnly (t.failStack n) :=
  (((h.modDie n _).logAt _ _ _ _ _ _).modLife _).lifeBegin

theorem failChannel (m c : Nat) (h : s.UnitsOnly t) : s.UnitsOnly (t.failChannel m c) :=
  (((h.modCis m _).logAt _ _ _ _ _ _).modLife _).lifeBegin

theorem lifeQuarantine (p : Nat) (h : s.UnitsOnly t) : s.UnitsOnly (t.lifeQuarantine p) := by
  have hcounted (g : LifeRec → LifeRec) : s.UnitsOnly (t.modLife g).lifeBegin := (h.modLife g).lifeBegin
  unfold State.lifeQuarantine
  dsimp only
  split
  · exact (hcounted _).modDie _ _
  · exact hcounted _

theorem bootQuarantine (p : Nat) (h : s.UnitsOnly t) : s.UnitsOnly (t.bootQuarantine p) := by
  unfold State.bootQuarantine
  split
  · exact (((h.modCore p _).modDie _ _).logAt _ _ _ _ _ _).lifeQuarantine p
  · exact h

theorem bootRetired (h : s.UnitsOnly t) : s.UnitsOnly t.bootRetired :=
  eachDo_induct (P := s.UnitsOnly) (fun e _ u hu => by
    split
    · exact hu.modDie _ _
    · exact hu) h

end State.UnitsOnly

/-! Stacks after training (R209, R430). -/

/-- The state with every stack trained and every unit that the report does not fail. -/
def State.bootTrained (s : State) (r : BootReport) : State :=
  eachDo (List.range 12) (fun n t => t.modDie n (fun d => d.booted s.now))
    (eachDo r.failedCores.eraseDups (fun p t => t.bootQuarantine p) s.bootRetired)

/-- After it the cores' tests are marked, the channels are READY, and what the report fails fails. -/
theorem State.bootUnits_eq (s : State) (r : BootReport) :
    s.bootUnits r =
      eachDo r.failedChannels.eraseDups (fun c t => if c < 96 then t.failChannel (c / 16) (c % 16) else t)
        (eachDo r.failedStacks.eraseDups (fun n t => if n < 12 then t.failStack n else t)
          (eachDo (List.range 6) (fun m t => t.modCis m (fun c => { c with ready := BitVec.allOnes 16 }))
            (eachDo (List.range 264) (fun p t =>
              if r.failedCores.contains p then t else t.modCore p (fun c => { c with lastTest := s.now }))
              (s.bootTrained r)))) := rfl

/-- What the passes after training keep. -/
theorem State.bootUnits_induct {P : State → Prop} {s : State} {r : BootReport}
    (hcore : ∀ t p, P t → P (t.modCore p (fun c => { c with lastTest := s.now })))
    (hcis : ∀ t m, P t → P (t.modCis m (fun c => { c with ready := BitVec.allOnes 16 })))
    (hstack : ∀ t, ∀ n ∈ r.failedStacks, P t → P (t.failStack n)) (hchan : ∀ t m c, P t → P (t.failChannel m c))
    (h : P (s.bootTrained r)) : P (s.bootUnits r) := by
  rw [State.bootUnits_eq]
  refine eachDo_induct (fun c _ t ht => ?channel) (eachDo_induct (fun n hn t ht => ?stack)
    (eachDo_induct (fun m _ t ht => hcis t m ht) (eachDo_induct (fun p _ t ht => ?core) h)))
  case channel =>
    split
    · exact hchan t _ _ ht
    · exact ht
  case stack =>
    split
    · exact hstack t n (List.mem_eraseDups.mp hn) ht
    · exact ht
  case core =>
    split
    · exact ht
    · exact hcore t p ht

theorem State.UnitsOnly.bootTrained (s : State) (r : BootReport) : s.UnitsOnly (s.bootTrained r) :=
  eachDo_induct (P := s.UnitsOnly) (fun n _ _ ht => ht.modDie n _)
    (eachDo_induct (P := s.UnitsOnly) (fun p _ _ ht => ht.bootQuarantine p) (State.UnitsOnly.refl s).bootRetired)

theorem State.UnitsOnly.bootUnits (s : State) (r : BootReport) : s.UnitsOnly (s.bootUnits r) :=
  State.bootUnits_induct (P := s.UnitsOnly) (fun _ p h => h.modCore p _) (fun _ m h => h.modCis m _)
    (fun _ n _ h => h.failStack n) (fun _ m c h => h.failChannel m c) (State.UnitsOnly.bootTrained s r)

theorem State.bootTrained_ready (s : State) (r : BootReport) {n : Nat} (hn : n < 12) :
    ((s.bootTrained r).die n).hbm.ready = true := by
  have hset (t : State) (m : Nat) : ((t.modDie m (fun d => d.booted s.now)).die m).hbm.ready = true := by
    rw [State.modDie_eq, State.setDie_die, if_pos rfl]
    rfl
  unfold State.bootTrained
  refine eachDo_establishes (I := fun _ => True) (P := fun t => (t.die n).hbm.ready = true) (fun _ _ _ _ => trivial)
    (fun t _ => hset t n) (fun m _ t _ ht => ?_) (List.mem_range.mpr hn) trivial
  by_cases hm : n = m
  · subst hm
    exact hset t n
  · rw [State.modDie_eq, State.setDie_die, if_neg hm]
    exact ht

theorem State.failStack_die_ne (s : State) {m n : Nat} (h : n ≠ m) : (s.failStack m).die n = s.die n := by
  simp [State.failStack, h]

theorem State.logCis_die (s : State) (m code status : Nat) (part : Option Nat) (args : List Word) (n : Nat) :
    (s.logCis m code status part args).die n = s.die n := by
  unfold State.logCis State.logAt
  dsimp only
  split <;> rfl

theorem State.failChannel_die (s : State) (m c n : Nat) : (s.failChannel m c).die n = s.die n := by
  simp only [State.failChannel, State.lifeBegin_die, State.modLife_die, State.logCis_die, State.modCis_die]

/-- A stack that the report does not fail is READY (R209, R430). -/
theorem State.bootUnits_ready (s : State) (r : BootReport) {n : Nat} (hn : n < 12) (hok : n ∉ r.failedStacks) :
    ((s.bootUnits r).die n).hbm.ready = true :=
  State.bootUnits_induct (P := fun t => (t.die n).hbm.ready = true) (fun _ _ h => h) (fun _ _ h => h)
    (fun t m hm h => by
      have hne : n ≠ m := fun he => hok (he ▸ hm)
      rw [t.failStack_die_ne hne]
      exact h)
    (fun t m c h => by
      rw [State.failChannel_die]
      exact h)
    (s.bootTrained_ready r hn)

/-! The boot scrub, the ledger at boot, and recovery mode (R216, R362, R377, R428). -/

theorem State.bootScrub_shape (s : State) :
    ∃ m l g, m.hbm = [] ∧ s.bootScrub = { s with mem := m, log := l, gapSerai := g } := by
  obtain ⟨l, g, hlog⟩ := State.logSeraiAt_shape { s with mem := { s.mem with
    hbm := [], hbmErr := [], hbmWb := [], cis := [], cisErr := [], cisWb := [],
    cisScrubs := s.mem.cisScrubs ++ [.change [] [] [] []] } } 0x020C scOk none []
    ([s.customs.statWord, s.customs.status.setWidth 32] ++ [])
  exact ⟨_, l, g, rfl, hlog⟩

theorem State.bootLife_shape (s : State) :
    ∃ x l g, s.bootLife = { s with life := x, log := l, gapSerai := g } := by
  unfold State.bootLife
  dsimp only
  split
  · obtain ⟨l, g, hlog⟩ := State.logPower_shape { s with life := { s.life with
      cur := { s.life.cur with boots := s.life.cur.boots + 1 }, recovered := true } } 0x4008 scOk []
    exact ⟨_, l, g, hlog⟩
  · exact ⟨_, s.log, s.gapSerai, rfl⟩

theorem State.enterRecovery_shape (s : State) (status : Nat) :
    ∃ l g, s.enterRecovery status = { s with
      mod := { s.mod with recovery := true, state := .ready },
      customs := { s.customs with recovery := true, fwm := 0, fwSvn := 0, cdi := some (cdiOf 0 0) },
      log := l, gapSerai := g } := by
  obtain ⟨l, g, hset⟩ := State.setMod_shape { s with
    mod := { s.mod with recovery := true },
    customs := { s.customs with recovery := true, fwm := 0, fwSvn := 0, cdi := some (cdiOf 0 0) } } .ready
  obtain ⟨l', g', hlog⟩ := State.logSerai_shape { s with
    mod := { s.mod with recovery := true, state := .ready },
    customs := { s.customs with recovery := true, fwm := 0, fwSvn := 0, cdi := some (cdiOf 0 0) },
    log := l, gapSerai := g } 0x0103 status none []
  refine ⟨l', g', ?_⟩
  rw [State.enterRecovery, hset]
  exact hlog

/-! BOOT_DONE (Table 14.10). -/

/-- The ROM has locked UDS and taken the anchor whose HMAC verifies (R373, R378). -/
def State.bootChecked (s : State) : State :=
  { s with
    mod := { s.mod with bootStep := 3 },
    customs := { s.customs with udsLocked := true, anchor := anchorOf s.customs.anchorFlash } }

theorem exec_bootDone_recovers {s : State} {r : BootReport} (hst : s.mod.state = .boot)
    (h : s.mod.recovStrap = true ∨ r.recov = true ∨ r.flashOk = false) :
    exec (.bootDone r) s = .next (s.bootChecked.useFree.enterRecovery
      (if s.bootChecked.freeVal.getLsbD 0 then scSignature else scIllegal)) := by
  have hc : (s.mod.recovStrap || r.recov || !r.flashOk) = true := by
    rw [Bool.or_eq_true, Bool.or_eq_true, Bool.not_eq_true', or_assoc]
    exact h
  exact congrArg Host.Outcome.next ((if_pos hst).trans (if_pos hc))

section

variable {s : State} {r : BootReport} (hst : s.mod.state = .boot)
  (hgood : s.mod.recovStrap = false ∧ r.recov = false ∧ r.flashOk = true)

include hst hgood

/-- Without a reason for recovery mode the image is checked: its signature, then its SVN (R375, R376). -/
theorem exec_bootDone_checks :
    exec (.bootDone r) s = .next (
      if !s.mod.flashValid || !trailerOk s.mod.flash.trailer 1 fwAnchor s.mod.flash.body then
        s.bootChecked.badImage 0x0201 scSignature
      else if (imageSvn s.mod.flash).toNat < s.customs.fuseSvn then s.bootChecked.badImage 0x0202 scIllegal
      else s.bootChecked.bootRest r) := by
  obtain ⟨hstrap, hrecov, hflash⟩ := hgood
  refine congrArg Host.Outcome.next ((if_pos hst).trans (if_neg ?_))
  rw [hstrap, hrecov, hflash]
  decide

theorem exec_bootDone_unsigned
    (h : s.mod.flashValid = false ∨ trailerOk s.mod.flash.trailer 1 fwAnchor s.mod.flash.body = false) :
    exec (.bootDone r) s = .next (s.bootChecked.badImage 0x0201 scSignature) := by
  rw [exec_bootDone_checks hst hgood, if_pos (by simpa using h)]

variable (hsigned : s.mod.flashValid = true ∧ trailerOk s.mod.flash.trailer 1 fwAnchor s.mod.flash.body = true)

include hsigned

theorem exec_bootDone_old (h : (imageSvn s.mod.flash).toNat < s.customs.fuseSvn) :
    exec (.bootDone r) s = .next (s.bootChecked.badImage 0x0202 scIllegal) := by
  rw [exec_bootDone_checks hst hgood, if_neg (by simp [hsigned]), if_pos h]

theorem exec_bootDone_boots (h : s.customs.fuseSvn ≤ (imageSvn s.mod.flash).toNat) :
    exec (.bootDone r) s = .next (s.bootChecked.bootRest r) := by
  rw [exec_bootDone_checks hst hgood, if_neg (by simp [hsigned]), if_neg (Nat.not_lt.mpr h)]

end

/-- The image that passed runs: its SVN, its measurement and its CDI (R375, R376). -/
def State.imageRuns (s : State) : State :=
  { s with customs := { s.customs with
      fwOk := true, fwSvn := imageSvn s.mod.flash, fwm := Config.sha384 s.mod.flash.body,
      cdi := some (cdiOf (Config.sha384 s.mod.flash.body) (imageSvn s.mod.flash)) } }

/-- A causeway that failed is FAULT with cause 2 (R430). -/
theorem State.bootRest_fault {s : State} {r : BootReport} (hst : s.mod.state = .boot) (h : r.causewayOk = false) :
    ∃ l g, s.bootRest r = { s.imageRuns with
      mod := { s.mod with bootStep := 6, state := .fault, fault := 2 }, phys := { s.phys with faultN := true },
      log := l, gapSerai := g } := by
  obtain ⟨l, g, hlog⟩ := State.logSerai_shape { s.imageRuns with mod := { s.mod with bootStep := 6 } } 0x0102 scUncorr
    none []
  have hclk : ({ s.imageRuns with mod := { s.mod with bootStep := 6 }, log := l, gapSerai := g } : State).clocked
      = true := by
    unfold State.clocked
    dsimp only
    rw [hst]
  obtain ⟨l', g', hfault⟩ := State.enterFault_shape 2 hclk
  refine ⟨l', g', (if_pos h).trans ?_⟩
  change (State.logSerai { s.imageRuns with mod := { s.mod with bootStep := 6 } } 0x0102 scUncorr none []).enterFault 2
    = _
  rw [hlog]
  exact hfault

/-- The scrub, the ledger's count and READY change nothing else. -/
theorem State.bootReady_shape (u : State) :
    ∃ m x l g, m.hbm = [] ∧ ({ u.bootScrub.bootLife with
        mod := { u.bootScrub.bootLife.mod with bootStep := 8 } } : State).setMod .ready
      = { u with
          mod := { u.mod with bootStep := 8, state := .ready }, mem := m, life := x, log := l, gapSerai := g } := by
  obtain ⟨m, l, g, hm, hscrub⟩ := u.bootScrub_shape
  obtain ⟨x, l', g', hlife⟩ := State.bootLife_shape { u with mem := m, log := l, gapSerai := g }
  obtain ⟨l'', g'', hset⟩ := State.setMod_shape { u with
    mod := { u.mod with bootStep := 8 }, mem := m, life := x, log := l', gapSerai := g' } .ready
  refine ⟨m, x, l'', g'', hm, ?_⟩
  rw [hscrub, hlife]
  exact hset

/-- Otherwise the module is READY after training, the scrub and the ledger's count. -/
theorem State.bootRest_ready {s : State} {r : BootReport} (h : r.causewayOk = true) :
    let u := (s.imageRuns.applyLimit false).bootUnits r
    ∃ m x l g, m.hbm = [] ∧ s.bootRest r = { u with
      mod := { u.mod with bootStep := 8, state := .ready }, mem := m, life := x, log := l, gapSerai := g } := by
  intro u
  obtain ⟨m, x, l, g, hm, hshape⟩ := u.bootReady_shape
  exact ⟨m, x, l, g, hm, (if_neg (by rw [h]; decide)).trans hshape⟩

theorem State.applyLimit_customs (s : State) (b : Bool) : (s.applyLimit b).customs = s.customs :=
  (congrArg State.customs (s.applyLimit_powerOnly b)).trans rfl

theorem State.applyLimit_mod (s : State) (b : Bool) : (s.applyLimit b).mod = s.mod :=
  (congrArg State.mod (s.applyLimit_powerOnly b)).trans rfl

/-- Training leaves Customs and the module's registers as the image set them. -/
theorem State.bootUnits_customs (s : State) (r : BootReport) :
    ((s.applyLimit false).bootUnits r).customs = s.customs :=
  (State.UnitsOnly.bootUnits _ r).customs.trans (s.applyLimit_customs false)

theorem State.bootUnits_mod (s : State) (r : BootReport) : ((s.applyLimit false).bootUnits r).mod = s.mod :=
  (State.UnitsOnly.bootUnits _ r).mod.trans (s.applyLimit_mod false)

/-- Settles O54. -/
theorem bootComplete : Obligations.BootComplete := by
  intro s r s1 image sig good hst hrec
  refine ⟨fun h => ?recovers, fun hgood h => exec_bootDone_unsigned hst hgood h,
    fun hgood hvalid hsig hold => exec_bootDone_old hst hgood ⟨hvalid, hsig⟩ hold,
    fun hgood hvalid hsig hnew => ⟨_, exec_bootDone_boots hst hgood ⟨hvalid, hsig⟩ hnew, ?boots⟩⟩
  case recovers =>
    obtain ⟨l, g, hshape⟩ := s.bootChecked.useFree.enterRecovery_shape
      (if s.bootChecked.freeVal.getLsbD 0 then scSignature else scIllegal)
    rw [exec_bootDone_recovers hst h, hshape]
    exact ⟨_, rfl, rfl, rfl, rfl, rfl, rfl, rfl, rfl, rfl⟩
  case boots =>
    cases hway : r.causewayOk with
    | false =>
      obtain ⟨l, g, hshape⟩ := State.bootRest_fault (s := s.bootChecked) hst hway
      rw [hshape]
      exact ⟨rfl, rfl, rfl, rfl, hrec, fun _ => ⟨rfl, rfl⟩, fun hno => Bool.noConfusion hno⟩
    | true =>
      obtain ⟨m, x, l, g, hm, hshape⟩ := State.bootRest_ready (s := s.bootChecked) hway
      have hcus := s.bootChecked.imageRuns.bootUnits_customs r
      have hmod := s.bootChecked.imageRuns.bootUnits_mod r
      rw [hshape]
      refine ⟨congrArg Customs.fwSvn hcus, congrArg Customs.fwm hcus, congrArg Customs.udsLocked hcus,
        congrArg Customs.anchor hcus, (congrArg Module.recovery hmod).trans hrec, fun hno => Bool.noConfusion hno,
        fun _ => ⟨rfl, rfl, hm, fun n hn hok => State.bootUnits_ready _ r hn hok⟩⟩

end Sys2Proof.Machine
end

section
/-!
PROOFS. Customs' own commands (R309, R315, R376, R378, R383, R387): the statement O33.
-/

namespace Sys2Proof.Machine

/-! The anchor and the fused SVN (R376, R378). -/

theorem State.cusCmd_sees {s : State} {fn : Nat} (g : State → State) (hs : s.sees fn .customs = true)
    (hrec : s.mod.recovery = false) : s.cusCmd fn g = g s :=
  (State.onBar_sees _ hs).trans (if_neg (by rw [hrec]; decide))

section

variable {s : State} {fn : Nat} (hs : s.sees fn .customs = true) (hrec : s.mod.recovery = false)

include hs hrec

theorem exec_anchorEnrol_enrols {o : AnchorObj} (h : s.enrolStatus o = scOk) :
    exec (.anchorEnrol fn o) s
      = .next (((s.setAnchor (some (trailerKey o.trailer))).cusStatus scOk).logCus 0x0204 scOk none []) := by
  simp only [exec, execAnchorEnrol, State.cusCmd_sees _ hs hrec, h, if_true]

theorem exec_anchorRelease_releases {o : AnchorObj} (h : s.releaseStatus o = scOk) :
    exec (.anchorRelease fn o) s
      = .next ((({ s with
          customs := { s.customs with anchor := none, anchorFlash := none, anchorSeq := s.customs.anchorSeq + 1 },
          mod := { s.mod with manHigh := 0 } } : State).cusStatus scOk).logCus 0x0204 scOk none []) := by
  simp only [exec, execAnchorRelease, State.cusCmd_sees _ hs hrec, h, if_true]
  rfl

/-- SVN_ADVANCE changes the fused SVN, the status and what its entry leaves. -/
theorem exec_svnAdvance_raises :
    ∃ l g, exec (.svnAdvance fn) s = .next { s with
      customs := { s.customs with fuseSvn := max s.customs.fuseSvn (min s.customs.fwSvn.toNat 64), status := st8 scOk },
      log := l, gapSerai := g } := by
  obtain ⟨l, g, hlog⟩ := State.logSeraiAt_shape { s with customs := { s.customs with
    fuseSvn := max s.customs.fuseSvn (min s.customs.fwSvn.toNat 64), status := st8 scOk } } 0x0205 scOk none [] _
  exact ⟨l, g, congrArg Host.Outcome.next ((State.cusCmd_sees _ hs hrec).trans hlog)⟩

end

/-! Key records and key slots (R383, R387). -/

/-- Random values take their words of the free values, and nothing else. -/
theorem State.random_fst (s : State) (n : Nat) : (s.random n).1 = { s with free := s.free + n } := by
  induction n generalizing s with
  | zero => rfl
  | succ n ih =>
    rw [State.random, ih]
    simp only [State.useFree, Nat.add_assoc, Nat.add_comm 1 n]

/-- The record that KEYGEN makes: its random bytes and its secret halves are the free values that come (R383). -/
def State.newRecord (s : State) (p : Nat) : KeyRecord :=
  { part := BitVec.ofNat 8 p, ctx := (s.part p).ms.ctx, epoch := s.pair.2, digest := s.pair.1,
    random := BitVec.ofNat 128 (s.random 2).2, skX := BitVec.ofNat 256 ((s.random 2).1.random 4).2,
    dk := BitVec.ofNat 512 (((s.random 2).1.random 4).1.random 8).2 }

section

variable {s : State} {fn p : Nat} (hs : s.sees fn (.part p) = true) (hp : p < 16)

include hs hp

theorem exec_keygen_makes (hx : s.exists_ p = true) :
    exec (.keygen fn p) s = .next ((({ s with free := s.free + 14 } : State).modCus p (fun x => { x with
      record := some (s.newRecord p) })).cuspStatus p scOk) := by
  have hfree : (((s.random 2).1.random 4).1.random 8).1 = { s with free := s.free + 14 } := by
    simp only [State.random_fst, Nat.add_assoc]
  rw [← hfree]
  exact congrArg Host.Outcome.next ((if_pos hp).trans ((State.onBar_sees _ hs).trans (if_pos hx)))

theorem exec_keySlotEmpty_empties {slot : BitVec 6} (hin : (s.slotsOf p).contains slot.toNat = true)
    (hfree : s.slotRef slot.toNat = false) (hkind : (s.keySlot slot.toNat).kind ≠ .empty) :
    exec (.keySlotEmpty fn p slot) s = .next ((s.emptySlot p slot.toNat).cuspStatus p scOk) := by
  refine congrArg Host.Outcome.next ((if_pos hp).trans ((State.onBar_sees _ hs).trans ((if_pos ?_).trans ?_)))
  · rw [hin, hfree]
    decide
  · rw [if_neg hkind]

/-! The epoch switch of a partition's convoys (R309, R315). -/

theorem exec_cvSwitchArm_arms (ha : s.armOk p = true) :
    exec (.cvSwitchArm fn p) s = .next (s.modConvoy p (fun x => { x with armed := true, sentUp := false })) :=
  congrArg Host.Outcome.next ((if_pos hp).trans ((State.onBar_sees _ hs).trans (if_pos ha)))

theorem exec_cvSwitchDisarm_disarms (hh : (s.convoy p).held = false) :
    exec (.cvSwitchDisarm fn p) s = .next (s.modConvoy p (fun x => { x with armed := false })) := by
  simp only [exec, execCvSwitchDisarm, if_pos hp, State.onBar_sees _ hs, hh]
  rfl

end

/-- Settles O33. -/
theorem customsComplete : Obligations.CustomsComplete := by
  intro s fn p o slot c a
  refine ⟨fun hs hrec => ⟨exec_anchorEnrol_enrols hs hrec, exec_anchorRelease_releases hs hrec, fun hmax => ?svn⟩,
    fun hs hp => ⟨fun hx => ⟨s.newRecord p, exec_keygen_makes hs hp hx, ?number, rfl, rfl, rfl, rfl⟩,
      exec_keySlotEmpty_empties hs hp, exec_cvSwitchArm_arms hs hp, exec_cvSwitchDisarm_disarms hs hp⟩⟩
  case svn =>
    obtain ⟨l, g, hraised⟩ := exec_svnAdvance_raises hs hrec
    exact ⟨_, hraised, rfl, le_max_left _ _, max_le hmax (min_le_right _ _), rfl⟩
  case number =>
    change p % 256 = p
    omega

end Sys2Proof.Machine
end

section
/-!
PROOFS. Manifests (R394, R420 to R424): how one is staged, adopted and cancelled, how a reassignment ends, and the
statement O30.
-/

namespace Sys2Proof.Machine

/-! Links and the time base as a manifest configures them (R228, R240, R353). -/

namespace State.ReportsOnly

variable {s t : State}

theorem modTime (g : TimeBase → TimeBase) (h : s.ReportsOnly t) : s.ReportsOnly (t.modTime g) :=
  h.trans (u := t.modTime g) rfl

theorem modFn (f : Nat) (g : Fn → Fn) (h : s.ReportsOnly t) : s.ReportsOnly (t.modFn f g) :=
  h.trans (u := t.modFn f g) rfl

theorem mod (h : s.ReportsOnly t) : t.mod = s.mod := h.reads (f := State.mod) rfl

theorem enqueue (l q : Nat) (f : QFrame) (h : s.ReportsOnly t) : s.ReportsOnly (t.enqueue l q f) :=
  (h.modLink l _).drainLink l

theorem moveFrames (l : Nat) (h : s.ReportsOnly t) : s.ReportsOnly (t.moveFrames l) := by
  unfold State.moveFrames
  refine ReportsOnly.eachDo (fun e u hu => ?_) _ (h.modLink l _)
  split
  · exact hu.enqueue _ _ _
  · exact hu.noLink _ _

theorem linkDown (l reason : Nat) (h : s.ReportsOnly t) : s.ReportsOnly (t.linkDown l reason) := by
  have hdown (g : Link → Link) : s.ReportsOnly (t.modLink l g) := h.modLink l g
  unfold State.linkDown
  extract_lets x s1 s2
  have hlogged : s.ReportsOnly s2 := by
    simp only [s2]
    split
    · exact (hdown _).logDie _ _ _ _ _ _
    · exact hdown _
  split
  · exact hlogged.moveFrames l
  · exact hlogged

theorem linkDisable (l : Nat) (h : s.ReportsOnly t) : s.ReportsOnly (t.linkDisable l) := by
  unfold State.linkDisable
  dsimp only
  split
  · exact (h.modLink l _).moveFrames l
  · exact h.modLink l _

theorem enableLink (l : Nat) (h : s.ReportsOnly t) : s.ReportsOnly (t.enableLink l) := by
  unfold State.enableLink
  dsimp only
  split
  · exact h.modLink l _
  · exact h

theorem configureLink (m : Manifest) (l : Nat) (h : s.ReportsOnly t) : s.ReportsOnly (t.configureLink m l) := by
  have hset (x : Link) : s.ReportsOnly (t.setLink l x) := h.setLink l x
  unfold State.configureLink
  dsimp only
  split
  · split
    · exact hset _
    · exact (hset _).linkDisable l
  · split
    · exact (hset _).linkDown l 0
    · exact (hset _).enableLink l

theorem refreshUplink (h : s.ReportsOnly t) : s.ReportsOnly t.refreshUplink := by
  unfold State.refreshUplink
  dsimp only
  split
  · exact h
  · exact (h.modTime _).logSerai _ _ _ _ _

end State.ReportsOnly

theorem State.logTime_mod (s : State) (code status : Nat) (args : List Word) :
    (s.logTime code status args).mod = s.mod := ((ReportsOnly.refl s).logSerai _ _ _ _ _).mod

theorem State.enterLocked_mod (s : State) (step : DWord) : (s.enterLocked step).mod = s.mod := by
  unfold State.enterLocked
  split
  · rfl
  · split
    · dsimp only
      split
      · exact State.logTime_mod _ _ _ _
      · rfl
    · exact State.logTime_mod _ _ _ _

theorem State.rootReference_mod (s : State) : s.rootReference.mod = s.mod := by
  unfold State.rootReference
  dsimp only
  split
  · split
    · exact State.enterLocked_mod _ _
    · exact State.enterLocked_mod _ _
  · rfl

/-! A manifest is adopted (R424). -/

/-- Adopting a manifest changes of the module's registers those that name it, and that a reassignment begins. -/
theorem State.adopt_mod (s : State) (m : Manifest) :
    (s.adopt m).mod = { s.mod with
      inForce := some m, staged := none, affected := [], reassigning := true,
      manHigh := if s.mod.manHigh.toNat < m.epoch.toNat then m.epoch else s.mod.manHigh } := by
  unfold State.adopt
  extract_lets registers s1 s2 r s3
  have hlinks : s1.ReportsOnly s3 :=
    (((State.ReportsOnly.refl s1).eachDo (fun l _ ht => ht.configureLink m l) _).modFn 0 _).modTime _
  have huplink : s3.rootReference.refreshUplink.mod = s3.rootReference.mod :=
    (State.ReportsOnly.refl _).refreshUplink.mod
  exact huplink.trans (s3.rootReference_mod.trans hlinks.mod)

theorem State.adopt_manHigh (s : State) (m : Manifest) :
    (s.adopt m).mod.manHigh.toNat = max s.mod.manHigh.toNat m.epoch.toNat := by
  rw [State.adopt_mod]
  dsimp only
  split
  · next hlt => exact (max_eq_right (Nat.le_of_lt hlt)).symm
  · next hge => exact (max_eq_left (Nat.not_lt.mp hge)).symm

theorem State.adopt_pair (s : State) (m : Manifest) : (s.adopt m).pair = (m.digest, m.epoch) := by
  unfold State.pair
  rw [State.adopt_mod]

/-- The state in which a manifest that has been adopted is logged, READY becoming RUN (Table 14.11). -/
def State.adopted (s : State) (m : Manifest) : State :=
  let b := (s.adopt m).logSerai 0x0122 scOk none []
  if s.mod.state = .ready then b.setMod .run else b

/-- The rest of an activation but its end: the jobs' pairs are settled, and each affected partition joins those that
the reassignment takes and is taken, unless its job's switch release has still to come (R424). -/
def State.activated (s : State) (m : Manifest) : State :=
  let d := eachDo (List.range 16) (fun q t => if (t.part q).cfg.isSome then t.jobAtTact m s.pair q else t) (s.adopted m)
  let e := { d with mod := { d.mod with
    taking := d.mod.taking ++ s.mod.affected.filter (fun q => !d.mod.taking.contains q) } }
  (eachDo s.mod.affected (fun q t => t.affectedAtTact q) e).refreshScrubbing

/-- With none to take the reassignment ends at once. -/
theorem State.activate_eq (s : State) (m : Manifest) :
    s.activate m = if (s.activated m).mod.taking.isEmpty then (s.activated m).endReassign m
      else (s.activated m).applyLimit false := by
  unfold State.activate
  extract_lets old aff s1 s2 s3 registers s4 s5
  have hstate : s1.mod.state = s.mod.state := by
    rw [State.logSerai_mod, State.adopt_mod]
  have hadopted : s2 = s.adopted m := by
    simp only [s2, hstate, State.adopted, s1]
  have hactivated : s5 = s.activated m := by
    simp only [s5, s4, registers, s3, hadopted, State.activated, old, aff]
  rw [hactivated]

theorem State.adopted_run {s : State} (m : Manifest) (h : s.mod.state = .ready) :
    (s.adopted m).mod.state = .run := by
  obtain ⟨l, g, hset⟩ := ((s.adopt m).logSerai 0x0122 scOk none []).setMod_shape .run
  rw [State.adopted, if_pos h, hset]

theorem exec_manifestActivation {s : State} {m : Manifest} (hst : s.mod.state = .ready ∨ s.mod.state = .run)
    (hm : s.mod.staged = some m) : exec .manifestActivation s = .next (s.activate m) := by
  simp only [exec, execManifestActivation, if_pos hst, hm]

/-! A manifest is staged, and cancelled (R420 to R422). -/

/-- The state with an accepted manifest staged and its command complete. -/
def State.withStaged (s : State) (m : Manifest) (c : CmdRef) : State :=
  (({ s with mod := { s.mod with staged := some m, affected := s.affectedBy m } } : State).logSerai 0x0120 scOk none
    []).complete c scOk (m.epoch.setWidth 64) m.tAct

theorem State.withStaged_staged (s : State) (m : Manifest) (c : CmdRef) :
    (s.withStaged m c).mod.staged = some m := by
  rw [State.withStaged, State.complete_mod, State.logSerai_mod]

theorem exec_applyManifest_accepted {s : State} {h : CmdHdr} {len : Nat} {obj : ManifestObj} {m : Manifest}
    (htakes : s.takes h (descOf h 0x0D 0 (2 ^ 64 * len)) = true) (hrec : s.mod.recovery = false)
    (hunb : s.unbound h.fn = false) (hfn : h.fn = 0) (hnone : s.mod.staged = none)
    (hok : (s.takeDesc h.fn h.q).checkManifest len obj = .accepted m) :
    exec (.applyManifest h len obj) s
      = .next (((s.takeDesc h.fn h.q).stage m (CmdHdr.ref h 0x0D)).settleQueue h.fn h.q) := by
  have hpf : ¬(h.fn ≠ 0 ∨ s.mod.staged.isSome = true) := by
    rw [hfn, hnone]
    decide
  simp only [exec, execApplyManifest, htakes, hrec, hunb, hok, if_neg hpf, if_true, Bool.false_eq_true, if_false]

theorem State.stage_eq (s : State) (m : Manifest) (c : CmdRef) :
    s.stage m c = if m.tAct = 0 then (s.withStaged m c).activate m else s.withStaged m c := rfl

theorem exec_manifestCancel_cancels {s : State} {fn : Nat} {m : Manifest} (hs : s.sees fn .module = true)
    (hm : s.mod.staged = some m) (ht : s.now.toNat + 1000000 ≤ m.tAct.toNat) :
    exec (.manifestCancel fn) s
      = .next (({ s with mod := { s.mod with staged := none, affected := [] } } : State).logSerai 0x0125 scOk none
        []) := by
  simp only [exec, execManifestCancel, State.onBar_sees _ hs, State.manCancel, hm, if_pos ht, State.cancelStaged]

/-! A context switch that a manifest begins (R424). -/

theorem State.beginSwitch_part_self (s : State) (q : Nat) (cause : SwitchCause) :
    ((s.beginSwitch q cause).part q).switching = some cause ∧ ((s.beginSwitch q cause).part q).recovery = none := by
  unfold State.beginSwitch
  rw [((State.Signals.refl _).gateUpd s).part, State.modPart_eq, State.setPart_part, if_pos rfl]
  exact ⟨rfl, rfl⟩

theorem exec_manifestSwitchTimeout_switches {s : State} {q : Nat} (hclk : s.clocked = true) (hq : q < 16)
    (hre : s.mod.reassigning = true) (htaking : s.mod.taking.contains q = true) (hsw : (s.part q).switching = none)
    (hst : (s.part q).st ≠ .idle) :
    exec (.manifestSwitchTimeout q) s
      = .next (({ s with mod := { s.mod with stopped := q :: s.mod.stopped } } : State).beginSwitch q .manifest) := by
  have hfree : (s.part q).switching.isNone = true := by
    rw [hsw]
    rfl
  refine congrArg Host.Outcome.next ((if_pos ⟨hclk, hq, hre, htaking, hfree⟩).trans ?_)
  rw [if_neg hst]

/-! The end of a reassignment (R394). -/

theorem State.lapse_mod (s : State) (m : Manifest) (q : Nat) : (s.lapse m q).mod = s.mod := by
  unfold State.lapse
  dsimp only
  refine eachDo_induct (P := fun t => t.mod = s.mod) (fun _ _ t ht => ?_) ?_
  · exact ((ReportsOnly.refl t).logSerai _ _ _ _ _).mod.trans ht
  · split <;> rfl

theorem Part.reassigned_cfg (x : Part) (c : Option PartCfg) :
    (x.reassigned c).cfg = c ∧ (x.reassigned c).switching = none := by
  unfold Part.reassigned
  split <;> exact ⟨rfl, rfl⟩

theorem State.random_part (s : State) (n r : Nat) : (s.random n).1.part r = s.part r := by
  rw [State.random_fst]
  rfl

theorem State.freshCisKeys_part (s : State) (q r : Nat) : (s.freshCisKeys q).part r = s.part r := by
  unfold State.freshCisKeys
  rw [State.modCus_part, State.random_part, State.random_part]

theorem State.reassignCus_part (s : State) (q : Nat) (was will : Bool) (r : Nat) :
    (s.reassignCus q was will).part r = s.part r := by
  unfold State.reassignCus
  dsimp only
  split
  · rfl
  · split
    · exact State.freshCisKeys_part _ _ _
    · rfl

theorem State.ReportsOnly.part {s t : State} (h : s.ReportsOnly t) (r : Nat) : t.part r = s.part r :=
  h.reads (f := fun x => x.part r) rfl

/-- A partition that is taken starts with the configuration that the manifest gives it; no other changes. -/
theorem State.reassignPart_part (s : State) (m : Manifest) (q r : Nat) :
    (s.reassignPart m q).part r = if r = q then (s.part q).reassigned (m.part q) else s.part r := by
  have hset (x : Part) : (((s.reassignCus q (s.part q).cfg.isSome (m.part q).isSome).setPart q x)).part r
      = if r = q then x else s.part r := by
    rw [State.setPart_part, State.reassignCus_part]
  have hlogged (t : State) : (t.logCus 0x020B scOk (some q) []).part r = t.part r :=
    ((ReportsOnly.refl t).logSerai _ _ _ _ _).part r
  have hstopped (t : State) : (t.logSerai 0x0124 scAbandoned (some q) []).part r = t.part r :=
    ((ReportsOnly.refl t).logSerai _ _ _ _ _).part r
  unfold State.reassignPart
  dsimp only
  split
  · rw [hstopped, hlogged, State.modPart_eq, hset, State.reassignCus_part]
  · rw [hlogged, State.modPart_eq, hset, State.reassignCus_part]

/-- Each partition that is taken has the manifest's configuration after the pass, and its switch is over. -/
theorem State.eachDo_reassignPart {l : List Nat} (s : State) (m : Manifest) {r : Nat} (hr : r ∈ l) :
    let t := eachDo l (fun q t => t.reassignPart m q) s
    (t.part r).cfg = m.part r ∧ (t.part r).switching = none := by
  have hset (t : State) : ((t.reassignPart m r).part r).cfg = m.part r
      ∧ ((t.reassignPart m r).part r).switching = none := by
    rw [State.reassignPart_part, if_pos rfl]
    exact Part.reassigned_cfg _ _
  refine eachDo_establishes (I := fun _ => True)
    (P := fun t => (t.part r).cfg = m.part r ∧ (t.part r).switching = none) (fun _ _ _ _ => trivial)
    (fun t _ => hset t) (fun q _ t _ ht => ?_) hr trivial
  by_cases hq : r = q
  · subst hq
    exact hset t
  · rw [State.reassignPart_part, if_neg hq]
    exact ht

theorem State.bindFns_parts (s : State) : s.bindFns.parts = s.parts := by
  unfold State.bindFns
  refine eachDo_induct (P := fun t => t.parts = s.parts) (fun f _ t ht => ?_) rfl
  split
  · exact ht
  · split <;> exact ht

theorem State.dieAnew_parts (s : State) (n : Nat) : (s.dieAnew n).parts = s.parts := by
  unfold State.dieAnew
  split <;> rfl

/-- The partitions of a state are found in its table. -/
theorem State.part_congr {s t : State} (h : t.parts = s.parts) (r : Nat) : t.part r = s.part r := by
  unfold State.part
  rw [h]

/-- The memories reassigned, and the placements that lapse gone (Table 13.12, step 3). -/
def State.lapsed (s : State) (m : Manifest) : State :=
  eachDo (List.range 16) (fun q t => t.lapse m q)
    { s with mem := s.mem.reassign m.hgrps m.cgrps (s.rangesWere m) (s.rangesWill m) }

theorem State.lapsed_mod (s : State) (m : Manifest) : (s.lapsed m).mod = s.mod :=
  eachDo_induct (P := fun t => t.mod = s.mod) (fun q _ t ht => (t.lapse_mod m q).trans ht) rfl

/-- The state when every partition that is taken has been reassigned. -/
def State.partsReassigned (s : State) (m : Manifest) : State :=
  eachDo (s.lapsed m).mod.taking (fun q t => t.reassignPart m q) (s.lapsed m)

theorem State.partsReassigned_part {s : State} (m : Manifest) {r : Nat} (hr : r ∈ s.mod.taking) :
    ((s.partsReassigned m).part r).cfg = m.part r ∧ ((s.partsReassigned m).part r).switching = none := by
  have htaking : r ∈ (s.lapsed m).mod.taking := by
    rw [State.lapsed_mod]
    exact hr
  exact State.eachDo_reassignPart (s.lapsed m) m htaking

theorem State.applyLimit_parts (s : State) (b : Bool) : (s.applyLimit b).parts = s.parts :=
  (congrArg State.parts (s.applyLimit_powerOnly b)).trans rfl

/-- The module's registers, and CUS_STAT, once no reassignment runs. -/
def State.reassignOver (s : State) : State :=
  ({ s with mod := { s.mod with taking := [], stopped := [], reassigning := false } } : State).refreshScrubbing

/-- The end of a reassignment leaves the partitions as they were reassigned, and none taken or stopped. -/
theorem State.endReassign_frame (s : State) (m : Manifest) :
    (s.endReassign m).parts = (s.partsReassigned m).parts ∧ (s.endReassign m).mod.taking = []
      ∧ (s.endReassign m).mod.stopped = [] ∧ (s.endReassign m).mod.reassigning = false := by
  unfold State.endReassign
  extract_lets s1 s2 s3 changed sealing s4
  have hdies : s4.parts = s3.parts :=
    eachDo_induct (P := fun t => t.parts = s3.parts) (fun n _ t ht => (t.dieAnew_parts n).trans ht)
      (eachDo_induct (P := fun t => t.parts = s3.parts) (fun n _ t ht => ht) rfl)
  have hlapsed : s2 = s.lapsed m := by
    unfold State.lapsed
    rfl
  have hbound : s3 = (s.partsReassigned m).bindFns := by simp only [s3, hlapsed, State.partsReassigned]
  have hs3 : s3.parts = (s.partsReassigned m).parts := by rw [hbound, State.bindFns_parts]
  change (s4.reassignOver.applyLimit false).parts = _ ∧ _
  rw [State.applyLimit_parts]
  refine ⟨hdies.trans hs3, ?_⟩
  change (s4.reassignOver.applyLimit false).mod.taking = [] ∧ (s4.reassignOver.applyLimit false).mod.stopped = []
    ∧ (s4.reassignOver.applyLimit false).mod.reassigning = false
  rw [State.applyLimit_mod]
  exact ⟨rfl, rfl, rfl⟩

theorem exec_reassignmentScrubDone_ends {s : State} {m : Manifest} (hclk : s.clocked = true)
    (hre : s.mod.reassigning = true) (hheld : s.allHeld = true) (hm : s.mod.inForce = some m) :
    exec .reassignmentScrubDone s = .next (s.endReassign m) := by
  simp only [exec, execReassignmentScrubDone, hclk, hre, hheld, hm, Bool.and_self, if_true]

/-- Settles O30. -/
theorem manifestsComplete : Obligations.ManifestsComplete := by
  intro s h len obj m fn q t s1 s2
  refine ⟨fun htakes hrec hunb hfn hnone hok => ?staged, fun hst hm => ?adopted,
    fun hs hm ht => exec_manifestCancel_cancels hs hm ht,
    fun hclk hq hre htaking hsw hst => ⟨_, exec_manifestSwitchTimeout_switches hclk hq hre htaking hsw hst, rfl,
      State.beginSwitch_part_self _ q .manifest⟩,
    fun hclk hre hheld hm => ⟨_, exec_reassignmentScrubDone_ends hclk hre hheld hm, rfl, ?ended⟩⟩
  case staged =>
    have hexec := exec_applyManifest_accepted htakes hrec hunb hfn hnone hok
    rw [State.stage_eq] at hexec
    refine ⟨fun hlater => ⟨?_, t.withStaged_staged m _⟩, fun hnow => ?_⟩
    · rw [if_neg hlater] at hexec
      exact hexec
    · rw [if_pos hnow] at hexec
      exact hexec
  case adopted =>
    intro a b c d e f
    have hmod := s.adopt_mod m
    have hadopted : c = s.adopted m := rfl
    have hactivated : f = s.activated m := by simp only [f, e, d, hadopted, State.activated]
    have hexec := (exec_manifestActivation hst hm).trans (congrArg Host.Outcome.next (s.activate_eq m))
    rw [← hactivated] at hexec
    exact ⟨hexec, congrArg Module.inForce hmod,
      congrArg Module.staged hmod, s.adopt_pair m, congrArg Module.reassigning hmod, s.adopt_manHigh m,
      (congrArg Module.state hmod).trans rfl, fun hready => State.adopted_run m hready⟩
  case ended =>
    obtain ⟨hparts, htaking, hstopped, hre'⟩ := s.endReassign_frame m
    refine ⟨hre', htaking, hstopped, fun r hr => ?_⟩
    rw [State.part_congr hparts]
    exact State.partsReassigned_part m hr

end Sys2Proof.Machine
end
